-- ==== Sys2Proof/Word.lean ====
section
/-!
DEFINITION. The word types of the KB9616 model: registers are 32 bits wide (R3), frames and records are bytes
(R18), and the real-number quantities of the metrology chapters are exact rationals (`Real`), rounded only where
the spec names a stored format.
-/

namespace Sys2Proof

/-- One register word (R3). -/
abbrev Word := BitVec 32

/-- One byte of a frame, record or image (R18). -/
abbrev Byte := BitVec 8

/-- A number of the metrology equations before it is stored: an exact rational. -/
abbrev Real := Rat

end Sys2Proof
end

