-- ==== Sys2Proof/Syntax.lean ====
section
/-!
DEFINITION. The commands and events of the KB9616: one constructor of `Instr` per row of spec/opcode_table.json.
The table gives its rows no operand fields; the operands here are what the row's step takes from outside the device
(a register value written, a frame received, conversion codes, an index) and cannot be computed from the state.
-/

namespace Sys2Proof

/-- The two host access paths of R4 and R270: the host SPI port and the Drega register service. -/
inductive Path where
  | spi
  | drega
deriving DecidableEq, Repr

/-- The four error-handling regions of R43, in the order AQ, MT, LG, IF. -/
inductive Region where
  | aq
  | mt
  | lg
  | ifr
deriving DecidableEq, Repr

/-- A unit whose fault R39 contains: bay engine, process engine, spectral accelerator, Garnet, network engine. -/
inductive FaultUnit where
  | bayEngine (n : Fin 16)
  | procEngine (n : Fin 4)
  | accel (n : Fin 2)
  | garnet
  | netEngine (n : Fin 2)
deriving DecidableEq, Repr

/-- The fault a unit reports (R39), with its ERROR code of SYS_ESC_LAST: 0x01, 0x02 or 0x03; `corrected` is a single-bit
error that its code has corrected. -/
inductive FaultKind where
  | corrected
  | ecc
  | microcode
  | watchdog
deriving DecidableEq, Repr

/-- One conversion of a lane's two slices at one epoch: the raw codes and whether each dither value read back equals
the one issued (R52, R53). -/
structure LaneConv where
  coarse : BitVec 12
  fine : BitVec 12
  coarseResidueOk : Bool
  fineResidueOk : Bool
deriving DecidableEq, Repr

/-- One conversion of the auxiliary slice (R145, R149). -/
structure AuxConv where
  raw : BitVec 12
  residueOk : Bool
deriving DecidableEq, Repr

/-- A time on the PTP timescale: 48-bit seconds and nanoseconds (R323). -/
structure PtpTime where
  sec : BitVec 48
  ns : BitVec 32
deriving DecidableEq, Repr

/-- The requester of a Drega message (R319): port of arrival, MAC, IPv4 address and UDP port. -/
structure DregaSrc where
  port : Fin 2
  mac : BitVec 48
  ip : BitVec 32
  udp : BitVec 16
deriving DecidableEq, Repr

/-- The two Nirair ports of a device (R353). -/
inductive RingPort where
  | u
  | d
deriving DecidableEq, Repr

/-- A frame received on a Nirair port (R354). -/
structure RingIn where
  port : RingPort
  bytes : List Byte
deriving DecidableEq, Repr

/-- When a new level of a pulse input is first sampled and for how long it then holds, in XREF cycles (R155). -/
structure EdgeTime where
  cycle : Nat
  held : Nat
deriving DecidableEq, Repr

/-- The tamper sources whose conditions begin and the levels of ENC0 to ENC3 then (R287, R288). -/
structure TamperIn where
  sources : List (Fin 33)
  enc : BitVec 4
deriving DecidableEq, Repr

/-- An item of a READING message (R317): ADDR, WORDS and its two reserved bytes. -/
structure RdgItem where
  addr : BitVec 32
  words : BitVec 16
  reserved : BitVec 16
deriving DecidableEq, Repr

/-- A link on which a hop delay is measured (R356, R369). -/
inductive HopLink where
  | u
  | d
  | twin
deriving DecidableEq, Repr

/-- The PTP messages the device sends when an interval elapses (R321). -/
inductive PtpSend where
  | sync
  | announce
  | delayReq
  | pdelayReq
deriving DecidableEq, Repr

/-- How a MAC transmission ends (R309). -/
inductive TxEnd where
  | sent
  | linkDown
deriving DecidableEq, Repr

/-- How far a host frame had run when HCS_N rose (R436). -/
inductive AbortStage where
  | beforeCrc
  | writeAfterDcrc (cmd : BitVec 8) (addr : BitVec 32) (words : BitVec 16) (data : List Word)
  | readAfterHeader (cmd : BitVec 8) (addr : BitVec 32) (words : BitVec 16) (fetched : BitVec 16)
deriving DecidableEq, Repr

/-- The buffer a load completes for (R253, R259): recorder or Audit Trail. -/
inductive LogKind where
  | recorder
  | audit
deriving DecidableEq, Repr

/-- A Strata bank that failed during a step and the cause coded as STR_BANKS.LAST_CAUSE (R237); with cause 0 the bank has not
failed, and a single-bit error of it has been corrected (R222). -/
structure BankFail where
  bank : Fin 16
  cause : BitVec 4
deriving DecidableEq, Repr

/-- The commands and events of the block: one constructor per row of the table, in the table's order. -/
inductive Instr where
  | powerGood (cscRole twnRole : Bool)
  | rstNAssert
  | brownout
  | powerFailWarning
  | finalCutoff
  | warnReset
  | pllLock
  | recoveryComplete (fails : List BankFail)
  | candidateReadComplete
  | imageVerify
  | imageApply
  | tamperTestWindowEnd (responded : Bool)
  | tamperTestComplete
  | tamperTestPeriodic
  | acquisitionStart
  | laneOutputSample (conv : List (List LaneConv))
  | laneStartCountEnd (lane : Fin 76)
  | laneRestart (p : Path) (lane : BitVec 7)
  | capture (p : Path)
  | captureBoundary
  | wholeSecondBoundary (refRatio : Word) (ptp : PtpTime)
  | streamTick (n : Fin 4)
  | epochAlign (base : BitVec 64)
  | cycleEnd (bay : Fin 16)
  | halfCycleRms (bay : Fin 16)
  | accelJobComplete (acc : Fin 2)
  | engineFault (u : FaultUnit) (k : FaultKind)
  | engineRestartDone (u : FaultUnit)
  | lockstepMismatch
  | veinWatchdog (r : Region)
  | autoRestart
  | calWindowEnd
  | calEvaluationComplete
  | calSwitchOver
  | stageOpen (p : Path)
  | stageCommit (p : Path)
  | stageAbort (p : Path)
  | rebase (p : Path) (lane : BitVec 7)
  | calAccDataRead (p : Path)
  | calAccDataWrite (p : Path) (data : Word)
  | poPulseStart (k : Fin 16)
  | poPulseEnd (k : Fin 16)
  | scanTrigger (p : Path)
  | periodicTrigger
  | scanSettleEnd
  | scanComplete (conv : List AuxConv)
  | pulseEdge (k : Fin 8) (level partner : Bool) (bothChanged : Bool) (time : EdgeTime)
  | noSignal (k : Fin 8)
  | fldLow
  | fldOk
  | excOpen (k : Fin 4)
  | quantum
  | foldWindowClose
  | outageProcessing
  | billingClose (p : Path)
  | acceptStep (p : Path)
  | rejectStep (p : Path)
  | psvOpen (p : Path)
  | psvCommit (p : Path)
  | psvAbort (p : Path)
  | psvCancel (p : Path)
  | tarCalDataRead (p : Path)
  | tarCalDataWrite (p : Path) (data : Word)
  | ledLpDataRead (p : Path)
  | commitComplete (us : BitVec 16) (fails : List BankFail)
  | postCommitCopyDone (fails : List BankFail)
  | compactionComplete (fails : List BankFail)
  | bucketRefill (code : BitVec 8)
  | recordWriteStart
  | recordWriteDone (fails : List BankFail)
  | suppressedTimeout
  | recorderPeriodEnd
  | recorderScanDone
  | recSelLoad (p : Path) (rseq : Word)
  | recLoadDone (p : Path) (log : LogKind) (fails : List BankFail)
  | recDataRead (p : Path)
  | freeze (p : Path)
  | release (p : Path)
  | freezeTimeout
  | clear (p : Path)
  | clearSlots (p : Path)
  | audSelLoad (p : Path) (aseq : Word)
  | audDataRead (p : Path)
  | nonceIssue (p : Path)
  | nonceLapse (p : Path)
  | tokenDataWrite (p : Path) (data : Word)
  | submit (p : Path)
  | tokenVerified
  | close (p : Path)
  | sessionExpiry (p : Path)
  | dualExpired
  | armedExpiry (p : Path)
  | formEcdsa (p : Path)
  | formHmac (p : Path)
  | readingSigned
  | rdgDataRead (p : Path)
  | tamperDetection (begun : TamperIn) (machine : BitVec 4) (code : BitVec 8)
  | phyPoll (port : Fin 2) (reg1 reg5 reg10 : BitVec 16)
  | mdioRead (p : Path) (port : Fin 2) (reg : BitVec 5)
  | mdioWrite (p : Path) (port : Fin 2) (reg : BitVec 5) (data : BitVec 16)
  | mdioDone (port : Fin 2) (data : BitVec 16)
  | rxFrame (port : Fin 2) (bytes : List Byte) (fcsOk : Bool) (ts : PtpTime)
  | announceTimeout
  | ptpPortReturn
  | ptpMessageSend (m : PtpSend)
  | txStart (port : Fin 2)
  | txComplete (port : Fin 2) (ending : TxEnd) (ts : PtpTime)
  | launchTime (port : Fin 2) (now : PtpTime)
  | nsWrap
  | htxDataWrite (p : Path) (data : Word)
  | htxGo (p : Path) (v : Word)
  | htxDoneRead (p : Path)
  | hrxPop (p : Path) (port : Fin 2) (v : Word)
  | hrxDataRead (p : Path) (port : Fin 2)
  | regRead (src : DregaSrc) (tag : BitVec 16) (flags : Byte) (addr : BitVec 32) (words : BitVec 16)
  | regWrite (src : DregaSrc) (tag : BitVec 16) (flags : Byte) (addr : BitVec 32) (words : BitVec 16) (data : List Word)
  | reading (src : DregaSrc) (tag : BitVec 16) (flags : Byte) (nonce : BitVec 64) (items : List RdgItem)
  | dregaKeptExpiry (src : DregaSrc)
  | published (k : Fin 4)
  | arpRefresh (port : Fin 2) (ip : BitVec 32)
  | arpRetry (port : Fin 2) (ip : BitVec 32)
  | supplyToBat
  | supplyToMain
  | bedrockPor
  | clrBkpLost (p : Path)
  | vbatMeasure (mv : BitVec 16)
  | rtcSecond
  | pwronTimeout
  | trimWindow
  | rtcShadowRead (p : Path) (reg : Fin 8)
  | rtcShadowRelease (p : Path)
  | halt (p : Path)
  | rtcFieldWrite (p : Path) (reg : Fin 8) (v : Word)
  | rtcLoad (p : Path)
  | rtcAutoSet
  | discover (rx : RingIn)
  | join (port : RingPort) (head body check : List Byte)
  | admitFrame (rx : RingIn)
  | marker (rx : RingIn) (epoch : BitVec 64) (lag : Int)
  | delayReq (link : HopLink) (frame : List Byte)
  | delayResp (link : HopLink) (frame : List Byte) (sent arrived : BitVec 32)
  | contrib (port : RingPort) (frame : List Byte)
  | contribAck (rx : RingIn)
  | discoverSend
  | searchEnd
  | joinRetry
  | memberAbsentTimeout (pos : Fin 8)
  | markerSend
  | hopDelayMeasure
  | holdover
  | ringFaultTimeout
  | masterTimeTimeout
  | nirairPortDown (port : RingPort)
  | hello (head uid place site status check : List Byte)
  | twinMarker (frame : List Byte) (epoch : BitVec 64) (lag : Int)
  | twinDelta (head body check : List Byte)
  | sole (frame : List Byte)
  | twinPresenceLost
  | twinWindowEnd
  | load (p : Path)
  | loadReset (p : Path)
  | configReset
  | loadTakesEffect
  | flashRead (p : Path)
  | flashProgram (p : Path)
  | flashErase (p : Path)
  | flashCmdDone (failed : Bool)
  | powerOn (p : Path) (dom : BitVec 5)
  | powerOff (p : Path) (dom : BitVec 5)
  | domainDrainDone (d : Fin 17)
  | domainOffDone (d : Fin 17)
  | domainOnDone (d : Fin 17)
  | panelReq (p : Path) (win : BitVec 8)
  | panelUpdateStart
  | panelUpdateDone
  | panelFrameStart
  | panelVpnlLow
  | panelVpnlOk
  | crackMeasure (ohms : Nat)
  | read (addr : BitVec 32) (words : BitVec 16) (hcrc : Byte)
  | write (addr : BitVec 32) (words : BitVec 16) (hcrc : Byte) (data : List Word) (dcrc : Byte)
  | readFixed (addr : BitVec 32) (words : BitVec 16) (hcrc : Byte)
  | writeFixed (addr : BitVec 32) (words : BitVec 16) (hcrc : Byte) (data : List Word) (dcrc : Byte)
  | frameAbandoned (stage : AbortStage)
  | registerWrite (p : Path) (addr : BitVec 32) (v : Word)
  | tamperConditionEnd (srcs : Fin 33)
  | excOpenEnd (k : Fin 4)
  | nirairSymbolLock (port : RingPort)
deriving DecidableEq, Repr

end Sys2Proof
end

