-- ==== Sys2Proof/Decode.lean ====
section
/-!
DEFINITION. The commands the table's words spell. spec/opcode_table.json gives its rows no bits, so no word spells one.
-/

namespace Sys2Proof

/-- The command a word spells by the table's bits: none, since no row of the table has bits. -/
def decodeTableWord (_nbits _w : Nat) : Option Instr := none

end Sys2Proof
end

