-- ==== Sys2Proof/Config.lean ====
section
/-!
DEFINITION. What the spec leaves open, and the functions it names without defining: constants and functions WITHOUT A
BODY. No proof can see a value of one, so a statement holds whatever they are. The cryptographic functions (SHA-256,
ECDSA P-256, ECDH, HMAC) are public standards the spec cites; the model needs only that they are functions.
-/

namespace Sys2Proof

/-- SHA-256 of a byte string (R261, R267, R271, R394). -/
opaque Config.sha256 : List Byte → BitVec 256

/-- Whether an ECDSA P-256 signature (r then s) over a SHA-256 digest verifies under a public key (X then Y). -/
opaque Config.ecdsaVerify : (pub : BitVec 512) → (digest : BitVec 256) → (sig : BitVec 512) → Bool

/-- The ECDSA P-256 signature of a digest by the device key, named by its public key (R280, R284: RFC 6979, so a function). -/
opaque Config.ecdsaSign : (devPub : BitVec 512) → (digest : BitVec 256) → BitVec 512

/-- HMAC-SHA-256 of a byte string under a 256-bit key (R280). -/
opaque Config.hmac : (key : BitVec 256) → List Byte → BitVec 256

/-- Z of R269: the x-coordinate of the device private key (named by its public key) times an authority key. -/
opaque Config.ecdh : (devPub : BitVec 512) → (authPub : BitVec 512) → BitVec 256

/-- Whether a public key is a point on P-256 (R268). -/
opaque Config.onCurve : BitVec 512 → Bool

/-- The public half of Walvia's patch key, held in mask ROM (R395): one fixed key, published apart from the spec. -/
opaque Config.patchKey : BitVec 512

/-- The device nonces of R270, drawn from the entropy source: one free value for each draw. -/
opaque Config.nonce : (draw : Nat) → BitVec 128

/-- The duration in µs that STR_COMMIT reports for a commit made inside another step: a free value for each draw. -/
opaque Config.commitUs : (draw : Nat) → BitVec 16

/-- Whether a ledger bank fails during a commit made inside another step, and then which copy's and its cause as STR_BANKS
codes it (R237, R464): an event from outside, free for each draw. -/
opaque Config.commitFault : (draw : Nat) → Option (Fin 2 × BitVec 4)

/-- How far the write of a transaction (0) or of a record (1) has come when a core reset cuts it short (R227, R252): free for
each draw. -/
opaque Config.cut : (draw which : Nat) → Fin 4

/-- A word the spec leaves open, by the draw (`State.free`) that takes it. -/
opaque Config.openWord : (draw : Nat) → BitVec 32

/-- A byte the spec leaves open, by draw and address: what a flash command that fails leaves behind (R391). -/
opaque Config.openByte : (draw addr : Nat) → BitVec 8

/-- The clockIdentity of the device's PTP clock (R321 names IEEE 1588; the spec does not say how it is formed), by port MAC. -/
opaque Config.clockIdentity : BitVec 48 → BitVec 64

/-- The frequency the PTP servo chooses at an offset measurement, in 2^-32 ns per cycle, before the limit of R323, by draw. -/
opaque Config.servoTrim : (draw : Nat) → BitVec 32

/-- Type of service and identification of an IPv4 header (R313 does not state them), by draw. -/
opaque Config.ipTosId : (draw : Nat) → BitVec 24

/-- The number of bytes of the STATE after-image (R225 says only "up to 1024 bytes"); the model uses it cut to 1024. -/
opaque Config.stateEntryBytes : Nat

/-- Whether a real that binary32 does not hold exactly is stored as its upper neighbour: the spec names no rounding. -/
opaque Config.roundUp : Real → Bool

/-- The number a binary32 infinity or NaN in an image or table is taken as: the spec states none. -/
opaque Config.specialB32 : BitVec 32 → Real

/-- The seed of a slice's dither generator (R51): the spec says it is taken from the slice index and the UID, not how. -/
opaque Config.lfsrSeed : (slice : Nat) → (uid : BitVec 64) → BitVec 23

/-- Which six bits of the 23-bit register are the dither value (R51 does not say). -/
opaque Config.ditherBits : BitVec 23 → BitVec 6

/-- The taps of the decimation filters (R55 gives their response only), free among those whose response keeps to it: tap i
below the centre tap 608, for WIDE (`false`) and NARROW. -/
opaque Config.firTap : (narrow : Bool) → (i : Nat) → Real

/-- The change of a lane's delay, in Q8.8 ns, where the zero-sum residual does not determine the fit (R79). By draw. -/
opaque Config.delayFit : (draw : Nat) → Int

/-- The angle of the phasor 0, in turns, and a power of a negative number: no equation of the spec gives them a value. -/
opaque Config.zeroAngle : Real
opaque Config.oddPower : Real → Real → Real

/-- The interpolator of R102: the 32 taps of each of its branches 0 to 1024, free among those that keep to R102's ripple. -/
opaque Config.interpTap : (branch tap : Nat) → Real

/-- A real number the spec leaves open, by draw: the products of a cycle before the first (R107). -/
opaque Config.openReal : (draw which : Nat) → Real

/-- The quotient of a number and 0, where an equation of the spec divides and says nothing of a zero divisor. -/
opaque Config.divZero : Real → Real

/-- How far a density or enthalpy the engine reports lies from IAPWS-IF97, within ±1 ppm (R179), by draw. -/
opaque Config.if97Error : (draw which : Nat) → Real

/-- How far the Newton iteration of R166 ends from the root, within 10^-6 K, by R/R0. -/
opaque Config.rtdError : (ratio : Real) → Real

/-- A pixel of a character of the panel's built-in font (R415), column 0 at the left and row 0 at the top. -/
opaque Config.fontPixel : (code column row : Nat) → Bool

end Sys2Proof
end

