-- ==== Sys2Proof/Machine/RegTable.lean ====
section
/-!
DEFINITION. The register table: one row per register heading of the spec (R13), with its base address, the index
ranges of its repeated windows, its number of words (R4), its write class (R5), the bits of each field type that a
host write can act on (R8: RW or SW, W1C, WO), the bits an image sets (IMG) and its reset value (R14). R439: an address no row names is unimplemented.
-/

namespace Sys2Proof
namespace Machine

/-- The write classes of R5. -/
inductive WriteClass where
  | open_
  | sealed
  | image
deriving DecidableEq, Repr

/-- One register heading: `dims` lists (count, stride in bytes) of its index ranges, outermost first. -/
structure RegDef where
  name : String
  base : Nat
  dims : List (Nat × Nat)
  words : Nat
  cls : WriteClass
  rw : Nat
  w1c : Nat
  wo : Nat
  img : Nat
  reset : Nat
deriving DecidableEq, Repr

/-- One field of a register: the address of the word its lowest bit lies in, its lowest bit and its width. -/
structure Field where
  addr : Nat
  lo : Nat
  width : Nat
deriving DecidableEq, Repr

/-- Registers of the SYS and PWR area (R439). -/
def sysRegs1 : List RegDef := [
  ⟨"SYS_ID", 0x0, [], 1, .open_, 0x0, 0x0, 0x0, 0x0, 0x96160110⟩,
  ⟨"SYS_PRESENT", 0x4, [], 1, .open_, 0x0, 0x0, 0x0, 0x0, 0xFFFFF⟩,
  ⟨"SYS_UID", 0x8, [], 2, .open_, 0x0, 0x0, 0x0, 0x0, 0x0⟩,
  ⟨"SYS_STATUS", 0x10, [], 1, .open_, 0x0, 0x0, 0x0, 0x0, 0x0⟩,
  ⟨"SYS_ALERT", 0x14, [], 1, .open_, 0x0, 0x0, 0x0, 0x0, 0x0⟩,
  ⟨"SYS_ESC_STATUS", 0x20, [], 1, .open_, 0x0, 0xFFF, 0x0, 0x0, 0x0⟩,
  ⟨"SYS_ESC_COUNT", 0x24, [], 1, .open_, 0x0, 0x0, 0x0, 0x0, 0x0⟩,
  ⟨"SYS_ESC_LAST", 0x28, [], 1, .open_, 0x0, 0x0, 0x0, 0x0, 0x0⟩,
  ⟨"SYS_ESC_LAST_T", 0x2C, [], 1, .open_, 0x0, 0x0, 0x0, 0x0, 0x0⟩,
  ⟨"SYS_ESC_CTRL", 0x30, [], 1, .image, 0x0, 0x0, 0x0, 0xFFF, 0xA⟩,
  ⟨"SYS_ENG_MAP0", 0x40, [], 1, .open_, 0x0, 0x0, 0x0, 0x0, 0x0⟩,
  ⟨"SYS_ENG_MAP1", 0x44, [], 1, .open_, 0x0, 0x0, 0x0, 0x0, 0x0⟩,
  ⟨"SYS_ARB_AQ", 0x50, [], 1, .image, 0x0, 0x0, 0x0, 0xFFFFFFFF, 0x11111111⟩,
  ⟨"SYS_ARB_MT", 0x54, [], 1, .image, 0x0, 0x0, 0x0, 0xFFFFFFFF, 0x11111111⟩,
  ⟨"SYS_ARB_LG", 0x58, [], 1, .image, 0x0, 0x0, 0x0, 0xFFFFFFFF, 0x11111111⟩,
  ⟨"SYS_ARB_IF", 0x5C, [], 1, .image, 0x0, 0x0, 0x0, 0xFFFFFFFF, 0x11111111⟩,
  ⟨"SYS_VEIN_OWN", 0x60, [], 1, .open_, 0x0, 0x0, 0x0, 0x0, 0xE764E764⟩,
  ⟨"SYS_EPOCH", 0x68, [], 2, .open_, 0x0, 0x0, 0x0, 0x0, 0x0⟩,
  ⟨"SYS_EPOCH_SEC", 0x70, [], 2, .open_, 0x0, 0x0, 0x0, 0x0, 0x0⟩,
  ⟨"SYS_OPSEC", 0x78, [], 2, .open_, 0x0, 0x0, 0x0, 0x0, 0x0⟩,
  ⟨"SYS_PWRCYC", 0x80, [], 1, .open_, 0x0, 0x0, 0x0, 0x0, 0x0⟩,
  ⟨"SYS_TIME", 0x84, [], 1, .open_, 0x0, 0x0, 0x0, 0x0, 0x0⟩,
  ⟨"SYS_IRQ_STAT", 0x90, [], 1, .open_, 0x0, 0x3FFF, 0x0, 0x0, 0x0⟩,
  ⟨"SYS_IRQ_EN", 0x94, [], 1, .open_, 0x3FFF, 0x0, 0x0, 0x0, 0x0⟩,
  ⟨"SYS_HOST_LAST", 0x98, [], 1, .open_, 0x0, 0x0, 0x0, 0x0, 0x0⟩,
  ⟨"SYS_HOST_ERR", 0x9C, [], 1, .open_, 0x0, 0x0, 0x0, 0x0, 0x0⟩,
  ⟨"PWR_DEFAULT", 0x100, [], 1, .image, 0x0, 0x0, 0x0, 0x1FFFF, 0x3000⟩,
  ⟨"PWR_ON", 0x104, [], 1, .open_, 0x0, 0x0, 0x0, 0x0, 0x3000⟩,
  ⟨"PWR_BUSY", 0x108, [], 1, .open_, 0x0, 0x0, 0x0, 0x0, 0x0⟩,
  ⟨"PWR_PEND", 0x10C, [], 1, .open_, 0x0, 0x0, 0x0, 0x0, 0x0⟩]

/-- Registers of the SYS and PWR area (R439). -/
def sysRegs2 : List RegDef := [
  ⟨"PWR_CMD", 0x110, [], 1, .sealed, 0x1F, 0x0, 0xF0000000, 0x0, 0x0⟩,
  ⟨"PWR_MON", 0x114, [], 1, .open_, 0x0, 0x0, 0x0, 0x0, 0x0⟩]

/-- Registers of the AQ and AX area (R439). -/
def aqRegs1 : List RegDef := [
  ⟨"AQ_STATUS", 0x100000, [], 1, .open_, 0x0, 0x0, 0x0, 0x0, 0x0⟩,
  ⟨"AQ_VSET_MAP", 0x100004, [], 1, .image, 0x0, 0x0, 0x0, 0xFFFFFFFF, 0x0⟩,
  ⟨"AQ_LANE_CTRL", 0x100008, [], 1, .sealed, 0x7F, 0x0, 0x80000000, 0x0, 0x0⟩,
  ⟨"AQ_MM_CTRL", 0x100010, [], 1, .open_, 0x0, 0x0, 0x1, 0x0, 0x0⟩,
  ⟨"AQ_MM_STAT", 0x100014, [], 1, .open_, 0x0, 0x0, 0x0, 0x0, 0x0⟩,
  ⟨"AQ_MM_EPOCH", 0x100018, [], 2, .open_, 0x0, 0x0, 0x0, 0x0, 0x0⟩,
  ⟨"AQ_LANE_CFG", 0x100100, [(76, 0x4)], 1, .image, 0x0, 0x0, 0x0, 0x9F, 0x0⟩,
  ⟨"AQ_LANE_STAT", 0x100300, [(76, 0x4)], 1, .open_, 0x0, 0x1000000, 0x0, 0x0, 0x0⟩,
  ⟨"AQ_LANE_DISC", 0x100500, [(76, 0x4)], 1, .open_, 0x0, 0x0, 0x0, 0x0, 0x0⟩,
  ⟨"AQ_MM_MAX", 0x100700, [(76, 0x4)], 1, .open_, 0x0, 0x0, 0x0, 0x0, 0x80000000⟩,
  ⟨"AQ_MM_MIN", 0x100900, [(76, 0x4)], 1, .open_, 0x0, 0x0, 0x0, 0x0, 0x7FFFFFFF⟩,
  ⟨"AX_STATUS", 0x102000, [], 1, .open_, 0x0, 0x0, 0x0, 0x0, 0x0⟩,
  ⟨"AX_SCAN_MASK", 0x102004, [], 1, .image, 0x0, 0x0, 0x0, 0xFFFFFFFF, 0x0⟩,
  ⟨"AX_SCAN_CFG", 0x102008, [], 1, .image, 0x0, 0x0, 0x0, 0xF3FF00FF, 0x0⟩,
  ⟨"AX_TRIG", 0x10200C, [], 1, .open_, 0x0, 0x0, 0x1, 0x0, 0x0⟩,
  ⟨"AX_TRIG_OVERRUN", 0x102010, [], 1, .open_, 0x0, 0x0, 0x0, 0x0, 0x0⟩,
  ⟨"AX_DISCARD", 0x102014, [], 1, .open_, 0x0, 0x0, 0x0, 0x0, 0x0⟩,
  ⟨"AX_TICK_SEQ", 0x102018, [], 1, .open_, 0x0, 0x0, 0x0, 0x0, 0x0⟩,
  ⟨"AX_FLD", 0x10201C, [], 1, .open_, 0x0, 0x80000000, 0x0, 0x0, 0x0⟩,
  ⟨"AX_EXC_CFG", 0x102020, [(4, 0x4)], 1, .image, 0x0, 0x0, 0x0, 0xE0000000, 0x0⟩,
  ⟨"AX_EXC_STAT", 0x102030, [], 1, .open_, 0x0, 0xF0, 0x0, 0x0, 0x0⟩,
  ⟨"AX_CH_CFG", 0x102100, [(34, 0x20)], 1, .image, 0x0, 0x0, 0x0, 0x80000077, 0x0⟩,
  ⟨"AX_LAST", 0x102104, [(34, 0x20)], 1, .open_, 0x0, 0x0, 0x0, 0x0, 0x0⟩,
  ⟨"AX_LSTAT", 0x102108, [(34, 0x20)], 1, .open_, 0x0, 0x0, 0x0, 0x0, 0x0⟩,
  ⟨"AX_ACC_SUM", 0x10210C, [(34, 0x20)], 2, .open_, 0x0, 0x0, 0x0, 0x0, 0x0⟩,
  ⟨"AX_ACC_CNT", 0x102114, [(34, 0x20)], 1, .open_, 0x0, 0x0, 0x0, 0x0, 0x0⟩,
  ⟨"AX_MM_MAX", 0x102118, [(34, 0x20)], 1, .open_, 0x0, 0x0, 0x0, 0x0, 0x80000000⟩,
  ⟨"AX_MM_MIN", 0x10211C, [(34, 0x20)], 1, .open_, 0x0, 0x0, 0x0, 0x0, 0x7FFFFFFF⟩,
  ⟨"AX_PI_CFG", 0x102600, [(8, 0x20)], 1, .image, 0x0, 0x0, 0x0, 0xFF0F0000, 0x0⟩,
  ⟨"AX_PI_CNT", 0x102604, [(8, 0x20)], 1, .open_, 0x0, 0x0, 0x0, 0x0, 0x0⟩]

/-- Registers of the AQ and AX area (R439). -/
def aqRegs2 : List RegDef := [
  ⟨"AX_PI_TCNT", 0x102608, [(8, 0x20)], 1, .open_, 0x0, 0x0, 0x0, 0x0, 0x0⟩,
  ⟨"AX_PI_FREQ", 0x10260C, [(8, 0x20)], 1, .open_, 0x0, 0x0, 0x0, 0x0, 0x0⟩,
  ⟨"AX_PI_STAT", 0x102610, [(8, 0x20)], 1, .open_, 0x0, 0x0, 0x0, 0x0, 0x0⟩]

/-- Registers of the CAL area (R439). -/
def calRegs : List RegDef := [
  ⟨"CAL_STATUS", 0x200000, [], 1, .open_, 0x0, 0x0, 0x0, 0x0, 0x0⟩,
  ⟨"CAL_WINDOW", 0x200004, [], 1, .open_, 0x0, 0x0, 0x0, 0x0, 0x0⟩,
  ⟨"CAL_RESULT", 0x200008, [], 1, .open_, 0x0, 0x0, 0x0, 0x0, 0x0⟩,
  ⟨"CAL_REF", 0x20000C, [], 1, .open_, 0x0, 0x40000000, 0x0, 0x0, 0x0⟩,
  ⟨"CAL_REF_BASE", 0x200010, [], 1, .open_, 0x0, 0x0, 0x0, 0x0, 0x0⟩,
  ⟨"CAL_ZSUM", 0x200014, [], 1, .image, 0x0, 0x0, 0x0, 0xFFFFFFFF, 0x0⟩,
  ⟨"CAL_ACC_SEL", 0x200020, [], 1, .open_, 0xC003FFFF, 0x0, 0x0, 0x0, 0x0⟩,
  ⟨"CAL_ACC_DATA", 0x200024, [], 1, .sealed, 0xFFFFFFFF, 0x0, 0x0, 0x0, 0x0⟩,
  ⟨"CAL_CMD", 0x200028, [], 1, .sealed, 0x7F, 0x0, 0xF0000000, 0x0, 0x0⟩,
  ⟨"CAL_LANE_STAT", 0x200100, [(76, 0x4)], 1, .open_, 0x0, 0x0, 0x0, 0x0, 0x0⟩]

/-- Registers of the BAY windows area (R439). -/
def bayRegs1 : List RegDef := [
  ⟨"BAY_CFG", 0x300000, [(16, 0x1000)], 1, .image, 0x0, 0x0, 0x0, 0xFC000000, 0x0⟩,
  ⟨"BAY_THRESH", 0x300004, [(16, 0x1000)], 1, .image, 0x0, 0x0, 0x0, 0xFFFF, 0x64⟩,
  ⟨"BAY_KI_A", 0x300010, [(16, 0x1000)], 1, .image, 0x0, 0x0, 0x0, 0xFFFFFFFF, 0x3F800000⟩,
  ⟨"BAY_KI_B", 0x300014, [(16, 0x1000)], 1, .image, 0x0, 0x0, 0x0, 0xFFFFFFFF, 0x3F800000⟩,
  ⟨"BAY_KI_C", 0x300018, [(16, 0x1000)], 1, .image, 0x0, 0x0, 0x0, 0xFFFFFFFF, 0x3F800000⟩,
  ⟨"BAY_KI_N", 0x30001C, [(16, 0x1000)], 1, .image, 0x0, 0x0, 0x0, 0xFFFFFFFF, 0x3F800000⟩,
  ⟨"BAY_PHC_A", 0x300020, [(16, 0x1000)], 1, .image, 0x0, 0x0, 0x0, 0xFFFFFFFF, 0x0⟩,
  ⟨"BAY_PHC_B", 0x300024, [(16, 0x1000)], 1, .image, 0x0, 0x0, 0x0, 0xFFFFFFFF, 0x0⟩,
  ⟨"BAY_PHC_C", 0x300028, [(16, 0x1000)], 1, .image, 0x0, 0x0, 0x0, 0xFFFFFFFF, 0x0⟩,
  ⟨"BAY_PHC_N", 0x30002C, [(16, 0x1000)], 1, .image, 0x0, 0x0, 0x0, 0xFFFFFFFF, 0x0⟩,
  ⟨"BAY_STATUS", 0x300040, [(16, 0x1000)], 1, .open_, 0x0, 0x0, 0x0, 0x0, 0x0⟩,
  ⟨"BAY_QUAL", 0x300044, [(16, 0x1000)], 1, .open_, 0x0, 0xF0000000, 0x0, 0x0, 0x0⟩,
  ⟨"BAY_HELD", 0x300048, [(16, 0x1000)], 1, .open_, 0x0, 0x0, 0x0, 0x0, 0x0⟩,
  ⟨"BAY_LOST", 0x30004C, [(16, 0x1000)], 1, .open_, 0x0, 0x0, 0x0, 0x0, 0x0⟩,
  ⟨"BAY_SEQ", 0x300050, [(16, 0x1000)], 1, .open_, 0x0, 0x0, 0x0, 0x0, 0x0⟩,
  ⟨"BAY_FREQ", 0x300054, [(16, 0x1000)], 1, .open_, 0x0, 0x0, 0x0, 0x0, 0x0⟩,
  ⟨"BAY_URMS_A", 0x300060, [(16, 0x1000)], 1, .open_, 0x0, 0x0, 0x0, 0x0, 0x0⟩,
  ⟨"BAY_URMS_B", 0x300064, [(16, 0x1000)], 1, .open_, 0x0, 0x0, 0x0, 0x0, 0x0⟩,
  ⟨"BAY_URMS_C", 0x300068, [(16, 0x1000)], 1, .open_, 0x0, 0x0, 0x0, 0x0, 0x0⟩,
  ⟨"BAY_IRMS_A", 0x300070, [(16, 0x1000)], 1, .open_, 0x0, 0x0, 0x0, 0x0, 0x0⟩,
  ⟨"BAY_IRMS_B", 0x300074, [(16, 0x1000)], 1, .open_, 0x0, 0x0, 0x0, 0x0, 0x0⟩,
  ⟨"BAY_IRMS_C", 0x300078, [(16, 0x1000)], 1, .open_, 0x0, 0x0, 0x0, 0x0, 0x0⟩,
  ⟨"BAY_IRMS_N", 0x30007C, [(16, 0x1000)], 1, .open_, 0x0, 0x0, 0x0, 0x0, 0x0⟩,
  ⟨"BAY_IRES", 0x300080, [(16, 0x1000)], 1, .open_, 0x0, 0x0, 0x0, 0x0, 0x0⟩,
  ⟨"BAY_P_A", 0x300090, [(16, 0x1000)], 1, .open_, 0x0, 0x0, 0x0, 0x0, 0x0⟩,
  ⟨"BAY_P_B", 0x300094, [(16, 0x1000)], 1, .open_, 0x0, 0x0, 0x0, 0x0, 0x0⟩,
  ⟨"BAY_P_C", 0x300098, [(16, 0x1000)], 1, .open_, 0x0, 0x0, 0x0, 0x0, 0x0⟩,
  ⟨"BAY_P_T", 0x30009C, [(16, 0x1000)], 1, .open_, 0x0, 0x0, 0x0, 0x0, 0x0⟩,
  ⟨"BAY_Q1_A", 0x3000A0, [(16, 0x1000)], 1, .open_, 0x0, 0x0, 0x0, 0x0, 0x0⟩,
  ⟨"BAY_Q1_B", 0x3000A4, [(16, 0x1000)], 1, .open_, 0x0, 0x0, 0x0, 0x0, 0x0⟩]

/-- Registers of the BAY windows area (R439). -/
def bayRegs2 : List RegDef := [
  ⟨"BAY_Q1_C", 0x3000A8, [(16, 0x1000)], 1, .open_, 0x0, 0x0, 0x0, 0x0, 0x0⟩,
  ⟨"BAY_Q1_T", 0x3000AC, [(16, 0x1000)], 1, .open_, 0x0, 0x0, 0x0, 0x0, 0x0⟩,
  ⟨"BAY_QS_A", 0x3000B0, [(16, 0x1000)], 1, .open_, 0x0, 0x0, 0x0, 0x0, 0x0⟩,
  ⟨"BAY_QS_B", 0x3000B4, [(16, 0x1000)], 1, .open_, 0x0, 0x0, 0x0, 0x0, 0x0⟩,
  ⟨"BAY_QS_C", 0x3000B8, [(16, 0x1000)], 1, .open_, 0x0, 0x0, 0x0, 0x0, 0x0⟩,
  ⟨"BAY_QS_T", 0x3000BC, [(16, 0x1000)], 1, .open_, 0x0, 0x0, 0x0, 0x0, 0x0⟩,
  ⟨"BAY_S_A", 0x3000C0, [(16, 0x1000)], 1, .open_, 0x0, 0x0, 0x0, 0x0, 0x0⟩,
  ⟨"BAY_S_B", 0x3000C4, [(16, 0x1000)], 1, .open_, 0x0, 0x0, 0x0, 0x0, 0x0⟩,
  ⟨"BAY_S_C", 0x3000C8, [(16, 0x1000)], 1, .open_, 0x0, 0x0, 0x0, 0x0, 0x0⟩,
  ⟨"BAY_S_T", 0x3000CC, [(16, 0x1000)], 1, .open_, 0x0, 0x0, 0x0, 0x0, 0x0⟩,
  ⟨"BAY_PF_A", 0x3000E0, [(16, 0x1000)], 1, .open_, 0x0, 0x0, 0x0, 0x0, 0x0⟩,
  ⟨"BAY_PF_B", 0x3000E4, [(16, 0x1000)], 1, .open_, 0x0, 0x0, 0x0, 0x0, 0x0⟩,
  ⟨"BAY_PF_C", 0x3000E8, [(16, 0x1000)], 1, .open_, 0x0, 0x0, 0x0, 0x0, 0x0⟩,
  ⟨"BAY_PF_T", 0x3000EC, [(16, 0x1000)], 1, .open_, 0x0, 0x0, 0x0, 0x0, 0x0⟩,
  ⟨"BAY_HSTAT", 0x300400, [(16, 0x1000)], 1, .open_, 0x0, 0x0, 0x0, 0x0, 0x0⟩,
  ⟨"BAY_HSEQ", 0x300404, [(16, 0x1000)], 1, .open_, 0x0, 0x0, 0x0, 0x0, 0x0⟩,
  ⟨"BAY_HSKIP", 0x300408, [(16, 0x1000)], 1, .open_, 0x0, 0x0, 0x0, 0x0, 0x0⟩,
  ⟨"BAY_QCFG", 0x300410, [(16, 0x1000)], 1, .image, 0x0, 0x0, 0x0, 0x80000000, 0x0⟩,
  ⟨"BAY_UDIN", 0x300414, [(16, 0x1000)], 1, .image, 0x0, 0x0, 0x0, 0xFFFFFFFF, 0x0⟩,
  ⟨"BAY_QTHR", 0x300418, [(16, 0x1000)], 1, .image, 0x0, 0x0, 0x0, 0xFFFFFFFF, 0xB4DC0A04⟩,
  ⟨"BAY_IL", 0x30041C, [(16, 0x1000)], 1, .image, 0x0, 0x0, 0x0, 0xFFFFFFFF, 0x0⟩,
  ⟨"BAY_LIM_THDU", 0x300420, [(16, 0x1000)], 1, .image, 0x0, 0x0, 0x0, 0xFFFFFFFF, 0x0⟩,
  ⟨"BAY_LIM_THDI", 0x300424, [(16, 0x1000)], 1, .image, 0x0, 0x0, 0x0, 0xFFFFFFFF, 0x0⟩,
  ⟨"BAY_LIM_U2", 0x300428, [(16, 0x1000)], 1, .image, 0x0, 0x0, 0x0, 0xFFFFFFFF, 0x0⟩,
  ⟨"BAY_LIM_FDEV", 0x30042C, [(16, 0x1000)], 1, .image, 0x0, 0x0, 0x0, 0xFFFFFFFF, 0x0⟩,
  ⟨"BAY_THDU_A", 0x300440, [(16, 0x1000)], 1, .open_, 0x0, 0x0, 0x0, 0x0, 0x0⟩,
  ⟨"BAY_THDU_B", 0x300444, [(16, 0x1000)], 1, .open_, 0x0, 0x0, 0x0, 0x0, 0x0⟩,
  ⟨"BAY_THDU_C", 0x300448, [(16, 0x1000)], 1, .open_, 0x0, 0x0, 0x0, 0x0, 0x0⟩,
  ⟨"BAY_THDI_A", 0x300450, [(16, 0x1000)], 1, .open_, 0x0, 0x0, 0x0, 0x0, 0x0⟩,
  ⟨"BAY_THDI_B", 0x300454, [(16, 0x1000)], 1, .open_, 0x0, 0x0, 0x0, 0x0, 0x0⟩]

/-- Registers of the BAY windows area (R439). -/
def bayRegs3 : List RegDef := [
  ⟨"BAY_THDI_C", 0x300458, [(16, 0x1000)], 1, .open_, 0x0, 0x0, 0x0, 0x0, 0x0⟩,
  ⟨"BAY_THDI_N", 0x30045C, [(16, 0x1000)], 1, .open_, 0x0, 0x0, 0x0, 0x0, 0x0⟩,
  ⟨"BAY_THDXU_A", 0x300460, [(16, 0x1000)], 1, .open_, 0x0, 0x0, 0x0, 0x0, 0x0⟩,
  ⟨"BAY_THDXU_B", 0x300464, [(16, 0x1000)], 1, .open_, 0x0, 0x0, 0x0, 0x0, 0x0⟩,
  ⟨"BAY_THDXU_C", 0x300468, [(16, 0x1000)], 1, .open_, 0x0, 0x0, 0x0, 0x0, 0x0⟩,
  ⟨"BAY_THDXI_A", 0x300470, [(16, 0x1000)], 1, .open_, 0x0, 0x0, 0x0, 0x0, 0x0⟩,
  ⟨"BAY_THDXI_B", 0x300474, [(16, 0x1000)], 1, .open_, 0x0, 0x0, 0x0, 0x0, 0x0⟩,
  ⟨"BAY_THDXI_C", 0x300478, [(16, 0x1000)], 1, .open_, 0x0, 0x0, 0x0, 0x0, 0x0⟩,
  ⟨"BAY_THDXI_N", 0x30047C, [(16, 0x1000)], 1, .open_, 0x0, 0x0, 0x0, 0x0, 0x0⟩,
  ⟨"BAY_TDD_A", 0x300480, [(16, 0x1000)], 1, .open_, 0x0, 0x0, 0x0, 0x0, 0x0⟩,
  ⟨"BAY_TDD_B", 0x300484, [(16, 0x1000)], 1, .open_, 0x0, 0x0, 0x0, 0x0, 0x0⟩,
  ⟨"BAY_TDD_C", 0x300488, [(16, 0x1000)], 1, .open_, 0x0, 0x0, 0x0, 0x0, 0x0⟩,
  ⟨"BAY_U2", 0x300490, [(16, 0x1000)], 1, .open_, 0x0, 0x0, 0x0, 0x0, 0x0⟩,
  ⟨"BAY_U0", 0x300494, [(16, 0x1000)], 1, .open_, 0x0, 0x0, 0x0, 0x0, 0x0⟩,
  ⟨"BAY_I2", 0x300498, [(16, 0x1000)], 1, .open_, 0x0, 0x0, 0x0, 0x0, 0x0⟩,
  ⟨"BAY_I0", 0x30049C, [(16, 0x1000)], 1, .open_, 0x0, 0x0, 0x0, 0x0, 0x0⟩,
  ⟨"BAY_WFREQ", 0x3004A0, [(16, 0x1000)], 1, .open_, 0x0, 0x0, 0x0, 0x0, 0x0⟩,
  ⟨"BAY_A3_STAT", 0x3004C0, [(16, 0x1000)], 1, .open_, 0x0, 0x0, 0x0, 0x0, 0x0⟩,
  ⟨"BAY_A3_U_A", 0x3004C4, [(16, 0x1000)], 1, .open_, 0x0, 0x0, 0x0, 0x0, 0x0⟩,
  ⟨"BAY_A3_U_B", 0x3004C8, [(16, 0x1000)], 1, .open_, 0x0, 0x0, 0x0, 0x0, 0x0⟩,
  ⟨"BAY_A3_U_C", 0x3004CC, [(16, 0x1000)], 1, .open_, 0x0, 0x0, 0x0, 0x0, 0x0⟩,
  ⟨"BAY_A3_THDU_A", 0x3004D0, [(16, 0x1000)], 1, .open_, 0x0, 0x0, 0x0, 0x0, 0x0⟩,
  ⟨"BAY_A3_THDU_B", 0x3004D4, [(16, 0x1000)], 1, .open_, 0x0, 0x0, 0x0, 0x0, 0x0⟩,
  ⟨"BAY_A3_THDU_C", 0x3004D8, [(16, 0x1000)], 1, .open_, 0x0, 0x0, 0x0, 0x0, 0x0⟩,
  ⟨"BAY_A3_THDI_A", 0x3004DC, [(16, 0x1000)], 1, .open_, 0x0, 0x0, 0x0, 0x0, 0x0⟩,
  ⟨"BAY_A3_THDI_B", 0x3004E0, [(16, 0x1000)], 1, .open_, 0x0, 0x0, 0x0, 0x0, 0x0⟩,
  ⟨"BAY_A3_THDI_C", 0x3004E4, [(16, 0x1000)], 1, .open_, 0x0, 0x0, 0x0, 0x0, 0x0⟩,
  ⟨"BAY_A3_U2", 0x3004E8, [(16, 0x1000)], 1, .open_, 0x0, 0x0, 0x0, 0x0, 0x0⟩,
  ⟨"BAY_A3_FREQ", 0x3004EC, [(16, 0x1000)], 1, .open_, 0x0, 0x0, 0x0, 0x0, 0x0⟩,
  ⟨"BAY_A10_STAT", 0x300500, [(16, 0x1000)], 1, .open_, 0x0, 0x0, 0x0, 0x0, 0x0⟩]

/-- Registers of the BAY windows area (R439). -/
def bayRegs4 : List RegDef := [
  ⟨"BAY_A10_U_A", 0x300504, [(16, 0x1000)], 1, .open_, 0x0, 0x0, 0x0, 0x0, 0x0⟩,
  ⟨"BAY_A10_U_B", 0x300508, [(16, 0x1000)], 1, .open_, 0x0, 0x0, 0x0, 0x0, 0x0⟩,
  ⟨"BAY_A10_U_C", 0x30050C, [(16, 0x1000)], 1, .open_, 0x0, 0x0, 0x0, 0x0, 0x0⟩,
  ⟨"BAY_A10_THDU_A", 0x300510, [(16, 0x1000)], 1, .open_, 0x0, 0x0, 0x0, 0x0, 0x0⟩,
  ⟨"BAY_A10_THDU_B", 0x300514, [(16, 0x1000)], 1, .open_, 0x0, 0x0, 0x0, 0x0, 0x0⟩,
  ⟨"BAY_A10_THDU_C", 0x300518, [(16, 0x1000)], 1, .open_, 0x0, 0x0, 0x0, 0x0, 0x0⟩,
  ⟨"BAY_A10_THDI_A", 0x30051C, [(16, 0x1000)], 1, .open_, 0x0, 0x0, 0x0, 0x0, 0x0⟩,
  ⟨"BAY_A10_THDI_B", 0x300520, [(16, 0x1000)], 1, .open_, 0x0, 0x0, 0x0, 0x0, 0x0⟩,
  ⟨"BAY_A10_THDI_C", 0x300524, [(16, 0x1000)], 1, .open_, 0x0, 0x0, 0x0, 0x0, 0x0⟩,
  ⟨"BAY_A10_U2", 0x300528, [(16, 0x1000)], 1, .open_, 0x0, 0x0, 0x0, 0x0, 0x0⟩,
  ⟨"BAY_A10_FREQ", 0x30052C, [(16, 0x1000)], 1, .open_, 0x0, 0x0, 0x0, 0x0, 0x0⟩,
  ⟨"BAY_EVT_LAST", 0x300540, [(16, 0x1000)], 1, .open_, 0x0, 0x0, 0x0, 0x0, 0x0⟩,
  ⟨"BAY_EVT_DUR", 0x300544, [(16, 0x1000)], 1, .open_, 0x0, 0x0, 0x0, 0x0, 0x0⟩,
  ⟨"BAY_EVT_CNT", 0x300548, [(16, 0x1000)], 1, .open_, 0x0, 0x0, 0x0, 0x0, 0x0⟩,
  ⟨"BAY_HSEL", 0x300600, [(16, 0x1000)], 1, .open_, 0x37, 0x0, 0x0, 0x0, 0x0⟩,
  ⟨"BAY_HTAB", 0x300800, [(16, 0x1000), (128, 0x4)], 1, .open_, 0x0, 0x0, 0x0, 0x0, 0x0⟩]

/-- Registers of the MT_PS windows and MT area (R439). -/
def mtRegs1 : List RegDef := [
  ⟨"MT_PS_CFG", 0x310000, [(4, 0x1000)], 1, .image, 0x0, 0x0, 0x0, 0xFFE00000, 0x0⟩,
  ⟨"MT_PS_STATUS", 0x310004, [(4, 0x1000)], 1, .open_, 0x0, 0xE000, 0x0, 0x0, 0x0⟩,
  ⟨"MT_PS_SEQ", 0x310008, [(4, 0x1000)], 1, .open_, 0x0, 0x0, 0x0, 0x0, 0x0⟩,
  ⟨"MT_PS_IN_CFG", 0x310040, [(4, 0x1000), (5, 0x20)], 1, .image, 0x0, 0x0, 0x0, 0xFF3F3FFF, 0x0⟩,
  ⟨"MT_PS_IN_A", 0x310044, [(4, 0x1000), (5, 0x20)], 1, .image, 0x0, 0x0, 0x0, 0xFFFFFFFF, 0x0⟩,
  ⟨"MT_PS_IN_B", 0x310048, [(4, 0x1000), (5, 0x20)], 1, .image, 0x0, 0x0, 0x0, 0xFFFFFFFF, 0x0⟩,
  ⟨"MT_PS_IN_LO", 0x31004C, [(4, 0x1000), (5, 0x20)], 1, .image, 0x0, 0x0, 0x0, 0xFFFFFFFF, 0x0⟩,
  ⟨"MT_PS_IN_HI", 0x310050, [(4, 0x1000), (5, 0x20)], 1, .image, 0x0, 0x0, 0x0, 0xFFFFFFFF, 0x0⟩,
  ⟨"MT_PS_IN_SUB", 0x310054, [(4, 0x1000), (5, 0x20)], 1, .image, 0x0, 0x0, 0x0, 0xFFFFFFFF, 0x0⟩,
  ⟨"MT_PS_IN_VAL", 0x310058, [(4, 0x1000), (5, 0x20)], 1, .open_, 0x0, 0x0, 0x0, 0x0, 0x0⟩,
  ⟨"MT_PS_IN_STAT", 0x31005C, [(4, 0x1000), (5, 0x20)], 1, .open_, 0x0, 0x0, 0x0, 0x0, 0x0⟩,
  ⟨"MT_PS_PIPE_D20", 0x310100, [(4, 0x1000)], 1, .image, 0x0, 0x0, 0x0, 0xFFFFFFFF, 0x0⟩,
  ⟨"MT_PS_BORE_D20", 0x310104, [(4, 0x1000)], 1, .image, 0x0, 0x0, 0x0, 0xFFFFFFFF, 0x0⟩,
  ⟨"MT_PS_LAM_PIPE", 0x310108, [(4, 0x1000)], 1, .image, 0x0, 0x0, 0x0, 0xFFFFFFFF, 0x0⟩,
  ⟨"MT_PS_LAM_BORE", 0x31010C, [(4, 0x1000)], 1, .image, 0x0, 0x0, 0x0, 0xFFFFFFFF, 0x0⟩,
  ⟨"MT_PS_KAPPA", 0x310110, [(4, 0x1000)], 1, .image, 0x0, 0x0, 0x0, 0xFFFFFFFF, 0x0⟩,
  ⟨"MT_PS_VISC", 0x310114, [(4, 0x1000)], 1, .image, 0x0, 0x0, 0x0, 0xFFFFFFFF, 0x0⟩,
  ⟨"MT_PS_DP_CUT", 0x310118, [(4, 0x1000)], 1, .image, 0x0, 0x0, 0x0, 0xFFFFFFFF, 0x0⟩,
  ⟨"MT_PS_DRYNESS", 0x31011C, [(4, 0x1000)], 1, .image, 0x0, 0x0, 0x0, 0xFFFFFFFF, 0x0⟩,
  ⟨"MT_PS_HREF", 0x310120, [(4, 0x1000)], 1, .image, 0x0, 0x0, 0x0, 0xFFFFFFFF, 0x0⟩,
  ⟨"MT_PS_P_ATM", 0x310124, [(4, 0x1000)], 1, .image, 0x0, 0x0, 0x0, 0xFFFFFFFF, 0x0⟩,
  ⟨"MT_PS_MOLAR", 0x310128, [(4, 0x1000)], 1, .image, 0x0, 0x0, 0x0, 0xFFFFFFFF, 0x0⟩,
  ⟨"MT_PS_PN", 0x31012C, [(4, 0x1000)], 1, .image, 0x0, 0x0, 0x0, 0xFFFFFFFF, 0x0⟩,
  ⟨"MT_PS_TN", 0x310130, [(4, 0x1000)], 1, .image, 0x0, 0x0, 0x0, 0xFFFFFFFF, 0x0⟩,
  ⟨"MT_PS_DT_CUT", 0x310134, [(4, 0x1000)], 1, .image, 0x0, 0x0, 0x0, 0xFFFFFFFF, 0x0⟩,
  ⟨"MT_PS_SAT_TOL", 0x310138, [(4, 0x1000)], 1, .image, 0x0, 0x0, 0x0, 0xFFFFFFFF, 0x0⟩,
  ⟨"MT_PS_ZP", 0x310200, [(4, 0x1000), (8, 0x4)], 1, .image, 0x0, 0x0, 0x0, 0xFFFFFFFF, 0x0⟩,
  ⟨"MT_PS_ZT", 0x310220, [(4, 0x1000), (8, 0x4)], 1, .image, 0x0, 0x0, 0x0, 0xFFFFFFFF, 0x0⟩,
  ⟨"MT_PS_Z", 0x310240, [(4, 0x1000), (64, 0x4)], 1, .image, 0x0, 0x0, 0x0, 0xFFFFFFFF, 0x0⟩,
  ⟨"MT_PS_QM", 0x310400, [(4, 0x1000)], 1, .open_, 0x0, 0x0, 0x0, 0x0, 0x0⟩]

/-- Registers of the MT_PS windows and MT area (R439). -/
def mtRegs2 : List RegDef := [
  ⟨"MT_PS_QV", 0x310404, [(4, 0x1000)], 1, .open_, 0x0, 0x0, 0x0, 0x0, 0x0⟩,
  ⟨"MT_PS_QN", 0x310408, [(4, 0x1000)], 1, .open_, 0x0, 0x0, 0x0, 0x0, 0x0⟩,
  ⟨"MT_PS_PWR", 0x31040C, [(4, 0x1000)], 1, .open_, 0x0, 0x0, 0x0, 0x0, 0x0⟩,
  ⟨"MT_PS_RHO", 0x310410, [(4, 0x1000)], 1, .open_, 0x0, 0x0, 0x0, 0x0, 0x0⟩,
  ⟨"MT_PS_H", 0x310414, [(4, 0x1000)], 1, .open_, 0x0, 0x0, 0x0, 0x0, 0x0⟩,
  ⟨"MT_PS_HREF_USED", 0x310418, [(4, 0x1000)], 1, .open_, 0x0, 0x0, 0x0, 0x0, 0x0⟩,
  ⟨"MT_PS_C", 0x31041C, [(4, 0x1000)], 1, .open_, 0x0, 0x0, 0x0, 0x0, 0x0⟩,
  ⟨"MT_PS_EPS", 0x310420, [(4, 0x1000)], 1, .open_, 0x0, 0x0, 0x0, 0x0, 0x0⟩,
  ⟨"MT_PS_RE", 0x310424, [(4, 0x1000)], 1, .open_, 0x0, 0x0, 0x0, 0x0, 0x0⟩,
  ⟨"MT_STATUS", 0x320000, [], 1, .open_, 0x0, 0x0, 0x0, 0x0, 0x0⟩,
  ⟨"MT_XREF", 0x320004, [], 1, .open_, 0x0, 0x0, 0x0, 0x0, 0x0⟩,
  ⟨"MT_XREF_TRIM", 0x320008, [], 1, .image, 0x0, 0x0, 0x0, 0xFFFFFF, 0x0⟩,
  ⟨"MT_VL_KU", 0x320040, [(12, 0x4)], 1, .image, 0x0, 0x0, 0x0, 0xFFFFFFFF, 0x3F800000⟩,
  ⟨"MT_VL_PHC", 0x320080, [(12, 0x4)], 1, .image, 0x0, 0x0, 0x0, 0xFFFFFFFF, 0x0⟩,
  ⟨"MT_PO_CFG", 0x320100, [(16, 0x10)], 1, .image, 0x0, 0x0, 0x0, 0xF80FFFFF, 0x0⟩,
  ⟨"MT_PO_QUANT", 0x320104, [(16, 0x10)], 1, .image, 0x0, 0x0, 0x0, 0xFFFFFFFF, 0x0⟩,
  ⟨"MT_PO_STAT", 0x320108, [(16, 0x10)], 1, .open_, 0x0, 0x80000000, 0x0, 0x0, 0x0⟩]

/-- Registers of the LED, TAR, DEM and STR area (R439). -/
def ledRegs1 : List RegDef := [
  ⟨"LED_STATUS", 0x400000, [], 1, .open_, 0x0, 0x0, 0x0, 0x0, 0x20000000⟩,
  ⟨"LED_TICK_SEQ", 0x400004, [], 1, .open_, 0x0, 0x0, 0x0, 0x0, 0x0⟩,
  ⟨"LED_LATE", 0x400008, [], 1, .open_, 0x0, 0x0, 0x0, 0x0, 0x0⟩,
  ⟨"LED_TIME", 0x400010, [], 2, .open_, 0x0, 0x0, 0x0, 0x0, 0x0⟩,
  ⟨"LED_LAST_CLOSED", 0x400018, [], 2, .open_, 0x0, 0x0, 0x0, 0x0, 0x0⟩,
  ⟨"LED_STEP", 0x400020, [], 1, .open_, 0x0, 0x0, 0x0, 0x0, 0x0⟩,
  ⟨"LED_CMD", 0x400024, [], 1, .sealed, 0x0, 0x0, 0xF0000000, 0x0, 0x0⟩,
  ⟨"LED_BP_CFG", 0x400028, [], 1, .image, 0x0, 0x0, 0x0, 0xE01FFFE0, 0x0⟩,
  ⟨"LED_BP_STAT", 0x40002C, [], 1, .open_, 0x0, 0x0, 0x0, 0x0, 0x0⟩,
  ⟨"LED_SNAP_SEL", 0x400030, [], 1, .open_, 0x1F, 0x0, 0x0, 0x0, 0x0⟩,
  ⟨"LED_SNAP_INFO", 0x400034, [], 1, .open_, 0x0, 0x0, 0x0, 0x0, 0x0⟩,
  ⟨"LED_SNAP_OPEN", 0x400038, [], 2, .open_, 0x0, 0x0, 0x0, 0x0, 0x0⟩,
  ⟨"LED_SNAP_CLOSE", 0x400040, [], 2, .open_, 0x0, 0x0, 0x0, 0x0, 0x0⟩,
  ⟨"LED_SITE", 0x400048, [], 1, .open_, 0x0, 0x0, 0x0, 0x0, 0x0⟩,
  ⟨"LED_LP_CFG", 0x400050, [], 1, .image, 0x0, 0x0, 0x0, 0x80000007, 0x0⟩,
  ⟨"LED_LP_STAT", 0x400054, [], 1, .open_, 0x0, 0x0, 0x0, 0x0, 0x0⟩,
  ⟨"LED_LP_SEL", 0x400058, [], 1, .open_, 0xFFFFFFFF, 0x0, 0x0, 0x0, 0x0⟩,
  ⟨"LED_LP_DATA", 0x40005C, [], 1, .open_, 0x0, 0x0, 0x0, 0x0, 0x0⟩,
  ⟨"TAR_STATUS", 0x401000, [], 1, .open_, 0x0, 0x20000000, 0x0, 0x0, 0x0⟩,
  ⟨"TAR_ACT_ID", 0x401004, [], 1, .open_, 0x0, 0x0, 0x0, 0x0, 0x0⟩,
  ⟨"TAR_PSV_ID", 0x401008, [], 1, .open_, 0x0, 0x0, 0x0, 0x0, 0x0⟩,
  ⟨"TAR_CAL_SEL", 0x40100C, [], 1, .open_, 0x800001FF, 0x0, 0x0, 0x0, 0x0⟩,
  ⟨"TAR_CAL_DATA", 0x401010, [], 1, .sealed, 0xFFFFFFFF, 0x0, 0x0, 0x0, 0x0⟩,
  ⟨"TAR_CMD", 0x401014, [], 1, .sealed, 0x0, 0x0, 0xF0000000, 0x0, 0x0⟩,
  ⟨"DEM_CFG", 0x402000, [], 1, .image, 0x0, 0x0, 0x0, 0x800000F7, 0x3⟩,
  ⟨"DEM_STATUS", 0x402004, [], 1, .open_, 0x0, 0x0, 0x0, 0x0, 0x0⟩,
  ⟨"STR_STATUS", 0x403000, [], 1, .open_, 0x0, 0x0, 0x0, 0x0, 0x20000000⟩,
  ⟨"STR_BANKS", 0x403004, [], 1, .open_, 0x0, 0x0, 0x0, 0x0, 0x0⟩,
  ⟨"STR_JOURNAL", 0x403008, [], 1, .open_, 0x0, 0x0, 0x0, 0x0, 0x0⟩,
  ⟨"STR_TSEQ", 0x40300C, [], 1, .open_, 0x0, 0x0, 0x0, 0x0, 0x0⟩]

/-- Registers of the LED, TAR, DEM and STR area (R439). -/
def ledRegs2 : List RegDef := [
  ⟨"STR_BASE_SEQ", 0x403010, [], 1, .open_, 0x0, 0x0, 0x0, 0x0, 0x0⟩,
  ⟨"STR_COMMIT", 0x403014, [], 1, .open_, 0x0, 0x0, 0x0, 0x0, 0x0⟩,
  ⟨"STR_ECC", 0x403018, [], 1, .open_, 0x0, 0x0, 0x0, 0x0, 0x0⟩,
  ⟨"STR_RECOVERY", 0x40301C, [], 1, .open_, 0x0, 0x0, 0x0, 0x0, 0x0⟩,
  ⟨"STR_COMPACT", 0x403020, [], 1, .open_, 0x0, 0x0, 0x0, 0x0, 0x0⟩,
  ⟨"DEM_LAST", 0x404000, [(21, 0x800), (6, 0x100)], 2, .open_, 0x0, 0x0, 0x0, 0x0, 0x0⟩,
  ⟨"DEM_LAST_STAT", 0x404008, [(21, 0x800), (6, 0x100)], 1, .open_, 0x0, 0x0, 0x0, 0x0, 0x0⟩,
  ⟨"DEM_MAX", 0x404010, [(21, 0x800), (6, 0x100), (9, 0x10)], 2, .open_, 0x0, 0x0, 0x0, 0x0, 0x0⟩,
  ⟨"DEM_MAXT", 0x404018, [(21, 0x800), (6, 0x100), (9, 0x10)], 2, .open_, 0x0, 0x0, 0x0, 0x0, 0x0⟩]

/-- Registers of the REC and AUD area (R439). -/
def recRegs : List RegDef := [
  ⟨"REC_STATUS", 0x500000, [], 1, .open_, 0x0, 0x0, 0x0, 0x0, 0x0⟩,
  ⟨"REC_CFG", 0x500004, [], 1, .image, 0x0, 0x0, 0x0, 0x80000003, 0x3⟩,
  ⟨"REC_NEWEST", 0x500008, [], 1, .open_, 0x0, 0x0, 0x0, 0x0, 0x0⟩,
  ⟨"REC_OLDEST", 0x50000C, [], 1, .open_, 0x0, 0x0, 0x0, 0x0, 0x0⟩,
  ⟨"REC_INTAKE", 0x500010, [], 1, .open_, 0x0, 0x0, 0x0, 0x0, 0x0⟩,
  ⟨"REC_RD", 0x500014, [], 1, .open_, 0x0, 0x0, 0xC0000000, 0x0, 0x0⟩,
  ⟨"REC_SEL", 0x500018, [], 1, .open_, 0xFFFFFFFF, 0x0, 0x0, 0x0, 0x0⟩,
  ⟨"REC_DATA", 0x50001C, [], 1, .open_, 0x0, 0x0, 0x0, 0x0, 0x0⟩,
  ⟨"REC_SUPP_SEL", 0x500020, [], 1, .open_, 0xFF, 0x0, 0x0, 0x0, 0x0⟩,
  ⟨"REC_SUPP", 0x500024, [], 1, .open_, 0x0, 0x0, 0x0, 0x0, 0x0⟩,
  ⟨"REC_CMD", 0x500028, [], 1, .sealed, 0x0, 0x0, 0xF0000000, 0x0, 0x0⟩,
  ⟨"REC_LOST", 0x50002C, [], 1, .open_, 0x0, 0x0, 0x0, 0x0, 0x0⟩,
  ⟨"REC_CLEARED", 0x500030, [], 1, .open_, 0x0, 0x0, 0x0, 0x0, 0x0⟩,
  ⟨"REC_BUCKET", 0x500400, [(256, 0x4)], 1, .image, 0x0, 0x0, 0x0, 0xFFFFFF, 0x8007D⟩,
  ⟨"AUD_STATUS", 0x501000, [], 1, .open_, 0x0, 0x0, 0x0, 0x0, 0x0⟩,
  ⟨"AUD_SEL", 0x501004, [], 1, .open_, 0xFFFFFFFF, 0x0, 0x0, 0x0, 0x0⟩,
  ⟨"AUD_DATA", 0x501008, [], 1, .open_, 0x0, 0x0, 0x0, 0x0, 0x0⟩,
  ⟨"AUD_LOST", 0x50100C, [], 1, .open_, 0x0, 0x0, 0x0, 0x0, 0x0⟩,
  ⟨"AUD_HEAD", 0x501020, [], 9, .open_, 0x0, 0x0, 0x0, 0x0, 0x0⟩,
  ⟨"AUD_ANCHOR", 0x501060, [], 9, .open_, 0x0, 0x0, 0x0, 0x0, 0x0⟩]

/-- Registers of the SEC and TMP area (R439). -/
def secRegs : List RegDef := [
  ⟨"SEC_STATUS", 0x600000, [], 1, .open_, 0x0, 0x0, 0x0, 0x0, 0x0⟩,
  ⟨"SEC_CFG", 0x600004, [], 1, .image, 0x0, 0x0, 0x0, 0x80000000, 0x0⟩,
  ⟨"SEC_DEVKEY", 0x600010, [], 16, .open_, 0x0, 0x0, 0x0, 0x0, 0x0⟩,
  ⟨"SEC_DEVCERT", 0x600050, [], 16, .open_, 0x0, 0x0, 0x0, 0x0, 0x0⟩,
  ⟨"SEC_NONCE", 0x600090, [], 4, .open_, 0x0, 0x0, 0x0, 0x0, 0x0⟩,
  ⟨"SEC_TOKEN_DATA", 0x6000A0, [], 1, .open_, 0x0, 0x0, 0xFFFFFFFF, 0x0, 0x0⟩,
  ⟨"SEC_TOKEN_CMD", 0x6000A4, [], 1, .open_, 0x0, 0x0, 0xF0000000, 0x0, 0x0⟩,
  ⟨"SEC_DUAL", 0x6000B0, [], 1, .open_, 0x0, 0x0, 0x0, 0x0, 0x0⟩,
  ⟨"SEC_HMAC", 0x6000B4, [], 1, .open_, 0x0, 0x0, 0x0, 0x0, 0x0⟩,
  ⟨"SEC_GARNET", 0x6000B8, [], 1, .open_, 0x0, 0x0, 0x0, 0x0, 0x0⟩,
  ⟨"SEC_RDG_REQ", 0x600100, [(32, 0x4)], 1, .open_, 0x3FFFFFFC, 0x0, 0x0, 0x0, 0x0⟩,
  ⟨"SEC_RDG_NONCE", 0x600180, [], 2, .open_, 0xFFFFFFFFFFFFFFFF, 0x0, 0x0, 0x0, 0x0⟩,
  ⟨"SEC_RDG_CMD", 0x600188, [], 1, .open_, 0x0, 0x0, 0xF0000000, 0x0, 0x0⟩,
  ⟨"SEC_RDG_DATA", 0x60018C, [], 1, .open_, 0x0, 0x0, 0x0, 0x0, 0x0⟩,
  ⟨"SEC_RDG_SEQ", 0x600190, [], 1, .open_, 0x0, 0x0, 0x0, 0x0, 0x0⟩,
  ⟨"SEC_AUTH", 0x600200, [(8, 0x10)], 1, .image, 0x0, 0x0, 0x0, 0xFF00FF, 0x0⟩,
  ⟨"SEC_AUTH_CNT", 0x600204, [(8, 0x10)], 1, .open_, 0x0, 0x0, 0x0, 0x0, 0x0⟩,
  ⟨"TMP_STATUS", 0x601000, [], 1, .open_, 0x0, 0x0, 0x0, 0x0, 0x33000000⟩,
  ⟨"TMP_STICKY", 0x601004, [], 1, .open_, 0x0, 0x0, 0x0, 0x0, 0x0⟩,
  ⟨"TMP_LIGHT", 0x601008, [], 1, .open_, 0x0, 0x0, 0x0, 0x0, 0x0⟩,
  ⟨"TMP_ACTIVE", 0x60100C, [], 1, .open_, 0x0, 0x0, 0x0, 0x0, 0x0⟩,
  ⟨"TMP_PENDING", 0x601010, [], 1, .open_, 0x0, 0x0, 0x0, 0x0, 0x0⟩,
  ⟨"TMP_RESP_A", 0x601014, [], 1, .image, 0x0, 0x0, 0x0, 0x3FFFF, 0x0⟩,
  ⟨"TMP_RESP_B", 0x601018, [], 1, .image, 0x0, 0x0, 0x0, 0x7FFFFFF, 0x0⟩,
  ⟨"TMP_CFG", 0x60101C, [], 1, .image, 0x0, 0x0, 0x0, 0xFFF0003F, 0x0⟩,
  ⟨"TMP_FUSE", 0x601020, [], 1, .open_, 0x0, 0x0, 0x0, 0x0, 0x0⟩,
  ⟨"TMP_TEST", 0x601024, [], 1, .open_, 0x0, 0x0, 0x0, 0x0, 0x0⟩,
  ⟨"TMP_FSM", 0x601028, [], 1, .open_, 0x0, 0x0, 0x0, 0x0, 0x0⟩]

/-- Registers of the NET and PTP area (R439). -/
def netRegs1 : List RegDef := [
  ⟨"NET_STATUS", 0x700000, [], 1, .open_, 0x0, 0x0, 0x0, 0x0, 0x0⟩,
  ⟨"NET_NS_WRAP", 0x700004, [], 1, .open_, 0x0, 0x0, 0x0, 0x0, 0x0⟩,
  ⟨"NET_DREGA_CFG", 0x700008, [], 1, .image, 0x0, 0x0, 0x0, 0xC000FFFF, 0xC00012AD⟩,
  ⟨"NET_ALLOW", 0x700010, [(4, 0x8)], 2, .image, 0x0, 0x0, 0x0, 0xFFFFFFFF8000003F, 0x0⟩,
  ⟨"NET_DREGA_STAT", 0x700030, [], 1, .open_, 0x0, 0x0, 0x0, 0x0, 0x0⟩,
  ⟨"NET_HTX_DATA", 0x700040, [], 1, .open_, 0x0, 0x0, 0xFFFFFFFF, 0x0, 0x0⟩,
  ⟨"NET_HTX_LT", 0x700044, [], 2, .open_, 0xFFFFFFFFFFFFFFFF, 0x0, 0x0, 0x0, 0x0⟩,
  ⟨"NET_HTX_CMD", 0x70004C, [], 1, .open_, 0x780007FF, 0x0, 0x80000000, 0x0, 0x0⟩,
  ⟨"NET_HTX_DONE", 0x700050, [], 4, .open_, 0x0, 0x0, 0x0, 0x0, 0x0⟩,
  ⟨"NET_HTX_LOST", 0x700060, [], 1, .open_, 0x0, 0x0, 0x0, 0x0, 0x0⟩,
  ⟨"NET_PUB", 0x700100, [(4, 0x40)], 1, .image, 0x0, 0x0, 0x0, 0xE03FFFFF, 0x0⟩,
  ⟨"NET_PUB_DST", 0x700104, [(4, 0x40)], 2, .image, 0x0, 0x0, 0x0, 0xFFFFFFFF0000FFFF, 0x0⟩,
  ⟨"NET_PUB_ITEM", 0x700110, [(4, 0x40), (8, 0x4)], 1, .image, 0x0, 0x0, 0x0, 0x3FFFFFFC, 0x0⟩,
  ⟨"NET_PUB_STAT", 0x700200, [], 1, .open_, 0x0, 0x0, 0x0, 0x0, 0x0⟩,
  ⟨"NET_MAC", 0x701000, [(2, 0x400)], 2, .image, 0x0, 0x0, 0x0, 0xFFFFFFFFFFFF, 0x0⟩,
  ⟨"NET_IP", 0x701008, [(2, 0x400)], 1, .image, 0x0, 0x0, 0x0, 0xFFFFFFFF, 0x0⟩,
  ⟨"NET_GW", 0x70100C, [(2, 0x400)], 1, .image, 0x0, 0x0, 0x0, 0xFFFFFFFF, 0x0⟩,
  ⟨"NET_PORT_CFG", 0x701010, [(2, 0x400)], 1, .image, 0x0, 0x0, 0x0, 0xFFFFCFFF, 0x0⟩,
  ⟨"NET_PORT_STAT", 0x701014, [(2, 0x400)], 1, .open_, 0x0, 0x0, 0x0, 0x0, 0x0⟩,
  ⟨"NET_RX_CNT", 0x701018, [(2, 0x400)], 1, .open_, 0x0, 0x0, 0x0, 0x0, 0x0⟩,
  ⟨"NET_MDIO", 0x70101C, [(2, 0x400)], 1, .sealed, 0x401FFFFF, 0x0, 0x80000000, 0x0, 0x0⟩,
  ⟨"NET_TXQ_CFG", 0x701040, [(2, 0x400), (8, 0x4)], 1, .image, 0x0, 0x0, 0x0, 0x800000FF, 0x0⟩,
  ⟨"NET_TXQ_STAT", 0x701060, [(2, 0x400), (8, 0x4)], 1, .open_, 0x0, 0x0, 0x0, 0x0, 0x0⟩,
  ⟨"NET_RXQ_FILT", 0x701080, [(2, 0x400), (3, 0x4)], 1, .image, 0x0, 0x0, 0x0, 0xE000FFFF, 0x0⟩,
  ⟨"NET_RXQ_STAT", 0x7010A0, [(2, 0x400), (8, 0x4)], 1, .open_, 0x0, 0x0, 0x0, 0x0, 0x0⟩,
  ⟨"NET_HRX_CMD", 0x7010C0, [(2, 0x400)], 1, .open_, 0x60000000, 0x0, 0x80000000, 0x0, 0x0⟩,
  ⟨"NET_HRX_DATA", 0x7010C4, [(2, 0x400)], 1, .open_, 0x0, 0x0, 0x0, 0x0, 0x0⟩,
  ⟨"NET_HRX_TS", 0x7010C8, [(2, 0x400)], 2, .open_, 0x0, 0x0, 0x0, 0x0, 0x0⟩,
  ⟨"PTP_STATUS", 0x702000, [], 1, .open_, 0x0, 0x0, 0x0, 0x0, 0x0⟩,
  ⟨"PTP_CFG", 0x702004, [], 1, .image, 0x0, 0x0, 0x0, 0xFEFFFFFF, 0x250000⟩]

/-- Registers of the NET and PTP area (R439). -/
def netRegs2 : List RegDef := [
  ⟨"PTP_MASTER", 0x702008, [], 1, .image, 0x0, 0x0, 0x0, 0xFFFFFF0F, 0x8080F803⟩,
  ⟨"PTP_NOW", 0x702010, [], 4, .open_, 0x0, 0x0, 0x0, 0x0, 0x0⟩,
  ⟨"PTP_EPOCH_CAP", 0x702020, [], 4, .open_, 0x0, 0x0, 0x0, 0x0, 0x0⟩,
  ⟨"PTP_OFFSET", 0x702030, [], 1, .open_, 0x0, 0x0, 0x0, 0x0, 0x0⟩,
  ⟨"PTP_PARENT", 0x702038, [], 2, .open_, 0x0, 0x0, 0x0, 0x0, 0x0⟩,
  ⟨"PTP_UTC", 0x702040, [], 1, .open_, 0x0, 0x0, 0x0, 0x0, 0x0⟩,
  ⟨"PTP_LAT", 0x702080, [(2, 0x10), (3, 0x4)], 1, .image, 0x0, 0x0, 0x0, 0xFFFFFFFF, 0x0⟩]

/-- Registers of the CSC and TWN area (R439). -/
def cscRegs : List RegDef := [
  ⟨"CSC_STATUS", 0x800000, [], 1, .open_, 0x0, 0x0, 0x0, 0x0, 0xF000000⟩,
  ⟨"CSC_CFG", 0x800004, [], 1, .image, 0x0, 0x0, 0x0, 0xF8FFFFFF, 0x0⟩,
  ⟨"CSC_ALIGN", 0x800008, [], 1, .open_, 0x0, 0x0, 0x0, 0x0, 0x200000⟩,
  ⟨"CSC_HOP", 0x80000C, [], 1, .open_, 0x0, 0x0, 0x0, 0x0, 0x0⟩,
  ⟨"CSC_ERR", 0x800010, [], 1, .open_, 0x0, 0x0, 0x0, 0x0, 0x0⟩,
  ⟨"CSC_MTICK", 0x800014, [], 1, .open_, 0x0, 0x0, 0x0, 0x0, 0x0⟩,
  ⟨"TWN_STATUS", 0x800100, [], 1, .open_, 0x0, 0x0, 0x0, 0x0, 0x0⟩,
  ⟨"TWN_CFG", 0x800104, [], 1, .image, 0x0, 0x0, 0x0, 0x8FFFFFFF, 0x640384⟩,
  ⟨"TWN_MIN", 0x800108, [], 1, .image, 0x0, 0x0, 0x0, 0xFFFFFFFF, 0x3E8⟩,
  ⟨"TWN_PEER_UID", 0x800110, [], 2, .open_, 0x0, 0x0, 0x0, 0x0, 0x0⟩,
  ⟨"TWN_SEEN_UID", 0x800118, [], 2, .open_, 0x0, 0x0, 0x0, 0x0, 0x0⟩,
  ⟨"TWN_CMP", 0x800120, [], 1, .open_, 0x0, 0x0, 0x0, 0x0, 0x0⟩,
  ⟨"TWN_DIS", 0x800124, [], 1, .open_, 0x0, 0xFFFF0000, 0x0, 0x0, 0x0⟩,
  ⟨"TWN_INIT_UID", 0x800128, [], 2, .image, 0x0, 0x0, 0x0, 0xFFFFFFFFFFFFFFFF, 0x0⟩,
  ⟨"TWN_DEV", 0x800140, [(16, 0x4)], 1, .open_, 0x0, 0x0, 0x0, 0x0, 0x80008000⟩]

/-- Registers of the PNL area (R439). -/
def pnlRegs : List RegDef := [
  ⟨"PNL_STATUS", 0x900000, [], 1, .open_, 0x0, 0x0, 0x0, 0x0, 0x0⟩,
  ⟨"PNL_DRIVE", 0x900004, [], 1, .image, 0x0, 0x0, 0x0, 0xFFFFFF00, 0x64804D00⟩,
  ⟨"PNL_TIMING", 0x900008, [], 1, .image, 0x0, 0x0, 0x0, 0xFFC001FF, 0x480000C8⟩,
  ⟨"PNL_REQ", 0x90000C, [], 1, .open_, 0x0, 0x0, 0xFF, 0x0, 0x0⟩,
  ⟨"PNL_CRACK_CFG", 0x900010, [], 1, .image, 0x0, 0x0, 0x0, 0x80FFFFFF, 0x0⟩,
  ⟨"PNL_CRACK_STAT", 0x900014, [], 1, .open_, 0x0, 0x0, 0x0, 0x0, 0xC0000000⟩,
  ⟨"PNL_WIN_CFG", 0x900100, [(8, 0x20)], 1, .image, 0x0, 0x0, 0x0, 0xFFFFF8FF, 0x0⟩,
  ⟨"PNL_WIN_ADDR", 0x900104, [(8, 0x20)], 1, .image, 0x0, 0x0, 0x0, 0xFFFFFC, 0x0⟩,
  ⟨"PNL_WIN_TEXT", 0x900108, [(8, 0x20), (4, 0x4)], 1, .image, 0x0, 0x0, 0x0, 0xFFFFFFFF, 0x20202020⟩,
  ⟨"PNL_WIN_STAT", 0x900118, [(8, 0x20)], 1, .open_, 0x0, 0x0, 0x0, 0x0, 0x0⟩]

/-- Registers of the BK and RTC area (R439). -/
def bkRegs : List RegDef := [
  ⟨"BK_STATUS", 0xA00000, [], 1, .open_, 0x0, 0x0, 0x0, 0x0, 0xC3200000⟩,
  ⟨"BK_CMD", 0xA00004, [], 1, .sealed, 0x0, 0x0, 0x80000000, 0x0, 0x0⟩,
  ⟨"RTC_SUBSEC", 0xA00010, [], 1, .sealed, 0x0, 0x0, 0x0, 0x0, 0x0⟩,
  ⟨"RTC_SEC", 0xA00014, [], 1, .sealed, 0xFFFF, 0x0, 0x0, 0x0, 0x0⟩,
  ⟨"RTC_MIN", 0xA00018, [], 1, .sealed, 0xFFFF, 0x0, 0x0, 0x0, 0x0⟩,
  ⟨"RTC_HOUR", 0xA0001C, [], 1, .sealed, 0xFFFF, 0x0, 0x0, 0x0, 0x0⟩,
  ⟨"RTC_WDAY", 0xA00020, [], 1, .sealed, 0x0, 0x0, 0x0, 0x0, 0x6⟩,
  ⟨"RTC_DAY", 0xA00024, [], 1, .sealed, 0xFFFF, 0x0, 0x0, 0x0, 0x1⟩,
  ⟨"RTC_MONTH", 0xA00028, [], 1, .sealed, 0xFFFF, 0x0, 0x0, 0x0, 0x1⟩,
  ⟨"RTC_YEAR", 0xA0002C, [], 1, .sealed, 0xFFFF, 0x0, 0x0, 0x0, 0x7D0⟩,
  ⟨"RTC_CTRL", 0xA00030, [], 1, .sealed, 0x80000000, 0x0, 0x0, 0x0, 0x0⟩,
  ⟨"RTC_HALT", 0xA00034, [], 1, .open_, 0x0, 0x0, 0x0, 0x0, 0x0⟩,
  ⟨"RTC_TRIM", 0xA00038, [], 1, .image, 0x0, 0x0, 0x0, 0x7FF, 0x0⟩,
  ⟨"RTC_DRIFT", 0xA0003C, [], 1, .open_, 0x0, 0x0, 0x0, 0x0, 0x0⟩,
  ⟨"RTC_ALM0_CFG", 0xA00040, [], 1, .open_, 0xFF0F0007, 0x0, 0x0, 0x0, 0x0⟩,
  ⟨"RTC_ALM0_TIME", 0xA00044, [], 1, .open_, 0x1F1F3F3F, 0x0, 0x0, 0x0, 0x0⟩,
  ⟨"RTC_ALM1_CFG", 0xA00048, [], 1, .open_, 0xFF0F0007, 0x0, 0x0, 0x0, 0x0⟩,
  ⟨"RTC_ALM1_TIME", 0xA0004C, [], 1, .open_, 0x1F1F3F3F, 0x0, 0x0, 0x0, 0x0⟩,
  ⟨"RTC_ALM_STAT", 0xA00050, [], 1, .open_, 0x0, 0x3, 0x0, 0x0, 0x0⟩,
  ⟨"BK_PWRON_CFG", 0xA00054, [], 1, .image, 0x0, 0x0, 0x0, 0xE0003FFF, 0xA00⟩,
  ⟨"BK_VBAT", 0xA00058, [], 1, .open_, 0x0, 0x0, 0x0, 0x0, 0x0⟩,
  ⟨"BK_LR_STAT", 0xA00060, [], 1, .open_, 0x0, 0x0, 0x0, 0x0, 0x0⟩,
  ⟨"BK_LR", 0xA00080, [(4, 0x20), (8, 0x4)], 1, .open_, 0x0, 0x0, 0x0, 0x0, 0x0⟩]

/-- Registers of the CFG area (R439). -/
def cfgRegs : List RegDef := [
  ⟨"CFG_STATUS", 0xF00000, [], 1, .open_, 0x0, 0x0, 0x0, 0x0, 0x2D000000⟩,
  ⟨"CFG_RESET", 0xF00004, [], 1, .open_, 0x0, 0x0, 0x0, 0x0, 0x0⟩,
  ⟨"CFG_STRAP", 0xF00008, [], 1, .open_, 0x0, 0x0, 0x0, 0x0, 0x0⟩,
  ⟨"CFG_ACTIVE", 0xF0000C, [], 1, .open_, 0x0, 0x0, 0x0, 0x0, 0x0⟩,
  ⟨"CFG_FLOOR", 0xF00010, [], 1, .open_, 0x0, 0x0, 0x0, 0x0, 0x0⟩,
  ⟨"CFG_LOAD_STAT", 0xF00014, [], 1, .open_, 0x0, 0x0, 0x0, 0x0, 0x0⟩,
  ⟨"CFG_FAIL_ADDR", 0xF00018, [], 1, .open_, 0x0, 0x0, 0x0, 0x0, 0x0⟩,
  ⟨"CFG_SLOT0", 0xF00020, [], 1, .open_, 0x0, 0x0, 0x0, 0x0, 0x0⟩,
  ⟨"CFG_SLOT1", 0xF00024, [], 1, .open_, 0x0, 0x0, 0x0, 0x0, 0x0⟩,
  ⟨"CFG_FLASH", 0xF00028, [], 1, .open_, 0x0, 0x0, 0x0, 0x0, 0x0⟩,
  ⟨"CFG_CMD", 0xF00030, [], 1, .sealed, 0x0, 0x0, 0xF0000000, 0x0, 0x0⟩,
  ⟨"CFG_FL_ADDR", 0xF00034, [], 1, .sealed, 0xFFFFFF, 0x0, 0x0, 0x0, 0x0⟩,
  ⟨"CFG_FL_CMD", 0xF00038, [], 1, .sealed, 0x0, 0x0, 0xF0000000, 0x0, 0x0⟩,
  ⟨"CFG_FL_DATA", 0xF00100, [(64, 0x4)], 1, .sealed, 0xFFFFFFFF, 0x0, 0x0, 0x0, 0x0⟩]

/-- The rows of the area an address lies in (R439). -/
def regsNear (a : Nat) : List RegDef :=
  if a < 0x100000 then sysRegs1 ++ sysRegs2 else
  if a < 0x200000 then aqRegs1 ++ aqRegs2 else
  if a < 0x300000 then calRegs else
  if a < 0x310000 then bayRegs1 ++ bayRegs2 ++ bayRegs3 ++ bayRegs4 else
  if a < 0x400000 then mtRegs1 ++ mtRegs2 else
  if a < 0x500000 then ledRegs1 ++ ledRegs2 else
  if a < 0x600000 then recRegs else
  if a < 0x700000 then secRegs else
  if a < 0x800000 then netRegs1 ++ netRegs2 else
  if a < 0x900000 then cscRegs else
  if a < 0xA00000 then pnlRegs else
  if a < 0xF00000 then bkRegs else
   cfgRegs

/-- Whether the byte offset `o` falls on a word of a register with these index ranges and words, and which word. -/
def wordOf : List (Nat × Nat) → Nat → Nat → Option Nat
  | [], words, o => if o % 4 = 0 && o / 4 < words then some (o / 4) else none
  | (n, st) :: ds, words, o => if o / st < n then wordOf ds words (o % st) else none

/-- The register row an address belongs to, with the number of its word within the register (R3, R4, R439). -/
def findReg (a : Nat) : Option (RegDef × Nat) :=
  (regsNear a).findSome? fun d =>
    if d.base ≤ a then (wordOf d.dims d.words (a - d.base)).map fun k => (d, k) else none

/-- The registers whose reset value is not zero (R14): base, index ranges, words and value. -/
def resetRows : List (Nat × List (Nat × Nat) × Nat × Nat) := [
  (0x0, [], 1, 0x96160110),
  (0x4, [], 1, 0xFFFFF),
  (0x30, [], 1, 0xA),
  (0x50, [], 1, 0x11111111),
  (0x54, [], 1, 0x11111111),
  (0x58, [], 1, 0x11111111),
  (0x5C, [], 1, 0x11111111),
  (0x60, [], 1, 0xE764E764),
  (0x100, [], 1, 0x3000),
  (0x104, [], 1, 0x3000),
  (0x100700, [(76, 0x4)], 1, 0x80000000),
  (0x100900, [(76, 0x4)], 1, 0x7FFFFFFF),
  (0x102118, [(34, 0x20)], 1, 0x80000000),
  (0x10211C, [(34, 0x20)], 1, 0x7FFFFFFF),
  (0x300004, [(16, 0x1000)], 1, 0x64),
  (0x300010, [(16, 0x1000)], 1, 0x3F800000),
  (0x300014, [(16, 0x1000)], 1, 0x3F800000),
  (0x300018, [(16, 0x1000)], 1, 0x3F800000),
  (0x30001C, [(16, 0x1000)], 1, 0x3F800000),
  (0x300418, [(16, 0x1000)], 1, 0xB4DC0A04),
  (0x320040, [(12, 0x4)], 1, 0x3F800000),
  (0x400000, [], 1, 0x20000000),
  (0x402000, [], 1, 0x3),
  (0x403000, [], 1, 0x20000000),
  (0x500004, [], 1, 0x3),
  (0x500400, [(256, 0x4)], 1, 0x8007D),
  (0x601000, [], 1, 0x33000000),
  (0x700008, [], 1, 0xC00012AD),
  (0x702004, [], 1, 0x250000),
  (0x702008, [], 1, 0x8080F803),
  (0x800000, [], 1, 0xF000000),
  (0x800008, [], 1, 0x200000),
  (0x800104, [], 1, 0x640384),
  (0x800108, [], 1, 0x3E8),
  (0x800140, [(16, 0x4)], 1, 0x80008000),
  (0x900004, [], 1, 0x64804D00),
  (0x900008, [], 1, 0x480000C8),
  (0x900014, [], 1, 0xC0000000),
  (0x900108, [(8, 0x20), (4, 0x4)], 1, 0x20202020),
  (0xA00000, [], 1, 0xC3200000),
  (0xA00020, [], 1, 0x6),
  (0xA00024, [], 1, 0x1),
  (0xA00028, [], 1, 0x1),
  (0xA0002C, [], 1, 0x7D0),
  (0xA00054, [], 1, 0xA00),
  (0xF00000, [], 1, 0x2D000000),
  (0x701040, [(2, 0x400)], 1, 0x8),
  (0x701044, [(2, 0x400)], 1, 0x8),
  (0x701048, [(2, 0x400)], 1, 0x4),
  (0x70104C, [(2, 0x400)], 1, 0xC),
  (0x701050, [(2, 0x400)], 1, 0x8),
  (0x701054, [(2, 0x400)], 1, 0x8),
  (0x701058, [(2, 0x400)], 1, 0x8),
  (0x70105C, [(2, 0x400)], 1, 0x8)]

/-- The word a register address holds right after reset (R14), 0 where the heading gives 0. -/
def resetWord (a : Nat) : Word :=
  match resetRows.findSome? fun r =>
      if r.1 ≤ a then (wordOf r.2.1 r.2.2.1 (a - r.1)).map fun k => r.2.2.2 / 2 ^ (32 * k) else none with
  | some v => BitVec.ofNat 32 v
  | none => 0

end Machine
end Sys2Proof
end

