-- ==== Sys2Proof/Machine/Fields.lean ====
section
/-!
DEFINITION. The fields and addresses of the registers that the meanings read and write, by the names and bit positions of
the spec's register headings and field tables (R13): `Fld.REGISTER_FIELD` and `Adr.REGISTER`, with the indices of repeated
windows as arguments, outermost first.
-/

namespace Sys2Proof.Machine

/-- AQ_LANE_CFG.ENABLE, bits [7:7], IMG (spec/02_acquisition_lanes.md). -/
def Fld.AQ_LANE_CFG_ENABLE (i : Nat) : Field := ⟨0x100100 + 0x4 * i, 7, 1⟩

/-- AQ_LANE_CFG.FILTER, bits [1:0], IMG (spec/02_acquisition_lanes.md). -/
def Fld.AQ_LANE_CFG_FILTER (i : Nat) : Field := ⟨0x100100 + 0x4 * i, 0, 2⟩

/-- AQ_LANE_CFG.FINE_GAIN, bits [4:4], IMG (spec/02_acquisition_lanes.md). -/
def Fld.AQ_LANE_CFG_FINE_GAIN (i : Nat) : Field := ⟨0x100100 + 0x4 * i, 4, 1⟩

/-- AQ_LANE_CFG.MERGE_BAND, bits [3:2], IMG (spec/02_acquisition_lanes.md). -/
def Fld.AQ_LANE_CFG_MERGE_BAND (i : Nat) : Field := ⟨0x100100 + 0x4 * i, 2, 2⟩

/-- AQ_LANE_CTRL.LANE, bits [6:0], SW (spec/02_acquisition_lanes.md). -/
def Fld.AQ_LANE_CTRL_LANE : Field := ⟨0x100008, 0, 7⟩

/-- AQ_LANE_CTRL.REFUSED, bits [30:30], RO (spec/02_acquisition_lanes.md). -/
def Fld.AQ_LANE_CTRL_REFUSED : Field := ⟨0x100008, 30, 1⟩

/-- AQ_LANE_DISC.COARSE, bits [15:0], RO (spec/02_acquisition_lanes.md). -/
def Fld.AQ_LANE_DISC_COARSE (i : Nat) : Field := ⟨0x100500 + 0x4 * i, 0, 16⟩

/-- AQ_LANE_DISC.FINE, bits [31:16], RO (spec/02_acquisition_lanes.md). -/
def Fld.AQ_LANE_DISC_FINE (i : Nat) : Field := ⟨0x100500 + 0x4 * i, 16, 16⟩

/-- AQ_LANE_STAT.CAL_DEGRADED, bits [26:26], RO (spec/02_acquisition_lanes.md). -/
def Fld.AQ_LANE_STAT_CAL_DEGRADED (i : Nat) : Field := ⟨0x100300 + 0x4 * i, 26, 1⟩

/-- AQ_LANE_STAT.CLIP, bits [24:24], W1C (spec/02_acquisition_lanes.md). -/
def Fld.AQ_LANE_STAT_CLIP (i : Nat) : Field := ⟨0x100300 + 0x4 * i, 24, 1⟩

/-- AQ_LANE_STAT.CLIP_CNT, bits [15:0], RO (spec/02_acquisition_lanes.md). -/
def Fld.AQ_LANE_STAT_CLIP_CNT (i : Nat) : Field := ⟨0x100300 + 0x4 * i, 0, 16⟩

/-- AQ_LANE_STAT.COARSE_ISO, bits [28:28], RO (spec/02_acquisition_lanes.md). -/
def Fld.AQ_LANE_STAT_COARSE_ISO (i : Nat) : Field := ⟨0x100300 + 0x4 * i, 28, 1⟩

/-- AQ_LANE_STAT.DEGRADED, bits [25:25], RO (spec/02_acquisition_lanes.md). -/
def Fld.AQ_LANE_STAT_DEGRADED (i : Nat) : Field := ⟨0x100300 + 0x4 * i, 25, 1⟩

/-- AQ_LANE_STAT.FINE_ISO, bits [27:27], RO (spec/02_acquisition_lanes.md). -/
def Fld.AQ_LANE_STAT_FINE_ISO (i : Nat) : Field := ⟨0x100300 + 0x4 * i, 27, 1⟩

/-- AQ_LANE_STAT.STATE, bits [31:29], RO (spec/02_acquisition_lanes.md). -/
def Fld.AQ_LANE_STAT_STATE (i : Nat) : Field := ⟨0x100300 + 0x4 * i, 29, 3⟩

/-- AQ_MM_EPOCH.EPOCH, bits [63:0], RO (spec/02_acquisition_lanes.md). -/
def Fld.AQ_MM_EPOCH_EPOCH : Field := ⟨0x100018, 0, 64⟩

/-- AQ_MM_MAX.MAX, bits [31:0], RO (spec/02_acquisition_lanes.md). -/
def Fld.AQ_MM_MAX_MAX (i : Nat) : Field := ⟨0x100700 + 0x4 * i, 0, 32⟩

/-- AQ_MM_MIN.MIN, bits [31:0], RO (spec/02_acquisition_lanes.md). -/
def Fld.AQ_MM_MIN_MIN (i : Nat) : Field := ⟨0x100900 + 0x4 * i, 0, 32⟩

/-- AQ_MM_STAT.BUSY, bits [31:31], RO (spec/02_acquisition_lanes.md). -/
def Fld.AQ_MM_STAT_BUSY : Field := ⟨0x100014, 31, 1⟩

/-- AQ_MM_STAT.REFUSED, bits [15:0], RO (spec/02_acquisition_lanes.md). -/
def Fld.AQ_MM_STAT_REFUSED : Field := ⟨0x100014, 0, 16⟩

/-- AQ_MM_STAT.VALID, bits [30:30], RO (spec/02_acquisition_lanes.md). -/
def Fld.AQ_MM_STAT_VALID : Field := ⟨0x100014, 30, 1⟩

/-- AQ_STATUS.OUT_LANES, bits [23:16], RO (spec/02_acquisition_lanes.md). -/
def Fld.AQ_STATUS_OUT_LANES : Field := ⟨0x100000, 16, 8⟩

/-- AQ_STATUS.RUN, bits [31:31], RO (spec/02_acquisition_lanes.md). -/
def Fld.AQ_STATUS_RUN : Field := ⟨0x100000, 31, 1⟩

/-- AQ_STATUS.SINGLE_LANES, bits [15:8], RO (spec/02_acquisition_lanes.md). -/
def Fld.AQ_STATUS_SINGLE_LANES : Field := ⟨0x100000, 8, 8⟩

/-- AQ_STATUS.STARTING_LANES, bits [7:0], RO (spec/02_acquisition_lanes.md). -/
def Fld.AQ_STATUS_STARTING_LANES : Field := ⟨0x100000, 0, 8⟩

/-- The whole of AQ_VSET_MAP (spec/02_acquisition_lanes.md). -/
def Fld.AQ_VSET_MAP_ALL : Field := ⟨0x100004, 0, 32⟩

/-- AQ_VSET_MAP.VSETn, field i, IMG (spec/02_acquisition_lanes.md). -/
def Fld.AQ_VSET_MAP_VSET (i : Nat) : Field := ⟨0x100004, 2 * i, 2⟩

/-- AUD_ANCHOR.ASEQ, bits [31:0], RO (spec/10_recorder_audit.md). -/
def Fld.AUD_ANCHOR_ASEQ : Field := ⟨0x501060, 0, 32⟩

/-- AUD_ANCHOR.CHAIN, bits [287:32], RO (spec/10_recorder_audit.md). -/
def Fld.AUD_ANCHOR_CHAIN : Field := ⟨0x501060 + 4, 0, 256⟩

/-- AUD_HEAD.ASEQ, bits [31:0], RO (spec/10_recorder_audit.md). -/
def Fld.AUD_HEAD_ASEQ : Field := ⟨0x501020, 0, 32⟩

/-- AUD_HEAD.CHAIN, bits [287:32], RO (spec/10_recorder_audit.md). -/
def Fld.AUD_HEAD_CHAIN : Field := ⟨0x501020 + 4, 0, 256⟩

/-- AUD_LOST.COUNT, bits [31:0], RO (spec/10_recorder_audit.md). -/
def Fld.AUD_LOST_COUNT : Field := ⟨0x50100C, 0, 32⟩

/-- AUD_SEL.ASEQ, bits [31:0], RW (spec/10_recorder_audit.md). -/
def Fld.AUD_SEL_ASEQ : Field := ⟨0x501004, 0, 32⟩

/-- AUD_STATUS.MODE, bits [31:30], RO (spec/10_recorder_audit.md). -/
def Fld.AUD_STATUS_MODE : Field := ⟨0x501000, 30, 2⟩

/-- AUD_STATUS.STATUS, bits [29:28], RO (spec/10_recorder_audit.md). -/
def Fld.AUD_STATUS_STATUS : Field := ⟨0x501000, 28, 2⟩

/-- AX_ACC_CNT.CNT, bits [19:0], RO (spec/06_auxiliary_scanner_field_ports.md). -/
def Fld.AX_ACC_CNT_CNT (i : Nat) : Field := ⟨0x102114 + 0x20 * i, 0, 20⟩

/-- AX_ACC_CNT.FAULT_SEEN, bits [30:30], RO (spec/06_auxiliary_scanner_field_ports.md). -/
def Fld.AX_ACC_CNT_FAULT_SEEN (i : Nat) : Field := ⟨0x102114 + 0x20 * i, 30, 1⟩

/-- AX_ACC_CNT.FLD_SEEN, bits [29:29], RO (spec/06_auxiliary_scanner_field_ports.md). -/
def Fld.AX_ACC_CNT_FLD_SEEN (i : Nat) : Field := ⟨0x102114 + 0x20 * i, 29, 1⟩

/-- AX_ACC_CNT.OVER_SEEN, bits [31:31], RO (spec/06_auxiliary_scanner_field_ports.md). -/
def Fld.AX_ACC_CNT_OVER_SEEN (i : Nat) : Field := ⟨0x102114 + 0x20 * i, 31, 1⟩

/-- AX_ACC_SUM.SUM, bits [63:0], RO (spec/06_auxiliary_scanner_field_ports.md). -/
def Fld.AX_ACC_SUM_SUM (i : Nat) : Field := ⟨0x10210C + 0x20 * i, 0, 64⟩

/-- AX_CH_CFG.GAIN, bits [6:4], IMG (spec/06_auxiliary_scanner_field_ports.md). -/
def Fld.AX_CH_CFG_GAIN (i : Nat) : Field := ⟨0x102100 + 0x20 * i, 4, 3⟩

/-- AX_CH_CFG.MODE, bits [31:31], IMG (spec/06_auxiliary_scanner_field_ports.md). -/
def Fld.AX_CH_CFG_MODE (i : Nat) : Field := ⟨0x102100 + 0x20 * i, 31, 1⟩

/-- AX_CH_CFG.OSR, bits [2:0], IMG (spec/06_auxiliary_scanner_field_ports.md). -/
def Fld.AX_CH_CFG_OSR (i : Nat) : Field := ⟨0x102100 + 0x20 * i, 0, 3⟩

/-- AX_DISCARD.GAIN, bits [31:16], RO (spec/06_auxiliary_scanner_field_ports.md). -/
def Fld.AX_DISCARD_GAIN : Field := ⟨0x102014, 16, 16⟩

/-- AX_DISCARD.RESIDUE, bits [15:0], RO (spec/06_auxiliary_scanner_field_ports.md). -/
def Fld.AX_DISCARD_RESIDUE : Field := ⟨0x102014, 0, 16⟩

/-- AX_EXC_CFG.ENABLE, bits [31:31], IMG (spec/06_auxiliary_scanner_field_ports.md). -/
def Fld.AX_EXC_CFG_ENABLE (i : Nat) : Field := ⟨0x102020 + 0x4 * i, 31, 1⟩

/-- AX_EXC_CFG.GATED, bits [29:29], IMG (spec/06_auxiliary_scanner_field_ports.md). -/
def Fld.AX_EXC_CFG_GATED (i : Nat) : Field := ⟨0x102020 + 0x4 * i, 29, 1⟩

/-- AX_EXC_STAT.ON, bits [3:0], RO (spec/06_auxiliary_scanner_field_ports.md). -/
def Fld.AX_EXC_STAT_ON : Field := ⟨0x102030, 0, 4⟩

/-- AX_EXC_STAT.OPEN, bits [11:8], RO (spec/06_auxiliary_scanner_field_ports.md). -/
def Fld.AX_EXC_STAT_OPEN : Field := ⟨0x102030, 8, 4⟩

/-- AX_EXC_STAT.OPEN_SEEN, bits [7:4], W1C (spec/06_auxiliary_scanner_field_ports.md). -/
def Fld.AX_EXC_STAT_OPEN_SEEN : Field := ⟨0x102030, 4, 4⟩

/-- AX_FLD.LOW_CNT, bits [15:0], RO (spec/06_auxiliary_scanner_field_ports.md). -/
def Fld.AX_FLD_LOW_CNT : Field := ⟨0x10201C, 0, 16⟩

/-- AX_FLD.LOW_SEEN, bits [31:31], W1C (spec/06_auxiliary_scanner_field_ports.md). -/
def Fld.AX_FLD_LOW_SEEN : Field := ⟨0x10201C, 31, 1⟩

/-- AX_LAST.VALUE, bits [31:0], RO (spec/06_auxiliary_scanner_field_ports.md). -/
def Fld.AX_LAST_VALUE (i : Nat) : Field := ⟨0x102104 + 0x20 * i, 0, 32⟩

/-- AX_LSTAT.FAULT, bits [30:30], RO (spec/06_auxiliary_scanner_field_ports.md). -/
def Fld.AX_LSTAT_FAULT (i : Nat) : Field := ⟨0x102108 + 0x20 * i, 30, 1⟩

/-- AX_LSTAT.FLD, bits [29:29], RO (spec/06_auxiliary_scanner_field_ports.md). -/
def Fld.AX_LSTAT_FLD (i : Nat) : Field := ⟨0x102108 + 0x20 * i, 29, 1⟩

/-- AX_LSTAT.OVER, bits [31:31], RO (spec/06_auxiliary_scanner_field_ports.md). -/
def Fld.AX_LSTAT_OVER (i : Nat) : Field := ⟨0x102108 + 0x20 * i, 31, 1⟩

/-- AX_LSTAT.SEQ, bits [15:0], RO (spec/06_auxiliary_scanner_field_ports.md). -/
def Fld.AX_LSTAT_SEQ (i : Nat) : Field := ⟨0x102108 + 0x20 * i, 0, 16⟩

/-- AX_LSTAT.VALID, bits [28:28], RO (spec/06_auxiliary_scanner_field_ports.md). -/
def Fld.AX_LSTAT_VALID (i : Nat) : Field := ⟨0x102108 + 0x20 * i, 28, 1⟩

/-- AX_MM_MAX.MAX, bits [31:0], RO (spec/06_auxiliary_scanner_field_ports.md). -/
def Fld.AX_MM_MAX_MAX (i : Nat) : Field := ⟨0x102118 + 0x20 * i, 0, 32⟩

/-- AX_MM_MIN.MIN, bits [31:0], RO (spec/06_auxiliary_scanner_field_ports.md). -/
def Fld.AX_MM_MIN_MIN (i : Nat) : Field := ⟨0x10211C + 0x20 * i, 0, 32⟩

/-- AX_PI_CFG.EDGE, bits [29:28], IMG (spec/06_auxiliary_scanner_field_ports.md). -/
def Fld.AX_PI_CFG_EDGE (i : Nat) : Field := ⟨0x102600 + 0x20 * i, 28, 2⟩

/-- AX_PI_CFG.ENABLE, bits [31:31], IMG (spec/06_auxiliary_scanner_field_ports.md). -/
def Fld.AX_PI_CFG_ENABLE (i : Nat) : Field := ⟨0x102600 + 0x20 * i, 31, 1⟩

/-- AX_PI_CFG.FILTER, bits [26:24], IMG (spec/06_auxiliary_scanner_field_ports.md). -/
def Fld.AX_PI_CFG_FILTER (i : Nat) : Field := ⟨0x102600 + 0x20 * i, 24, 3⟩

/-- AX_PI_CFG.GATE_MAX, bits [19:16], IMG (spec/06_auxiliary_scanner_field_ports.md). -/
def Fld.AX_PI_CFG_GATE_MAX (i : Nat) : Field := ⟨0x102600 + 0x20 * i, 16, 4⟩

/-- AX_PI_CFG.MODE, bits [30:30], IMG (spec/06_auxiliary_scanner_field_ports.md). -/
def Fld.AX_PI_CFG_MODE (i : Nat) : Field := ⟨0x102600 + 0x20 * i, 30, 1⟩

/-- AX_PI_CNT.CNT, bits [31:0], RO (spec/06_auxiliary_scanner_field_ports.md). -/
def Fld.AX_PI_CNT_CNT (i : Nat) : Field := ⟨0x102604 + 0x20 * i, 0, 32⟩

/-- AX_PI_FREQ.FREQ, bits [31:0], RO (spec/06_auxiliary_scanner_field_ports.md). -/
def Fld.AX_PI_FREQ_FREQ (i : Nat) : Field := ⟨0x10260C + 0x20 * i, 0, 32⟩

/-- AX_PI_STAT.LEVEL, bits [29:29], RO (spec/06_auxiliary_scanner_field_ports.md). -/
def Fld.AX_PI_STAT_LEVEL (i : Nat) : Field := ⟨0x102610 + 0x20 * i, 29, 1⟩

/-- AX_PI_STAT.NO_SIGNAL, bits [30:30], RO (spec/06_auxiliary_scanner_field_ports.md). -/
def Fld.AX_PI_STAT_NO_SIGNAL (i : Nat) : Field := ⟨0x102610 + 0x20 * i, 30, 1⟩

/-- AX_PI_STAT.QERR, bits [15:0], RO (spec/06_auxiliary_scanner_field_ports.md). -/
def Fld.AX_PI_STAT_QERR (i : Nat) : Field := ⟨0x102610 + 0x20 * i, 0, 16⟩

/-- AX_PI_STAT.STALE, bits [31:31], RO (spec/06_auxiliary_scanner_field_ports.md). -/
def Fld.AX_PI_STAT_STALE (i : Nat) : Field := ⟨0x102610 + 0x20 * i, 31, 1⟩

/-- AX_PI_TCNT.CNT, bits [31:0], RO (spec/06_auxiliary_scanner_field_ports.md). -/
def Fld.AX_PI_TCNT_CNT (i : Nat) : Field := ⟨0x102608 + 0x20 * i, 0, 32⟩

/-- AX_SCAN_CFG.EXC_SETTLE, bits [7:0], IMG (spec/06_auxiliary_scanner_field_ports.md). -/
def Fld.AX_SCAN_CFG_EXC_SETTLE : Field := ⟨0x102008, 0, 8⟩

/-- AX_SCAN_CFG.PERIOD, bits [25:16], IMG (spec/06_auxiliary_scanner_field_ports.md). -/
def Fld.AX_SCAN_CFG_PERIOD : Field := ⟨0x102008, 16, 10⟩

/-- AX_SCAN_CFG.REF_EN, bits [31:31], IMG (spec/06_auxiliary_scanner_field_ports.md). -/
def Fld.AX_SCAN_CFG_REF_EN : Field := ⟨0x102008, 31, 1⟩

/-- AX_SCAN_CFG.TRIG, bits [29:28], IMG (spec/06_auxiliary_scanner_field_ports.md). -/
def Fld.AX_SCAN_CFG_TRIG : Field := ⟨0x102008, 28, 2⟩

/-- AX_SCAN_CFG.ZERO_EN, bits [30:30], IMG (spec/06_auxiliary_scanner_field_ports.md). -/
def Fld.AX_SCAN_CFG_ZERO_EN : Field := ⟨0x102008, 30, 1⟩

/-- AX_SCAN_MASK.MASK, bits [31:0], IMG (spec/06_auxiliary_scanner_field_ports.md). -/
def Fld.AX_SCAN_MASK_MASK : Field := ⟨0x102004, 0, 32⟩

/-- AX_STATUS.FLD_LOW, bits [27:27], RO (spec/06_auxiliary_scanner_field_ports.md). -/
def Fld.AX_STATUS_FLD_LOW : Field := ⟨0x102000, 27, 1⟩

/-- AX_STATUS.PENDING, bits [28:28], RO (spec/06_auxiliary_scanner_field_ports.md). -/
def Fld.AX_STATUS_PENDING : Field := ⟨0x102000, 28, 1⟩

/-- AX_STATUS.SCAN_CNT, bits [15:0], RO (spec/06_auxiliary_scanner_field_ports.md). -/
def Fld.AX_STATUS_SCAN_CNT : Field := ⟨0x102000, 0, 16⟩

/-- AX_STATUS.STATE, bits [31:29], RO (spec/06_auxiliary_scanner_field_ports.md). -/
def Fld.AX_STATUS_STATE : Field := ⟨0x102000, 29, 3⟩

/-- AX_TICK_SEQ.SEQ, bits [31:0], RO (spec/06_auxiliary_scanner_field_ports.md). -/
def Fld.AX_TICK_SEQ_SEQ : Field := ⟨0x102018, 0, 32⟩

/-- AX_TRIG_OVERRUN.COUNT, bits [31:0], RO (spec/06_auxiliary_scanner_field_ports.md). -/
def Fld.AX_TRIG_OVERRUN_COUNT : Field := ⟨0x102010, 0, 32⟩

/-- BAY_A10_FREQ.VALUE, bits [31:0], RO (spec/05_harmonics_quality.md). -/
def Fld.BAY_A10_FREQ_VALUE (i : Nat) : Field := ⟨0x30052C + 0x1000 * i, 0, 32⟩

/-- BAY_A10_STAT.FLAG, bits [31:31], RO (spec/05_harmonics_quality.md). -/
def Fld.BAY_A10_STAT_FLAG (i : Nat) : Field := ⟨0x300500 + 0x1000 * i, 31, 1⟩

/-- BAY_A10_STAT.SEQ, bits [15:0], RO (spec/05_harmonics_quality.md). -/
def Fld.BAY_A10_STAT_SEQ (i : Nat) : Field := ⟨0x300500 + 0x1000 * i, 0, 16⟩

/-- BAY_A10_STAT.SHORT, bits [30:30], RO (spec/05_harmonics_quality.md). -/
def Fld.BAY_A10_STAT_SHORT (i : Nat) : Field := ⟨0x300500 + 0x1000 * i, 30, 1⟩

/-- BAY_A10_STAT.TIME_STEP, bits [29:29], RO (spec/05_harmonics_quality.md). -/
def Fld.BAY_A10_STAT_TIME_STEP (i : Nat) : Field := ⟨0x300500 + 0x1000 * i, 29, 1⟩

/-- BAY_A10_STAT.WINDOWS, bits [28:16], RO (spec/05_harmonics_quality.md). -/
def Fld.BAY_A10_STAT_WINDOWS (i : Nat) : Field := ⟨0x300500 + 0x1000 * i, 16, 13⟩

/-- BAY_A10_THDI_A.VALUE, bits [31:0], RO (spec/05_harmonics_quality.md). -/
def Fld.BAY_A10_THDI_A_VALUE (i : Nat) : Field := ⟨0x30051C + 0x1000 * i, 0, 32⟩

/-- BAY_A10_THDI_B.VALUE, bits [31:0], RO (spec/05_harmonics_quality.md). -/
def Fld.BAY_A10_THDI_B_VALUE (i : Nat) : Field := ⟨0x300520 + 0x1000 * i, 0, 32⟩

/-- BAY_A10_THDI_C.VALUE, bits [31:0], RO (spec/05_harmonics_quality.md). -/
def Fld.BAY_A10_THDI_C_VALUE (i : Nat) : Field := ⟨0x300524 + 0x1000 * i, 0, 32⟩

/-- BAY_A10_THDU_A.VALUE, bits [31:0], RO (spec/05_harmonics_quality.md). -/
def Fld.BAY_A10_THDU_A_VALUE (i : Nat) : Field := ⟨0x300510 + 0x1000 * i, 0, 32⟩

/-- BAY_A10_THDU_B.VALUE, bits [31:0], RO (spec/05_harmonics_quality.md). -/
def Fld.BAY_A10_THDU_B_VALUE (i : Nat) : Field := ⟨0x300514 + 0x1000 * i, 0, 32⟩

/-- BAY_A10_THDU_C.VALUE, bits [31:0], RO (spec/05_harmonics_quality.md). -/
def Fld.BAY_A10_THDU_C_VALUE (i : Nat) : Field := ⟨0x300518 + 0x1000 * i, 0, 32⟩

/-- BAY_A10_U2.VALUE, bits [31:0], RO (spec/05_harmonics_quality.md). -/
def Fld.BAY_A10_U2_VALUE (i : Nat) : Field := ⟨0x300528 + 0x1000 * i, 0, 32⟩

/-- BAY_A10_U_A.VALUE, bits [31:0], RO (spec/05_harmonics_quality.md). -/
def Fld.BAY_A10_U_A_VALUE (i : Nat) : Field := ⟨0x300504 + 0x1000 * i, 0, 32⟩

/-- BAY_A10_U_B.VALUE, bits [31:0], RO (spec/05_harmonics_quality.md). -/
def Fld.BAY_A10_U_B_VALUE (i : Nat) : Field := ⟨0x300508 + 0x1000 * i, 0, 32⟩

/-- BAY_A10_U_C.VALUE, bits [31:0], RO (spec/05_harmonics_quality.md). -/
def Fld.BAY_A10_U_C_VALUE (i : Nat) : Field := ⟨0x30050C + 0x1000 * i, 0, 32⟩

/-- BAY_A3_FREQ.VALUE, bits [31:0], RO (spec/05_harmonics_quality.md). -/
def Fld.BAY_A3_FREQ_VALUE (i : Nat) : Field := ⟨0x3004EC + 0x1000 * i, 0, 32⟩

/-- BAY_A3_STAT.FLAG, bits [31:31], RO (spec/05_harmonics_quality.md). -/
def Fld.BAY_A3_STAT_FLAG (i : Nat) : Field := ⟨0x3004C0 + 0x1000 * i, 31, 1⟩

/-- BAY_A3_STAT.SEQ, bits [15:0], RO (spec/05_harmonics_quality.md). -/
def Fld.BAY_A3_STAT_SEQ (i : Nat) : Field := ⟨0x3004C0 + 0x1000 * i, 0, 16⟩

/-- BAY_A3_STAT.SHORT, bits [30:30], RO (spec/05_harmonics_quality.md). -/
def Fld.BAY_A3_STAT_SHORT (i : Nat) : Field := ⟨0x3004C0 + 0x1000 * i, 30, 1⟩

/-- BAY_A3_STAT.TIME_STEP, bits [29:29], RO (spec/05_harmonics_quality.md). -/
def Fld.BAY_A3_STAT_TIME_STEP (i : Nat) : Field := ⟨0x3004C0 + 0x1000 * i, 29, 1⟩

/-- BAY_A3_STAT.WINDOWS, bits [28:16], RO (spec/05_harmonics_quality.md). -/
def Fld.BAY_A3_STAT_WINDOWS (i : Nat) : Field := ⟨0x3004C0 + 0x1000 * i, 16, 13⟩

/-- BAY_A3_THDI_A.VALUE, bits [31:0], RO (spec/05_harmonics_quality.md). -/
def Fld.BAY_A3_THDI_A_VALUE (i : Nat) : Field := ⟨0x3004DC + 0x1000 * i, 0, 32⟩

/-- BAY_A3_THDI_B.VALUE, bits [31:0], RO (spec/05_harmonics_quality.md). -/
def Fld.BAY_A3_THDI_B_VALUE (i : Nat) : Field := ⟨0x3004E0 + 0x1000 * i, 0, 32⟩

/-- BAY_A3_THDI_C.VALUE, bits [31:0], RO (spec/05_harmonics_quality.md). -/
def Fld.BAY_A3_THDI_C_VALUE (i : Nat) : Field := ⟨0x3004E4 + 0x1000 * i, 0, 32⟩

/-- BAY_A3_THDU_A.VALUE, bits [31:0], RO (spec/05_harmonics_quality.md). -/
def Fld.BAY_A3_THDU_A_VALUE (i : Nat) : Field := ⟨0x3004D0 + 0x1000 * i, 0, 32⟩

/-- BAY_A3_THDU_B.VALUE, bits [31:0], RO (spec/05_harmonics_quality.md). -/
def Fld.BAY_A3_THDU_B_VALUE (i : Nat) : Field := ⟨0x3004D4 + 0x1000 * i, 0, 32⟩

/-- BAY_A3_THDU_C.VALUE, bits [31:0], RO (spec/05_harmonics_quality.md). -/
def Fld.BAY_A3_THDU_C_VALUE (i : Nat) : Field := ⟨0x3004D8 + 0x1000 * i, 0, 32⟩

/-- BAY_A3_U2.VALUE, bits [31:0], RO (spec/05_harmonics_quality.md). -/
def Fld.BAY_A3_U2_VALUE (i : Nat) : Field := ⟨0x3004E8 + 0x1000 * i, 0, 32⟩

/-- BAY_A3_U_A.VALUE, bits [31:0], RO (spec/05_harmonics_quality.md). -/
def Fld.BAY_A3_U_A_VALUE (i : Nat) : Field := ⟨0x3004C4 + 0x1000 * i, 0, 32⟩

/-- BAY_A3_U_B.VALUE, bits [31:0], RO (spec/05_harmonics_quality.md). -/
def Fld.BAY_A3_U_B_VALUE (i : Nat) : Field := ⟨0x3004C8 + 0x1000 * i, 0, 32⟩

/-- BAY_A3_U_C.VALUE, bits [31:0], RO (spec/05_harmonics_quality.md). -/
def Fld.BAY_A3_U_C_VALUE (i : Nat) : Field := ⟨0x3004CC + 0x1000 * i, 0, 32⟩

/-- BAY_CFG.ENABLE, bits [31:31], IMG (spec/04_bay_metrology.md). -/
def Fld.BAY_CFG_ENABLE (i : Nat) : Field := ⟨0x300000 + 0x1000 * i, 31, 1⟩

/-- BAY_CFG.NOM_F, bits [28:28], IMG (spec/04_bay_metrology.md). -/
def Fld.BAY_CFG_NOM_F (i : Nat) : Field := ⟨0x300000 + 0x1000 * i, 28, 1⟩

/-- BAY_CFG.Q_SRC, bits [27:27], IMG (spec/04_bay_metrology.md). -/
def Fld.BAY_CFG_Q_SRC (i : Nat) : Field := ⟨0x300000 + 0x1000 * i, 27, 1⟩

/-- BAY_CFG.S_METHOD, bits [26:26], IMG (spec/04_bay_metrology.md). -/
def Fld.BAY_CFG_S_METHOD (i : Nat) : Field := ⟨0x300000 + 0x1000 * i, 26, 1⟩

/-- BAY_CFG.WIRING, bits [30:29], IMG (spec/04_bay_metrology.md). -/
def Fld.BAY_CFG_WIRING (i : Nat) : Field := ⟨0x300000 + 0x1000 * i, 29, 2⟩

/-- BAY_EVT_CNT.INT, bits [23:16], RO (spec/05_harmonics_quality.md). -/
def Fld.BAY_EVT_CNT_INT (i : Nat) : Field := ⟨0x300548 + 0x1000 * i, 16, 8⟩

/-- BAY_EVT_CNT.SAG, bits [7:0], RO (spec/05_harmonics_quality.md). -/
def Fld.BAY_EVT_CNT_SAG (i : Nat) : Field := ⟨0x300548 + 0x1000 * i, 0, 8⟩

/-- BAY_EVT_CNT.SWELL, bits [15:8], RO (spec/05_harmonics_quality.md). -/
def Fld.BAY_EVT_CNT_SWELL (i : Nat) : Field := ⟨0x300548 + 0x1000 * i, 8, 8⟩

/-- BAY_EVT_DUR.DUR, bits [31:0], RO (spec/05_harmonics_quality.md). -/
def Fld.BAY_EVT_DUR_DUR (i : Nat) : Field := ⟨0x300544 + 0x1000 * i, 0, 32⟩

/-- BAY_EVT_LAST.ABORTED, bits [27:27], RO (spec/05_harmonics_quality.md). -/
def Fld.BAY_EVT_LAST_ABORTED (i : Nat) : Field := ⟨0x300540 + 0x1000 * i, 27, 1⟩

/-- BAY_EVT_LAST.CHANNELS, bits [26:24], RO (spec/05_harmonics_quality.md). -/
def Fld.BAY_EVT_LAST_CHANNELS (i : Nat) : Field := ⟨0x300540 + 0x1000 * i, 24, 3⟩

/-- BAY_EVT_LAST.EXT, bits [15:0], RO (spec/05_harmonics_quality.md). -/
def Fld.BAY_EVT_LAST_EXT (i : Nat) : Field := ⟨0x300540 + 0x1000 * i, 0, 16⟩

/-- BAY_EVT_LAST.KIND, bits [31:29], RO (spec/05_harmonics_quality.md). -/
def Fld.BAY_EVT_LAST_KIND (i : Nat) : Field := ⟨0x300540 + 0x1000 * i, 29, 3⟩

/-- BAY_EVT_LAST.POWERDOWN, bits [28:28], RO (spec/05_harmonics_quality.md). -/
def Fld.BAY_EVT_LAST_POWERDOWN (i : Nat) : Field := ⟨0x300540 + 0x1000 * i, 28, 1⟩

/-- BAY_FREQ.FREQ, bits [31:0], RO (spec/04_bay_metrology.md). -/
def Fld.BAY_FREQ_FREQ (i : Nat) : Field := ⟨0x300054 + 0x1000 * i, 0, 32⟩

/-- BAY_HELD.HELD, bits [31:0], RO (spec/04_bay_metrology.md). -/
def Fld.BAY_HELD_HELD (i : Nat) : Field := ⟨0x300048 + 0x1000 * i, 0, 32⟩

/-- BAY_HSEL.CHAN, bits [2:0], RW (spec/05_harmonics_quality.md). -/
def Fld.BAY_HSEL_CHAN (i : Nat) : Field := ⟨0x300600 + 0x1000 * i, 0, 3⟩

/-- BAY_HSEL.KIND, bits [5:4], RW (spec/05_harmonics_quality.md). -/
def Fld.BAY_HSEL_KIND (i : Nat) : Field := ⟨0x300600 + 0x1000 * i, 4, 2⟩

/-- BAY_HSEQ.SEQ, bits [31:0], RO (spec/05_harmonics_quality.md). -/
def Fld.BAY_HSEQ_SEQ (i : Nat) : Field := ⟨0x300404 + 0x1000 * i, 0, 32⟩

/-- BAY_HSKIP.FAULT, bits [31:16], RO (spec/05_harmonics_quality.md). -/
def Fld.BAY_HSKIP_FAULT (i : Nat) : Field := ⟨0x300408 + 0x1000 * i, 16, 16⟩

/-- BAY_HSKIP.INVALID, bits [15:0], RO (spec/05_harmonics_quality.md). -/
def Fld.BAY_HSKIP_INVALID (i : Nat) : Field := ⟨0x300408 + 0x1000 * i, 0, 16⟩

/-- BAY_HSTAT.ABOVE_SWELL, bits [12:10], RO (spec/05_harmonics_quality.md). -/
def Fld.BAY_HSTAT_ABOVE_SWELL (i : Nat) : Field := ⟨0x300400 + 0x1000 * i, 10, 3⟩

/-- BAY_HSTAT.BELOW_SAG, bits [15:13], RO (spec/05_harmonics_quality.md). -/
def Fld.BAY_HSTAT_BELOW_SAG (i : Nat) : Field := ⟨0x300400 + 0x1000 * i, 13, 3⟩

/-- BAY_HSTAT.DIP_ACT, bits [9:9], RO (spec/05_harmonics_quality.md). -/
def Fld.BAY_HSTAT_DIP_ACT (i : Nat) : Field := ⟨0x300400 + 0x1000 * i, 9, 1⟩

/-- BAY_HSTAT.FLAGGED, bits [30:30], RO (spec/05_harmonics_quality.md). -/
def Fld.BAY_HSTAT_FLAGGED (i : Nat) : Field := ⟨0x300400 + 0x1000 * i, 30, 1⟩

/-- BAY_HSTAT.HMAX, bits [22:16], RO (spec/05_harmonics_quality.md). -/
def Fld.BAY_HSTAT_HMAX (i : Nat) : Field := ⟨0x300400 + 0x1000 * i, 16, 7⟩

/-- BAY_HSTAT.HMAX_LIMITED, bits [29:29], RO (spec/05_harmonics_quality.md). -/
def Fld.BAY_HSTAT_HMAX_LIMITED (i : Nat) : Field := ⟨0x300400 + 0x1000 * i, 29, 1⟩

/-- BAY_HSTAT.HVALID, bits [31:31], RO (spec/05_harmonics_quality.md). -/
def Fld.BAY_HSTAT_HVALID (i : Nat) : Field := ⟨0x300400 + 0x1000 * i, 31, 1⟩

/-- BAY_HSTAT.INT_SEEN, bits [8:8], RO (spec/05_harmonics_quality.md). -/
def Fld.BAY_HSTAT_INT_SEEN (i : Nat) : Field := ⟨0x300400 + 0x1000 * i, 8, 1⟩

/-- BAY_HSTAT.LIMIT, bits [6:3], RO (spec/05_harmonics_quality.md). -/
def Fld.BAY_HSTAT_LIMIT (i : Nat) : Field := ⟨0x300400 + 0x1000 * i, 3, 4⟩

/-- BAY_HSTAT.SWELL_ACT, bits [7:7], RO (spec/05_harmonics_quality.md). -/
def Fld.BAY_HSTAT_SWELL_ACT (i : Nat) : Field := ⟨0x300400 + 0x1000 * i, 7, 1⟩

/-- BAY_I0.VALUE, bits [31:0], RO (spec/05_harmonics_quality.md). -/
def Fld.BAY_I0_VALUE (i : Nat) : Field := ⟨0x30049C + 0x1000 * i, 0, 32⟩

/-- BAY_I2.VALUE, bits [31:0], RO (spec/05_harmonics_quality.md). -/
def Fld.BAY_I2_VALUE (i : Nat) : Field := ⟨0x300498 + 0x1000 * i, 0, 32⟩

/-- BAY_IL.VALUE, bits [31:0], IMG (spec/05_harmonics_quality.md). -/
def Fld.BAY_IL_VALUE (i : Nat) : Field := ⟨0x30041C + 0x1000 * i, 0, 32⟩

/-- BAY_IRES.VALUE, bits [31:0], RO (spec/04_bay_metrology.md). -/
def Fld.BAY_IRES_VALUE (i : Nat) : Field := ⟨0x300080 + 0x1000 * i, 0, 32⟩

/-- BAY_IRMS_A.VALUE, bits [31:0], RO (spec/04_bay_metrology.md). -/
def Fld.BAY_IRMS_A_VALUE (i : Nat) : Field := ⟨0x300070 + 0x1000 * i, 0, 32⟩

/-- BAY_IRMS_B.VALUE, bits [31:0], RO (spec/04_bay_metrology.md). -/
def Fld.BAY_IRMS_B_VALUE (i : Nat) : Field := ⟨0x300074 + 0x1000 * i, 0, 32⟩

/-- BAY_IRMS_C.VALUE, bits [31:0], RO (spec/04_bay_metrology.md). -/
def Fld.BAY_IRMS_C_VALUE (i : Nat) : Field := ⟨0x300078 + 0x1000 * i, 0, 32⟩

/-- BAY_IRMS_N.VALUE, bits [31:0], RO (spec/04_bay_metrology.md). -/
def Fld.BAY_IRMS_N_VALUE (i : Nat) : Field := ⟨0x30007C + 0x1000 * i, 0, 32⟩

/-- BAY_KI_A.K, bits [31:0], IMG (spec/04_bay_metrology.md). -/
def Fld.BAY_KI_A_K (i : Nat) : Field := ⟨0x300010 + 0x1000 * i, 0, 32⟩

/-- BAY_KI_B.K, bits [31:0], IMG (spec/04_bay_metrology.md). -/
def Fld.BAY_KI_B_K (i : Nat) : Field := ⟨0x300014 + 0x1000 * i, 0, 32⟩

/-- BAY_KI_C.K, bits [31:0], IMG (spec/04_bay_metrology.md). -/
def Fld.BAY_KI_C_K (i : Nat) : Field := ⟨0x300018 + 0x1000 * i, 0, 32⟩

/-- BAY_KI_N.K, bits [31:0], IMG (spec/04_bay_metrology.md). -/
def Fld.BAY_KI_N_K (i : Nat) : Field := ⟨0x30001C + 0x1000 * i, 0, 32⟩

/-- BAY_LIM_FDEV.LIMIT, bits [31:0], IMG (spec/05_harmonics_quality.md). -/
def Fld.BAY_LIM_FDEV_LIMIT (i : Nat) : Field := ⟨0x30042C + 0x1000 * i, 0, 32⟩

/-- BAY_LIM_THDI.LIMIT, bits [31:0], IMG (spec/05_harmonics_quality.md). -/
def Fld.BAY_LIM_THDI_LIMIT (i : Nat) : Field := ⟨0x300424 + 0x1000 * i, 0, 32⟩

/-- BAY_LIM_THDU.LIMIT, bits [31:0], IMG (spec/05_harmonics_quality.md). -/
def Fld.BAY_LIM_THDU_LIMIT (i : Nat) : Field := ⟨0x300420 + 0x1000 * i, 0, 32⟩

/-- BAY_LIM_U2.LIMIT, bits [31:0], IMG (spec/05_harmonics_quality.md). -/
def Fld.BAY_LIM_U2_LIMIT (i : Nat) : Field := ⟨0x300428 + 0x1000 * i, 0, 32⟩

/-- BAY_LOST.LOST, bits [31:0], RO (spec/04_bay_metrology.md). -/
def Fld.BAY_LOST_LOST (i : Nat) : Field := ⟨0x30004C + 0x1000 * i, 0, 32⟩

/-- BAY_PF_A.PF, bits [31:0], RO (spec/04_bay_metrology.md). -/
def Fld.BAY_PF_A_PF (i : Nat) : Field := ⟨0x3000E0 + 0x1000 * i, 0, 32⟩

/-- BAY_PF_B.PF, bits [31:0], RO (spec/04_bay_metrology.md). -/
def Fld.BAY_PF_B_PF (i : Nat) : Field := ⟨0x3000E4 + 0x1000 * i, 0, 32⟩

/-- BAY_PF_C.PF, bits [31:0], RO (spec/04_bay_metrology.md). -/
def Fld.BAY_PF_C_PF (i : Nat) : Field := ⟨0x3000E8 + 0x1000 * i, 0, 32⟩

/-- BAY_PF_T.PF, bits [31:0], RO (spec/04_bay_metrology.md). -/
def Fld.BAY_PF_T_PF (i : Nat) : Field := ⟨0x3000EC + 0x1000 * i, 0, 32⟩

/-- BAY_P_A.VALUE, bits [31:0], RO (spec/04_bay_metrology.md). -/
def Fld.BAY_P_A_VALUE (i : Nat) : Field := ⟨0x300090 + 0x1000 * i, 0, 32⟩

/-- BAY_P_B.VALUE, bits [31:0], RO (spec/04_bay_metrology.md). -/
def Fld.BAY_P_B_VALUE (i : Nat) : Field := ⟨0x300094 + 0x1000 * i, 0, 32⟩

/-- BAY_P_C.VALUE, bits [31:0], RO (spec/04_bay_metrology.md). -/
def Fld.BAY_P_C_VALUE (i : Nat) : Field := ⟨0x300098 + 0x1000 * i, 0, 32⟩

/-- BAY_P_T.VALUE, bits [31:0], RO (spec/04_bay_metrology.md). -/
def Fld.BAY_P_T_VALUE (i : Nat) : Field := ⟨0x30009C + 0x1000 * i, 0, 32⟩

/-- BAY_Q1_A.VALUE, bits [31:0], RO (spec/04_bay_metrology.md). -/
def Fld.BAY_Q1_A_VALUE (i : Nat) : Field := ⟨0x3000A0 + 0x1000 * i, 0, 32⟩

/-- BAY_Q1_B.VALUE, bits [31:0], RO (spec/04_bay_metrology.md). -/
def Fld.BAY_Q1_B_VALUE (i : Nat) : Field := ⟨0x3000A4 + 0x1000 * i, 0, 32⟩

/-- BAY_Q1_C.VALUE, bits [31:0], RO (spec/04_bay_metrology.md). -/
def Fld.BAY_Q1_C_VALUE (i : Nat) : Field := ⟨0x3000A8 + 0x1000 * i, 0, 32⟩

/-- BAY_Q1_T.VALUE, bits [31:0], RO (spec/04_bay_metrology.md). -/
def Fld.BAY_Q1_T_VALUE (i : Nat) : Field := ⟨0x3000AC + 0x1000 * i, 0, 32⟩

/-- BAY_QCFG.GROUPING, bits [31:31], IMG (spec/05_harmonics_quality.md). -/
def Fld.BAY_QCFG_GROUPING (i : Nat) : Field := ⟨0x300410 + 0x1000 * i, 31, 1⟩

/-- BAY_QS_A.VALUE, bits [31:0], RO (spec/04_bay_metrology.md). -/
def Fld.BAY_QS_A_VALUE (i : Nat) : Field := ⟨0x3000B0 + 0x1000 * i, 0, 32⟩

/-- BAY_QS_B.VALUE, bits [31:0], RO (spec/04_bay_metrology.md). -/
def Fld.BAY_QS_B_VALUE (i : Nat) : Field := ⟨0x3000B4 + 0x1000 * i, 0, 32⟩

/-- BAY_QS_C.VALUE, bits [31:0], RO (spec/04_bay_metrology.md). -/
def Fld.BAY_QS_C_VALUE (i : Nat) : Field := ⟨0x3000B8 + 0x1000 * i, 0, 32⟩

/-- BAY_QS_T.VALUE, bits [31:0], RO (spec/04_bay_metrology.md). -/
def Fld.BAY_QS_T_VALUE (i : Nat) : Field := ⟨0x3000BC + 0x1000 * i, 0, 32⟩

/-- BAY_QTHR.HYST, bits [7:0], IMG (spec/05_harmonics_quality.md). -/
def Fld.BAY_QTHR_HYST (i : Nat) : Field := ⟨0x300418 + 0x1000 * i, 0, 8⟩

/-- BAY_QTHR.INT, bits [15:8], IMG (spec/05_harmonics_quality.md). -/
def Fld.BAY_QTHR_INT (i : Nat) : Field := ⟨0x300418 + 0x1000 * i, 8, 8⟩

/-- BAY_QTHR.SAG, bits [31:24], IMG (spec/05_harmonics_quality.md). -/
def Fld.BAY_QTHR_SAG (i : Nat) : Field := ⟨0x300418 + 0x1000 * i, 24, 8⟩

/-- BAY_QTHR.SWELL, bits [23:16], IMG (spec/05_harmonics_quality.md). -/
def Fld.BAY_QTHR_SWELL (i : Nat) : Field := ⟨0x300418 + 0x1000 * i, 16, 8⟩

/-- BAY_QUAL.CYCLES, bits [7:0], RO (spec/04_bay_metrology.md). -/
def Fld.BAY_QUAL_CYCLES (i : Nat) : Field := ⟨0x300044 + 0x1000 * i, 0, 8⟩

/-- BAY_QUAL.HELD_SEEN, bits [31:31], W1C (spec/04_bay_metrology.md). -/
def Fld.BAY_QUAL_HELD_SEEN (i : Nat) : Field := ⟨0x300044 + 0x1000 * i, 31, 1⟩

/-- BAY_QUAL.LOST_SEEN, bits [30:30], W1C (spec/04_bay_metrology.md). -/
def Fld.BAY_QUAL_LOST_SEEN (i : Nat) : Field := ⟨0x300044 + 0x1000 * i, 30, 1⟩

/-- BAY_QUAL.SHORT_SEEN, bits [28:28], W1C (spec/04_bay_metrology.md). -/
def Fld.BAY_QUAL_SHORT_SEEN (i : Nat) : Field := ⟨0x300044 + 0x1000 * i, 28, 1⟩

/-- BAY_QUAL.UNLOCK_SEEN, bits [29:29], W1C (spec/04_bay_metrology.md). -/
def Fld.BAY_QUAL_UNLOCK_SEEN (i : Nat) : Field := ⟨0x300044 + 0x1000 * i, 29, 1⟩

/-- BAY_SEQ.SEQ, bits [31:0], RO (spec/04_bay_metrology.md). -/
def Fld.BAY_SEQ_SEQ (i : Nat) : Field := ⟨0x300050 + 0x1000 * i, 0, 32⟩

/-- BAY_STATUS.DEGRADED, bits [23:23], RO (spec/04_bay_metrology.md). -/
def Fld.BAY_STATUS_DEGRADED (i : Nat) : Field := ⟨0x300040 + 0x1000 * i, 23, 1⟩

/-- BAY_STATUS.DIR, bits [27:27], RO (spec/04_bay_metrology.md). -/
def Fld.BAY_STATUS_DIR (i : Nat) : Field := ⟨0x300040 + 0x1000 * i, 27, 1⟩

/-- BAY_STATUS.DIR_A, bit [24], RO (spec/04_bay_metrology.md). -/
def Fld.BAY_STATUS_DIR_A (i : Nat) : Field := ⟨0x300040 + 0x1000 * i, 24, 1⟩

/-- BAY_STATUS.DIR_B, bit [25], RO (spec/04_bay_metrology.md). -/
def Fld.BAY_STATUS_DIR_B (i : Nat) : Field := ⟨0x300040 + 0x1000 * i, 25, 1⟩

/-- BAY_STATUS.DIR_C, bit [26], RO (spec/04_bay_metrology.md). -/
def Fld.BAY_STATUS_DIR_C (i : Nat) : Field := ⟨0x300040 + 0x1000 * i, 26, 1⟩

/-- BAY_STATUS.FREQ_VALID, bits [28:28], RO (spec/04_bay_metrology.md). -/
def Fld.BAY_STATUS_FREQ_VALID (i : Nat) : Field := ⟨0x300040 + 0x1000 * i, 28, 1⟩

/-- BAY_STATUS.NO_LOAD_A, bit [12], RO (spec/04_bay_metrology.md). -/
def Fld.BAY_STATUS_NO_LOAD_A (i : Nat) : Field := ⟨0x300040 + 0x1000 * i, 12, 1⟩

/-- BAY_STATUS.NO_LOAD_ALL, bits [15:15], RO (spec/04_bay_metrology.md). -/
def Fld.BAY_STATUS_NO_LOAD_ALL (i : Nat) : Field := ⟨0x300040 + 0x1000 * i, 15, 1⟩

/-- BAY_STATUS.NO_LOAD_B, bit [13], RO (spec/04_bay_metrology.md). -/
def Fld.BAY_STATUS_NO_LOAD_B (i : Nat) : Field := ⟨0x300040 + 0x1000 * i, 13, 1⟩

/-- BAY_STATUS.NO_LOAD_C, bit [14], RO (spec/04_bay_metrology.md). -/
def Fld.BAY_STATUS_NO_LOAD_C (i : Nat) : Field := ⟨0x300040 + 0x1000 * i, 14, 1⟩

/-- BAY_STATUS.PROVISIONAL, bits [22:22], RO (spec/04_bay_metrology.md). -/
def Fld.BAY_STATUS_PROVISIONAL (i : Nat) : Field := ⟨0x300040 + 0x1000 * i, 22, 1⟩

/-- BAY_STATUS.QUAD, bits [19:18], RO (spec/04_bay_metrology.md). -/
def Fld.BAY_STATUS_QUAD (i : Nat) : Field := ⟨0x300040 + 0x1000 * i, 18, 2⟩

/-- BAY_STATUS.STANDBY, bits [21:21], RO (spec/04_bay_metrology.md). -/
def Fld.BAY_STATUS_STANDBY (i : Nat) : Field := ⟨0x300040 + 0x1000 * i, 21, 1⟩

/-- BAY_STATUS.TRACK, bits [31:29], RO (spec/04_bay_metrology.md). -/
def Fld.BAY_STATUS_TRACK (i : Nat) : Field := ⟨0x300040 + 0x1000 * i, 29, 3⟩

/-- BAY_S_A.VALUE, bits [31:0], RO (spec/04_bay_metrology.md). -/
def Fld.BAY_S_A_VALUE (i : Nat) : Field := ⟨0x3000C0 + 0x1000 * i, 0, 32⟩

/-- BAY_S_B.VALUE, bits [31:0], RO (spec/04_bay_metrology.md). -/
def Fld.BAY_S_B_VALUE (i : Nat) : Field := ⟨0x3000C4 + 0x1000 * i, 0, 32⟩

/-- BAY_S_C.VALUE, bits [31:0], RO (spec/04_bay_metrology.md). -/
def Fld.BAY_S_C_VALUE (i : Nat) : Field := ⟨0x3000C8 + 0x1000 * i, 0, 32⟩

/-- BAY_S_T.VALUE, bits [31:0], RO (spec/04_bay_metrology.md). -/
def Fld.BAY_S_T_VALUE (i : Nat) : Field := ⟨0x3000CC + 0x1000 * i, 0, 32⟩

/-- BAY_TDD_A.VALUE, bits [31:0], RO (spec/05_harmonics_quality.md). -/
def Fld.BAY_TDD_A_VALUE (i : Nat) : Field := ⟨0x300480 + 0x1000 * i, 0, 32⟩

/-- BAY_TDD_B.VALUE, bits [31:0], RO (spec/05_harmonics_quality.md). -/
def Fld.BAY_TDD_B_VALUE (i : Nat) : Field := ⟨0x300484 + 0x1000 * i, 0, 32⟩

/-- BAY_TDD_C.VALUE, bits [31:0], RO (spec/05_harmonics_quality.md). -/
def Fld.BAY_TDD_C_VALUE (i : Nat) : Field := ⟨0x300488 + 0x1000 * i, 0, 32⟩

/-- BAY_THDI_A.VALUE, bits [31:0], RO (spec/05_harmonics_quality.md). -/
def Fld.BAY_THDI_A_VALUE (i : Nat) : Field := ⟨0x300450 + 0x1000 * i, 0, 32⟩

/-- BAY_THDI_B.VALUE, bits [31:0], RO (spec/05_harmonics_quality.md). -/
def Fld.BAY_THDI_B_VALUE (i : Nat) : Field := ⟨0x300454 + 0x1000 * i, 0, 32⟩

/-- BAY_THDI_C.VALUE, bits [31:0], RO (spec/05_harmonics_quality.md). -/
def Fld.BAY_THDI_C_VALUE (i : Nat) : Field := ⟨0x300458 + 0x1000 * i, 0, 32⟩

/-- BAY_THDI_N.VALUE, bits [31:0], RO (spec/05_harmonics_quality.md). -/
def Fld.BAY_THDI_N_VALUE (i : Nat) : Field := ⟨0x30045C + 0x1000 * i, 0, 32⟩

/-- BAY_THDU_A.VALUE, bits [31:0], RO (spec/05_harmonics_quality.md). -/
def Fld.BAY_THDU_A_VALUE (i : Nat) : Field := ⟨0x300440 + 0x1000 * i, 0, 32⟩

/-- BAY_THDU_B.VALUE, bits [31:0], RO (spec/05_harmonics_quality.md). -/
def Fld.BAY_THDU_B_VALUE (i : Nat) : Field := ⟨0x300444 + 0x1000 * i, 0, 32⟩

/-- BAY_THDU_C.VALUE, bits [31:0], RO (spec/05_harmonics_quality.md). -/
def Fld.BAY_THDU_C_VALUE (i : Nat) : Field := ⟨0x300448 + 0x1000 * i, 0, 32⟩

/-- BAY_THDXI_A.VALUE, bits [31:0], RO (spec/05_harmonics_quality.md). -/
def Fld.BAY_THDXI_A_VALUE (i : Nat) : Field := ⟨0x300470 + 0x1000 * i, 0, 32⟩

/-- BAY_THDXI_B.VALUE, bits [31:0], RO (spec/05_harmonics_quality.md). -/
def Fld.BAY_THDXI_B_VALUE (i : Nat) : Field := ⟨0x300474 + 0x1000 * i, 0, 32⟩

/-- BAY_THDXI_C.VALUE, bits [31:0], RO (spec/05_harmonics_quality.md). -/
def Fld.BAY_THDXI_C_VALUE (i : Nat) : Field := ⟨0x300478 + 0x1000 * i, 0, 32⟩

/-- BAY_THDXI_N.VALUE, bits [31:0], RO (spec/05_harmonics_quality.md). -/
def Fld.BAY_THDXI_N_VALUE (i : Nat) : Field := ⟨0x30047C + 0x1000 * i, 0, 32⟩

/-- BAY_THDXU_A.VALUE, bits [31:0], RO (spec/05_harmonics_quality.md). -/
def Fld.BAY_THDXU_A_VALUE (i : Nat) : Field := ⟨0x300460 + 0x1000 * i, 0, 32⟩

/-- BAY_THDXU_B.VALUE, bits [31:0], RO (spec/05_harmonics_quality.md). -/
def Fld.BAY_THDXU_B_VALUE (i : Nat) : Field := ⟨0x300464 + 0x1000 * i, 0, 32⟩

/-- BAY_THDXU_C.VALUE, bits [31:0], RO (spec/05_harmonics_quality.md). -/
def Fld.BAY_THDXU_C_VALUE (i : Nat) : Field := ⟨0x300468 + 0x1000 * i, 0, 32⟩

/-- BAY_THRESH.START_I, bits [15:0], IMG (spec/04_bay_metrology.md). -/
def Fld.BAY_THRESH_START_I (i : Nat) : Field := ⟨0x300004 + 0x1000 * i, 0, 16⟩

/-- BAY_U0.VALUE, bits [31:0], RO (spec/05_harmonics_quality.md). -/
def Fld.BAY_U0_VALUE (i : Nat) : Field := ⟨0x300494 + 0x1000 * i, 0, 32⟩

/-- BAY_U2.VALUE, bits [31:0], RO (spec/05_harmonics_quality.md). -/
def Fld.BAY_U2_VALUE (i : Nat) : Field := ⟨0x300490 + 0x1000 * i, 0, 32⟩

/-- BAY_UDIN.VALUE, bits [31:0], IMG (spec/05_harmonics_quality.md). -/
def Fld.BAY_UDIN_VALUE (i : Nat) : Field := ⟨0x300414 + 0x1000 * i, 0, 32⟩

/-- BAY_URMS_A.VALUE, bits [31:0], RO (spec/04_bay_metrology.md). -/
def Fld.BAY_URMS_A_VALUE (i : Nat) : Field := ⟨0x300060 + 0x1000 * i, 0, 32⟩

/-- BAY_URMS_B.VALUE, bits [31:0], RO (spec/04_bay_metrology.md). -/
def Fld.BAY_URMS_B_VALUE (i : Nat) : Field := ⟨0x300064 + 0x1000 * i, 0, 32⟩

/-- BAY_URMS_C.VALUE, bits [31:0], RO (spec/04_bay_metrology.md). -/
def Fld.BAY_URMS_C_VALUE (i : Nat) : Field := ⟨0x300068 + 0x1000 * i, 0, 32⟩

/-- BAY_WFREQ.VALUE, bits [31:0], RO (spec/05_harmonics_quality.md). -/
def Fld.BAY_WFREQ_VALUE (i : Nat) : Field := ⟨0x3004A0 + 0x1000 * i, 0, 32⟩

/-- BK_CMD.RESULT, bits [27:24], RO (spec/14_bedrock.md). -/
def Fld.BK_CMD_RESULT : Field := ⟨0xA00004, 24, 4⟩

/-- BK_LR_STAT.CRC_OK, bits [7:4], RO (spec/14_bedrock.md). -/
def Fld.BK_LR_STAT_CRC_OK : Field := ⟨0xA00060, 4, 4⟩

/-- BK_LR_STAT.OCCUPIED, bits [3:0], RO (spec/14_bedrock.md). -/
def Fld.BK_LR_STAT_OCCUPIED : Field := ⟨0xA00060, 0, 4⟩

/-- BK_PWRON_CFG.MODE, bits [31:30], IMG (spec/14_bedrock.md). -/
def Fld.BK_PWRON_CFG_MODE : Field := ⟨0xA00054, 30, 2⟩

/-- BK_PWRON_CFG.TIMEOUT, bits [13:8], IMG (spec/14_bedrock.md). -/
def Fld.BK_PWRON_CFG_TIMEOUT : Field := ⟨0xA00054, 8, 6⟩

/-- BK_PWRON_CFG.WIDTH, bits [7:0], IMG (spec/14_bedrock.md). -/
def Fld.BK_PWRON_CFG_WIDTH : Field := ⟨0xA00054, 0, 8⟩

/-- BK_STATUS.BKP_LOST, bits [21:21], RO (spec/14_bedrock.md). -/
def Fld.BK_STATUS_BKP_LOST : Field := ⟨0xA00000, 21, 1⟩

/-- BK_STATUS.PWRON, bits [20:20], RO (spec/14_bedrock.md). -/
def Fld.BK_STATUS_PWRON : Field := ⟨0xA00000, 20, 1⟩

/-- BK_STATUS.SUPPLY, bits [31:24], RO (spec/14_bedrock.md). -/
def Fld.BK_STATUS_SUPPLY : Field := ⟨0xA00000, 24, 8⟩

/-- BK_STATUS.SWITCHES, bits [15:0], RO (spec/14_bedrock.md). -/
def Fld.BK_STATUS_SWITCHES : Field := ⟨0xA00000, 0, 16⟩

/-- BK_STATUS.VBAT_LOW, bits [22:22], RO (spec/14_bedrock.md). -/
def Fld.BK_STATUS_VBAT_LOW : Field := ⟨0xA00000, 22, 1⟩

/-- BK_VBAT.MV, bits [15:0], RO (spec/14_bedrock.md). -/
def Fld.BK_VBAT_MV : Field := ⟨0xA00058, 0, 16⟩

/-- CAL_ACC_SEL.INDEX, bits [17:10], RW (spec/03_self_calibration.md). -/
def Fld.CAL_ACC_SEL_INDEX : Field := ⟨0x200020, 10, 8⟩

/-- CAL_ACC_SEL.OBJ, bits [30:30], RW (spec/03_self_calibration.md). -/
def Fld.CAL_ACC_SEL_OBJ : Field := ⟨0x200020, 30, 1⟩

/-- CAL_ACC_SEL.SET, bits [31:31], RW (spec/03_self_calibration.md). -/
def Fld.CAL_ACC_SEL_SET : Field := ⟨0x200020, 31, 1⟩

/-- CAL_ACC_SEL.WORD, bits [9:0], RW (spec/03_self_calibration.md). -/
def Fld.CAL_ACC_SEL_WORD : Field := ⟨0x200020, 0, 10⟩

/-- CAL_CMD.LANE, bits [6:0], SW (spec/03_self_calibration.md). -/
def Fld.CAL_CMD_LANE : Field := ⟨0x200028, 0, 7⟩

/-- CAL_CMD.RESULT, bits [27:24], RO (spec/03_self_calibration.md). -/
def Fld.CAL_CMD_RESULT : Field := ⟨0x200028, 24, 4⟩

/-- CAL_LANE_STAT.ACCEPT_CNT, bits [7:0], RO (spec/03_self_calibration.md). -/
def Fld.CAL_LANE_STAT_ACCEPT_CNT (i : Nat) : Field := ⟨0x200100 + 0x4 * i, 0, 8⟩

/-- CAL_LANE_STAT.CONVERGED, bits [31:31], RO (spec/03_self_calibration.md). -/
def Fld.CAL_LANE_STAT_CONVERGED (i : Nat) : Field := ⟨0x200100 + 0x4 * i, 31, 1⟩

/-- CAL_LANE_STAT.IDLE_HOLD, bits [30:30], RO (spec/03_self_calibration.md). -/
def Fld.CAL_LANE_STAT_IDLE_HOLD (i : Nat) : Field := ⟨0x200100 + 0x4 * i, 30, 1⟩

/-- CAL_LANE_STAT.LAST_CAUSE, bits [23:16], RO (spec/03_self_calibration.md). -/
def Fld.CAL_LANE_STAT_LAST_CAUSE (i : Nat) : Field := ⟨0x200100 + 0x4 * i, 16, 8⟩

/-- CAL_LANE_STAT.LAST_RESULT, bits [15:13], RO (spec/03_self_calibration.md). -/
def Fld.CAL_LANE_STAT_LAST_RESULT (i : Nat) : Field := ⟨0x200100 + 0x4 * i, 13, 3⟩

/-- CAL_LANE_STAT.MEASURED, bits [12:8], RO (spec/03_self_calibration.md). -/
def Fld.CAL_LANE_STAT_MEASURED (i : Nat) : Field := ⟨0x200100 + 0x4 * i, 8, 5⟩

/-- CAL_LANE_STAT.REBASE_PEND, bits [28:28], RO (spec/03_self_calibration.md). -/
def Fld.CAL_LANE_STAT_REBASE_PEND (i : Nat) : Field := ⟨0x200100 + 0x4 * i, 28, 1⟩

/-- CAL_LANE_STAT.REJ_CNT, bits [27:26], RO (spec/03_self_calibration.md). -/
def Fld.CAL_LANE_STAT_REJ_CNT (i : Nat) : Field := ⟨0x200100 + 0x4 * i, 26, 2⟩

/-- CAL_LANE_STAT.SCALE_VALID, bits [29:29], RO (spec/03_self_calibration.md). -/
def Fld.CAL_LANE_STAT_SCALE_VALID (i : Nat) : Field := ⟨0x200100 + 0x4 * i, 29, 1⟩

/-- CAL_REF.DEV, bits [15:0], RO (spec/03_self_calibration.md). -/
def Fld.CAL_REF_DEV : Field := ⟨0x20000C, 0, 16⟩

/-- CAL_REF.MISMATCH, bits [31:31], RO (spec/03_self_calibration.md). -/
def Fld.CAL_REF_MISMATCH : Field := ⟨0x20000C, 31, 1⟩

/-- CAL_REF.MISMATCH_SEEN, bits [30:30], W1C (spec/03_self_calibration.md). -/
def Fld.CAL_REF_MISMATCH_SEEN : Field := ⟨0x20000C, 30, 1⟩

/-- CAL_RESULT.ACCEPTED, bits [31:24], RO (spec/03_self_calibration.md). -/
def Fld.CAL_RESULT_ACCEPTED : Field := ⟨0x200008, 24, 8⟩

/-- CAL_RESULT.REJECTED, bits [23:16], RO (spec/03_self_calibration.md). -/
def Fld.CAL_RESULT_REJECTED : Field := ⟨0x200008, 16, 8⟩

/-- CAL_RESULT.UNMEASURED, bits [15:8], RO (spec/03_self_calibration.md). -/
def Fld.CAL_RESULT_UNMEASURED : Field := ⟨0x200008, 8, 8⟩

/-- CAL_RESULT.WINDOW, bits [7:0], RO (spec/03_self_calibration.md). -/
def Fld.CAL_RESULT_WINDOW : Field := ⟨0x200008, 0, 8⟩

/-- CAL_STATUS.FULL, bits [29:29], RO (spec/03_self_calibration.md). -/
def Fld.CAL_STATUS_FULL : Field := ⟨0x200000, 29, 1⟩

/-- CAL_STATUS.HOST_STAGE, bits [28:28], RO (spec/03_self_calibration.md). -/
def Fld.CAL_STATUS_HOST_STAGE : Field := ⟨0x200000, 28, 1⟩

/-- CAL_STATUS.PIPE, bits [31:30], RO (spec/03_self_calibration.md). -/
def Fld.CAL_STATUS_PIPE : Field := ⟨0x200000, 30, 2⟩

/-- CAL_STATUS.SWITCH_CNT, bits [15:0], RO (spec/03_self_calibration.md). -/
def Fld.CAL_STATUS_SWITCH_CNT : Field := ⟨0x200000, 0, 16⟩

/-- CAL_WINDOW.POS, bits [23:0], RO (spec/03_self_calibration.md). -/
def Fld.CAL_WINDOW_POS : Field := ⟨0x200004, 0, 24⟩

/-- CAL_WINDOW.WINDOW, bits [31:24], RO (spec/03_self_calibration.md). -/
def Fld.CAL_WINDOW_WINDOW : Field := ⟨0x200004, 24, 8⟩

/-- The whole of CAL_ZSUM (spec/03_self_calibration.md). -/
def Fld.CAL_ZSUM_ALL : Field := ⟨0x200014, 0, 32⟩

/-- CAL_ZSUM.BAYn, field i, IMG (spec/03_self_calibration.md). -/
def Fld.CAL_ZSUM_BAY (i : Nat) : Field := ⟨0x200014, 2 * i, 2⟩

/-- CFG_ACTIVE.GEN, bits [31:0], RO (spec/16_startup_configuration.md). -/
def Fld.CFG_ACTIVE_GEN : Field := ⟨0xF0000C, 0, 32⟩

/-- CFG_FAIL_ADDR.ADDR, bits [31:0], RO (spec/16_startup_configuration.md). -/
def Fld.CFG_FAIL_ADDR_ADDR : Field := ⟨0xF00018, 0, 32⟩

/-- CFG_FLASH.JEDEC_ID, bits [31:8], RO (spec/16_startup_configuration.md). -/
def Fld.CFG_FLASH_JEDEC_ID : Field := ⟨0xF00028, 8, 24⟩

/-- CFG_FLASH.MODE, bits [3:0], RO (spec/16_startup_configuration.md). -/
def Fld.CFG_FLASH_MODE : Field := ⟨0xF00028, 0, 4⟩

/-- CFG_FLASH.SIZE, bits [7:4], RO (spec/16_startup_configuration.md). -/
def Fld.CFG_FLASH_SIZE : Field := ⟨0xF00028, 4, 4⟩

/-- CFG_FLOOR.GEN, bits [31:0], RO (spec/16_startup_configuration.md). -/
def Fld.CFG_FLOOR_GEN : Field := ⟨0xF00010, 0, 32⟩

/-- CFG_FL_ADDR.ADDR, bits [23:0], SW (spec/16_startup_configuration.md). -/
def Fld.CFG_FL_ADDR_ADDR : Field := ⟨0xF00034, 0, 24⟩

/-- CFG_FL_CMD.BUSY, bits [23:23], RO (spec/16_startup_configuration.md). -/
def Fld.CFG_FL_CMD_BUSY : Field := ⟨0xF00038, 23, 1⟩

/-- CFG_FL_CMD.RESULT, bits [27:24], RO (spec/16_startup_configuration.md). -/
def Fld.CFG_FL_CMD_RESULT : Field := ⟨0xF00038, 24, 4⟩

/-- CFG_LOAD_STAT.LIVE, bits [26:26], RO (spec/16_startup_configuration.md). -/
def Fld.CFG_LOAD_STAT_LIVE : Field := ⟨0xF00014, 26, 1⟩

/-- CFG_LOAD_STAT.LOADS, bits [15:0], RO (spec/16_startup_configuration.md). -/
def Fld.CFG_LOAD_STAT_LOADS : Field := ⟨0xF00014, 0, 16⟩

/-- CFG_LOAD_STAT.RESULT, bits [31:28], RO (spec/16_startup_configuration.md). -/
def Fld.CFG_LOAD_STAT_RESULT : Field := ⟨0xF00014, 28, 4⟩

/-- CFG_LOAD_STAT.SKIPPED, bits [20:16], RO (spec/16_startup_configuration.md). -/
def Fld.CFG_LOAD_STAT_SKIPPED : Field := ⟨0xF00014, 16, 5⟩

/-- CFG_LOAD_STAT.SLOT, bits [27:27], RO (spec/16_startup_configuration.md). -/
def Fld.CFG_LOAD_STAT_SLOT : Field := ⟨0xF00014, 27, 1⟩

/-- CFG_RESET.CAUSE, bits [31:28], RO (spec/16_startup_configuration.md). -/
def Fld.CFG_RESET_CAUSE : Field := ⟨0xF00004, 28, 4⟩

/-- CFG_SLOT0.GEN, bits [31:0], RO (spec/16_startup_configuration.md). -/
def Fld.CFG_SLOT0_GEN : Field := ⟨0xF00020, 0, 32⟩

/-- CFG_SLOT1.GEN, bits [31:0], RO (spec/16_startup_configuration.md). -/
def Fld.CFG_SLOT1_GEN : Field := ⟨0xF00024, 0, 32⟩

/-- CFG_STATUS.ACTIVE_SLOT, bits [21:21], RO (spec/16_startup_configuration.md). -/
def Fld.CFG_STATUS_ACTIVE_SLOT : Field := ⟨0xF00000, 21, 1⟩

/-- CFG_STATUS.FALLBACK, bits [22:22], RO (spec/16_startup_configuration.md). -/
def Fld.CFG_STATUS_FALLBACK : Field := ⟨0xF00000, 22, 1⟩

/-- CFG_STATUS.FIRST, bits [23:23], RO (spec/16_startup_configuration.md). -/
def Fld.CFG_STATUS_FIRST : Field := ⟨0xF00000, 23, 1⟩

/-- CFG_STATUS.FL_BUSY, bits [20:20], RO (spec/16_startup_configuration.md). -/
def Fld.CFG_STATUS_FL_BUSY : Field := ⟨0xF00000, 20, 1⟩

/-- CFG_STATUS.LOADER, bits [31:24], RO (spec/16_startup_configuration.md). -/
def Fld.CFG_STATUS_LOADER : Field := ⟨0xF00000, 24, 8⟩

/-- CFG_STRAP.CSC_ROLE, bits [1:1], RO (spec/16_startup_configuration.md). -/
def Fld.CFG_STRAP_CSC_ROLE : Field := ⟨0xF00008, 1, 1⟩

/-- CFG_STRAP.TWN_ROLE, bits [0:0], RO (spec/16_startup_configuration.md). -/
def Fld.CFG_STRAP_TWN_ROLE : Field := ⟨0xF00008, 0, 1⟩

/-- CSC_ALIGN.HOPS, bits [15:12], RO (spec/15_cascade_twin.md). -/
def Fld.CSC_ALIGN_HOPS : Field := ⟨0x800008, 12, 4⟩

/-- CSC_ALIGN.PHASE, bits [31:16], RO (spec/15_cascade_twin.md). -/
def Fld.CSC_ALIGN_PHASE : Field := ⟨0x800008, 16, 16⟩

/-- CSC_ALIGN.TRIM, bits [5:0], RO (spec/15_cascade_twin.md). -/
def Fld.CSC_ALIGN_TRIM : Field := ⟨0x800008, 0, 6⟩

/-- CSC_CFG.CLOCK, bits [30:30], IMG (spec/15_cascade_twin.md). -/
def Fld.CSC_CFG_CLOCK : Field := ⟨0x800004, 30, 1⟩

/-- CSC_CFG.ENABLE, bits [31:31], IMG (spec/15_cascade_twin.md). -/
def Fld.CSC_CFG_ENABLE : Field := ⟨0x800004, 31, 1⟩

/-- CSC_CFG.EXPECT, bits [23:16], IMG (spec/15_cascade_twin.md). -/
def Fld.CSC_CFG_EXPECT : Field := ⟨0x800004, 16, 8⟩

/-- CSC_CFG.POSITION, bits [29:27], IMG (spec/15_cascade_twin.md). -/
def Fld.CSC_CFG_POSITION : Field := ⟨0x800004, 27, 3⟩

/-- CSC_CFG.SITE_ID, bits [15:0], IMG (spec/15_cascade_twin.md). -/
def Fld.CSC_CFG_SITE_ID : Field := ⟨0x800004, 0, 16⟩

/-- CSC_ERR.ALIGN_LOSS, bits [7:0], RO (spec/15_cascade_twin.md). -/
def Fld.CSC_ERR_ALIGN_LOSS : Field := ⟨0x800010, 0, 8⟩

/-- CSC_ERR.CRC, bits [31:16], RO (spec/15_cascade_twin.md). -/
def Fld.CSC_ERR_CRC : Field := ⟨0x800010, 16, 16⟩

/-- CSC_ERR.LOST, bits [15:8], RO (spec/15_cascade_twin.md). -/
def Fld.CSC_ERR_LOST : Field := ⟨0x800010, 8, 8⟩

/-- CSC_HOP.HOP_D, bits [15:0], RO (spec/15_cascade_twin.md). -/
def Fld.CSC_HOP_HOP_D : Field := ⟨0x80000C, 0, 16⟩

/-- CSC_HOP.HOP_U, bits [31:16], RO (spec/15_cascade_twin.md). -/
def Fld.CSC_HOP_HOP_U : Field := ⟨0x80000C, 16, 16⟩

/-- CSC_MTICK.MTICK, bits [31:0], RO (spec/15_cascade_twin.md). -/
def Fld.CSC_MTICK_MTICK : Field := ⟨0x800014, 0, 32⟩

/-- CSC_STATUS.ABSENT, bits [7:0], RO (spec/15_cascade_twin.md). -/
def Fld.CSC_STATUS_ABSENT : Field := ⟨0x800000, 0, 8⟩

/-- CSC_STATUS.ALIGN, bits [19:18], RO (spec/15_cascade_twin.md). -/
def Fld.CSC_STATUS_ALIGN : Field := ⟨0x800000, 18, 2⟩

/-- CSC_STATUS.BROKEN, bits [17:17], RO (spec/15_cascade_twin.md). -/
def Fld.CSC_STATUS_BROKEN : Field := ⟨0x800000, 17, 1⟩

/-- CSC_STATUS.ENUM, bits [31:24], RO (spec/15_cascade_twin.md). -/
def Fld.CSC_STATUS_ENUM : Field := ⟨0x800000, 24, 8⟩

/-- CSC_STATUS.POSITION, bits [22:20], RO (spec/15_cascade_twin.md). -/
def Fld.CSC_STATUS_POSITION : Field := ⟨0x800000, 20, 3⟩

/-- CSC_STATUS.PRESENT, bits [15:8], RO (spec/15_cascade_twin.md). -/
def Fld.CSC_STATUS_PRESENT : Field := ⟨0x800000, 8, 8⟩

/-- CSC_STATUS.ROLE, bits [23:23], RO (spec/15_cascade_twin.md). -/
def Fld.CSC_STATUS_ROLE : Field := ⟨0x800000, 23, 1⟩

/-- DEM_CFG.LENGTH, bits [2:0], IMG (spec/08_ledger.md). -/
def Fld.DEM_CFG_LENGTH : Field := ⟨0x402000, 0, 3⟩

/-- DEM_CFG.METHOD, bits [31:31], IMG (spec/08_ledger.md). -/
def Fld.DEM_CFG_METHOD : Field := ⟨0x402000, 31, 1⟩

/-- DEM_CFG.SUBS, bits [7:4], IMG (spec/08_ledger.md). -/
def Fld.DEM_CFG_SUBS : Field := ⟨0x402000, 4, 4⟩

/-- DEM_STATUS.ELAPSED, bits [15:0], RO (spec/08_ledger.md). -/
def Fld.DEM_STATUS_ELAPSED : Field := ⟨0x402004, 0, 16⟩

/-- DEM_STATUS.SEQ, bits [31:16], RO (spec/08_ledger.md). -/
def Fld.DEM_STATUS_SEQ : Field := ⟨0x402004, 16, 16⟩

/-- LED_BP_CFG.DAY, bits [20:16], IMG (spec/08_ledger.md). -/
def Fld.LED_BP_CFG_DAY : Field := ⟨0x400028, 16, 5⟩

/-- LED_BP_CFG.MODE, bits [31:30], IMG (spec/08_ledger.md). -/
def Fld.LED_BP_CFG_MODE : Field := ⟨0x400028, 30, 2⟩

/-- LED_BP_STAT.CAUSE, bits [31:28], RO (spec/08_ledger.md). -/
def Fld.LED_BP_STAT_CAUSE : Field := ⟨0x40002C, 28, 4⟩

/-- LED_BP_STAT.PERIOD, bits [15:0], RO (spec/08_ledger.md). -/
def Fld.LED_BP_STAT_PERIOD : Field := ⟨0x40002C, 0, 16⟩

/-- LED_CMD.RESULT, bits [27:24], RO (spec/08_ledger.md). -/
def Fld.LED_CMD_RESULT : Field := ⟨0x400024, 24, 4⟩

/-- LED_LAST_CLOSED.TIME, bits [63:0], RO (spec/08_ledger.md). -/
def Fld.LED_LAST_CLOSED_TIME : Field := ⟨0x400018, 0, 64⟩

/-- LED_LATE.LATE, bits [15:0], RO (spec/08_ledger.md). -/
def Fld.LED_LATE_LATE : Field := ⟨0x400008, 0, 16⟩

/-- LED_LATE.LOST, bits [31:16], RO (spec/08_ledger.md). -/
def Fld.LED_LATE_LOST : Field := ⟨0x400008, 16, 16⟩

/-- LED_LP_CFG.LENGTH, bits [2:0], IMG (spec/08_ledger.md). -/
def Fld.LED_LP_CFG_LENGTH : Field := ⟨0x400050, 0, 3⟩

/-- LED_LP_SEL.AGE, bits [31:0], RW (spec/08_ledger.md). -/
def Fld.LED_LP_SEL_AGE : Field := ⟨0x400058, 0, 32⟩

/-- LED_LP_STAT.NEWEST, bits [31:0], RO (spec/08_ledger.md). -/
def Fld.LED_LP_STAT_NEWEST : Field := ⟨0x400054, 0, 32⟩

/-- LED_SITE.LATE, bits [15:0], RO (spec/08_ledger.md). -/
def Fld.LED_SITE_LATE : Field := ⟨0x400048, 0, 16⟩

/-- LED_SITE.PRESENT, bits [31:24], RO (spec/08_ledger.md). -/
def Fld.LED_SITE_PRESENT : Field := ⟨0x400048, 24, 8⟩

/-- LED_SNAP_SEL.K, bits [4:0], RW (spec/08_ledger.md). -/
def Fld.LED_SNAP_SEL_K : Field := ⟨0x400030, 0, 5⟩

/-- LED_STATUS.OUTAGE, bits [27:27], RO (spec/08_ledger.md). -/
def Fld.LED_STATUS_OUTAGE : Field := ⟨0x400000, 27, 1⟩

/-- LED_STATUS.POWERDOWN, bits [26:26], RO (spec/08_ledger.md). -/
def Fld.LED_STATUS_POWERDOWN : Field := ⟨0x400000, 26, 1⟩

/-- LED_STATUS.RATE, bits [3:0], RO (spec/08_ledger.md). -/
def Fld.LED_STATUS_RATE : Field := ⟨0x400000, 0, 4⟩

/-- LED_STATUS.STATE, bits [31:29], RO (spec/08_ledger.md). -/
def Fld.LED_STATUS_STATE : Field := ⟨0x400000, 29, 3⟩

/-- LED_STATUS.STEP_HELD, bits [28:28], RO (spec/08_ledger.md). -/
def Fld.LED_STATUS_STEP_HELD : Field := ⟨0x400000, 28, 1⟩

/-- LED_STEP.STEP, bits [31:0], RO (spec/08_ledger.md). -/
def Fld.LED_STEP_STEP : Field := ⟨0x400020, 0, 32⟩

/-- LED_TICK_SEQ.SEQ, bits [31:0], RO (spec/08_ledger.md). -/
def Fld.LED_TICK_SEQ_SEQ : Field := ⟨0x400004, 0, 32⟩

/-- LED_TIME.TIME, bits [63:0], RO (spec/08_ledger.md). -/
def Fld.LED_TIME_TIME : Field := ⟨0x400010, 0, 64⟩

/-- MT_PO_CFG.BAY, bits [19:16], IMG (spec/04_bay_metrology.md). -/
def Fld.MT_PO_CFG_BAY (i : Nat) : Field := ⟨0x320100 + 0x10 * i, 16, 4⟩

/-- MT_PO_CFG.ENABLE, bits [31:31], IMG (spec/04_bay_metrology.md). -/
def Fld.MT_PO_CFG_ENABLE (i : Nat) : Field := ⟨0x320100 + 0x10 * i, 31, 1⟩

/-- MT_PO_CFG.POLARITY, bits [30:30], IMG (spec/04_bay_metrology.md). -/
def Fld.MT_PO_CFG_POLARITY (i : Nat) : Field := ⟨0x320100 + 0x10 * i, 30, 1⟩

/-- MT_PO_CFG.SECONDARY, bits [27:27], IMG (spec/04_bay_metrology.md). -/
def Fld.MT_PO_CFG_SECONDARY (i : Nat) : Field := ⟨0x320100 + 0x10 * i, 27, 1⟩

/-- MT_PO_CFG.SOURCE, bits [15:12], IMG (spec/04_bay_metrology.md). -/
def Fld.MT_PO_CFG_SOURCE (i : Nat) : Field := ⟨0x320100 + 0x10 * i, 12, 4⟩

/-- MT_PO_CFG.UNIT, bits [29:28], IMG (spec/04_bay_metrology.md). -/
def Fld.MT_PO_CFG_UNIT (i : Nat) : Field := ⟨0x320100 + 0x10 * i, 28, 2⟩

/-- MT_PO_CFG.WIDTH, bits [11:0], IMG (spec/04_bay_metrology.md). -/
def Fld.MT_PO_CFG_WIDTH (i : Nat) : Field := ⟨0x320100 + 0x10 * i, 0, 12⟩

/-- MT_PO_QUANT.QUANT, bits [31:0], IMG (spec/04_bay_metrology.md). -/
def Fld.MT_PO_QUANT_QUANT (i : Nat) : Field := ⟨0x320104 + 0x10 * i, 0, 32⟩

/-- MT_PO_STAT.BACKLOG, bits [23:16], RO (spec/04_bay_metrology.md). -/
def Fld.MT_PO_STAT_BACKLOG (i : Nat) : Field := ⟨0x320108 + 0x10 * i, 16, 8⟩

/-- MT_PO_STAT.COUNT, bits [15:0], RO (spec/04_bay_metrology.md). -/
def Fld.MT_PO_STAT_COUNT (i : Nat) : Field := ⟨0x320108 + 0x10 * i, 0, 16⟩

/-- MT_PO_STAT.OVERRUN, bits [31:31], W1C (spec/04_bay_metrology.md). -/
def Fld.MT_PO_STAT_OVERRUN (i : Nat) : Field := ⟨0x320108 + 0x10 * i, 31, 1⟩

/-- MT_PS_BORE_D20.VALUE, bits [31:0], IMG (spec/07_process_custody.md). -/
def Fld.MT_PS_BORE_D20_VALUE (i : Nat) : Field := ⟨0x310104 + 0x1000 * i, 0, 32⟩

/-- MT_PS_CFG.ENABLE, bits [31:31], IMG (spec/07_process_custody.md). -/
def Fld.MT_PS_CFG_ENABLE (i : Nat) : Field := ⟨0x310000 + 0x1000 * i, 31, 1⟩

/-- MT_PS_CFG.HREF_SRC, bits [24:24], IMG (spec/07_process_custody.md). -/
def Fld.MT_PS_CFG_HREF_SRC (i : Nat) : Field := ⟨0x310000 + 0x1000 * i, 24, 1⟩

/-- MT_PS_CFG.KIND, bits [30:28], IMG (spec/07_process_custody.md). -/
def Fld.MT_PS_CFG_KIND (i : Nat) : Field := ⟨0x310000 + 0x1000 * i, 28, 3⟩

/-- MT_PS_CFG.METER_AT, bits [23:23], IMG (spec/07_process_custody.md). -/
def Fld.MT_PS_CFG_METER_AT (i : Nat) : Field := ⟨0x310000 + 0x1000 * i, 23, 1⟩

/-- MT_PS_CFG.PRIMARY, bits [27:25], IMG (spec/07_process_custody.md). -/
def Fld.MT_PS_CFG_PRIMARY (i : Nat) : Field := ⟨0x310000 + 0x1000 * i, 25, 3⟩

/-- MT_PS_CFG.P_TAP, bits [21:21], IMG (spec/07_process_custody.md). -/
def Fld.MT_PS_CFG_P_TAP (i : Nat) : Field := ⟨0x310000 + 0x1000 * i, 21, 1⟩

/-- MT_PS_CFG.SAT_BY, bits [22:22], IMG (spec/07_process_custody.md). -/
def Fld.MT_PS_CFG_SAT_BY (i : Nat) : Field := ⟨0x310000 + 0x1000 * i, 22, 1⟩

/-- MT_PS_C.VALUE, bits [31:0], RO (spec/07_process_custody.md). -/
def Fld.MT_PS_C_VALUE (i : Nat) : Field := ⟨0x31041C + 0x1000 * i, 0, 32⟩

/-- MT_PS_DP_CUT.VALUE, bits [31:0], IMG (spec/07_process_custody.md). -/
def Fld.MT_PS_DP_CUT_VALUE (i : Nat) : Field := ⟨0x310118 + 0x1000 * i, 0, 32⟩

/-- MT_PS_DRYNESS.VALUE, bits [31:0], IMG (spec/07_process_custody.md). -/
def Fld.MT_PS_DRYNESS_VALUE (i : Nat) : Field := ⟨0x31011C + 0x1000 * i, 0, 32⟩

/-- MT_PS_DT_CUT.VALUE, bits [31:0], IMG (spec/07_process_custody.md). -/
def Fld.MT_PS_DT_CUT_VALUE (i : Nat) : Field := ⟨0x310134 + 0x1000 * i, 0, 32⟩

/-- MT_PS_EPS.VALUE, bits [31:0], RO (spec/07_process_custody.md). -/
def Fld.MT_PS_EPS_VALUE (i : Nat) : Field := ⟨0x310420 + 0x1000 * i, 0, 32⟩

/-- MT_PS_HREF_USED.VALUE, bits [31:0], RO (spec/07_process_custody.md). -/
def Fld.MT_PS_HREF_USED_VALUE (i : Nat) : Field := ⟨0x310418 + 0x1000 * i, 0, 32⟩

/-- MT_PS_HREF.VALUE, bits [31:0], IMG (spec/07_process_custody.md). -/
def Fld.MT_PS_HREF_VALUE (i : Nat) : Field := ⟨0x310120 + 0x1000 * i, 0, 32⟩

/-- MT_PS_H.VALUE, bits [31:0], RO (spec/07_process_custody.md). -/
def Fld.MT_PS_H_VALUE (i : Nat) : Field := ⟨0x310414 + 0x1000 * i, 0, 32⟩

/-- MT_PS_IN_A.VALUE, bits [31:0], IMG (spec/07_process_custody.md). -/
def Fld.MT_PS_IN_A_VALUE (i : Nat) (j : Nat) : Field := ⟨0x310044 + 0x1000 * i + 0x20 * j, 0, 32⟩

/-- MT_PS_IN_B.VALUE, bits [31:0], IMG (spec/07_process_custody.md). -/
def Fld.MT_PS_IN_B_VALUE (i : Nat) (j : Nat) : Field := ⟨0x310048 + 0x1000 * i + 0x20 * j, 0, 32⟩

/-- MT_PS_IN_CFG.CHAN, bits [21:16], IMG (spec/07_process_custody.md). -/
def Fld.MT_PS_IN_CFG_CHAN (i : Nat) (j : Nat) : Field := ⟨0x310040 + 0x1000 * i + 0x20 * j, 16, 6⟩

/-- MT_PS_IN_CFG.CHAN2, bits [13:8], IMG (spec/07_process_custody.md). -/
def Fld.MT_PS_IN_CFG_CHAN2 (i : Nat) (j : Nat) : Field := ⟨0x310040 + 0x1000 * i + 0x20 * j, 8, 6⟩

/-- MT_PS_IN_CFG.EXC, bits [25:24], IMG (spec/07_process_custody.md). -/
def Fld.MT_PS_IN_CFG_EXC (i : Nat) (j : Nat) : Field := ⟨0x310040 + 0x1000 * i + 0x20 * j, 24, 2⟩

/-- MT_PS_IN_CFG.FAIL_MODE, bits [28:27], IMG (spec/07_process_custody.md). -/
def Fld.MT_PS_IN_CFG_FAIL_MODE (i : Nat) (j : Nat) : Field := ⟨0x310040 + 0x1000 * i + 0x20 * j, 27, 2⟩

/-- MT_PS_IN_CFG.GAUGE, bits [26:26], IMG (spec/07_process_custody.md). -/
def Fld.MT_PS_IN_CFG_GAUGE (i : Nat) (j : Nat) : Field := ⟨0x310040 + 0x1000 * i + 0x20 * j, 26, 1⟩

/-- MT_PS_IN_CFG.HOLD_MAX, bits [7:0], IMG (spec/07_process_custody.md). -/
def Fld.MT_PS_IN_CFG_HOLD_MAX (i : Nat) (j : Nat) : Field := ⟨0x310040 + 0x1000 * i + 0x20 * j, 0, 8⟩

/-- MT_PS_IN_CFG.SRC, bits [31:29], IMG (spec/07_process_custody.md). -/
def Fld.MT_PS_IN_CFG_SRC (i : Nat) (j : Nat) : Field := ⟨0x310040 + 0x1000 * i + 0x20 * j, 29, 3⟩

/-- MT_PS_IN_HI.VALUE, bits [31:0], IMG (spec/07_process_custody.md). -/
def Fld.MT_PS_IN_HI_VALUE (i : Nat) (j : Nat) : Field := ⟨0x310050 + 0x1000 * i + 0x20 * j, 0, 32⟩

/-- MT_PS_IN_LO.VALUE, bits [31:0], IMG (spec/07_process_custody.md). -/
def Fld.MT_PS_IN_LO_VALUE (i : Nat) (j : Nat) : Field := ⟨0x31004C + 0x1000 * i + 0x20 * j, 0, 32⟩

/-- MT_PS_IN_STAT.FAILED, bits [31:31], RO (spec/07_process_custody.md). -/
def Fld.MT_PS_IN_STAT_FAILED (i : Nat) (j : Nat) : Field := ⟨0x31005C + 0x1000 * i + 0x20 * j, 31, 1⟩

/-- MT_PS_IN_STAT.FAIL_CNT, bits [15:0], RO (spec/07_process_custody.md). -/
def Fld.MT_PS_IN_STAT_FAIL_CNT (i : Nat) (j : Nat) : Field := ⟨0x31005C + 0x1000 * i + 0x20 * j, 0, 16⟩

/-- MT_PS_IN_STAT.HELD, bits [30:30], RO (spec/07_process_custody.md). -/
def Fld.MT_PS_IN_STAT_HELD (i : Nat) (j : Nat) : Field := ⟨0x31005C + 0x1000 * i + 0x20 * j, 30, 1⟩

/-- MT_PS_IN_STAT.SUBST, bits [29:29], RO (spec/07_process_custody.md). -/
def Fld.MT_PS_IN_STAT_SUBST (i : Nat) (j : Nat) : Field := ⟨0x31005C + 0x1000 * i + 0x20 * j, 29, 1⟩

/-- MT_PS_IN_SUB.VALUE, bits [31:0], IMG (spec/07_process_custody.md). -/
def Fld.MT_PS_IN_SUB_VALUE (i : Nat) (j : Nat) : Field := ⟨0x310054 + 0x1000 * i + 0x20 * j, 0, 32⟩

/-- MT_PS_IN_VAL.VALUE, bits [31:0], RO (spec/07_process_custody.md). -/
def Fld.MT_PS_IN_VAL_VALUE (i : Nat) (j : Nat) : Field := ⟨0x310058 + 0x1000 * i + 0x20 * j, 0, 32⟩

/-- MT_PS_KAPPA.VALUE, bits [31:0], IMG (spec/07_process_custody.md). -/
def Fld.MT_PS_KAPPA_VALUE (i : Nat) : Field := ⟨0x310110 + 0x1000 * i, 0, 32⟩

/-- MT_PS_LAM_BORE.VALUE, bits [31:0], IMG (spec/07_process_custody.md). -/
def Fld.MT_PS_LAM_BORE_VALUE (i : Nat) : Field := ⟨0x31010C + 0x1000 * i, 0, 32⟩

/-- MT_PS_LAM_PIPE.VALUE, bits [31:0], IMG (spec/07_process_custody.md). -/
def Fld.MT_PS_LAM_PIPE_VALUE (i : Nat) : Field := ⟨0x310108 + 0x1000 * i, 0, 32⟩

/-- MT_PS_MOLAR.VALUE, bits [31:0], IMG (spec/07_process_custody.md). -/
def Fld.MT_PS_MOLAR_VALUE (i : Nat) : Field := ⟨0x310128 + 0x1000 * i, 0, 32⟩

/-- MT_PS_PIPE_D20.VALUE, bits [31:0], IMG (spec/07_process_custody.md). -/
def Fld.MT_PS_PIPE_D20_VALUE (i : Nat) : Field := ⟨0x310100 + 0x1000 * i, 0, 32⟩

/-- MT_PS_PN.VALUE, bits [31:0], IMG (spec/07_process_custody.md). -/
def Fld.MT_PS_PN_VALUE (i : Nat) : Field := ⟨0x31012C + 0x1000 * i, 0, 32⟩

/-- MT_PS_PWR.VALUE, bits [31:0], RO (spec/07_process_custody.md). -/
def Fld.MT_PS_PWR_VALUE (i : Nat) : Field := ⟨0x31040C + 0x1000 * i, 0, 32⟩

/-- MT_PS_P_ATM.VALUE, bits [31:0], IMG (spec/07_process_custody.md). -/
def Fld.MT_PS_P_ATM_VALUE (i : Nat) : Field := ⟨0x310124 + 0x1000 * i, 0, 32⟩

/-- MT_PS_QM.VALUE, bits [31:0], RO (spec/07_process_custody.md). -/
def Fld.MT_PS_QM_VALUE (i : Nat) : Field := ⟨0x310400 + 0x1000 * i, 0, 32⟩

/-- MT_PS_QN.VALUE, bits [31:0], RO (spec/07_process_custody.md). -/
def Fld.MT_PS_QN_VALUE (i : Nat) : Field := ⟨0x310408 + 0x1000 * i, 0, 32⟩

/-- MT_PS_QV.VALUE, bits [31:0], RO (spec/07_process_custody.md). -/
def Fld.MT_PS_QV_VALUE (i : Nat) : Field := ⟨0x310404 + 0x1000 * i, 0, 32⟩

/-- MT_PS_RE.VALUE, bits [31:0], RO (spec/07_process_custody.md). -/
def Fld.MT_PS_RE_VALUE (i : Nat) : Field := ⟨0x310424 + 0x1000 * i, 0, 32⟩

/-- MT_PS_RHO.VALUE, bits [31:0], RO (spec/07_process_custody.md). -/
def Fld.MT_PS_RHO_VALUE (i : Nat) : Field := ⟨0x310410 + 0x1000 * i, 0, 32⟩

/-- MT_PS_SAT_TOL.VALUE, bits [31:0], IMG (spec/07_process_custody.md). -/
def Fld.MT_PS_SAT_TOL_VALUE (i : Nat) : Field := ⟨0x310138 + 0x1000 * i, 0, 32⟩

/-- MT_PS_SEQ.SEQ, bits [31:0], RO (spec/07_process_custody.md). -/
def Fld.MT_PS_SEQ_SEQ (i : Nat) : Field := ⟨0x310008 + 0x1000 * i, 0, 32⟩

/-- MT_PS_STATUS.DEGRADED, bits [29:29], RO (spec/07_process_custody.md). -/
def Fld.MT_PS_STATUS_DEGRADED (i : Nat) : Field := ⟨0x310004 + 0x1000 * i, 29, 1⟩

/-- MT_PS_STATUS.HELD, bits [25:25], RO (spec/07_process_custody.md). -/
def Fld.MT_PS_STATUS_HELD (i : Nat) : Field := ⟨0x310004 + 0x1000 * i, 25, 1⟩

/-- MT_PS_STATUS.HELD_SEEN, bits [13:13], W1C (spec/07_process_custody.md). -/
def Fld.MT_PS_STATUS_HELD_SEEN (i : Nat) : Field := ⟨0x310004 + 0x1000 * i, 13, 1⟩

/-- MT_PS_STATUS.ITER, bits [19:16], RO (spec/07_process_custody.md). -/
def Fld.MT_PS_STATUS_ITER (i : Nat) : Field := ⟨0x310004 + 0x1000 * i, 16, 4⟩

/-- MT_PS_STATUS.LOWCUT, bits [26:26], RO (spec/07_process_custody.md). -/
def Fld.MT_PS_STATUS_LOWCUT (i : Nat) : Field := ⟨0x310004 + 0x1000 * i, 26, 1⟩

/-- MT_PS_STATUS.NOCONV, bits [24:24], RO (spec/07_process_custody.md). -/
def Fld.MT_PS_STATUS_NOCONV (i : Nat) : Field := ⟨0x310004 + 0x1000 * i, 24, 1⟩

/-- MT_PS_STATUS.RANGE, bits [27:27], RO (spec/07_process_custody.md). -/
def Fld.MT_PS_STATUS_RANGE (i : Nat) : Field := ⟨0x310004 + 0x1000 * i, 27, 1⟩

/-- MT_PS_STATUS.RANGE_SEEN, bits [14:14], W1C (spec/07_process_custody.md). -/
def Fld.MT_PS_STATUS_RANGE_SEEN (i : Nat) : Field := ⟨0x310004 + 0x1000 * i, 14, 1⟩

/-- MT_PS_STATUS.SAT_MISMATCH, bits [23:23], RO (spec/07_process_custody.md). -/
def Fld.MT_PS_STATUS_SAT_MISMATCH (i : Nat) : Field := ⟨0x310004 + 0x1000 * i, 23, 1⟩

/-- MT_PS_STATUS.STATE, bits [31:30], RO (spec/07_process_custody.md). -/
def Fld.MT_PS_STATUS_STATE (i : Nat) : Field := ⟨0x310004 + 0x1000 * i, 30, 2⟩

/-- MT_PS_STATUS.SUBST, bits [28:28], RO (spec/07_process_custody.md). -/
def Fld.MT_PS_STATUS_SUBST (i : Nat) : Field := ⟨0x310004 + 0x1000 * i, 28, 1⟩

/-- MT_PS_STATUS.SUBST_SEEN, bits [15:15], W1C (spec/07_process_custody.md). -/
def Fld.MT_PS_STATUS_SUBST_SEEN (i : Nat) : Field := ⟨0x310004 + 0x1000 * i, 15, 1⟩

/-- MT_PS_TN.VALUE, bits [31:0], IMG (spec/07_process_custody.md). -/
def Fld.MT_PS_TN_VALUE (i : Nat) : Field := ⟨0x310130 + 0x1000 * i, 0, 32⟩

/-- MT_PS_VISC.VALUE, bits [31:0], IMG (spec/07_process_custody.md). -/
def Fld.MT_PS_VISC_VALUE (i : Nat) : Field := ⟨0x310114 + 0x1000 * i, 0, 32⟩

/-- MT_PS_ZP.VALUE, bits [31:0], IMG (spec/07_process_custody.md). -/
def Fld.MT_PS_ZP_VALUE (i : Nat) (j : Nat) : Field := ⟨0x310200 + 0x1000 * i + 0x4 * j, 0, 32⟩

/-- MT_PS_ZT.VALUE, bits [31:0], IMG (spec/07_process_custody.md). -/
def Fld.MT_PS_ZT_VALUE (i : Nat) (j : Nat) : Field := ⟨0x310220 + 0x1000 * i + 0x4 * j, 0, 32⟩

/-- MT_PS_Z.VALUE, bits [31:0], IMG (spec/07_process_custody.md). -/
def Fld.MT_PS_Z_VALUE (i : Nat) (j : Nat) : Field := ⟨0x310240 + 0x1000 * i + 0x4 * j, 0, 32⟩

/-- MT_STATUS.FREE_RUN, bits [31:16], RO (spec/04_bay_metrology.md). -/
def Fld.MT_STATUS_FREE_RUN : Field := ⟨0x320000, 16, 16⟩

/-- MT_STATUS.LOCKED, bits [15:0], RO (spec/04_bay_metrology.md). -/
def Fld.MT_STATUS_LOCKED : Field := ⟨0x320000, 0, 16⟩

/-- MT_VL_KU.K, bits [31:0], IMG (spec/04_bay_metrology.md). -/
def Fld.MT_VL_KU_K (i : Nat) : Field := ⟨0x320040 + 0x4 * i, 0, 32⟩

/-- MT_XREF.RATE, bits [23:0], RO (spec/04_bay_metrology.md). -/
def Fld.MT_XREF_RATE : Field := ⟨0x320004, 0, 24⟩

/-- MT_XREF.SRC, bits [31:31], RO (spec/04_bay_metrology.md). -/
def Fld.MT_XREF_SRC : Field := ⟨0x320004, 31, 1⟩

/-- MT_XREF_TRIM.TRIM, bits [23:0], IMG (spec/04_bay_metrology.md). -/
def Fld.MT_XREF_TRIM_TRIM : Field := ⟨0x320008, 0, 24⟩

/-- NET_ALLOW.ADDR, bits [63:32], IMG (spec/13_network_time.md). -/
def Fld.NET_ALLOW_ADDR (i : Nat) : Field := ⟨0x700010 + 0x8 * i + 4, 0, 32⟩

/-- NET_ALLOW.ENABLE, bits [31:31], IMG (spec/13_network_time.md). -/
def Fld.NET_ALLOW_ENABLE (i : Nat) : Field := ⟨0x700010 + 0x8 * i, 31, 1⟩

/-- NET_ALLOW.LEN, bits [5:0], IMG (spec/13_network_time.md). -/
def Fld.NET_ALLOW_LEN (i : Nat) : Field := ⟨0x700010 + 0x8 * i, 0, 6⟩

/-- NET_DREGA_CFG.EN_A, bits [31:31], IMG (spec/13_network_time.md). -/
def Fld.NET_DREGA_CFG_EN_A : Field := ⟨0x700008, 31, 1⟩

/-- NET_DREGA_CFG.EN_B, bits [30:30], IMG (spec/13_network_time.md). -/
def Fld.NET_DREGA_CFG_EN_B : Field := ⟨0x700008, 30, 1⟩

/-- NET_DREGA_CFG.UDP_PORT, bits [15:0], IMG (spec/13_network_time.md). -/
def Fld.NET_DREGA_CFG_UDP_PORT : Field := ⟨0x700008, 0, 16⟩

/-- NET_DREGA_STAT.DENIED, bits [7:0], RO (spec/13_network_time.md). -/
def Fld.NET_DREGA_STAT_DENIED : Field := ⟨0x700030, 0, 8⟩

/-- NET_DREGA_STAT.REPEATED, bits [15:8], RO (spec/13_network_time.md). -/
def Fld.NET_DREGA_STAT_REPEATED : Field := ⟨0x700030, 8, 8⟩

/-- NET_DREGA_STAT.SERVED, bits [31:16], RO (spec/13_network_time.md). -/
def Fld.NET_DREGA_STAT_SERVED : Field := ⟨0x700030, 16, 16⟩

/-- NET_GW.ADDR, bits [31:0], IMG (spec/13_network_time.md). -/
def Fld.NET_GW_ADDR (i : Nat) : Field := ⟨0x70100C + 0x400 * i, 0, 32⟩

/-- NET_HRX_CMD.LENGTH, bits [10:0], RO (spec/13_network_time.md). -/
def Fld.NET_HRX_CMD_LENGTH (i : Nat) : Field := ⟨0x7010C0 + 0x400 * i, 0, 11⟩

/-- NET_HRX_CMD.LOADED, bits [28:28], RO (spec/13_network_time.md). -/
def Fld.NET_HRX_CMD_LOADED (i : Nat) : Field := ⟨0x7010C0 + 0x400 * i, 28, 1⟩

/-- NET_HRX_CMD.QUEUE, bits [30:29], RW (spec/13_network_time.md). -/
def Fld.NET_HRX_CMD_QUEUE (i : Nat) : Field := ⟨0x7010C0 + 0x400 * i, 29, 2⟩

/-- NET_HRX_TS.NS, bits [31:0], RO (spec/13_network_time.md). -/
def Fld.NET_HRX_TS_NS (i : Nat) : Field := ⟨0x7010C8 + 0x400 * i, 0, 32⟩

/-- NET_HRX_TS.SEC_LO, bits [63:32], RO (spec/13_network_time.md). -/
def Fld.NET_HRX_TS_SEC_LO (i : Nat) : Field := ⟨0x7010C8 + 0x400 * i + 4, 0, 32⟩

/-- NET_HTX_CMD.LENGTH, bits [10:0], RW (spec/13_network_time.md). -/
def Fld.NET_HTX_CMD_LENGTH : Field := ⟨0x70004C, 0, 11⟩

/-- NET_HTX_CMD.PORT, bits [30:30], RW (spec/13_network_time.md). -/
def Fld.NET_HTX_CMD_PORT : Field := ⟨0x70004C, 30, 1⟩

/-- NET_HTX_CMD.QUEUE, bits [29:28], RW (spec/13_network_time.md). -/
def Fld.NET_HTX_CMD_QUEUE : Field := ⟨0x70004C, 28, 2⟩

/-- NET_HTX_CMD.RESULT, bits [26:24], RO (spec/13_network_time.md). -/
def Fld.NET_HTX_CMD_RESULT : Field := ⟨0x70004C, 24, 3⟩

/-- NET_HTX_CMD.TAG, bits [23:16], RO (spec/13_network_time.md). -/
def Fld.NET_HTX_CMD_TAG : Field := ⟨0x70004C, 16, 8⟩

/-- NET_HTX_CMD.TSREQ, bits [27:27], RW (spec/13_network_time.md). -/
def Fld.NET_HTX_CMD_TSREQ : Field := ⟨0x70004C, 27, 1⟩

/-- NET_HTX_LOST.DONE_LOST, bits [31:0], RO (spec/13_network_time.md). -/
def Fld.NET_HTX_LOST_DONE_LOST : Field := ⟨0x700060, 0, 32⟩

/-- NET_HTX_LT.NS, bits [31:0], RW (spec/13_network_time.md). -/
def Fld.NET_HTX_LT_NS : Field := ⟨0x700044, 0, 32⟩

/-- NET_HTX_LT.SEC_LO, bits [63:32], RW (spec/13_network_time.md). -/
def Fld.NET_HTX_LT_SEC_LO : Field := ⟨0x700044 + 4, 0, 32⟩

/-- NET_IP.ADDR, bits [31:0], IMG (spec/13_network_time.md). -/
def Fld.NET_IP_ADDR (i : Nat) : Field := ⟨0x701008 + 0x400 * i, 0, 32⟩

/-- NET_MAC.MAC, bits [47:0], IMG (spec/13_network_time.md). -/
def Fld.NET_MAC_MAC (i : Nat) : Field := ⟨0x701000 + 0x400 * i, 0, 48⟩

/-- NET_MDIO.BUSY, bits [29:29], RO (spec/13_network_time.md). -/
def Fld.NET_MDIO_BUSY (i : Nat) : Field := ⟨0x70101C + 0x400 * i, 29, 1⟩

/-- NET_MDIO.DATA, bits [15:0], SW (spec/13_network_time.md). -/
def Fld.NET_MDIO_DATA (i : Nat) : Field := ⟨0x70101C + 0x400 * i, 0, 16⟩

/-- NET_MDIO.REG, bits [20:16], SW (spec/13_network_time.md). -/
def Fld.NET_MDIO_REG (i : Nat) : Field := ⟨0x70101C + 0x400 * i, 16, 5⟩

/-- NET_MDIO.WRITE, bits [30:30], SW (spec/13_network_time.md). -/
def Fld.NET_MDIO_WRITE (i : Nat) : Field := ⟨0x70101C + 0x400 * i, 30, 1⟩

/-- NET_NS_WRAP.WRAPS, bits [31:0], RO (spec/13_network_time.md). -/
def Fld.NET_NS_WRAP_WRAPS : Field := ⟨0x700004, 0, 32⟩

/-- NET_PORT_CFG.ENABLE, bits [31:31], IMG (spec/13_network_time.md). -/
def Fld.NET_PORT_CFG_ENABLE (i : Nat) : Field := ⟨0x701010 + 0x400 * i, 31, 1⟩

/-- NET_PORT_CFG.PCP, bits [17:15], IMG (spec/13_network_time.md). -/
def Fld.NET_PORT_CFG_PCP (i : Nat) : Field := ⟨0x701010 + 0x400 * i, 15, 3⟩

/-- NET_PORT_CFG.PREFIX, bits [23:18], IMG (spec/13_network_time.md). -/
def Fld.NET_PORT_CFG_PREFIX (i : Nat) : Field := ⟨0x701010 + 0x400 * i, 18, 6⟩

/-- NET_PORT_CFG.TAGGED, bits [14:14], IMG (spec/13_network_time.md). -/
def Fld.NET_PORT_CFG_TAGGED (i : Nat) : Field := ⟨0x701010 + 0x400 * i, 14, 1⟩

/-- NET_PORT_CFG.VID, bits [11:0], IMG (spec/13_network_time.md). -/
def Fld.NET_PORT_CFG_VID (i : Nat) : Field := ⟨0x701010 + 0x400 * i, 0, 12⟩

/-- NET_PORT_STAT.FLAPS, bits [15:0], RO (spec/13_network_time.md). -/
def Fld.NET_PORT_STAT_FLAPS (i : Nat) : Field := ⟨0x701014 + 0x400 * i, 0, 16⟩

/-- NET_PORT_STAT.HALF, bits [31:16], RO (spec/13_network_time.md). -/
def Fld.NET_PORT_STAT_HALF (i : Nat) : Field := ⟨0x701014 + 0x400 * i, 16, 16⟩

/-- NET_PUB_DST.ADDR, bits [63:32], IMG (spec/13_network_time.md). -/
def Fld.NET_PUB_DST_ADDR (i : Nat) : Field := ⟨0x700104 + 0x40 * i + 4, 0, 32⟩

/-- NET_PUB_DST.UDP_PORT, bits [15:0], IMG (spec/13_network_time.md). -/
def Fld.NET_PUB_DST_UDP_PORT (i : Nat) : Field := ⟨0x700104 + 0x40 * i, 0, 16⟩

/-- NET_PUB.ENABLE, bits [31:31], IMG (spec/13_network_time.md). -/
def Fld.NET_PUB_ENABLE (i : Nat) : Field := ⟨0x700100 + 0x40 * i, 31, 1⟩

/-- NET_PUB_ITEM.ADDR, bits [23:2], IMG (spec/13_network_time.md). -/
def Fld.NET_PUB_ITEM_ADDR (i : Nat) (j : Nat) : Field := ⟨0x700110 + 0x40 * i + 0x4 * j, 2, 22⟩

/-- NET_PUB_ITEM.WORDS, bits [29:24], IMG (spec/13_network_time.md). -/
def Fld.NET_PUB_ITEM_WORDS (i : Nat) (j : Nat) : Field := ⟨0x700110 + 0x40 * i + 0x4 * j, 24, 6⟩

/-- NET_PUB.OFFSET, bits [21:12], IMG (spec/13_network_time.md). -/
def Fld.NET_PUB_OFFSET (i : Nat) : Field := ⟨0x700100 + 0x40 * i, 12, 10⟩

/-- NET_PUB.PERIOD, bits [11:0], IMG (spec/13_network_time.md). -/
def Fld.NET_PUB_PERIOD (i : Nat) : Field := ⟨0x700100 + 0x40 * i, 0, 12⟩

/-- NET_PUB.PORT, bits [30:30], IMG (spec/13_network_time.md). -/
def Fld.NET_PUB_PORT (i : Nat) : Field := ⟨0x700100 + 0x40 * i, 30, 1⟩

/-- NET_PUB.SIG, bits [29:29], IMG (spec/13_network_time.md). -/
def Fld.NET_PUB_SIG (i : Nat) : Field := ⟨0x700100 + 0x40 * i, 29, 1⟩

/-- NET_PUB_STAT.FAILED, bits [7:0], RO (spec/13_network_time.md). -/
def Fld.NET_PUB_STAT_FAILED : Field := ⟨0x700200, 0, 8⟩

/-- NET_PUB_STAT.NO_ROUTE, bits [15:8], RO (spec/13_network_time.md). -/
def Fld.NET_PUB_STAT_NO_ROUTE : Field := ⟨0x700200, 8, 8⟩

/-- NET_PUB_STAT.SENT, bits [31:16], RO (spec/13_network_time.md). -/
def Fld.NET_PUB_STAT_SENT : Field := ⟨0x700200, 16, 16⟩

/-- NET_RXQ_FILT.DEST, bits [30:29], IMG (spec/13_network_time.md). -/
def Fld.NET_RXQ_FILT_DEST (i : Nat) (j : Nat) : Field := ⟨0x701080 + 0x400 * i + 0x4 * j, 29, 2⟩

/-- NET_RXQ_FILT.ENABLE, bits [31:31], IMG (spec/13_network_time.md). -/
def Fld.NET_RXQ_FILT_ENABLE (i : Nat) (j : Nat) : Field := ⟨0x701080 + 0x400 * i + 0x4 * j, 31, 1⟩

/-- NET_RXQ_FILT.ETHERTYPE, bits [15:0], IMG (spec/13_network_time.md). -/
def Fld.NET_RXQ_FILT_ETHERTYPE (i : Nat) (j : Nat) : Field := ⟨0x701080 + 0x400 * i + 0x4 * j, 0, 16⟩

/-- NET_RXQ_STAT.COUNT, bits [15:0], RO (spec/13_network_time.md). -/
def Fld.NET_RXQ_STAT_COUNT (i : Nat) (j : Nat) : Field := ⟨0x7010A0 + 0x400 * i + 0x4 * j, 0, 16⟩

/-- NET_RXQ_STAT.DROP, bits [31:16], RO (spec/13_network_time.md). -/
def Fld.NET_RXQ_STAT_DROP (i : Nat) (j : Nat) : Field := ⟨0x7010A0 + 0x400 * i + 0x4 * j, 16, 16⟩

/-- NET_RX_CNT.ERROR, bits [31:16], RO (spec/13_network_time.md). -/
def Fld.NET_RX_CNT_ERROR (i : Nat) : Field := ⟨0x701018 + 0x400 * i, 16, 16⟩

/-- NET_RX_CNT.OTHER, bits [15:0], RO (spec/13_network_time.md). -/
def Fld.NET_RX_CNT_OTHER (i : Nat) : Field := ⟨0x701018 + 0x400 * i, 0, 16⟩

/-- NET_STATUS.LINK_A, bits [0:0], RO (spec/13_network_time.md). -/
def Fld.NET_STATUS_LINK_A : Field := ⟨0x700000, 0, 1⟩

/-- NET_STATUS.LINK_B, bits [1:1], RO (spec/13_network_time.md). -/
def Fld.NET_STATUS_LINK_B : Field := ⟨0x700000, 1, 1⟩

/-- NET_STATUS.SPEED_A, bits [5:4], RO (spec/13_network_time.md). -/
def Fld.NET_STATUS_SPEED_A : Field := ⟨0x700000, 4, 2⟩

/-- NET_STATUS.SPEED_B, bits [7:6], RO (spec/13_network_time.md). -/
def Fld.NET_STATUS_SPEED_B : Field := ⟨0x700000, 6, 2⟩

/-- NET_STATUS.STOPPED_A, bits [2:2], RO (spec/13_network_time.md). -/
def Fld.NET_STATUS_STOPPED_A : Field := ⟨0x700000, 2, 1⟩

/-- NET_STATUS.STOPPED_B, bits [3:3], RO (spec/13_network_time.md). -/
def Fld.NET_STATUS_STOPPED_B : Field := ⟨0x700000, 3, 1⟩

/-- NET_STATUS.TIME_VALID, bits [31:31], RO (spec/13_network_time.md). -/
def Fld.NET_STATUS_TIME_VALID : Field := ⟨0x700000, 31, 1⟩

/-- NET_TXQ_CFG.DEPTH, bits [7:0], IMG (spec/13_network_time.md). -/
def Fld.NET_TXQ_CFG_DEPTH (i : Nat) (j : Nat) : Field := ⟨0x701040 + 0x400 * i + 0x4 * j, 0, 8⟩

/-- NET_TXQ_CFG.LATE_POLICY, bits [31:31], IMG (spec/13_network_time.md). -/
def Fld.NET_TXQ_CFG_LATE_POLICY (i : Nat) (j : Nat) : Field := ⟨0x701040 + 0x400 * i + 0x4 * j, 31, 1⟩

/-- NET_TXQ_STAT.DROP, bits [23:16], RO (spec/13_network_time.md). -/
def Fld.NET_TXQ_STAT_DROP (i : Nat) (j : Nat) : Field := ⟨0x701060 + 0x400 * i + 0x4 * j, 16, 8⟩

/-- NET_TXQ_STAT.IN_FLIGHT, bits [31:24], RO (spec/13_network_time.md). -/
def Fld.NET_TXQ_STAT_IN_FLIGHT (i : Nat) (j : Nat) : Field := ⟨0x701060 + 0x400 * i + 0x4 * j, 24, 8⟩

/-- NET_TXQ_STAT.LATE, bits [15:0], RO (spec/13_network_time.md). -/
def Fld.NET_TXQ_STAT_LATE (i : Nat) (j : Nat) : Field := ⟨0x701060 + 0x400 * i + 0x4 * j, 0, 16⟩

/-- PNL_CRACK_CFG.ENABLE, bits [31:31], IMG (spec/17_panel.md). -/
def Fld.PNL_CRACK_CFG_ENABLE : Field := ⟨0x900010, 31, 1⟩

/-- PNL_CRACK_CFG.RHI, bits [23:12], IMG (spec/17_panel.md). -/
def Fld.PNL_CRACK_CFG_RHI : Field := ⟨0x900010, 12, 12⟩

/-- PNL_CRACK_CFG.RLO, bits [11:0], IMG (spec/17_panel.md). -/
def Fld.PNL_CRACK_CFG_RLO : Field := ⟨0x900010, 0, 12⟩

/-- PNL_CRACK_STAT.LAST, bits [31:30], RO (spec/17_panel.md). -/
def Fld.PNL_CRACK_STAT_LAST : Field := ⟨0x900014, 30, 2⟩

/-- PNL_CRACK_STAT.OHMS, bits [15:0], RO (spec/17_panel.md). -/
def Fld.PNL_CRACK_STAT_OHMS : Field := ⟨0x900014, 0, 16⟩

/-- PNL_STATUS.CUR_WIN, bits [26:24], RO (spec/17_panel.md). -/
def Fld.PNL_STATUS_CUR_WIN : Field := ⟨0x900000, 24, 3⟩

/-- PNL_STATUS.PENDING, bits [7:0], RO (spec/17_panel.md). -/
def Fld.PNL_STATUS_PENDING : Field := ⟨0x900000, 0, 8⟩

/-- PNL_STATUS.STATE, bits [31:29], RO (spec/17_panel.md). -/
def Fld.PNL_STATUS_STATE : Field := ⟨0x900000, 29, 3⟩

/-- PNL_STATUS.UPDATING, bits [27:27], RO (spec/17_panel.md). -/
def Fld.PNL_STATUS_UPDATING : Field := ⟨0x900000, 27, 1⟩

/-- PNL_STATUS.VPNL_LOW, bits [28:28], RO (spec/17_panel.md). -/
def Fld.PNL_STATUS_VPNL_LOW : Field := ⟨0x900000, 28, 1⟩

/-- PNL_WIN_ADDR.ADDR, bits [23:2], IMG (spec/17_panel.md). -/
def Fld.PNL_WIN_ADDR_ADDR (i : Nat) : Field := ⟨0x900104 + 0x20 * i, 2, 22⟩

/-- PNL_WIN_CFG.COL, bits [26:23], IMG (spec/17_panel.md). -/
def Fld.PNL_WIN_CFG_COL (i : Nat) : Field := ⟨0x900100 + 0x20 * i, 23, 4⟩

/-- PNL_WIN_CFG.DEC, bits [17:15], IMG (spec/17_panel.md). -/
def Fld.PNL_WIN_CFG_DEC (i : Nat) : Field := ⟨0x900100 + 0x20 * i, 15, 3⟩

/-- PNL_WIN_CFG.ENABLE, bits [31:31], IMG (spec/17_panel.md). -/
def Fld.PNL_WIN_CFG_ENABLE (i : Nat) : Field := ⟨0x900100 + 0x20 * i, 31, 1⟩

/-- PNL_WIN_CFG.KIND, bits [30:29], IMG (spec/17_panel.md). -/
def Fld.PNL_WIN_CFG_KIND (i : Nat) : Field := ⟨0x900100 + 0x20 * i, 29, 2⟩

/-- PNL_WIN_CFG.REFRESH, bits [7:0], IMG (spec/17_panel.md). -/
def Fld.PNL_WIN_CFG_REFRESH (i : Nat) : Field := ⟨0x900100 + 0x20 * i, 0, 8⟩

/-- PNL_WIN_CFG.ROW, bits [28:27], IMG (spec/17_panel.md). -/
def Fld.PNL_WIN_CFG_ROW (i : Nat) : Field := ⟨0x900100 + 0x20 * i, 27, 2⟩

/-- PNL_WIN_CFG.SHIFT, bits [14:11], IMG (spec/17_panel.md). -/
def Fld.PNL_WIN_CFG_SHIFT (i : Nat) : Field := ⟨0x900100 + 0x20 * i, 11, 4⟩

/-- PNL_WIN_CFG.WIDTH, bits [22:18], IMG (spec/17_panel.md). -/
def Fld.PNL_WIN_CFG_WIDTH (i : Nat) : Field := ⟨0x900100 + 0x20 * i, 18, 5⟩

/-- PNL_WIN_STAT.ERR, bits [29:28], RO (spec/17_panel.md). -/
def Fld.PNL_WIN_STAT_ERR (i : Nat) : Field := ⟨0x900118 + 0x20 * i, 28, 2⟩

/-- PNL_WIN_STAT.PENDING, bits [30:30], RO (spec/17_panel.md). -/
def Fld.PNL_WIN_STAT_PENDING (i : Nat) : Field := ⟨0x900118 + 0x20 * i, 30, 1⟩

/-- PNL_WIN_STAT.REPLACED, bits [23:16], RO (spec/17_panel.md). -/
def Fld.PNL_WIN_STAT_REPLACED (i : Nat) : Field := ⟨0x900118 + 0x20 * i, 16, 8⟩

/-- PNL_WIN_STAT.UPDATES, bits [15:0], RO (spec/17_panel.md). -/
def Fld.PNL_WIN_STAT_UPDATES (i : Nat) : Field := ⟨0x900118 + 0x20 * i, 0, 16⟩

/-- PNL_WIN_STAT.UPDATING, bits [31:31], RO (spec/17_panel.md). -/
def Fld.PNL_WIN_STAT_UPDATING (i : Nat) : Field := ⟨0x900118 + 0x20 * i, 31, 1⟩

/-- PTP_CFG.DOMAIN, bits [15:8], IMG (spec/13_network_time.md). -/
def Fld.PTP_CFG_DOMAIN : Field := ⟨0x702004, 8, 8⟩

/-- PTP_CFG.LOG_ANN, bits [3:0], IMG (spec/13_network_time.md). -/
def Fld.PTP_CFG_LOG_ANN : Field := ⟨0x702004, 0, 4⟩

/-- PTP_CFG.LOG_SYNC, bits [7:4], IMG (spec/13_network_time.md). -/
def Fld.PTP_CFG_LOG_SYNC : Field := ⟨0x702004, 4, 4⟩

/-- PTP_CFG.ONE_STEP, bits [26:26], IMG (spec/13_network_time.md). -/
def Fld.PTP_CFG_ONE_STEP : Field := ⟨0x702004, 26, 1⟩

/-- PTP_CFG.PEER, bits [28:28], IMG (spec/13_network_time.md). -/
def Fld.PTP_CFG_PEER : Field := ⟨0x702004, 28, 1⟩

/-- PTP_CFG.PORT, bits [31:30], IMG (spec/13_network_time.md). -/
def Fld.PTP_CFG_PORT : Field := ⟨0x702004, 30, 2⟩

/-- PTP_CFG.SLAVE_ONLY, bits [29:29], IMG (spec/13_network_time.md). -/
def Fld.PTP_CFG_SLAVE_ONLY : Field := ⟨0x702004, 29, 1⟩

/-- PTP_CFG.TEST, bits [25:25], IMG (spec/13_network_time.md). -/
def Fld.PTP_CFG_TEST : Field := ⟨0x702004, 25, 1⟩

/-- PTP_CFG.UDP, bits [27:27], IMG (spec/13_network_time.md). -/
def Fld.PTP_CFG_UDP : Field := ⟨0x702004, 27, 1⟩

/-- PTP_CFG.UTC_DEF, bits [23:16], IMG (spec/13_network_time.md). -/
def Fld.PTP_CFG_UTC_DEF : Field := ⟨0x702004, 16, 8⟩

/-- PTP_EPOCH_CAP.EPOCH, bits [127:96], RO (spec/13_network_time.md). -/
def Fld.PTP_EPOCH_CAP_EPOCH : Field := ⟨0x702020 + 12, 0, 32⟩

/-- PTP_EPOCH_CAP.NS, bits [31:0], RO (spec/13_network_time.md). -/
def Fld.PTP_EPOCH_CAP_NS : Field := ⟨0x702020, 0, 32⟩

/-- PTP_EPOCH_CAP.SEC, bits [79:32], RO (spec/13_network_time.md). -/
def Fld.PTP_EPOCH_CAP_SEC : Field := ⟨0x702020 + 4, 0, 48⟩

/-- PTP_LAT.RX, bits [15:0], IMG (spec/13_network_time.md). -/
def Fld.PTP_LAT_RX (i : Nat) (j : Nat) : Field := ⟨0x702080 + 0x10 * i + 0x4 * j, 0, 16⟩

/-- PTP_LAT.TX, bits [31:16], IMG (spec/13_network_time.md). -/
def Fld.PTP_LAT_TX (i : Nat) (j : Nat) : Field := ⟨0x702080 + 0x10 * i + 0x4 * j, 16, 16⟩

/-- PTP_MASTER.CLOCK_CLASS, bits [15:8], IMG (spec/13_network_time.md). -/
def Fld.PTP_MASTER_CLOCK_CLASS : Field := ⟨0x702008, 8, 8⟩

/-- PTP_MASTER.PRIORITY1, bits [31:24], IMG (spec/13_network_time.md). -/
def Fld.PTP_MASTER_PRIORITY1 : Field := ⟨0x702008, 24, 8⟩

/-- PTP_MASTER.PRIORITY2, bits [23:16], IMG (spec/13_network_time.md). -/
def Fld.PTP_MASTER_PRIORITY2 : Field := ⟨0x702008, 16, 8⟩

/-- PTP_MASTER.TIMEOUT, bits [3:0], IMG (spec/13_network_time.md). -/
def Fld.PTP_MASTER_TIMEOUT : Field := ⟨0x702008, 0, 4⟩

/-- PTP_OFFSET.OFFSET, bits [31:0], RO (spec/13_network_time.md). -/
def Fld.PTP_OFFSET_OFFSET : Field := ⟨0x702030, 0, 32⟩

/-- PTP_PARENT.IDENTITY, bits [63:0], RO (spec/13_network_time.md). -/
def Fld.PTP_PARENT_IDENTITY : Field := ⟨0x702038, 0, 64⟩

/-- PTP_STATUS.LOCKED, bits [31:31], RO (spec/13_network_time.md). -/
def Fld.PTP_STATUS_LOCKED : Field := ⟨0x702000, 31, 1⟩

/-- PTP_STATUS.ON_B, bits [27:27], RO (spec/13_network_time.md). -/
def Fld.PTP_STATUS_ON_B : Field := ⟨0x702000, 27, 1⟩

/-- PTP_STATUS.STATE, bits [30:28], RO (spec/13_network_time.md). -/
def Fld.PTP_STATUS_STATE : Field := ⟨0x702000, 28, 3⟩

/-- PTP_STATUS.STEPS, bits [15:0], RO (spec/13_network_time.md). -/
def Fld.PTP_STATUS_STEPS : Field := ⟨0x702000, 0, 16⟩

/-- PTP_UTC.FROM_ANN, bits [31:31], RO (spec/13_network_time.md). -/
def Fld.PTP_UTC_FROM_ANN : Field := ⟨0x702040, 31, 1⟩

/-- PTP_UTC.LEAP59, bits [29:29], RO (spec/13_network_time.md). -/
def Fld.PTP_UTC_LEAP59 : Field := ⟨0x702040, 29, 1⟩

/-- PTP_UTC.LEAP61, bits [30:30], RO (spec/13_network_time.md). -/
def Fld.PTP_UTC_LEAP61 : Field := ⟨0x702040, 30, 1⟩

/-- PTP_UTC.OFFSET, bits [15:0], RO (spec/13_network_time.md). -/
def Fld.PTP_UTC_OFFSET : Field := ⟨0x702040, 0, 16⟩

/-- PWR_BUSY.DOMAINS, bits [16:0], RO (spec/16_startup_configuration.md). -/
def Fld.PWR_BUSY_DOMAINS : Field := ⟨0x108, 0, 17⟩

/-- PWR_CMD.DOMAIN, bits [4:0], SW (spec/16_startup_configuration.md). -/
def Fld.PWR_CMD_DOMAIN : Field := ⟨0x110, 0, 5⟩

/-- PWR_CMD.RESULT, bits [27:24], RO (spec/16_startup_configuration.md). -/
def Fld.PWR_CMD_RESULT : Field := ⟨0x110, 24, 4⟩

/-- PWR_DEFAULT.ON, bits [16:0], IMG (spec/16_startup_configuration.md). -/
def Fld.PWR_DEFAULT_ON : Field := ⟨0x100, 0, 17⟩

/-- PWR_MON.VMAIN_HIGH, bits [30:30], RO (spec/16_startup_configuration.md). -/
def Fld.PWR_MON_VMAIN_HIGH : Field := ⟨0x114, 30, 1⟩

/-- PWR_MON.WARN, bits [31:31], RO (spec/16_startup_configuration.md). -/
def Fld.PWR_MON_WARN : Field := ⟨0x114, 31, 1⟩

/-- PWR_ON.ON, bits [16:0], RO (spec/16_startup_configuration.md). -/
def Fld.PWR_ON_ON : Field := ⟨0x104, 0, 17⟩

/-- PWR_PEND.DOMAINS, bits [16:0], RO (spec/16_startup_configuration.md). -/
def Fld.PWR_PEND_DOMAINS : Field := ⟨0x10C, 0, 17⟩

/-- REC_BUCKET.CAP, bits [23:16], IMG (spec/10_recorder_audit.md). -/
def Fld.REC_BUCKET_CAP (i : Nat) : Field := ⟨0x500400 + 0x4 * i, 16, 8⟩

/-- REC_BUCKET.REFILL, bits [15:0], IMG (spec/10_recorder_audit.md). -/
def Fld.REC_BUCKET_REFILL (i : Nat) : Field := ⟨0x500400 + 0x4 * i, 0, 16⟩

/-- REC_CFG.PERIOD, bits [1:0], IMG (spec/10_recorder_audit.md). -/
def Fld.REC_CFG_PERIOD : Field := ⟨0x500004, 0, 2⟩

/-- REC_CFG.READ_MODE, bits [31:31], IMG (spec/10_recorder_audit.md). -/
def Fld.REC_CFG_READ_MODE : Field := ⟨0x500004, 31, 1⟩

/-- REC_CLEARED.THROUGH, bits [31:0], RO (spec/10_recorder_audit.md). -/
def Fld.REC_CLEARED_THROUGH : Field := ⟨0x500030, 0, 32⟩

/-- REC_CMD.RESULT, bits [27:24], RO (spec/10_recorder_audit.md). -/
def Fld.REC_CMD_RESULT : Field := ⟨0x500028, 24, 4⟩

/-- REC_INTAKE.BUCKET, bits [15:0], RO (spec/10_recorder_audit.md). -/
def Fld.REC_INTAKE_BUCKET : Field := ⟨0x500010, 0, 16⟩

/-- REC_INTAKE.FULL, bits [31:16], RO (spec/10_recorder_audit.md). -/
def Fld.REC_INTAKE_FULL : Field := ⟨0x500010, 16, 16⟩

/-- REC_LOST.DEAD, bits [31:16], RO (spec/10_recorder_audit.md). -/
def Fld.REC_LOST_DEAD : Field := ⟨0x50002C, 16, 16⟩

/-- REC_LOST.DISPLACED, bits [15:8], RO (spec/10_recorder_audit.md). -/
def Fld.REC_LOST_DISPLACED : Field := ⟨0x50002C, 8, 8⟩

/-- REC_LOST.LR_FULL, bits [7:0], RO (spec/10_recorder_audit.md). -/
def Fld.REC_LOST_LR_FULL : Field := ⟨0x50002C, 0, 8⟩

/-- REC_NEWEST.RSEQ, bits [31:0], RO (spec/10_recorder_audit.md). -/
def Fld.REC_NEWEST_RSEQ : Field := ⟨0x500008, 0, 32⟩

/-- REC_OLDEST.RSEQ, bits [31:0], RO (spec/10_recorder_audit.md). -/
def Fld.REC_OLDEST_RSEQ : Field := ⟨0x50000C, 0, 32⟩

/-- REC_RD.FROZEN_S, bits [4:0], RO (spec/10_recorder_audit.md). -/
def Fld.REC_RD_FROZEN_S : Field := ⟨0x500014, 0, 5⟩

/-- REC_RD.RESULT, bits [27:24], RO (spec/10_recorder_audit.md). -/
def Fld.REC_RD_RESULT : Field := ⟨0x500014, 24, 4⟩

/-- REC_RD.STATUS, bits [29:28], RO (spec/10_recorder_audit.md). -/
def Fld.REC_RD_STATUS : Field := ⟨0x500014, 28, 2⟩

/-- REC_SEL.RSEQ, bits [31:0], RW (spec/10_recorder_audit.md). -/
def Fld.REC_SEL_RSEQ : Field := ⟨0x500018, 0, 32⟩

/-- REC_STATUS.FROZEN, bits [29:29], RO (spec/10_recorder_audit.md). -/
def Fld.REC_STATUS_FROZEN : Field := ⟨0x500000, 29, 1⟩

/-- REC_STATUS.MODE, bits [31:30], RO (spec/10_recorder_audit.md). -/
def Fld.REC_STATUS_MODE : Field := ⟨0x500000, 30, 2⟩

/-- REC_STATUS.QUEUE, bits [6:0], RO (spec/10_recorder_audit.md). -/
def Fld.REC_STATUS_QUEUE : Field := ⟨0x500000, 0, 7⟩

/-- REC_STATUS.READY, bits [27:27], RO (spec/10_recorder_audit.md). -/
def Fld.REC_STATUS_READY : Field := ⟨0x500000, 27, 1⟩

/-- REC_STATUS.WRITING, bits [28:28], RO (spec/10_recorder_audit.md). -/
def Fld.REC_STATUS_WRITING : Field := ⟨0x500000, 28, 1⟩

/-- REC_SUPP_SEL.CODE, bits [7:0], RW (spec/10_recorder_audit.md). -/
def Fld.REC_SUPP_SEL_CODE : Field := ⟨0x500020, 0, 8⟩

/-- RTC_ALM0_CFG.ENABLE, bits [31:31], RW (spec/14_bedrock.md). -/
def Fld.RTC_ALM0_CFG_ENABLE : Field := ⟨0xA00040, 31, 1⟩

/-- RTC_ALM0_CFG.MASK, bits [29:24], RW (spec/14_bedrock.md). -/
def Fld.RTC_ALM0_CFG_MASK : Field := ⟨0xA00040, 24, 6⟩

/-- RTC_ALM0_CFG.MONTH, bits [19:16], RW (spec/14_bedrock.md). -/
def Fld.RTC_ALM0_CFG_MONTH : Field := ⟨0xA00040, 16, 4⟩

/-- RTC_ALM0_CFG.PWRON, bits [30:30], RW (spec/14_bedrock.md). -/
def Fld.RTC_ALM0_CFG_PWRON : Field := ⟨0xA00040, 30, 1⟩

/-- RTC_ALM0_CFG.WDAY, bits [2:0], RW (spec/14_bedrock.md). -/
def Fld.RTC_ALM0_CFG_WDAY : Field := ⟨0xA00040, 0, 3⟩

/-- RTC_ALM0_TIME.DAY, bits [28:24], RW (spec/14_bedrock.md). -/
def Fld.RTC_ALM0_TIME_DAY : Field := ⟨0xA00044, 24, 5⟩

/-- RTC_ALM0_TIME.HOUR, bits [20:16], RW (spec/14_bedrock.md). -/
def Fld.RTC_ALM0_TIME_HOUR : Field := ⟨0xA00044, 16, 5⟩

/-- RTC_ALM0_TIME.MIN, bits [13:8], RW (spec/14_bedrock.md). -/
def Fld.RTC_ALM0_TIME_MIN : Field := ⟨0xA00044, 8, 6⟩

/-- RTC_ALM0_TIME.SEC, bits [5:0], RW (spec/14_bedrock.md). -/
def Fld.RTC_ALM0_TIME_SEC : Field := ⟨0xA00044, 0, 6⟩

/-- RTC_ALM1_CFG.ENABLE, bits [31:31], RW (spec/14_bedrock.md). -/
def Fld.RTC_ALM1_CFG_ENABLE : Field := ⟨0xA00048, 31, 1⟩

/-- RTC_ALM1_CFG.MASK, bits [29:24], RW (spec/14_bedrock.md). -/
def Fld.RTC_ALM1_CFG_MASK : Field := ⟨0xA00048, 24, 6⟩

/-- RTC_ALM1_CFG.MONTH, bits [19:16], RW (spec/14_bedrock.md). -/
def Fld.RTC_ALM1_CFG_MONTH : Field := ⟨0xA00048, 16, 4⟩

/-- RTC_ALM1_CFG.PWRON, bits [30:30], RW (spec/14_bedrock.md). -/
def Fld.RTC_ALM1_CFG_PWRON : Field := ⟨0xA00048, 30, 1⟩

/-- RTC_ALM1_CFG.WDAY, bits [2:0], RW (spec/14_bedrock.md). -/
def Fld.RTC_ALM1_CFG_WDAY : Field := ⟨0xA00048, 0, 3⟩

/-- RTC_ALM1_TIME.DAY, bits [28:24], RW (spec/14_bedrock.md). -/
def Fld.RTC_ALM1_TIME_DAY : Field := ⟨0xA0004C, 24, 5⟩

/-- RTC_ALM1_TIME.HOUR, bits [20:16], RW (spec/14_bedrock.md). -/
def Fld.RTC_ALM1_TIME_HOUR : Field := ⟨0xA0004C, 16, 5⟩

/-- RTC_ALM1_TIME.MIN, bits [13:8], RW (spec/14_bedrock.md). -/
def Fld.RTC_ALM1_TIME_MIN : Field := ⟨0xA0004C, 8, 6⟩

/-- RTC_ALM1_TIME.SEC, bits [5:0], RW (spec/14_bedrock.md). -/
def Fld.RTC_ALM1_TIME_SEC : Field := ⟨0xA0004C, 0, 6⟩

/-- The whole of RTC_ALM_STAT (spec/14_bedrock.md). -/
def Fld.RTC_ALM_STAT_ALL : Field := ⟨0xA00050, 0, 32⟩

/-- RTC_ALM_STAT.ALM0_BAT, bits [2:2], RO (spec/14_bedrock.md). -/
def Fld.RTC_ALM_STAT_ALM0_BAT : Field := ⟨0xA00050, 2, 1⟩

/-- RTC_ALM_STAT.ALM1_BAT, bits [3:3], RO (spec/14_bedrock.md). -/
def Fld.RTC_ALM_STAT_ALM1_BAT : Field := ⟨0xA00050, 3, 1⟩

/-- RTC_CTRL.HALT, bits [31:31], SW (spec/14_bedrock.md). -/
def Fld.RTC_CTRL_HALT : Field := ⟨0xA00030, 31, 1⟩

/-- RTC_CTRL.HALTACK, bits [30:30], RO (spec/14_bedrock.md). -/
def Fld.RTC_CTRL_HALTACK : Field := ⟨0xA00030, 30, 1⟩

/-- RTC_CTRL.HALT_OVF, bits [29:29], RO (spec/14_bedrock.md). -/
def Fld.RTC_CTRL_HALT_OVF : Field := ⟨0xA00030, 29, 1⟩

/-- RTC_CTRL.RESULT, bits [23:20], RO (spec/14_bedrock.md). -/
def Fld.RTC_CTRL_RESULT : Field := ⟨0xA00030, 20, 4⟩

/-- RTC_CTRL.SET, bits [28:28], RO (spec/14_bedrock.md). -/
def Fld.RTC_CTRL_SET : Field := ⟨0xA00030, 28, 1⟩

/-- RTC_DAY.VALUE, bits [15:0], SW (spec/14_bedrock.md). -/
def Fld.RTC_DAY_VALUE : Field := ⟨0xA00024, 0, 16⟩

/-- RTC_DRIFT.DRIFT, bits [31:0], RO (spec/14_bedrock.md). -/
def Fld.RTC_DRIFT_DRIFT : Field := ⟨0xA0003C, 0, 32⟩

/-- The whole of RTC_HALT (spec/14_bedrock.md). -/
def Fld.RTC_HALT_ALL : Field := ⟨0xA00034, 0, 32⟩

/-- RTC_HALT.HALT_S, bits [15:8], RO (spec/14_bedrock.md). -/
def Fld.RTC_HALT_HALT_S : Field := ⟨0xA00034, 8, 8⟩

/-- RTC_HALT.PEND, bits [7:0], RO (spec/14_bedrock.md). -/
def Fld.RTC_HALT_PEND : Field := ⟨0xA00034, 0, 8⟩

/-- RTC_HOUR.VALUE, bits [15:0], SW (spec/14_bedrock.md). -/
def Fld.RTC_HOUR_VALUE : Field := ⟨0xA0001C, 0, 16⟩

/-- RTC_MIN.VALUE, bits [15:0], SW (spec/14_bedrock.md). -/
def Fld.RTC_MIN_VALUE : Field := ⟨0xA00018, 0, 16⟩

/-- RTC_MONTH.VALUE, bits [15:0], SW (spec/14_bedrock.md). -/
def Fld.RTC_MONTH_VALUE : Field := ⟨0xA00028, 0, 16⟩

/-- RTC_SEC.VALUE, bits [15:0], SW (spec/14_bedrock.md). -/
def Fld.RTC_SEC_VALUE : Field := ⟨0xA00014, 0, 16⟩

/-- RTC_WDAY.WDAY, bits [2:0], RO (spec/14_bedrock.md). -/
def Fld.RTC_WDAY_WDAY : Field := ⟨0xA00020, 0, 3⟩

/-- RTC_YEAR.VALUE, bits [15:0], SW (spec/14_bedrock.md). -/
def Fld.RTC_YEAR_VALUE : Field := ⟨0xA0002C, 0, 16⟩

/-- SEC_AUTH_CNT.COUNTER, bits [31:0], RO (spec/11_signed_readings_authority.md). -/
def Fld.SEC_AUTH_CNT_COUNTER (i : Nat) : Field := ⟨0x600204 + 0x10 * i, 0, 32⟩

/-- SEC_AUTH.FLAGS, bits [23:16], IMG (spec/11_signed_readings_authority.md). -/
def Fld.SEC_AUTH_FLAGS (i : Nat) : Field := ⟨0x600200 + 0x10 * i, 16, 8⟩

/-- SEC_AUTH.ROLES, bits [7:0], IMG (spec/11_signed_readings_authority.md). -/
def Fld.SEC_AUTH_ROLES (i : Nat) : Field := ⟨0x600200 + 0x10 * i, 0, 8⟩

/-- SEC_CFG.HMAC_ALLOWED, bits [31:31], IMG (spec/11_signed_readings_authority.md). -/
def Fld.SEC_CFG_HMAC_ALLOWED : Field := ⟨0x600004, 31, 1⟩

/-- SEC_GARNET.BUSY, bits [15:8], RO (spec/11_signed_readings_authority.md). -/
def Fld.SEC_GARNET_BUSY : Field := ⟨0x6000B8, 8, 8⟩

/-- SEC_GARNET.FAULT, bits [7:0], RO (spec/11_signed_readings_authority.md). -/
def Fld.SEC_GARNET_FAULT : Field := ⟨0x6000B8, 0, 8⟩

/-- SEC_GARNET.SIGNED, bits [31:16], RO (spec/11_signed_readings_authority.md). -/
def Fld.SEC_GARNET_SIGNED : Field := ⟨0x6000B8, 16, 16⟩

/-- SEC_HMAC.GEN, bits [31:0], RO (spec/11_signed_readings_authority.md). -/
def Fld.SEC_HMAC_GEN : Field := ⟨0x6000B4, 0, 32⟩

/-- SEC_RDG_CMD.LENGTH, bits [10:0], RO (spec/11_signed_readings_authority.md). -/
def Fld.SEC_RDG_CMD_LENGTH : Field := ⟨0x600188, 0, 11⟩

/-- SEC_RDG_CMD.STATUS, bits [27:24], RO (spec/11_signed_readings_authority.md). -/
def Fld.SEC_RDG_CMD_STATUS : Field := ⟨0x600188, 24, 4⟩

/-- SEC_RDG_NONCE.NONCE, bits [63:0], RW (spec/11_signed_readings_authority.md). -/
def Fld.SEC_RDG_NONCE_NONCE : Field := ⟨0x600180, 0, 64⟩

/-- SEC_RDG_REQ.ADDR, bits [23:2], RW (spec/11_signed_readings_authority.md). -/
def Fld.SEC_RDG_REQ_ADDR (i : Nat) : Field := ⟨0x600100 + 0x4 * i, 2, 22⟩

/-- SEC_RDG_REQ.WORDS, bits [29:24], RW (spec/11_signed_readings_authority.md). -/
def Fld.SEC_RDG_REQ_WORDS (i : Nat) : Field := ⟨0x600100 + 0x4 * i, 24, 6⟩

/-- SEC_RDG_SEQ.RSEQ, bits [31:0], RO (spec/11_signed_readings_authority.md). -/
def Fld.SEC_RDG_SEQ_RSEQ : Field := ⟨0x600190, 0, 32⟩

/-- SEC_TOKEN_CMD.RESULT, bits [27:24], RO (spec/11_signed_readings_authority.md). -/
def Fld.SEC_TOKEN_CMD_RESULT : Field := ⟨0x6000A4, 24, 4⟩

/-- STR_BANKS.FAILED, bits [31:16], RO (spec/09_strata_journal.md). -/
def Fld.STR_BANKS_FAILED : Field := ⟨0x403004, 16, 16⟩

/-- STR_BANKS.LAST_BANK, bits [15:12], RO (spec/09_strata_journal.md). -/
def Fld.STR_BANKS_LAST_BANK : Field := ⟨0x403004, 12, 4⟩

/-- STR_BANKS.LAST_CAUSE, bits [11:8], RO (spec/09_strata_journal.md). -/
def Fld.STR_BANKS_LAST_CAUSE : Field := ⟨0x403004, 8, 4⟩

/-- STR_BASE_SEQ.BASE_SEQ, bits [31:0], RO (spec/09_strata_journal.md). -/
def Fld.STR_BASE_SEQ_BASE_SEQ : Field := ⟨0x403010, 0, 32⟩

/-- STR_COMMIT.LAST, bits [31:16], RO (spec/09_strata_journal.md). -/
def Fld.STR_COMMIT_LAST : Field := ⟨0x403014, 16, 16⟩

/-- STR_COMMIT.MAX, bits [15:0], RO (spec/09_strata_journal.md). -/
def Fld.STR_COMMIT_MAX : Field := ⟨0x403014, 0, 16⟩

/-- STR_COMPACT.COUNT, bits [31:16], RO (spec/09_strata_journal.md). -/
def Fld.STR_COMPACT_COUNT : Field := ⟨0x403020, 16, 16⟩

/-- STR_COMPACT.STOPPED, bits [15:0], RO (spec/09_strata_journal.md). -/
def Fld.STR_COMPACT_STOPPED : Field := ⟨0x403020, 0, 16⟩

/-- STR_ECC.CORR, bits [15:0], RO (spec/09_strata_journal.md). -/
def Fld.STR_ECC_CORR : Field := ⟨0x403018, 0, 16⟩

/-- STR_ECC.UNCORR, bits [31:16], RO (spec/09_strata_journal.md). -/
def Fld.STR_ECC_UNCORR : Field := ⟨0x403018, 16, 16⟩

/-- STR_JOURNAL.HIGH, bits [9:0], RO (spec/09_strata_journal.md). -/
def Fld.STR_JOURNAL_HIGH : Field := ⟨0x403008, 0, 10⟩

/-- STR_JOURNAL.USED, bits [25:16], RO (spec/09_strata_journal.md). -/
def Fld.STR_JOURNAL_USED : Field := ⟨0x403008, 16, 10⟩

/-- STR_RECOVERY.DISCARDED, bits [23:16], RO (spec/09_strata_journal.md). -/
def Fld.STR_RECOVERY_DISCARDED : Field := ⟨0x40301C, 16, 8⟩

/-- STR_RECOVERY.REPLAYED, bits [15:0], RO (spec/09_strata_journal.md). -/
def Fld.STR_RECOVERY_REPLAYED : Field := ⟨0x40301C, 0, 16⟩

/-- STR_RECOVERY.RESULT, bits [31:24], RO (spec/09_strata_journal.md). -/
def Fld.STR_RECOVERY_RESULT : Field := ⟨0x40301C, 24, 8⟩

/-- STR_STATUS.AREA_DEAD, bits [12:8], RO (spec/09_strata_journal.md). -/
def Fld.STR_STATUS_AREA_DEAD : Field := ⟨0x403000, 8, 5⟩

/-- STR_STATUS.COMPACTING, bits [28:28], RO (spec/09_strata_journal.md). -/
def Fld.STR_STATUS_COMPACTING : Field := ⟨0x403000, 28, 1⟩

/-- STR_STATUS.OUTAGE_PROC, bits [26:26], RO (spec/09_strata_journal.md). -/
def Fld.STR_STATUS_OUTAGE_PROC : Field := ⟨0x403000, 26, 1⟩

/-- STR_STATUS.SINGLE, bits [4:0], RO (spec/09_strata_journal.md). -/
def Fld.STR_STATUS_SINGLE : Field := ⟨0x403000, 0, 5⟩

/-- STR_STATUS.SNAP_PENDING, bits [27:27], RO (spec/09_strata_journal.md). -/
def Fld.STR_STATUS_SNAP_PENDING : Field := ⟨0x403000, 27, 1⟩

/-- STR_STATUS.STATE, bits [31:29], RO (spec/09_strata_journal.md). -/
def Fld.STR_STATUS_STATE : Field := ⟨0x403000, 29, 3⟩

/-- STR_TSEQ.TSEQ, bits [31:0], RO (spec/09_strata_journal.md). -/
def Fld.STR_TSEQ_TSEQ : Field := ⟨0x40300C, 0, 32⟩

/-- SYS_ALERT.AUD_DEAD, bits [3:3], RO (spec/01_architecture.md). -/
def Fld.SYS_ALERT_AUD_DEAD : Field := ⟨0x14, 3, 1⟩

/-- SYS_ALERT.FROZEN, bits [0:0], RO (spec/01_architecture.md). -/
def Fld.SYS_ALERT_FROZEN : Field := ⟨0x14, 0, 1⟩

/-- SYS_ALERT.REC_DEAD, bits [2:2], RO (spec/01_architecture.md). -/
def Fld.SYS_ALERT_REC_DEAD : Field := ⟨0x14, 2, 1⟩

/-- SYS_ALERT.TAMPER, bits [1:1], RO (spec/01_architecture.md). -/
def Fld.SYS_ALERT_TAMPER : Field := ⟨0x14, 1, 1⟩

/-- SYS_ARB_AQ.Wp, field i, IMG (spec/01_architecture.md). -/
def Fld.SYS_ARB_AQ_W (i : Nat) : Field := ⟨0x50, 4 * i, 4⟩

/-- SYS_ARB_IF.Wp, field i, IMG (spec/01_architecture.md). -/
def Fld.SYS_ARB_IF_W (i : Nat) : Field := ⟨0x5C, 4 * i, 4⟩

/-- SYS_ARB_LG.Wp, field i, IMG (spec/01_architecture.md). -/
def Fld.SYS_ARB_LG_W (i : Nat) : Field := ⟨0x58, 4 * i, 4⟩

/-- SYS_ARB_MT.Wp, field i, IMG (spec/01_architecture.md). -/
def Fld.SYS_ARB_MT_W (i : Nat) : Field := ⟨0x54, 4 * i, 4⟩

/-- SYS_EPOCH.EPOCH, bits [63:0], RO (spec/01_architecture.md). -/
def Fld.SYS_EPOCH_EPOCH : Field := ⟨0x68, 0, 64⟩

/-- SYS_EPOCH_SEC.BASE, bits [63:0], RO (spec/01_architecture.md). -/
def Fld.SYS_EPOCH_SEC_BASE : Field := ⟨0x70, 0, 64⟩

/-- SYS_ESC_COUNT.BLOCK, bits [15:8], RO (spec/01_architecture.md). -/
def Fld.SYS_ESC_COUNT_BLOCK : Field := ⟨0x24, 8, 8⟩

/-- SYS_ESC_COUNT.CHIP, bits [31:24], RO (spec/01_architecture.md). -/
def Fld.SYS_ESC_COUNT_CHIP : Field := ⟨0x24, 24, 8⟩

/-- SYS_ESC_COUNT.CORRECTED, bits [7:0], RO (spec/01_architecture.md). -/
def Fld.SYS_ESC_COUNT_CORRECTED : Field := ⟨0x24, 0, 8⟩

/-- SYS_ESC_COUNT.REGION, bits [23:16], RO (spec/01_architecture.md). -/
def Fld.SYS_ESC_COUNT_REGION : Field := ⟨0x24, 16, 8⟩

/-- SYS_ESC_CTRL.AUTO_RESTART_S, bits [7:0], IMG (spec/01_architecture.md). -/
def Fld.SYS_ESC_CTRL_AUTO_RESTART_S : Field := ⟨0x30, 0, 8⟩

/-- SYS_ESC_CTRL.STANDBY_PE, bits [11:8], IMG (spec/01_architecture.md). -/
def Fld.SYS_ESC_CTRL_STANDBY_PE : Field := ⟨0x30, 8, 4⟩

/-- The whole of SYS_ESC_LAST (spec/01_architecture.md). -/
def Fld.SYS_ESC_LAST_ALL : Field := ⟨0x28, 0, 32⟩

/-- SYS_ESC_LAST_T.OPSEC, bits [31:0], RO (spec/01_architecture.md). -/
def Fld.SYS_ESC_LAST_T_OPSEC : Field := ⟨0x2C, 0, 32⟩

/-- The whole of SYS_ESC_STATUS (spec/01_architecture.md). -/
def Fld.SYS_ESC_STATUS_ALL : Field := ⟨0x20, 0, 32⟩

/-- SYS_ESC_STATUS.BLOCK, bits [3:0], W1C (spec/01_architecture.md). -/
def Fld.SYS_ESC_STATUS_BLOCK : Field := ⟨0x20, 0, 4⟩

/-- SYS_ESC_STATUS.FAIL, bits [11:8], W1C (spec/01_architecture.md). -/
def Fld.SYS_ESC_STATUS_FAIL : Field := ⟨0x20, 8, 4⟩

/-- SYS_ESC_STATUS.REGION, bits [7:4], W1C (spec/01_architecture.md). -/
def Fld.SYS_ESC_STATUS_REGION : Field := ⟨0x20, 4, 4⟩

/-- SYS_HOST_ERR.ABORTED, bits [15:8], RO (spec/18_host_port_map.md). -/
def Fld.SYS_HOST_ERR_ABORTED : Field := ⟨0x9C, 8, 8⟩

/-- SYS_HOST_ERR.BAD_FRAME, bits [7:0], RO (spec/18_host_port_map.md). -/
def Fld.SYS_HOST_ERR_BAD_FRAME : Field := ⟨0x9C, 0, 8⟩

/-- SYS_HOST_ERR.DCRC, bits [23:16], RO (spec/18_host_port_map.md). -/
def Fld.SYS_HOST_ERR_DCRC : Field := ⟨0x9C, 16, 8⟩

/-- SYS_HOST_ERR.HCRC, bits [31:24], RO (spec/18_host_port_map.md). -/
def Fld.SYS_HOST_ERR_HCRC : Field := ⟨0x9C, 24, 8⟩

/-- SYS_HOST_LAST.APPLIED, bits [15:0], RO (spec/18_host_port_map.md). -/
def Fld.SYS_HOST_LAST_APPLIED : Field := ⟨0x98, 0, 16⟩

/-- SYS_HOST_LAST.CMD, bits [23:16], RO (spec/18_host_port_map.md). -/
def Fld.SYS_HOST_LAST_CMD : Field := ⟨0x98, 16, 8⟩

/-- SYS_HOST_LAST.STATUS, bits [31:24], RO (spec/18_host_port_map.md). -/
def Fld.SYS_HOST_LAST_STATUS : Field := ⟨0x98, 24, 8⟩

/-- SYS_IRQ_STAT.ALERT, bits [1:1], W1C (spec/18_host_port_map.md). -/
def Fld.SYS_IRQ_STAT_ALERT : Field := ⟨0x90, 1, 1⟩

/-- SYS_IRQ_STAT.CAL, bits [9:9], W1C (spec/18_host_port_map.md). -/
def Fld.SYS_IRQ_STAT_CAL : Field := ⟨0x90, 9, 1⟩

/-- SYS_IRQ_STAT.FLASH, bits [12:12], W1C (spec/18_host_port_map.md). -/
def Fld.SYS_IRQ_STAT_FLASH : Field := ⟨0x90, 12, 1⟩

/-- SYS_IRQ_STAT.HRX, bits [8:8], W1C (spec/18_host_port_map.md). -/
def Fld.SYS_IRQ_STAT_HRX : Field := ⟨0x90, 8, 1⟩

/-- SYS_IRQ_STAT.HTX, bits [7:7], W1C (spec/18_host_port_map.md). -/
def Fld.SYS_IRQ_STAT_HTX : Field := ⟨0x90, 7, 1⟩

/-- SYS_IRQ_STAT.LOAD, bits [11:11], W1C (spec/18_host_port_map.md). -/
def Fld.SYS_IRQ_STAT_LOAD : Field := ⟨0x90, 11, 1⟩

/-- SYS_IRQ_STAT.LOCK, bits [3:3], W1C (spec/18_host_port_map.md). -/
def Fld.SYS_IRQ_STAT_LOCK : Field := ⟨0x90, 3, 1⟩

/-- SYS_IRQ_STAT.RDG, bits [13:13], W1C (spec/18_host_port_map.md). -/
def Fld.SYS_IRQ_STAT_RDG : Field := ⟨0x90, 13, 1⟩

/-- SYS_IRQ_STAT.RECORD, bits [4:4], W1C (spec/18_host_port_map.md). -/
def Fld.SYS_IRQ_STAT_RECORD : Field := ⟨0x90, 4, 1⟩

/-- SYS_IRQ_STAT.STATE, bits [2:2], W1C (spec/18_host_port_map.md). -/
def Fld.SYS_IRQ_STAT_STATE : Field := ⟨0x90, 2, 1⟩

/-- SYS_IRQ_STAT.TICK, bits [0:0], W1C (spec/18_host_port_map.md). -/
def Fld.SYS_IRQ_STAT_TICK : Field := ⟨0x90, 0, 1⟩

/-- SYS_IRQ_STAT.TIME, bits [5:5], W1C (spec/18_host_port_map.md). -/
def Fld.SYS_IRQ_STAT_TIME : Field := ⟨0x90, 5, 1⟩

/-- SYS_IRQ_STAT.TOKEN, bits [6:6], W1C (spec/18_host_port_map.md). -/
def Fld.SYS_IRQ_STAT_TOKEN : Field := ⟨0x90, 6, 1⟩

/-- SYS_IRQ_STAT.TWIN, bits [10:10], W1C (spec/18_host_port_map.md). -/
def Fld.SYS_IRQ_STAT_TWIN : Field := ⟨0x90, 10, 1⟩

/-- SYS_OPSEC.OPSEC, bits [39:0], RO (spec/01_architecture.md). -/
def Fld.SYS_OPSEC_OPSEC : Field := ⟨0x78, 0, 40⟩

/-- SYS_PWRCYC.CYCLES, bits [31:0], RO (spec/01_architecture.md). -/
def Fld.SYS_PWRCYC_CYCLES : Field := ⟨0x80, 0, 32⟩

/-- SYS_STATUS.ALERT, bits [15:15], RO (spec/01_architecture.md). -/
def Fld.SYS_STATUS_ALERT : Field := ⟨0x10, 15, 1⟩

/-- SYS_STATUS.DEGRADED, bits [12:12], RO (spec/01_architecture.md). -/
def Fld.SYS_STATUS_DEGRADED : Field := ⟨0x10, 12, 1⟩

/-- SYS_STATUS.LOCKED, bits [14:14], RO (spec/01_architecture.md). -/
def Fld.SYS_STATUS_LOCKED : Field := ⟨0x10, 14, 1⟩

/-- SYS_STATUS.RESTART_PENDING, bits [11:11], RO (spec/01_architecture.md). -/
def Fld.SYS_STATUS_RESTART_PENDING : Field := ⟨0x10, 11, 1⟩

/-- SYS_STATUS.SINGLE, bits [13:13], RO (spec/01_architecture.md). -/
def Fld.SYS_STATUS_SINGLE : Field := ⟨0x10, 13, 1⟩

/-- SYS_STATUS.STATE, bits [31:28], RO (spec/01_architecture.md). -/
def Fld.SYS_STATUS_STATE : Field := ⟨0x10, 28, 4⟩

/-- SYS_TIME.EPOCH_ALIGNED, bits [5:5], RO (spec/01_architecture.md). -/
def Fld.SYS_TIME_EPOCH_ALIGNED : Field := ⟨0x84, 5, 1⟩

/-- SYS_TIME.PTP_LOCKED, bits [6:6], RO (spec/01_architecture.md). -/
def Fld.SYS_TIME_PTP_LOCKED : Field := ⟨0x84, 6, 1⟩

/-- SYS_TIME.RTC_VALID, bits [7:7], RO (spec/01_architecture.md). -/
def Fld.SYS_TIME_RTC_VALID : Field := ⟨0x84, 7, 1⟩

/-- SYS_TIME.TIME_SRC, bits [3:0], RO (spec/01_architecture.md). -/
def Fld.SYS_TIME_TIME_SRC : Field := ⟨0x84, 0, 4⟩

/-- SYS_VEIN_OWN.SLOTn, field i, RO (spec/01_architecture.md). -/
def Fld.SYS_VEIN_OWN_SLOT (i : Nat) : Field := ⟨0x60, 2 * i, 2⟩

/-- TAR_ACT_ID.ID, bits [31:0], RO (spec/08_ledger.md). -/
def Fld.TAR_ACT_ID_ID : Field := ⟨0x401004, 0, 32⟩

/-- TAR_CAL_SEL.SLOT, bits [31:31], RW (spec/08_ledger.md). -/
def Fld.TAR_CAL_SEL_SLOT : Field := ⟨0x40100C, 31, 1⟩

/-- TAR_CAL_SEL.WORD, bits [8:0], RW (spec/08_ledger.md). -/
def Fld.TAR_CAL_SEL_WORD : Field := ⟨0x40100C, 0, 9⟩

/-- TAR_CMD.RESULT, bits [27:24], RO (spec/08_ledger.md). -/
def Fld.TAR_CMD_RESULT : Field := ⟨0x401014, 24, 4⟩

/-- TAR_PSV_ID.ID, bits [31:0], RO (spec/08_ledger.md). -/
def Fld.TAR_PSV_ID_ID : Field := ⟨0x401008, 0, 32⟩

/-- TAR_STATUS.DAY, bits [20:17], RO (spec/08_ledger.md). -/
def Fld.TAR_STATUS_DAY : Field := ⟨0x401000, 17, 4⟩

/-- TAR_STATUS.DEFAULT, bits [31:31], RO (spec/08_ledger.md). -/
def Fld.TAR_STATUS_DEFAULT : Field := ⟨0x401000, 31, 1⟩

/-- TAR_STATUS.DST, bits [28:28], RO (spec/08_ledger.md). -/
def Fld.TAR_STATUS_DST : Field := ⟨0x401000, 28, 1⟩

/-- TAR_STATUS.LATE_SEEN, bits [29:29], W1C (spec/08_ledger.md). -/
def Fld.TAR_STATUS_LATE_SEEN : Field := ⟨0x401000, 29, 1⟩

/-- TAR_STATUS.OFFSET, bits [11:0], RO (spec/08_ledger.md). -/
def Fld.TAR_STATUS_OFFSET : Field := ⟨0x401000, 0, 12⟩

/-- TAR_STATUS.PSV_PENDING, bits [30:30], RO (spec/08_ledger.md). -/
def Fld.TAR_STATUS_PSV_PENDING : Field := ⟨0x401000, 30, 1⟩

/-- TAR_STATUS.SEASON, bits [26:24], RO (spec/08_ledger.md). -/
def Fld.TAR_STATUS_SEASON : Field := ⟨0x401000, 24, 3⟩

/-- TAR_STATUS.SPECIAL, bits [27:27], RO (spec/08_ledger.md). -/
def Fld.TAR_STATUS_SPECIAL : Field := ⟨0x401000, 27, 1⟩

/-- TAR_STATUS.WEEK, bits [23:21], RO (spec/08_ledger.md). -/
def Fld.TAR_STATUS_WEEK : Field := ⟨0x401000, 21, 3⟩

/-- TMP_ACTIVE.COND, bits [14:0], RO (spec/12_tamper.md). -/
def Fld.TMP_ACTIVE_COND : Field := ⟨0x60100C, 0, 15⟩

/-- TMP_CFG.ENC_POL, bits [23:20], IMG (spec/12_tamper.md). -/
def Fld.TMP_CFG_ENC_POL : Field := ⟨0x60101C, 20, 4⟩

/-- TMP_CFG.LSG_FUSE_REQ, bits [5:0], IMG (spec/12_tamper.md). -/
def Fld.TMP_CFG_LSG_FUSE_REQ : Field := ⟨0x60101C, 0, 6⟩

/-- TMP_CFG.TEST_PERIOD, bits [31:24], IMG (spec/12_tamper.md). -/
def Fld.TMP_CFG_TEST_PERIOD : Field := ⟨0x60101C, 24, 8⟩

/-- TMP_FSM.CODE, bits [23:16], RO (spec/12_tamper.md). -/
def Fld.TMP_FSM_CODE : Field := ⟨0x601028, 16, 8⟩

/-- TMP_FSM.COUNT, bits [15:0], RO (spec/12_tamper.md). -/
def Fld.TMP_FSM_COUNT : Field := ⟨0x601028, 0, 16⟩

/-- TMP_FSM.MACHINE, bits [31:28], RO (spec/12_tamper.md). -/
def Fld.TMP_FSM_MACHINE : Field := ⟨0x601028, 28, 4⟩

/-- TMP_LIGHT.SENSOR, bits [23:0], RO (spec/12_tamper.md). -/
def Fld.TMP_LIGHT_SENSOR : Field := ⟨0x601008, 0, 24⟩

/-- TMP_PENDING.PEND, bits [14:0], RO (spec/12_tamper.md). -/
def Fld.TMP_PENDING_PEND : Field := ⟨0x601010, 0, 15⟩

/-- TMP_RESP_A.LSGg, field i, IMG (spec/12_tamper.md). -/
def Fld.TMP_RESP_A_LSG (i : Nat) : Field := ⟨0x601014, 3 * i, 3⟩

/-- TMP_RESP_B.SRCi, field i, IMG (spec/12_tamper.md). -/
def Fld.TMP_RESP_B_SRC (i : Nat) : Field := ⟨0x601018, 3 * i, 3⟩

/-- TMP_STATUS.ALERT, bits [22:22], RO (spec/12_tamper.md). -/
def Fld.TMP_STATUS_ALERT : Field := ⟨0x601000, 22, 1⟩

/-- TMP_STATUS.DETECT, bits [15:0], RO (spec/12_tamper.md). -/
def Fld.TMP_STATUS_DETECT : Field := ⟨0x601000, 0, 16⟩

/-- TMP_STATUS.FLINT, bits [31:24], RO (spec/12_tamper.md). -/
def Fld.TMP_STATUS_FLINT : Field := ⟨0x601000, 24, 8⟩

/-- TMP_STATUS.LOCKED, bits [23:23], RO (spec/12_tamper.md). -/
def Fld.TMP_STATUS_LOCKED : Field := ⟨0x601000, 23, 1⟩

/-- TMP_STATUS.TEST_RUN, bits [21:21], RO (spec/12_tamper.md). -/
def Fld.TMP_STATUS_TEST_RUN : Field := ⟨0x601000, 21, 1⟩

/-- TMP_STATUS.TEST_SRC, bits [20:16], RO (spec/12_tamper.md). -/
def Fld.TMP_STATUS_TEST_SRC : Field := ⟨0x601000, 16, 5⟩

/-- The whole of TMP_STICKY (spec/12_tamper.md). -/
def Fld.TMP_STICKY_ALL : Field := ⟨0x601004, 0, 32⟩

/-- TMP_STICKY.UNPOWERED, bits [15:15], RO (spec/12_tamper.md). -/
def Fld.TMP_STICKY_UNPOWERED : Field := ⟨0x601004, 15, 1⟩

/-- TMP_TEST.FAIL, bits [14:0], RO (spec/12_tamper.md). -/
def Fld.TMP_TEST_FAIL : Field := ⟨0x601024, 0, 15⟩

/-- TMP_TEST.RUNS, bits [31:16], RO (spec/12_tamper.md). -/
def Fld.TMP_TEST_RUNS : Field := ⟨0x601024, 16, 16⟩

/-- TWN_CFG.ENABLE, bits [31:31], IMG (spec/15_cascade_twin.md). -/
def Fld.TWN_CFG_ENABLE : Field := ⟨0x800104, 31, 1⟩

/-- TWN_CFG.TOL, bits [27:16], IMG (spec/15_cascade_twin.md). -/
def Fld.TWN_CFG_TOL : Field := ⟨0x800104, 16, 12⟩

/-- TWN_CFG.WIN, bits [15:0], IMG (spec/15_cascade_twin.md). -/
def Fld.TWN_CFG_WIN : Field := ⟨0x800104, 0, 16⟩

/-- TWN_CMP.MISSED, bits [15:0], RO (spec/15_cascade_twin.md). -/
def Fld.TWN_CMP_MISSED : Field := ⟨0x800120, 0, 16⟩

/-- TWN_CMP.WINDOWS, bits [31:16], RO (spec/15_cascade_twin.md). -/
def Fld.TWN_CMP_WINDOWS : Field := ⟨0x800120, 16, 16⟩

/-- TWN_DEV.EXPORT, bits [15:0], RO (spec/15_cascade_twin.md). -/
def Fld.TWN_DEV_EXPORT (i : Nat) : Field := ⟨0x800140 + 0x4 * i, 0, 16⟩

/-- TWN_DEV.IMPORT, bits [31:16], RO (spec/15_cascade_twin.md). -/
def Fld.TWN_DEV_IMPORT (i : Nat) : Field := ⟨0x800140 + 0x4 * i, 16, 16⟩

/-- TWN_DIS.NOW, bits [15:0], RO (spec/15_cascade_twin.md). -/
def Fld.TWN_DIS_NOW : Field := ⟨0x800124, 0, 16⟩

/-- TWN_DIS.SEEN, bits [31:16], W1C (spec/15_cascade_twin.md). -/
def Fld.TWN_DIS_SEEN : Field := ⟨0x800124, 16, 16⟩

/-- TWN_MIN.MIN, bits [31:0], IMG (spec/15_cascade_twin.md). -/
def Fld.TWN_MIN_MIN : Field := ⟨0x800108, 0, 32⟩

/-- TWN_PEER_UID.UID, bits [63:0], RO (spec/15_cascade_twin.md). -/
def Fld.TWN_PEER_UID_UID : Field := ⟨0x800110, 0, 64⟩

/-- TWN_SEEN_UID.UID, bits [63:0], RO (spec/15_cascade_twin.md). -/
def Fld.TWN_SEEN_UID_UID : Field := ⟨0x800118, 0, 64⟩

/-- TWN_STATUS.DISAGREE, bits [25:25], RO (spec/15_cascade_twin.md). -/
def Fld.TWN_STATUS_DISAGREE : Field := ⟨0x800100, 25, 1⟩

/-- TWN_STATUS.PAIRINGS, bits [15:0], RO (spec/15_cascade_twin.md). -/
def Fld.TWN_STATUS_PAIRINGS : Field := ⟨0x800100, 0, 16⟩

/-- TWN_STATUS.PRESENT, bits [27:27], RO (spec/15_cascade_twin.md). -/
def Fld.TWN_STATUS_PRESENT : Field := ⟨0x800100, 27, 1⟩

/-- TWN_STATUS.ROLE, bits [28:28], RO (spec/15_cascade_twin.md). -/
def Fld.TWN_STATUS_ROLE : Field := ⟨0x800100, 28, 1⟩

/-- TWN_STATUS.SOLE, bits [26:26], RO (spec/15_cascade_twin.md). -/
def Fld.TWN_STATUS_SOLE : Field := ⟨0x800100, 26, 1⟩

/-- TWN_STATUS.STATE, bits [31:29], RO (spec/15_cascade_twin.md). -/
def Fld.TWN_STATUS_STATE : Field := ⟨0x800100, 29, 3⟩

/-- Address of AQ_LANE_CFG, spec/02_acquisition_lanes.md. -/
def Adr.AQ_LANE_CFG (i : Nat) : Nat := 0x100100 + 0x4 * i

/-- Address of AQ_LANE_CTRL, spec/02_acquisition_lanes.md. -/
def Adr.AQ_LANE_CTRL : Nat := 0x100008

/-- Address of AQ_LANE_DISC, spec/02_acquisition_lanes.md. -/
def Adr.AQ_LANE_DISC (i : Nat) : Nat := 0x100500 + 0x4 * i

/-- Address of AQ_LANE_STAT, spec/02_acquisition_lanes.md. -/
def Adr.AQ_LANE_STAT (i : Nat) : Nat := 0x100300 + 0x4 * i

/-- Address of AQ_MM_CTRL, spec/02_acquisition_lanes.md. -/
def Adr.AQ_MM_CTRL : Nat := 0x100010

/-- Address of AQ_MM_MAX, spec/02_acquisition_lanes.md. -/
def Adr.AQ_MM_MAX (i : Nat) : Nat := 0x100700 + 0x4 * i

/-- Address of AQ_MM_MIN, spec/02_acquisition_lanes.md. -/
def Adr.AQ_MM_MIN (i : Nat) : Nat := 0x100900 + 0x4 * i

/-- Address of AQ_MM_STAT, spec/02_acquisition_lanes.md. -/
def Adr.AQ_MM_STAT : Nat := 0x100014

/-- Address of AQ_STATUS, spec/02_acquisition_lanes.md. -/
def Adr.AQ_STATUS : Nat := 0x100000

/-- Address of AQ_VSET_MAP, spec/02_acquisition_lanes.md. -/
def Adr.AQ_VSET_MAP : Nat := 0x100004

/-- Address of AUD_DATA, spec/10_recorder_audit.md. -/
def Adr.AUD_DATA : Nat := 0x501008

/-- Address of AUD_SEL, spec/10_recorder_audit.md. -/
def Adr.AUD_SEL : Nat := 0x501004

/-- Address of AUD_STATUS, spec/10_recorder_audit.md. -/
def Adr.AUD_STATUS : Nat := 0x501000

/-- Address of AX_CH_CFG, spec/06_auxiliary_scanner_field_ports.md. -/
def Adr.AX_CH_CFG (i : Nat) : Nat := 0x102100 + 0x20 * i

/-- Address of AX_EXC_STAT, spec/06_auxiliary_scanner_field_ports.md. -/
def Adr.AX_EXC_STAT : Nat := 0x102030

/-- Address of AX_PI_CFG, spec/06_auxiliary_scanner_field_ports.md. -/
def Adr.AX_PI_CFG (i : Nat) : Nat := 0x102600 + 0x20 * i

/-- Address of AX_PI_CNT, spec/06_auxiliary_scanner_field_ports.md. -/
def Adr.AX_PI_CNT (i : Nat) : Nat := 0x102604 + 0x20 * i

/-- Address of AX_PI_FREQ, spec/06_auxiliary_scanner_field_ports.md. -/
def Adr.AX_PI_FREQ (i : Nat) : Nat := 0x10260C + 0x20 * i

/-- Address of AX_PI_STAT, spec/06_auxiliary_scanner_field_ports.md. -/
def Adr.AX_PI_STAT (i : Nat) : Nat := 0x102610 + 0x20 * i

/-- Address of AX_SCAN_CFG, spec/06_auxiliary_scanner_field_ports.md. -/
def Adr.AX_SCAN_CFG : Nat := 0x102008

/-- Address of AX_SCAN_MASK, spec/06_auxiliary_scanner_field_ports.md. -/
def Adr.AX_SCAN_MASK : Nat := 0x102004

/-- Address of AX_STATUS, spec/06_auxiliary_scanner_field_ports.md. -/
def Adr.AX_STATUS : Nat := 0x102000

/-- Address of AX_TRIG, spec/06_auxiliary_scanner_field_ports.md. -/
def Adr.AX_TRIG : Nat := 0x10200C

/-- Address of BAY_CFG, spec/04_bay_metrology.md. -/
def Adr.BAY_CFG (i : Nat) : Nat := 0x300000 + 0x1000 * i

/-- Address of BAY_IL, spec/05_harmonics_quality.md. -/
def Adr.BAY_IL (i : Nat) : Nat := 0x30041C + 0x1000 * i

/-- Address of BAY_KI_A, spec/04_bay_metrology.md. -/
def Adr.BAY_KI_A (i : Nat) : Nat := 0x300010 + 0x1000 * i

/-- Address of BAY_KI_B, spec/04_bay_metrology.md. -/
def Adr.BAY_KI_B (i : Nat) : Nat := 0x300014 + 0x1000 * i

/-- Address of BAY_KI_C, spec/04_bay_metrology.md. -/
def Adr.BAY_KI_C (i : Nat) : Nat := 0x300018 + 0x1000 * i

/-- Address of BAY_KI_N, spec/04_bay_metrology.md. -/
def Adr.BAY_KI_N (i : Nat) : Nat := 0x30001C + 0x1000 * i

/-- Address of BAY_LIM_FDEV, spec/05_harmonics_quality.md. -/
def Adr.BAY_LIM_FDEV (i : Nat) : Nat := 0x30042C + 0x1000 * i

/-- Address of BAY_LIM_THDI, spec/05_harmonics_quality.md. -/
def Adr.BAY_LIM_THDI (i : Nat) : Nat := 0x300424 + 0x1000 * i

/-- Address of BAY_LIM_THDU, spec/05_harmonics_quality.md. -/
def Adr.BAY_LIM_THDU (i : Nat) : Nat := 0x300420 + 0x1000 * i

/-- Address of BAY_LIM_U2, spec/05_harmonics_quality.md. -/
def Adr.BAY_LIM_U2 (i : Nat) : Nat := 0x300428 + 0x1000 * i

/-- Address of BAY_PHC_A, spec/04_bay_metrology.md. -/
def Adr.BAY_PHC_A (i : Nat) : Nat := 0x300020 + 0x1000 * i

/-- Address of BAY_PHC_B, spec/04_bay_metrology.md. -/
def Adr.BAY_PHC_B (i : Nat) : Nat := 0x300024 + 0x1000 * i

/-- Address of BAY_PHC_C, spec/04_bay_metrology.md. -/
def Adr.BAY_PHC_C (i : Nat) : Nat := 0x300028 + 0x1000 * i

/-- Address of BAY_PHC_N, spec/04_bay_metrology.md. -/
def Adr.BAY_PHC_N (i : Nat) : Nat := 0x30002C + 0x1000 * i

/-- Address of BAY_QTHR, spec/05_harmonics_quality.md. -/
def Adr.BAY_QTHR (i : Nat) : Nat := 0x300418 + 0x1000 * i

/-- Address of BAY_THRESH, spec/04_bay_metrology.md. -/
def Adr.BAY_THRESH (i : Nat) : Nat := 0x300004 + 0x1000 * i

/-- Address of BAY_UDIN, spec/05_harmonics_quality.md. -/
def Adr.BAY_UDIN (i : Nat) : Nat := 0x300414 + 0x1000 * i

/-- Address of BK_CMD, spec/14_bedrock.md. -/
def Adr.BK_CMD : Nat := 0xA00004

/-- Address of BK_LR, spec/14_bedrock.md. -/
def Adr.BK_LR (i : Nat) (j : Nat) : Nat := 0xA00080 + 0x20 * i + 0x4 * j

/-- Address of BK_PWRON_CFG, spec/14_bedrock.md. -/
def Adr.BK_PWRON_CFG : Nat := 0xA00054

/-- Address of BK_STATUS, spec/14_bedrock.md. -/
def Adr.BK_STATUS : Nat := 0xA00000

/-- Address of CAL_ACC_DATA, spec/03_self_calibration.md. -/
def Adr.CAL_ACC_DATA : Nat := 0x200024

/-- Address of CAL_ACC_SEL, spec/03_self_calibration.md. -/
def Adr.CAL_ACC_SEL : Nat := 0x200020

/-- Address of CAL_CMD, spec/03_self_calibration.md. -/
def Adr.CAL_CMD : Nat := 0x200028

/-- Address of CAL_LANE_STAT, spec/03_self_calibration.md. -/
def Adr.CAL_LANE_STAT (i : Nat) : Nat := 0x200100 + 0x4 * i

/-- Address of CAL_REF_BASE, spec/03_self_calibration.md. -/
def Adr.CAL_REF_BASE : Nat := 0x200010

/-- Address of CAL_STATUS, spec/03_self_calibration.md. -/
def Adr.CAL_STATUS : Nat := 0x200000

/-- Address of CAL_WINDOW, spec/03_self_calibration.md. -/
def Adr.CAL_WINDOW : Nat := 0x200004

/-- Address of CAL_ZSUM, spec/03_self_calibration.md. -/
def Adr.CAL_ZSUM : Nat := 0x200014

/-- Address of CFG_CMD, spec/16_startup_configuration.md. -/
def Adr.CFG_CMD : Nat := 0xF00030

/-- Address of CFG_FLASH, spec/16_startup_configuration.md. -/
def Adr.CFG_FLASH : Nat := 0xF00028

/-- Address of CFG_FL_CMD, spec/16_startup_configuration.md. -/
def Adr.CFG_FL_CMD : Nat := 0xF00038

/-- Address of CFG_FL_DATA, spec/16_startup_configuration.md. -/
def Adr.CFG_FL_DATA (i : Nat) : Nat := 0xF00100 + 0x4 * i

/-- Address of CFG_RESET, spec/16_startup_configuration.md. -/
def Adr.CFG_RESET : Nat := 0xF00004

/-- Address of CFG_SLOT0, spec/16_startup_configuration.md. -/
def Adr.CFG_SLOT0 : Nat := 0xF00020

/-- Address of CFG_SLOT1, spec/16_startup_configuration.md. -/
def Adr.CFG_SLOT1 : Nat := 0xF00024

/-- Address of CFG_STATUS, spec/16_startup_configuration.md. -/
def Adr.CFG_STATUS : Nat := 0xF00000

/-- Address of CFG_STRAP, spec/16_startup_configuration.md. -/
def Adr.CFG_STRAP : Nat := 0xF00008

/-- Address of CSC_CFG, spec/15_cascade_twin.md. -/
def Adr.CSC_CFG : Nat := 0x800004

/-- Address of CSC_ERR, spec/15_cascade_twin.md. -/
def Adr.CSC_ERR : Nat := 0x800010

/-- Address of CSC_HOP, spec/15_cascade_twin.md. -/
def Adr.CSC_HOP : Nat := 0x80000C

/-- Address of CSC_STATUS, spec/15_cascade_twin.md. -/
def Adr.CSC_STATUS : Nat := 0x800000

/-- Address of DEM_CFG, spec/08_ledger.md. -/
def Adr.DEM_CFG : Nat := 0x402000

/-- Address of LED_BP_CFG, spec/08_ledger.md. -/
def Adr.LED_BP_CFG : Nat := 0x400028

/-- Address of LED_CMD, spec/08_ledger.md. -/
def Adr.LED_CMD : Nat := 0x400024

/-- Address of LED_LATE, spec/08_ledger.md. -/
def Adr.LED_LATE : Nat := 0x400008

/-- Address of LED_LP_CFG, spec/08_ledger.md. -/
def Adr.LED_LP_CFG : Nat := 0x400050

/-- Address of LED_LP_DATA, spec/08_ledger.md. -/
def Adr.LED_LP_DATA : Nat := 0x40005C

/-- Address of LED_LP_SEL, spec/08_ledger.md. -/
def Adr.LED_LP_SEL : Nat := 0x400058

/-- Address of LED_SITE, spec/08_ledger.md. -/
def Adr.LED_SITE : Nat := 0x400048

/-- Address of LED_SNAP_CLOSE, spec/08_ledger.md. -/
def Adr.LED_SNAP_CLOSE : Nat := 0x400040

/-- Address of LED_SNAP_INFO, spec/08_ledger.md. -/
def Adr.LED_SNAP_INFO : Nat := 0x400034

/-- Address of LED_SNAP_OPEN, spec/08_ledger.md. -/
def Adr.LED_SNAP_OPEN : Nat := 0x400038

/-- Address of MT_PO_CFG, spec/04_bay_metrology.md. -/
def Adr.MT_PO_CFG (i : Nat) : Nat := 0x320100 + 0x10 * i

/-- Address of MT_PO_QUANT, spec/04_bay_metrology.md. -/
def Adr.MT_PO_QUANT (i : Nat) : Nat := 0x320104 + 0x10 * i

/-- Address of MT_PO_STAT, spec/04_bay_metrology.md. -/
def Adr.MT_PO_STAT (i : Nat) : Nat := 0x320108 + 0x10 * i

/-- Address of MT_PS_BORE_D20, spec/07_process_custody.md. -/
def Adr.MT_PS_BORE_D20 (i : Nat) : Nat := 0x310104 + 0x1000 * i

/-- Address of MT_PS_CFG, spec/07_process_custody.md. -/
def Adr.MT_PS_CFG (i : Nat) : Nat := 0x310000 + 0x1000 * i

/-- Address of MT_PS_DP_CUT, spec/07_process_custody.md. -/
def Adr.MT_PS_DP_CUT (i : Nat) : Nat := 0x310118 + 0x1000 * i

/-- Address of MT_PS_DRYNESS, spec/07_process_custody.md. -/
def Adr.MT_PS_DRYNESS (i : Nat) : Nat := 0x31011C + 0x1000 * i

/-- Address of MT_PS_IN_A, spec/07_process_custody.md. -/
def Adr.MT_PS_IN_A (i : Nat) (j : Nat) : Nat := 0x310044 + 0x1000 * i + 0x20 * j

/-- Address of MT_PS_IN_B, spec/07_process_custody.md. -/
def Adr.MT_PS_IN_B (i : Nat) (j : Nat) : Nat := 0x310048 + 0x1000 * i + 0x20 * j

/-- Address of MT_PS_IN_CFG, spec/07_process_custody.md. -/
def Adr.MT_PS_IN_CFG (i : Nat) (j : Nat) : Nat := 0x310040 + 0x1000 * i + 0x20 * j

/-- Address of MT_PS_IN_HI, spec/07_process_custody.md. -/
def Adr.MT_PS_IN_HI (i : Nat) (j : Nat) : Nat := 0x310050 + 0x1000 * i + 0x20 * j

/-- Address of MT_PS_IN_LO, spec/07_process_custody.md. -/
def Adr.MT_PS_IN_LO (i : Nat) (j : Nat) : Nat := 0x31004C + 0x1000 * i + 0x20 * j

/-- Address of MT_PS_IN_SUB, spec/07_process_custody.md. -/
def Adr.MT_PS_IN_SUB (i : Nat) (j : Nat) : Nat := 0x310054 + 0x1000 * i + 0x20 * j

/-- Address of MT_PS_KAPPA, spec/07_process_custody.md. -/
def Adr.MT_PS_KAPPA (i : Nat) : Nat := 0x310110 + 0x1000 * i

/-- Address of MT_PS_PIPE_D20, spec/07_process_custody.md. -/
def Adr.MT_PS_PIPE_D20 (i : Nat) : Nat := 0x310100 + 0x1000 * i

/-- Address of MT_PS_VISC, spec/07_process_custody.md. -/
def Adr.MT_PS_VISC (i : Nat) : Nat := 0x310114 + 0x1000 * i

/-- Address of MT_PS_Z, spec/07_process_custody.md. -/
def Adr.MT_PS_Z (i : Nat) (j : Nat) : Nat := 0x310240 + 0x1000 * i + 0x4 * j

/-- Address of MT_PS_ZP, spec/07_process_custody.md. -/
def Adr.MT_PS_ZP (i : Nat) (j : Nat) : Nat := 0x310200 + 0x1000 * i + 0x4 * j

/-- Address of MT_PS_ZT, spec/07_process_custody.md. -/
def Adr.MT_PS_ZT (i : Nat) (j : Nat) : Nat := 0x310220 + 0x1000 * i + 0x4 * j

/-- Address of MT_VL_KU, spec/04_bay_metrology.md. -/
def Adr.MT_VL_KU (i : Nat) : Nat := 0x320040 + 0x4 * i

/-- Address of MT_VL_PHC, spec/04_bay_metrology.md. -/
def Adr.MT_VL_PHC (i : Nat) : Nat := 0x320080 + 0x4 * i

/-- Address of MT_XREF_TRIM, spec/04_bay_metrology.md. -/
def Adr.MT_XREF_TRIM : Nat := 0x320008

/-- Address of NET_GW, spec/13_network_time.md. -/
def Adr.NET_GW (i : Nat) : Nat := 0x70100C + 0x400 * i

/-- Address of NET_HRX_CMD, spec/13_network_time.md. -/
def Adr.NET_HRX_CMD (i : Nat) : Nat := 0x7010C0 + 0x400 * i

/-- Address of NET_HRX_DATA, spec/13_network_time.md. -/
def Adr.NET_HRX_DATA (i : Nat) : Nat := 0x7010C4 + 0x400 * i

/-- Address of NET_HTX_CMD, spec/13_network_time.md. -/
def Adr.NET_HTX_CMD : Nat := 0x70004C

/-- Address of NET_HTX_DATA, spec/13_network_time.md. -/
def Adr.NET_HTX_DATA : Nat := 0x700040

/-- Address of NET_HTX_DONE, spec/13_network_time.md. -/
def Adr.NET_HTX_DONE : Nat := 0x700050

/-- Address of NET_HTX_LT, spec/13_network_time.md. -/
def Adr.NET_HTX_LT : Nat := 0x700044

/-- Address of NET_IP, spec/13_network_time.md. -/
def Adr.NET_IP (i : Nat) : Nat := 0x701008 + 0x400 * i

/-- Address of NET_MAC, spec/13_network_time.md. -/
def Adr.NET_MAC (i : Nat) : Nat := 0x701000 + 0x400 * i

/-- Address of NET_MDIO, spec/13_network_time.md. -/
def Adr.NET_MDIO (i : Nat) : Nat := 0x70101C + 0x400 * i

/-- Address of NET_NS_WRAP, spec/13_network_time.md. -/
def Adr.NET_NS_WRAP : Nat := 0x700004

/-- Address of NET_PORT_CFG, spec/13_network_time.md. -/
def Adr.NET_PORT_CFG (i : Nat) : Nat := 0x701010 + 0x400 * i

/-- Address of NET_PUB, spec/13_network_time.md. -/
def Adr.NET_PUB (i : Nat) : Nat := 0x700100 + 0x40 * i

/-- Address of NET_PUB_ITEM, spec/13_network_time.md. -/
def Adr.NET_PUB_ITEM (i : Nat) (j : Nat) : Nat := 0x700110 + 0x40 * i + 0x4 * j

/-- Address of NET_TXQ_CFG, spec/13_network_time.md. -/
def Adr.NET_TXQ_CFG (i : Nat) (j : Nat) : Nat := 0x701040 + 0x400 * i + 0x4 * j

/-- Address of PNL_DRIVE, spec/17_panel.md. -/
def Adr.PNL_DRIVE : Nat := 0x900004

/-- Address of PNL_REQ, spec/17_panel.md. -/
def Adr.PNL_REQ : Nat := 0x90000C

/-- Address of PNL_STATUS, spec/17_panel.md. -/
def Adr.PNL_STATUS : Nat := 0x900000

/-- Address of PNL_TIMING, spec/17_panel.md. -/
def Adr.PNL_TIMING : Nat := 0x900008

/-- Address of PNL_WIN_CFG, spec/17_panel.md. -/
def Adr.PNL_WIN_CFG (i : Nat) : Nat := 0x900100 + 0x20 * i

/-- Address of PNL_WIN_STAT, spec/17_panel.md. -/
def Adr.PNL_WIN_STAT (i : Nat) : Nat := 0x900118 + 0x20 * i

/-- Address of PNL_WIN_TEXT, spec/17_panel.md. -/
def Adr.PNL_WIN_TEXT (i : Nat) (j : Nat) : Nat := 0x900108 + 0x20 * i + 0x4 * j

/-- Address of PTP_NOW, spec/13_network_time.md. -/
def Adr.PTP_NOW : Nat := 0x702010

/-- Address of PWR_CMD, spec/16_startup_configuration.md. -/
def Adr.PWR_CMD : Nat := 0x110

/-- Address of PWR_DEFAULT, spec/16_startup_configuration.md. -/
def Adr.PWR_DEFAULT : Nat := 0x100

/-- Address of PWR_MON, spec/16_startup_configuration.md. -/
def Adr.PWR_MON : Nat := 0x114

/-- Address of REC_BUCKET, spec/10_recorder_audit.md. -/
def Adr.REC_BUCKET (i : Nat) : Nat := 0x500400 + 0x4 * i

/-- Address of REC_CMD, spec/10_recorder_audit.md. -/
def Adr.REC_CMD : Nat := 0x500028

/-- Address of REC_DATA, spec/10_recorder_audit.md. -/
def Adr.REC_DATA : Nat := 0x50001C

/-- Address of REC_RD, spec/10_recorder_audit.md. -/
def Adr.REC_RD : Nat := 0x500014

/-- Address of REC_SEL, spec/10_recorder_audit.md. -/
def Adr.REC_SEL : Nat := 0x500018

/-- Address of REC_STATUS, spec/10_recorder_audit.md. -/
def Adr.REC_STATUS : Nat := 0x500000

/-- Address of REC_SUPP, spec/10_recorder_audit.md. -/
def Adr.REC_SUPP : Nat := 0x500024

/-- Address of RTC_CTRL, spec/14_bedrock.md. -/
def Adr.RTC_CTRL : Nat := 0xA00030

/-- Address of RTC_HALT, spec/14_bedrock.md. -/
def Adr.RTC_HALT : Nat := 0xA00034

/-- Address of RTC_SUBSEC, spec/14_bedrock.md. -/
def Adr.RTC_SUBSEC : Nat := 0xA00010

/-- Address of RTC_TRIM, spec/14_bedrock.md. -/
def Adr.RTC_TRIM : Nat := 0xA00038

/-- Address of SEC_CFG, spec/11_signed_readings_authority.md. -/
def Adr.SEC_CFG : Nat := 0x600004

/-- Address of SEC_DEVCERT, spec/11_signed_readings_authority.md. -/
def Adr.SEC_DEVCERT : Nat := 0x600050

/-- Address of SEC_DEVKEY, spec/11_signed_readings_authority.md. -/
def Adr.SEC_DEVKEY : Nat := 0x600010

/-- Address of SEC_DUAL, spec/11_signed_readings_authority.md. -/
def Adr.SEC_DUAL : Nat := 0x6000B0

/-- Address of SEC_NONCE, spec/11_signed_readings_authority.md. -/
def Adr.SEC_NONCE : Nat := 0x600090

/-- Address of SEC_RDG_CMD, spec/11_signed_readings_authority.md. -/
def Adr.SEC_RDG_CMD : Nat := 0x600188

/-- Address of SEC_RDG_DATA, spec/11_signed_readings_authority.md. -/
def Adr.SEC_RDG_DATA : Nat := 0x60018C

/-- Address of SEC_STATUS, spec/11_signed_readings_authority.md. -/
def Adr.SEC_STATUS : Nat := 0x600000

/-- Address of SEC_TOKEN_CMD, spec/11_signed_readings_authority.md. -/
def Adr.SEC_TOKEN_CMD : Nat := 0x6000A4

/-- Address of SEC_TOKEN_DATA, spec/11_signed_readings_authority.md. -/
def Adr.SEC_TOKEN_DATA : Nat := 0x6000A0

/-- Address of SYS_ALERT, spec/01_architecture.md. -/
def Adr.SYS_ALERT : Nat := 0x14

/-- Address of SYS_ENG_MAP0, spec/01_architecture.md. -/
def Adr.SYS_ENG_MAP0 : Nat := 0x40

/-- Address of SYS_ENG_MAP1, spec/01_architecture.md. -/
def Adr.SYS_ENG_MAP1 : Nat := 0x44

/-- Address of SYS_EPOCH, spec/01_architecture.md. -/
def Adr.SYS_EPOCH : Nat := 0x68

/-- Address of SYS_EPOCH_SEC, spec/01_architecture.md. -/
def Adr.SYS_EPOCH_SEC : Nat := 0x70

/-- Address of SYS_ESC_COUNT, spec/01_architecture.md. -/
def Adr.SYS_ESC_COUNT : Nat := 0x24

/-- Address of SYS_ESC_CTRL, spec/01_architecture.md. -/
def Adr.SYS_ESC_CTRL : Nat := 0x30

/-- Address of SYS_HOST_ERR, spec/18_host_port_map.md. -/
def Adr.SYS_HOST_ERR : Nat := 0x9C

/-- Address of SYS_HOST_LAST, spec/18_host_port_map.md. -/
def Adr.SYS_HOST_LAST : Nat := 0x98

/-- Address of SYS_IRQ_EN, spec/18_host_port_map.md. -/
def Adr.SYS_IRQ_EN : Nat := 0x94

/-- Address of SYS_IRQ_STAT, spec/18_host_port_map.md. -/
def Adr.SYS_IRQ_STAT : Nat := 0x90

/-- Address of SYS_PRESENT, spec/01_architecture.md. -/
def Adr.SYS_PRESENT : Nat := 0x4

/-- Address of SYS_STATUS, spec/01_architecture.md. -/
def Adr.SYS_STATUS : Nat := 0x10

/-- Address of SYS_TIME, spec/01_architecture.md. -/
def Adr.SYS_TIME : Nat := 0x84

/-- Address of SYS_UID, spec/01_architecture.md. -/
def Adr.SYS_UID : Nat := 0x8

/-- Address of TAR_CAL_DATA, spec/08_ledger.md. -/
def Adr.TAR_CAL_DATA : Nat := 0x401010

/-- Address of TAR_CAL_SEL, spec/08_ledger.md. -/
def Adr.TAR_CAL_SEL : Nat := 0x40100C

/-- Address of TAR_CMD, spec/08_ledger.md. -/
def Adr.TAR_CMD : Nat := 0x401014

/-- Address of TMP_ACTIVE, spec/12_tamper.md. -/
def Adr.TMP_ACTIVE : Nat := 0x60100C

/-- Address of TMP_FUSE, spec/12_tamper.md. -/
def Adr.TMP_FUSE : Nat := 0x601020

/-- Address of TMP_LIGHT, spec/12_tamper.md. -/
def Adr.TMP_LIGHT : Nat := 0x601008

/-- Address of TMP_PENDING, spec/12_tamper.md. -/
def Adr.TMP_PENDING : Nat := 0x601010

/-- Address of TMP_RESP_A, spec/12_tamper.md. -/
def Adr.TMP_RESP_A : Nat := 0x601014

/-- Address of TMP_RESP_B, spec/12_tamper.md. -/
def Adr.TMP_RESP_B : Nat := 0x601018

/-- Address of TMP_STATUS, spec/12_tamper.md. -/
def Adr.TMP_STATUS : Nat := 0x601000

/-- Address of TMP_STICKY, spec/12_tamper.md. -/
def Adr.TMP_STICKY : Nat := 0x601004

/-- Address of TMP_TEST, spec/12_tamper.md. -/
def Adr.TMP_TEST : Nat := 0x601024

/-- Address of TWN_CFG, spec/15_cascade_twin.md. -/
def Adr.TWN_CFG : Nat := 0x800104

/-- Address of TWN_DEV, spec/15_cascade_twin.md. -/
def Adr.TWN_DEV (i : Nat) : Nat := 0x800140 + 0x4 * i

/-- Address of TWN_INIT_UID, spec/15_cascade_twin.md. -/
def Adr.TWN_INIT_UID : Nat := 0x800128

/-- Address of TWN_STATUS, spec/15_cascade_twin.md. -/
def Adr.TWN_STATUS : Nat := 0x800100

end Sys2Proof.Machine
end

