-- ==== Sys2Proof/Machine/State.lean ====
section
/-!
DEFINITION. The state of the device, as plain data. Every register of the register space is a word of `State.regs`
(a canonical sparse list over the reset words of Sys2Proof/Machine/RegTable.lean); the structures below hold what the
spec gives the machine besides its registers: queues, buffers, counters, the ledger images, the contents of Strata,
the flash, the Bedrock domain, and the queue of the commands that are waiting (`pending`, first in, first out).
-/

namespace Sys2Proof.Machine

/-- The ways a step can stop. -/
inductive Fault where
  /-- Raised by a meaning whose command carries a list of samples of the wrong length (LANE_OUTPUT_SAMPLE without its
  76 lanes of 32 conversions, SCAN_COMPLETE without its conversions): no event of the device has that form (R50, R150).
  Safe: the device never meets it. -/
  | illFormed
deriving DecidableEq, Repr

/-- The ways a command can be refused by the model. -/
inductive Refusal where
  /-- Raised by an arm of `exec` for a command that has no meaning yet. Safe. -/
  | notModelled (mnemonic : String)
deriving DecidableEq, Repr

/-! ### The ledger (R183 to R219) and Strata (R220 to R239) -/

/-- One billing slot (R184): value, carries out of 64 bits, PARTIAL_SEEN and the 24-bit fraction. -/
structure Slot where
  val : BitVec 64 := 0
  wrap : BitVec 8 := 0
  partialSeen : Bool := false
  frac : BitVec 24 := 0
deriving DecidableEq, Repr

/-- DEM_LAST and DEM_LAST_STAT of a demand channel (R203, R206). -/
structure DemLast where
  value : BitVec 64 := 0
  short : Bool := false
  timeStep : Bool := false
  outage : Bool := false
  powerdown : Bool := false
  rate : Nat := 0
deriving DecidableEq, Repr

/-- DEM_MAXr and DEM_MAXTr (R205). -/
structure DemMax where
  value : BitVec 64 := 0
  time : BitVec 64 := 0
deriving DecidableEq, Repr

/-- A sub-interval of a sliding window that has closed (R203): its energies by channel, the rate at its start, and whether
it contains part of an outage. -/
structure PastSub where
  energy : List (Nat × Nat) := []
  rate : Nat := 0
  outage : Bool := false
deriving DecidableEq, Repr

/-- The demand sub-interval in progress (R204, R206). -/
structure DemInt where
  energy : List (Nat × Nat) := []
  past : List PastSub := []
  rate : Nat := 0
  elapsed : Nat := 0
  short : Bool := true
  outage : Bool := false
  powerdown : Bool := false
deriving DecidableEq, Repr

/-- The load-profile interval in progress (R207): the increments by owner × 4 + i and the flags by owner. -/
structure LpInt where
  delta : List (Nat × Nat) := []
  flags : List (Nat × BitVec 8) := []
  short : Bool := true
  outage : Bool := false
  powerdown : Bool := false
deriving DecidableEq, Repr

/-- A load-profile entry (R207). -/
structure LpEntry where
  seq : BitVec 32
  owner : Nat
  flags : BitVec 8
  rate : Nat
  tsrc : Nat
  endTime : BitVec 64
  opsec : Nat
  pwrcyc : Nat
  delta : List Nat
deriving DecidableEq, Repr

/-- A calendar as the 353 words of R198. -/
abbrev Calendar := List Word

/-- What the STATE entry of R225 holds: counters, interval and period state, the withheld step, tariff state, the audit chain,
and the values other chapters keep in ledger state (R258 THROUGH, R268 to R277, R292, R302, R372, R400). -/
structure LedState where
  opsec : Nat := 0
  pwrcyc : Nat := 0
  /-- ledger time of the last processed boundary, whole seconds; meaningful while `valid` -/
  time : Nat := 0
  /-- the sub-second phase of R37, in ms, and the amount slewed that the whole seconds have not yet taken -/
  phase : Int := 0
  slewed : Int := 0
  valid : Bool := false
  tsrc : Nat := 0
  lastValid : Nat := 0
  lastValidOpsec : Nat := 0
  lastClosed : Nat := 0
  openTime : Nat := 0
  period : BitVec 16 := 0
  cause : BitVec 4 := 0
  rate : Nat := 0
  defaultRate : Bool := true
  stepHeld : Option Int := none
  /-- the same in ms, as last measured -/
  stepMs : Int := 0
  /-- the step a REJECT_STEP discarded (R213), in ms -/
  rejected : Option Int := none
  /-- the pending calendar came late (R202), and the ledger time at its commit -/
  late : Bool := false
  lateAt : Nat := 0
  /-- a series of transactions that has not ended (R463): the time its last instant has, and whether a step broke the
  intervals in progress -/
  series : Option (Nat × Bool) := none
  dem : DemInt := {}
  /-- the intervals that were in progress when power was lost, while ticks run with invalid time before the outage's
  boundaries are processed (R216) -/
  demOut : Option DemInt := none
  lpOut : Option LpInt := none
  /-- the last tick of the open billing period is a power-down tick (R210, R215) -/
  bpDown : Bool := false
  demSeq : BitVec 16 := 0
  lp : LpInt := {}
  lpSeq : BitVec 32 := 0
  lpPos : Nat := 0
  /-- ring entries written so far, at most 16 384 -/
  lpCount : Nat := 0
  snapPos : Nat := 23
  snapCount : Nat := 0
  aseq : BitVec 32 := 0
  chain : BitVec 256 := 0
  /-- the entry AUD_BANK_FAIL has been made (R264) -/
  audFailed : Bool := false
  recThrough : BitVec 32 := 0
  recCleared : Option Bool := none
  authCnt : List (Nat × BitVec 32) := []
  hmacGen : Nat := 0
  genFloor : Nat := 0
  imageGen : Nat := 0
  lockFlag : Bool := false
  /-- SHA-256 of the authority table in force and its public keys, and bytes 0 to 23 of the running image's digest (R396) -/
  authHash : Option (BitVec 256) := none
  authKeys : List (BitVec 512) := List.replicate 8 0
  digest : BitVec 192 := 0
  authTarget : Option (BitVec 256) := none
  twinUid : Option (BitVec 64) := none
  twinRole : Bool := false
  /-- by position: the UID and the last TOTAL folded, eleven sums (R368) -/
  siteUid : List (Nat × BitVec 64) := []
  siteTotals : List (Nat × List (BitVec 64)) := []
  /-- DEM_CFG, LED_LP_CFG and LED_BP_CFG of the intervals in progress (R208), once a tick has run -/
  cfg : Option (Word × Word × Word) := none
deriving DecidableEq, Repr

/-- The whole of the ledger's state as a base image holds it (R231). -/
structure Ledger where
  slots : List (Nat × Slot) := []
  dem : List (Nat × DemLast) := []
  dmax : List (Nat × DemMax) := []
  st : LedState := {}
  act : Option Calendar := none
  psv : Option Calendar := none
  /-- the TSEQ of the latest marker of each snapshot position (R225, R229) -/
  marks : List (Nat × BitVec 32) := []
deriving DecidableEq, Repr

/-- A quantum a bay or process engine posts (R113, R178); `owner` is 0 to 15 for a bay, 16 to 19 for a stream. -/
structure Quantum where
  owner : Nat
  endEpoch : Nat
  w : List Int := []
  var : List Int := []
  va : List Int := []
  quad : Nat := 0
  mass : Int := 0
  vol : Int := 0
  voln : Int := 0
  energy : Int := 0
  subst : Bool := false
  degraded : Bool := false
  provisional : Bool := false
  held : Bool := false
  /-- SHORT_CYCLE, FREE_RUN and lost element, the no-load elements, the fraction of END_EPOCH and HELD of a bay quantum -/
  short : Bool := false
  freeRun : Bool := false
  lost : Bool := false
  noLoad : Nat := 0
  endFrac : Nat := 0
  heldSamples : Nat := 0
  /-- RANGE, LOWCUT and KIND of a stream quantum -/
  range : Bool := false
  lowCut : Bool := false
  kind : Nat := 0
  /-- DURATION in ns -/
  duration : Nat := 0
deriving DecidableEq, Repr

/-- What the ledger keeps of a whole-second boundary until its fold window closes (R192, R193). -/
structure Boundary where
  epoch : Nat
  /-- the tick's duration rounded to whole seconds (R37) -/
  secs : Nat
  /-- the time-source code and the source's time in ms of ledger time, `none` without a source (R36) -/
  src : Nat := 0
  srcMs : Option Nat := none
  /-- the PTP clock at the boundary, ns -/
  ptp : Nat := 0
  /-- `now` at the boundary -/
  at_ : Nat := 0
deriving DecidableEq, Repr

/-- A contribution of a cascade member waiting to be folded (R217): position, rate in force and eleven deltas. -/
structure SiteDelta where
  pos : Nat
  rate : Nat
  delta : List (BitVec 64)
  /-- FLAGS of the CONTRIB frame (R367) -/
  flags : BitVec 8 := 0
  /-- the member's UID and running totals, which the fold keeps (R368) -/
  uid : Option (BitVec 64) := none
  total : Option (List (BitVec 64)) := none
deriving DecidableEq, Repr

/-- A snapshot record (R229). -/
structure SnapRec where
  tseq : BitVec 32
  period : BitVec 16
  cause : BitVec 8
  openTime : BitVec 64
  closeTime : BitVec 64
  opsec : Nat
  pwrcyc : Nat
  slots : List (Nat × Slot)
  dem : List (Nat × DemLast)
  dmax : List (Nat × DemMax)
  length : Nat := 63856
  crc : Word := 0
deriving DecidableEq, Repr

/-- The scale record (R230). -/
structure ScaleRec where
  format : BitVec 8 := 1
  lanes : Nat := 76
  time : BitVec 64
  base : BitVec 32
  tseq : BitVec 32
  gc : List (BitVec 32)
  crc : Word := 0
deriving DecidableEq, Repr

/-- An Audit Trail entry (R260). -/
structure AudEntry where
  aseq : BitVec 32
  kind : Nat
  roles : BitVec 8
  keys : BitVec 8
  tsrc : Nat
  time : BitVec 64
  opsec : Nat
  flags : BitVec 8
  pwrcyc : Nat
  detail : List Byte
  chain : BitVec 128
deriving DecidableEq, Repr

/-- One entry of a transaction (R225): its target and its after-image. -/
inductive LEntry where
  | slot (idx : Nat) (v : Slot)
  | demand (idx : Nat) (v : DemLast)
  | demandMax (idx : Nat) (v : DemMax)
  | state (v : LedState)
  | calendar (which : Nat) (v : Option Calendar)
  | loadProfile (pos : Nat) (v : LpEntry)
  | snapshot (pos : Nat) (v : SnapRec)
  | clearMax
  | scale (v : ScaleRec)
  | audit (pos : Nat) (v : AudEntry)
deriving DecidableEq, Repr

/-- An event at the intake (R240, R246, R248). -/
structure Event where
  code : Nat
  source : Nat
  payload : List Byte
  opsec : Nat
  msec : Nat
  provisional : Bool
  locked : Bool
  /-- held back by a freeze (R255) -/
  held : Bool := false
deriving DecidableEq, Repr

/-- What a transaction waiting for its commit is for (R193, R215, R216, R264, R294, R463). -/
inductive TxnAct where
  | tick (last : Bool)
  | final
  | outage (last : Bool)
  | lockEngage
  | audBankFail
  | command
deriving DecidableEq, Repr

/-- A journal transaction (R224): its KIND, its entries in order and what follows its commit; its TSEQ is fixed when the
ledger builds it (R464). -/
structure Txn where
  kind : Nat
  entries : List LEntry
  act : TxnAct
  time : Nat := 0
  opsec : Nat := 0
  pwrcyc : Nat := 0
  tseq : BitVec 32 := 0
deriving DecidableEq, Repr

/-- A commit record (R226). -/
structure CommitRec where
  tseq : BitVec 32
  blocks : Nat
  kind : Nat
  bodyCrc : Word
  recCrc : Word
deriving DecidableEq, Repr

/-- A transaction in one copy of the journal ring (R224, R226): the TSEQ and BLOCKS of its header, its body, the blocks of
a PAD before it, the block it begins at, and its commit record, `none` while that is not written. -/
structure JTxn where
  tseq : BitVec 32
  txn : Txn
  blocks : Nat
  pad : Nat
  block : Nat := 0
  record : Option CommitRec := none
deriving DecidableEq, Repr

/-- A post-commit copy that has not reached its home area (R228), with the TSEQ of its transaction. -/
structure CopyJob where
  tseq : BitVec 32
  entry : LEntry
deriving DecidableEq, Repr

/-- A record of the Quality Recorder (R247), without its CRC. -/
structure Record where
  rseq : BitVec 32
  type : Nat
  owner : Nat
  flags : BitVec 8
  count : Nat
  opsec : Nat
  pwrcyc : Nat
  sub : List Byte
  body : List Byte
deriving DecidableEq, Repr

/-- The header of a ledger area (R238). -/
structure AreaHeader where
  format : BitVec 16 := 1
  copy : Nat := 0
  partnerFailed : BitVec 8 := 0
  uid : BitVec 64 := 0
  crc : Word := 0x6D5E8CF9
deriving DecidableEq, Repr

/-- A base image with its header (R231). -/
structure BaseImage where
  format : BitVec 16 := 1
  seq : BitVec 32 := 0
  time : BitVec 64 := 0
  opsec : Nat := 0
  pwrcyc : Nat := 0
  length : Nat := 0
  img : Ledger := {}
  crc : Word := 0x6D5E8CF9
deriving DecidableEq, Repr

/-- One copy of every area (R220, R221): of the ledger area its header, the scale record, the bases A and B, and the journal
ring as the transactions whose blocks are free but not yet overwritten and those in use; the snapshot records, the
load-profile and Audit Trail rings and the records of the Quality Recorder, by position. What is missing fails its CRC. -/
structure StrataCopy where
  header : AreaHeader := {}
  scale : Option ScaleRec := none
  baseA : Option BaseImage := some {}
  baseB : Option BaseImage := none
  freed : List JTxn := []
  journal : List JTxn := []
  snaps : List (Nat × SnapRec) := []
  lp : List (Nat × LpEntry) := []
  recs : List (Nat × Record) := []
  aud : List (Nat × AudEntry) := []
deriving DecidableEq, Repr

/-- Strata (R220 to R239): its two copies, and what its controller knows of them. -/
structure Strata where
  copy0 : StrataCopy := {}
  copy1 : StrataCopy := { header := { copy := 1, crc := 0x2799836A } }
  /-- BASE_B is the current base -/
  curB : Bool := false
  /-- TSEQ of the last committed transaction, and the block after it -/
  tseq : BitVec 32 := 0
  nextBlock : Nat := 0
  /-- banks that have failed -/
  failed : List (Fin 16) := []
  /-- the oldest retained ASEQ and C of the entry before it (R263); `none` while nothing has been overwritten -/
  anchor : Option (BitVec 32 × BitVec 256) := none
  /-- the cause for which a bank of the Audit Trail failed (R264) -/
  audCause : BitVec 4 := 0
deriving DecidableEq, Repr

/-- The working state of the ledger and of the Strata controller, lost at a core reset. -/
structure LedWork where
  /-- the image after the last commit -/
  com : Ledger := {}
  /-- the image the live registers show (R194, R463) -/
  live : Ledger := {}
  /-- the TSEQ of the tick the live registers show, and whether it is an OUTAGE transaction or the first after one -/
  liveTseq : BitVec 32 := 0
  liveOutage : Bool := false
  afterOutage : Bool := false
  /-- quanta posted by the engines, on their way to the ledger -/
  posted : List Quantum := []
  quanta : List Quantum := []
  site : List SiteDelta := []
  lateSite : List SiteDelta := []
  bounds : List Boundary := []
  /-- the boundary that ended the last tick whose fold window has closed (R192) -/
  closedEpoch : Nat := 0
  /-- bays with held samples in the last processed tick (R373) -/
  heldBays : List Nat := []
  queue : List Txn := []
  /-- the LG words and the snapshot selected, as the last commit that shows left them (R281) -/
  lgShown : List (Nat × Word) := []
  lgSnap : Option SnapRec := none
  copies : List CopyJob := []
  compacting : Option (BitVec 32 × Ledger) := none
  recovered : Bool := false
  frozen : Bool := false
  /-- the power-cycle count of this start: the count restored at recovery plus one (R247) -/
  startCount : Nat := 0
  firstCommit : Bool := false
  /-- the last valid ledger time before this start, and the time of the last committed tick carried on from it, while the
  boundaries after them have not been processed (R214, R216) -/
  outageFrom : Option Nat := none
  outageTick : Nat := 0
  /-- power was lost while ledger time was invalid (R214) -/
  lostInvalid : Bool := false
  /-- ledger time has been taken from its source in this start, at a tick or by the outage processing -/
  timeTaken : Bool := false
  /-- ledger time has been valid at a tick of this start -/
  synced : Bool := false
  /-- a tick of this start ran with invalid time -/
  ranInvalid : Bool := false
  /-- operating seconds at the start, and ledger time of the last committed tick (R214, R216) -/
  startOpsec : Nat := 0
  /-- `now` at the boundary of the last tick processed -/
  timeAt : Nat := 0
  billReq : Bool := false
  billRoles : BitVec 8 := 0
  billKeys : BitVec 8 := 0xFF
  stepReq : Option (BitVec 8 × BitVec 8) := none
  rtcStepOk : Bool := false
  cutOffDone : Bool := false
  lastSiteRate : Nat := 0
  psvOpen : Option Path := none
  psvBuf : List Word := []
  lpReads : Nat := 0
  mismatches : List Nat := []
  /-- the configuration of the intervals in progress: DEM_CFG, LED_LP_CFG and LED_BP_CFG as last applied (R208) -/
  demCfg : Word := 3
  lpCfg : Word := 0
  bpCfg : Word := 0
deriving DecidableEq, Repr

/-! ### Quality Recorder and Audit Trail (R240 to R265) -/

/-- What a clear in progress still has to do (R258). -/
structure ClearJob where
  through : BitVec 32
  slots : Bool
  /-- a freeze has held its record back (R255) -/
  held : Bool := false
deriving DecidableEq, Repr

/-- Live histograms and extremes of a bay (R140, R249). -/
structure QualLive where
  hist : List (Nat × Nat) := []
  intervals : Nat := 0
  ext : List (Nat × (Word × Nat)) := []
  any : Bool := false
deriving DecidableEq, Repr

/-- The recorder and the event intake, lost at a core reset (R240 to R258). -/
structure Recorder where
  queue : List Event := []
  /-- tokens missing from each bucket, by code; an unlisted bucket is full (R241) -/
  taken : List (Nat × Nat) := []
  /-- the times (ms) at which buckets gained their last tokens; an unlisted one is timed from the core reset -/
  refills : List (Nat × Nat) := []
  suppPending : List (Nat × Nat) := []
  suppTotal : List (Nat × Nat) := []
  /-- operating seconds of the first suppression not yet reported, and the time (ms) it was made (R244, R250) -/
  suppFirst : Option (Nat × Nat) := none
  dueByTime : Bool := false
  dueByEmpty : Bool := false
  periodic : List Record := []
  writing : Option Record := none
  closed : Bool := false
  scanned : Bool := false
  newest : BitVec 32 := 0
  freezeStart : Option Nat := none
  freezeEnd : Option Nat := none
  emptySince : Bool := true
  heldBack : Bool := false
  clear : Option ClearJob := none
  bays : List (Nat × QualLive) := []
  periodStart : Nat := 0
  shortPeriod : Bool := true
  /-- the events offered so far in a cycle being worked out; `none` between the steps of the model (R242) -/
  gather : Option (List (Nat × Nat × List Byte)) := none
deriving DecidableEq, Repr

/-! ### Tokens, sessions, readings and Garnet (R266 to R287) -/

/-- A sealed session (R274): role, key and the time it opened. -/
structure Session where
  role : BitVec 8
  key : Nat
  opened : Nat
deriving DecidableEq, Repr

/-- A token's fields (R271), as its 32 words. -/
abbrev Token := List Word

/-- An armed authorisation on a path (R276). -/
structure Armed where
  cmd : Nat
  target : List Byte
  roles : BitVec 8
  keys : BitVec 8
  firstAt : Nat
deriving DecidableEq, Repr

/-- The pending authorisation of the device (R276, SEC_DUAL). -/
structure Dual where
  cmd : Nat
  target : List Byte
  role : BitVec 8
  key : Nat
  at_ : Nat
  /-- the lock has engaged since its token's nonce was issued (R276 item 4) -/
  stale : Bool := false
deriving DecidableEq, Repr

/-- Who asked for a reading (R279). -/
inductive RdgOrigin where
  | host (p : Path)
  | drega (src : DregaSrc) (tag : BitVec 16)
  | publish (k : Fin 4) (lt : Option (BitVec 32))
  /-- a Drega requester whose port's engine was restarted: the reading goes nowhere (R331) -/
  | lost
deriving DecidableEq, Repr

/-- A request waiting for Garnet or in service (R284): a token to verify or a formed frame to sign. -/
inductive GarnetReq where
  | token (p : Path) (t : Token)
  | sign (o : RdgOrigin) (frame : List Byte)
deriving DecidableEq, Repr

/-- Garnet (R284, R285). -/
structure Garnet where
  serving : Option GarnetReq := none
  verify : List GarnetReq := []
  sign : List GarnetReq := []
  restarting : Bool := false
  stopped : Bool := false
  lastFault : Option Nat := none
deriving DecidableEq, Repr

/-- Security state shared by the paths, lost at a core reset. -/
structure SecWork where
  dual : Option Dual := none
  /-- nonces that were outstanding when the lock last engaged (R276) -/
  stale : List (BitVec 128) := []
  /-- PUBKEY of the entries of the authority table in force (R267) -/
  pubs : List (BitVec 512) := List.replicate 8 0
  unlockDeferred : Option (BitVec 8 × BitVec 8) := none
deriving DecidableEq, Repr

/-- What each access path holds for itself (R4, R437): captures, token words, session, nonces, buffers. -/
structure PathSt where
  /-- words of the path-local registers -/
  regs : List (Nat × Word) := []
  /-- captured quantities: base address and words (R4) -/
  caps : List (Nat × List Word) := []
  session : Option Session := none
  armed : List Armed := []
  /-- outstanding nonces, oldest first, with their time of issue (R270) -/
  nonces : List (BitVec 128 × Nat) := []
  token : List Word := []
  recBuf : List Word := []
  recIdx : Nat := 0
  recLoad : Option (BitVec 32) := none
  audBuf : List Word := []
  audIdx : Nat := 0
  audLoad : Option (BitVec 32) := none
  rdgBuf : List Byte := []
  rdgIdx : Nat := 0
  rtcShadow : Option (Nat × List Word) := none
  htx : List Word := []
  htxDone : List (List Word) := []
  /-- the received frame loaded of each port and the index of its next word (R312) -/
  hrxA : List Word × Nat := ([], 0)
  hrxB : List Word × Nat := ([], 0)
deriving DecidableEq, Repr

/-! ### Tamper monitors and Flint (R288 to R304) -/

/-- The tamper state that lives outside registers. `cond` lists the sources whose condition holds now. -/
structure Tamper where
  cond : List (Fin 33) := []
  /-- the image's responses are in force (R298) -/
  responsesOn : Bool := false
  /-- the test run in progress (R300): the monitor in its window, 15 once all have had theirs, and whether it is periodic -/
  testRun : Option (Nat × Bool) := none
  /-- operating seconds at which the last run started (R301) -/
  testedAt : Nat := 0
  /-- levels of the pins ENC0 to ENC3 (R288) -/
  enc : BitVec 4 := 0
  /-- the first source that called for LOCK (R304) -/
  engageSrc : Nat := 0xFF
  /-- flags acknowledged when LOCK_ENGAGE commits (R291 step 7) -/
  ackWait : Nat := 0
deriving DecidableEq, Repr

/-! ### Acquisition and calibration (R47 to R97) -/

/-- A slice of a lane: the last accepted value v and whether its code was a rail code (R53), the values that fed the
decimator, newest first (R55), and the epochs of the discards of the last second (R54). -/
structure Slice where
  last : Int × Bool := (0, false)
  hist : List (Int × Bool) := []
  discards : List Nat := []
deriving DecidableEq, Repr

/-- A merged sample with its tag and the lane delay that travels with it (R58, R61). -/
structure Sample where
  /-- the centre epoch (R56) -/
  centre : Int
  x : Int := 0
  out : Bool := false
  invalid : Bool := false
  clip : Bool := false
  oneSlice : Bool := false
  delay : Int := 0
deriving DecidableEq, Repr

/-- A lane: its slices, the INVALID samples it still delivers (R62), its tracker (R69) and the samples it has delivered,
newest first. -/
structure Lane where
  coarse : Slice := {}
  fine : Slice := {}
  count : Nat := 0
  track : Option (Int × Int) := none
  samples : List Sample := []
deriving DecidableEq, Repr

/-- A lane's coefficient set. -/
structure Coef where
  offC : Int := 0
  offF : Int := 0
  gc : Nat := 1073741824
  rho : Nat := 1073741824
  delay : Int := 0
deriving DecidableEq, Repr

/-- A copy of the calibration SRAM: entries that are not 0, by slice × 4096 + code, and the coefficient sets by lane. -/
structure CalSet where
  tab : List (Nat × Int) := []
  coef : List (Nat × Coef) := []
deriving DecidableEq, Repr

/-- The statistics of a lane over a window: counts by slice × 16 384 + code, counts of dither-removed values by
slice × 16 384 + bin, the usable samples and their sum of vc, the fine-only samples (xf, vc), and what R77 asks. -/
structure LaneStat where
  h : List (Nat × Nat) := []
  u : List (Nat × Nat) := []
  n : Nat := 0
  vc : Int := 0
  fits : List (Int × Int) := []
  /-- output samples of the window delivered in OFF or OUT -/
  idle : Nat := 0
  /-- the lane restarted or changed its setting in the window -/
  broken : Bool := false
deriving DecidableEq, Repr

/-- The zero-sum statistics of a bay over a window (R79): duration, in ns, of the cycles in which every lane of the sum carried
1 % of the reference current; sums of squares of the residual and of each lane; the normal equations of the fit. -/
structure ZeroSum where
  loaded : Real := 0
  rr : Real := 0
  lanes : List Real := []
  eqs : List (List Real) := []
deriving DecidableEq, Repr

/-- The acquisition region and the Eltur calibrator beside their registers. -/
structure Acq where
  lanes : List Lane := List.replicate 76 {}
  /-- epoch of the last output sample since acquisition started (R50) -/
  sampleAt : Option Nat := none
  /-- the sets in force from the epoch `switchAt` on and before it (R57), and the staged set -/
  act : CalSet := {}
  prev : CalSet := {}
  staged : CalSet := {}
  switchAt : Nat := 0
  /-- the set in force when the window in evaluation ended (R96) -/
  atEnd : CalSet := {}
  /-- the tick in which the last evaluation completed, and that of the last commit: their sets wait for its end (R76, R95) -/
  stagedTick : Nat := 0
  commitTick : Nat := 0
  /-- the ratio of the references over the tick in progress, once a commit has taken it (R95) -/
  tickRatio : Option Word := none
  /-- statistics by window × 128 + lane -/
  stats : List (Nat × LaneStat) := []
  /-- zero-sum statistics by window × 16 + bay -/
  zsums : List (Nat × ZeroSum) := []
  /-- the window collected, and the window in evaluation -/
  window : Nat := 0
  evaluating : Nat := 0
  /-- lanes accepted that wait for the switch-over, and lanes a commit has written that wait for it (R96) -/
  accepted : List Nat := []
  committed : List Nat := []
  /-- what the commit has written for those lanes, its new baseline, and whether it changes scale -/
  commitSet : CalSet := {}
  newBase : Option Word := none
  /-- CAL_REF_BASE.BASE; `none` while it is the fused factory ratio (R89) -/
  base : Option Word := none
  /-- lanes written in the staging session, and those of them whose gc was written -/
  written : List Nat := []
  gcWritten : List Nat := []
  /-- lanes exempt from the move tests: all values, and the fine-side values (R81) -/
  exempt : List Nat := List.range 76
  exemptFine : List Nat := []
  /-- lanes whose rho has been measured in an accepted candidate, and lanes with tables and off_c accepted (R90) -/
  rhoOnce : List Nat := []
  tablesOnce : List Nat := []
  /-- consecutive ticks with |DEV| above 20 ppm, and below 15 ppm (R87) -/
  refOver : Nat := 0
  refUnder : Nat := 0
  /-- epoch of the last accepted capture of the trackers (R70) -/
  captureAt : Option Nat := none
deriving DecidableEq, Repr

/-! ### Bays, harmonics and quality (R98 to R142) -/

/-- The values of one cycle that its successors use (R105, R107): the per-sample averages of the products u·i, u(k−128)·i,
u², i² of the elements, of the neutral and of the residual, the fundamental phasors, Q1, and the resampled samples. -/
structure Cycle where
  start : Real
  stop : Real
  /-- duration, ns on the corrected timescale -/
  T : Real
  p : List Real := []
  qs : List Real := []
  uu : List Real := []
  ii : List Real := []
  nn : Real := 0
  res : Real := 0
  u1 : List (Real × Real) := []
  i1 : List (Real × Real) := []
  q1 : List Real := []
  /-- the seven channels U_A to U_C and I_A to I_N, 512 samples each -/
  grid : List (List Real) := []
  held : Bool := false
deriving DecidableEq, Repr

/-- What a cycle gives the per-tick values (R114): powers of A, B, C and total, squares of the rms values. -/
structure CycleSum where
  endEpoch : Nat
  T : Real
  f : Real
  p : List Real
  q1 : List Real
  qs : List Real
  s : List Real
  uu : List Real
  ii : List Real
  res : Real
  lost : Bool
deriving DecidableEq, Repr

/-- A cycle of a base window (R121). -/
structure WinCycle where
  start : Real
  stop : Real
  T : Real
  uu : List Real
  grid : List (List Real)
deriving DecidableEq, Repr

/-- A base window in the accelerator queue (R122). -/
structure HarmJob where
  bay : Nat
  cycles : List WinCycle
  narrow : Bool
deriving DecidableEq, Repr

/-- The results of a base window that its intervals aggregate (R133), and whether the window is flagged. -/
structure WinResult where
  u : List Real
  thdU : List Real
  thdI : List Real
  u2 : Real
  f : Real
  flagged : Bool
  stop : Real
deriving DecidableEq, Repr

/-- A dip or swell in progress (R135). -/
structure QEvent where
  start : Real
  /-- corrected time of the start, ns -/
  startNs : Real
  /-- start of the half-cycle window that began it -/
  since : Real
  opsec : Nat
  ext : Real
  chans : Nat
  int : Bool := false
deriving DecidableEq, Repr

/-- A bay engine (R98 to R142) beside its window. Times are in epochs. -/
structure Bay where
  /-- start of the cycle in progress, its duration in ns, and that of the cycle before it -/
  start : Real := 0
  T : Real := 0
  tPrev : Real := 0
  /-- cycles completed since tracking began -/
  n : Nat := 0
  /-- the voltage set of a cycle that ends where a load gives the bay another (R63, R104) -/
  oldSet : Option Nat := none
  /-- angle of the last cycle's positive-sequence phasor, in turns (R103) -/
  theta : Option Real := none
  f : Real := 0
  good : Nat := 0
  bad : Nat := 0
  /-- the tracking state the end of the cycle in progress brings (R104), and whether that cycle is a SHORT_CYCLE -/
  next : Option Nat := none
  short : Bool := false
  /-- the cycle in progress is the first in LOCKED -/
  first : Bool := false
  prev : Option Cycle := none
  /-- for each of the seven channels, cycles since its lane entered OUT (R108) -/
  outFor : List Nat := List.replicate 7 0
  /-- ns for which P_T has had the sign opposite to DIR (R112) -/
  dirFor : Real := 0
  /-- the accumulation of the cycle in progress was lost with its engine (R40) -/
  credit : Bool := false
  /-- cycles whose tick has not been reported yet, and the boundary whose per-tick values wait for the last cycle that ends
  before it (R114) -/
  cycles : List CycleSum := []
  tickDue : Option Nat := none
  /-- half cycles refreshed since tracking began (R134), and whether the bay has been LOCKED since core reset (R135) -/
  half : Nat := 0
  everLocked : Bool := false
  dip : Option QEvent := none
  swell : Option QEvent := none
  /-- spans of the dips and swells that have ended (R133) -/
  spans : List (Real × Real) := []
  /-- cycles of the window in progress; `none` while no window is formed (R121) -/
  win : Option (List WinCycle) := none
  /-- window results of the two intervals in progress (R131) -/
  windows3 : List WinResult := []
  windows10 : List WinResult := []
  /-- the 10-min boundaries and time steps (`true`) whose intervals wait for their last windows, oldest first (R131, R132) -/
  closing : List (Nat × Bool) := []
  /-- spectra of the last window: by channel, harmonic, interharmonic and angle words -/
  spectra : List (List Word × List Word × List Word) := []
deriving DecidableEq, Repr

/-- A calibration pulse output (R116, R117): accumulator and spread in 2^-24 units of UNIT, the pulse in progress and the
epochs at which the last pulse started and ended. -/
structure Pulse where
  acc : Nat := 0
  rest : Nat := 0
  left : Nat := 0
  part : Nat := 0
  on : Bool := false
  startedAt : Nat := 0
  endedAt : Option Nat := none
deriving DecidableEq, Repr

/-- An XREF rate r (2^-16 ppm) in force from an epoch on, and the corrected time of that epoch in ns (R101). -/
structure RateFrom where
  epoch : Nat := 0
  ns : Real := 0
  rate : Int := 0
deriving DecidableEq, Repr

/-- Metrology beside its registers: bays, outputs, the last XREF rates, newest first (R101), the spectral
accelerators with their queue (R122). -/
structure Metro where
  bays : List Bay := List.replicate 16 {}
  pulses : List Pulse := List.replicate 16 {}
  rates : List RateFrom := [{}]
  queue : List HarmJob := []
  sa0 : Option HarmJob := none
  sa1 : Option HarmJob := none
  /-- the number of the 10-min interval in progress: ledger time, or operating seconds, in units of 600 s -/
  tenAt : Option Nat := none
deriving DecidableEq, Repr

/-! ### The auxiliary block and the process streams (R143 to R182) -/

/-- What the tick in progress has gathered of a channel (R153). -/
structure AuxAcc where
  sum : Int := 0
  cnt : Nat := 0
  rail : Bool := false
  fault : Bool := false
  fld : Bool := false
  ext : Option (Int × Int) := none
deriving DecidableEq, Repr

/-- A channel of a scan as planned when the scan was taken: number, gain code and number of conversions. -/
structure AuxChan where
  chan : Nat
  gain : Nat
  osr : Nat
deriving DecidableEq, Repr

/-- A pulse input between boundaries (R155 to R157): times in XREF cycles on the corrected timescale. -/
structure PulseIn where
  /-- corrected time (ns) of the last counted edge before the last computation -/
  prev : Option Real := none
  /-- edges counted since, and the time of the last -/
  n : Nat := 0
  last : Real := 0
  /-- the same, with the time of the first, of edges that belong to the tick after the one in progress -/
  nextN : Nat := 0
  nextFirst : Real := 0
  nextLast : Real := 0
  /-- change of count by transitions of that tick, and the count at the last boundary -/
  nextDelta : Int := 0
  base : Int := 0
deriving DecidableEq, Repr

/-- The auxiliary block beside its registers (R143 to R160). -/
structure Aux where
  /-- epoch at which the running scan was taken, its settling in epochs and its channels -/
  takenAt : Nat := 0
  settle : Nat := 0
  plan : List AuxChan := []
  /-- the sources enabled when it was taken (R160), and the epoch of the last periodic trigger (R151) -/
  excOn : Nat := 0
  periodAt : Option Nat := none
  /-- gain of the channel converted last; `none` makes the next first conversion a discard (R148) -/
  lastGain : Option Nat := none
  discards : List Nat := []
  /-- VFLD has been low during the running scan -/
  touched : Bool := false
  isolated : Bool := false
  /-- VFLD has been low, and the sources out of compliance, in the tick in progress and in the tick just ended (R167) -/
  lowSeen : Bool := false
  openSeen : Nat := 0
  lowTick : Bool := false
  openTick : Nat := 0
  /-- what the tick in progress and the tick that ended last have gathered, and the boundary whose capture waits for a scan
  that may have ended before it (R150, R153) -/
  acc : List (Nat × AuxAcc) := []
  ended : List (Nat × AuxAcc) := []
  capDue : Option Nat := none
  inputs : List PulseIn := List.replicate 8 {}
deriving DecidableEq, Repr

/-- A process stream beside its window (R164 to R182). -/
structure Stream where
  /-- a boundary whose tick has not been computed: duration in ns and its epoch (R169) -/
  due : Option (Real × Nat) := none
  /-- duration of the ticks lost since the last computed one, `none` without a lost tick (R180) -/
  lost : Option Real := none
  /-- the pulse count of input i at the last computed boundary (R166) -/
  prev : List (Option Nat) := List.replicate 5 none
  /-- values of the inputs from their last tick without a failure, and the time in ns they have been held (R168) -/
  good : List (Option Real) := List.replicate 5 none
  heldFor : List Real := List.replicate 5 0
  /-- mass (kg), volume (L), volume at reference conditions (L) and energy (kJ) per second in the last computed tick -/
  rates : List Real := [0, 0, 0, 0]
  /-- the registers before a live load, while a tick computed under them is due, and the inputs whose value or count
  restarts after it (R181) -/
  old : Option (List (Nat × Word)) := none
  drop : List Nat := []
  zero : List Nat := []
  moved : List Nat := []
deriving DecidableEq, Repr

/-! ### The Nirair ring and the twin (R351 to R381) -/

/-- One bay's record of a twin DELTA (R373). -/
structure TwinBay where
  imp : BitVec 64
  exp : BitVec 64
  flags : BitVec 8
deriving DecidableEq, Repr

/-- The state of the ring beside its registers (R353 to R368). -/
structure Ring where
  /-- the frames sent or forwarded, oldest first, by one port or (`none`) by both -/
  out : List (Option RingPort × List Byte) := []
  seq : BitVec 16 := 0
  /-- the last 64 sequence numbers seen of each source (R355) -/
  seen : List (Nat × List (BitVec 16)) := []
  portDown : List RingPort := []
  /-- consecutive markers that came on one port only, and the last marker on each port with its hops (R355) -/
  oneSided : Nat := 0
  markerU : Option (BitVec 16 × Nat) := none
  markerD : Option (BitVec 16 × Nat) := none
  /-- the marker last received and the one before it, by SEQ, and the marker last used for the alignment (R361) -/
  marker : Option (BitVec 16) := none
  prevMarker : Option (BitVec 16) := none
  usedMarker : Option (BitVec 16) := none
  /-- the epoch of the marker sent last (R361) -/
  sentAt : Option Nat := none
  /-- when SEARCH was entered (R357), and the master tick in which each member was last heard -/
  searchAt : Nat := 0
  heard : List (Nat × Nat) := []
  hopU : List Nat := []
  hopD : List Nat := []
  foreignAt : Option Nat := none
  /-- UIDs of the members present, by position -/
  members : List (Nat × BitVec 64) := []
  /-- the master tick a position last contributed to -/
  lastContrib : List (Nat × Nat) := []
  /-- consecutive markers with |e| at most 5 ns, and above 50 ns (R362, R363) -/
  good : Nat := 0
  bad : Nat := 0
  /-- times of the one-cycle corrections of step 3 in the last second -/
  corrections : List Nat := []
  /-- XREF cycles by which epochs have been lengthened, less those by which they were shortened (R362) -/
  epochShift : Int := 0
  /-- the master tick whose contributions were folded last (R217) -/
  foldedTick : Nat := 0
  /-- the last SECOND marker: TIME, TSRC, ticks since, and when it came (R366) -/
  master : Option (BitVec 64 × Nat × Nat) := none
  secondAt : Nat := 0
  markerAt : Nat := 0
  /-- aligned to the PTP second in this start (R364) -/
  ptpAligned : Bool := false
  /-- the pulse density of CSC_VCTL in 2^-32; one half until the device first steers (R360) -/
  vctl : Nat := 2147483648
deriving DecidableEq, Repr

/-- Window sums of a bay (R373). -/
structure TwinSums where
  iOwn : Nat := 0
  iPeer : Nat := 0
  eOwn : Nat := 0
  ePeer : Nat := 0
  usable : Nat := 0
deriving DecidableEq, Repr

/-- The twin pairing beside its registers (R369 to R377). -/
structure Twin where
  /-- the frames sent, oldest first -/
  out : List (List Byte) := []
  seq : BitVec 16 := 0
  helloAt : Option Nat := none
  /-- TWIN_ID_REFUSED has been raised in this presence (R371) -/
  refused : Bool := false
  hops : List Nat := []
  /-- ticks the core had ended when pairing was completed: pair ticks count from there (R373) -/
  pairedAt : Nat := 0
  /-- pair ticks before the window in progress, and those of it that both sides have sent (R373, R374) -/
  start : Nat := 0
  matched : Nat := 0
  own : List (Nat × List TwinBay) := []
  peer : List (Nat × List TwinBay) := []
  sums : List (Nat × TwinSums) := []
deriving DecidableEq, Repr

/-! ### The panel (R412 to R427) -/

/-- The panel driver. A frame buffer is its 48 character cells; the pixels follow from the font (R415, R416). -/
structure Panel where
  shown : List Byte := List.replicate 48 0x20
  hidden : List Byte := List.replicate 48 0x20
  rendered : Bool := false
  /-- the update in progress: window and the number its source read at the start, for TEXT its 16 characters -/
  cur : Option (Nat × Nat) := none
  /-- PNL_DRIVE and PNL_TIMING as the scan uses them (R414) -/
  drive : Word := 0x64804D00
  timing : Word := 0x480000C8
  /-- what the last measurement of the crack-detect loop read: 0 OK, 1 OPEN, 2 SHORT -/
  crack : Fin 3 := 0
  /-- when it was made, in ms; none before the first -/
  crackAt : Option Nat := none
deriving DecidableEq, Repr

/-! ### Bedrock (R333 to R350) -/

/-- What Bedrock keeps beside its registers; it lasts through core resets and ends at its own power-on reset. -/
structure Bedrock where
  /-- the lock bit (R293) -/
  lock : Bool := false
  /-- the copy of TMP_CFG.ENC_POL (R466) -/
  encPol : BitVec 4 := 0
  /-- no core reset has followed the power-on reset yet (R382, BKP_POR) -/
  por : Bool := true
  /-- no start has raised BKP_LOST since the power-on reset (R335) -/
  bkpLostDue : Bool := true
  /-- the path whose HALT = 1 froze the calendar (R340) -/
  haltBy : Option Path := none
  /-- the time registers written during the halt, by register 0 to 7 from RTC_SUBSEC (R340) -/
  held : List (Nat × Nat) := []
  /-- `now` at the last roll-over of the prescaler (R338) -/
  secAt : Nat := 0
  /-- the trim value in force in this 128 s window (R344) -/
  trim : Word := 0
  /-- at the last roll-over: crystal cycles since the window began (below 0: it began since), and prescaler counts beyond
  those of the crystal that the second in progress has had (R344) -/
  cycle : Int := 0
  extra : Int := 0
  /-- `now` at the last measurement of VBAT (R337), and when PWRON became active (R346) -/
  vbatAt : Option Nat := none
  pwronAt : Nat := 0
deriving DecidableEq, Repr

/-! ### Ethernet ports, PTP and Drega (R305 to R331) -/

/-- A transmit frame and its descriptor (R309), with the index of its buffer of the pool (R308). `onestep` is the ONESTEP
flag, with what the MAC needs of the message: its type and, for a Pdelay_Resp, the receive time stamp of the request (R325).
`host` is the path that submitted it; `follow` tells a PTP event message sent in two steps, with its message type, sequence
number and request. -/
structure TxFrame where
  bytes : List Byte
  queue : Nat
  launch : Bool := false
  tsreq : Bool := false
  onestep : Option (Nat × Nat) := none
  lt : BitVec 32 := 0
  buffer : Nat := 0
  tag : BitVec 16 := 0
  host : Option Path := none
  eligible : Bool := false
  late : Bool := false
  follow : Option (Nat × Nat × List Byte) := none
deriving DecidableEq, Repr

/-- A received frame, without its FCS, its receive time stamp (R325), and its place among the Drega requests of both ports in
order of arrival (R319). -/
structure RxFrame where
  bytes : List Byte
  ts : PtpTime
  arrival : Nat := 0
deriving DecidableEq, Repr

/-- A publication to be sent (R320): number, payload and launch time. -/
structure PubWait where
  pub : Fin 4
  payload : List Byte
  lt : Option (BitVec 32)
deriving DecidableEq, Repr

/-- An entry of a port's ARP cache (R314): the address, the MAC once learned, requests sent without an answer, and when it
was learned or last asked for, in ms of `now`. -/
structure ArpEntry where
  ip : BitVec 32
  mac : Option (BitVec 48) := none
  tries : Nat := 0
  at_ : Nat := 0
deriving DecidableEq, Repr

/-- An Ethernet port beside its registers. `sent` is the last frame that left it, as it went onto the wire without its FCS. -/
structure Port where
  tx : List TxFrame := []
  sending : Option TxFrame := none
  sent : List Byte := []
  rx : List (Nat × RxFrame) := []
  arp : List ArpEntry := []
  half : Bool := false
  mdioRead : Bool := false
deriving DecidableEq, Repr

/-- What both ports share: the number of Drega requests received (R319), and for each publication the tick, counted as
`tickEpoch` + 1, in which it was last formed (R320). -/
structure NetShared where
  arrivals : Nat := 0
  pubAt : List Nat := List.replicate 4 0
deriving DecidableEq, Repr

/-- A response kept for a Drega source (R319): its address and UDP port, the TAG, the response and when it was sent. -/
structure Kept where
  src : DregaSrc
  tag : BitVec 16
  payload : List Byte
  sent : Nat
deriving DecidableEq, Repr

/-- A clock whose announce messages have been received: its port identity, its data set in the order it is compared, the
times of its last two announces, and what it announces of UTC. -/
structure PtpForeign where
  id : BitVec 80
  rank : List Nat
  last : Nat
  before : Option Nat := none
  utc : Int := 0
  utcValid : Bool := false
  leap61 : Bool := false
  leap59 : Bool := false
deriving DecidableEq, Repr

/-- The PTP clock and its ordinary-clock port (R321 to R327). -/
structure Ptp where
  /-- the clock in ns on the PTP timescale, at the time `at_` (ms of `now`) -/
  ns : Nat := 0
  at_ : Nat := 0
  /-- how often the launch timebase has wrapped up to the last count of NET_NS_WRAP or setting of the clock (R328) -/
  wraps : Nat := 0
  /-- the trim of the increment, in 2^-32 ns per IF cycle of 8 ns (R323) -/
  trim : Int := 0
  /-- the seed of R323 waits for an RTC roll-over -/
  seedDue : Bool := false
  everLocked : Bool := false
  foreign : List PtpForeign := []
  parent : Option (BitVec 80) := none
  announceAt : Nat := 0
  /-- while fallback runs on port B: since when announces arrive on A without a timeout, and the last of them (R322) -/
  aSince : Option Nat := none
  aLast : Nat := 0
  /-- a two-step Sync that waits for its Follow_Up: sequence number, receive time stamp, correction -/
  sync : Option (Nat × Int × Int) := none
  /-- the last master-to-slave difference measured, and the mean path delay -/
  msDiff : Option Int := none
  delay : Option Int := none
  /-- the delay request sent: sequence number and its transmit time stamp -/
  req : Option (Nat × Option Int) := none
  /-- a two-step Pdelay_Resp received: sequence number, its request receipt time and its own receive time stamp -/
  presp : Option (Nat × Int × Int) := none
  good : Nat := 0
  bad : Nat := 0
  seqSync : Nat := 0
  seqAnn : Nat := 0
  seqReq : Nat := 0
  /-- the UTC midnight of an announced leap second (R327) -/
  leapAt : Option Nat := none
  /-- the PTP time of the last whole-second boundary and its epoch count, while locked (R326) -/
  lastCap : Option (Nat × Nat) := none
deriving DecidableEq, Repr
/-! ### The configuration flash and the loader (R386 to R404) -/

/-- The configuration flash (R388): the bytes that are not erased (0xFF), by rising address; its JEDEC identity; what its
SFDP declares, as log2 of the capacity in MiB and the code of the fastest read mode (R390), `none` without a valid SFDP. -/
structure FlashDev where
  cells : List Host.Cell := []
  jedec : BitVec 24 := 0
  sfdp : Option (Nat × Nat) := some (4, 2)
deriving DecidableEq, Repr

/-- An accepted image (R392 to R395): what the loader needs of it after its tests. `auth` is the 576-byte authority table,
`patches` the patch sections whole. -/
structure Image where
  gen : Nat
  regs : List (Nat × Word)
  auth : List Byte
  active : Calendar
  passive : Option Calendar
  patches : List (List Byte)
  digest : BitVec 256
deriving DecidableEq, Repr

/-- A candidate being loaded: its slot, and for a live load whether LOAD_RESET started it, under which role and key. -/
structure Load where
  slot : Nat
  live : Bool := false
  reset : Bool := false
  roles : BitVec 8 := 0
  keys : BitVec 8 := 0xFF
deriving DecidableEq, Repr

/-- A flash command in progress (R391): 1 READ, 2 PROGRAM, 3 ERASE; its address and, for PROGRAM, its bytes. -/
structure FlashJob where
  cmd : Nat
  addr : Nat
  data : List Byte := []
deriving DecidableEq, Repr

/-- The loader, lost at a core reset. -/
structure Loader where
  /-- the candidate being read or tested, and at start the slots still to be tried (R399) -/
  cur : Option Load := none
  rest : List Nat := []
  /-- an accepted image whose registers are not in force yet (step 7 of R386, step 4 of R402) -/
  accepted : Option Image := none
  /-- whole-second boundaries since the core reset when a live load was accepted -/
  atTick : Nat := 0
  /-- a LOAD_RESET has committed: its core reset follows (R402) -/
  resetDue : Bool := false
  /-- patch sections of the running image (R398) -/
  patches : List (List Byte) := []
  flash : Option FlashJob := none
deriving DecidableEq, Repr


/-! ### The machine -/

/-- The escalation logic (R39 to R46): faults by unit with their time, engines out of service. -/
structure Esc where
  faults : List (FaultUnit × Nat) := []
  down : List FaultUnit := []
  restarting : List FaultUnit := []
  frozenAt : Option Nat := none
  /-- the regions that have failed (R43), and for the first failure its region, block, cell and ERROR with its time -/
  failed : List Region := []
  first : Option (Nat × Nat × Nat × Nat × Nat) := none
  /-- bays stopped for want of a standby engine (R42) -/
  stopped : List Nat := []
deriving DecidableEq, Repr

/-- The supply and reset of the core (R382 to R386). -/
structure Core where
  /-- the core is out of reset -/
  running : Bool := false
  /-- PLLs locked (step 2 of R386) -/
  pll : Bool := false
  /-- a power-fail warning is in force (R384) -/
  warned : Bool := false
  /-- the image has been applied in this start (step 8 of R386) -/
  loaded : Bool := false
  /-- the start-up tamper test run is done and the device is ready -/
  ready : Bool := false
  warnedAt : Nat := 0
  /-- cause of the core reset in force, coded as CFG_RESET.CAUSE (R382): POWER until the core has run -/
  cause : Nat := 1
  /-- the epoch at which the tick in progress began (R34), and the ticks since the core reset -/
  tickEpoch : Nat := 0
  ticks : Nat := 0
deriving DecidableEq, Repr

/-- What the die carries in fuses (R1, R266, R302): the part and revision, UID, the reference base, the device key, its
certificate and the fused light groups. -/
structure Fuses where
  kb9608 : Bool := false
  revision : BitVec 12 := 0x011
  uid : BitVec 64 := 0
  refBase : BitVec 32 := 0x40000000
  devKey : List Word := List.replicate 16 0
  devCert : List Word := List.replicate 16 0
  lsg : BitVec 6 := 0
  /-- the factory coefficients of the lanes that are not nominal, without gc (R73) -/
  coef : List (Nat × Coef) := []
  /-- the auxiliary slice: table entries that are not 0, and off_g and g_g by gain code (R145) -/
  auxTab : List (Nat × Int) := []
  auxOff : List Int := List.replicate 7 0
  auxGain : List Nat := List.replicate 7 1073741824
deriving DecidableEq, Repr

/-- Sequences of the switched power domains in progress (R407, R408): shutdowns and power-ons, and domains to be switched
off when their power-on completes. -/
structure Power where
  down : List (Fin 17) := []
  /-- those of `down` past their isolate step -/
  isolated : List (Fin 17) := []
  up : List (Fin 17) := []
  offAfter : List (Fin 17) := []
  /-- domains whose last change was asked for by an image (R409) -/
  byImage : List (Fin 17) := []
deriving DecidableEq, Repr

/-- The device. -/
structure State where
  /-- the commands that are waiting, first in, first out -/
  pending : List Instr := []
  fuses : Fuses := {}
  /-- the register words that differ from their reset words, by rising address -/
  regs : List (Nat × Word) := []
  spi : PathSt := {}
  drega : PathSt := {}
  /-- the captures of the panel's own path (R4, R419) -/
  panelCaps : List (Nat × List Word) := []
  /-- the bytes the host port returned for the last frame (R432) -/
  spiOut : List Byte := []
  /-- elapsed milliseconds of the LG clock -/
  now : Nat := 0
  /-- `now` at the whole-second boundary that began the tick in progress (R240) -/
  tickStart : Nat := 0
  /-- `now` at the last core reset -/
  resetAt : Nat := 0
  /-- the model's own counter from which free values are drawn -/
  free : Nat := 0
  core : Core := {}
  esc : Esc := {}
  pwr : Power := {}
  acq : Acq := {}
  met : Metro := {}
  aux : Aux := {}
  /-- the four custody streams (R161 to R182) -/
  strm : List Stream := List.replicate 4 {}
  led : LedWork := {}
  str : Strata := {}
  rcd : Recorder := {}
  gar : Garnet := {}
  sec : SecWork := {}
  tmp : Tamper := {}
  ring : Ring := {}
  twin : Twin := {}
  panel : Panel := {}
  portA : Port := {}
  portB : Port := {}
  net : NetShared := {}
  kept : List Kept := []
  ptp : Ptp := {}
  bk : Bedrock := {}
  flash : FlashDev := {}
  ldr : Loader := {}
deriving DecidableEq, Repr

/-- The machine right after reset: a device formatted at final test (R238) whose Bedrock has had its power-on reset,
core in reset, no command waiting. -/
def State.reset : State := {}

end Sys2Proof.Machine
end

