-- ==== Sys2Proof/Machine/Ops.lean ====
section
/-!
DEFINITION. The named operations over the state: sparse stores, register words and fields, path-local registers,
interrupt and alert bits, free values, bytes and checksums, and the event intake (R240 to R245, R257).
-/

namespace Sys2Proof.Machine

/-! ### Sparse stores in canonical form -/

/-- What a sparse store holds at a key: the listed value, or the default of an unlisted key. -/
def storeGet {α : Type} (d : Nat → α) (m : List (Nat × α)) (a : Nat) : α := (m.lookup a).getD (d a)

/-- Put a pair into a list sorted by rising key, before the first larger key. -/
def insertSorted {α : Type} (a : Nat) (v : α) : List (Nat × α) → List (Nat × α)
  | [] => [(a, v)]
  | p :: m => if a < p.1 then (a, v) :: p :: m else p :: insertSorted a v m

/-- Set a key of a sparse store, keeping the canonical form: rising keys, no entry equal to its default. -/
def storeSet {α : Type} [DecidableEq α] (d : Nat → α) (m : List (Nat × α)) (a : Nat) (v : α) : List (Nat × α) :=
  let m' := m.filter fun p => p.1 ≠ a
  if v = d a then m' else insertSorted a v m'

/-- The canonical form of a sparse store: keys strictly rising and no entry equal to what an unlisted key reads as. -/
abbrev storeWf {α : Type} (d : Nat → α) (m : List (Nat × α)) : Prop :=
  m.Pairwise (fun p q => p.1 < q.1) ∧ ∀ p ∈ m, p.2 ≠ d p.1

/-- The default of the counters kept in sparse stores. -/
def zeroAt (_ : Nat) : Nat := 0

/-! ### Quotients -/

/-- A quotient; a zero divisor gives a value the spec leaves open. -/
def rdiv (x y : Real) : Real := if y = 0 then Config.divZero x else x / y

/-! ### Registers (R3, R4, R8) -/

/-- Bits `lo` up to `lo + width` of a number. -/
def bitsOf (v lo width : Nat) : Nat := v / 2 ^ lo % 2 ^ width

/-- A number with its bits `lo` up to `lo + width` replaced. -/
def withBits (v lo width x : Nat) : Nat :=
  v % 2 ^ lo + 2 ^ lo * (x % 2 ^ width + 2 ^ width * (v / 2 ^ (lo + width)))

/-- The number of words a field reaches over. -/
def Field.words (f : Field) : Nat := (f.lo + f.width + 31) / 32

/-- The number held by `n` words from an address, least significant word first (R4). -/
def wordsAt (g : Nat → Word) (a : Nat) : Nat → Nat
  | 0 => 0
  | n + 1 => (g a).toNat + 2 ^ 32 * wordsAt g (a + 4) n

/-- Store a number in `n` words from an address, least significant word first. -/
def putWords (m : List (Nat × Word)) (a v : Nat) : Nat → List (Nat × Word)
  | 0 => m
  | n + 1 => putWords (storeSet resetWord m a (BitVec.ofNat 32 v)) (a + 4) (v / 2 ^ 32) n

/-- The word of the register space at an address, as stored. -/
def State.word (s : State) (a : Nat) : Word := storeGet resetWord s.regs a

/-- Set the word at an address. -/
def State.setWord (s : State) (a : Nat) (w : Word) : State := { s with regs := storeSet resetWord s.regs a w }

/-- The value of a register field. -/
def State.rd (s : State) (f : Field) : Nat := bitsOf (wordsAt s.word f.addr f.words) f.lo f.width

/-- Set a register field to a value, cut to its width. -/
def State.wr (s : State) (f : Field) (v : Nat) : State :=
  { s with regs := putWords s.regs f.addr (withBits (wordsAt s.word f.addr f.words) f.lo f.width v) f.words }

/-- A one-bit field as a truth value. -/
def State.flag (s : State) (f : Field) : Bool := s.rd f ≠ 0

/-- Set a one-bit field. -/
def State.wrB (s : State) (f : Field) (b : Bool) : State := s.wr f (if b then 1 else 0)

/-- Two's-complement value of an unsigned `w`-bit number (R16). -/
def toSigned (w v : Nat) : Int := if v < 2 ^ (w - 1) then v else (v : Int) - 2 ^ w

/-- The unsigned number of `w` bits that codes a signed one. -/
def ofSigned (w : Nat) (v : Int) : Nat := (v % (2 ^ w : Int)).toNat

/-- A signed field (R16). -/
def State.rdS (s : State) (f : Field) : Int := toSigned f.width (s.rd f)

/-- Set a signed field. -/
def State.wrS (s : State) (f : Field) (v : Int) : State := s.wr f (ofSigned f.width v)

/-- Add to a counter that saturates at its all-ones value (R12). -/
def State.count (s : State) (f : Field) (n : Nat := 1) : State := s.wr f (min (s.rd f + n) (2 ^ f.width - 1))

/-- Add one to a counter whose Function cell says that it wraps (R12). -/
def State.wrap (s : State) (f : Field) : State := s.wr f (s.rd f + 1)

/-! ### Access paths (R437) -/

/-- The state of an access path. -/
def State.path (s : State) : Path → PathSt
  | .spi => s.spi
  | .drega => s.drega

/-- Replace the state of an access path. -/
def State.setPath (s : State) (p : Path) (x : PathSt) : State :=
  match p with
  | .spi => { s with spi := x }
  | .drega => { s with drega := x }

/-- A field of a path-local register. -/
def State.rdP (s : State) (p : Path) (f : Field) : Nat :=
  bitsOf (wordsAt (storeGet resetWord (s.path p).regs) f.addr f.words) f.lo f.width

/-- Set a field of a path-local register. -/
def State.wrP (s : State) (p : Path) (f : Field) (v : Nat) : State :=
  let x := s.path p
  s.setPath p { x with
    regs := putWords x.regs f.addr (withBits (wordsAt (storeGet resetWord x.regs) f.addr f.words) f.lo f.width v) f.words }

/-- The number a path has in event payloads (R286, R348): 0 SPI, 1 Drega. -/
def pathNo : Path → Nat
  | .spi => 0
  | .drega => 1

/-! ### Free values -/

/-- Advance the counter from which free values are drawn. -/
def State.drawn (s : State) : State := { s with free := s.free + 1 }

/-! ### Bytes and checksums (R18, R431) -/

/-- `n` bytes of a number, most significant first (R18). -/
def beBytes : Nat → Nat → List Byte
  | 0, _ => []
  | n + 1, v => beBytes n (v / 256) ++ [BitVec.ofNat 8 v]

/-- The number coded by bytes, most significant first. -/
def beNat (bs : List Byte) : Nat := bs.foldl (fun a b => a * 256 + b.toNat) 0

/-- A word as its four bytes, most significant first. -/
def wordBytes (w : Word) : List Byte := beBytes 4 w.toNat

/-- Bytes grouped into words, the byte of lowest offset in [31:24]; a short last word is filled with 0. -/
def bytesWords : List Byte → List Word
  | a :: b :: c :: d :: bs => BitVec.ofNat 32 (beNat [a, b, c, d]) :: bytesWords bs
  | [] => []
  | [a] => [BitVec.ofNat 32 (beNat [a, 0, 0, 0])]
  | [a, b] => [BitVec.ofNat 32 (beNat [a, b, 0, 0])]
  | [a, b, c] => [BitVec.ofNat 32 (beNat [a, b, c, 0])]

/-- A byte list cut or filled with 0 to a length. -/
def padTo (n : Nat) (bs : List Byte) : List Byte := (bs ++ List.replicate n 0).take n

/-- `n` bytes from an offset. -/
def sub (bs : List Byte) (off n : Nat) : List Byte := (bs.drop off).take n

/-- One bit of the CRC-8 of R431. -/
def crc8Bit (c : Byte) : Byte := if c.msb then (c <<< 1) ^^^ 0x07 else c <<< 1

/-- CRC-8 of R431: polynomial 0x07, initial value 0, not reflected. -/
def crc8 (bs : List Byte) : Byte :=
  bs.foldl (fun c b => Nat.iterate crc8Bit 8 (c ^^^ b)) 0

/-- One bit of the CRC-32 of Ethernet frames, in its reflected form (R18). -/
def crc32Bit (c : Word) : Word := if c.getLsbD 0 then (c >>> 1) ^^^ 0xEDB88320 else c >>> 1

/-- CRC-32 with the IEEE 802.3 polynomial, as used for Ethernet frames (R18). PRESUMED: the reflected form with initial
value and final inversion of all ones that Ethernet uses (notes/assumptions/5.md). -/
def crc32 (bs : List Byte) : Word :=
  ~~~ bs.foldl (fun c b => Nat.iterate crc32Bit 8 (c ^^^ b.setWidth 32)) 0xFFFFFFFF

/-! ### Interrupt, status and alert bits (R46, R438) -/

/-- Set a cause in SYS_IRQ_STAT (R438). -/
def State.irq (s : State) (f : Field) : State := s.wrB f true

/-- Whether HIRQ_N is asserted: some bit reads 1 in both SYS_IRQ_STAT and SYS_IRQ_EN (R438). -/
def State.hirq (s : State) : Bool :=
  s.word Adr.SYS_IRQ_STAT &&& s.word Adr.SYS_IRQ_EN ≠ 0

/-- Whether ALERT_N is asserted: some bit of SYS_ALERT reads 1 (R46). -/
def State.alertN (s : State) : Bool := s.word Adr.SYS_ALERT ≠ 0

/-- Set or clear a bit of SYS_ALERT; SYS_STATUS.ALERT follows, and a bit going from 0 to 1 is an interrupt cause. -/
def State.alert (s : State) (f : Field) (b : Bool) : State :=
  let t := s.wrB f b
  let t := if b && !s.flag f then t.irq Fld.SYS_IRQ_STAT_ALERT else t
  t.wrB Fld.SYS_STATUS_ALERT t.alertN

/-- Chip state codes of SYS_STATUS.STATE. -/
def chipStart : Nat := 0
def chipProvisional : Nat := 1
def chipFull : Nat := 2
def chipFrozen : Nat := 3
def chipLoadFailed : Nat := 4

/-- Set SYS_STATUS.STATE; a change is an interrupt cause. -/
def State.setChip (s : State) (v : Nat) : State :=
  let t := s.wr Fld.SYS_STATUS_STATE v
  if s.rd Fld.SYS_STATUS_STATE = v then t else t.irq Fld.SYS_IRQ_STAT_STATE

/-- The chip state. -/
def State.chip (s : State) : Nat := s.rd Fld.SYS_STATUS_STATE

/-- Whether the Flint lock is engaged (R294): SYS_STATUS.LOCKED. -/
def State.locked (s : State) : Bool := s.flag Fld.SYS_STATUS_LOCKED

/-- Operating seconds. -/
def State.opsec (s : State) : Nat := s.rd Fld.SYS_OPSEC_OPSEC

/-- The sample epoch counter. -/
def State.epoch (s : State) : Nat := s.rd Fld.SYS_EPOCH_EPOCH

/-- The milliseconds of the intake stamp (R240). -/
def State.msec (s : State) : Nat := min (s.now - s.tickStart) 1999

/-- Move the elapsed time to at least `t` ms. -/
def State.until (s : State) (t : Nat) : State := { s with now := max s.now t }

/-- The power-cycle count that records of this start carry (R247). -/
def State.startCycles (s : State) : Nat := s.led.startCount

/-! ### Bedrock last-resort slots (R257, R347) -/

/-- Write the lowest free last-resort slot with an event, or count it when all are occupied (R257). -/
def State.lastResort (s : State) (e : Event) : State :=
  let occ := s.rd Fld.BK_LR_STAT_OCCUPIED
  match (List.range 4).find? fun n => occ / 2 ^ n % 2 = 0 with
  | none => s.count Fld.REC_LOST_LR_FULL
  | some n =>
    let body := beBytes 1 e.code ++ beBytes 1 e.source ++ beBytes 2 0 ++ beBytes 4 s.startCycles ++ beBytes 5 e.opsec
      ++ beBytes 3 0 ++ padTo 12 e.payload
    let ws := bytesWords (body ++ wordBytes (crc32 body))
    let t := (ws.zipIdx).foldl (fun t (w, i) => t.setWord (Adr.BK_LR n i) w) s
    (t.wr Fld.BK_LR_STAT_OCCUPIED (occ ||| 2 ^ n)).wr Fld.BK_LR_STAT_CRC_OK (s.rd Fld.BK_LR_STAT_CRC_OK ||| 2 ^ n)

/-! ### The event intake (R240 to R245) -/

/-- Event codes of R246, R286, R303 and the chapters' own lists. -/
def evEscalation : Nat := 0x01
def evChipFreeze : Nat := 0x02
def evPowerUp : Nat := 0x03
def evStrataBankFail : Nat := 0x68
def evStrataAreaDead : Nat := 0x69

/-- The event as the intake stamps it (R240, R248). -/
def State.stamp (s : State) (code source : Nat) (payload : List Byte) : Event :=
  { code, source, payload, opsec := s.opsec, msec := s.msec,
    provisional := s.chip = chipProvisional, locked := s.locked }

/-- Replace the recorder's state, REC_STATUS.QUEUE following the queue. -/
def State.setRcd (s : State) (r : Recorder) : State :=
  ({ s with rcd := r }).wr Fld.REC_STATUS_QUEUE r.queue.length

/-- Count a suppressed event of a code (R241, R244): the counters saturate at 0xFFFF. -/
def State.suppress (s : State) (code : Nat) : State :=
  let r := s.rcd
  s.setRcd { r with
    suppPending := storeSet zeroAt r.suppPending code (min (storeGet zeroAt r.suppPending code + 1) 0xFFFF)
    suppTotal := storeSet zeroAt r.suppTotal code (min (storeGet zeroAt r.suppTotal code + 1) 0xFFFF)
    suppFirst := some (r.suppFirst.getD (s.opsec, s.now)) }

/-- Whether the recorder is dead (R257). -/
def State.recDead (s : State) : Bool := s.rd Fld.REC_STATUS_MODE = 2

/-- Whether the bucket of a code holds a token (R241): CAP 0xFF removes the limit. -/
def State.hasToken (s : State) (code : Nat) : Bool :=
  let cap := s.rd (Fld.REC_BUCKET_CAP code)
  cap = 0xFF || storeGet zeroAt s.rcd.taken code < cap

/-- Take a token of a code's bucket. -/
def State.takeToken (s : State) (code : Nat) : List (Nat × Nat) :=
  if s.rd (Fld.REC_BUCKET_CAP code) = 0xFF then s.rcd.taken
  else storeSet zeroAt s.rcd.taken code (storeGet zeroAt s.rcd.taken code + 1)

/-- Offer an event to the intake (R241). From a power-fail warning on nothing is queued or counted (R245); with the
recorder dead, STRATA_AREA_DEAD takes a last-resort slot and any other event is dropped and counted (R257). -/
def State.raise (s : State) (code source : Nat) (payload : List Byte) : State :=
  if s.rcd.closed || !s.core.running then s
  else if s.rcd.gather.isSome then
    { s with rcd := { s.rcd with gather := s.rcd.gather.map fun (l : List (Nat × Nat × List Byte)) => l ++ [(code, source, payload)] } }
  else if s.recDead then
    if code = evStrataAreaDead then s.lastResort (s.stamp code source payload) else s.count Fld.REC_LOST_DEAD
  else if 64 ≤ s.rcd.queue.length then (s.suppress code).count Fld.REC_INTAKE_FULL
  else if s.hasToken code then
    s.setRcd { s.rcd with queue := s.rcd.queue ++ [s.stamp code source payload], taken := s.takeToken code }
  else (s.suppress code).count Fld.REC_INTAKE_BUCKET

/-- An event offered to the intake: code, source, payload. -/
abbrev Offer := Nat × Nat × List Byte

/-- Whether an event enters before another of the same cycle: by code, then source (R242). -/
def offerFirst (a b : Offer) : Bool := a.1 < b.1 || (a.1 = b.1 && a.2.1 ≤ b.2.1)

/-- Place an event among others in the order of R242. -/
def placeOffer (e : Offer) : List Offer → List Offer
  | [] => [e]
  | x :: xs => if offerFirst e x then e :: x :: xs else x :: placeOffer e xs

/-- Events that reach the intake in one cycle enter it in ascending order of code, then of source (R242). -/
def State.raiseTogether (s : State) (es : List Offer) : State :=
  (es.foldr placeOffer []).foldl (fun (s : State) (e : Offer) => s.raise e.1 e.2.1 e.2.2) s

/-- What happens in one cycle: the events it offers enter the intake together (R242). -/
def State.sameCycle (s : State) (f : State → State) : State :=
  if s.rcd.gather.isSome then f s
  else
    let t := f { s with rcd := { s.rcd with gather := some [] } }
    ({ t with rcd := { t.rcd with gather := none } }).raiseTogether (t.rcd.gather.getD [])

/-- Queue an exempt event ahead of every waiting one; at a full queue the newest waiting event is displaced and counts as
suppressed under its own code and in REC_LOST.DISPLACED (R243). A dead recorder keeps CHIP_FREEZE in a last-resort slot and
drops any other (R257). -/
def State.raiseFront (s : State) (code source : Nat) (payload : List Byte) : State :=
  if s.rcd.closed || !s.core.running then s
  else if s.recDead then
    if code = evChipFreeze then s.lastResort (s.stamp code source payload) else s.count Fld.REC_LOST_DEAD
  else
    let t := match s.rcd.queue[63]? with
      | some e => ((s.setRcd { s.rcd with queue := s.rcd.queue.take 63 }).suppress e.code).count Fld.REC_LOST_DISPLACED
      | none => s
    t.setRcd { t.rcd with queue := s.stamp code source payload :: t.rcd.queue }

end Sys2Proof.Machine
end

