-- ==== Sys2Proof/Machine/Tariff.lean ====
section
/-!
DEFINITION. Calendars (R196 to R199): the fields of a calendar block, civil dates, the local-time rule, the rate in force
at a ledger time, the monthly billing instant, and the tests of R199.
-/

namespace Sys2Proof.Machine

/-! ### Civil dates -/

/-- Whether a year of the Gregorian calendar is a leap year. -/
def leap (y : Nat) : Bool := (y % 4 = 0 && y % 100 ≠ 0) || y % 400 = 0

/-- Days of a month. -/
def monthDays (y m : Nat) : Nat :=
  match m with
  | 2 => if leap y then 29 else 28
  | 4 | 6 | 9 | 11 => 30
  | _ => 31

/-- Days from 1970-01-01 to a date, by counting from 1 March of year 0. -/
def daysFrom (y m d : Nat) : Int :=
  let y' : Nat := if m ≤ 2 then y - 1 else y
  let mp : Nat := (m + 9) % 12
  let era : Nat := y' / 400
  let yoe : Nat := y' % 400
  let doy : Nat := (153 * mp + 2) / 5 + d - 1
  let doe : Nat := yoe * 365 + yoe / 4 - yoe / 100 + doy
  (era * 146097 + doe : Nat) - 719468

/-- The date (year, month, day) of a day counted from 1970-01-01. -/
def dateOf (n : Int) : Nat × Nat × Nat :=
  let z : Nat := (n + 719468).toNat
  let era := z / 146097
  let doe := z % 146097
  let yoe := (doe - doe / 1460 + doe / 36524 - doe / 146096) / 365
  let doy := doe - (365 * yoe + yoe / 4 - yoe / 100)
  let mp := (5 * doy + 2) / 153
  let d := doy - (153 * mp + 2) / 5 + 1
  let m := if mp < 10 then mp + 3 else mp - 9
  (yoe + era * 400 + (if m ≤ 2 then 1 else 0), m, d)

/-- The weekday of a day counted from 1970-01-01: Monday 1 to Sunday 7 (R196). -/
def weekday (n : Int) : Nat := ((n + 3) % 7).toNat + 1

/-! ### Fields of a calendar (R198) -/

/-- One byte of a calendar block. -/
def calByte (c : Calendar) (off : Nat) : Nat :=
  (c.getD (off / 4) 0).toNat / 2 ^ (8 * (3 - off % 4)) % 256

/-- A 2-byte field of a calendar block. -/
def calU16 (c : Calendar) (off : Nat) : Nat := calByte c off * 256 + calByte c (off + 1)

/-- The calendar's ID. -/
def calId (c : Calendar) : Nat := (c.getD 0 0).toNat

/-- ACT_TIME. -/
def calActTime (c : Calendar) : Nat := (c.getD 1 0).toNat * 2 ^ 32 + (c.getD 2 0).toNat

/-- DEFAULT_RATE. -/
def calDefaultRate (c : Calendar) : Nat := calByte c 12
def calSeasons (c : Calendar) : Nat := calByte c 13
def calWeeks (c : Calendar) : Nat := calByte c 14
def calDays (c : Calendar) : Nat := calByte c 15
def calSpecials (c : Calendar) : Nat := calByte c 16

/-- STD_OFFSET in minutes, signed. -/
def calStd (c : Calendar) : Int := toSigned 16 (calU16 c 17)

/-- DST_OFFSET in minutes. -/
def calDst (c : Calendar) : Nat := calByte c 19

/-- The bytes of a calendar block. -/
def calBytes (c : Calendar) : List Byte := c.flatMap wordBytes

/-! ### Local time (R197) -/

/-- Seconds from 1970-01-01 of the instant a DST_START or DST_END field names in a year, in its own local time: month,
week (1 to 4, or 5 for the last), weekday, minute of day. -/
def dstInstant (c : Calendar) (off y : Nat) : Int :=
  let m := calByte c off
  let wk := calByte c (off + 1)
  let wd := calByte c (off + 2)
  let minute := calU16 c (off + 4)
  let first := daysFrom y m 1
  let firstWd : Int := first + ((wd : Int) - weekday first) % 7
  let last := daysFrom y m (monthDays y m)
  let lastWd : Int := last - ((weekday last : Int) - wd) % 7
  let day := if wk = 5 then lastWd else firstWd + 7 * ((wk : Int) - 1)
  day * 86400 + minute * 60

/-- Ledger time as seconds of standard local time. -/
def stdLocal (c : Calendar) (t : Nat) : Int := t + calStd c * 60

/-- The year of a count of local seconds. -/
def yearOf (l : Int) : Nat := (dateOf (l / 86400)).1

/-- The start of daylight saving in the year of an instant, in standard local seconds. -/
def dstStart (c : Calendar) (l : Int) : Int := dstInstant c 20 (yearOf l)

/-- The end of daylight saving in the year of an instant, in standard local seconds (stated in daylight time). -/
def dstEnd (c : Calendar) (l : Int) : Int := dstInstant c 26 (yearOf l) - calDst c * 60

/-- Whether daylight saving is in force at standard local seconds `l` (R197). -/
def inDst (c : Calendar) (l : Int) : Bool :=
  calDst c ≠ 0 &&
  (if dstStart c l < dstEnd c l then dstStart c l ≤ l && l < dstEnd c l
   else l < dstEnd c l || dstStart c l ≤ l)

/-- Whether `l` lies in the repeated hour after daylight saving ends (R197). -/
def inRepeat (c : Calendar) (l : Int) : Bool :=
  calDst c ≠ 0 && dstEnd c l ≤ l && l < dstEnd c l + calDst c * 60 && !inDst c l

/-- The local-time offset in force at a ledger time, in minutes (R197). -/
def localOffset (c : Calendar) (t : Nat) : Int :=
  calStd c + (if inDst c (stdLocal c t) then (calDst c : Int) else 0)

/-- Local seconds at a ledger time. -/
def localSec (c : Calendar) (t : Nat) : Int := t + localOffset c t * 60

/-! ### The rate in force (R196) -/

/-- The season in force on a month and day: the index of the latest start at or before it, else the last season. -/
def seasonAt (c : Calendar) (m d : Nat) : Nat :=
  ((List.range (calSeasons c)).filter fun i =>
      let sm := calByte c (32 + 4 * i)
      let sd := calByte c (33 + 4 * i)
      sm < m || (sm = m && sd ≤ d)).getLast?.getD (calSeasons c - 1)

/-- The special day that matches a date: an entry of its year, else one of every year. -/
def specialAt (c : Calendar) (y m d : Nat) : Option Nat :=
  let hit (yy : Nat) (i : Nat) : Bool :=
    calU16 c (896 + 8 * i) = yy && calByte c (898 + 8 * i) = m && calByte c (899 + 8 * i) = d
  let idx := List.range (calSpecials c)
  match idx.find? (hit y) with
  | some i => some i
  | none => idx.find? (hit 0)

/-- What the calendar gives for local seconds: season, week profile, day profile, special day or not, and the rate. -/
structure TariffAt where
  season : Nat
  week : Nat
  day : Nat
  special : Bool
  rate : Nat
deriving DecidableEq, Repr

/-- The rate of the last used switch point of a day profile at or before a minute of day. -/
def dayRate (c : Calendar) (day minute : Nat) : Nat :=
  ((List.range 12).filterMap fun i =>
      let o := 128 + 48 * day + 4 * i
      let p := calU16 c o
      if p ≠ 0xFFFF && p ≤ minute then some (calByte c (o + 2)) else none).getLast?.getD (calDefaultRate c)

/-- The tariff at local seconds `l` (R196 steps 2 to 5). -/
def tariffLocal (c : Calendar) (l : Int) : TariffAt :=
  let dn := l / 86400
  let (y, m, d) := dateOf dn
  let season := seasonAt c m d
  let week := calByte c (34 + 4 * season)
  let (day, special) := match specialAt c y m d with
    | some i => (calByte c (900 + 8 * i), true)
    | none => (calByte c (64 + 8 * week + (weekday dn - 1)), false)
  { season, week, day, special, rate := dayRate c day ((l % 86400).toNat / 60) }

/-- The tariff at a ledger time: in the repeated hour, that of the end of its first pass (R197). -/
def tariffAt (c : Calendar) (t : Nat) : TariffAt :=
  let l := stdLocal c t
  if inRepeat c l then tariffLocal c (dstEnd c l + calDst c * 60 - 1) else tariffLocal c (localSec c t)

/-- The standard offset used for interval alignment; 0 without a calendar. -/
def stdOf (c : Option Calendar) : Int := match c with
  | some c => calStd c
  | none => 0

/-- Whether a demand or load-profile interval of `mins` minutes ends at a ledger time (R204, R207). -/
def alignedEnd (c : Option Calendar) (mins t : Nat) : Bool :=
  ((t : Int) + 60 * stdOf c) % (60 * mins : Nat) = 0

/-! ### Monthly close (R209) -/

/-- Whether local seconds are a given day of month, hour and minute, to the second. -/
def isMonthly (day hour minute : Nat) (l : Int) : Bool :=
  (dateOf (l / 86400)).2.2 = day && l % 86400 = ((hour * 60 + minute) * 60 : Nat)

/-- Whether a MONTHLY close is due at a ledger time: at DAY, HOUR:MINUTE local; at the boundary of the jump when the jump
skips that instant, on the day it begins or the next; never in the second pass of the repeated hour (R209). -/
def monthlyDue (c : Option Calendar) (day hour minute t : Nat) : Bool :=
  match c with
  | none => isMonthly day hour minute t
  | some c =>
    let l := stdLocal c t
    if inRepeat c l then false
    else isMonthly day hour minute (localSec c t) ||
      (calDst c ≠ 0 && l = dstStart c l && [l / 86400, l / 86400 + 1].any fun (d : Int) =>
        (dateOf d).2.2 = day &&
        (let at_ := d * 86400 + ((hour * 60 + minute) * 60 : Nat)
         l ≤ at_ && at_ < l + calDst c * 60))

/-! ### The tests of a calendar (R199) -/

/-- Whether a DST_START or DST_END field is in range. -/
def dstFieldOk (c : Calendar) (off : Nat) : Bool :=
  1 ≤ calByte c off && calByte c off ≤ 12 && 1 ≤ calByte c (off + 1) && calByte c (off + 1) ≤ 5 &&
  1 ≤ calByte c (off + 2) && calByte c (off + 2) ≤ 7 && calU16 c (off + 4) ≤ 1439

/-- The month and day a season starts on, as one number that orders them. -/
def seasonKey (c : Calendar) (i : Nat) : Nat := calByte c (32 + 4 * i) * 32 + calByte c (33 + 4 * i)

/-- The used switch points of a day profile: minute and rate. -/
def switchPoints (c : Calendar) (day : Nat) : List (Nat × Nat) :=
  (List.range 12).filterMap fun i =>
    let o := 128 + 48 * day + 4 * i
    if calU16 c o ≠ 0xFFFF then some (calU16 c o, calByte c (o + 2)) else none

/-- Whether numbers rise strictly. -/
def strictlyRising : List Nat → Bool
  | a :: b :: r => a < b && strictlyRising (b :: r)
  | _ => true

/-- Whether a calendar passes every test of R199. -/
def calendarOk (c : Calendar) : Bool :=
  let counts := 1 ≤ calSeasons c && calSeasons c ≤ 8 && 1 ≤ calWeeks c && calWeeks c ≤ 8 && 1 ≤ calDays c &&
    calDays c ≤ 16 && calSpecials c ≤ 64
  let offsets := -720 ≤ calStd c && calStd c ≤ 840 && calDst c ≤ 120 && 1 ≤ calDefaultRate c && calDefaultRate c ≤ 8
  let dst := calDst c = 0 || (dstFieldOk c 20 && dstFieldOk c 26)
  let seasons := (List.range (calSeasons c)).all fun i =>
    let m := calByte c (32 + 4 * i)
    let d := calByte c (33 + 4 * i)
    1 ≤ m && m ≤ 12 && 1 ≤ d && d ≤ monthDays 2001 m && calByte c (34 + 4 * i) < calWeeks c
  let weeks := (List.range (calWeeks c)).all fun i => (List.range 7).all fun j => calByte c (64 + 8 * i + j) < calDays c
  let days := (List.range (calDays c)).all fun i =>
    let ps := switchPoints c i
    calU16 c (128 + 48 * i) = 0 && strictlyRising (ps.map (·.1)) &&
    ps.all fun p => p.1 ≤ 1439 && 1 ≤ p.2 && p.2 ≤ 8
  let specials := (List.range (calSpecials c)).all fun i =>
    let o := 896 + 8 * i
    let y := calU16 c o
    let m := calByte c (o + 2)
    let d := calByte c (o + 3)
    (y = 0 || (2000 ≤ y && y ≤ 2199)) && 1 ≤ m && m ≤ 12 && 1 ≤ d && d ≤ monthDays (if y = 0 then 2000 else y) m &&
    calByte c (o + 4) < calDays c
  let specialKeys := (List.range (calSpecials c)).map fun i =>
    (calU16 c (896 + 8 * i) * 16 + calByte c (898 + 8 * i)) * 32 + calByte c (899 + 8 * i)
  c.length = 353 && crc32 ((calBytes c).take 1408) = c.getD 352 0 && calId c ≠ 0 && counts && offsets && dst && seasons &&
  strictlyRising ((List.range (calSeasons c)).map (seasonKey c)) && weeks && days && specials &&
  decide specialKeys.Nodup

end Sys2Proof.Machine
end

