-- ==== Sys2Proof/Machine/Strata.lean ====
section
/-!
DEFINITION. Transactions of the ledger (R224 to R230, R259 to R263): building one, committing it to the journal, applying
its entries to the ledger image, its post-commit copies, compaction, bank and area failures, the formats of Strata with
their checksums (R224 to R231, R238), and the registers that follow a commit.
-/

namespace Sys2Proof

/-- The bytes of the STATE after-image (R225 gives their number only, as up to 1024). -/
opaque Config.stateBytes : Machine.LedState → List Byte

end Sys2Proof

namespace Sys2Proof.Machine

/-! ### Ledger images -/

/-- The default slot. -/
def slotZero (_ : Nat) : Slot := {}
def demZero (_ : Nat) : DemLast := {}
def maxZero (_ : Nat) : DemMax := {}

/-- INDEX of a slot entry (R225). -/
def slotIdx (o q t : Nat) : Nat := o * 0x200 + q * 0x10 + t

/-- Apply one entry's after-image to a ledger image (R225). Of the entries with a home
outside the base image only the marker of a snapshot leaves a trace in it. -/
def applyEntry (l : Ledger) : LEntry → Ledger
  | .slot i v => { l with slots := storeSet slotZero l.slots i v }
  | .demand i v => { l with dem := storeSet demZero l.dem i v }
  | .demandMax i v => { l with dmax := storeSet maxZero l.dmax i v }
  | .state v => { l with st := v }
  | .calendar 0 v => { l with act := v }
  | .calendar _ v => { l with psv := v }
  | .clearMax => { l with dmax := [] }
  | .loadProfile _ _ => l
  | .snapshot p v => { l with marks := (p, v.tseq) :: l.marks.filter fun (x : Nat × BitVec 32) => x.1 ≠ p }
  | .scale _ => l
  | .audit _ _ => l

/-- Replay the entries of a transaction (R234 step 4). -/
def applyTxn (l : Ledger) (t : Txn) : Ledger := t.entries.foldl applyEntry l

/-- Bytes of an entry's after-image (R225); the STATE entry's is bounded by 1024 and otherwise open. -/
def entryBytes : LEntry → Nat
  | .slot _ _ => 16
  | .demand _ _ => 12
  | .demandMax _ _ => 16
  | .state _ => min Config.stateEntryBytes 1024
  | .calendar _ (some _) => 1412
  | .calendar _ none => 0
  | .loadProfile _ _ => 64
  | .snapshot _ _ => 0
  | .clearMax => 0
  | .scale _ => 328
  | .audit _ _ => 64

/-- Journal blocks of a transaction with these entries: header, entries with their 6-byte heads, commit record (R224). -/
def blocksOf (es : List LEntry) : Nat := (32 + (es.map fun e => 6 + entryBytes e).sum + 16 + 511) / 512

/-- Whether two entries state the same target. -/
def sameTarget : LEntry → LEntry → Bool
  | .slot i _, .slot j _ => i = j
  | .demand i _, .demand j _ => i = j
  | .demandMax i _, .demandMax j _ => i = j
  | .state _, .state _ => true
  | .calendar i _, .calendar j _ => i = j
  | _, _ => false

/-- Entries an after-image of the same target later in the same transaction replaces; those before a SNAPSHOT or CLEAR_MAX
describe the state at the close and stay (R225, R235). -/
def supersede (e : LEntry) : List LEntry → List LEntry
  | [] => []
  | x :: xs =>
    let keep := xs.any fun y => match y with
      | .snapshot _ _ => true
      | .clearMax => true
      | _ => false
    if sameTarget e x && !keep then supersede e xs else x :: supersede e xs

/-! ### Building a transaction -/

/-- A transaction under construction: the image after its entries, the entries, the events it raises, whether a period
closed in it, and what an Audit Trail entry needs of the device. -/
structure Build where
  img : Ledger
  entries : List LEntry := []
  evs : List (Nat × Nat × List Byte) := []
  closed : Bool := false
  /-- billing closes since the tick or outage began (R463) -/
  closes : Nat := 0
  lock : Bool := false
  audSingle : Bool := false
  outage : Bool := false
  /-- ledger time has not been taken yet in this start, so that an entry's time stamp is 0 -/
  timeless : Bool := false
  uid : BitVec 64 := 0
  /-- the TSEQ fixed when the build began (R464) -/
  tseq : BitVec 32 := 0
deriving DecidableEq, Repr

/-- Add an entry and apply it. -/
def Build.add (b : Build) (e : LEntry) : Build :=
  { b with img := applyEntry b.img e, entries := supersede e b.entries ++ [e] }

/-- Change the STATE after-image without journalling it yet. -/
def Build.st (b : Build) (f : LedState → LedState) : Build := { b with img := { b.img with st := f b.img.st } }

/-- Raise an event with the transaction. -/
def Build.ev (b : Build) (code source : Nat) (payload : List Byte) : Build :=
  { b with evs := b.evs ++ [(code, source, payload)] }

/-- The ledger time stamp of an image (R183): 0 while time is invalid. -/
def stampOf (st : LedState) : Nat := if st.valid then st.time else 0

/-- Bytes 0 to 59 of an Audit Trail entry (R260). -/
def audBytes (e : AudEntry) : List Byte :=
  beBytes 4 e.aseq.toNat ++ beBytes 1 e.kind ++ beBytes 1 e.roles.toNat ++ beBytes 1 e.keys.toNat ++ beBytes 1 e.tsrc ++
  beBytes 8 e.time.toNat ++ beBytes 5 e.opsec ++ beBytes 1 e.flags.toNat ++ beBytes 4 e.pwrcyc ++ padTo 18 e.detail ++
  beBytes 16 e.chain.toNat

/-- C(0) of the chain (R261). -/
def chainZero (uid : BitVec 64) : BitVec 256 := Config.sha256 (beBytes 8 uid.toNat)

/-- C(n) from C(n − 1) and the entry (R261). -/
def chainNext (c : BitVec 256) (e : AudEntry) : BitVec 256 := Config.sha256 (beBytes 32 c.toNat ++ audBytes e)

/-- The chain head an image holds: C(0) before any entry (R263). -/
def chainHead (uid : BitVec 64) (st : LedState) : BitVec 256 := if st.aseq = 0 then chainZero uid else st.chain

/-- Add an Audit Trail entry (R259 to R261): the next ASEQ, the chain over every entry before it. -/
def Build.audit (b : Build) (kind : Nat) (roles keys : BitVec 8) (detail : List Byte) : Build :=
  let st := b.img.st
  let c := chainHead b.uid st
  let e : AudEntry := {
    aseq := st.aseq + 1, kind, roles, keys, tsrc := if b.timeless then 0 else st.tsrc
    time := BitVec.ofNat 64 (if b.timeless then 0 else stampOf st), opsec := st.opsec
    flags := (if b.lock then 1 else 0) ||| (if b.audSingle then 2 else 0) ||| (if b.outage then 4 else 0)
    pwrcyc := st.pwrcyc, detail := padTo 18 detail, chain := c.setWidth 128 }
  (b.add (.audit (e.aseq.toNat % 8192) e)).st fun st => { st with aseq := e.aseq, chain := chainNext c e }

/-- The transaction a build has come to, with its STATE entry last. -/
def Build.txn (b : Build) (kind : Nat) (act : TxnAct) : Txn :=
  let b := b.add (.state b.img.st)
  { kind, act, entries := b.entries, time := stampOf b.img.st, opsec := b.img.st.opsec, pwrcyc := b.img.st.pwrcyc,
    tseq := b.tseq }

/-- KEYS of an entry authorised by one key, or none (R260). -/
def keysOne (k : Nat) : BitVec 8 := BitVec.ofNat 8 (k * 16 + 15)
def keysNone : BitVec 8 := 0xFF

/-! ### Areas and banks (R220, R237, R239) -/

/-- The area a bank belongs to, as its bit number in STR_STATUS, and its copy (R220). -/
def areaOf (b : Nat) : Nat × Nat :=
  if b < 2 then (0, b) else if b < 8 then (1, (b - 2) / 3) else if b < 12 then (2, (b - 8) / 2)
  else if b < 14 then (3, b - 12) else (4, b - 14)

/-- Whether a copy of an area has failed: one of its banks has. -/
def copyFailed (st : Strata) (area copy : Nat) : Bool := st.failed.any fun b => areaOf b.val = (area, copy)

/-- Whether both copies of an area have failed (R239). -/
def areaDead (st : Strata) (area : Nat) : Bool := copyFailed st area 0 && copyFailed st area 1

/-- Whether an area runs on one copy (R237). -/
def areaSingle (st : Strata) (area : Nat) : Bool := copyFailed st area 0 != copyFailed st area 1

/-- Change every copy of an area that is in use (R227, R237). -/
def Strata.each (st : Strata) (area : Nat) (f : StrataCopy → StrataCopy) : Strata :=
  { st with
    copy0 := if copyFailed st area 0 then st.copy0 else f st.copy0
    copy1 := if copyFailed st area 1 then st.copy1 else f st.copy1 }

/-- The copies of an area in use, copy 0 first. -/
def Strata.copies (st : Strata) (area : Nat) : List StrataCopy :=
  (if copyFailed st area 0 then [] else [st.copy0]) ++ (if copyFailed st area 1 then [] else [st.copy1])

/-- The copy of an area that reads come from. -/
def Strata.side (st : Strata) (area : Nat) : StrataCopy := if copyFailed st area 0 then st.copy1 else st.copy0

/-- Items of an area by position: those of one copy, with what only the other copy holds. -/
def Strata.items {α : Type} (st : Strata) (area : Nat) (f : StrataCopy → List (Nat × α)) : List (Nat × α) :=
  let a := f (st.side area)
  if copyFailed st area 0 || copyFailed st area 1 then a
  else a ++ (f st.copy1).filter fun (x : Nat × α) => (a.lookup x.1).isNone

/-- The transactions since the current base (R232), the current base and its BASE_SEQ, and the rings of the other areas. -/
def Strata.journal (st : Strata) : List JTxn := (st.side 0).journal
def Strata.current (st : Strata) : Option BaseImage := if st.curB then (st.side 0).baseB else (st.side 0).baseA
def Strata.base (st : Strata) : Option Ledger := st.current.map fun b => b.img
def Strata.baseSeq (st : Strata) : BitVec 32 := st.current.elim 0 fun b => b.seq
def Strata.lp (st : Strata) : List (Nat × LpEntry) := st.items 2 fun c => c.lp
def Strata.recs (st : Strata) : List (Nat × Record) := st.items 3 fun c => c.recs
def Strata.aud (st : Strata) : List (Nat × AudEntry) := st.items 4 fun c => c.aud

/-! ### Formats and checksums (R184, R203, R207, R224 to R231, R238) -/

/-- LED_STAT of a slot. -/
def slotStat (x : Slot) : Nat := x.wrap.toNat * 2 ^ 24 + 2 ^ 23 + (if x.partialSeen then 2 ^ 22 else 0)

/-- The 16 bytes of a slot: LED_VAL, LED_STAT, LED_FRAC. -/
def slotBytes (x : Slot) : List Byte :=
  beBytes 8 x.val.toNat ++ beBytes 4 (slotStat x) ++ beBytes 4 (x.frac.toNat * 256)

/-- DEM_LAST_STAT of a demand channel. -/
def demStat (d : DemLast) : Nat :=
  let b (x : Bool) (n : Nat) : Nat := if x then 2 ^ n else 0
  b d.short 31 + b d.timeStep 30 + b d.outage 29 + b d.powerdown 28 + d.rate % 16

/-- The 12 bytes of a demand channel. -/
def demBytes (d : DemLast) : List Byte := beBytes 8 d.value.toNat ++ beBytes 4 (demStat d)

/-- The 16 bytes of a maximum. -/
def maxBytes (m : DemMax) : List Byte := beBytes 8 m.value.toNat ++ beBytes 8 m.time.toNat

/-- The 64 bytes of a load-profile entry (R207). -/
def lpBytes (e : LpEntry) : List Byte :=
  beBytes 4 e.seq.toNat ++ beBytes 1 e.owner ++ beBytes 1 e.flags.toNat ++ beBytes 1 e.rate ++ beBytes 1 e.tsrc ++
    beBytes 8 e.endTime.toNat ++ beBytes 5 e.opsec ++ beBytes 3 0 ++ beBytes 4 e.pwrcyc ++ beBytes 4 0 ++
    e.delta.flatMap fun (d : Nat) => beBytes 8 d

/-- The 64 bytes of an Audit Trail entry: a CRC-32 follows its 60 bytes. -/
def audEntryBytes (e : AudEntry) : List Byte := audBytes e ++ beBytes 4 (crc32 (audBytes e)).toNat

/-- Bytes 0 to 323 of the scale record (R230). -/
def scaleBytes (r : ScaleRec) : List Byte :=
  beBytes 1 r.format.toNat ++ beBytes 1 0 ++ beBytes 2 r.lanes ++ beBytes 8 r.time.toNat ++ beBytes 4 r.base.toNat ++
    beBytes 4 r.tseq.toNat ++ r.gc.flatMap fun (g : BitVec 32) => beBytes 4 g.toNat

/-- A scale record with its CRC. -/
def sealScale (r : ScaleRec) : ScaleRec := { r with crc := crc32 (scaleBytes r) }

/-- The slots of a snapshot record, in ascending INDEX order: the 2891 of a KB9616 cascade master (R229). -/
def snapSlots : List Nat :=
  let many (o q : Nat) (rated : Bool) : List Nat :=
    (List.range (if rated then 9 else 1)).map fun t => o * 0x200 + q * 0x10 + t
  let site : List Nat := [3, 7, 11, 15, 16, 17, 18, 19, 23, 27, 28]
  let bay (o : Nat) : List Nat := (List.range 29).flatMap fun q => many o q (q ∈ site)
  let stream (o : Nat) : List Nat := (List.range 16).flatMap fun q => many o q (q = 0 || q = 6)
  let sum (o : Nat) : List Nat := site.flatMap fun q => many o q true
  (List.range 16).flatMap bay ++ (List.range 4).flatMap (fun i => stream (16 + i)) ++
    (20 :: (List.range 8).map fun i => 24 + i).flatMap sum

/-- The demand channels of a snapshot record: 110 of R203. -/
def snapChannels : List Nat :=
  (List.range 21).flatMap fun o => (List.range (if 16 ≤ o && o < 20 then 2 else 6)).map fun c => o * 8 + c

/-- The 160 bytes of a demand channel in the form of its live window. -/
def channelBytes (dem : List (Nat × DemLast)) (dmax : List (Nat × DemMax)) (ch : Nat) : List Byte :=
  demBytes (storeGet demZero dem ch) ++ beBytes 4 0 ++
    (List.range 9).flatMap fun r => maxBytes (storeGet maxZero dmax (ch * 16 + r))

/-- Bytes 0 to 65 531 of a snapshot record (R229). -/
def snapBytes (r : SnapRec) : List Byte :=
  beBytes 4 r.tseq.toNat ++ beBytes 2 r.period.toNat ++ beBytes 1 r.cause.toNat ++ beBytes 1 0 ++
    beBytes 8 r.openTime.toNat ++ beBytes 8 r.closeTime.toNat ++ beBytes 5 r.opsec ++ beBytes 3 0 ++ beBytes 4 r.pwrcyc ++
    beBytes 4 r.length ++ snapSlots.flatMap (fun i => slotBytes (storeGet slotZero r.slots i)) ++
    snapChannels.flatMap (channelBytes r.dem r.dmax) ++ List.replicate 1636 0

/-- A snapshot record with its CRC. -/
def sealSnap (r : SnapRec) : SnapRec := { r with crc := crc32 (snapBytes r) }

/-- CLASS and INDEX of an entry, and the bytes of its after-image (R225). -/
def entryImage : LEntry → Nat × Nat × List Byte
  | .slot i v => (1, i, slotBytes v)
  | .demand i v => (2, i, demBytes v)
  | .demandMax i v => (3, i, maxBytes v)
  | .state v => (4, 0, padTo (min Config.stateEntryBytes 1024) (Config.stateBytes v))
  | .calendar w v => (5, w, (v.getD []).flatMap wordBytes)
  | .loadProfile p v => (6, p, lpBytes v)
  | .snapshot p _ => (7, p, [])
  | .clearMax => (8, 0, [])
  | .scale v => (9, 0, scaleBytes v ++ wordBytes v.crc)
  | .audit p v => (0xA, p, audEntryBytes v)

/-- An entry with its head. -/
def entryCoded (e : LEntry) : List Byte :=
  let x := entryImage e
  beBytes 1 x.1 ++ beBytes 1 0 ++ beBytes 2 x.2.1 ++ beBytes 2 x.2.2.length ++ x.2.2

/-- The header of a transaction (R224). -/
def txnHead (q : BitVec 32) (n : Nat) (t : Txn) : List Byte :=
  beBytes 1 t.kind ++ beBytes 1 0 ++ beBytes 2 n ++ beBytes 4 q.toNat ++ beBytes 8 t.time ++ beBytes 5 t.opsec ++
    beBytes 3 0 ++ beBytes 4 t.pwrcyc ++ beBytes 2 t.entries.length ++ beBytes 2 0

/-- BODY_CRC of a transaction: over every byte before its commit record (R226). -/
def bodyCrc (q : BitVec 32) (n : Nat) (t : Txn) : Word :=
  crc32 (padTo (n * 512 - 16) (txnHead q n t ++ t.entries.flatMap entryCoded))

/-- REC_CRC of a commit record. -/
def recCrc (q : BitVec 32) (n kind : Nat) (body : Word) : Word :=
  crc32 (beBytes 4 q.toNat ++ beBytes 2 n ++ beBytes 1 kind ++ beBytes 1 0 ++ wordBytes body)

/-- The commit record of a transaction. -/
def commitRec (q : BitVec 32) (n : Nat) (t : Txn) : CommitRec :=
  { tseq := q, blocks := n, kind := t.kind, bodyCrc := bodyCrc q n t, recCrc := recCrc q n t.kind (bodyCrc q n t) }

/-- Whether a transaction in a ring agrees with its commit record and passes both checksums (R234 step 3). -/
def JTxn.passes (j : JTxn) : Bool := j.record = some (commitRec j.tseq j.blocks j.txn)

/-- Bytes 0 to 59 of an area header (R238). -/
def headerBytes (h : AreaHeader) : List Byte :=
  beBytes 2 h.format.toNat ++ beBytes 1 h.copy ++ beBytes 1 h.partnerFailed.toNat ++ beBytes 8 h.uid.toNat ++
    List.replicate 48 0

/-- Whether the header of a copy passes on a device. -/
def headerPasses (uid : BitVec 64) (copy : Nat) (h : AreaHeader) : Bool :=
  h.format = 1 && h.copy = copy && h.uid = uid && h.crc = crc32 (headerBytes h)

/-- The state of a base image: one entry for every target that is not 0 (R231). -/
def ledgerEntries (l : Ledger) : List LEntry :=
  l.slots.map (fun (x : Nat × Slot) => .slot x.1 x.2) ++ l.dem.map (fun (x : Nat × DemLast) => .demand x.1 x.2) ++
    l.dmax.map (fun (x : Nat × DemMax) => .demandMax x.1 x.2) ++ (if l.st = {} && l.marks = [] then [] else [.state l.st]) ++
    (l.act.toList.map fun c => .calendar 0 (some c)) ++ l.psv.toList.map fun c => .calendar 1 (some c)

/-- The bytes of the state of a base image. -/
def baseState (l : Ledger) : List Byte := (ledgerEntries l).flatMap entryCoded

/-- CRC of a base image: bytes 0 to 59 of its header, then its state. -/
def baseCrc (b : BaseImage) : Word :=
  crc32 (beBytes 2 b.format.toNat ++ beBytes 2 0 ++ beBytes 4 b.seq.toNat ++ beBytes 8 b.time.toNat ++ beBytes 5 b.opsec ++
    beBytes 3 0 ++ beBytes 4 b.pwrcyc ++ beBytes 4 b.length ++ List.replicate 28 0 ++ baseState b.img)

/-- Whether a base image passes its tests at recovery (R234 step 2). -/
def BaseImage.passes (b : BaseImage) : Bool :=
  b.format = 1 && b.length ≤ 98240 && b.length = (baseState b.img).length && b.crc = baseCrc b

/-- The base image of a ledger state as at a TSEQ (R231). -/
def newBase (q : BitVec 32) (l : Ledger) : BaseImage :=
  let b : BaseImage := {
    seq := q, time := BitVec.ofNat 64 (stampOf l.st), opsec := l.st.opsec, pwrcyc := l.st.pwrcyc
    length := (baseState l).length, img := l }
  { b with crc := baseCrc b }

/-! ### Failures of banks (R222, R237) -/

/-- A single-bit error is corrected and counted (R39, R222). -/
def State.eccCorrected (s : State) : State := (s.count Fld.STR_ECC_CORR).count Fld.SYS_ESC_COUNT_CORRECTED

/-- The mark of a failure in the area header of the surviving ledger copy (R237 step 2). -/
def markPartner (st : Strata) (b : Nat) : Strata :=
  let mark (c : StrataCopy) : StrataCopy :=
    let h := { c.header with partnerFailed := 1 }
    { c with header := { h with crc := crc32 (headerBytes h) } }
  if b = 0 then { st with copy1 := if copyFailed st 0 1 then st.copy1 else mark st.copy1 }
  else if b = 1 then { st with copy0 := if copyFailed st 0 0 then st.copy0 else mark st.copy0 }
  else st

/-- Mark a bank failed (R237): FAILED, LAST_BANK, LAST_CAUSE, SINGLE and AREA_DEAD follow, an uncorrectable error counts,
and the modes of the recorder and of the Audit Trail follow theirs. -/
def State.markBank (s : State) (f : BankFail) : State :=
  let st := markPartner { s.str with failed := if f.bank ∈ s.str.failed then s.str.failed else s.str.failed ++ [f.bank] } f.bank.val
  let a := (areaOf f.bank.val).1
  let t := { s with str := st }
  let t := t.wr Fld.STR_BANKS_FAILED (t.rd Fld.STR_BANKS_FAILED ||| 2 ^ f.bank.val)
  let t := (t.wr Fld.STR_BANKS_LAST_BANK f.bank.val).wr Fld.STR_BANKS_LAST_CAUSE f.cause.toNat
  let t := if f.cause = 1 then t.count Fld.STR_ECC_UNCORR else t
  let t := t.wr Fld.STR_STATUS_SINGLE (((List.range 5).map fun i => if areaSingle st i then 2 ^ i else 0).sum)
  let t := t.wr Fld.STR_STATUS_AREA_DEAD (((List.range 5).map fun i => if areaDead st i then 2 ^ i else 0).sum)
  let mode := if areaDead st a then 2 else 1
  if a = 3 then t.wr Fld.REC_STATUS_MODE mode else if a = 4 then t.wr Fld.AUD_STATUS_MODE mode else t

/-! ### Registers that follow a commit (R194, R227) -/

/-- Bits of TAR_STATUS.OFFSET: signed minutes in 12 bits. -/
def State.refreshTariff (s : State) : State :=
  let l := s.led.live
  let t := s.wr Fld.TAR_ACT_ID_ID (l.act.elim 0 calId)
  let t := t.wr Fld.TAR_PSV_ID_ID (l.psv.elim 0 calId)
  let t := t.wrB Fld.TAR_STATUS_PSV_PENDING l.psv.isSome
  let t := t.wrB Fld.TAR_STATUS_DEFAULT (!l.st.valid)
  match l.act with
  | none => t
  | some c =>
    let x := tariffAt c l.st.time
    let t := t.wrB Fld.TAR_STATUS_DST (l.st.valid && inDst c (stdLocal c l.st.time))
    let t := t.wrB Fld.TAR_STATUS_SPECIAL (l.st.valid && x.special)
    let t := t.wr Fld.TAR_STATUS_SEASON (if l.st.valid then x.season else 0)
    let t := t.wr Fld.TAR_STATUS_WEEK (if l.st.valid then x.week else 0)
    let t := t.wr Fld.TAR_STATUS_DAY (if l.st.valid then x.day else 0)
    t.wrS Fld.TAR_STATUS_OFFSET (if l.st.valid then localOffset c l.st.time else calStd c)

/-- Set SYS_TIME.TIME_SRC; a change is an interrupt cause (R438). -/
def State.setTimeSrc (s : State) (v : Nat) : State :=
  let t := s.wr Fld.SYS_TIME_TIME_SRC v
  if s.rd Fld.SYS_TIME_TIME_SRC = v then t else t.irq Fld.SYS_IRQ_STAT_TIME

/-- AUD_HEAD takes the newest committed entry (R261, R263). -/
def State.refreshHead (s : State) : State :=
  let st := s.led.com.st
  (s.wr Fld.AUD_HEAD_ASEQ st.aseq.toNat).wr Fld.AUD_HEAD_CHAIN (chainHead s.fuses.uid st).toNat

/-- The registers of the ledger, the Audit Trail and the authorities, the generations and the twin's identity take their values
from the live image (R194, R218, R263, R269, R273, R372, R396). -/
def State.refresh (s : State) : State :=
  let st := s.led.live.st
  let t := s.wr Fld.LED_TIME_TIME (stampOf st)
  let t := t.wr Fld.LED_LAST_CLOSED_TIME st.lastClosed
  let t := t.wrB Fld.LED_STATUS_STEP_HELD st.stepHeld.isSome
  let t := t.wrS Fld.LED_STEP_STEP (st.stepHeld.getD 0)
  let t := t.wr Fld.LED_STATUS_RATE st.rate
  let t := (t.wr Fld.LED_BP_STAT_CAUSE st.cause.toNat).wr Fld.LED_BP_STAT_PERIOD st.period.toNat
  let t := t.wr Fld.LED_LP_STAT_NEWEST st.lpSeq.toNat
  let t := (t.wr Fld.DEM_STATUS_SEQ st.demSeq.toNat).wr Fld.DEM_STATUS_ELAPSED st.dem.elapsed
  let t := t.wr Fld.SYS_PWRCYC_CYCLES st.pwrcyc
  let t := (t.wr Fld.AUD_HEAD_ASEQ st.aseq.toNat).wr Fld.AUD_HEAD_CHAIN (chainHead s.fuses.uid st).toNat
  let t := t.wr Fld.REC_CLEARED_THROUGH st.recThrough.toNat
  let t := t.wr Fld.SEC_HMAC_GEN st.hmacGen
  let t := (t.wr Fld.CFG_ACTIVE_GEN st.imageGen).wr Fld.CFG_FLOOR_GEN st.genFloor
  let t := t.wr Fld.TWN_PEER_UID_UID (st.twinUid.getD 0).toNat
  let t := (List.range 8).foldl (fun t k => t.wr (Fld.SEC_AUTH_CNT_COUNTER k) (storeGet (fun _ => 0) st.authCnt k).toNat) t
  (t.setTimeSrc (if s.led.timeTaken then st.tsrc else 0)).refreshTariff

/-- AUD_ANCHOR follows the oldest retained entry; before an overwrite it is ASEQ 1 with C(0) (R263). -/
def State.refreshAnchor (s : State) : State :=
  let a := s.str.anchor.getD (1, chainZero s.fuses.uid)
  (s.wr Fld.AUD_ANCHOR_ASEQ a.1.toNat).wr Fld.AUD_ANCHOR_CHAIN a.2.toNat

/-! ### The journal (R224 to R228) -/

/-- Journal blocks in use. -/
def journalUsed (st : Strata) : Nat := (st.journal.map fun j => j.blocks + j.pad).sum

/-- STR_JOURNAL follows the journal. -/
def State.refreshJournal (s : State) : State :=
  let u := journalUsed s.str
  let t := s.wr Fld.STR_JOURNAL_USED u
  t.wr Fld.STR_JOURNAL_HIGH (max u (s.rd Fld.STR_JOURNAL_HIGH))

/-- Whether an entry has a home outside the base images and is copied there after the commit (R228). -/
def needsCopy : LEntry → Bool
  | .loadProfile _ _ => true
  | .scale _ => true
  | .audit _ _ => true
  | .snapshot _ _ => true
  | _ => false

/-- An entry in a transaction of a TSEQ: its snapshot or scale record carries it, under its CRC (R229, R230, R464). -/
def withTseq (q : BitVec 32) : LEntry → LEntry
  | .snapshot p v => .snapshot p (sealSnap { v with tseq := q })
  | .scale v => .scale (sealScale { v with tseq := q })
  | e => e

/-- A transaction under a TSEQ. -/
def Txn.number (t : Txn) (q : BitVec 32) : Txn := { t with tseq := q, entries := t.entries.map (withTseq q) }

/-- The transactions that wait, their TSEQ following the last committed one: when one is discarded, the next built takes
its TSEQ (R464). -/
def State.renumber (s : State) (ts : List Txn) : List Txn :=
  ts.zipIdx.map fun (x : Txn × Nat) => x.1.number (s.str.tseq + 1 + BitVec.ofNat 32 x.2)

/-- An entry of a transaction that follows another image than the one it was built on: its Audit Trail entries continue that
image's sequence and chain, and its state keeps the lock state `lock` (R261, R294). The image is carried on. -/
def rebaseEntry (uid : BitVec 64) (lock : Bool) (a : Ledger × List LEntry) (e : LEntry) : Ledger × List LEntry :=
  let st := a.1.st
  let c := chainHead uid st
  let e' : LEntry := match e with
    | .audit _ v =>
      let v := { v with aseq := st.aseq + 1, chain := c.setWidth 128 }
      .audit (v.aseq.toNat % 8192) v
    | .state x => .state { x with aseq := st.aseq, chain := st.chain, lockFlag := lock }
    | e => e
  let l := applyEntry a.1 e'
  let l := match e' with
    | .audit _ v => { l with st := { l.st with aseq := v.aseq, chain := chainNext c v } }
    | _ => l
  (l, a.2 ++ [e'])

/-- A transaction that follows another image than the one it was built on. -/
def rebaseTxn (uid : BitVec 64) (l : Ledger) (t : Txn) : Ledger × Txn :=
  let r := t.entries.foldl (rebaseEntry uid (t.act = .lockEngage || l.st.lockFlag)) (l, [])
  (r.1, { t with entries := r.2 })

/-- Transactions that wait behind an image, each built anew on the one before it. -/
def rebaseTxns (uid : BitVec 64) (l : Ledger) : List Txn → List Txn
  | [] => []
  | t :: ts => let r := rebaseTxn uid l t; r.2 :: rebaseTxns uid r.1 ts

/-- The queue becomes a list of transactions built on the committed image. -/
def State.setQueue (s : State) (ts : List Txn) : State :=
  { s with led := { s.led with queue := s.renumber (rebaseTxns s.fuses.uid s.led.com ts) } }

/-- Queue transactions for their commits. -/
def State.enqueue (s : State) (ts : List Txn) : State :=
  { s with led := { s.led with queue := s.renumber (s.led.queue ++ ts) } }

/-- Whether a snapshot copy is pending (R228). -/
def snapPending (cs : List CopyJob) : Bool := cs.any fun c => match c.entry with
  | .snapshot _ _ => true
  | _ => false

/-- The base that compaction is writing is not whole: its slot holds no valid image (R232, R233). -/
def Strata.openBase (st : Strata) : Strata :=
  st.each 0 fun c => if st.curB then { c with baseA := none } else { c with baseB := none }

/-- Start compaction when 32 transactions have committed since the base or more than 312 blocks are in use (R232); not
while a snapshot copy is pending, after a freeze, or from a power-fail warning (R233). -/
def State.maybeCompact (s : State) : State :=
  if s.led.compacting.isNone && !snapPending s.led.copies && !s.led.frozen && !s.core.warned &&
      (32 ≤ s.str.journal.length || 312 < journalUsed s.str) then
    { s with str := s.str.openBase, led := { s.led with compacting := some (s.str.tseq, s.led.com) } }.wrB
      Fld.STR_STATUS_COMPACTING true
  else s

/-- A transaction as the ring takes it: the next TSEQ, its blocks after the last transaction, with a PAD at the end of the
ring, and its commit record (R226, R464). -/
def Strata.place (st : Strata) (t : Txn) : JTxn :=
  let q := st.tseq + 1
  let t := t.number q
  let n := blocksOf t.entries
  let fits := st.nextBlock + n ≤ 624
  { tseq := q, txn := t, blocks := n, pad := if fits then 0 else 624 - st.nextBlock
    block := if fits then st.nextBlock else 0, record := some (commitRec q n t) }

/-- The freed transactions that writing another one's blocks leaves whole. -/
def keepFreed (j : JTxn) (old : List JTxn) : List JTxn :=
  old.filter fun (x : JTxn) => x.block + x.blocks ≤ j.block || j.block + j.blocks ≤ x.block

/-- Write a transaction into a copy of the ring. -/
def StrataCopy.append (c : StrataCopy) (j : JTxn) : StrataCopy :=
  { c with freed := keepFreed j c.freed, journal := c.journal ++ [j] }

/-- A transaction in every copy of the journal in use (R227). -/
def Strata.commit (st : Strata) (j : JTxn) : Strata :=
  { (st.each 0 fun c => c.append j) with tseq := j.tseq, nextBlock := (j.block + j.blocks) % 624 }

/-- Commit a transaction (R226, R227): it takes the next TSEQ and its blocks of the journal ring; its entries become the
committed image; entries with a home are queued for copying (R228). -/
def State.commitTxn (s : State) (us : Nat) (t : Txn) : State :=
  let j := s.str.place t
  let jobs := (j.txn.entries.filter needsCopy).map fun e => ({ tseq := j.tseq, entry := e } : CopyJob)
  let u := { s with
    str := s.str.commit j
    led := { s.led with com := applyTxn s.led.com j.txn, copies := s.led.copies ++ jobs, firstCommit := true } }
  let u := u.wr Fld.STR_TSEQ_TSEQ j.tseq.toNat
  let u := u.wr Fld.STR_COMMIT_LAST us
  let u := u.wr Fld.STR_COMMIT_MAX (max (us % 2 ^ 16) (s.rd Fld.STR_COMMIT_MAX))
  let u := u.wrB Fld.STR_STATUS_SNAP_PENDING (snapPending u.led.copies)
  u.refreshJournal.maybeCompact

/-- Put an item at a position of a ring. -/
def atPos {α : Type} (m : List (Nat × α)) (p : Nat) (v : α) : List (Nat × α) :=
  (m.filter fun (x : Nat × α) => x.1 ≠ p) ++ [(p, v)]

/-- Carry a copy to its home area (R228): load-profile ring, Audit Trail ring, scale record, snapshot record, in every copy
of the area in use. A dead area keeps nothing (R239). -/
def copyHome (uid : BitVec 64) (st : Strata) (e : LEntry) : Strata :=
  match e with
  | .loadProfile p v => st.each 2 fun c => { c with lp := atPos c.lp p v }
  | .audit p v =>
    if areaDead st 4 then st
    else
      let old := st.aud.lookup p
      let anchor := match old with
        | none => st.anchor
        | some o =>
          if o.aseq = v.aseq then st.anchor
          else some (o.aseq + 1, chainNext (st.anchor.elim (chainZero uid) (·.2)) o)
      { (st.each 4 fun c => { c with aud := atPos c.aud p v }) with anchor }
  | .scale v => st.each 0 fun c => { c with scale := some v }
  | .snapshot p v => st.each 1 fun c => { c with snaps := atPos c.snaps p v }
  | _ => st

/-! ### Snapshots (R210, R229) -/

/-- The complete snapshot record at a position: its CRC passes in a copy, and its TSEQ is its marker's. -/
def State.snapAt (s : State) (p : Nat) : Option SnapRec :=
  (s.str.copies 1).findSome? fun c => (c.snaps.lookup p).filter fun (r : SnapRec) =>
    s.led.com.marks.lookup p = some r.tseq && r.crc = crc32 (snapBytes r)

/-- Snapshot k: counted from the position of the latest complete record. -/
def State.snapshot (s : State) (k : Nat) : Option SnapRec :=
  let back (i : Nat) : Nat := (s.led.com.st.snapPos + 48 - i) % 24
  if 24 ≤ k then none
  else ((List.range 24).find? fun i => (s.snapAt (back i)).isSome).bind fun i => s.snapAt (back (i + k))

/-- The snapshot selected. -/
def State.snapSel (s : State) : Option SnapRec := s.snapshot (s.rd Fld.LED_SNAP_SEL_K)

/-! ### Recovery (R234) -/

/-- The base image in one of the two slots that passes in a copy. -/
def Strata.baseIn (st : Strata) (b : Bool) : Option BaseImage :=
  (st.copies 0).findSome? fun c => (if b then c.baseB else c.baseA).filter BaseImage.passes

/-- Whether a sequence number comes after another, modulo 2^32. -/
def seqAfter (a b : BitVec 32) : Bool := a ≠ b && !(a - b).msb

/-- The base with the highest BASE_SEQ that passes (step 2). -/
def Strata.select (st : Strata) : Option (Bool × BaseImage) :=
  match st.baseIn false, st.baseIn true with
  | some a, some b => some (if seqAfter b.seq a.seq then (true, b) else (false, a))
  | some a, none => some (false, a)
  | none, some b => some (true, b)
  | none, none => none

/-- Whether a newer base was rejected. -/
def Strata.newerRejected (st : Strata) (x : Bool × BaseImage) : Bool :=
  (st.copies 0).any fun c => (if x.1 then c.baseA else c.baseB).any fun (b : BaseImage) => seqAfter b.seq x.2.seq

/-- Every transaction a copy of the ring holds. -/
def StrataCopy.ring (c : StrataCopy) : List JTxn := c.freed ++ c.journal

/-- The transaction of a TSEQ that passes in a copy. -/
def Strata.accepts (st : Strata) (q : BitVec 32) : Option JTxn :=
  (st.copies 0).findSome? fun c => c.ring.find? fun (j : JTxn) => j.tseq = q && j.passes

/-- The scan of the journal after a TSEQ: at most the 624 blocks of the ring (step 3). -/
def Strata.scan (st : Strata) : Nat → BitVec 32 → List JTxn
  | 0, _ => []
  | n + 1, q =>
    match st.accepts (q + 1) with
    | none => []
    | some j => j :: st.scan n (q + 1)

/-- The transactions recovery accepts after a base. -/
def Strata.accepted (st : Strata) (b : BaseImage) : List JTxn := st.scan 624 b.seq

/-- The TSEQ of the last transaction accepted. -/
def lastSeq (b : BaseImage) (acc : List JTxn) : BitVec 32 := acc.getLast?.elim b.seq fun j => j.tseq

/-- The transactions met that are newer than the last accepted one: discarded. -/
def Strata.discarded (st : Strata) (last : BitVec 32) : Nat :=
  (((st.copies 0).flatMap fun c => c.ring.filter fun (j : JTxn) => seqAfter j.tseq last).map fun (j : JTxn) =>
    (j.tseq, j.block)).dedup.length

/-- A copy as recovery leaves it: the base selected and every accepted transaction whole. -/
def StrataCopy.repair (c : StrataCopy) (x : Bool × BaseImage) (acc : List JTxn) : StrataCopy :=
  let rest := c.ring.filter fun (j : JTxn) => acc.all fun (a : JTxn) => a.tseq ≠ j.tseq
  let c := { c with journal := acc, freed := rest }
  if x.1 then { c with baseB := some x.2 } else { c with baseA := some x.2 }

/-- Whether a copy differs from what recovery accepts. -/
def StrataCopy.differs (c : StrataCopy) (x : Bool × BaseImage) (acc : List JTxn) : Bool :=
  (if x.1 then c.baseB else c.baseA) ≠ some x.2 || acc.any fun (a : JTxn) => a ∉ c.ring

/-- Strata after the scan and the repair of its copies (step 4). -/
def Strata.recovered (st : Strata) (x : Bool × BaseImage) (acc : List JTxn) : Strata :=
  { (st.each 0 fun c => c.repair x acc) with
    curB := x.1, tseq := lastSeq x.2 acc
    nextBlock := acc.getLast?.elim st.nextBlock fun (j : JTxn) => (j.block + j.blocks) % 624 }

/-- RESULT of STR_RECOVERY. -/
def Strata.recoveryResult (st : Strata) (x : Bool × BaseImage) (acc : List JTxn) : Nat :=
  if st.newerRejected x then 3 else if (st.copies 0).any fun c => c.differs x acc then 2 else 1

/-! ### What a loss of power leaves (R227, R251, R252) -/

/-- A write that power loss, or another core reset, cuts short: 0 nothing of it stands, 1 its first part without what makes
it valid, 2 it is whole in the first copy in use only, 3 it is whole in every copy. -/
def Strata.cutCommit (st : Strata) (stage : Fin 4) (t : Txn) : Strata :=
  let j := st.place t
  let bare (c : StrataCopy) : StrataCopy :=
    { c with freed := keepFreed j c.freed ++ [{ j with record := none }] }
  match stage with
  | 0 => st
  | 1 => st.each 0 bare
  | 2 =>
    let u := st.each 0 bare
    if copyFailed st 0 0 then { u with copy1 := st.copy1.append j } else { u with copy0 := st.copy0.append j }
  | 3 => st.each 0 fun c => c.append j

/-- A record of the Quality Recorder whose write is cut short: a copy in which it is torn holds nothing at its position. -/
def Strata.cutRecord (st : Strata) (stage : Fin 4) (r : Record) : Strata :=
  let p := r.rseq.toNat % 2048
  let torn (c : StrataCopy) : StrataCopy := { c with recs := c.recs.filter fun (x : Nat × Record) => x.1 ≠ p }
  let whole (c : StrataCopy) : StrataCopy := { c with recs := atPos c.recs p r }
  match stage with
  | 0 => st
  | 1 => st.each 3 torn
  | 2 =>
    let u := st.each 3 torn
    if copyFailed st 3 0 then { u with copy1 := whole st.copy1 } else { u with copy0 := whole st.copy0 }
  | 3 => st.each 3 whole

/-- Strata as a core reset leaves it: a commit that had begun, a record being written, each cut at a point left open. A
base being written by compaction has no header already, and a post-commit copy is redone at recovery (R228, R233). -/
def State.strCut (s : State) : Strata :=
  let st := match s.led.queue with
    | [] => s.str
    | t :: _ =>
      if !s.led.recovered || areaDead s.str 0 || (snapPending s.led.copies && t.act ≠ .final) then s.str
      else s.str.cutCommit (Config.cut s.free 0) t
  match s.rcd.writing with
  | none => st
  | some r => if areaDead st 3 then st else st.cutRecord (Config.cut s.free 1) r

end Sys2Proof.Machine
end

