-- ==== Sys2Proof/Machine/Ledger.lean ====
section
/-!
DEFINITION. The ledger's processing (R189 to R217, R462, R463): folding quanta, demand and load-profile intervals, the
billing close, tariff activation, time steps, outages, and the transactions a tick forms.
-/

namespace Sys2Proof.Machine

/-! ### Owners and quantities (R185 to R188) -/

/-- Whether a bay is present on the part (R1). -/
def State.bayPresent (s : State) (n : Nat) : Bool := n < (if s.fuses.kb9608 then 8 else 16)

/-- Whether a stream is present on the part (R1). -/
def State.streamPresent (s : State) (n : Nat) : Bool := n < (if s.fuses.kb9608 then 2 else 4)

/-- Whether a bay is enabled. -/
def State.bayOn (s : State) (n : Nat) : Bool := s.bayPresent n && s.flag (Fld.BAY_CFG_ENABLE n)

/-- Whether a stream is enabled. -/
def State.streamOn (s : State) (n : Nat) : Bool := s.streamPresent n && s.flag (Fld.MT_PS_CFG_ENABLE n)

/-- Whether the device is a cascade master (R217): CSC_CFG.ENABLE with the CSC_ROLE strap at master. -/
def State.isMaster (s : State) : Bool := s.flag Fld.CSC_CFG_ENABLE && s.flag Fld.CSC_STATUS_ROLE

/-- Whether an owner exists on the device (R185, R188). -/
def State.ownerExists (s : State) (o : Nat) : Bool :=
  if o < 16 then s.bayPresent o
  else if o < 20 then s.streamPresent (o - 16)
  else if o = 20 then s.isMaster
  else 24 ≤ o && o < 32 && s.isMaster

/-- The quantities of the site and contribution owners, in the order their deltas are carried (R186, R367). -/
def siteQuantities : List Nat := [3, 7, 11, 15, 16, 17, 18, 19, 23, 27, 28]

/-- Whether a bay quantity exists also for rates 1 to 8 (R186). -/
def bayRated (q : Nat) : Bool := q ∈ siteQuantities

/-- Whether a stream quantity exists also for rates 1 to 8 (R187). -/
def streamRated (q : Nat) : Bool := q = 0 || q = 6

/-- Whether a slot exists (R186 to R188). -/
def State.slotExists (s : State) (o q t : Nat) : Bool :=
  s.ownerExists o && t ≤ 8 &&
  (if o < 16 then q ≤ 28 && (t = 0 || bayRated q)
   else if o < 20 then q ≤ 15 && (t = 0 || streamRated q)
   else bayRated q)

/-- The owners whose load profile is recorded: enabled bays, enabled streams and the master's site (R207). -/
def State.lpOwners (s : State) : List Nat :=
  (List.range 21).filter fun o =>
    if o < 16 then s.bayOn o else if o < 20 then s.streamOn (o - 16) else s.isMaster

/-- The demand channels of R203: owner, channel and the quantity whose all-rate register they follow. -/
def State.channels (s : State) : List (Nat × Nat × Nat) :=
  (List.range 21).flatMap fun o =>
    if !s.ownerExists o then []
    else if 16 ≤ o && o < 20 then [(o, 0, 0), (o, 1, 6)]
    else [(o, 0, 3), (o, 1, 7), (o, 2, 11), (o, 3, 15), (o, 4, 23), (o, 5, 27)]

/-- The four registers whose increments a load-profile entry carries (R207). -/
def lpQuantities (o : Nat) : List Nat := if 16 ≤ o && o < 20 then [0, 1, 6, 7] else [3, 7, 11, 15]

/-! ### Folding (R189, R190) -/

/-- The fold of one Q40.24 field into a slot (R189). -/
def foldSlot (v : Slot) (x : Int) : Slot :=
  let m := x.natAbs
  let f := v.frac.toNat + m % 2 ^ 24
  let add := m / 2 ^ 24 + f / 2 ^ 24
  { v with
    frac := BitVec.ofNat 24 f
    wrap := if v.val.toNat + add < 2 ^ 64 then v.wrap else v.wrap + 1
    val := BitVec.ofNat 64 (v.val.toNat + add) }

/-- Fold a field into the all-rate register and, where the quantity is rated, the register of the rate in force. A field
of 0 allocates nothing. -/
def foldInto (slots : List (Nat × Slot)) (o q rate : Nat) (rated : Bool) (x : Int) : List (Nat × Slot) :=
  if x = 0 then slots
  else
    let put (m : List (Nat × Slot)) (t : Nat) : List (Nat × Slot) :=
      storeSet slotZero m (slotIdx o q t) (foldSlot (storeGet slotZero m (slotIdx o q t)) x)
    if rated && 1 ≤ rate && rate ≤ 8 then put (put slots 0) rate else put slots 0

/-- The register a signed field goes to: `pos` for a positive value, `neg` for a negative one (R190). -/
def bySign (pos neg : Nat) (x : Int) : Nat := if x < 0 then neg else pos

/-- Fold the elements and the total of one kind of bay field: element p to `pos + p` or `neg + p`, the total rated. -/
def foldElements (slots : List (Nat × Slot)) (o rate pos neg : Nat) (xs : List Int) : List (Nat × Slot) :=
  xs.zipIdx.foldl (fun m (x, p) => foldInto m o (bySign (pos + p) (neg + p) x) rate (p = 3) x) slots

/-- Fold a quantum under a rate (R189, R190). -/
def foldQuantum (slots : List (Nat × Slot)) (rate : Nat) (k : Quantum) : List (Nat × Slot) :=
  if k.owner < 16 then
    let m := foldElements slots k.owner rate 0 4 k.w
    let m := foldElements m k.owner rate 8 12 k.var
    let tot := k.var.getD 3 0
    let m := if k.quad = 0 then m
      else foldInto (foldInto m k.owner (15 + k.quad) rate true tot) k.owner 28 rate true tot
    foldElements m k.owner rate 20 24 k.va
  else
    let off := if k.subst then 8 else 0
    let put (m : List (Nat × Slot)) (pos neg : Nat) (x : Int) : List (Nat × Slot) :=
      let q := bySign pos neg x
      foldInto m k.owner (q + off) rate (!k.subst && streamRated q) x
    put (put (put (put slots 0 1 k.mass) 2 3 (k.vol * 1000)) 4 5 (k.voln * 1000)) 6 7 k.energy

/-- Fold a member's contribution into its own owner and the site (R217). -/
def foldSite (slots : List (Nat × Slot)) (d : SiteDelta) : List (Nat × Slot) :=
  (siteQuantities.zip d.delta).foldl (fun m (q, v) =>
    let x : Int := v.toNat * 2 ^ 24
    foldInto (foldInto m (24 + d.pos) q d.rate true x) 20 q d.rate true x) slots

/-- The increment of a register between two slot stores, modulo 2^64 (R191). -/
def increment (a b : List (Nat × Slot)) (o q : Nat) : Nat :=
  ((storeGet slotZero b (slotIdx o q 0)).val - (storeGet slotZero a (slotIdx o q 0)).val).toNat

/-- Add the increments of the all-rate registers to the demand interval and to the load-profile interval. -/
def State.creditIntervals (s : State) (a b : List (Nat × Slot)) (st : LedState) : LedState :=
  let en := s.channels.foldl (fun m (o, c, q) =>
    storeSet zeroAt m (o * 8 + c) (storeGet zeroAt m (o * 8 + c) + increment a b o q)) st.dem.energy
  let lp := s.lpOwners.foldl (fun m o => (lpQuantities o).zipIdx.foldl (fun m (q, i) =>
    storeSet zeroAt m (o * 4 + i) (storeGet zeroAt m (o * 4 + i) + increment a b o q)) m) st.lp.delta
  { st with dem := { st.dem with energy := en }, lp := { st.lp with delta := lp } }

/-- The default of flag bytes. -/
def flagsZero (_ : Nat) : BitVec 8 := 0

/-- The load-profile flags a quantum carries: DEGRADED, PROVISIONAL, SUBST (R207). -/
def quantumFlags (k : Quantum) : BitVec 8 :=
  (if k.degraded then 0x10 else 0) ||| (if k.provisional then 0x20 else 0) ||| (if k.subst then 0x40 else 0)

/-- The load-profile flags a contribution gives the site: DEGRADED and PROVISIONAL of its FLAGS (R207, R367). -/
def siteFlags (d : SiteDelta) : BitVec 8 :=
  (if d.flags.getLsbD 0 then 0x10 else 0) ||| (if d.flags.getLsbD 1 then 0x20 else 0)

/-- Journal every slot that differs from an earlier store. -/
def Build.addSlots (b : Build) (slots : List (Nat × Slot)) : Build :=
  let old := b.img.slots
  (slots.filter fun p => storeGet slotZero old p.1 ≠ p.2).foldl (fun b p => b.add (.slot p.1 p.2)) b

/-- What the ledger state keeps of a contribution: the position's UID and its last TOTAL folded (R368). -/
def keepSite (st : LedState) (d : SiteDelta) : LedState :=
  match d.uid, d.total with
  | some u, some t => { st with
      siteUid := (d.pos, u) :: st.siteUid.filter fun x => x.1 ≠ d.pos
      siteTotals := (d.pos, t) :: st.siteTotals.filter fun x => x.1 ≠ d.pos }
  | _, _ => st

/-- Step 1 of R193: fold quanta and contributions under the rate in force, crediting the intervals in progress. -/
def State.foldStep (s : State) (b : Build) (ks : List Quantum) (site : List SiteDelta) : Build :=
  let st := b.img.st
  let old := b.img.slots
  let slots := site.foldl foldSite (ks.foldl (fun m k => foldQuantum m st.rate k) old)
  let b := b.addSlots slots
  let put (m : List (Nat × BitVec 8)) (o : Nat) (f : BitVec 8) : List (Nat × BitVec 8) :=
    storeSet flagsZero m o (storeGet flagsZero m o ||| f)
  let fl := ks.foldl (fun m (k : Quantum) => put m k.owner (quantumFlags k)) st.lp.flags
  let fl := site.foldl (fun m (d : SiteDelta) => put m 20 (siteFlags d)) fl
  b.st fun st =>
    let st := s.creditIntervals old slots st
    site.foldl keepSite { st with lp := { st.lp with flags := fl } }

/-! ### Intervals (R203 to R208) -/

/-- Minutes of a coded interval length (LED_LP_CFG.LENGTH); 0 for the reserved code, which the loader refuses (R219). -/
def lengthMinutes (code : Nat) : Nat := [1, 5, 10, 15, 20, 30, 60, 0].getD code 0

/-- The settings intervals and closes run under: DEM_CFG, LED_LP_CFG, LED_BP_CFG. -/
structure LedCfg where
  dem : Word
  lp : Word
  bp : Word
deriving DecidableEq, Repr

def LedCfg.subMin (c : LedCfg) : Nat := lengthMinutes (bitsOf c.dem.toNat 0 3)
def LedCfg.sliding (c : LedCfg) : Bool := c.dem.msb
def LedCfg.subs (c : LedCfg) : Nat := if c.sliding then bitsOf c.dem.toNat 4 4 else 1
def LedCfg.lpOn (c : LedCfg) : Bool := c.lp.msb
def LedCfg.lpMin (c : LedCfg) : Nat := lengthMinutes (bitsOf c.lp.toNat 0 3)
def LedCfg.monthly (c : LedCfg) : Bool := bitsOf c.bp.toNat 30 2 = 1
def LedCfg.closeOnAct (c : LedCfg) : Bool := c.bp.getLsbD 29
def LedCfg.day (c : LedCfg) : Nat := bitsOf c.bp.toNat 16 5
def LedCfg.hour (c : LedCfg) : Nat := bitsOf c.bp.toNat 11 5
def LedCfg.minute (c : LedCfg) : Nat := bitsOf c.bp.toNat 5 5

/-- The settings in the registers. -/
def State.ledCfg (s : State) : LedCfg := ⟨s.word Adr.DEM_CFG, s.word Adr.LED_LP_CFG, s.word Adr.LED_BP_CFG⟩

/-- Flags of a boundary being processed. -/
structure BFlags where
  short : Bool := false
  timeStep : Bool := false
  outage : Bool := false
  powerdown : Bool := false
deriving DecidableEq, Repr

/-- Close the demand sub-interval (R203 to R206): LAST and the maxima of every channel, and the sliding window. -/
def State.closeDemand (s : State) (c : LedCfg) (b : Build) (stamp : Nat) (f : BFlags) : Build :=
  let d := b.img.st.dem
  let past := d.past.take (c.subs - 1)
  let full := past.length + 1 = c.subs
  let rate := (past.getLast?.elim d.rate (·.rate))
  let nominal := c.subs * c.subMin
  let short := d.short || f.short
  let one (b : Build) (ch : Nat × Nat × Nat) : Build :=
    let i := ch.1 * 8 + ch.2.1
    let e := storeGet zeroAt d.energy i + (past.map fun p => storeGet zeroAt p.energy i).sum
    let v : BitVec 64 := BitVec.ofNat 64 (if nominal = 0 then 0 else e * 60 / nominal)
    let last : DemLast := {
      value := v, short := short || !full, timeStep := f.timeStep
      outage := d.outage || f.outage || past.any (·.outage)
      powerdown := d.powerdown || f.powerdown, rate }
    let enter (b : Build) (r : Nat) : Build :=
      let k := i * 16 + r
      let m := storeGet maxZero b.img.dmax k
      if m.value.toNat < v.toNat then b.add (.demandMax k { value := v, time := BitVec.ofNat 64 stamp }) else b
    let b := enter (b.add (.demand i last)) 0
    if rate = 0 then b else enter b rate
  let b := s.channels.foldl one b
  b.st fun st => { st with
    demSeq := st.demSeq + 1
    dem := { st.dem with past :=
      if short then []
      else ({ energy := d.energy, rate := d.rate, outage := d.outage || f.outage } :: d.past).take (c.subs - 1) } }

/-- Open a demand sub-interval under the rate in force. -/
def openDemand (b : Build) (short : Bool) : Build :=
  b.st fun st => { st with dem := { past := st.dem.past, rate := st.rate, short } }

/-- Close the load-profile interval: one entry for every owner recorded (R207). -/
def State.closeLp (s : State) (b : Build) (stamp : Nat) (f : BFlags) (gap : Bool) : Build :=
  let l := b.img.st.lp
  let one (b : Build) (o : Nat) : Build :=
    let st := b.img.st
    let fl : BitVec 8 := (if l.short || f.short then 1 else 0) ||| (if f.timeStep then 2 else 0) |||
      (if l.outage || f.outage then 4 else 0) ||| (if l.powerdown || f.powerdown then 8 else 0) |||
      storeGet flagsZero l.flags o ||| (if gap then 0x80 else 0)
    let e : LpEntry := {
      seq := st.lpSeq + 1, owner := o, flags := fl, rate := st.rate, tsrc := st.tsrc, endTime := BitVec.ofNat 64 stamp
      opsec := st.opsec, pwrcyc := st.pwrcyc
      delta := (List.range 4).map fun i => storeGet zeroAt l.delta (o * 4 + i) % 2 ^ 64 }
    (b.add (.loadProfile st.lpPos e)).st fun st =>
      { st with lpSeq := st.lpSeq + 1, lpPos := (st.lpPos + 1) % 16384, lpCount := min (st.lpCount + 1) 16384 }
  s.lpOwners.foldl one b

/-- Open a load-profile interval. -/
def openLp (b : Build) (short : Bool) : Build := b.st fun st => { st with lp := { short } }

/-! ### Billing close (R209 to R211) -/

/-- Event codes of the ledger (R246). -/
def evTariffActivate : Nat := 0x60
def evTariffLate : Nat := 0x61
def evBillingClose : Nat := 0x62
def evTimeStep : Nat := 0x63
def evTimeStepHeld : Nat := 0x64

/-- Clear PARTIAL_SEEN of the site's slots, which a billing close ends (LED_STAT). -/
def clearPartial (slots : List (Nat × Slot)) : List (Nat × Slot) :=
  slots.map fun p => if p.1 / 0x200 = 20 then (p.1, { p.2 with partialSeen := false }) else p

/-- Close the billing period (R210): the snapshot record and its marker, the maxima to 0, the next period. -/
def Build.closePeriod (b : Build) (stamp cause : Nat) (f : BFlags) (cmd : Option (BitVec 8 × BitVec 8)) : Build :=
  let st := b.img.st
  let pos := (st.snapPos + 1) % 24
  let cz : BitVec 4 := BitVec.ofNat 4 cause
  let rec_ : SnapRec := sealSnap {
    tseq := b.tseq, period := st.period
    cause := cz.setWidth 8 ||| (if f.timeStep then 0x10 else 0) ||| (if f.outage then 0x20 else 0) |||
      (if f.powerdown || st.bpDown then 0x40 else 0)
    openTime := BitVec.ofNat 64 st.openTime, closeTime := BitVec.ofNat 64 stamp, opsec := st.opsec, pwrcyc := st.pwrcyc
    slots := b.img.slots, dem := b.img.dem, dmax := b.img.dmax }
  let detail := beBytes 2 st.period.toNat
  let b := b.add (.snapshot pos rec_)
  let b := b.add .clearMax
  let b := b.addSlots (clearPartial b.img.slots)
  let b := b.st fun st => { st with
    snapPos := pos, snapCount := min (st.snapCount + 1) 24, bpDown := false
    period := st.period + 1, cause := cz, openTime := stamp
    lastClosed := if st.valid then stamp else st.lastClosed }
  let b := match cmd with
    | some (r, k) => b.audit 0x07 r k detail
    | none => b
  { b.ev evBillingClose 0xFF (detail ++ beBytes 1 cz.toNat) with closed := true, closes := b.closes + 1 }

/-! ### Tariff change (R202, step 5 of R193) -/

/-- Whether the pending passive calendar activates at a ledger time: an on-time one at the first boundary at or after its
ACT_TIME, a late one at the first whole minute after its commit (R202). -/
def activationDue (l : Ledger) (t : Nat) : Bool :=
  match l.psv with
  | none => false
  | some c => if l.st.late then t % 60 = 0 && l.st.lateAt < t else calActTime c ≤ t

/-- Activate the passive calendar (R202). -/
def Build.activate (b : Build) (c : Calendar) (f : BFlags) : Build :=
  let old := b.img.act.elim 0 calId
  let late := b.img.st.late
  let ids := beBytes 4 old ++ beBytes 4 (calId c)
  let b := b.add (.calendar 0 (some c))
  let b := b.add (.calendar 1 none)
  let how : Nat := if late then 1 else if f.outage then 2 else 0
  let b := { b with outage := f.outage }.audit 0x06 0 keysNone (ids ++ beBytes 1 how)
  let b := { b with outage := false }.st fun st => { st with late := false }
  let b := b.ev evTariffActivate 0xFF (ids ++ beBytes 8 (calActTime c))
  if late then b.ev evTariffLate 0xFF (beBytes 4 (calId c) ++ beBytes 8 (calActTime c)) else b

/-- The rate of the calendar in force (R196): DEFAULT_RATE while ledger time is invalid. -/
def rateOf (l : Ledger) (t : Nat) : Nat :=
  match l.act with
  | none => 0
  | some c => if l.st.valid then (tariffAt c t).rate else calDefaultRate c

/-! ### One boundary instant (steps 3 to 6 of R193) -/

/-- What is done at a boundary instant: its flags, whether demand and load-profile intervals that end there close, whether
load-profile entries are written, skipped or written as GAP (R216), and a command close. -/
structure Instant where
  t : Nat
  f : BFlags := {}
  dem : Bool := true
  lp : Bool := true
  lpSkip : Bool := false
  lpGap : Bool := false
  cmd : Option (BitVec 8 × BitVec 8) := none
  scheduled : Bool := true
  /-- the demand interval in progress begins at the boundary being processed, whose step 5 gives its rate (R193, R205) -/
  opened : Bool := false
deriving DecidableEq, Repr

/-- The demand interval in progress takes the rate in force at its start. -/
def Build.startRate (b : Build) : Build := b.st fun st => { st with dem := { st.dem with rate := st.rate } }

/-- Steps 3 to 6 at one instant of valid ledger time. -/
def State.instant (s : State) (c : LedCfg) (b : Build) (x : Instant) : Build :=
  let cal := b.img.act
  let demEnd := x.dem && c.subMin ≠ 0 && alignedEnd cal c.subMin x.t
  let lpEnd := x.lp && c.lpOn && c.lpMin ≠ 0 && alignedEnd cal c.lpMin x.t && !x.lpSkip
  let b := if demEnd then s.closeDemand c b x.t x.f else b
  let b := if lpEnd then s.closeLp b x.t x.f x.lpGap else b
  let act := x.scheduled && activationDue b.img x.t
  let due := x.scheduled && b.img.st.lastClosed < x.t
  let cause := (if due && c.monthly && monthlyDue cal c.day c.hour c.minute x.t then 1 else 0) +
    (if due && act && c.closeOnAct then 2 else 0) + (if x.cmd.isSome then 4 else 0)
  let b := if cause = 0 then b
    else b.closePeriod x.t (cause + (if x.f.timeStep || x.f.outage then 8 else 0)) x.f x.cmd
  let b := match b.img.psv with
    | some p => if act then b.activate p x.f else b
    | none => b
  let b := b.st fun st => { st with rate := rateOf b.img x.t, defaultRate := false }
  let b := if demEnd then openDemand b false else if x.opened then b.startRate else b
  if lpEnd then openLp b false else b

/-- Steps 3 to 6 at a boundary of invalid ledger time: intervals follow operating seconds, no scheduled close and no
activation is made (R202, R204, R209). -/
def State.instantInvalid (s : State) (c : LedCfg) (b : Build) (dem lp : Bool) (cmd : Option (BitVec 8 × BitVec 8)) : Build :=
  let opened := !dem
  let n := b.img.st.opsec
  let f : BFlags := {}
  let demEnd := dem && c.subMin ≠ 0 && n % (60 * c.subMin) = 0
  let lpEnd := lp && c.lpOn && c.lpMin ≠ 0 && n % (60 * c.lpMin) = 0
  let b := if demEnd then s.closeDemand c b 0 f else b
  let b := if lpEnd then s.closeLp b 0 f false else b
  let b := if cmd.isSome then b.closePeriod 0 4 f cmd else b
  let b := b.st fun st => { st with rate := rateOf b.img 0, defaultRate := true }
  let b := if demEnd then openDemand b false else if opened then b.startRate else b
  if lpEnd then openLp b false else b

/-- Close the intervals in progress at a boundary with the flags given, whatever their alignment, and open new ones; the
first of them is SHORT if the boundary is no aligned end (R208, R212, R214, R462). Its rate is that of step 5
(`Build.startRate`). -/
def State.breakIntervals (s : State) (c : LedCfg) (b : Build) (stamp : Nat) (f : BFlags) (dem lp : Bool)
    (alignedDem alignedLp : Bool) : Build :=
  let b := if dem && c.subMin ≠ 0 then s.closeDemand c b stamp f else b
  let b := if lp && c.lpOn then s.closeLp b stamp f false else b
  let b := if dem then openDemand b (!alignedDem) else b
  if lp then openLp b (!alignedLp) else b

/-! ### Series of transactions (R235, R463) -/

/-- A build that goes on after a transaction ends. -/
def Build.fresh (b : Build) : Build := { b with entries := [], evs := [], closed := false, tseq := b.tseq + 1 }

/-- Blocks a build would take with its STATE entry. -/
def Build.blocks (b : Build) : Nat := blocksOf ((b.add (.state b.img.st)).entries)

/-- A build that ends within a series: its image stands at the last instant processed, from which a restart goes on. -/
def Build.mark (b : Build) (t : Nat) (series : Option (Nat × Bool)) : Build :=
  b.st fun st => { st with time := t, phase := 0, slewed := 0, lastValid := t, lastValidOpsec := st.opsec, series }

/-- Process instants in time order, ending a transaction after a billing close and before an instant that would take it
past 64 blocks. The finished builds stand before the open one; `last` is the time of the last instant processed. -/
def State.instants (s : State) (c : LedCfg) (series : Option (Nat × Bool)) (done : List Build) (last : Nat) (b : Build) :
    List Instant → List Build × Build
  | [] => (done, b)
  | x :: xs =>
    let b' := s.instant c b x
    if 64 < b'.blocks && !b.entries.isEmpty then
      let b'' := s.instant c b.fresh x
      let done := done ++ [b.mark last series]
      if b''.closed && !xs.isEmpty then s.instants c series (done ++ [b''.mark x.t series]) x.t b''.fresh xs
      else s.instants c series done x.t b'' xs
    else if b'.closed && !xs.isEmpty then s.instants c series (done ++ [b'.mark x.t series]) x.t b'.fresh xs
    else s.instants c series done x.t b' xs

/-- The instants of a tick (R463): one transaction, unless they close more than one billing period or would need more than
64 blocks; then a series, split as outage processing is. -/
def State.tickInstants (s : State) (c : LedCfg) (series : Option (Nat × Bool)) (last : Nat) (b : Build) (xs : List Instant) :
    List Build :=
  let whole := xs.foldl (s.instant c) b
  if whole.closes ≤ 1 && whole.blocks ≤ 64 then [whole]
  else
    let r := s.instants c series [] last b xs
    r.1 ++ [r.2]

/-- The boundary instants after `a` and up to `b` that can matter: whole minutes, and the ACT_TIME of a calendar. -/
def minutesBetween (a b : Nat) (act : Option Nat) : List Nat :=
  let ms := (List.range (b / 60 - a / 60)).map fun i => (a / 60 + 1 + i) * 60
  match act with
  | some t => if a < t && t ≤ b && t % 60 ≠ 0 then
      (ms.filter (· < t)) ++ [t] ++ (ms.filter (t < ·)) else ms
  | none => ms

/-- ACT_TIME of the pending passive calendar, when it is not late. -/
def pendingAct (l : Ledger) : Option Nat := l.psv.bind fun c => if l.st.late then none else some (calActTime c)

/-- A new build on an image. -/
def State.newBuild (s : State) (img : Ledger) : Build :=
  { img := { img with st := { img.st with pwrcyc := s.led.startCount } }
    lock := s.locked, audSingle := areaSingle s.str 4, timeless := !s.led.timeTaken, uid := s.fuses.uid
    tseq := s.str.tseq + 1 + BitVec.ofNat 32 s.led.queue.length }

/-! ### Outages (R216, R235) -/

/-- The instants of an outage from `a` to `r`, with the load-profile entries the ring cannot hold left to one GAP entry for
each owner (R216). Those a series left unprocessed carry TIME_STEP as well (R463). DEDUCED: boundaries that passed before the
last committed tick, while ledger time was invalid, are processed here and carry TIME_STEP in place of OUTAGE
(notes/assumptions/134.md). -/
def State.outageInstants (s : State) (c : LedCfg) (l : Ledger) (a r : Nat) : List Instant :=
  let ts := minutesBetween a r (pendingAct l)
  let ends := ts.filter fun t => c.lpOn && c.lpMin ≠ 0 && alignedEnd l.act c.lpMin t
  let w := max 1 s.lpOwners.length
  let cap := 16384 / w
  let gapAt : Nat := if cap < ends.length then (ends.getD (ends.length - cap) 0) else 0
  let before (t : Nat) : Bool := s.led.lostInvalid && t ≤ s.led.outageTick
  let left (t : Nat) : Bool := l.st.series.any fun x => t ≤ x.1
  let passed (t : Nat) : Bool := before t || l.st.series.any fun x => x.2 && t ≤ x.1
  ts.map fun t => {
    t, f := { outage := !before t, timeStep := before t || left t }, dem := !passed t, lp := !passed t
    lpSkip := t < gapAt, lpGap := t = gapAt && gapAt ≠ 0 }

/-- Two demand intervals of which one goes on in the other, and the same of load-profile intervals. -/
def mergeDem (a b : DemInt) : DemInt :=
  { b with energy := a.energy.foldl (fun m x => storeSet zeroAt m x.1 (storeGet zeroAt m x.1 + x.2)) b.energy
           past := [], short := true, outage := true }
def mergeLp (a b : LpInt) : LpInt :=
  { b with delta := a.delta.foldl (fun m x => storeSet zeroAt m x.1 (storeGet zeroAt m x.1 + x.2)) b.delta
           flags := a.flags.foldl (fun m x => storeSet flagsZero m x.1 (storeGet flagsZero m x.1 ||| x.2)) b.flags
           short := true, outage := true }

/-- The intervals in progress at the loss of power are set aside, and new ones follow operating seconds, when the first tick of
a start runs with invalid time while outage boundaries wait (R206, R216). -/
def setAside (st : LedState) : LedState :=
  { st with
    demOut := some (st.demOut.elim st.dem fun d => mergeDem d st.dem)
    lpOut := some (st.lpOut.elim st.lp fun l => mergeLp l st.lp)
    dem := { rate := st.rate }, lp := {} }

/-- The intervals an outage's boundaries close: those set aside, if any. -/
def takeAside (st : LedState) : LedState :=
  { st with dem := st.demOut.getD st.dem, lp := st.lpOut.getD st.lp }

/-- The intervals that go on after an outage: what is left of those in progress at the loss of power, joined with the ones that
ticks of invalid time have run since the restart. -/
def joinAside (since : LedState) (st : LedState) : LedState :=
  { st with
    demOut := none, lpOut := none
    dem := if since.demOut.isSome then mergeDem st.dem since.dem else { st.dem with outage := true }
    lp := if since.lpOut.isSome then mergeLp st.lp since.lp else { st.lp with outage := true } }

/-- Intervals set aside that no outage boundary has taken go on in the ones in progress. -/
def rejoin (st : LedState) : LedState := if st.demOut.isSome then joinAside st (takeAside st) else st

/-- The builds of an outage: OUTAGE transactions for every boundary after the last committed tick up to the restart
instant, with no energy metered since, after which the intervals in progress contain part of an outage (R206, R216). -/
def State.outageBuilds (s : State) (c : LedCfg) (img : Ledger) (a r src : Nat) : List Build :=
  let b := { s.newBuild img with timeless := false }.st fun st =>
    { takeAside st with valid := true, tsrc := src, time := a }
  let (done, b) := s.instants c img.st.series [] a b (s.outageInstants c img a r)
  let b := b.st fun st => { joinAside img.st st with
    time := max a r, phase := 0, slewed := 0, lastValid := max a r, lastValidOpsec := s.led.startOpsec, series := none }
  done ++ [b]

/-- Transactions of a list of builds. -/
def txnsOf (kind : Nat) (act : Bool → TxnAct) : List Build → List Txn
  | [] => []
  | [b] => [b.txn kind (act true)]
  | b :: bs => b.txn kind (act false) :: txnsOf kind act bs

/-! ### The tick (R193) -/

/-- How far a tick slews the ledger time towards its source: at most 1 ms (R37). -/
def slew (diff : Int) : Int := if 0 < diff then 1 else if diff < 0 then -1 else 0

/-- What step 2 of R193 finds. -/
inductive TimeCase where
  /-- no source and time was invalid -/
  | stillInvalid
  /-- time becomes invalid (R462) -/
  | lost
  /-- time goes on from the carried value, slewed by some ms, under a source code -/
  | carry (slewed : Int) (src : Nat)
  /-- a step, in seconds and in ms, is withheld: time goes on from the carried value, keeping its code (R213) -/
  | held (step diff : Int)
  /-- a step from the carried second to the source's time in ms is applied (R212) -/
  | step (old newMs src : Nat)
  /-- time becomes valid (R214) -/
  | found (newMs src : Nat)
  /-- time becomes valid at or before the last close, so R213 withholds the new time (R214) -/
  | foundHeld (carried : Nat) (src : Nat) (step diff : Int)
deriving DecidableEq, Repr

/-- Step 2 of R193: compare the source's time at the boundary with ledger time carried forward (R212 to R214, R462). -/
def State.timeCase (s : State) (st : LedState) (bd : Boundary) : TimeCase :=
  match bd.srcMs with
  | none => if st.valid then .lost else .stillInvalid
  | some src =>
    if st.valid then
      let carried := st.time + bd.secs
      let diff : Int := (src : Int) - ((carried * 1000 : Nat) + st.phase)
      let step : Int := ((src / 1000 : Nat) : Int) - (carried : Int)
      if diff.natAbs < 1000 then .carry (slew diff) bd.src
      else if s.led.stepReq.isSome && st.stepHeld.isSome then
        .step carried ((carried * 1000 : Nat) + st.phase + st.stepMs).toNat bd.src
      else if st.rejected.any fun r => (diff - r).natAbs < 1000 then .carry 0 st.tsrc
      else if (s.led.rtcStepOk && bd.src = 1) || !(60000 < diff.natAbs || src / 1000 ≤ st.lastClosed) then
        .step carried src bd.src
      else .held step diff
    else
      let carried := st.lastValid + (st.opsec - st.lastValidOpsec)
      if st.lastClosed ≠ 0 && src / 1000 ≤ st.lastClosed then
        .foundHeld carried bd.src (((src / 1000 : Nat) : Int) - (carried : Int)) ((src : Int) - (carried * 1000 : Nat))
      else .found src bd.src

/-- Set the ledger time of an image, in ms: its whole seconds and its phase. -/
def setTime (ms src : Nat) (st : LedState) : LedState :=
  { st with
    valid := true, time := ms / 1000, phase := (ms % 1000 : Nat), slewed := 0, tsrc := src
    lastValid := ms / 1000, lastValidOpsec := st.opsec }

/-- Carry the ledger time of an image forward by a tick's whole seconds, its phase slewed by `d` ms; the whole seconds take a
second more or less when the amount slewed reaches one (R37). -/
def carryTime (secs : Nat) (d : Int) (src : Nat) (st : LedState) : LedState :=
  let a := st.slewed + d
  let move : Int := if 1000 ≤ a then 1 else if a ≤ -1000 then -1 else 0
  let t : Nat := ((st.time + secs : Nat) + move).toNat
  { st with
    valid := true, time := t, phase := st.phase + d - 1000 * move, slewed := a - 1000 * move, tsrc := src
    lastValid := t, lastValidOpsec := st.opsec }

/-- Apply changed interval settings at a boundary, after the fold: intervals whose settings change close with SHORT under
the old settings and open under the new (R208). -/
def State.applyCfg (s : State) (old new : LedCfg) (b : Build) (t : Nat) : Build :=
  let aligned (mins : Nat) : Bool := mins ≠ 0 &&
    (if b.img.st.valid then alignedEnd b.img.act mins t else b.img.st.opsec % (60 * mins) = 0)
  s.breakIntervals old b (if b.img.st.valid then t else 0) { short := true }
    (old.dem ≠ new.dem) (old.lp ≠ new.lp) (aligned new.subMin) (aligned new.lpMin)

/-- The site contributions a tick folds: PARTIAL_SEEN is set in the site's slots when an expected member is missing. -/
def markPartial (missing : Bool) (slots : List (Nat × Slot)) : List (Nat × Slot) :=
  if missing then
    (siteQuantities.flatMap fun q => (List.range 9).map fun t => slotIdx 20 q t).foldl
      (fun m i => storeSet slotZero m i { storeGet slotZero m i with partialSeen := true }) slots
  else slots

/-- Steps 1 to 6 of R193 for the tick that ends at a boundary, as the builds of its transactions. -/
def State.tickBuilds (s : State) (img : Ledger) (bd : Boundary) (ks : List Quantum) (site : List SiteDelta)
    (missing : Bool) : List Build :=
  let old : LedCfg := ⟨s.led.demCfg, s.led.lpCfg, s.led.bpCfg⟩
  let new := s.ledCfg
  let cmd := if s.led.billReq then some (s.led.billRoles, s.led.billKeys) else none
  let b := s.foldStep { s.newBuild img with timeless := false } ks site
  let b := if missing then b.addSlots (markPartial true b.img.slots) else b
  -- step 2: operating seconds, then ledger time
  let b := b.st fun st => { st with
    opsec := min (st.opsec + 1) (2 ^ 40 - 1)
    cfg := some (new.dem, new.lp, new.bp), series := none, bpDown := false
    dem := { st.dem with elapsed := st.dem.elapsed + bd.secs, powerdown := false }
    lp := { st.lp with powerdown := false } }
  let st := b.img.st
  let run (b : Build) (last : Nat) (stepped : Bool) (x : List Instant) : List Build :=
    s.tickInstants new (some (b.img.st.time, stepped)) last b x
  -- intervals that a changed setting closes do not end a second time at the same boundary
  let one (b : Build) (last t : Nat) (x : List Instant) : List Build :=
    run (if old = new then b else s.applyCfg old new b t) last false
      (x.map fun i => { i with dem := old.dem = new.dem, lp := old.lp = new.lp, opened := old.dem ≠ new.dem })
  match s.timeCase st bd with
  | .stillInvalid =>
    let b := if old = new then b else s.applyCfg old new b 0
    -- the first intervals of a start without time are SHORT (R206)
    let b := if s.led.timeTaken then b
      else b.st fun st => { st with dem := { st.dem with short := true }, lp := { st.lp with short := true } }
    [s.instantInvalid new b (old.dem = new.dem) (old.lp = new.lp) cmd]
  | .lost =>
    let b := b.st fun st => { st with valid := false, tsrc := 0, stepHeld := none, rejected := none }
    let al (m : Nat) : Bool := m ≠ 0 && st.opsec % (60 * m) = 0
    let b := s.breakIntervals old b 0 { short := true, timeStep := true } true true (al new.subMin) (al new.lpMin)
    let b := (b.st fun st => { st with rate := rateOf b.img 0, defaultRate := true }).startRate
    [if cmd.isSome then b.closePeriod 0 4 {} cmd else b]
  | .carry d src =>
    let b := b.st fun st => { carryTime bd.secs d src st with
      stepHeld := none, rejected := st.rejected.bind fun r => if src = st.tsrc then some r else none }
    one b st.time b.img.st.time [{ t := b.img.st.time, cmd }]
  | .held step diff =>
    let b := if st.stepHeld.isSome then b else b.ev evTimeStepHeld 0xFF (beBytes 4 (ofSigned 32 step))
    let b := b.st fun st => { carryTime bd.secs 0 st.tsrc st with
      stepHeld := some step, stepMs := diff, rejected := none }
    one b st.time b.img.st.time [{ t := b.img.st.time, cmd }]
  | .step o ms src =>
    let n := ms / 1000
    let b := b.st fun st => { setTime ms src st with stepHeld := none, rejected := none }
    let b := b.audit 0x08 0 keysNone (beBytes 8 o ++ beBytes 8 n ++ beBytes 1 src)
    let b := match s.led.stepReq with
      | some (r, k) => b.audit 0x09 r k (beBytes 4 (ofSigned 32 ((n : Int) - o)))
      | none => b
    let b := b.ev evTimeStep 0xFF (beBytes 8 o ++ beBytes 8 n)
    let fl : BFlags := { timeStep := true }
    let al (m : Nat) : Bool := m ≠ 0 && alignedEnd b.img.act m n
    let b := s.breakIntervals old b n { short := true, timeStep := true } true true (al new.subMin) (al new.lpMin)
    let mid := if n ≤ o then [] else (minutesBetween st.time n (pendingAct b.img)).filter (· < n)
    run b (min st.time n) true (mid.map (fun t => { t, f := fl, dem := false, lp := false, opened := true }) ++
      [{ t := n, f := if n ≤ o then {} else fl, dem := false, lp := false, cmd, opened := true }])
  | .found ms src =>
    let n := ms / 1000
    let restart := if s.led.ranInvalid then n - (st.opsec - s.led.startOpsec) else n
    let before := st.lastValid
    let b := b.st fun st => { setTime ms src (rejoin st) with stepHeld := none, rejected := none }
    if s.led.ranInvalid || s.led.synced || s.led.lostInvalid then
      let al (m : Nat) : Bool := m ≠ 0 && alignedEnd b.img.act m n
      let b := s.breakIntervals old b n { short := true, timeStep := true } true true (al new.subMin) (al new.lpMin)
      let a := if s.led.synced then before else max before restart
      let mid := if before = 0 then [] else (minutesBetween a n (pendingAct b.img)).filter (· < n)
      run b (min a n) true (mid.map (fun t => { t, f := { timeStep := true }, dem := false, lp := false, opened := true }) ++
        [{ t := n, f := { timeStep := true }, dem := false, lp := false, cmd, opened := true }])
    else
      -- boundaries passed since the outage processing of this start
      let mid := if s.led.timeTaken then (minutesBetween before n (pendingAct b.img)).filter (· < n) else []
      one b before n (mid.map (fun t => { t }) ++ [{ t := n, cmd }])
  | .foundHeld carried src step diff =>
    let b := b.ev evTimeStepHeld 0xFF (beBytes 4 (ofSigned 32 step))
    -- the interval in progress is the first after ledger time becomes valid (R206)
    let b := (b.st rejoin).st fun st => { setTime (carried * 1000) src st with
      stepHeld := some step, stepMs := diff, rejected := none
      dem := { st.dem with short := true }, lp := { st.lp with short := true } }
    one b st.lastValid carried [{ t := carried, cmd }]

/-- The outage the first tick with valid time processes first (R214, R216): from the last committed tick to the restart
instant. -/
def State.tickOutage (s : State) (img : Ledger) (bd : Boundary) : List Build :=
  match s.led.outageFrom, bd.srcMs with
  | some a, some src =>
    let n := src / 1000
    if img.st.lastClosed ≠ 0 && n ≤ img.st.lastClosed then []
    else
      let r := if s.led.ranInvalid then n - (img.st.opsec + 1 - s.led.startOpsec) else n - 1
      if a < r then s.outageBuilds ⟨s.led.demCfg, s.led.lpCfg, s.led.bpCfg⟩ img a r bd.src else []
  | _, _ => []

/-- Raise the events of builds, which reach the intake together (R242); TARIFF_LATE also sets TAR_STATUS.LATE_SEEN (R202). -/
def State.raiseAll (s : State) (evs : List (Nat × Nat × List Byte)) : State :=
  s.sameCycle fun s => evs.foldl (fun s e =>
    let s := if e.1 = evTariffLate then s.wrB Fld.TAR_STATUS_LATE_SEEN true else s
    s.raise e.1 e.2.1 e.2.2) s

/-- The bays of quanta with held samples. -/
def heldOwners (ks : List Quantum) : List Nat := (ks.filter fun k => k.held).map fun k => k.owner

/-- The events of builds, in order. -/
def buildEvents (bs : List Build) : List (Nat × Nat × List Byte) := bs.flatMap fun b => b.evs

/-- The image after every transaction that waits for its commit. -/
def State.nextImage (s : State) : Ledger := s.led.queue.foldl applyTxn s.led.com

/-- A ledger image whose time is to be found anew: at the first tick of a start, and after its outage boundaries. -/
def timeUntaken (l : Ledger) : Ledger :=
  let st := l.st
  if st.valid then { l with st := { st with valid := false, tsrc := 0 } } else l

/-- Process the tick that ends at a boundary (steps 1 to 6 of R193): queue its transactions and raise its events. -/
def State.processTick (s : State) (bd : Boundary) (kind : Nat) (act : Bool → TxnAct) : State :=
  let mine : List Quantum := s.led.quanta.filter fun k => k.endEpoch < bd.epoch
  let rest : List Quantum := s.led.quanta.filter fun k => !(k.endEpoch < bd.epoch)
  let img := if s.led.synced then s.nextImage else timeUntaken s.nextImage
  let img := if bd.srcMs.isNone && s.led.outageFrom.isSome && !s.led.timeTaken then { img with st := setAside img.st } else img
  let out := s.tickOutage img bd
  let img' := match out.getLast? with
    | some b => timeUntaken b.img
    | none => img
  let expected := s.rd Fld.CSC_STATUS_PRESENT ||| s.rd Fld.CSC_STATUS_ABSENT
  let seen := (s.led.site.map fun d => 2 ^ d.pos).foldl (· ||| ·) 0
  let missing := s.isMaster && expected &&& seen ≠ expected
  let bs := s.tickBuilds img' bd mine (s.led.site ++ s.led.lateSite) missing
  let c := s.ledCfg
  let t := { s with led := { s.led with
    quanta := rest
    heldBays := heldOwners mine
    site := [], lateSite := []
    closedEpoch := bd.epoch
    timeAt := bd.at_
    queue := s.renumber (s.led.queue ++ txnsOf 0x03 .outage out ++ txnsOf kind act bs)
    outageFrom := if bd.srcMs.isSome then none else s.led.outageFrom
    timeTaken := true
    synced := s.led.synced || bd.srcMs.isSome
    ranInvalid := s.led.ranInvalid || bd.srcMs.isNone
    billReq := false, stepReq := none, rtcStepOk := false
    demCfg := c.dem, lpCfg := c.lp, bpCfg := c.bp }, ring := { s.ring with foldedTick := s.core.ticks - 1 } }
  let t := if s.isMaster then t.wr Fld.LED_SITE_PRESENT seen else t
  let t := if out.isEmpty then t else t.wrB Fld.STR_STATUS_OUTAGE_PROC true
  t.raiseAll (buildEvents (out ++ bs))

end Sys2Proof.Machine
end

