-- ==== Sys2Proof/Machine/Links.lean ====
section
/-!
DEFINITION. Operations the commit and the escalation use on the links and the panel: sending ring and twin frames
(R354, R367, R369, R373, R376) and requesting panel updates (R420, R421).
-/

namespace Sys2Proof.Machine

/-! ### The form of a frame (R354, R369) -/

/-- A frame of the Nirair ring or of the twin link. -/
structure LinkFrame where
  dest : Nat
  src : Nat
  type : Nat
  hops : Nat
  seq : BitVec 16
  site : Nat
  ring : Nat
  payload : List Byte
deriving DecidableEq, Repr

/-- The bytes of a frame: header, payload and CRC. -/
def LinkFrame.bytes (f : LinkFrame) : List Byte :=
  let b := beBytes 1 f.dest ++ beBytes 1 f.src ++ beBytes 1 f.type ++ beBytes 1 f.hops ++ beBytes 2 f.seq.toNat ++
    beBytes 2 f.payload.length ++ beBytes 4 f.site ++ beBytes 1 f.ring ++ beBytes 3 0 ++ f.payload
  b ++ wordBytes (crc32 b)

/-- The number in `n` bytes at an offset. -/
def num (bs : List Byte) (off n : Nat) : Nat := beNat (sub bs off n)

/-- Read a frame of at most `most` payload bytes; none where its LENGTH or its CRC fails. -/
def linkRead (most : Nat) (bs : List Byte) : Option LinkFrame :=
  let n := num bs 6 2
  if bs.length = 20 + n && n ≤ most && wordBytes (crc32 (bs.take (16 + n))) = bs.drop (16 + n) then
    some {
      dest := num bs 0 1, src := num bs 1 1, type := num bs 2 1, hops := num bs 3 1, seq := BitVec.ofNat 16 (num bs 4 2)
      site := num bs 8 4, ring := num bs 12 1, payload := sub bs 16 n }
  else none

/-- The most payload bytes of a ring frame and of a twin frame. -/
def ringMost : Nat := 256
def twinMost : Nat := 512

/-! ### Ring and twin frames (R354, R369) -/

/-- Frame types of R354 and R369. -/
def ftDiscover : Nat := 0x01
def ftJoin : Nat := 0x02
def ftAdmit : Nat := 0x03
def ftMarker : Nat := 0x04
def ftDelayReq : Nat := 0x05
def ftDelayResp : Nat := 0x06
def ftContrib : Nat := 0x07
def ftContribAck : Nat := 0x08
def ftHello : Nat := 0x11
def ftTwinMarker : Nat := 0x12
def ftDelta : Nat := 0x13
def ftSole : Nat := 0x14
def ftTwinDelayReq : Nat := 0x15
def ftTwinDelayResp : Nat := 0x16

/-- The ring the device belongs to (R351): 1, ring S, for a device that has a twin and is the secondary. -/
def State.ringNo (s : State) : Nat := if s.flag Fld.TWN_CFG_ENABLE && !s.flag Fld.TWN_STATUS_ROLE then 1 else 0

/-- A frame of this device for the ring. -/
def State.ringFrame (s : State) (dest type : Nat) (payload : List Byte) : LinkFrame :=
  { dest, src := s.rd Fld.CSC_STATUS_POSITION, type, hops := 0, seq := s.ring.seq, site := s.rd Fld.CSC_CFG_SITE_ID
    ring := s.ringNo, payload }

/-- Send a frame of this device on the ring: by both ports, or by one (R355). -/
def State.ringSend (s : State) (port : Option RingPort) (dest type : Nat) (payload : List Byte) : State :=
  { s with ring := { s.ring with
    out := s.ring.out ++ [(port, (s.ringFrame dest type payload).bytes)], seq := s.ring.seq + 1 } }

/-- A frame of this device for the twin link: DEST and SRC are 0 (R369). -/
def State.twinFrame (s : State) (type : Nat) (payload : List Byte) : LinkFrame :=
  { dest := 0, src := 0, type, hops := 0, seq := s.twin.seq, site := s.rd Fld.CSC_CFG_SITE_ID, ring := s.ringNo, payload }

/-- Send a frame on the twin link. -/
def State.twinSend (s : State) (type : Nat) (payload : List Byte) : State :=
  { s with twin := { s.twin with out := s.twin.out ++ [(s.twinFrame type payload).bytes], seq := s.twin.seq + 1 } }

/-- Twin pairing states of TWN_STATUS.STATE. -/
def twOff : Nat := 0
def twWait : Nat := 1
def twPairing : Nat := 2
def twPaired : Nat := 3
def twRefused : Nat := 4
def twConflict : Nat := 5

/-- Set TWN_STATUS.STATE; a change is an interrupt cause. -/
def State.setTwin (s : State) (v : Nat) : State :=
  let t := s.wr Fld.TWN_STATUS_STATE v
  if s.rd Fld.TWN_STATUS_STATE = v then t else t.irq Fld.SYS_IRQ_STAT_TWIN

/-- The running sums of the eleven site quantities over the enabled bays (R367 TOTAL), of a slot store. -/
def State.bayTotals (s : State) (slots : List (Nat × Slot)) : List (BitVec 64) :=
  siteQuantities.map fun q => (List.range 16).foldl (fun a n =>
    if s.bayOn n then a + (storeGet slotZero slots (slotIdx n q 0)).val else a) 0

/-- Whether any enabled bay reads a flag. -/
def State.anyBay (s : State) (f : Nat → Field) : Bool := (List.range 16).any fun n => s.bayOn n && s.flag (f n)

/-- After a tick's commit a member sends CONTRIB to the master, and the master contributes to itself, unless it is in FAULT
(R217, R358, R367). -/
def State.contribSend (s : State) (old : Ledger) : State :=
  if !s.flag Fld.CSC_CFG_ENABLE then s
  else
    let a := s.bayTotals old.slots
    let b := s.bayTotals s.led.live.slots
    let delta := (b.zip a).map fun (x, y) => x - y
    if s.isMaster then
      if s.rd Fld.CSC_STATUS_ENUM = 0xC3 then s
      else { s with led := { s.led with
        site := s.led.site ++ [{ pos := 0, rate := old.st.rate, delta }], lastSiteRate := old.st.rate } }
    else if s.rd Fld.CSC_STATUS_ENUM = 0xF0 then
      let flags := (if s.anyBay Fld.BAY_STATUS_DEGRADED then 1 else 0) + (if s.anyBay Fld.BAY_STATUS_PROVISIONAL then 2 else 0) +
        (if s.led.liveOutage then 4 else 0)
      s.ringSend none 0 ftContrib (beBytes 4 (s.rd Fld.CSC_MTICK_MTICK) ++ beBytes 1 flags ++ beBytes 3 0 ++
        delta.flatMap (fun v => beBytes 8 v.toNat) ++ b.flatMap fun v => beBytes 8 v.toNat)
    else s

/-- The records of a twin DELTA for the tick just committed (R373). -/
def State.twinBays (s : State) (old : Ledger) : List TwinBay :=
  (List.range 16).map fun n =>
    let d (q : Nat) : BitVec 64 := (storeGet slotZero s.led.live.slots (slotIdx n q 0)).val -
      (storeGet slotZero old.slots (slotIdx n q 0)).val
    let fl := (if s.flag (Fld.BAY_STATUS_PROVISIONAL n) then 1 else 0) + (if s.flag (Fld.BAY_STATUS_DEGRADED n) then 2 else 0) +
      (if n ∈ s.led.heldBays then 4 else 0) + (if s.bayOn n then 8 else 0) + (if s.led.liveOutage then 16 else 0)
    { imp := d 3, exp := d 7, flags := BitVec.ofNat 8 fl }

/-- The bytes of a DELTA payload (R373). -/
def deltaBytes (ptick : Nat) (bays : List TwinBay) : List Byte :=
  beBytes 4 ptick ++ beBytes 4 0 ++ bays.flatMap fun b => beBytes 8 b.imp.toNat ++ beBytes 8 b.exp.toNat ++ [b.flags]

/-! ### Comparison of twin ticks (R373) -/

/-- Add one pair tick both sides have sent for into the window sums; a bay's tick that is not usable counts in MISSED. -/
def State.pairTick (s : State) (own peer : List TwinBay) : State :=
  (own.zip peer).zipIdx.foldl (fun s ((o, p), n) =>
    let bad (b : TwinBay) : Bool := b.flags.getLsbD 0 || b.flags.getLsbD 1 || b.flags.getLsbD 4 || !b.flags.getLsbD 3
    if bad o || bad p then s.count Fld.TWN_CMP_MISSED
    else
      let x := storeGet (fun _ => ({} : TwinSums)) s.twin.sums n
      let x := { iOwn := x.iOwn + o.imp.toNat, iPeer := x.iPeer + p.imp.toNat, eOwn := x.eOwn + o.exp.toNat
                 ePeer := x.ePeer + p.exp.toNat, usable := x.usable + 1 }
      { s with twin := { s.twin with sums := storeSet (fun _ => {}) s.twin.sums n x } }) s

/-- The last pair tick of the window in progress (R374). -/
def State.windowLast (s : State) : Nat := s.twin.start + s.rd Fld.TWN_CFG_WIN

/-- Match a pair tick of the window in progress when both sides' DELTA are there (R373); one of a later window waits. -/
def State.matchTick (s : State) (k : Nat) : State :=
  match s.twin.own.lookup k, s.twin.peer.lookup k with
  | some o, some p =>
    if s.windowLast < k then s
    else
      let t := s.pairTick o p
      { t with twin := { t.twin with
        matched := t.twin.matched + 1
        own := t.twin.own.filter fun x => x.1 ≠ k
        peer := t.twin.peer.filter fun x => x.1 ≠ k } }
  | _, _ => s

/-- The tick whose commit is being made, counted from the core reset: those that still wait come after it. -/
def State.committedTick (s : State) : Nat :=
  let lastOfTick : Txn → Bool := fun t => t.act = .tick true
  s.core.ticks - s.led.bounds.length - (s.led.queue.filter lastOfTick).length

/-- After each commit a paired device sends DELTA, from the first boundary after pairing (R373); a frozen twin's partner sends
on but takes none. -/
def State.deltaSend (s : State) (old : Ledger) : State :=
  let k := s.committedTick - s.twin.pairedAt
  if s.rd Fld.TWN_STATUS_STATE ≠ twPaired || k = 0 then s
  else
    let bs := s.twinBays old
    let t := s.twinSend ftDelta (deltaBytes k bs)
    ({ t with twin := { t.twin with own := t.twin.own ++ [(k, bs)] } }).matchTick k

/-! ### Panel requests (R420, R421) -/

/-- Whether the panel's domain DPN is on, and not shutting down (R407). -/
def State.panelOn (s : State) : Bool := s.rd Fld.PWR_ON_ON / 2 ^ 16 % 2 = 1 && !s.pwr.down.contains 16

/-- Whether a window's geometry is wrong (R416). -/
def State.badGeom (s : State) (w : Nat) : Bool :=
  let dec := s.rd (Fld.PNL_WIN_CFG_DEC w)
  let width := s.rd (Fld.PNL_WIN_CFG_WIDTH w)
  let kind := s.rd (Fld.PNL_WIN_CFG_KIND w)
  s.rd (Fld.PNL_WIN_CFG_ROW w) = 3 || 16 < s.rd (Fld.PNL_WIN_CFG_COL w) + width || dec = 7 ||
  9 < s.rd (Fld.PNL_WIN_CFG_SHIFT w) || kind = 3 || (kind = 1 && width < (if dec = 0 then 12 else 13))

/-- Record a request for a window: it becomes the pending one, and REPLACED counts if one was held (R421). Requests for a
disabled window or one with BAD_GEOM are ignored (R420), as are requests after a power-fail warning (R423). DEDUCED (log entry
108): a window whose geometry a load has since mended takes requests again. -/
def State.panelRequest (s : State) (w : Nat) : State :=
  if !s.panelOn || s.core.warned || !s.flag (Fld.PNL_WIN_CFG_ENABLE w) || (s.rd (Fld.PNL_WIN_STAT_ERR w) = 1 && s.badGeom w) then s
  else
    let s := if s.flag (Fld.PNL_WIN_STAT_PENDING w) then s.count (Fld.PNL_WIN_STAT_REPLACED w) else s
    (s.wrB (Fld.PNL_WIN_STAT_PENDING w) true).wr Fld.PNL_STATUS_PENDING (s.rd Fld.PNL_STATUS_PENDING ||| 2 ^ w)

/-- The requests a committed tick makes: windows whose REFRESH divides LED_TICK_SEQ (R420). -/
def State.panelTick (s : State) : State :=
  (List.range 8).foldl (fun s w =>
    let r := s.rd (Fld.PNL_WIN_CFG_REFRESH w)
    if r ≠ 0 && s.rd Fld.LED_TICK_SEQ_SEQ % r = 0 then s.panelRequest w else s) s

end Sys2Proof.Machine
end

