-- ==== Sys2Proof/Machine/LoadStat.lean ====
section
/-!
DEFINITION. The outcome of a candidate of the configuration loader (R398, R403): refusals, abandoned loads, and what the
lock does to a live load.
-/

namespace Sys2Proof.Machine

/-- LOADER codes of CFG_STATUS. -/
def ldIdle : Nat := 0x1E
def ldRead : Nat := 0x2D
def ldVerify : Nat := 0x4B
def ldApply : Nat := 0x78
def ldFailed : Nat := 0x87

/-- RESULT codes of R398. -/
def lrAccepted : Nat := 1
def lrNoFlash : Nat := 2
def lrHeader : Nat := 3
def lrPart : Nat := 4
def lrSection : Nat := 5
def lrAuth : Nat := 6
def lrSignature : Nat := 7
def lrGen : Nat := 8
def lrPatch : Nat := 9
def lrLimit : Nat := 0xA
def lrLocked : Nat := 0xB
def lrRestart : Nat := 0xC
def lrBusy : Nat := 0xD
def lrStrata : Nat := 0xE
def lrAbandoned : Nat := 0xF

def evConfigLoaded : Nat := 0xD0
def evConfigRefused : Nat := 0xD1

/-- CFG_STATUS.LOADER. -/
def State.loader (s : State) : Nat := s.rd Fld.CFG_STATUS_LOADER

/-- Report a candidate in CFG_LOAD_STAT and CFG_FAIL_ADDR; a candidate that has been tested counts in LOADS. -/
def State.loadReport (s : State) (slot : Nat) (live : Bool) (result addr : Nat) (tested : Bool) : State :=
  let s := (s.wr Fld.CFG_LOAD_STAT_RESULT result).wr Fld.CFG_LOAD_STAT_SLOT slot
  let s := (s.wrB Fld.CFG_LOAD_STAT_LIVE live).wr Fld.CFG_FAIL_ADDR_ADDR addr
  let s := if tested then s.count Fld.CFG_LOAD_STAT_LOADS else s
  s.irq Fld.SYS_IRQ_STAT_LOAD

/-- A candidate is refused: its RESULT, and the event CONFIG_REFUSED (R398, R409). -/
def State.loadRefuse (s : State) (slot : Nat) (live : Bool) (result addr : Nat) (tested : Bool) : State :=
  (s.loadReport slot live result addr tested).raise evConfigRefused slot (beBytes 1 result ++ beBytes 4 addr)

/-- Whether a load is in progress that has not been accepted. -/
def State.loading (s : State) : Bool := s.ldr.cur.isSome

/-- A live load in progress ends, refused or abandoned: the running configuration stays in force (R402, R403). -/
def State.liveEnd (s : State) (l : Load) (result addr : Nat) (tested : Bool) : State :=
  (({ s with ldr := { s.ldr with cur := none } }).wr Fld.CFG_STATUS_LOADER ldIdle).loadRefuse l.slot true result addr tested

/-- The start ends in LOAD_FAILED (R401). -/
def State.loadFailed (s : State) : State :=
  (({ s with ldr := { s.ldr with cur := none, rest := [] } }).wr Fld.CFG_STATUS_LOADER ldFailed).setChip chipLoadFailed

/-- The next candidate of a start is read; with none left the start ends in LOAD_FAILED (R399). -/
def State.loadNext (s : State) : State :=
  match s.ldr.rest with
  | [] => s.loadFailed
  | n :: ns =>
    ({ s with ldr := { s.ldr with cur := some { slot := n }, rest := ns } }).wr Fld.CFG_STATUS_LOADER ldRead

/-- A candidate of a start is refused and the loader turns to the next. -/
def State.startRefuse (s : State) (slot result addr : Nat) : State := (s.loadRefuse slot false result addr true).loadNext

/-- An FSM_ALARM on the loader: the load in progress fails (R299, R398). -/
def State.loadAlarm (s : State) : State :=
  match s.ldr.cur with
  | none => s
  | some l => if l.live then s.liveEnd l lrAbandoned 0 true else s.startRefuse l.slot lrAbandoned 0

/-- A load that has not been accepted is abandoned at a chip freeze or a power-fail warning (R398, R403); a load of a start
goes no further. -/
def State.loadAbandon (s : State) : State :=
  match s.ldr.cur with
  | none => s
  | some l =>
    if l.live then s.liveEnd l lrAbandoned 0 true
    else ({ s with ldr := { s.ldr with cur := none, rest := [] } }).loadRefuse l.slot false lrAbandoned 0 true

/-- The lock has engaged: a live load that has not been accepted is refused (R403). -/
def State.loadLocked (s : State) : State :=
  match s.ldr.cur with
  | none => s
  | some l => if l.live then s.liveEnd l lrLocked 0 true else s

end Sys2Proof.Machine
end

