-- ==== Sys2Proof/Machine/Flint.lean ====
section
/-!
DEFINITION. The Flint lock and tamper detections (R288 to R298): sources and their flags, responses, engaging the lock,
the unlock.
-/

namespace Sys2Proof.Machine

/-! ### Sources (R288, R290) -/

/-- The bit of TMP_STICKY, TMP_ACTIVE and TMP_PENDING a source belongs to. -/
def stickyBit (src : Nat) : Nat :=
  if src < 24 then src / 4 else if src < 27 then src - 18 else if src < 31 then src - 18 else if src = 31 then 13 else 14

/-- The configured response of a source: bit 0 RECORD, bit 1 ALERT, bit 2 LOCK (R290). -/
def State.response (s : State) (src : Nat) : Nat :=
  if src < 24 then s.rd (Fld.TMP_RESP_A_LSG (src / 4)) else s.rd (Fld.TMP_RESP_B_SRC (src - 24))

/-- Whether a source's light group is disabled by fuse (R302). -/
def State.fused (s : State) (src : Nat) : Bool := src < 24 && s.fuses.lsg.getLsbD (src / 4)

/-- The lowest source of a TMP_STICKY bit. -/
def firstSource (bit : Nat) : Nat := if bit < 6 then 4 * bit else bit + 18

/-- The response that a set flag's bit carries; that of a fused group is ignored. -/
def State.bitResponse (s : State) (bit : Nat) : Nat :=
  if s.fused (firstSource bit) then 0 else s.response (firstSource bit)

/-- TMP_ACTIVE follows the conditions present (R289). -/
def State.refreshActive (s : State) : State :=
  s.wr Fld.TMP_ACTIVE_COND ((s.tmp.cond.map fun c => 2 ^ stickyBit c.val).foldl (· ||| ·) 0)

/-- SYS_ALERT.TAMPER follows the sticky flags whose source's response includes ALERT (R296); TMP_STATUS.ALERT repeats it. -/
def State.refreshTamperAlert (s : State) : State :=
  let st := s.rd Fld.TMP_STICKY_ALL
  let on := (List.range 15).any fun b => st / 2 ^ b % 2 = 1 && s.bitResponse b / 2 % 2 = 1
  (s.alert Fld.SYS_ALERT_TAMPER on).wrB Fld.TMP_STATUS_ALERT on

/-! ### Flint (R293 to R295) -/

/-- The codes of R294. -/
def flUnlocked : Nat := 0x33
def flEngaging : Nat := 0x55
def flLocked : Nat := 0x66
def flReleasing : Nat := 0x0F

/-- Set Flint's state; LOCKED in SYS_STATUS and TMP_STATUS follow it, and a change of LOCKED is an interrupt cause. -/
def State.setFlint (s : State) (v : Nat) : State :=
  let on := v ≠ flUnlocked
  let t := (s.wr Fld.TMP_STATUS_FLINT v).wrB Fld.TMP_STATUS_LOCKED on
  let t := t.wrB Fld.SYS_STATUS_LOCKED on
  if s.locked = on then t else t.irq Fld.SYS_IRQ_STAT_LOCK

/-- Flint's state. -/
def State.flint (s : State) : Nat := s.rd Fld.TMP_STATUS_FLINT

/-- Whether LOCK refuses a token command (R278). -/
def lockRefuses (cmd : Nat) : Bool := cmd ∈ [0x0040, 0x0030, 0x0031, 0x0021, 0x0020, 0x0050, 0x0060, 0x0011, 0x0012]

/-- Discard the pending and armed authorisations whose action LOCK refuses (R276, R295). -/
def State.dropAuthorisations (s : State) : State :=
  let keep (a : Armed) : Bool := !lockRefuses a.cmd
  { s with
    sec := { s.sec with dual := s.sec.dual.bind fun d => if lockRefuses d.cmd then none else some d }
    spi := { s.spi with armed := s.spi.armed.filter keep }
    drega := { s.drega with armed := s.drega.armed.filter keep } }

/-- As the lock engages, every outstanding nonce and the nonce of a pending UNLOCK are of before it (R276 item 4). -/
def State.staleNonces (s : State) : State :=
  { s with sec := { s.sec with
    stale := (s.spi.nonces ++ s.drega.nonces).map fun (n : BitVec 128 × Nat) => n.1
    dual := s.sec.dual.map fun (d : Dual) => { d with stale := true } } }

/-- The LOCK_ENGAGE transaction (R291 step 6, R304): TMP_STICKY and the first source that called for LOCK. -/
def State.lockTxn (s : State) (src : Nat) : Txn :=
  let b := s.newBuild s.nextImage
  let b := (b.audit 0x18 0 keysNone (beBytes 4 (s.rd Fld.TMP_STICKY_ALL) ++ beBytes 1 src)).st fun st =>
    { st with lockFlag := true }
  b.txn 0x06 .lockEngage

/-- Whether transactions can be built and committed: recovery is done, the ledger is not frozen, its area lives, and the start
has not ended in LOAD_FAILED (R401). -/
def State.ledgerOk (s : State) : Bool :=
  s.led.recovered && !s.led.frozen && !areaDead s.str 0 && s.chip ≠ chipLoadFailed

/-- Queue the LOCK_ENGAGE transaction, if the ledger can take one; else Flint stays ENGAGING and retries (R292). -/
def State.queueLock (s : State) : State :=
  if s.ledgerOk && !s.core.warned then
    s.enqueue [s.lockTxn s.tmp.engageSrc]
  else s

/-- LOCK: the Bedrock lock bit is set, Flint enters ENGAGING, authorisations that LOCK refuses are discarded, the event
LOCK_ENGAGED is raised and LOCK_ENGAGE is built (R291 steps 5 and 6, R295). An engaged lock writes no new entry. -/
def State.engage (s : State) (src : Nat) : State :=
  if s.locked then s
  else
    let s := { s with
      bk := { s.bk with lock := true }
      tmp := { s.tmp with engageSrc := src } }
    let s := ((s.setFlint flEngaging).staleNonces).dropAuthorisations
    ((s.raise 0x82 0xFF (beBytes 4 (s.rd Fld.TMP_STICKY_ALL))).queueLock).loadLocked

/-! ### The enclosure pins (R288, R466) -/

/-- Whether an enclosure source's pin is at the alarm level of Bedrock's copy of ENC_POL: high for 0, low for 1. Any other
source has no pin to compare. -/
def State.encAlarm (s : State) (c : Nat) : Bool :=
  if 27 ≤ c && c ≤ 30 then s.tmp.enc.getLsbD (c - 27) != s.bk.encPol.getLsbD (c - 27) else true

/-- Enclosure conditions whose pin is not at its alarm level have ended, as a level or the copy changed. -/
def State.encSettle (s : State) : State :=
  ({ s with tmp := { s.tmp with cond := s.tmp.cond.filter fun (c : Fin 33) => s.encAlarm c.val } }).refreshActive

/-! ### Detections (R289, R291, R298) -/

/-- What the payload of event TAMPER tells of detections (R303): responses applied from a pending flag at start, sources
whose monitor failed its test, and the machine and code of FSM_ALARM. -/
structure DetectInfo where
  unpowered : Bool := false
  failed : List Nat := []
  machine : Nat := 0
  code : Nat := 0
deriving DecidableEq, Repr

/-- Acknowledge the flags of a mask in Bedrock (R291 step 7): at once, or once LOCK_ENGAGE has committed while the lock is
engaging. -/
def State.acknowledge (s : State) (mask : Nat) (lock : Bool) : State :=
  if lock && s.flint = flEngaging then { s with tmp := { s.tmp with ackWait := s.tmp.ackWait ||| mask } }
  else s.wr Fld.TMP_PENDING_PEND (s.rd Fld.TMP_PENDING_PEND &&& (0x7FFF ^^^ mask))

/-- Apply the union of the responses of detections, in the order RECORD, ALERT, LOCK (R291): every source is recorded in
ascending order, then the alert raised, then the lock engaged; the flags are acknowledged. -/
def State.respond (s : State) (srcs : List Nat) (i : DetectInfo) : State :=
  let u := (srcs.map s.response).foldl (· ||| ·) 0
  let b0 (c : Nat) : Nat := (if i.unpowered then 1 else 0) + (if i.failed.contains c then 2 else 0)
  let s := if u % 2 = 1 then
      srcs.foldl (fun s c => s.raise 0x80 c
        (beBytes 1 (b0 c) ++ beBytes 1 u ++ beBytes 1 (if c = 32 then i.machine else 0) ++
          beBytes 1 (if c = 32 then i.code else 0))) s
    else s
  let s := s.refreshTamperAlert
  let locker := (srcs.filter fun c => s.response c / 4 % 2 = 1).head?
  let s := if u / 4 % 2 = 1 then s.engage (locker.getD 0xFF) else s
  s.acknowledge ((srcs.map fun c => 2 ^ stickyBit c).foldl (· ||| ·) 0) (u / 4 % 2 = 1)

/-- The monitor a source is tested with (R300), numbered as its bit of TMP_STICKY: whether it is in its test window, which
suppresses its detections. -/
def State.underTest (s : State) (src : Nat) : Bool := s.tmp.testRun.any fun r => r.1 = stickyBit src

/-- Set the sticky flags of sources, with their sensors' bits, as pending (R289, R298). -/
def State.setFlags (s : State) (srcs : List Nat) : State :=
  let m := (srcs.map fun c => 2 ^ stickyBit c).foldl (· ||| ·) 0
  let l := (srcs.map fun c => if c < 24 then 2 ^ c else 0).foldl (· ||| ·) 0
  let s := s.wr Fld.TMP_STICKY_ALL (s.rd Fld.TMP_STICKY_ALL ||| m)
  let s := s.wr Fld.TMP_LIGHT_SENSOR (s.rd Fld.TMP_LIGHT_SENSOR ||| l)
  s.wr Fld.TMP_PENDING_PEND (s.rd Fld.TMP_PENDING_PEND ||| m)

/-- Whether Bedrock runs from the backup cell. -/
def State.onBat (s : State) : Bool := s.rd Fld.BK_STATUS_SUPPLY = 0x96 || s.rd Fld.BK_STATUS_SUPPLY = 0xA5

/-- Apply new detections (R289, R291, R298): flags and the detection count, and the responses when they are in force. On
the backup cell only the flags and UNPOWERED are set. -/
def State.detect (s : State) (srcs : List Nat) (i : DetectInfo) : State :=
  let srcs := srcs.filter fun c => !s.fused c && !s.underTest c
  if srcs = [] then s
  else
    let s := s.setFlags srcs
    if s.core.running then
      let s := s.count Fld.TMP_STATUS_DETECT srcs.length
      if s.tmp.responsesOn then s.respond srcs i else s
    else if s.onBat then s.wrB Fld.TMP_STICKY_UNPOWERED true
    else s

/-! ### The unlock (R297) -/

/-- The flags of TMP_STICKY a set of conditions keeps. -/
def State.keptFlags (s : State) : Nat × Nat :=
  let held := s.tmp.cond.filter fun c => !s.fused c.val
  ((held.map fun c => 2 ^ stickyBit c.val).foldl (· ||| ·) 0,
   (held.map fun c => if c.val < 24 then 2 ^ c.val else 0).foldl (· ||| ·) 0)

/-- The UNLOCK part of a transaction: its Audit Trail entry with TMP_STICKY before any clearing, and the Strata lock state
cleared (R297 steps 1 and 2). -/
def State.unlockBuild (s : State) (b : Build) (roles keys : BitVec 8) : Build :=
  (b.audit 0x12 roles keys (beBytes 4 (s.rd Fld.TMP_STICKY_ALL))).st fun st => { st with lockFlag := false }

/-- What follows the commit of an UNLOCK (R297 steps 2 to 4): the Bedrock lock bit cleared and Flint UNLOCKED, the flags of
sources whose condition is absent and UNPOWERED cleared, and every source whose condition holds detected anew. -/
def State.unlockEffect (s : State) : State :=
  let s := { s with bk := { s.bk with lock := false }, sec := { s.sec with unlockDeferred := none } }
  let s := s.setFlint flUnlocked
  let (m, l) := s.keptFlags
  let s := s.wr Fld.TMP_STICKY_ALL (s.rd Fld.TMP_STICKY_ALL &&& m)
  let s := s.wr Fld.TMP_LIGHT_SENSOR (s.rd Fld.TMP_LIGHT_SENSOR &&& l)
  let s := s.wr Fld.TMP_PENDING_PEND (s.rd Fld.TMP_PENDING_PEND &&& m)
  (s.refreshTamperAlert).detect (s.tmp.cond.map (·.val)) {}

end Sys2Proof.Machine
end

