-- ==== Sys2Proof/Machine/Escalate.lean ====
section
/-!
DEFINITION. Escalation (R39 to R46, R461): the record of a contained error, region failures and the chip response, the
end of a recorder freeze, and failures of Strata banks and areas (R237, R239, R256, R257, R264).
-/

namespace Sys2Proof.Machine

/-! ### Records of errors (R461) -/

/-- Region numbers of SYS_ESC_LAST. -/
def regionNo : Region → Nat
  | .aq => 0
  | .mt => 1
  | .lg => 2
  | .ifr => 3

/-- ERROR codes of a unit fault. -/
def errorOf : FaultKind → Nat
  | .corrected => 0x00
  | .ecc => 0x01
  | .microcode => 0x02
  | .watchdog => 0x03

/-- Region, block and cell of a unit (SYS_ESC_LAST, R28). -/
def unitPlace : FaultUnit → Nat × Nat × Nat
  | .bayEngine n => (1, n.val / 4, n.val % 4)
  | .procEngine n => (1, 4, n.val)
  | .accel n => (1, 5 + n.val, 0)
  | .garnet => (2, 1, 0)
  | .netEngine n => (3, n.val, 0)

/-- Write the record of an error at the level that contained it, and raise ESCALATION with it (R461). -/
def State.escRecord (s : State) (level region block cell cause error : Nat) : State :=
  let v := level * 2 ^ 30 + region * 2 ^ 28 + block * 2 ^ 22 + cell * 2 ^ 16 + cause * 2 ^ 8 + error
  let s := s.wr Fld.SYS_ESC_LAST_ALL v
  let s := s.wr Fld.SYS_ESC_LAST_T_OPSEC s.opsec
  s.raise evEscalation 0xFF (beBytes 4 v)

/-- Count an error that reached block level (SYS_ESC_STATUS.BLOCK, SYS_ESC_COUNT.BLOCK). -/
def State.escBlock (s : State) (region : Nat) : State :=
  (s.wr Fld.SYS_ESC_STATUS_BLOCK (s.rd Fld.SYS_ESC_STATUS_BLOCK ||| 2 ^ region)).count Fld.SYS_ESC_COUNT_BLOCK

/-- Count an error that reached region level. -/
def State.escRegion (s : State) (region : Nat) : State :=
  (s.wr Fld.SYS_ESC_STATUS_REGION (s.rd Fld.SYS_ESC_STATUS_REGION ||| 2 ^ region)).count Fld.SYS_ESC_COUNT_REGION

/-! ### Recorder freeze (R255) -/

/-- End a freeze, if one is active. -/
def State.endFreeze (s : State) : State :=
  match s.rcd.freezeStart with
  | none => s
  | some _ =>
    let s := s.setRcd { s.rcd with
      freezeStart := none, freezeEnd := some s.now, emptySince := s.rcd.queue.isEmpty
      queue := s.rcd.queue.map fun (e : Event) => { e with held := true }
      clear := s.rcd.clear.map fun (c : ClearJob) => { c with held := true }
      periodic := s.rcd.periodic.map fun (r : Record) => { r with flags := r.flags ||| 4 }
      heldBack := s.rcd.dueByTime || s.rcd.dueByEmpty }
    (s.wrB Fld.REC_STATUS_FROZEN false).wr Fld.REC_RD_FROZEN_S 0

/-! ### The chip response (R43) -/

/-- The event CHIP_FREEZE: at the head of the queue (R243), or in a last-resort slot when the recorder is dead or region LG
has failed (R257). -/
def State.chipFreezeEvent (s : State) : State :=
  let p := beBytes 4 (s.rd Fld.SYS_ESC_STATUS_ALL) ++ beBytes 4 (s.rd Fld.SYS_ESC_LAST_ALL)
  let s := s.endFreeze
  if s.recDead || s.esc.failed.contains .lg then s.lastResort (s.stamp evChipFreeze 0xFF p)
  else s.raiseFront evChipFreeze 0xFF p

/-- Freeze the ledger at its last commit (R43 step 2): quanta are discarded, and every waiting transaction but one whose
body write has begun. -/
def State.freezeLedger (s : State) : State :=
  let keep := if snapPending s.led.copies || areaDead s.str 0 then [] else s.led.queue.take 1
  let s := { s with led := { s.led with frozen := true, queue := keep, quanta := [], bounds := [], site := [], lateSite := [] } }
  s.wr Fld.LED_STATUS_STATE 3

/-- The region of a number of SYS_ESC_LAST. -/
def regionOf (n : Nat) : Region := if n = 0 then .aq else if n = 1 then .mt else if n = 2 then .lg else .ifr

/-- The two records of a region failure: 0x0A of the region, then 0x0B of the chip response (R461). -/
def State.escFail (s : State) (region block cell error : Nat) : State :=
  (s.escRecord 2 region block cell 0x0A error).escRecord 3 region block cell 0x0B error

/-- A region fails (R43): STATE FROZEN, the ledger frozen, ALERT_N, SOLE to a twin whose link works, the records 0x0A and
0x0B, CHIP_FREEZE, a load abandoned, and the restart timer. While the chip is FROZEN a further failure makes no second
response; one within the same millisecond whose region stands before the first in the order AQ, MT, LG, IF is named by the
records in its place. DEDUCED: "in the same cycle" is taken to the model's millisecond, and a later failure only sets FAIL, so
that REGION goes on naming the first (notes/assumptions/135.md). -/
def State.regionFail (s : State) (region block cell error : Nat) : State :=
  let already := s.chip = chipFrozen
  let s := s.wr Fld.SYS_ESC_STATUS_FAIL (s.rd Fld.SYS_ESC_STATUS_FAIL ||| 2 ^ region)
  let mine := some (region, block, cell, error, s.now)
  let s := { s with esc := { s.esc with failed := regionOf region :: s.esc.failed } }
  if already then
    if s.esc.first.any fun (x : Nat × Nat × Nat × Nat × Nat) => decide (region < x.1) && decide (s.now = x.2.2.2.2) then
      { s with esc := { s.esc with first := mine } }.escFail region block cell error
    else s
  else
    let s := { s with esc := { s.esc with first := mine } }.setChip chipFrozen
    let s := (s.freezeLedger).alert Fld.SYS_ALERT_FROZEN true
    let s := if region ≠ 3 && s.flag Fld.TWN_STATUS_PRESENT && s.rd Fld.TWN_STATUS_STATE = twPaired then s.twinSend ftSole [] else s
    let s := s.count Fld.SYS_ESC_COUNT_CHIP
    let s := s.escFail region block cell error
    let s := s.loadAbandon.chipFreezeEvent
    { s with esc := { s.esc with frozenAt := some s.now } }.wrB Fld.SYS_STATUS_RESTART_PENDING
      (s.rd Fld.SYS_ESC_CTRL_AUTO_RESTART_S ≠ 0)

/-! ### Bank and area failures (R237, R239, R256, R264) -/

/-- An area has died (R239): the event STRATA_AREA_DEAD, and the alert or the region failure its chapter gives. -/
def State.areaDies (s : State) (area : Nat) : State :=
  match area with
  | 0 => ((s.raise evStrataAreaDead 0 []).escRegion 2).regionFail 2 2 0 0x10
  | 3 => (s.alert Fld.SYS_ALERT_REC_DEAD true).raise evStrataAreaDead 3 []
  | 4 => (s.raise evStrataAreaDead 4 []).alert Fld.SYS_ALERT_AUD_DEAD true
  | a => s.raise evStrataAreaDead a []

/-- The entry AUD_BANK_FAIL of an Audit Trail that runs on one bank: committed in a COMMAND transaction as soon as the ledger
takes one, at a later start too (R264). -/
def State.audBankEntry (s : State) : State :=
  let due := areaSingle s.str 4 && !s.nextImage.st.audFailed && s.ledgerOk && !s.core.warned
  match s.str.failed.find? fun (b : Fin 16) => 14 ≤ b.val with
  | none => s
  | some b =>
    if !due then s
    else
      let x := (s.newBuild s.nextImage).audit 0x0C 0 keysNone (beBytes 1 b.val ++ beBytes 1 s.str.audCause.toNat)
      s.enqueue [(x.st fun st => { st with audFailed := true }).txn 0x06 .audBankFail]

/-- A bank fails (R237): the controller stops using its copy and raises STRATA_BANK_FAIL; a failure of the recorder's bank
ends a freeze (R255); one of the Audit Trail's commits AUD_BANK_FAIL (R264). A corrected error is counted only (R222). -/
def State.bankFail (s : State) (f : BankFail) : State :=
  if f.bank ∈ s.str.failed then s
  else if f.cause = 0 then s.eccCorrected
  else
    let a := (areaOf f.bank.val).1
    let dead := areaDead s.str a
    let s := s.markBank f
    let s := if a = 3 then s.endFreeze else s
    let now := areaDead s.str a
    let s := s.raise evStrataBankFail f.bank.val (beBytes 1 f.cause.toNat)
    let s := if a = 4 && !now then
        { s with str := { s.str with audCause := f.cause } }.audBankEntry
      else s
    if now && !dead then s.areaDies a else s

/-- Failures of several banks in one cycle; banks fail while the core is powered. -/
def State.bankFails (s : State) (fs : List BankFail) : State :=
  if s.core.running then s.sameCycle fun s => fs.foldl State.bankFail s else s

end Sys2Proof.Machine
end

