-- ==== Sys2Proof/Machine/Commit.lean ====
section
/-!
DEFINITION. Completing commits (R194, R227, R228, R231 to R233): what follows the commit of each kind of transaction,
post-commit copies, compaction, and the COMMAND transactions that commands make inside their own step.
-/

namespace Sys2Proof.Machine

/-! ### Copies and compaction (R228, R232) -/

/-- The oldest pending copy reaches its home area. An Audit Trail entry whose area is dead has no home and counts in
AUD_LOST (R264). -/
def State.copyDone (s : State) : State :=
  match s.led.copies with
  | [] => s
  | c :: cs =>
    let lost := match c.entry with
      | .audit _ _ => areaDead s.str 4
      | _ => false
    let t := { s with str := copyHome s.fuses.uid s.str c.entry, led := { s.led with copies := cs } }
    let t := if lost then t.count Fld.AUD_LOST_COUNT else t
    ((t.wrB Fld.STR_STATUS_SNAP_PENDING (snapPending cs)).refreshAnchor).maybeCompact

/-- A pending snapshot copy reaches its home, and the copies before it (R228). -/
def State.snapDone (s : State) : State :=
  Nat.iterate (fun (s : State) => if snapPending s.led.copies then s.copyDone else s) s.led.copies.length s

/-- The new base in a copy of the ledger area: in the slot that is not current, its journal blocks freed (R232). -/
def StrataCopy.rebase (c : StrataCopy) (curB : Bool) (q : BitVec 32) (img : Ledger) : StrataCopy :=
  let c := { c with
    journal := c.journal.filter fun (j : JTxn) => (q - j.tseq).msb
    freed := c.freed ++ c.journal.filter fun (j : JTxn) => !(q - j.tseq).msb }
  if curB then { c with baseA := some (newBase q img) } else { c with baseB := some (newBase q img) }

/-- Both headers of the new base are read back: the base is current and its journal blocks are free (R232). -/
def State.compacted (s : State) : State :=
  match s.led.compacting with
  | none => s
  | some (q, img) =>
    let t := { s with
      str := { (s.str.each 0 fun c => c.rebase s.str.curB q img) with curB := !s.str.curB }
      led := { s.led with compacting := none } }
    let t := (t.wr Fld.STR_BASE_SEQ_BASE_SEQ q.toNat).wrB Fld.STR_STATUS_COMPACTING false
    ((t.wrap Fld.STR_COMPACT_COUNT).refreshJournal).maybeCompact

/-! ### What follows a commit -/

/-- Readings take the words of the LG area as this commit leaves them (R281). -/
def State.lgKeep (s : State) : State :=
  { s with led := { s.led with
    lgShown := s.regs.filter fun (x : Nat × Word) => decide (0x400000 ≤ x.1) && decide (x.1 < 0x500000)
    lgSnap := s.snapSel } }

/-- A tick's commit shows (R194 step 5): live registers, LED_TICK_SEQ, the contribution, the twin DELTA, the panel. -/
def State.tickLive (s : State) : State :=
  let old := s.led.live
  let out := s.led.afterOutage
  let s := { s with led := { s.led with live := s.led.com, liveTseq := s.str.tseq, liveOutage := out, afterOutage := false } }
  let s := (s.refresh).wrB Fld.LED_STATUS_OUTAGE false
  let s := ((s.wrap Fld.LED_TICK_SEQ_SEQ).irq Fld.SYS_IRQ_STAT_TICK).lgKeep
  ((s.contribSend old).deltaSend old).panelTick

/-- The live registers take the committed image, with no tick of their own. -/
def State.showLive (s : State) : State := { s with led := { s.led with live := s.led.com } }.refresh.lgKeep

/-- An UNLOCK transaction of its own, right after LOCK_ENGAGE (R294): those that wait behind follow it. -/
def State.deferredUnlock (s : State) (us : Nat) (roles keys : BitVec 8) : State :=
  let b := s.unlockBuild (s.newBuild s.led.com) roles keys
  let t := (s.setFlint flReleasing).commitTxn us (b.txn 0x06 .command)
  ((t.setQueue t.led.queue).showLive).unlockEffect

/-- What follows the commit of a transaction, by what it is for. -/
def State.committed (s : State) (us : Nat) (a : TxnAct) : State :=
  match a with
  | .tick true => s.tickLive
  | .tick false => s.refreshHead
  | .final => { s with led := { s.led with liveTseq := s.str.tseq } }.showLive
  | .outage last =>
    if last then
      let s := { s with led := { s.led with liveTseq := s.str.tseq, liveOutage := true, afterOutage := true } }.showLive
      ((s.wrB Fld.LED_STATUS_OUTAGE true).wrB Fld.STR_STATUS_OUTAGE_PROC false).lgKeep
    else s.refreshHead
  | .lockEngage =>
    let s := s.showLive
    let s := if s.flint = flEngaging then s.setFlint flLocked else s
    let w := s.tmp.ackWait
    let s := ({ s with tmp := { s.tmp with ackWait := 0 } }).acknowledge w false
    match s.sec.unlockDeferred with
    | some (r, k) => s.deferredUnlock us r k
    | none => s
  | .audBankFail => s.showLive
  | .command => s.showLive

/-- Commit the transaction at the head of the queue, unless a snapshot copy is pending and it is not the final one
(R228); nothing commits when the ledger area is dead. -/
def State.commitHead (s : State) (us : Nat) : State :=
  match s.led.queue with
  | [] => s
  | t :: ts =>
    if areaDead s.str 0 || (snapPending s.led.copies && t.act ≠ .final) then s
    else (({ s with led := { s.led with queue := ts } }).commitTxn us t).committed us t.act

/-! ### COMMAND transactions inside a command's step -/

/-- The duration STR_COMMIT reports for a commit inside another step: a free value. -/
def State.freeUs (s : State) : Nat := (Config.commitUs s.free).toNat

/-- What may befall a ledger bank during a commit made inside another step (R464): a free value. -/
def State.meetFault (s : State) : State :=
  match Config.commitFault s.free with
  | none => s
  | some x => s.bankFail { bank := Fin.ofNat 16 x.1.val, cause := x.2 }

/-- Commit every transaction that waits, each once the snapshot copy before it is complete (R228). -/
def State.drain (s : State) : State :=
  Nat.iterate (fun (s : State) => (((s.snapDone).meetFault).commitHead s.freeUs).drawn) s.led.queue.length s

/-- Make one transaction of a command: the waiting ones first, then its own, which commits and shows. It fails when the
ledger cannot commit, or when the commit finds no copy that can take it (R464). -/
def State.command (s : State) (kind : Nat) (f : Build → Build) : Bool × State :=
  if !s.ledgerOk || s.core.warned then (false, s)
  else
    let s := ((s.drain).snapDone).meetFault
    if !s.ledgerOk then (false, s.drawn)
    else
      let b := f (s.newBuild s.led.com)
      (true, ((s.commitTxn s.freeUs (b.txn kind .command)).showLive).drawn)

end Sys2Proof.Machine
end

