-- ==== Sys2Proof/Machine/Access.lean ====
section
/-!
DEFINITION. Access to Sealed registers (R5, R7, R274 to R278): the session of a path, the tests a Sealed write meets, armed
authorisations, and the ledger time that commands compare with.
-/

namespace Sys2Proof.Machine

/-- How a register takes a write: taken, refused under R7, or no such register on the part (R433). -/
inductive WStatus where
  | ok
  | refused
  | unimplemented
deriving DecidableEq, Repr

/-! ### Roles and sessions (R267, R274) -/

/-- Role bits of R267. -/
def roleOperator : Nat := 1
def roleSupplier : Nat := 2
def roleReceiver : Nat := 4
def roleVerifier : Nat := 8
def roleService : Nat := 16

/-- The session open on a path: it ends 300 s after it opened. -/
def State.session (s : State) (p : Path) : Option Session :=
  (s.path p).session.filter fun x => s.now < x.opened + 300000

/-- What stands in the way of a single-role action: no session, the lock, or the session's role (R7, R275). -/
inductive Gate where
  | pass (x : Session)
  | noSession
  | locked
  | role
deriving DecidableEq, Repr

/-- The test of a Sealed write: a session, then the lock where it refuses the action's category, then the role. -/
def State.gate (s : State) (p : Path) (roles : Nat) (lockCategory : Bool) : Gate :=
  match s.session p with
  | none => .noSession
  | some x =>
    if lockCategory && s.locked then .locked
    else if x.role.toNat &&& roles = 0 then .role else .pass x

/-! ### Armed authorisations (R276) -/

/-- What stands in the way of a dual action. -/
inductive DualGate where
  | pass (a : Armed)
  | noSession
  | locked
  | authorisation
deriving DecidableEq, Repr

/-- Use up the armed authorisation of a command on a path: its first write takes it, accepted or not (R276). -/
def State.disarm (s : State) (p : Path) (cmd : Nat) : State :=
  let x := s.path p
  s.setPath p { x with armed := x.armed.filter fun a => a.cmd ≠ cmd }

/-- The armed authorisation of a command for a target, within 300 s of its first token. -/
def State.armedFor (s : State) (p : Path) (cmd : Nat) (target : List Byte) : Option Armed :=
  (s.path p).armed.find? fun a => a.cmd = cmd && a.target = padTo 24 target && s.now ≤ a.firstAt + 300000

/-- The test of a write that needs dual authorisation (R275, R276): a session, then the lock, then a matching armed
authorisation. -/
def State.gateDual (s : State) (p : Path) (cmd : Nat) (target : List Byte) : DualGate :=
  match s.session p with
  | none => .noSession
  | some _ =>
    if s.locked && lockRefuses cmd then .locked
    else match s.armedFor p cmd target with
      | some a => .pass a
      | none => .authorisation

/-- An access of the register space: while the core is in reset no access path works (R382, R428), and nothing happens. -/
def State.host (s : State) (f : State → WStatus × State) : State := if s.core.running then (f s).2 else s

/-- A read of the register space that has an effect. -/
def State.hostRead (s : State) (f : State → Word × State) : State := if s.core.running then (f s).2 else s

/-! ### Ledger time now -/

/-- The ledger state the next tick starts from; ledger time is invalid until it has been taken in this start. -/
def State.ledNow (s : State) : LedState :=
  let st := s.nextImage.st
  if s.led.timeTaken then st else { st with valid := false, tsrc := 0 }

/-- Ledger time at this instant, in ms: the last processed boundary's, carried on by the elapsed time (R37). -/
def State.ledNowMs (s : State) : Nat := ((s.ledNow.time * 1000 + (s.now - s.led.timeAt) : Nat) + s.ledNow.phase).toNat

/-- A word the spec leaves open. -/
def State.openWord (s : State) : Nat := (Config.openWord s.free).toNat

end Sys2Proof.Machine
end

