-- ==== Sys2Proof/Machine/Xref.lean ====
section
/-!
DEFINITION. The corrected timescale (R101): the duration of an epoch at the XREF rate error in force, and the corrected time
of an epoch across the last changes of that rate.
-/

namespace Sys2Proof.Machine

/-- Duration of an epoch in ns at a rate r coded in 2^-16 ppm. -/
def epochNs (rate : Int) : Real := 9765625 / 10000 * (1 - (rate : Real) / 65536000000)

/-- Corrected time of an epoch, ns: counted from the last change of rate at or before it. -/
def State.corrected (s : State) (e : Real) : Real :=
  let r := (s.met.rates.find? fun (x : RateFrom) => decide ((x.epoch : Real) ≤ e)).getD (s.met.rates.getLastD {})
  r.ns + (e - (r.epoch : Real)) * epochNs r.rate

/-- The epoch at a corrected time. -/
def State.epochAt (s : State) (ns : Real) : Real :=
  let r := (s.met.rates.find? fun (x : RateFrom) => decide (x.ns ≤ ns)).getD (s.met.rates.getLastD {})
  (r.epoch : Real) + (ns - r.ns) / epochNs r.rate

/-- The epoch `ns` nanoseconds after an epoch. -/
def State.later (s : State) (e ns : Real) : Real := s.epochAt (s.corrected e + ns)

/-- The nanoseconds between two epochs. -/
def State.between (s : State) (a b : Real) : Real := s.corrected b - s.corrected a

/-- A rate is in force from an epoch on; the last eight changes are kept for what still lies before them. -/
def State.rateFrom (s : State) (epoch : Nat) (rate : Int) : State :=
  let x : RateFrom := { epoch, ns := s.corrected epoch, rate }
  ({ s with met := { s.met with
    rates := (x :: s.met.rates.filter fun (y : RateFrom) => y.epoch < epoch).take 8 } }).wrS Fld.MT_XREF_RATE rate

/-- While PTP is not locked r is the trim of the image, and SRC reads 0 (R101). -/
def State.rateTrim (s : State) (epoch : Nat) : State :=
  (s.rateFrom epoch (s.rdS Fld.MT_XREF_TRIM_TRIM)).wrB Fld.MT_XREF_SRC false

end Sys2Proof.Machine
end

