-- ==== Sys2Proof/Machine/Align.lean ====
section
/-!
DEFINITION. Epoch alignment (R33, R34, R364, R365): the alignment base, the boundary that ends the tick in progress, and the
alignment to the PTP second.
-/

namespace Sys2Proof.Machine

/-- Epochs of one second. -/
def secondEpochs : Nat := 1024000

/-- The alignment base B. -/
def State.base (s : State) : Nat := s.rd Fld.SYS_EPOCH_SEC_BASE

/-- The epoch at which the tick in progress ends (R33, R34): the first boundary under B at least 1 s after it began. -/
def State.nextBoundary (s : State) : Nat :=
  let t := s.core.tickEpoch + secondEpochs
  let r := (t + secondEpochs - s.base % secondEpochs) % secondEpochs
  if r = 0 then t else t + (secondEpochs - r)

/-- CAL_WINDOW follows the epoch counter (R75). -/
def State.setEpoch (s : State) (e : Nat) : State :=
  let s := s.wr Fld.SYS_EPOCH_EPOCH e
  (s.wr Fld.CAL_WINDOW_WINDOW s.acq.window).wr Fld.CAL_WINDOW_POS (min (e - s.acq.window * 2 ^ 24) (2 ^ 24 - 1))

/-- Set a new alignment base; the tick in progress ends under it (R34). -/
def State.setBase (s : State) (b : Nat) : State := s.wr Fld.SYS_EPOCH_SEC_BASE b

/-- Epoch alignment is complete: EPOCH_ALIGNED reads 1 (R34). -/
def State.epochAlign (s : State) (b : Nat) : State := (s.setBase b).wrB Fld.SYS_TIME_EPOCH_ALIGNED true

/-- Whether the device is a member of a cascade (R352). -/
def State.isMember (s : State) : Bool := s.flag Fld.CSC_CFG_ENABLE && !s.flag Fld.CSC_STATUS_ROLE

/-- Whether the device is a twin's secondary whose primary is present (R365). -/
def State.followsTwin (s : State) : Bool :=
  s.flag Fld.TWN_CFG_ENABLE && !s.flag Fld.TWN_STATUS_ROLE && s.flag Fld.TWN_STATUS_PRESENT

/-- The PTP clock now, in ns (R323): each of the 125 000 IF cycles of a millisecond adds 8 ns and the trim. -/
def State.ptpNow (s : State) : Nat :=
  s.ptp.ns + (((s.now - s.ptp.at_) * 125000 : Nat) * (2 ^ 35 + s.ptp.trim)).toNat / 2 ^ 32

/-- The epoch of a PTP second, from the clock's reading at an epoch. -/
def ptpSecondEpoch (epoch ns : Nat) : Nat :=
  epoch + ((1000000000 - ns % 1000000000) * 1024 + 500000) / 1000000

/-- At its first PTP lock a device with no master and no present primary aligns B to the PTP second, from the capture of the
last boundary (R364). -/
def State.alignPtp (s : State) : State :=
  if s.isMember || s.followsTwin || s.ring.ptpAligned then s
  else
    let b := if s.core.ticks = 0 then ptpSecondEpoch s.epoch s.ptpNow
      else ptpSecondEpoch s.core.tickEpoch (s.rd Fld.PTP_EPOCH_CAP_NS)
    ({ s with ring := { s.ring with ptpAligned := true } }).epochAlign b

/-! ### The commands -/

def execEpochAlign (base : BitVec 64) (s : State) : Host.Outcome State Fault Refusal := .next (s.epochAlign base.toNat)

end Sys2Proof.Machine
end

