-- ==== Sys2Proof/Machine/Bedrock.lean ====
section
/-!
DEFINITION. Bedrock (R333 to R350): the supply switch, the power-on reset, the calendar with its shadows, halt and load,
the automatic set, alarms and PWRON, the trim window and the backup-cell measurement.
-/

namespace Sys2Proof.Machine

/-- Event codes of R348. -/
def evRtcAlarm : Nat := 0xB0
def evBkpLost : Nat := 0xB1
def evVbatLow : Nat := 0xB2
def evRtcSet : Nat := 0xB3
def evRtcSetRefused : Nat := 0xB4

/-! ### The calendar (R338) -/

/-- 2000-01-01 and 2200-01-01 in seconds from 1970-01-01. -/
def rtcFirst : Nat := 946684800
def rtcEnd : Nat := 7258118400

/-- Seconds from 1970-01-01 of a date and time. -/
def civilSeconds (y mo d h mi sec : Nat) : Nat := (daysFrom y mo d * 86400).toNat + h * 3600 + mi * 60 + sec

/-- The calendar fields as seconds from 1970-01-01. -/
def State.rtcFields (s : State) : Nat :=
  civilSeconds (s.rd Fld.RTC_YEAR_VALUE) (s.rd Fld.RTC_MONTH_VALUE) (s.rd Fld.RTC_DAY_VALUE) (s.rd Fld.RTC_HOUR_VALUE)
    (s.rd Fld.RTC_MIN_VALUE) (s.rd Fld.RTC_SEC_VALUE)

/-- Whether a host halt is active (R340). -/
def State.halted (s : State) : Bool := s.flag Fld.RTC_CTRL_HALTACK

/-- The time the RTC stands for: while it is halted, the frozen time plus HALT_S (R340). -/
def State.rtcSeconds (s : State) : Nat := s.rtcFields + (if s.halted then s.rd Fld.RTC_HALT_HALT_S else 0)

/-- The same in ms, with the prescaler's phase. -/
def State.rtcMs (s : State) : Nat := s.rtcSeconds * 1000 + min (s.now - s.bk.secAt) 999

/-- Load the calendar; it rolls over from the end of 2199 to 2000. The weekday follows the date (R338). -/
def State.setRtc (s : State) (secs : Nat) : State :=
  let v := if secs < rtcEnd then secs else rtcFirst + (secs - rtcEnd)
  let (y, mo, d) := dateOf ((v / 86400 : Nat) : Int)
  let r := v % 86400
  let s := ((s.wr Fld.RTC_YEAR_VALUE y).wr Fld.RTC_MONTH_VALUE mo).wr Fld.RTC_DAY_VALUE d
  let s := ((s.wr Fld.RTC_HOUR_VALUE (r / 3600)).wr Fld.RTC_MIN_VALUE (r / 60 % 60)).wr Fld.RTC_SEC_VALUE (r % 60)
  s.wr Fld.RTC_WDAY_WDAY (weekday ((v / 86400 : Nat) : Int))

/-- SYS_TIME.RTC_VALID: the RTC is set and BKP_LOST reads 0. -/
def State.refreshRtcValid (s : State) : State :=
  s.wrB Fld.SYS_TIME_RTC_VALID (s.flag Fld.RTC_CTRL_SET && !s.flag Fld.BK_STATUS_BKP_LOST)

/-! ### The prescaler and its trim (R338, R344) -/

/-- Crystal cycles of a trim window. -/
def trimCycles : Nat := 4194304

/-- Corrections that a value of RTC_TRIM has made after `c` cycles of a window, below 0 where it skips: one every
floor(4 194 304 / COUNT) cycles. -/
def trimDone (w : Word) (c : Int) : Int :=
  let n := bitsOf w.toNat 0 10
  let k : Nat := if n = 0 then 0 else min n (c.toNat / (trimCycles / n))
  if w.getLsbD 10 then -(k : Int) else k

/-- The prescaler's count `n` crystal cycles after the last roll-over. -/
def Bedrock.phase (x : Bedrock) (n : Nat) : Int := n + x.extra + trimDone x.trim (x.cycle + n) - trimDone x.trim x.cycle

/-- The crystal cycles of the second in progress: until the prescaler has counted 32 768. -/
def Bedrock.secondCycles (x : Bedrock) : Nat :=
  (((List.range 64).map fun k => 32736 + k).find? fun n => 32768 ≤ x.phase n).getD 32768

/-- A roll-over of the prescaler at a time. -/
def Bedrock.rollOver (x : Bedrock) (now : Nat) : Bedrock :=
  let n := x.secondCycles
  { x with secAt := now, cycle := x.cycle + n, extra := x.phase n - 32768 }

/-- The crystal cycles since the last roll-over. -/
def State.sinceRoll (s : State) : Nat := (s.now - s.bk.secAt) * 32768 / 1000

/-- A trim window begins, with the value the register holds (R344). -/
def State.trimWindow (s : State) : State :=
  let x := s.bk
  let n := s.sinceRoll
  { s with bk := { x with trim := s.word Adr.RTC_TRIM, cycle := -(n : Int), extra := x.phase n - n } }

/-! ### Reading the time (R339) -/

/-- Word `i` of the eight RTC time registers from RTC_SUBSEC, live; the prescaler count follows the time since the last
roll-over. -/
def State.rtcLive (s : State) (i : Nat) : Word :=
  if i = 0 then BitVec.ofNat 32 (min (s.bk.phase s.sinceRoll).toNat 32767)
  else s.word (Adr.RTC_SUBSEC + 4 * i)

/-- The shadows a path holds: for 2 ms from the copying read. -/
def State.rtcHeld (s : State) (p : Path) : Option (List Word) :=
  (s.path p).rtcShadow.bind fun x => if s.now < x.1 + 2 then some x.2 else none

/-- Release a path's shadows. -/
def State.rtcRelease (s : State) (p : Path) : State := s.setPath p { s.path p with rtcShadow := none }

/-- The shadows of a path end 2 ms after the copying read. -/
def State.rtcExpire (s : State) (p : Path) : State :=
  match (s.path p).rtcShadow with
  | none => s
  | some x => (s.until (x.1 + 2)).rtcRelease p

/-- A read of RTC time register `i` on a path: it copies all eight into the shadows unless they are held, and returns a
shadow; the read of RTC_YEAR releases the set. -/
def State.rtcRead (s : State) (p : Path) (i : Nat) : Word × State :=
  let (ws, t) := match s.rtcHeld p with
    | some ws => (ws, s)
    | none =>
      let ws := (List.range 8).map s.rtcLive
      (ws, s.setPath p { s.path p with rtcShadow := some (s.now, ws) })
  (ws.getD i 0, if i = 7 then t.rtcRelease p else t)

/-! ### Halt and load (R340 to R342) -/

/-- Leave the halt and load a time; the prescaler phase is not changed. -/
def State.endHalt (s : State) (secs : Nat) : State :=
  let s := { s with bk := { s.bk with haltBy := none, held := [] } }
  ((s.setRtc secs).wrB Fld.RTC_CTRL_HALT false).wrB Fld.RTC_CTRL_HALTACK false

/-- The number of a path in the event of a set. -/
def State.haltPath (s : State) : Nat := s.bk.haltBy.elim 0xFF pathNo

/-- A set is refused or a halt ends without one: RESULT and RTC_SET_REFUSED (R341, R342). -/
def State.rtcRefused (s : State) (path code : Nat) : State :=
  (s.wr Fld.RTC_CTRL_RESULT code).raise evRtcSetRefused path (beBytes 1 code)

/-- A halt ends because its session ends, at a power-fail warning or at a core reset (R342): the frozen time plus HALT_S is
loaded, RESULT reads ABANDONED. -/
def State.rtcAbandon (s : State) : State :=
  if s.halted then (s.endHalt s.rtcSeconds).rtcRefused s.haltPath 8 else s

/-- HALT = 1 (R340): the calendar is frozen; the counters start. -/
def State.rtcHalt (s : State) (p : Path) : State :=
  if s.halted then s
  else
    let s := { s with bk := { s.bk with haltBy := some p, held := [] } }
    let s := (s.wrB Fld.RTC_CTRL_HALT true).wrB Fld.RTC_CTRL_HALTACK true
    (s.wrB Fld.RTC_CTRL_HALT_OVF false).wr Fld.RTC_HALT_ALL 0

/-- A field of the set: as written, or frozen. -/
def State.setField (s : State) (i : Nat) : Nat := (s.bk.held.lookup i).getD (s.word (Adr.RTC_SUBSEC + 4 * i)).toNat

/-- Whether the written date exists and every field is in range (R341). -/
def State.setValid (s : State) : Bool :=
  let y := s.setField 7
  let mo := s.setField 6
  let d := s.setField 5
  2000 ≤ y && y ≤ 2199 && 1 ≤ mo && mo ≤ 12 && 1 ≤ d && d ≤ monthDays y mo &&
  s.setField 3 < 24 && s.setField 2 < 60 && s.setField 1 < 60

/-- The written time, before PEND is added. -/
def State.setSeconds (s : State) : Nat :=
  civilSeconds (s.setField 7) (s.setField 6) (s.setField 5) (s.setField 3) (s.setField 2) (s.setField 1)

/-- The tests of R341 in their order: the code of the first that fails, or the armed TIME_SET that authorises the set, if
one does. -/
def State.setTest (s : State) (p : Path) (x : Session) : Nat ⊕ Option Armed :=
  let written := s.setSeconds
  let tested := written + s.rd Fld.RTC_HALT_PEND
  let st := s.ledNow
  let d : Int := (tested : Int) - ((s.ledNowMs / 1000 : Nat) : Int)
  let needs := (st.valid && 60 < d.natAbs) || tested ≤ st.lastClosed
  let armed := s.armedFor p 0x0020 (beBytes 8 written)
  if !s.setValid then .inl 2
  else if s.rd Fld.SYS_TIME_TIME_SRC = 2 || s.rd Fld.SYS_TIME_TIME_SRC = 3 then .inl 3
  else if s.locked then .inl 4
  else if armed.isSome then .inr armed
  else if needs || x.role.toNat &&& (roleOperator + roleSupplier + roleReceiver) = 0 then .inl 5
  else .inr none

/-- HALT = 0 (R340, R341): the set is tested, committed with its entry RTC_SET and loaded, or refused and the frozen time
plus HALT_S loaded. The write uses up an armed TIME_SET. -/
def State.rtcLoadBy (s : State) (p : Path) (x : Session) : State :=
  if !s.halted then s.disarm p 0x0020
  else
    let tested := s.setSeconds + s.rd Fld.RTC_HALT_PEND
    let unset := s.rtcSeconds
    let test := s.setTest p x
    let valid := s.ledNow.valid
    let d : Int := (tested : Int) - ((s.ledNowMs / 1000 : Nat) : Int)
    let dBytes := if valid then ofSigned 32 d else s.openWord
    let t := s.disarm p 0x0020
    match test with
    | .inl code => (t.endHalt unset).rtcRefused (pathNo p) code
    | .inr a =>
      let roles := a.elim x.role (·.roles)
      let keys := a.elim (keysOne x.key) (·.keys)
      let how : Nat := if a.isSome then 1 else 0
      match t.command 0x06 fun b => b.audit 0x20 roles keys (beBytes 8 unset ++ beBytes 8 tested ++ beBytes 1 how) with
      | (false, t) => (t.endHalt unset).rtcRefused (pathNo p) 6
      | (true, t) =>
        let t := ((t.endHalt tested).wrB Fld.RTC_CTRL_SET true).wr Fld.RTC_CTRL_RESULT 1
        let t := { t with led := { t.led with rtcStepOk := a.isSome } }
        let t := t.refreshRtcValid.raise evRtcSet (pathNo p) (beBytes 8 tested ++ beBytes 4 dBytes)
        if valid then t else t.drawn

/-- A write of RTC_CTRL: HALT = 1 halts, HALT = 0 loads, inside any open session (R275, R340); HALT = 0 uses up an armed
TIME_SET, refused or not (R276). -/
def State.wRtcCtrl (s : State) (p : Path) (v : Word) : WStatus × State :=
  match s.session p with
  | none => (.refused, if v.msb then s else s.disarm p 0x0020)
  | some x => (.ok, if v.msb then s.rtcHalt p else s.rtcLoadBy p x)

/-- A write of RTC time register `i` (R340): held as the new time during a halt, else refused. RTC_WDAY takes no value and
RTC_SUBSEC no write at all (R275, R338). -/
def State.wRtcField (s : State) (p : Path) (i : Nat) (v : Word) : WStatus × State :=
  match s.session p with
  | none => (.refused, s)
  | some _ =>
    if !s.halted || i = 0 then (.refused, s)
    else if i = 4 then (.ok, s)
    else
      let h := (i, v.toNat % 2 ^ 16) :: s.bk.held.filter fun x => x.1 ≠ i
      let t := if s.bk.held = [] then s.wr Fld.RTC_HALT_PEND 0 else s
      (.ok, { t with bk := { t.bk with held := h } })

/-! ### Alarms and PWRON (R345, R346) -/

/-- The six fields an alarm compares: second, minute, hour, day, month, weekday, each with the alarm's value. -/
def State.alarmFields (s : State) : Nat → List (Nat × Nat)
  | 0 => [(s.rd Fld.RTC_SEC_VALUE, s.rd Fld.RTC_ALM0_TIME_SEC), (s.rd Fld.RTC_MIN_VALUE, s.rd Fld.RTC_ALM0_TIME_MIN),
      (s.rd Fld.RTC_HOUR_VALUE, s.rd Fld.RTC_ALM0_TIME_HOUR), (s.rd Fld.RTC_DAY_VALUE, s.rd Fld.RTC_ALM0_TIME_DAY),
      (s.rd Fld.RTC_MONTH_VALUE, s.rd Fld.RTC_ALM0_CFG_MONTH), (s.rd Fld.RTC_WDAY_WDAY, s.rd Fld.RTC_ALM0_CFG_WDAY)]
  | _ => [(s.rd Fld.RTC_SEC_VALUE, s.rd Fld.RTC_ALM1_TIME_SEC), (s.rd Fld.RTC_MIN_VALUE, s.rd Fld.RTC_ALM1_TIME_MIN),
      (s.rd Fld.RTC_HOUR_VALUE, s.rd Fld.RTC_ALM1_TIME_HOUR), (s.rd Fld.RTC_DAY_VALUE, s.rd Fld.RTC_ALM1_TIME_DAY),
      (s.rd Fld.RTC_MONTH_VALUE, s.rd Fld.RTC_ALM1_CFG_MONTH), (s.rd Fld.RTC_WDAY_WDAY, s.rd Fld.RTC_ALM1_CFG_WDAY)]

/-- MASK, ENABLE and PWRON of an alarm. -/
def State.alarmMask (s : State) (n : Nat) : Nat := if n = 0 then s.rd Fld.RTC_ALM0_CFG_MASK else s.rd Fld.RTC_ALM1_CFG_MASK
def State.alarmOn (s : State) (n : Nat) : Bool := if n = 0 then s.flag Fld.RTC_ALM0_CFG_ENABLE else s.flag Fld.RTC_ALM1_CFG_ENABLE
def State.alarmPwron (s : State) (n : Nat) : Bool := if n = 0 then s.flag Fld.RTC_ALM0_CFG_PWRON else s.flag Fld.RTC_ALM1_CFG_PWRON

/-- Whether an alarm fires at the calendar's new value (R345); with every field ignored it never does. -/
def State.alarmFires (s : State) (n : Nat) : Bool :=
  let m := s.alarmMask n
  s.alarmOn n && m ≠ 63 && ((s.alarmFields n).zipIdx).all fun (x, i) => m / 2 ^ i % 2 = 1 || x.1 = x.2

/-- A firing: the flag, and RTC_ALARM on the main supply; on the backup cell ALMn_BAT, and PWRON where selected (R345). -/
def State.alarm (s : State) (n : Nat) : State :=
  let s := s.wr Fld.RTC_ALM_STAT_ALL (s.rd Fld.RTC_ALM_STAT_ALL ||| 2 ^ n)
  if s.onBat then
    let s := s.wr Fld.RTC_ALM_STAT_ALL (s.rd Fld.RTC_ALM_STAT_ALL ||| 2 ^ (n + 2))
    if s.alarmPwron n && !s.flag Fld.BK_STATUS_PWRON then
      ({ s with bk := { s.bk with pwronAt := s.now } }).wrB Fld.BK_STATUS_PWRON true
    else s
  else s.raise evRtcAlarm n (beBytes 1 0)

/-- The alarms at a new calendar value. -/
def State.alarms (s : State) : State :=
  let s := if s.alarmFires 0 then s.alarm 0 else s
  if s.alarmFires 1 then s.alarm 1 else s

/-- At a start each ALMn_BAT raises RTC_ALARM with UNPOWERED and clears (R345). -/
def State.batAlarms (s : State) : State :=
  let one (s : State) (n : Nat) (f : Field) : State :=
    if s.flag f then (s.wrB f false).raise evRtcAlarm n (beBytes 1 1) else s
  one (one s 0 Fld.RTC_ALM_STAT_ALM0_BAT) 1 Fld.RTC_ALM_STAT_ALM1_BAT

/-- The seed of the PTP clock, at the first roll-over after a core reset with a valid RTC: the RTC's time plus the default
UTC offset, nanoseconds 0 (R323). -/
def State.ptpSeed (s : State) : State :=
  if !s.ptp.seedDue then s
  else
    let ns := (s.rtcSeconds + s.rd Fld.PTP_CFG_UTC_DEF) * 1000000000
    { s with ptp := { s.ptp with seedDue := false, ns := ns, at_ := s.now, wraps := ns / 2 ^ 32 } }

/-- One roll-over of the prescaler (R338, R340, R342): the calendar advances and the alarms are compared; while halted HALT_S
and PEND count, and a halt past 255 s overflows. -/
def State.rtcTick (s : State) : State :=
  let s := { s with bk := s.bk.rollOver s.now }
  if s.halted then
    let h := s.rd Fld.RTC_HALT_HALT_S + 1
    let s := if s.bk.held = [] then s else s.wr Fld.RTC_HALT_PEND (min (s.rd Fld.RTC_HALT_PEND + 1) 255)
    if 255 < h then
      ((s.endHalt (s.rtcFields + h)).wrB Fld.RTC_CTRL_HALT_OVF true).rtcRefused s.haltPath 7
    else s.wr Fld.RTC_HALT_HALT_S h
  else (s.setRtc (s.rtcFields + 1)).alarms

/-! ### Setting the RTC by itself (R38, R343) -/

/-- The comparison of R38 at a whole UTC minute, and the automatic set when they differ by 1 s or more and no host halt is
active. -/
def State.rtcAuto (s : State) : State :=
  if !(s.rd Fld.SYS_TIME_TIME_SRC = 2 || s.rd Fld.SYS_TIME_TIME_SRC = 3) then s
  else
    let d : Int := (s.rtcMs : Int) - s.ledNowMs
    let t := s.wrS Fld.RTC_DRIFT_DRIFT (d * 32768 / 1000)
    if d.natAbs < 1000 || s.halted then t
    else ((t.setRtc (s.ledNowMs / 1000)).wrB Fld.RTC_CTRL_SET true).refreshRtcValid

/-! ### Supply, reset and measurements (R333 to R337, R344) -/

/-- Move to the backup cell (R333). -/
def State.toBat (s : State) : State :=
  if s.onBat then s else (s.wr Fld.BK_STATUS_SUPPLY 0x96).count Fld.BK_STATUS_SWITCHES

/-- Return to VMAIN (R333); in LEVEL mode PWRON ends (R346). -/
def State.toMain (s : State) : State :=
  if !s.onBat then s
  else
    let s := s.wr Fld.BK_STATUS_SUPPLY 0xC3
    if s.rd Fld.BK_PWRON_CFG_MODE = 0 then s.wrB Fld.BK_STATUS_PWRON false else s

/-- PWRON ends (R346): in LEVEL mode TIMEOUT seconds after it became active, in PULSE mode WIDTH × 10 ms after. -/
def State.pwronEnd (s : State) : State :=
  if !s.flag Fld.BK_STATUS_PWRON then s
  else
    let ms := if s.rd Fld.BK_PWRON_CFG_MODE = 0 then s.rd Fld.BK_PWRON_CFG_TIMEOUT * 1000 else s.rd Fld.BK_PWRON_CFG_WIDTH * 10
    (s.until (s.bk.pwronAt + ms)).wrB Fld.BK_STATUS_PWRON false

/-- Whether an address lies in the BK area (R439). -/
def inBk (a : Nat) : Bool := 0xA00000 ≤ a && a < 0xB00000

/-- The Bedrock power-on reset (R334, R289, R296, R466): the BK registers take their reset values with BKP_LOST 1, the
slots are empty, the tamper flags, acknowledge bits and lock bit are 0, and the copy of ENC_POL is 0. -/
def State.bedrockReset (s : State) : State :=
  let s := { s with regs := s.regs.filter fun x => !inBk x.1, bk := {} }
  let s := ((s.wr Fld.TMP_STICKY_ALL 0).wr Fld.TMP_LIGHT_SENSOR 0).wr Fld.TMP_PENDING_PEND 0
  (s.refreshRtcValid).encSettle.refreshTamperAlert

/-- A measurement of VBAT, made on the main supply every 60 s (R337). -/
def State.vbat (s : State) (mv : Nat) : State :=
  if s.onBat then s
  else
    let s := s.until (s.bk.vbatAt.elim 0 (· + 60000))
    let s := { s with bk := { s.bk with vbatAt := some s.now } }
    let s := s.wr Fld.BK_VBAT_MV mv
    if mv < 2200 then
      if s.flag Fld.BK_STATUS_VBAT_LOW then s
      else (s.wrB Fld.BK_STATUS_VBAT_LOW true).raise evVbatLow 0xFF (beBytes 2 mv)
    else if 2300 < mv then s.wrB Fld.BK_STATUS_VBAT_LOW false else s

/-- A write of BK_CMD (R335, R275, R278): CLR_BKP_LOST commits BKP_CLEAR and clears BKP_LOST. -/
def State.wBkCmd (s : State) (p : Path) (v : Word) : WStatus × State :=
  match s.gate p roleService v.msb with
  | .noSession => (.refused, s)
  | .locked => (.refused, s.wr Fld.BK_CMD_RESULT 3)
  | .role => (.refused, s.wr Fld.BK_CMD_RESULT 2)
  | .pass x =>
    if !v.msb then (.ok, s)
    else match s.command 0x06 fun b => b.audit 0x21 x.role (keysOne x.key) [] with
      | (false, t) => (.ok, t.wr Fld.BK_CMD_RESULT 4)
      | (true, t) => (.ok, ((t.wrB Fld.BK_STATUS_BKP_LOST false).wr Fld.BK_CMD_RESULT 1).refreshRtcValid)

/-! ### The commands -/

def execSupplyToBat (s : State) : Host.Outcome State Fault Refusal := .next s.toBat
def execSupplyToMain (s : State) : Host.Outcome State Fault Refusal := .next s.toMain
def execBedrockPor (s : State) : Host.Outcome State Fault Refusal := .next s.bedrockReset
def execClrBkpLost (p : Path) (s : State) : Host.Outcome State Fault Refusal := .next (s.host fun s => s.wBkCmd p 0x80000000)
def execVbatMeasure (mv : BitVec 16) (s : State) : Host.Outcome State Fault Refusal := .next (s.vbat mv.toNat)
def execRtcSecond (s : State) : Host.Outcome State Fault Refusal := .next s.rtcTick.ptpSeed
def execPwronTimeout (s : State) : Host.Outcome State Fault Refusal := .next s.pwronEnd
def execTrimWindow (s : State) : Host.Outcome State Fault Refusal := .next s.trimWindow
def execRtcShadowRead (p : Path) (reg : Fin 8) (s : State) : Host.Outcome State Fault Refusal := 
  .next (s.hostRead fun s => s.rtcRead p reg.val)
def execRtcShadowRelease (p : Path) (s : State) : Host.Outcome State Fault Refusal := .next (s.rtcExpire p)
def execHalt (p : Path) (s : State) : Host.Outcome State Fault Refusal := 
  .next (s.host fun s => s.wRtcCtrl p 0x80000000)
def execRtcFieldWrite (p : Path) (reg : Fin 8) (v : Word) (s : State) : Host.Outcome State Fault Refusal :=
  .next (s.host fun s => s.wRtcField p reg.val v)
def execRtcLoad (p : Path) (s : State) : Host.Outcome State Fault Refusal := .next (s.host fun s => s.wRtcCtrl p 0)
def execRtcAutoSet (s : State) : Host.Outcome State Fault Refusal := .next s.rtcAuto

end Sys2Proof.Machine
end

