-- ==== Sys2Proof/Machine/Frames.lean ====
section
/-!
DEFINITION. Bytes of Ethernet, IPv4, UDP and ARP frames (R309, R312 to R314): checksums, building and reading.
-/

namespace Sys2Proof.Machine

/-! ### Checksums -/

/-- Sum of 16-bit words, the last filled with 0. -/
def wordSum : List Byte → Nat
  | a :: b :: bs => a.toNat * 256 + b.toNat + wordSum bs
  | [a] => a.toNat * 256
  | [] => 0

/-- Fold the carries of a sum of 16-bit words into 16 bits. -/
def foldCarry (n : Nat) : Nat :=
  let m := n % 65536 + n / 65536
  m % 65536 + m / 65536

/-- The Internet checksum of bytes. -/
def inetSum (bs : List Byte) : Nat := 65535 - foldCarry (wordSum bs)

/-! ### Ethernet (R307, R312) -/

/-- A received Ethernet header: addresses, VLAN identifiers of its tags, EtherType and payload. -/
structure Eth where
  dst : Nat
  src : Nat
  vids : List Nat
  type : Nat
  payload : List Byte
deriving DecidableEq, Repr

/-- Read the header of a frame; a second tag is read too, so that it can be refused. -/
def ethParse (bs : List Byte) : Eth :=
  let t1 := num bs 12 2
  if t1 ≠ 0x8100 then { dst := num bs 0 6, src := num bs 6 6, vids := [], type := t1, payload := bs.drop 14 }
  else
    let v1 := num bs 14 2 % 4096
    let t2 := num bs 16 2
    if t2 ≠ 0x8100 then { dst := num bs 0 6, src := num bs 6 6, vids := [v1], type := t2, payload := bs.drop 18 }
    else { dst := num bs 0 6, src := num bs 6 6, vids := [v1, num bs 18 2 % 4096], type := num bs 20 2, payload := bs.drop 22 }

/-- The broadcast address. -/
def macAll : Nat := 0xFFFFFFFFFFFF

/-- Whether an address is a multicast or broadcast address. -/
def macMulti (m : Nat) : Bool := m / 2 ^ 40 % 2 = 1

/-- Start of a frame a port sends on queues 0 to 4: addresses, the tag where NET_PORT_CFG.TAGGED is set, EtherType. -/
def State.ethHead (s : State) (p : Nat) (dst type : Nat) : List Byte :=
  beBytes 6 dst ++ beBytes 6 (s.rd (Fld.NET_MAC_MAC p)) ++
  (if s.flag (Fld.NET_PORT_CFG_TAGGED p) then
    beBytes 2 0x8100 ++ beBytes 2 (s.rd (Fld.NET_PORT_CFG_PCP p) * 8192 + s.rd (Fld.NET_PORT_CFG_VID p)) else []) ++
  beBytes 2 type

/-! ### IPv4 and UDP (R313) -/

/-- An IPv4 packet with a UDP datagram: no options, don't-fragment, time to live 64, a UDP checksum unless it is left 0. A
checksum that comes to 0 is sent as 0xFFFF, as UDP has it (PRESUMED, notes/assumptions/6.md). -/
def ipUdp (tosId : Nat) (src dst sport dport : Nat) (withSum : Bool) (payload : List Byte) : List Byte :=
  let len := payload.length + 8
  let head (sum : Nat) : List Byte :=
    beBytes 1 0x45 ++ beBytes 1 (tosId / 65536) ++ beBytes 2 (len + 20) ++ beBytes 2 tosId ++ beBytes 2 0x4000 ++
    beBytes 1 64 ++ beBytes 1 17 ++ beBytes 2 sum ++ beBytes 4 src ++ beBytes 4 dst
  let udp (sum : Nat) : List Byte := beBytes 2 sport ++ beBytes 2 dport ++ beBytes 2 len ++ beBytes 2 sum ++ payload
  let pseudo := beBytes 4 src ++ beBytes 4 dst ++ beBytes 2 17 ++ beBytes 2 len
  let c := inetSum (pseudo ++ udp 0)
  head (inetSum (head 0)) ++ udp (if withSum then (if c = 0 then 0xFFFF else c) else 0)

/-- Whether the device takes a received IPv4 packet: no options, no fragment, a good header checksum, and for UDP a good or
absent checksum (R313). -/
def ipOk (ip : List Byte) : Bool :=
  let len := num ip 2 2
  let udp := (ip.take len).drop 20
  num ip 0 1 = 0x45 && foldCarry (wordSum (ip.take 20)) = 0xFFFF && num ip 6 2 % 0x4000 = 0 &&
  (num ip 9 1 ≠ 17 || num udp 6 2 = 0 ||
    foldCarry (wordSum (sub ip 12 8 ++ beBytes 2 17 ++ sub udp 4 2 ++ udp)) = 0xFFFF)

/-- The payload of the UDP datagram in an IPv4 packet. -/
def udpPayload (ip : List Byte) : List Byte := ((ip.drop 28).take (num ip 24 2 - 8))

/-- An ARP packet for Ethernet and IPv4: operation, sender and target. -/
def arpBytes (op smac sip tmac tip : Nat) : List Byte :=
  beBytes 2 1 ++ beBytes 2 0x0800 ++ beBytes 1 6 ++ beBytes 1 4 ++ beBytes 2 op ++ beBytes 6 smac ++ beBytes 4 sip ++
  beBytes 6 tmac ++ beBytes 4 tip

end Sys2Proof.Machine
end

