-- ==== Sys2Proof/Machine/Ports.lean ====
section
/-!
DEFINITION. The Ethernet ports' queues (R305 to R311, R328 to R331): the PTP clock as the launch timebase reads it,
transmit queues and completions, ARP resolution, and stopping a port.
-/

namespace Sys2Proof.Machine

/-! ### The PTP clock and the launch timebase (R323, R328, R330) -/

/-- Set the clock. -/
def State.setClock (s : State) (ns : Nat) : State := { s with ptp := { s.ptp with ns := ns, at_ := s.now, wraps := ns / 2 ^ 32 } }

/-- A PTP time in ns. -/
def ptpNs (t : PtpTime) : Nat := t.sec.toNat * 1000000000 + t.ns.toNat

/-- The launch timebase is valid while PTP is locked and the clock is not in test (R330). -/
def State.timebase (s : State) : Bool := s.flag Fld.SYS_TIME_PTP_LOCKED && !s.flag Fld.PTP_CFG_TEST

/-- NET_STATUS.TIME_VALID follows the timebase. -/
def State.refreshTimebase (s : State) : State := s.wrB Fld.NET_STATUS_TIME_VALID s.timebase

/-- d of R329: the launch time less the timebase, as a signed 32-bit number. -/
def launchDiff (lt : BitVec 32) (l : Nat) : Int := (lt - BitVec.ofNat 32 l).toInt

/-! ### Ports -/

/-- A port's state beside its registers. -/
def State.port (s : State) (p : Fin 2) : Port := if p = 0 then s.portA else s.portB

/-- Frames of a transmit queue, the one on the wire included. -/
def Port.held (x : Port) (q : Nat) : Nat :=
  (x.tx.filter fun f => f.queue = q).length + (if x.sending.any fun f => f.queue = q then 1 else 0)

/-- Replace a port's state; NET_TXQ_STATq.IN_FLIGHT follows. -/
def State.setPort (s : State) (p : Fin 2) (x : Port) : State :=
  let s := if p = 0 then { s with portA := x } else { s with portB := x }
  (List.range 8).foldl (fun s q => s.wr (Fld.NET_TXQ_STAT_IN_FLIGHT p q) (x.held q)) s

def linkFld (p : Fin 2) : Field := if p = 0 then Fld.NET_STATUS_LINK_A else Fld.NET_STATUS_LINK_B
def stoppedFld (p : Fin 2) : Field := if p = 0 then Fld.NET_STATUS_STOPPED_A else Fld.NET_STATUS_STOPPED_B
def speedFld (p : Fin 2) : Field := if p = 0 then Fld.NET_STATUS_SPEED_A else Fld.NET_STATUS_SPEED_B

/-- Whether a switched power domain is on (R405). -/
def State.domOn (s : State) (d : Nat) : Bool :=
  s.rd Fld.PWR_ON_ON / 2 ^ d % 2 = 1 && !s.pwr.down.any fun x => x.val = d

/-- Whether a port runs: enabled, its domain on, not stopped. -/
def State.portRuns (s : State) (p : Fin 2) : Bool :=
  s.core.running && s.flag (Fld.NET_PORT_CFG_ENABLE p) && s.domOn (14 + p.val) && !s.flag (stoppedFld p)

/-- Whether a port's link is up. -/
def State.linkUp (s : State) (p : Fin 2) : Bool := s.portRuns p && s.flag (linkFld p)

/-! ### Sending (R308, R310) -/

/-- The buffers of a port's frames in flight. -/
def Port.buffers (x : Port) : List Nat := (x.sending.toList ++ x.tx).map (·.buffer)

/-- A free buffer of the pool of 128 that both ports share (R308): the one of lowest index. -/
def State.freeBuffer (s : State) : Option Nat :=
  let used := s.portA.buffers ++ s.portB.buffers
  (List.range 128).find? fun b => !used.contains b

/-- Whether a transmit queue takes another frame: below its DEPTH, with a buffer of the pool free (R308). -/
def State.txRoom (s : State) (p : Fin 2) (q : Nat) : Bool :=
  (s.port p).held q < s.rd (Fld.NET_TXQ_CFG_DEPTH p q) && s.freeBuffer.isSome

/-- Offer a frame to a transmit queue: a full queue refuses it and counts DROP (R308). -/
def State.netSend (s : State) (p : Fin 2) (f : TxFrame) : State :=
  if !s.portRuns p then s
  else if !s.txRoom p f.queue then s.count (Fld.NET_TXQ_STAT_DROP p f.queue)
  else
    let x := s.port p
    s.setPort p { x with tx := x.tx ++ [{ f with buffer := s.freeBuffer.getD 0 }] }

/-- Send a UDP datagram to a MAC address on a queue. -/
def State.udpSend (s : State) (p : Fin 2) (f : TxFrame) (mac dst sport dport : Nat) (withSum : Bool)
    (payload : List Byte) : State :=
  let ip := ipUdp (Config.ipTosId s.free).toNat (s.rd (Fld.NET_IP_ADDR p)) dst sport dport withSum payload
  (s.netSend p { f with bytes := s.ethHead p mac 0x0800 ++ ip }).drawn

/-- Answer a Drega request (R313, R317): to the MAC, address and UDP port it came from, from the Drega port, on TXQ3. -/
def State.dregaSend (s : State) (r : DregaSrc) (payload : List Byte) : State :=
  s.udpSend r.port { bytes := [], queue := 3 } r.mac.toNat r.ip.toNat (s.rd Fld.NET_DREGA_CFG_UDP_PORT) r.udp.toNat true payload

/-! ### Completion (R309, R311, R329) -/

/-- STATUS of a completion descriptor. -/
def txSent : Nat := 0
def txSentLate : Nat := 1
def txDroppedLate : Nat := 2
def txAborted : Nat := 3

/-- The words of NET_HTX_DONE for a completion, lowest address first: bytes 0 to 15 of R309 from [127:120] downwards. -/
def doneWords (tag status : Nat) (ts : Option PtpTime) : List Word :=
  (bytesWords (beBytes 2 tag ++ beBytes 1 status ++ beBytes 1 0 ++ beBytes 6 (ts.elim 0 (·.sec.toNat)) ++
    beBytes 4 (ts.elim 0 (·.ns.toNat)) ++ beBytes 2 0)).reverse

/-- Put a completion into a path's ring of 16; the oldest is lost when it is full. HTX of SYS_IRQ_STAT belongs to the host
port's path. -/
def State.hostDone (s : State) (p : Path) (ws : List Word) : State :=
  let x := s.path p
  let full := 16 ≤ x.htxDone.length
  let s := s.setPath p { x with htxDone := (if full then x.htxDone.drop 1 else x.htxDone) ++ [ws] }
  let s := if full then s.count Fld.NET_HTX_LOST_DONE_LOST else s
  if p = .spi then s.irq Fld.SYS_IRQ_STAT_HTX else s

/-- A frame completes: the queue's counters, and the completion of a host frame. -/
def State.txDone (s : State) (p : Fin 2) (f : TxFrame) (status : Nat) (ts : PtpTime) : State :=
  let s := if status = txSentLate || status = txDroppedLate then s.count (Fld.NET_TXQ_STAT_LATE p f.queue) else s
  let s := if status = txDroppedLate then s.count (Fld.NET_TXQ_STAT_DROP p f.queue) else s
  match f.host with
  | none => s
  | some h => s.hostDone h (doneWords f.tag.toNat status (if f.tsreq && (status = txSent || status = txSentLate) then some ts else none))

/-- The time of a completion that carries none. -/
def noTime : PtpTime := ⟨0, 0⟩

/-- Every frame of a port completes ABORTED, the one on the wire too, and the receive queues are emptied (R331). -/
def State.portFlush (s : State) (p : Fin 2) : State :=
  let x := s.port p
  let fs := x.sending.toList ++ x.tx
  let s := s.setPort p { x with tx := [], sending := none, rx := [] }
  fs.foldl (fun s f => s.txDone p f txAborted noTime) s

/-- The frame on the wire is cut short and completes ABORTED (R331). -/
def State.portCut (s : State) (p : Fin 2) : State :=
  let x := s.port p
  match x.sending with
  | none => s
  | some f => (s.setPort p { x with sending := none }).txDone p f txAborted noTime

/-! ### Choosing the next frame (R310, R329) -/

/-- Take the first frame of a queue out of a list. -/
def takeFirst (q : Nat) : List TxFrame → List TxFrame
  | [] => []
  | f :: fs => if f.queue = q then fs else f :: takeFirst q fs

/-- Nanoseconds a frame is on the wire at a port's speed: preamble, padding to 60 bytes and FCS included. -/
def State.wireNs (s : State) (p : Fin 2) (f : TxFrame) : Nat :=
  (max f.bytes.length 60 + 12) * ([800, 80, 8].getD (s.rd (speedFld p)) 8)

/-- Whether the head of a queue may be sent now: with no launch time, when its launch time has come, or when the timebase
is not valid (R330). -/
def State.txEligible (s : State) (f : TxFrame) : Bool := !f.launch || f.eligible || !s.timebase

/-- Whether a frame would still be on the wire at the launch time of the head of a launch-timed queue (R310): it is held back
until that launch has begun. Two heads whose launch times have both come do not hold each other. -/
def State.txHeldBack (s : State) (p : Fin 2) (f : TxFrame) : Bool :=
  [4, 5].any fun q => match (s.port p).tx.find? fun g => g.queue = q with
    | some g => g.launch && s.timebase && q ≠ f.queue && !(g.eligible && f.launch) &&
        launchDiff g.lt s.ptpNow < (s.wireNs p f : Int)
    | none => false

/-- The head of the lowest queue that is eligible and not held back. -/
def State.txChoice (s : State) (p : Fin 2) : Option TxFrame :=
  (List.range 8).findSome? fun q => ((s.port p).tx.find? fun f => f.queue = q).filter fun f =>
    s.txEligible f && !s.txHeldBack p f

/-- Whether a chosen frame is late: its launch time is over 1000 ns past, or the timebase is not valid (R329, R330). -/
def State.txLate (s : State) (f : TxFrame) : Bool := f.launch && (!s.timebase || launchDiff f.lt s.ptpNow < -1000)

/-- Choose frames until one goes on the wire: those due while the link is down complete ABORTED (R306), a late one under
the policy DROP completes DROPPED_LATE (R329); without a valid timebase it leaves all the same (R330). -/
def State.txStep (s : State) (p : Fin 2) : Nat → State
  | 0 => s
  | n + 1 =>
    match s.txChoice p with
    | none => s
    | some f =>
      let x := s.port p
      let late := s.txLate f
      let t := s.setPort p { x with tx := takeFirst f.queue x.tx }
      if !s.linkUp p then (t.txDone p f txAborted noTime).txStep p n
      else if late && s.timebase && s.flag (Fld.NET_TXQ_CFG_LATE_POLICY p f.queue) then (t.txDone p f txDroppedLate noTime).txStep p n
      else t.setPort p { t.port p with sending := some { f with late } }

/-- The MAC is idle: the port chooses its next frame (R310). -/
def State.txStart (s : State) (p : Fin 2) : State :=
  if (s.port p).sending.isSome || !s.portRuns p || s.esc.restarting.contains (.netEngine p) then s else s.txStep p ((s.port p).tx.length)

/-- Mark the heads of the launch-timed queues whose launch time has come (R329). -/
def markDue (l : Nat) (seen : List Nat) : List TxFrame → List TxFrame
  | [] => []
  | f :: fs =>
    let head := f.queue ∉ seen
    (if head && f.launch && launchDiff f.lt l ≤ 0 then { f with eligible := true } else f) :: markDue l (f.queue :: seen) fs

/-- The launch timebase reaches a launch time (R329). -/
def State.launchDue (s : State) (p : Fin 2) (t : PtpTime) : State :=
  let s := s.setClock (ptpNs t)
  let x := s.port p
  s.setPort p { x with tx := markDue (ptpNs t) [] x.tx }

/-! ### ARP (R314) -/

/-- Send an ARP request for an address. -/
def State.arpAsk (s : State) (p : Fin 2) (ip : Nat) : State :=
  s.netSend p { bytes := s.ethHead p macAll 0x0806 ++ arpBytes 1 (s.rd (Fld.NET_MAC_MAC p)) (s.rd (Fld.NET_IP_ADDR p)) 0 ip, queue := 2 }

/-- The address ARP resolves for a destination: itself on the port's subnet, else the gateway. -/
def State.nextHop (s : State) (p : Fin 2) (dst : Nat) : Nat :=
  let shift := 32 - min 32 (s.rd (Fld.NET_PORT_CFG_PREFIX p))
  if dst / 2 ^ shift = s.rd (Fld.NET_IP_ADDR p) / 2 ^ shift then dst else s.rd (Fld.NET_GW_ADDR p)

/-- The cache entry of an address. -/
def Port.arpEntry (x : Port) (ip : Nat) : Option ArpEntry := x.arp.find? fun e => e.ip.toNat = ip

/-- Begin resolving an address: a new entry, the oldest of 8 making room, and the first request. -/
def State.arpResolve (s : State) (p : Fin 2) (ip : Nat) : State :=
  let x := s.port p
  if (x.arpEntry ip).isSome then s
  else
    let old := if 8 ≤ x.arp.length then x.arp.drop 1 else x.arp
    (s.setPort p { x with arp := old ++ [{ ip := BitVec.ofNat 32 ip, tries := 1, at_ := s.now }] }).arpAsk p ip

/-- Change a cache entry. -/
def Port.setArp (x : Port) (ip : Nat) (f : ArpEntry → Option ArpEntry) : Port :=
  { x with arp := x.arp.filterMap fun e => if e.ip.toNat = ip then f e else some e }

/-- Queue a publication on TXQ4 for a MAC address: launch-timed where a launch time was given (R320). -/
def State.pubQueue (s : State) (p : Fin 2) (w : PubWait) (mac : Nat) : State :=
  let full := !s.txRoom p 4
  let t := s.udpSend p { bytes := [], queue := 4, launch := w.lt.isSome, lt := w.lt.getD 0 } mac
    (s.rd (Fld.NET_PUB_DST_ADDR w.pub)) (s.rd Fld.NET_DREGA_CFG_UDP_PORT) (s.rd (Fld.NET_PUB_DST_UDP_PORT w.pub)) true w.payload
  if full || !s.portRuns p then t else t.wrap Fld.NET_PUB_STAT_SENT

/-- Send a publication; while its destination is unresolved it is not sent and counts NO_ROUTE (R314). -/
def State.pubSend (s : State) (p : Fin 2) (w : PubWait) : State :=
  let hop := s.nextHop p (s.rd (Fld.NET_PUB_DST_ADDR w.pub))
  match (s.port p).arpEntry hop with
  | some { mac := some m, .. } => s.pubQueue p w m.toNat
  | _ => s.count Fld.NET_PUB_STAT_NO_ROUTE

/-- Ask for a cache entry's address now. -/
def State.arpAskAgain (s : State) (p : Fin 2) (ip tries : Nat) : State :=
  (s.setPort p ((s.port p).setArp ip fun e => some { e with tries, at_ := s.now })).arpAsk p ip

/-- An entry that has been learned is asked for anew 300 s after. -/
def State.arpRefresh (s : State) (p : Fin 2) (ip : Nat) : State :=
  match (s.port p).arpEntry ip with
  | none => s
  | some e => if e.tries ≠ 0 then s else (s.until (e.at_ + 300000)).arpAskAgain p ip 1

/-- An unanswered request is repeated 1 s after the last one, three times in all; then the entry goes. -/
def State.arpRetry (s : State) (p : Fin 2) (ip : Nat) : State :=
  match (s.port p).arpEntry ip with
  | none => s
  | some e =>
    if e.tries = 0 then s
    else
      let s := s.until (e.at_ + 1000)
      if e.tries < 3 then s.arpAskAgain p ip (e.tries + 1) else s.setPort p ((s.port p).setArp ip fun _ => none)

/-- An address that is being resolved is learned. -/
def State.arpLearn (s : State) (p : Fin 2) (ip mac : Nat) : State :=
  match (s.port p).arpEntry ip with
  | none => s
  | some _ =>
    s.setPort p ((s.port p).setArp ip fun e => some { e with mac := some (BitVec.ofNat 48 mac), tries := 0, at_ := s.now })

/-- A received ARP packet (R314): a request for the own address is answered; a claim of it by another station raises
ARP_CONFLICT; a sender that is being resolved is learned. -/
def State.arpPacket (s : State) (p : Fin 2) (a : List Byte) : State :=
  let op := num a 6 2
  let smac := num a 8 6
  let sip := num a 14 4
  let own := s.rd (Fld.NET_IP_ADDR p)
  let mac := s.rd (Fld.NET_MAC_MAC p)
  if num a 0 6 ≠ 0x000108000604 then s
  else
    let s := if sip = own && smac ≠ mac then s.raise 0xA6 p.val (beBytes 6 smac) else s
    let s := s.arpLearn p sip smac
    if op = 1 && num a 24 4 = own then
      s.netSend p { bytes := s.ethHead p smac 0x0806 ++ arpBytes 2 mac own smac sip, queue := 2 }
    else s

/-! ### Stopping (R331) -/

/-- A port stops after its network engine's second fault: everything completes ABORTED, it receives nothing, and
PORT_STOPPED is raised. -/
def State.portStop (s : State) (p : Fin 2) : State :=
  ((s.portFlush p).wrB (stoppedFld p) true).raise 0xA5 p.val []

end Sys2Proof.Machine
end

