-- ==== Sys2Proof/Machine/Ptp.lean ====
section
/-!
DEFINITION. The PTP port (R321 to R327): messages of IEEE 1588-2019 and their transport, the best master clock, offset and
delay measurement, the servo's steps, PTP_LOCKED, the UTC offset. What R321 takes from IEEE 1588 (message layout, best master
clock algorithm) is PRESUMED (notes/assumptions/7.md).
-/

namespace Sys2Proof.Machine

/-- Event codes of R332. -/
def evPtpLock : Nat := 0xA2
def evPtpUnlock : Nat := 0xA3
def evPtpStep : Nat := 0xA4

/-- Codes of PTP_STATUS.STATE. -/
def ptpDisabled : Nat := 0
def ptpListening : Nat := 1
def ptpUncalibrated : Nat := 2
def ptpSlave : Nat := 3
def ptpMaster : Nat := 4
def ptpPassive : Nat := 5

/-- The port PTP runs on (R322). -/
def State.ptpPort (s : State) : Fin 2 := if s.flag Fld.PTP_STATUS_ON_B then 1 else 0

/-- The PTP port's state code. -/
def State.ptpState (s : State) : Nat := s.rd Fld.PTP_STATUS_STATE

/-! ### PTP_LOCKED (R324) -/

/-- PTP_LOCKED sets, in both registers; the launch timebase follows, and at the first lock the epochs align (R364). -/
def State.ptpLock (s : State) : State :=
  let s := { s with ptp := { s.ptp with everLocked := true } }
  let s := ((s.wrB Fld.PTP_STATUS_LOCKED true).wrB Fld.SYS_TIME_PTP_LOCKED true).irq Fld.SYS_IRQ_STAT_TIME
  (s.refreshTimebase.raise evPtpLock s.ptpPort.val (beBytes 8 (s.rd Fld.PTP_PARENT_IDENTITY))).alignPtp

/-- PTP_LOCKED clears, with the cause of R332: 1 offset, 2 timeout, 3 parent change, 4 port move, 5 link, 6 test. -/
def State.ptpUnlock (s : State) (cause : Nat) : State :=
  let s := { s with ptp := { s.ptp with good := 0, bad := 0, lastCap := none } }
  if !s.flag Fld.SYS_TIME_PTP_LOCKED then s
  else
    let s := ((s.wrB Fld.PTP_STATUS_LOCKED false).wrB Fld.SYS_TIME_PTP_LOCKED false).irq Fld.SYS_IRQ_STAT_TIME
    (s.rateTrim s.epoch).refreshTimebase.raise evPtpUnlock s.ptpPort.val (beBytes 1 cause)

/-! ### UTC (R327) -/

/-- The entry of the parent among the clocks heard. -/
def State.ptpParentEntry (s : State) : Option PtpForeign :=
  s.ptp.parent.bind fun i => s.ptp.foreign.find? fun f => f.id = i

/-- PTP_UTC: the parent's offset where its announces carry a valid one, else the image's default; its leap flags. -/
def State.refreshUtc (s : State) : State :=
  let e := s.ptpParentEntry
  let ann := e.any (·.utcValid)
  let off : Int := if ann then e.elim 0 (·.utc) else (s.rd Fld.PTP_CFG_UTC_DEF : Nat)
  let s := (s.wrB Fld.PTP_UTC_FROM_ANN ann).wrS Fld.PTP_UTC_OFFSET off
  (s.wrB Fld.PTP_UTC_LEAP61 (e.any (·.leap61))).wrB Fld.PTP_UTC_LEAP59 (e.any (·.leap59))

/-- PTP time less the UTC offset, in ms (R36). -/
def State.ptpUtcMs (s : State) (ns : Nat) : Int := (ns / 1000000 : Nat) - s.rdS Fld.PTP_UTC_OFFSET * 1000

/-- A leap second is announced for the end of the UTC day, or is no longer (R327). -/
def State.setLeap (s : State) : State :=
  if s.flag Fld.PTP_UTC_LEAP61 || s.flag Fld.PTP_UTC_LEAP59 then
    match s.ptp.leapAt with
    | some _ => s
    | none =>
      let day := (s.ptpUtcMs s.ptpNow / 86400000).toNat
      { s with ptp := { s.ptp with leapAt := some ((day + 1) * 86400) } }
  else { s with ptp := { s.ptp with leapAt := none } }

/-- What ledger time absorbs of a coming leap second at a UTC time: 1 ms for each of the last 1000 ticks before midnight,
towards the time after it (R327). -/
def State.leapMs (s : State) (utcMs : Int) : Int :=
  match s.ptp.leapAt with
  | none => 0
  | some m =>
    let left : Int := (m : Int) - utcMs / 1000
    let k : Int := if left ≤ 0 then 1000 else if 1000 ≤ left then 0 else 1000 - left
    if s.flag Fld.PTP_UTC_LEAP61 then -k else k

/-! ### The parent (R321, R324) -/

/-- Forget what was measured against a parent. -/
def Ptp.forget (x : Ptp) : Ptp :=
  { x with sync := none, msDiff := none, delay := none, req := none, presp := none, good := 0, bad := 0 }

/-- Take a parent, or none: PTP_PARENT, and PTP_LOCKED clears with the cause given. -/
def State.setParent (s : State) (i : Option (BitVec 80)) (cause : Nat) : State :=
  if s.ptp.parent = i then s
  else
    let s := s.ptpUnlock cause
    let s := { s with ptp := { s.ptp.forget with parent := i } }
    (s.wr Fld.PTP_PARENT_IDENTITY (i.elim 0 fun b => b.toNat / 65536)).refreshUtc.setLeap

/-- The own port identity: clockIdentity and port number 1. -/
def State.ownIdentity (s : State) : Nat :=
  (Config.clockIdentity (BitVec.ofNat 48 (s.rd (Fld.NET_MAC_MAC s.ptpPort)))).toNat * 65536 + 1

/-- The own data set, in the order data sets are compared. -/
def State.ownRank (s : State) : List Nat :=
  [s.rd Fld.PTP_MASTER_PRIORITY1, s.rd Fld.PTP_MASTER_CLOCK_CLASS, 0xFE, 0xFFFF, s.rd Fld.PTP_MASTER_PRIORITY2,
    s.ownIdentity / 65536, 0, s.ownIdentity]

/-- Whether one data set is better than another. -/
def rankBetter : List Nat → List Nat → Bool
  | a :: as, b :: bs => a < b || (a = b && rankBetter as bs)
  | _, _ => false

/-- Milliseconds of an interval 2^k s. -/
def logMs (k : Int) : Nat := if 0 ≤ k then 1000 * 2 ^ k.toNat else 1000 / 2 ^ (-k).toNat

/-- The clocks whose announces qualify: two within four announce intervals. -/
def State.qualified (s : State) : List PtpForeign :=
  s.ptp.foreign.filter fun f => f.before.any fun b => f.last ≤ b + 4 * logMs (s.rdS Fld.PTP_CFG_LOG_ANN)

/-- The best of the clocks that qualify. -/
def bestOf : List PtpForeign → Option PtpForeign
  | [] => none
  | f :: fs => match bestOf fs with
    | none => some f
    | some g => some (if rankBetter g.rank f.rank then g else f)

/-- Set the port's state code. -/
def State.setPtp (s : State) (v : Nat) : State := s.wr Fld.PTP_STATUS_STATE v

/-- The best master clock decision. -/
def State.bmca (s : State) : State :=
  match bestOf s.qualified with
  | none => s
  | some f =>
    let own := s.ownRank
    if !s.flag Fld.PTP_CFG_SLAVE_ONLY && rankBetter own f.rank then (s.setParent none 3).setPtp ptpMaster
    else if !s.flag Fld.PTP_CFG_SLAVE_ONLY && s.rd Fld.PTP_MASTER_CLOCK_CLASS < 128 then (s.setParent none 3).setPtp ptpPassive
    else if s.ptp.parent = some f.id then s
    else
      let s := (s.setParent (some f.id) 3).setPtp ptpUncalibrated
      { s with ptp := { s.ptp with announceAt := s.now } }

/-- PTP leaves its parent: at an announce timeout or a loss of link. -/
def State.ptpAlone (s : State) (cause : Nat) : State :=
  let gone := s.ptp.parent
  let s := s.ptpUnlock cause
  let s := s.setParent none cause
  { s with ptp := { s.ptp with foreign := s.ptp.foreign.filter fun f => some f.id ≠ gone } }.setPtp ptpListening

/-- The service leaves its port (R322): what was heard there is forgotten, and PTP_LOCKED clears. -/
def State.ptpLeave (s : State) : State :=
  let s := (s.ptpUnlock 4).setParent none 4
  { s with ptp := { s.ptp.forget with foreign := [], aSince := none } }

/-- PTP moves to the other port (R322). -/
def State.ptpMove (s : State) (toB : Bool) : State := (s.ptpLeave.wrB Fld.PTP_STATUS_ON_B toB).setPtp ptpListening

/-- PTP starts with a configuration: the port selected, its state and the UTC offset. -/
def State.ptpStart (s : State) : State :=
  let s := s.wrB Fld.PTP_STATUS_ON_B (s.rd Fld.PTP_CFG_PORT = 1)
  (s.setPtp (if s.flag (Fld.NET_PORT_CFG_ENABLE s.ptpPort) then ptpListening else ptpDisabled)).refreshUtc

/-- The announce receipt timeout (R322, R324): PTP_LOCKED clears, fallback moves to port B; a device that may be master
becomes it. -/
def State.announceTimeout (s : State) : State :=
  if s.ptpState = ptpDisabled then s
  else
    let s := s.ptpAlone 2
    if s.rd Fld.PTP_CFG_PORT = 2 && !s.flag Fld.PTP_STATUS_ON_B then s.ptpMove true
    else if s.flag Fld.PTP_CFG_SLAVE_ONLY then s
    else match bestOf s.qualified with
      | some _ => s.bmca
      | none => s.setPtp ptpMaster

/-- The announce receipt timeout, in ms. -/
def State.announceMs (s : State) : Nat := s.rd Fld.PTP_MASTER_TIMEOUT * logMs (s.rdS Fld.PTP_CFG_LOG_ANN)

/-- Whether fallback has PTP on port B (R322). -/
def State.ptpFallback (s : State) : Bool := s.rd Fld.PTP_CFG_PORT = 2 && s.flag Fld.PTP_STATUS_ON_B

/-- A valid announce arrives on port A while fallback runs on B: the run of announces goes on, or begins (R322). -/
def State.ptpHeardA (s : State) : State :=
  let x := s.ptp
  let since := if s.now ≤ x.aLast + s.announceMs then x.aSince.getD s.now else s.now
  { s with ptp := { x with aSince := some since, aLast := s.now } }

/-- Port A has been up with valid announces for 10 s: PTP returns to it (R322). -/
def State.ptpReturn (s : State) : State :=
  match s.ptp.aSince with
  | none => s
  | some t =>
    let u := s.until (t + 10000)
    if s.ptpFallback && s.linkUp 0 && u.now ≤ s.ptp.aLast + s.announceMs then u.ptpMove false else s

/-- The link of the PTP port is lost (R322, R324). -/
def State.ptpLinkLost (s : State) (p : Fin 2) : State :=
  if s.ptpState = ptpDisabled || s.ptpPort ≠ p then s
  else
    let s := s.ptpAlone 5
    if s.rd Fld.PTP_CFG_PORT = 2 && p = 0 then s.ptpMove true else s

/-! ### The servo (R323, R324) -/

/-- Step the clock by an offset (R323). -/
def State.ptpStep (s : State) (offset : Int) : State :=
  let s := s.setClock ((s.ptpNow : Int) - offset).toNat
  (s.count Fld.PTP_STATUS_STEPS).raise evPtpStep s.ptpPort.val (beBytes 8 (ofSigned 64 (-offset)))

/-- The largest trim, 500 ppm of 8 ns, in 2^-32 ns (R323). -/
def trimMost : Nat := 17179869

/-- The servo changes the frequency to remove a smaller offset, by at most ±500 ppm (R323); how is not stated: a free value. -/
def State.ptpTrim (s : State) : State :=
  let t : Int := (Config.servoTrim s.free).toInt
  let s := s.setClock s.ptpNow
  ({ s with ptp := { s.ptp with trim := max (-(trimMost : Int)) (min t trimMost) } }).drawn

/-- An offset measurement: PTP_OFFSET, a step where the servo makes one, else a frequency change, and PTP_LOCKED. -/
def State.ptpOffset (s : State) (offset : Int) : State :=
  let sat : Int := if offset < -2147483648 then -2147483648 else if 2147483647 < offset then 2147483647 else offset
  let s := s.wrS Fld.PTP_OFFSET_OFFSET sat
  let limit : Nat := if !s.ptp.everLocked || s.flag Fld.PTP_CFG_TEST then 10001 else 1000000000
  let s := if limit ≤ offset.natAbs then s.ptpStep offset else s.ptpTrim
  let s := if s.ptpState = ptpUncalibrated then s.setPtp ptpSlave else s
  let good := if offset.natAbs ≤ 1000 then s.ptp.good + 1 else 0
  let bad := if 10000 < offset.natAbs then s.ptp.bad + 1 else 0
  let s := { s with ptp := { s.ptp with good := good, bad := bad } }
  if s.flag Fld.SYS_TIME_PTP_LOCKED then
    if 4 ≤ bad then s.ptpUnlock 1 else s
  else if 16 ≤ good && s.ptpState = ptpSlave then s.ptpLock else s

/-- A master-to-slave difference: the offset is it less the path delay; before a delay is measured the delay counts 0. -/
def State.ptpMsDiff (s : State) (d : Int) : State :=
  ({ s with ptp := { s.ptp with msDiff := some d } }).ptpOffset (d - s.ptp.delay.getD 0)

/-! ### Messages -/

/-- Message types. -/
def mtSync : Nat := 0
def mtDelayReq : Nat := 1
def mtPdelayReq : Nat := 2
def mtPdelayResp : Nat := 3
def mtFollowUp : Nat := 8
def mtDelayResp : Nat := 9
def mtPdelayFollowUp : Nat := 10
def mtAnnounce : Nat := 11

/-- Whether a message type is an event message (R307). -/
def mtEvent (t : Nat) : Bool := t ≤ 3

/-- Whether a message belongs to the peer delay mechanism. -/
def mtPeer (t : Nat) : Bool := t = 2 || t = 3 || t = 10

/-- A message: the common header and a body. -/
def State.ptpBytes (s : State) (type flags seq : Nat) (corr logInt : Int) (body : List Byte) : List Byte :=
  let control : Nat := if type = 0 then 0 else if type = 1 then 1 else if type = 8 then 2 else if type = 9 then 3 else 5
  beBytes 1 type ++ beBytes 1 0x12 ++ beBytes 2 (34 + body.length) ++ beBytes 1 (s.rd Fld.PTP_CFG_DOMAIN) ++ beBytes 1 0 ++
  beBytes 2 flags ++ beBytes 8 (ofSigned 64 corr) ++ beBytes 4 0 ++ beBytes 10 s.ownIdentity ++ beBytes 2 seq ++
  beBytes 1 control ++ beBytes 1 (ofSigned 8 logInt) ++ body

/-- Send a message on its queue, over Ethernet or UDP; event messages carry TSREQ, and a one-step one is written by the
MAC as it leaves (R325), over UDP with no checksum (R313). -/
def State.ptpSend (s : State) (type : Nat) (onestep : Option (Nat × Nat)) (follow : Option (Nat × Nat × List Byte)) (msg : List Byte) : State :=
  let p := s.ptpPort
  let q := if mtEvent type then 0 else 1
  let f : TxFrame := { bytes := [], queue := q, tsreq := mtEvent type, onestep, follow }
  if s.flag Fld.PTP_CFG_UDP then
    let (mac, ip) := if mtPeer type then (0x01005E00006B, 0xE000006B) else (0x01005E000181, 0xE0000181)
    let port := if mtEvent type then 319 else 320
    s.udpSend p f mac ip port port onestep.isNone msg
  else
    let mac := if mtPeer type then 0x0180C200000E else 0x011B19000000
    s.netSend p { f with bytes := s.ethHead p mac 0x88F7 ++ msg }

/-- A time stamp of 10 bytes from ns. -/
def tsBytes (ns : Nat) : List Byte := beBytes 6 (ns / 1000000000) ++ beBytes 4 (ns % 1000000000)

/-- The Announce body of the own clock; what the spec's registers do not give is as IEEE 1588 has it for a clock of unknown
accuracy. -/
def State.announceBody (s : State) : List Byte :=
  beBytes 10 0 ++ beBytes 2 (ofSigned 16 (s.rdS Fld.PTP_UTC_OFFSET)) ++ beBytes 1 0 ++ beBytes 1 (s.rd Fld.PTP_MASTER_PRIORITY1) ++
  beBytes 1 (s.rd Fld.PTP_MASTER_CLOCK_CLASS) ++ beBytes 1 0xFE ++ beBytes 2 0xFFFF ++ beBytes 1 (s.rd Fld.PTP_MASTER_PRIORITY2) ++
  beBytes 8 (s.ownIdentity / 65536) ++ beBytes 2 0 ++ beBytes 1 0xA0

/-- An interval elapses and the device's message of that kind is queued, where its state sends one (R321). -/
def State.ptpEmit (s : State) (m : PtpSend) : State :=
  let one := s.flag Fld.PTP_CFG_ONE_STEP
  let twoFlag := if one then 0 else 0x0200
  let sync := s.rdS Fld.PTP_CFG_LOG_SYNC
  match m with
  | .sync =>
    if s.ptpState ≠ ptpMaster then s
    else
      let n := s.ptp.seqSync
      let t := { s with ptp := { s.ptp with seqSync := (n + 1) % 65536 } }
      t.ptpSend mtSync (if one then some (mtSync, 0) else none) (if one then none else some (mtSync, n, [])) (s.ptpBytes mtSync twoFlag n 0 sync (beBytes 10 0))
  | .announce =>
    if s.ptpState ≠ ptpMaster then s
    else
      let n := s.ptp.seqAnn
      let t := { s with ptp := { s.ptp with seqAnn := (n + 1) % 65536 } }
      t.ptpSend mtAnnounce none none (s.ptpBytes mtAnnounce 0x0008 n 0 (s.rdS Fld.PTP_CFG_LOG_ANN) s.announceBody)
  | .delayReq =>
    if s.flag Fld.PTP_CFG_PEER || !(s.ptpState = ptpSlave || s.ptpState = ptpUncalibrated) then s
    else
      let n := s.ptp.seqReq
      let t := { s with ptp := { s.ptp with seqReq := (n + 1) % 65536, req := some (n, none) } }
      t.ptpSend mtDelayReq none (some (mtDelayReq, n, [])) (s.ptpBytes mtDelayReq 0 n 0 sync (beBytes 10 0))
  | .pdelayReq =>
    if !s.flag Fld.PTP_CFG_PEER || s.ptpState = ptpDisabled then s
    else
      let n := s.ptp.seqReq
      let t := { s with ptp := { s.ptp with seqReq := (n + 1) % 65536, req := some (n, none), presp := none } }
      t.ptpSend mtPdelayReq none (some (mtPdelayReq, n, [])) (s.ptpBytes mtPdelayReq 0 n 0 sync (beBytes 20 0))

/-- What follows the transmission of an event message with its time stamp (R325): Follow_Up, the request's departure, or
Pdelay_Resp_Follow_Up. -/
def State.ptpSent (s : State) (f : Nat × Nat × List Byte) (ts : PtpTime) : State :=
  let t := ptpNs ts
  if f.1 = mtSync then
    s.ptpSend mtFollowUp none none (s.ptpBytes mtFollowUp 0 f.2.1 0 (s.rdS Fld.PTP_CFG_LOG_SYNC) (tsBytes t))
  else if f.1 = mtDelayReq || f.1 = mtPdelayReq then
    match s.ptp.req with
    | some (n, _) => if n = f.2.1 then { s with ptp := { s.ptp with req := some (n, some (t : Int)) } } else s
    | none => s
  else if f.1 = mtPdelayResp then
    s.ptpSend mtPdelayFollowUp none none (s.ptpBytes mtPdelayFollowUp 0 f.2.1 0 0x7F (tsBytes t ++ f.2.2))
  else s

/-- An announce message: the sender's data set and UTC fields, then the best master decision. -/
def State.ptpAnnounce (s : State) (m : List Byte) : State :=
  let id := BitVec.ofNat 80 (num m 20 10)
  let fl := num m 7 1
  let old := s.ptp.foreign.find? fun f : PtpForeign => f.id = id
  let e : PtpForeign := {
    id, last := s.now, before := old.map (·.last)
    rank := [num m 47 1, num m 48 1, num m 49 1, num m 50 2, num m 52 1, num m 53 8, num m 61 2, num m 20 10]
    utc := toSigned 16 (num m 44 2), utcValid := fl / 4 % 2 = 1, leap61 := fl % 2 = 1, leap59 := fl / 2 % 2 = 1 }
  let offset := s.rdS Fld.PTP_UTC_OFFSET
  let s : State := { s with ptp := { s.ptp with foreign := (s.ptp.foreign.filter fun f : PtpForeign => f.id ≠ id) ++ [e] } }
  let s := if s.ptp.parent = some id then
      let s := { s with ptp := { s.ptp with announceAt := s.now } }.refreshUtc
      let s := if s.rdS Fld.PTP_UTC_OFFSET = offset then s else { s with ptp := { s.ptp with leapAt := none } }
      s.setLeap
    else s
  s.bmca

/-- Whether a message is taken: PTP version 2, the configured domain and transport (PTP_CFG.UDP). -/
def State.ptpTaken (s : State) (udp : Bool) (m : List Byte) : Bool :=
  s.ptpState ≠ ptpDisabled && num m 1 1 % 16 = 2 && num m 4 1 = s.rd Fld.PTP_CFG_DOMAIN && udp = s.flag Fld.PTP_CFG_UDP

/-- A received PTP message on the PTP port, in the configured domain and transport (R321, R323, R325). Management messages
and messages of other domains are ignored; on port A announces are heard while fallback runs on B (R322). -/
def State.ptpReceive (s : State) (p : Fin 2) (udp : Bool) (m : List Byte) (ts : PtpTime) : State :=
  if !s.ptpTaken udp m then s
  else if s.ptpPort ≠ p then
    if p = 0 && s.ptpFallback && num m 0 1 % 16 = mtAnnounce then s.ptpHeardA else s
  else
    let type := num m 0 1 % 16
    let corr : Int := toSigned 64 (num m 8 8) / 65536
    let src := num m 20 10
    let seq := num m 30 2
    let time : Int := (num m 34 6 * 1000000000 + num m 40 4 : Nat)
    let t : Int := (ptpNs ts : Nat)
    let mine := num m 44 10 = s.ownIdentity
    let parent := s.ptp.parent = some (BitVec.ofNat 80 src)
    let two := num m 6 1 / 2 % 2 = 1
    if type = mtSync then
      if !parent then s
      else if two then { s with ptp := { s.ptp with sync := some (seq, t, corr) } }
      else s.ptpMsDiff (t - time - corr)
    else if type = mtFollowUp then
      match s.ptp.sync with
      | some (n, t2, c) =>
        if parent && n = seq then ({ s with ptp := { s.ptp with sync := none } }).ptpMsDiff (t2 - time - c - corr) else s
      | none => s
    else if type = mtDelayReq then
      if s.ptpState = ptpMaster && !s.flag Fld.PTP_CFG_PEER then
        s.ptpSend mtDelayResp none none (s.ptpBytes mtDelayResp 0 seq (corr * 65536) (s.rdS Fld.PTP_CFG_LOG_SYNC)
          (tsBytes (ptpNs ts) ++ beBytes 10 src))
      else s
    else if type = mtDelayResp then
      match s.ptp.req, s.ptp.msDiff with
      | some (n, some t3), some d =>
        if parent && mine && n = seq then
          { s with ptp := { s.ptp with req := none, delay := some ((d + (time - t3 - corr)) / 2) } }
        else s
      | _, _ => s
    else if type = mtPdelayReq then
      if !s.flag Fld.PTP_CFG_PEER then s
      else
        let one := s.flag Fld.PTP_CFG_ONE_STEP
        let body := (if one then beBytes 10 0 else tsBytes (ptpNs ts)) ++ beBytes 10 src
        s.ptpSend mtPdelayResp (if one then some (mtPdelayResp, ptpNs ts) else none) (if one then none else some (mtPdelayResp, seq, beBytes 10 src))
          (s.ptpBytes mtPdelayResp (if one then 0 else 0x0200) seq (corr * 65536) 0x7F body)
    else if type = mtPdelayResp then
      match s.ptp.req with
      | some (n, some t1) =>
        if !(mine && n = seq) then s
        else if two then { s with ptp := { s.ptp with presp := some (seq, time - corr, t) } }
        else { s with ptp := { s.ptp with req := none, delay := some ((t - t1 - corr) / 2) } }
      | _ => s
    else if type = mtPdelayFollowUp then
      match s.ptp.req, s.ptp.presp with
      | some (n, some t1), some (k, t2, t4) =>
        if mine && n = seq && k = seq then
          { s with ptp := { s.ptp with req := none, presp := none, delay := some ((t4 - t1 - (time + corr - t2)) / 2) } }
        else s
      | _, _ => s
    else if type = mtAnnounce then s.ptpAnnounce m
    else s

/-! ### The commands -/

def execAnnounceTimeout (s : State) : Host.Outcome State Fault Refusal := .next s.announceTimeout
def execPtpPortReturn (s : State) : Host.Outcome State Fault Refusal := .next s.ptpReturn
def execPtpMessageSend (m : PtpSend) (s : State) : Host.Outcome State Fault Refusal := .next (s.ptpEmit m)

end Sys2Proof.Machine
end

