-- ==== Sys2Proof/Machine/Net.lean ====
section
/-!
DEFINITION. The Ethernet ports' commands (R305 to R316, R328 to R330): PHY polling and management, transmission, reception
and classification, the host's transmit and receive buffers.
-/

namespace Sys2Proof.Machine

/-- Event codes of R332. -/
def evLinkDown : Nat := 0xA0
def evLinkUp : Nat := 0xA1

/-! ### PHY polling and management (R305, R306) -/

/-- Speed code and duplex that a PHY's registers 5 and 10 resolve to, the highest common mode of IEEE 802.3 (PRESUMED,
notes/assumptions/8.md): speed 0 to 2, and whether it is full duplex. -/
def phyMode (reg5 reg10 : Nat) : Nat × Bool :=
  let bit (v i : Nat) : Bool := v / 2 ^ i % 2 = 1
  if bit reg10 11 then (2, true) else if bit reg10 10 then (2, false)
  else if bit reg5 8 then (1, true) else if bit reg5 7 then (1, false)
  else (0, bit reg5 6)

/-- The link of a port goes up at a speed, or down: LINK, SPEED, the events and FLAPS; PTP loses its port's link. -/
def State.setLink (s : State) (p : Fin 2) (up : Bool) (speed : Nat) : State :=
  let was := s.flag (linkFld p)
  let s := s.wrB (linkFld p) up
  let s := if up then s.wr (speedFld p) speed else s
  let s := if p = 0 && !up then { s with ptp := { s.ptp with aSince := none } } else s
  if up && !was then s.raise evLinkUp p.val (beBytes 1 speed)
  else if was && !up then ((s.count (Fld.NET_PORT_STAT_FLAPS p)).raise evLinkDown p.val []).ptpLinkLost p
  else s

/-- The poll of the PHY (R306): link state and resolved speed; half duplex is taken as down and counted. It waits while a
management frame is in progress. -/
def State.phyPoll (s : State) (p : Fin 2) (reg1 reg5 reg10 : Nat) : State :=
  if !s.portRuns p || s.flag (Fld.NET_MDIO_BUSY p) then s
  else
    let up := reg1 / 4 % 2 = 1
    let (speed, full) := phyMode reg5 reg10
    let half := up && !full
    let x := s.port p
    let s := if half && !x.half then s.count (Fld.NET_PORT_STAT_HALF p) else s
    (s.setPort p { s.port p with half }).setLink p (up && full) speed

/-- A write of NET_MDIO (R275, R278, R305): inside a SERVICE session; with WRITE = 1 it counts as a configuration update,
which LOCK refuses. GO starts a frame unless one is in progress. -/
def State.wMdio (s : State) (p : Path) (n : Fin 2) (v : Word) : WStatus × State :=
  match s.gate p roleService (v.getLsbD 30) with
  | .pass _ =>
    if s.flag (Fld.NET_MDIO_BUSY n) then (.ok, s)
    else
      let s := (s.wr (Fld.NET_MDIO_WRITE n) (bitsOf v.toNat 30 1)).wr (Fld.NET_MDIO_REG n) (bitsOf v.toNat 16 5)
      let s := s.wr (Fld.NET_MDIO_DATA n) (bitsOf v.toNat 0 16)
      if v.msb then
        (.ok, (s.wrB (Fld.NET_MDIO_BUSY n) true).setPort n { s.port n with mdioRead := !v.getLsbD 30 })
      else (.ok, s)
  | _ => (.refused, s)

/-- A management frame completes (R305): BUSY clears, and a read's data reads in DATA. -/
def State.mdioDone (s : State) (n : Fin 2) (data : Nat) : State :=
  if !s.flag (Fld.NET_MDIO_BUSY n) then s
  else
    let t := s.wrB (Fld.NET_MDIO_BUSY n) false
    if (s.port n).mdioRead then t.wr (Fld.NET_MDIO_DATA n) data else t

/-- The word that starts a management frame. -/
def mdioWord (write : Bool) (reg : BitVec 5) (data : BitVec 16) : Word :=
  BitVec.ofNat 32 (2 ^ 31 + (if write then 2 ^ 30 else 0) + reg.toNat * 2 ^ 16 + data.toNat)

/-! ### Transmission (R309, R325, R329) -/

/-- A whole number of ns cut to the resolution of time stamps at a port's speed: 400, 40 or 8 ns (R325). -/
def State.stampGrid (s : State) (p : Fin 2) (ns : Nat) : Nat :=
  let g := [400, 40, 8].getD (s.rd (speedFld p)) 8
  ns / g * g

/-- The PTP time of a number of ns. -/
def ptpTime (ns : Nat) : PtpTime := ⟨BitVec.ofNat 48 (ns / 1000000000), BitVec.ofNat 32 (ns % 1000000000)⟩

/-- The receive time stamp of an instant at the RGMII pins: less the receive latency of the port and speed (R325). -/
def State.rxStamp (s : State) (p : Fin 2) (t : PtpTime) : PtpTime :=
  ptpTime (s.stampGrid p (ptpNs t) - s.rd (Fld.PTP_LAT_RX p (s.rd (speedFld p))))

/-- The transmit time stamp, in ns: the instant and the transmit latency (R325). -/
def State.txStamp (s : State) (p : Fin 2) (t : PtpTime) : Nat :=
  s.stampGrid p (ptpNs t) + s.rd (Fld.PTP_LAT_TX p (s.rd (speedFld p)))

/-- Put bytes in the place of those at an offset. -/
def putBytes (bs : List Byte) (off : Nat) (new : List Byte) : List Byte :=
  bs.take off ++ new ++ bs.drop (off + new.length)

/-- A frame as it leaves the MAC (R309, R325): padded to 60 bytes; in one-step operation the MAC writes the originTimestamp of a
Sync, or adds the time since the request to the correctionField of a Pdelay_Resp. The message is the end of the frame. -/
def TxFrame.wire (f : TxFrame) (stamp : Nat) : List Byte :=
  let bs := match f.onestep with
    | none => f.bytes
    | some (type, rx) =>
      if type = 0 then putBytes f.bytes (f.bytes.length - 44 + 34) (tsBytes stamp)
      else
        let off := f.bytes.length - 54 + 8
        let corr := toSigned 64 (num f.bytes off 8) + ((stamp : Int) - rx) * 65536
        putBytes f.bytes off (beBytes 8 (ofSigned 64 corr))
  bs ++ List.replicate (60 - bs.length) 0

/-- The frame on the wire completes (R309): SENT, SENT_LATE where it left over 1 µs after its launch time or was late, or
ABORTED at a link loss. PTP follows its event messages. `ts` is the PTP time at which the first bit after its SFD crossed
the pins. -/
def State.txComplete (s : State) (p : Fin 2) (e : TxEnd) (ts : PtpTime) : State :=
  let x := s.port p
  match x.sending with
  | none => s
  | some f =>
    let t := s.setPort p { x with sending := none }
    match e with
    | .linkDown => t.txDone p f txAborted noTime
    | .sent =>
      let t := t.setClock (ptpNs ts)
      let stamp := s.txStamp p ts
      let t := t.setPort p { t.port p with sent := f.wire stamp }
      let late := f.late || (f.launch && 1000 < -launchDiff f.lt stamp)
      let t := t.txDone p f (if late then txSentLate else txSent) (ptpTime stamp)
      match f.follow with
      | some g => t.ptpSent g (ptpTime stamp)
      | none => t

/-! ### Reception (R312, R313, R316) -/

/-- Entries of a receive queue: 16 for Drega requests, 8 for host frames (R307). -/
def rxDepth (q : Nat) : Nat := if q = 3 then 16 else 8

/-- Put a frame into a receive queue, or drop it at a full one. HRX of SYS_IRQ_STAT sets for the host queues. -/
def State.rxPut (s : State) (p : Fin 2) (q : Nat) (f : RxFrame) : State :=
  let x := s.port p
  if rxDepth q ≤ (x.rx.filter fun y => y.1 = q).length then s.count (Fld.NET_RXQ_STAT_DROP p q)
  else
    let t := (s.setPort p { x with rx := x.rx ++ [(q, f)] }).wrap (Fld.NET_RXQ_STAT_COUNT p q)
    if 5 ≤ q then t.irq Fld.SYS_IRQ_STAT_HRX else t

/-- Whether Drega is served on a port. -/
def State.dregaOn (s : State) (p : Fin 2) : Bool :=
  if p = 0 then s.flag Fld.NET_DREGA_CFG_EN_A else s.flag Fld.NET_DREGA_CFG_EN_B

/-- Whether a source address is allowed (R316): no prefix enabled, or inside an enabled one. -/
def State.allowed (s : State) (ip : Nat) : Bool :=
  let on := (List.range 4).filter fun k => s.flag (Fld.NET_ALLOW_ENABLE k)
  on.isEmpty || on.any fun k =>
    let shift := 32 - min 32 (s.rd (Fld.NET_ALLOW_LEN k))
    ip / 2 ^ shift = s.rd (Fld.NET_ALLOW_ADDR k) / 2 ^ shift

/-- Whether a filter of RXQ5 to RXQ7 matches (R312). -/
def State.filterHit (s : State) (p : Fin 2) (i : Nat) (e : Eth) : Bool :=
  let own := s.rd (Fld.NET_MAC_MAC p)
  s.flag (Fld.NET_RXQ_FILT_ENABLE p i) && e.type = s.rd (Fld.NET_RXQ_FILT_ETHERTYPE p i) &&
  (match s.rd (Fld.NET_RXQ_FILT_DEST p i) with
   | 0 => e.dst = own
   | 1 => e.dst = own || e.dst = macAll
   | 2 => macMulti e.dst
   | _ => true)

/-- The kept response to a source's TAG, within 5 s (R319). -/
def State.keptFor (s : State) (r : DregaSrc) (tag : BitVec 16) : Option Kept :=
  s.kept.find? fun k => k.src.ip = r.ip && k.src.udp = r.udp && k.tag = tag && s.now < k.sent + 5000

/-- A repeated request receives the kept response again (R319). -/
def State.dregaRepeat (s : State) (r : DregaSrc) (k : Kept) : State :=
  (s.count Fld.NET_DREGA_STAT_REPEATED).dregaSend r k.payload

/-- A Drega message (R317): version, type, tag, status, flags, length and body. -/
def dregaBytes (type tag status flags : Nat) (body : List Byte) : List Byte :=
  beBytes 1 1 ++ beBytes 1 type ++ beBytes 2 tag ++ beBytes 1 status ++ beBytes 1 flags ++ beBytes 2 body.length ++ body

/-- Answer a Drega request (R317, R319): the response is sent and kept, of the 8 most recent sources. The FLAGS of a response
are not stated: a free value in bits 0 and 1. -/
def State.dregaAnswer (s : State) (r : DregaSrc) (type : Nat) (tag : BitVec 16) (status : Nat) (body : List Byte) : State :=
  let b := dregaBytes (type + 0x80) tag.toNat status (s.openWord % 4) body
  let k : Kept := { src := r, tag, payload := b, sent := s.now }
  let rest := s.kept.filter fun (x : Kept) => !(x.src.ip = r.ip && x.src.udp = r.udp)
  let s := ({ s with kept := k :: rest.take 7 }.drawn).wrap Fld.NET_DREGA_STAT_SERVED
  s.dregaSend r b

/-- Statuses of R318. -/
def drOk : Nat := 0
def drRefused : Nat := 1
def drBadMessage : Nat := 3

/-- Whether the header of a request is well formed: VERSION, a known TYPE, STATUS 0 and a LENGTH that fits. -/
def dregaHeadOk (m : List Byte) : Bool :=
  8 ≤ m.length && num m 0 1 = 1 && num m 1 1 ∈ [1, 2, 3] && num m 4 1 = 0 && num m 6 2 + 8 = m.length

/-- The Drega message of a received frame. -/
def RxFrame.drega (f : RxFrame) : List Byte := udpPayload (ethParse f.bytes).payload

/-- Where a Drega request came from: port, MAC, address and UDP port. -/
def RxFrame.source (p : Fin 2) (f : RxFrame) : DregaSrc :=
  let e := ethParse f.bytes
  { port := p, mac := BitVec.ofNat 48 e.src, ip := BitVec.ofNat 32 (num e.payload 12 4)
    udp := BitVec.ofNat 16 (num e.payload 20 2) }

/-- The oldest Drega request of a port. -/
def Port.dregaHead (x : Port) : Option RxFrame := (x.rx.find? fun y => y.1 = 3).map (·.2)

/-- The Drega request that has waited longest on either port (R319). -/
def State.dregaFirst (s : State) : Option (Fin 2 × RxFrame) :=
  match s.portA.dregaHead, s.portB.dregaHead with
  | some a, some b => some (if a.arrival ≤ b.arrival then (0, a) else (1, b))
  | some a, none => some (0, a)
  | none, some b => some (1, b)
  | none, none => none

/-- Whether a request is that of a Drega requester. -/
def GarnetReq.fromDrega : GarnetReq → Bool
  | .sign (.drega _ _) _ => true
  | _ => false

/-- Whether a Drega request is in service (R319: one at a time): a READING whose frame is at Garnet. -/
def State.dregaBusy (s : State) : Bool := (s.gar.serving.toList ++ s.gar.sign).any GarnetReq.fromDrega

/-- The request that may be served now: the oldest, none being in service and the port's engine not restarting. -/
def State.dregaNext (s : State) : Option (Fin 2 × RxFrame) :=
  if s.dregaBusy then none else s.dregaFirst.filter fun x => !s.esc.restarting.contains (.netEngine x.1)

/-- A request leaves its queue for service. -/
def State.dregaTake (s : State) (p : Fin 2) (f : RxFrame) : State :=
  s.setPort p { s.port p with rx := (s.port p).rx.erase (3, f) }

/-- Requests at the head of the queue that are not executed: a repeated one receives the kept response again, one whose
header is wrong BAD_MESSAGE (R318, R319). -/
def State.dregaFlush (s : State) : Nat → State
  | 0 => s
  | n + 1 =>
    match s.dregaNext with
    | none => s
    | some (p, f) =>
      let m := f.drega
      let r := f.source p
      let tag := BitVec.ofNat 16 (num m 2 2)
      match s.keptFor r tag with
      | some k => ((s.dregaTake p f).dregaRepeat r k).dregaFlush n
      | none =>
        if dregaHeadOk m then s
        else ((s.dregaTake p f).dregaAnswer r (num m 1 1) tag drBadMessage []).dregaFlush n

/-- The most requests that can wait: 16 on each port (R307). -/
def dregaMost : Nat := 32

/-- The oldest request is served, where it is of the type given and the one the row names: executed by `f` with its source,
tag and message. -/
def State.dregaServe (s : State) (type : Nat) (named : DregaSrc → List Byte → Bool) (f : DregaSrc → BitVec 16 → List Byte → State → State) : State :=
  let s := s.dregaFlush dregaMost
  match s.dregaNext with
  | none => s
  | some (p, x) =>
    let m := x.drega
    if num m 1 1 ≠ type || !named (x.source p) m then s
    else (f (x.source p) (BitVec.ofNat 16 (num m 2 2)) m (s.dregaTake p x)).dregaFlush dregaMost

/-- Whether a message of `r` has the source, the TAG and the FLAGS of a row. -/
def dregaNamed (src : DregaSrc) (tag : BitVec 16) (flags : Byte) (r : DregaSrc) (m : List Byte) : Bool :=
  r = src && num m 2 2 = tag.toNat && num m 5 1 = flags.toNat

/-- A Drega request at classification (R312, R316): a denied one is dropped; any other waits in RXQ3 in order of arrival. -/
def State.dregaIn (s : State) (p : Fin 2) (e : Eth) (f : RxFrame) : State :=
  if !s.allowed (num e.payload 12 4) then s.count Fld.NET_DREGA_STAT_DENIED
  else
    let n := s.net.arrivals
    (({ s with net := { s.net with arrivals := n + 1 } }).rxPut p 3 { f with arrival := n }).dregaFlush dregaMost

/-- A response kept for a source is discarded, 5 s after it was sent (R319). -/
def State.keptExpiry (s : State) (r : DregaSrc) : State :=
  let mine (x : Kept) : Bool := x.src.ip = r.ip && x.src.udp = r.udp
  match s.kept.find? mine with
  | none => s
  | some k => { s.until (k.sent + 5000) with kept := s.kept.filter fun x => !mine x }

def execDregaKeptExpiry (src : DregaSrc) (s : State) : Host.Outcome State Fault Refusal := .next (s.keptExpiry src)

/-- The host filters, in order; a frame nothing matches is dropped as OTHER. -/
def State.rxFilters (s : State) (p : Fin 2) (e : Eth) (f : RxFrame) : State :=
  match (List.range 3).find? fun i => s.filterHit p i e with
  | some i => s.rxPut p (5 + i) f
  | none => s.count (Fld.NET_RX_CNT_OTHER p)

/-- Classification of a frame that passed the drops (R312, R313). -/
def State.rxClassify (s : State) (p : Fin 2) (e : Eth) (f : RxFrame) : State :=
  let own := s.rd (Fld.NET_IP_ADDR p)
  let ip := e.payload
  let isUdp := e.type = 0x0800 && num ip 9 1 = 17
  let dst := num ip 16 4
  let dport := num ip 22 2
  if e.type = 0x88F7 && (e.dst = 0x011B19000000 || e.dst = 0x0180C200000E) then
    let q := if num ip 0 1 % 16 ≤ 3 then 0 else 1
    (s.wrap (Fld.NET_RXQ_STAT_COUNT p q)).ptpReceive p false ip f.ts
  else if e.type = 0x0800 && !ipOk ip then s.count (Fld.NET_RX_CNT_OTHER p)
  else if isUdp && (dport = 319 || dport = 320) && (dst = own || dst = 0xE0000181 || dst = 0xE000006B) then
    (s.wrap (Fld.NET_RXQ_STAT_COUNT p (if dport = 319 then 0 else 1))).ptpReceive p true (udpPayload ip) f.ts
  else if e.type = 0x0806 && (e.dst = macAll || e.dst = s.rd (Fld.NET_MAC_MAC p)) then
    (s.wrap (Fld.NET_RXQ_STAT_COUNT p 2)).arpPacket p ip
  else if isUdp && dport = s.rd Fld.NET_DREGA_CFG_UDP_PORT && dst = own && s.dregaOn p then s.dregaIn p e f
  else s.rxFilters p e f

/-- A received frame, without its FCS (R312): frames with an FCS error, runts, over-long ones and those with a wrong tag are
dropped and counted. `ts` is the PTP time at which the first bit after its SFD crossed the pins; the frame carries the receive
time stamp made of it (R325). -/
def State.rxFrame (s : State) (p : Fin 2) (bytes : List Byte) (fcsOk : Bool) (ts : PtpTime) : State :=
  if !s.linkUp p then s
  else
    let s := s.setClock (ptpNs ts)
    let e := ethParse bytes
    let tagOk := e.vids.length ≤ 1 && e.vids.all fun v => v = 0 || v = s.rd (Fld.NET_PORT_CFG_VID p)
    if !fcsOk || bytes.length < 60 || 1518 < bytes.length || !tagOk then s.count (Fld.NET_RX_CNT_ERROR p)
    else s.rxClassify p e { bytes, ts := s.rxStamp p ts }

/-! ### Host frames (R311, R330) -/

/-- A write of NET_HTX_DATA: the next word of the path's buffer of 1536 bytes; words past its end are ignored. -/
def State.wHtxData (s : State) (p : Path) (v : Word) : WStatus × State :=
  let x := s.path p
  (.ok, if x.htx.length < 384 then s.setPath p { x with htx := x.htx ++ [v] } else s)

/-- The target of NET_HTX_LT of a path against the present time (R330): the difference in ns and the launch time. -/
def State.htxTarget (s : State) (p : Path) : Int × BitVec 32 :=
  let now := s.ptpNow
  let sec := now / 1000000000
  let d : Int := toSigned 32 ((s.rdP p Fld.NET_HTX_LT_SEC_LO + 2 ^ 32 - sec % 2 ^ 32) % 2 ^ 32)
  let target : Int := ((sec : Int) + d) * 1000000000 + s.rdP p Fld.NET_HTX_LT_NS
  (target - now, BitVec.ofInt 32 target)

/-- RESULT codes of NET_HTX_CMD: accepted, FULL, TOO_FAR, NO_TIME, BAD, port down or stopped. -/
def State.htxResult (s : State) (p : Path) (n : Fin 2) (q len : Nat) : Nat :=
  if q = 4 || len < 14 || 1514 < len then 5
  else if !s.linkUp n then 6
  else if q = 5 && !s.timebase then 4
  else if q = 5 && 2147483647 < (s.htxTarget p).1 then 3
  else if !s.txRoom n q then 2
  else 1

/-- A write of NET_HTX_CMD (R311): its fields, and with GO the frame is submitted to TXQ5 to TXQ7 or refused. Bytes past
those written are open; the tag is the device's own. -/
def State.wHtxCmd (s : State) (p : Path) (v : Word) : WStatus × State :=
  let n : Fin 2 := if v.getLsbD 30 then 1 else 0
  let q := 4 + bitsOf v.toNat 28 2
  let len := bitsOf v.toNat 0 11
  let s := (s.wrP p Fld.NET_HTX_CMD_PORT n.val).wrP p Fld.NET_HTX_CMD_QUEUE (q - 4)
  let s := (s.wrP p Fld.NET_HTX_CMD_TSREQ (bitsOf v.toNat 27 1)).wrP p Fld.NET_HTX_CMD_LENGTH len
  if !v.msb then (.ok, s)
  else
    let x := s.path p
    let r := s.htxResult p n q len
    let s := (s.setPath p { x with htx := [] }).wrP p Fld.NET_HTX_CMD_RESULT r
    if r ≠ 1 then (.ok, s)
    else
      let tag := s.openWord % 256
      let have_ := x.htx.flatMap wordBytes
      let bytes := (have_ ++ List.replicate (len - have_.length) (BitVec.ofNat 8 s.openWord)).take len
      let f : TxFrame := {
        bytes, queue := q, launch := q = 5, lt := (s.htxTarget p).2, tsreq := v.getLsbD 27, tag := BitVec.ofNat 16 tag
        host := some p }
      (.ok, ((s.wrP p Fld.NET_HTX_CMD_TAG tag).netSend n f).drawn)

/-- A read of the lowest word of NET_HTX_DONE (R311): it removes the oldest completion from the path's ring; an empty ring
reads 0. -/
def State.htxDoneRead (s : State) (p : Path) : List Word × State :=
  let x := s.path p
  (x.htxDone.headD (List.replicate 4 0), s.setPath p { x with htxDone := x.htxDone.drop 1 })

/-- The received frame loaded for a port on a path, with the index of its next word. -/
def PathSt.hrx (x : PathSt) (n : Fin 2) : List Word × Nat := if n = 0 then x.hrxA else x.hrxB

/-- Replace it. -/
def State.setHrx (s : State) (p : Path) (n : Fin 2) (h : List Word × Nat) : State :=
  s.setPath p (if n = 0 then { s.path p with hrxA := h } else { s.path p with hrxB := h })

/-- A write of NET_HRX_CMD (R312): with POP the oldest frame of the queue goes into the path's buffer. -/
def State.wHrxCmd (s : State) (p : Path) (n : Fin 2) (v : Word) : WStatus × State :=
  let q := 4 + bitsOf v.toNat 29 2
  let s := s.wrP p (Fld.NET_HRX_CMD_QUEUE n) (q - 4)
  if !v.msb then (.ok, s)
  else
    let x := s.port n
    match x.rx.find? fun y => y.1 = q with
    | none =>
      let s := s.setHrx p n ([], 0)
      (.ok, (s.wrP p (Fld.NET_HRX_CMD_LOADED n) 0).wrP p (Fld.NET_HRX_CMD_LENGTH n) 0)
    | some (_, f) =>
      let s := s.setPort n { x with rx := x.rx.erase (q, f) }
      let s := s.setHrx p n (bytesWords f.bytes, 0)
      let s := (s.wrP p (Fld.NET_HRX_CMD_LOADED n) 1).wrP p (Fld.NET_HRX_CMD_LENGTH n) f.bytes.length
      (.ok, (s.wrP p (Fld.NET_HRX_TS_SEC_LO n) f.ts.sec.toNat).wrP p (Fld.NET_HRX_TS_NS n) f.ts.ns.toNat)

/-- A read of NET_HRX_DATA: the next word of the loaded frame; past its end, 0. -/
def State.hrxRead (s : State) (p : Path) (n : Fin 2) : Word × State :=
  let h := (s.path p).hrx n
  (h.1.getD h.2 0, s.setHrx p n (h.1, h.2 + 1))

/-! ### The commands -/

def execPhyPoll (port : Fin 2) (reg1 reg5 reg10 : BitVec 16) (s : State) : Host.Outcome State Fault Refusal :=
  .next (s.phyPoll port reg1.toNat reg5.toNat reg10.toNat)
def execMdioRead (p : Path) (port : Fin 2) (reg : BitVec 5) (s : State) : Host.Outcome State Fault Refusal :=
  .next (s.host fun s => s.wMdio p port (mdioWord false reg 0))
def execMdioWrite (p : Path) (port : Fin 2) (reg : BitVec 5) (data : BitVec 16) (s : State) :
    Host.Outcome State Fault Refusal :=
  .next (s.host fun s => s.wMdio p port (mdioWord true reg data))
def execMdioDone (port : Fin 2) (data : BitVec 16) (s : State) : Host.Outcome State Fault Refusal :=
  .next (s.mdioDone port data.toNat)
def execRxFrame (port : Fin 2) (bytes : List Byte) (fcsOk : Bool) (ts : PtpTime) (s : State) :
    Host.Outcome State Fault Refusal := .next (s.rxFrame port bytes fcsOk ts)
def execTxStart (port : Fin 2) (s : State) : Host.Outcome State Fault Refusal := .next (s.txStart port)
def execTxComplete (port : Fin 2) (ending : TxEnd) (ts : PtpTime) (s : State) : Host.Outcome State Fault Refusal :=
  .next (s.txComplete port ending ts)
def execLaunchTime (port : Fin 2) (now : PtpTime) (s : State) : Host.Outcome State Fault Refusal :=
  .next (s.launchDue port now)

/-- The launch timebase wraps: the time is the next that it does, and NET_NS_WRAP counts (R328). The clock gains at least
999 500 ns in a millisecond (R323). -/
def State.nsWrap (s : State) : State :=
  let next := (s.ptp.wraps + 1) * 2 ^ 32
  let s := if next ≤ s.ptpNow then s else s.until (s.now + (next - s.ptpNow) / 999500 + 1)
  ({ s with ptp := { s.ptp with wraps := s.ptp.wraps + 1 } }).wrap Fld.NET_NS_WRAP_WRAPS

def execNsWrap (s : State) : Host.Outcome State Fault Refusal := .next s.nsWrap
def execHtxDataWrite (p : Path) (data : Word) (s : State) : Host.Outcome State Fault Refusal :=
  .next (s.host fun s => s.wHtxData p data)
def execHtxGo (p : Path) (v : Word) (s : State) : Host.Outcome State Fault Refusal :=
  .next (s.host fun s => s.wHtxCmd p (v ||| 0x80000000))
def execHrxPop (p : Path) (port : Fin 2) (v : Word) (s : State) : Host.Outcome State Fault Refusal :=
  .next (s.host fun s => s.wHrxCmd p port (v ||| 0x80000000))
def execHrxDataRead (p : Path) (port : Fin 2) (s : State) : Host.Outcome State Fault Refusal :=
  .next (s.hostRead fun s => s.hrxRead p port)
def execArpRefresh (port : Fin 2) (ip : BitVec 32) (s : State) : Host.Outcome State Fault Refusal :=
  .next (s.arpRefresh port ip.toNat)
def execArpRetry (port : Fin 2) (ip : BitVec 32) (s : State) : Host.Outcome State Fault Refusal :=
  .next (s.arpRetry port ip.toNat)

end Sys2Proof.Machine
end

