-- ==== Sys2Proof/Machine/Cascade.lean ====
section
/-!
DEFINITION. The Nirair ring (R351 to R368): frames and their forwarding, enumeration, hop delays, markers and the alignment
of members, the master's time, site contributions.
-/

namespace Sys2Proof.Machine

/-- Event codes of R379. -/
def evMemberPresent : Nat := 0xC0
def evMemberAbsent : Nat := 0xC1
def evRingFault : Nat := 0xC2
def evRingBroken : Nat := 0xC3
def evAlignLost : Nat := 0xC4
def evUidChange : Nat := 0xC5

/-- Codes of CSC_STATUS.ENUM (R359). -/
def enOff : Nat := 0x0F
def enSearch : Nat := 0x3C
def enRun : Nat := 0xF0
def enFault : Nat := 0xC3

/-- Codes of CSC_STATUS.ALIGN. -/
def alNone : Nat := 0
def alAligning : Nat := 1
def alAligned : Nat := 2
def alHoldover : Nat := 3

/-- The enumeration state. -/
def State.enum (s : State) : Nat := s.rd Fld.CSC_STATUS_ENUM

/-- The own position. -/
def State.position (s : State) : Nat := s.rd Fld.CSC_STATUS_POSITION

/-! ### Frames (R354, R355) -/

/-- The other port. -/
def otherPort : RingPort → RingPort
  | .u => .d
  | .d => .u

/-- Sequence numbers seen of a source, newest first. -/
def State.seenOf (s : State) (src : Nat) : List (BitVec 16) := (s.ring.seen.lookup src).getD []

/-- Remember a sequence number of a source: the last 64. -/
def State.remember (s : State) (src : Nat) (q : BitVec 16) : State :=
  let l := (q :: s.seenOf src).take 64
  { s with ring := { s.ring with seen := (src, l) :: s.ring.seen.filter fun x => x.1 ≠ src } }

/-- The faults of enumeration (R358). -/
def State.ringFault (s : State) (cause : Nat) : State := s.raise evRingFault 0xFF (beBytes 1 cause)

/-- Whether the ring's ports work: the core runs and the device takes part in a ring. -/
def State.ringOn (s : State) : Bool := s.core.running && s.flag Fld.CSC_CFG_ENABLE

/-- Forward a frame out of the other port with HOPS incremented (R355). -/
def State.ringForward (s : State) (port : RingPort) (f : LinkFrame) : State :=
  { s with ring := { s.ring with out := s.ring.out ++ [(some (otherPort port), { f with hops := f.hops + 1 }.bytes)] } }

/-- A frame that arrives on a port (R354, R355, R358): one whose CRC fails, one with HOPS 8, and one of a foreign SITE_ID or
RING are dropped. -/
def State.ringCheck (s : State) (port : RingPort) (bs : List Byte) : Option LinkFrame × State :=
  if !s.ringOn || port ∈ s.ring.portDown then (none, s)
  else match linkRead ringMost bs with
    | none => (none, s.count Fld.CSC_ERR_CRC)
    | some f =>
      if f.hops = 8 then (none, s)
      else if f.site ≠ s.rd Fld.CSC_CFG_SITE_ID || f.ring ≠ s.ringNo then (none, s.ringFault 1)
      else (some f, s)

/-- Reception of a frame (R354, R355, R358): a frame for another position is forwarded, its payload changed by `fwd`; of a pair
(SRC, SEQ) the first copy is taken (`true`) and the later one not, nor a frame of this device come back. SEQ gaps count in
CSC_ERR.LOST. -/
def State.ringRx (s : State) (port : RingPort) (bs : List Byte) (fwd : List Byte → List Byte) :
    Option (LinkFrame × Bool) × State :=
  match s.ringCheck port bs with
  | (none, s) => (none, s)
  | (some f, s) =>
    let seen := s.seenOf f.src
    let own := f.src = s.position && f.seq ∈ seen
    let s := if f.dest ≠ s.position && !own then s.ringForward port { f with payload := fwd f.payload } else s
    if f.seq ∈ seen then (some (f, false), s)
    else
      let gap := match seen with
        | q :: _ => decide (1 < (f.seq - q).toInt)
        | [] => false
      let s := if gap then s.count Fld.CSC_ERR_LOST else s
      (some (f, true), s.remember f.src f.seq)

/-- Whether a received frame is of a type: its bytes as they stand say so. -/
def frameIs (type : Nat) (bs : List Byte) : Bool := num bs 2 1 = type

/-- What a device does with the first copy of a frame of a type and payload length; its bytes that are of another type are
another command's. -/
def State.ringTake (s : State) (port : RingPort) (type len : Nat) (bs : List Byte) (g : LinkFrame → State → State) : State :=
  if !frameIs type bs then s
  else match s.ringRx port bs id with
    | (some (f, true), s) => if f.payload.length = len then g f s else s
    | (_, s) => s

/-- Send a frame of this device; its own sequence number counts as seen. -/
def State.ringOut (s : State) (dest type : Nat) (payload : List Byte) : State :=
  let q := s.ring.seq
  (s.ringSend none dest type payload).remember s.position q

/-- Whether a frame is meant for this device. -/
def State.ringMine (s : State) (f : LinkFrame) : Bool := f.dest = s.position || f.dest = 0xFF

/-! ### Enumeration (R357, R358) -/

/-- Send DISCOVER to positions. -/
def State.discoverTo (s : State) (mask : Nat) : State :=
  ((List.range 8).filter fun p => mask / 2 ^ p % 2 = 1).foldl (fun s p => s.ringOut p ftDiscover []) s

/-- The payload of a JOIN: SYS_UID, POSITION and TWN_ROLE. -/
def State.joinPayload (s : State) : List Byte :=
  beBytes 8 s.fuses.uid.toNat ++ beBytes 1 (s.rd Fld.CSC_CFG_POSITION) ++ beBytes 1 (s.rd Fld.TWN_STATUS_ROLE)

/-- Enter SEARCH: a master sends DISCOVER to the expected positions; a member waits to be admitted (R357, R359). -/
def State.ringSearch (s : State) : State :=
  let s := ({ s with ring := { s.ring with searchAt := s.now } }).wr Fld.CSC_STATUS_ENUM enSearch
  if s.isMaster then s.discoverTo (s.rd Fld.CSC_CFG_EXPECT) else s

/-- The device has become ready (R357). -/
def State.ringReady (s : State) : State :=
  if s.ringOn then (s.wr Fld.CSC_STATUS_POSITION (s.rd Fld.CSC_CFG_POSITION)).ringSearch else s

/-- Mark a position PRESENT, or ABSENT, with its event. -/
def State.setPresent (s : State) (p : Nat) (uid : BitVec 64) : State :=
  let was := s.rd Fld.CSC_STATUS_PRESENT / 2 ^ p % 2 = 1
  let s := s.wr Fld.CSC_STATUS_PRESENT (s.rd Fld.CSC_STATUS_PRESENT ||| 2 ^ p)
  let s := s.wr Fld.CSC_STATUS_ABSENT (s.rd Fld.CSC_STATUS_ABSENT &&& (0xFF ^^^ 2 ^ p))
  let s := { s with ring := { s.ring with members := (p, uid) :: s.ring.members.filter fun x => x.1 ≠ p } }
  if was then s else s.raise evMemberPresent p (beBytes 8 uid.toNat)

def State.setAbsent (s : State) (p : Nat) : State :=
  if s.rd Fld.CSC_STATUS_ABSENT / 2 ^ p % 2 = 1 then s
  else
    let s := s.wr Fld.CSC_STATUS_ABSENT (s.rd Fld.CSC_STATUS_ABSENT ||| 2 ^ p)
    let s := s.wr Fld.CSC_STATUS_PRESENT (s.rd Fld.CSC_STATUS_PRESENT &&& (0xFF ^^^ 2 ^ p))
    let s := { s with ring := { s.ring with members := s.ring.members.filter fun x => x.1 ≠ p } }
    s.raise evMemberAbsent p []

/-- A DISCOVER (R357, R358): a ready member answers with JOIN; at a master it comes from another master, and both enter
FAULT. -/
def State.onDiscover (s : State) (f : LinkFrame) : State :=
  if s.isMaster then
    if s.enum = enOff then s
    else
      let s := { s with ring := { s.ring with foreignAt := some s.now } }
      if s.enum = enFault then s else (s.wr Fld.CSC_STATUS_ENUM enFault).ringFault 0
  else if s.ringMine f && s.enum ≠ enOff then s.ringOut 0 ftJoin s.joinPayload
  else s

/-- The master has heard of a member in the present tick (R357). -/
def State.memberHeard (s : State) (p : Nat) : State :=
  { s with ring := { s.ring with heard := (p, s.core.ticks) :: s.ring.heard.filter fun x => x.1 ≠ p } }

/-- A JOIN (R357, R358, R368): the master admits the position, or refuses one it does not expect or that another UID
holds. A UID other than the one the ledger keeps raises CSC_UID_CHANGE. -/
def State.onJoin (s : State) (f : LinkFrame) : State :=
  let uid := BitVec.ofNat 64 (num f.payload 0 8)
  let pos := num f.payload 8 1
  if !s.isMaster || !s.ringMine f || !(s.enum = enSearch || s.enum = enRun) then s
  else if s.rd Fld.CSC_CFG_EXPECT / 2 ^ pos % 2 = 0 then s.ringFault 3
  else
    match s.ring.members.lookup pos with
    | some u => if u = uid then s.ringOut pos ftAdmit [] else s.ringFault 2
    | none =>
      let old := s.ledNow.siteUid.lookup pos
      let s := ((s.setPresent pos uid).memberHeard pos).ringOut pos ftAdmit []
      match old with
      | some o => if o = uid then s else s.raise evUidChange pos (beBytes 8 o.toNat ++ beBytes 8 uid.toNat)
      | none => s

/-- An ADMIT: the member is PRESENT (R357). -/
def State.onAdmit (s : State) (f : LinkFrame) : State :=
  if s.isMember && s.ringMine f && s.enum = enSearch then s.wr Fld.CSC_STATUS_ENUM enRun else s

/-- DISCOVER is due: to every expected position in SEARCH, to each ABSENT one in RUN. -/
def State.discoverDue (s : State) : State :=
  if !s.ringOn || !s.isMaster then s
  else if s.enum = enSearch then s.discoverTo (s.rd Fld.CSC_CFG_EXPECT)
  else if s.enum = enRun then s.discoverTo (s.rd Fld.CSC_STATUS_ABSENT)
  else s

/-- The search ends after 150 ms (R357, R362, R365): RUN; every expected position that has not joined is ABSENT; a master that follows no
primary is ALIGNED. -/
def State.searchEnd (s : State) : State :=
  if !s.ringOn || !s.isMaster || s.enum ≠ enSearch then s
  else
    let s := (s.until (s.ring.searchAt + 150)).wr Fld.CSC_STATUS_ENUM enRun
    let missing := (List.range 8).filter fun p =>
      s.rd Fld.CSC_CFG_EXPECT / 2 ^ p % 2 = 1 && s.rd Fld.CSC_STATUS_PRESENT / 2 ^ p % 2 = 0
    let s := missing.foldl State.setAbsent s
    if s.followsTwin then s else s.wr Fld.CSC_STATUS_ALIGN alAligned

/-- A ready member that is not admitted sends JOIN again. -/
def State.joinAgain (s : State) : State :=
  if s.ringOn && s.isMember && s.enum = enSearch then s.ringOut 0 ftJoin s.joinPayload else s

/-- Whether a member has sent no CONTRIB for 3 consecutive master ticks (R357). -/
def State.memberSilent (s : State) (p : Nat) : Bool := s.ring.heard.lookup p |>.all fun t => t + 3 ≤ s.core.ticks

/-- A member that has been silent is marked ABSENT (R357). -/
def State.memberTimeout (s : State) (p : Nat) : State :=
  if s.isMaster && s.rd Fld.CSC_STATUS_PRESENT / 2 ^ p % 2 = 1 && s.memberSilent p then s.setAbsent p else s

/-- 10 s after the last foreign DISCOVER a master leaves FAULT and searches anew (R358). -/
def State.faultEnd (s : State) : State :=
  if s.isMaster && s.enum = enFault then (s.until (s.ring.foreignAt.elim 0 (· + 10000))).ringSearch else s

/-- A port loses symbol lock: it is down; a master that loses both loses every member (R353, R357). -/
def State.ringPortDown (s : State) (p : RingPort) : State :=
  let s := { s with ring := { s.ring with portDown := p :: s.ring.portDown.filter fun x => x ≠ p } }
  if s.isMaster && 2 ≤ s.ring.portDown.length then
    ((List.range 8).filter fun i => s.rd Fld.CSC_STATUS_PRESENT / 2 ^ i % 2 = 1).foldl State.setAbsent s
  else s

/-! ### Hop delays (R356, R369) -/

/-- The mean of up to 16 measurements. -/
def meanHop (l : List Nat) : Nat := if l.isEmpty then 0 else l.sum / l.length

/-- Every 100 ms each port sends DELAY_REQ over its hop; the twin link too. -/
def State.hopAsk (s : State) : State :=
  let s := if s.ringOn then
      (s.ringSend (some .u) 0xFF ftDelayReq []).ringSend (some .d) 0xFF ftDelayReq []
    else s
  if s.core.running && s.flag Fld.TWN_CFG_ENABLE then s.twinSend ftTwinDelayReq [] else s

/-- Whether a link works. -/
def State.linkOn (s : State) (l : HopLink) : Bool :=
  match l with
  | .u => s.ringOn && !(RingPort.u ∈ s.ring.portDown)
  | .d => s.ringOn && !(RingPort.d ∈ s.ring.portDown)
  | .twin => s.core.running && s.flag Fld.TWN_CFG_ENABLE

/-- A frame of a link's own type that passes its checks; DELAY_REQ and DELAY_RESP are not forwarded (R355). -/
def State.hopTake (s : State) (l : HopLink) (ringType twinType : Nat) (bs : List Byte) (g : LinkFrame → State → State) : State :=
  let type := if l = .twin then twinType else ringType
  if !s.linkOn l || !frameIs type bs then s
  else match l with
    | .twin => match linkRead twinMost bs with
      | none => s.count Fld.CSC_ERR_CRC
      | some f => g f s
    | .u => match s.ringCheck .u bs with
      | (some f, s) => g f s
      | (none, s) => s
    | .d => match s.ringCheck .d bs with
      | (some f, s) => g f s
      | (none, s) => s

/-- A DELAY_REQ is answered over its hop with DELAY_RESP, which carries the turnaround time (a free value). -/
def State.onDelayReq (s : State) (l : HopLink) : State :=
  let p := beBytes 4 s.openWord
  match l with
  | .u => (s.ringSend (some .u) 0xFF ftDelayResp p).drawn
  | .d => (s.ringSend (some .d) 0xFF ftDelayResp p).drawn
  | .twin => (s.twinSend ftTwinDelayResp p).drawn

/-- A DELAY_RESP: half the round trip, timed to 0.25 ns, less the turnaround it carries, in 1/16 ns, and the mean of the last
16 (R356). -/
def State.onDelayResp (s : State) (l : HopLink) (f : LinkFrame) (trip : Nat) : State :=
  let d := (trip / 4 * 4 - num f.payload 0 4) / 2
  match l with
  | .u =>
    let hs := (d :: s.ring.hopU).take 16
    ({ s with ring := { s.ring with hopU := hs } }).wr Fld.CSC_HOP_HOP_U (min (meanHop hs) 0xFFFF)
  | .d =>
    let hs := (d :: s.ring.hopD).take 16
    ({ s with ring := { s.ring with hopD := hs } }).wr Fld.CSC_HOP_HOP_D (min (meanHop hs) 0xFFFF)
  | .twin => { s with twin := { s.twin with hops := (d :: s.twin.hops).take 16 } }

/-! ### Markers and alignment (R361 to R363) -/

/-- The payload of a MARKER (R361). -/
structure MarkerPayload where
  acc : Nat
  flags : Nat
  tsrc : Nat
  mtick : Nat
  time : BitVec 64
deriving DecidableEq, Repr

/-- Its bytes. -/
def markerBytes (m : MarkerPayload) : List Byte :=
  beBytes 4 m.acc ++ beBytes 1 m.flags ++ beBytes 1 m.tsrc ++ beBytes 2 0 ++ beBytes 4 m.mtick ++ beBytes 8 m.time.toNat

/-- Read them. -/
def markerRead (b : List Byte) : MarkerPayload :=
  { acc := num b 0 4, flags := num b 4 1, tsrc := num b 5 1, mtick := num b 8 4, time := BitVec.ofNat 64 (num b 12 8) }

/-- Whether a marker stands at a whole-second boundary. -/
def MarkerPayload.second (m : MarkerPayload) : Bool := m.flags % 2 = 1

/-- The epoch of the next marker (R361): the first E not yet marked with (E - B) mod 1024 = 0. -/
def State.nextMarker (s : State) : Nat :=
  let t := s.ring.sentAt.elim s.epoch fun e => max s.epoch (e + 1)
  let r := (t + 1024 - s.base % 1024) % 1024
  if r = 0 then t else t + (1024 - r)

/-- The marker this device sends at an epoch: SECOND at a whole-second boundary, its time source, tick number and ledger time.
The time from the hold edge to its /S/ is a free value. -/
def State.ownMarker (s : State) (e : Nat) : MarkerPayload :=
  { acc := s.openWord
    flags := (if e = s.core.tickEpoch then 1 else 0) + (if s.flag Fld.SYS_TIME_PTP_LOCKED then 2 else 0)
    tsrc := s.rd Fld.SYS_TIME_TIME_SRC, mtick := s.core.ticks
    time := if s.ledNow.valid then BitVec.ofNat 64 (s.ledNowMs / 1000) else 0 }

/-- Send a MARKER: the master in RUN on the ring, a primary with its twin present on the twin link (R361, R371). One that
falls on a whole-second boundary follows it. -/
def State.markerSend (s : State) : State :=
  let e := s.nextMarker
  if !s.flag Fld.AQ_STATUS_RUN || s.nextBoundary ≤ e then s
  else
    let s := if s.epoch < e then s.setEpoch e else s
    let s := { s with ring := { s.ring with sentAt := some e } }
    let m := s.ownMarker e
    let t := if s.ringOn && s.isMaster && s.enum = enRun then
        let t := s.ringOut 0xFF ftMarker (markerBytes m)
        if m.second then t.wr Fld.CSC_MTICK_MTICK m.mtick else t
      else s
    let t := if t.core.running && t.flag Fld.TWN_CFG_ENABLE && t.flag Fld.TWN_STATUS_ROLE && t.flag Fld.TWN_STATUS_PRESENT then
        t.twinSend ftTwinMarker (markerBytes m)
      else t
    t.drawn

/-- Leave ALIGNED and start again at step 1 of R362: cause 0 phase, 1 FREQ, 2 master moved. -/
def State.alignLost (s : State) (cause : Nat) (e : Int) : State :=
  let s := (s.wr Fld.CSC_STATUS_ALIGN alNone).wrB Fld.SYS_TIME_EPOCH_ALIGNED false
  let s := { s with ring := { s.ring with good := 0, bad := 0, corrections := [] } }
  (s.count Fld.CSC_ERR_ALIGN_LOSS).raise evAlignLost 0xFF (beBytes 1 cause ++ beBytes 2 (ofSigned 16 e))

/-- One epoch is lengthened (positive) or shortened by an XREF cycle. -/
def State.shiftEpoch (s : State) (n : Int) : State := { s with ring := { s.ring with epochShift := s.ring.epochShift + n } }

/-- The one-cycle corrections of step 2 of R362 until the next marker, for |e| in 1/16 ns: one epoch in every 32, at most 32 of
them, until |e| is below 20.4 ns. An XREF cycle is 15625/24 of 1/16 ns. -/
def stepTwo (e : Nat) : Nat := if 240 * e < 78336 then 0 else min 32 ((240 * e - 78336) / 156250 + 1)

/-- Step 3 of R362: TRIM takes a phase error in 1/16 ns; a TRIM that would leave 8 ns to 56 ns moves 41 ns back with an epoch
shifted by an XREF cycle. -/
def State.steerTrim (s : State) (e : Int) : State :=
  let ns : Int := (2 * e + 16) / 32
  let t : Int := (s.rd Fld.CSC_ALIGN_TRIM : Int) - ns
  if 8 ≤ t && t ≤ 56 then s.wr Fld.CSC_ALIGN_TRIM t.toNat
  else
    let s := { s with ring := { s.ring with
      corrections := s.now :: s.ring.corrections.filter fun x => s.now < x + 1000 } }
    if t < 8 then (s.wr Fld.CSC_ALIGN_TRIM (t + 41).toNat).shiftEpoch (-1)
    else (s.wr Fld.CSC_ALIGN_TRIM (min (t - 41).toNat 63)).shiftEpoch 1

/-- Steps 2 and 3 of R362. -/
def State.steerPhase (s : State) (e : Int) : State :=
  let k := stepTwo e.natAbs
  if k ≠ 0 then s.shiftEpoch (if 0 < e then -(k : Int) else k) else s.steerTrim e

/-- A marker the device follows, with the own epoch it matches and its phase error in 1/16 ns (R361 to R363). -/
def State.alignStep (s : State) (second : Bool) (hops epoch : Nat) (e : Int) : State :=
  let sat : Int := if e < -32768 then -32768 else if 32767 < e then 32767 else e
  let s := (s.wrS Fld.CSC_ALIGN_PHASE sat).wr Fld.CSC_ALIGN_HOPS hops
  let s := { s with ring := { s.ring with markerAt := s.now } }
  let s := if s.flag Fld.CSC_CFG_CLOCK then ({ s with ring := { s.ring with vctl := s.openWord } }).drawn else s
  let a := s.rd Fld.CSC_STATUS_ALIGN
  if a = alNone then
    if second then
      ({ s.setBase epoch with ring := { s.ring with good := 0, bad := 0, corrections := [] } }).wr Fld.CSC_STATUS_ALIGN alAligning
    else s
  else if a = alAligning then
    let s := s.steerPhase e
    let good := if e.natAbs ≤ 80 then s.ring.good + 1 else 0
    let s := { s with ring := { s.ring with good := good } }
    if good < 64 then s
    else ({ s with ring := { s.ring with bad := 0, corrections := [] } }.wr Fld.CSC_STATUS_ALIGN alAligned).wrB
      Fld.SYS_TIME_EPOCH_ALIGNED true
  else if second && epoch % secondEpochs ≠ s.base % secondEpochs then s.alignLost 2 e
  else
    let s := s.wr Fld.CSC_STATUS_ALIGN alAligned
    let bad := if 800 < e.natAbs then s.ring.bad + 1 else 0
    let t := s.steerTrim e
    let s : State := { t with ring := { t.ring with bad := bad } }
    if 4 ≤ bad then s.alignLost 0 e
    else if 4 < (s.ring.corrections.filter fun x => s.now < x + 1000).length then s.alignLost 1 e
    else s

/-- Note on which port a marker arrived: the ring is whole when it comes on both, broken after 16 on one only (R355). -/
def State.noteMarker (s : State) (port : RingPort) (f : LinkFrame) : State :=
  let r := if s.ring.marker = some f.seq then s.ring
    else { s.ring with prevMarker := s.ring.marker, marker := some f.seq }
  let r := match port with
    | .u => { r with markerU := some (f.seq, f.hops) }
    | .d => { r with markerD := some (f.seq, f.hops) }
  if r.markerU.map (·.1) = r.markerD.map (·.1) then ({ s with ring := { r with oneSided := 0 } }).wrB Fld.CSC_STATUS_BROKEN false
  else
    let n := r.oneSided + 1
    let s := { s with ring := { r with oneSided := n } }
    if 16 < n && !s.flag Fld.CSC_STATUS_BROKEN then (s.wrB Fld.CSC_STATUS_BROKEN true).raise evRingBroken 0xFF []
    else s

/-- Whether the copy of a marker that came on a port is left for the one that travels fewer hops (R361): the marker before it
came on the other port too, with fewer hops. -/
def State.betterCopy (s : State) (port : RingPort) (f : LinkFrame) : Bool :=
  let other := match port with
    | .u => s.ring.markerD
    | .d => s.ring.markerU
  !(otherPort port ∈ s.ring.portDown) && other.any fun x => some x.1 = s.ring.prevMarker && x.2 < f.hops

/-- ACC of a marker's payload with a delay added to it (R361). -/
def addAcc (d : Nat) (b : List Byte) : List Byte := beBytes 4 ((num b 0 4 + d) % 2 ^ 32) ++ b.drop 4

/-- The phase error e of a marker in 1/16 ns (R361): the own hold edge of the matching epoch less (arrival time - ACC - hop
delay), from the lag of the arrival behind that edge. -/
def markerPhase (lag : Int) (acc hop : Nat) : Int := acc + hop - lag

/-- The delay of the hop of a port in force. -/
def State.hopDelay (s : State) : RingPort → Nat
  | .u => s.rd Fld.CSC_HOP_HOP_U
  | .d => s.rd Fld.CSC_HOP_HOP_D

/-- The time of an epoch of the tick in progress. -/
def State.untilEpoch (s : State) (e : Nat) : State := s.until (s.tickStart + (e - s.core.tickEpoch) / 1024)

/-- A MARKER (R361, R366): forwarded with the hop's delay and the own residence time, free between the 120 ns and 180 ns of
R452, added to ACC; a member takes the master's tick and time from a SECOND marker, and aligns with the copy of fewer hops
unless it follows its twin. -/
def State.onMarker (s : State) (port : RingPort) (bs : List Byte) (epoch : Nat) (lag : Int) : State :=
  if !frameIs ftMarker bs then s
  else
    let hop := s.hopDelay port
    match s.ringRx port bs (addAcc (hop + (1920 + s.openWord % 961))) with
    | (none, s) => s
    | (some (f, first), s) =>
      let s := (s.drawn).noteMarker port f
      if !s.isMember || s.enum ≠ enRun || f.src ≠ 0 || f.payload.length ≠ 20 then s
      else
        let m := markerRead f.payload
        let s := if m.second && first then
            ({ s with ring := { s.ring with master := some (m.time, m.tsrc, 0), secondAt := s.now } }).wr Fld.CSC_MTICK_MTICK m.mtick
          else s
        if s.followsTwin || s.ring.usedMarker = some f.seq || s.betterCopy port f then s
        else
          let s := { s.untilEpoch epoch with ring := { s.ring with usedMarker := some f.seq } }
          s.alignStep m.second f.hops epoch (markerPhase lag m.acc hop)

/-- No marker for 16 ms: an ALIGNED follower enters HOLDOVER and keeps its alignment (R363, R377). -/
def State.holdover (s : State) : State :=
  if (s.isMember || s.followsTwin) && s.rd Fld.CSC_STATUS_ALIGN = alAligned then
    (s.until (s.ring.markerAt + 16)).wr Fld.CSC_STATUS_ALIGN alHoldover
  else s

/-- The master's time for R36 (R366): the TIME of the last SECOND marker advanced by whole ticks, in seconds; valid while
TIME is not 0 and the master's source is PTP or RTC. -/
def State.masterTime (s : State) : Option Nat :=
  s.ring.master.bind fun (t, src, n) => if t ≠ 0 && (src = 1 || src = 2) then some (t.toNat + n) else none

/-- 3 s without a SECOND marker: the master's time is no longer valid (R366). -/
def State.masterLost (s : State) : State :=
  if s.ring.master.isNone then s else { s.until (s.ring.secondAt + 3000) with ring := { s.ring with master := none } }

/-! ### Site contributions (R217, R367, R368) -/

/-- The last TOTAL taken of a position: of a contribution that waits for its fold, else the ledger's. -/
def State.lastTotal (s : State) (p : Nat) : Option (List (BitVec 64)) :=
  match ((s.led.site ++ s.led.lateSite).reverse.find? fun d => d.pos = p && d.total.isSome) with
  | some d => d.total
  | none => s.ledNow.siteTotals.lookup p

/-- The UID that TOTAL belongs to. -/
def State.lastUid (s : State) (p : Nat) : Option (BitVec 64) :=
  match ((s.led.site ++ s.led.lateSite).reverse.find? fun d => d.pos = p && d.uid.isSome) with
  | some d => d.uid
  | none => s.ledNow.siteUid.lookup p

/-- The payload of a CONTRIB (R367): MTICK, FLAGS, eleven deltas and eleven running totals. -/
structure ContribPayload where
  mtick : Nat
  flags : BitVec 8
  delta : List (BitVec 64)
  total : List (BitVec 64)
deriving DecidableEq, Repr

/-- Read it. -/
def contribRead (b : List Byte) : ContribPayload :=
  let eleven (off : Nat) : List (BitVec 64) := (List.range 11).map fun i => BitVec.ofNat 64 (num b (off + 8 * i) 8)
  { mtick := num b 0 4, flags := BitVec.ofNat 8 (num b 4 1), delta := eleven 8, total := eleven 96 }

/-- Take a member's contribution (R217, R367, R368): its DELTA for the fold of the tick, under the rate in force in it; the
TOTAL difference as a late one after a gap in MTICK; a late one under the rate in force now, counted in LED_SITE.LATE; a new
UID's TOTAL as baseline only. -/
def State.takeContrib (s : State) (p : Nat) (c : ContribPayload) : State :=
  let k := c.mtick
  let uid := s.ring.members.lookup p
  let prev := s.ring.lastContrib.lookup p
  let gap := match prev with
    | some n => decide (k ≠ n + 1)
    | none => (s.lastTotal p).isSome
  let late := gap || k ≤ s.ring.foldedTick
  let changed := match s.lastUid p with
    | some u => decide (some u ≠ uid)
    | none => false
  let delta := if changed then List.replicate 11 0
    else if gap then match s.lastTotal p with
      | some l => (c.total.zip l).map fun (a, b) => a - b
      | none => c.delta
    else c.delta
  let d : SiteDelta := {
    flags := c.flags
    pos := p, delta, uid, total := some c.total, rate := if late then s.ledNow.rate else s.led.lastSiteRate }
  let s := { s with ring := { s.ring with lastContrib := (p, k) :: s.ring.lastContrib.filter fun x => x.1 ≠ p } }
  if late && !changed then
    ({ s with led := { s.led with lateSite := s.led.lateSite ++ [d] } }).count Fld.LED_SITE_LATE
  else { s with led := { s.led with site := s.led.site ++ [d] } }

/-- A CONTRIB: the master takes the contribution of a PRESENT member and answers CONTRIB_ACK. -/
def State.onContrib (s : State) (f : LinkFrame) : State :=
  let p := f.src
  if !s.isMaster || !s.ringMine f || !(s.enum = enSearch || s.enum = enRun) ||
      s.rd Fld.CSC_STATUS_PRESENT / 2 ^ p % 2 = 0 then s
  else
    let s := s.memberHeard p
    let s := if s.led.frozen then s else s.takeContrib p (contribRead f.payload)
    s.ringOut p ftContribAck []

/-! ### The commands -/

def execDiscover (rx : RingIn) (s : State) : Host.Outcome State Fault Refusal :=
  .next (s.ringTake rx.port ftDiscover 0 rx.bytes fun f s => s.onDiscover f)
/-- JOIN: its frame is the header, the payload and the CRC one after another. -/
def execJoin (port : RingPort) (head body check : List Byte) (s : State) : Host.Outcome State Fault Refusal :=
  .next (s.ringTake port ftJoin 10 (head ++ body ++ check) fun f s => s.onJoin f)
def execAdmitFrame (rx : RingIn) (s : State) : Host.Outcome State Fault Refusal :=
  .next (s.ringTake rx.port ftAdmit 0 rx.bytes fun f s => s.onAdmit f)
def execMarker (rx : RingIn) (epoch : BitVec 64) (lag : Int) (s : State) :
    Host.Outcome State Fault Refusal := .next (s.onMarker rx.port rx.bytes epoch.toNat lag)
def execDelayReq (link : HopLink) (frame : List Byte) (s : State) : Host.Outcome State Fault Refusal :=
  .next (s.hopTake link ftDelayReq ftTwinDelayReq frame fun _ s => s.onDelayReq link)
/-- DELAY_RESP: its round trip runs from `sent` to `arrived` on a clock of 1/16 ns. -/
def execDelayResp (link : HopLink) (frame : List Byte) (sent arrived : BitVec 32) (s : State) :
    Host.Outcome State Fault Refusal :=
  .next (s.hopTake link ftDelayResp ftTwinDelayResp frame fun f s => s.onDelayResp link f (arrived - sent).toNat)
def execContrib (port : RingPort) (frame : List Byte) (s : State) : Host.Outcome State Fault Refusal :=
  .next (s.ringTake port ftContrib 184 frame fun f s => s.onContrib f)
/-- CONTRIB_ACK: the member's contribution has arrived; nothing else follows. -/
def execContribAck (rx : RingIn) (s : State) : Host.Outcome State Fault Refusal :=
  .next (s.ringTake rx.port ftContribAck 0 rx.bytes fun _ s => s)
def execDiscoverSend (s : State) : Host.Outcome State Fault Refusal := .next s.discoverDue
def execSearchEnd (s : State) : Host.Outcome State Fault Refusal := .next s.searchEnd
def execJoinRetry (s : State) : Host.Outcome State Fault Refusal := .next s.joinAgain
def execMemberAbsentTimeout (pos : Fin 8) (s : State) : Host.Outcome State Fault Refusal := .next (s.memberTimeout pos.val)
def execMarkerSend (s : State) : Host.Outcome State Fault Refusal := .next s.markerSend
def execHopDelayMeasure (s : State) : Host.Outcome State Fault Refusal := .next s.hopAsk
def execHoldover (s : State) : Host.Outcome State Fault Refusal := .next s.holdover
def execRingFaultTimeout (s : State) : Host.Outcome State Fault Refusal := .next s.faultEnd
def execMasterTimeTimeout (s : State) : Host.Outcome State Fault Refusal := .next s.masterLost
def execNirairPortDown (port : RingPort) (s : State) : Host.Outcome State Fault Refusal := .next (s.ringPortDown port)
def execNirairSymbolLock (port : RingPort) (s : State) : Host.Outcome State Fault Refusal :=
  .next { s with ring := { s.ring with portDown := s.ring.portDown.filter fun x => x ≠ port } }

end Sys2Proof.Machine
end

