-- ==== Sys2Proof/Machine/TwinLink.lean ====
section
/-!
DEFINITION. The twin (R369 to R377): HELLO and presence, the pairing tests, alignment to the primary, the comparison of
ticks and its windows, SOLE.
-/

namespace Sys2Proof.Machine

/-- Event codes of R379. -/
def evTwinPaired : Nat := 0xC8
def evTwinDetached : Nat := 0xC9
def evTwinDisagree : Nat := 0xCA
def evTwinRefused : Nat := 0xCB
def evTwinConflict : Nat := 0xCC
def evTwinSole : Nat := 0xCD

/-- The pairing state. -/
def State.twState (s : State) : Nat := s.rd Fld.TWN_STATUS_STATE

/-- Whether the twin link works here: the core runs and the device has a twin. -/
def State.twinOn (s : State) : Bool := s.core.running && s.flag Fld.TWN_CFG_ENABLE

/-- HELLO to the twin, once per tick (R370). -/
def State.helloSend (s : State) : State :=
  if !s.twinOn then s
  else s.twinSend ftHello (beBytes 8 s.fuses.uid.toNat ++ beBytes 1 (s.rd Fld.TWN_STATUS_ROLE) ++
    beBytes 1 (s.rd Fld.CSC_CFG_POSITION) ++ beBytes 2 (s.rd Fld.CSC_CFG_SITE_ID) ++ beBytes 1 s.twState)

/-- The device has become ready: it waits for its twin, and reads SINGLE until it is paired (R371, R375). DEDUCED from the
times of R378: a first HELLO leaves at once, before the first tick ends (notes/assumptions/149.md). -/
def State.twinReady (s : State) : State :=
  if s.twinOn then ((s.setTwin twWait).wrB Fld.SYS_STATUS_SINGLE true).helloSend else s

/-- Discard the window in progress (R375). -/
def Twin.clear (x : Twin) : Twin := { x with own := [], peer := [], sums := [], start := 0, matched := 0 }

/-- Pairing is complete (R371, R375, R376): PAIRED, SINGLE and SOLE clear, window sums and tick numbers start anew. -/
def State.twinPair (s : State) : State :=
  let s := (s.setTwin twPaired).count Fld.TWN_STATUS_PAIRINGS
  let s := (s.wrB Fld.TWN_STATUS_SOLE false).wrB Fld.SYS_STATUS_SINGLE false
  ({ s with twin := { s.twin.clear with pairedAt := s.core.ticks } }).raise evTwinPaired 0xFF (beBytes 8 (s.rd Fld.TWN_SEEN_UID_UID))

/-- A pairing ends and the device reads SINGLE (R372). -/
def State.twinUnpair (s : State) (v : Nat) : State :=
  ({ s.setTwin v with twin := s.twin.clear }).wrB Fld.SYS_STATUS_SINGLE true

/-- The pairing tests of R371 in their order, and what follows them: CONFLICT, REFUSED, or pairing, which is complete at
once for a primary. -/
def State.pairTests (s : State) (uid : BitVec 64) (role : Bool) (pos site : Nat) : State :=
  let st := s.twState
  let active := st = twPairing || st = twPaired
  if role = s.flag Fld.TWN_STATUS_ROLE then
    if st = twConflict then s else (s.twinUnpair twConflict).raise evTwinConflict 0xFF (beBytes 1 0)
  else if pos ≠ s.rd Fld.CSC_CFG_POSITION || site ≠ s.rd Fld.CSC_CFG_SITE_ID then
    if st = twConflict then s else (s.twinUnpair twConflict).raise evTwinConflict 0xFF (beBytes 1 1)
  else if uid.toNat ≠ s.rd Fld.TWN_PEER_UID_UID || uid = 0 then
    let t := if st = twRefused then s else s.twinUnpair twRefused
    if s.twin.refused then t
    else ({ t with twin := { t.twin with refused := true } }).raise evTwinRefused 0xFF (beBytes 8 uid.toNat)
  else if active then s
  else if s.flag Fld.TWN_STATUS_ROLE then (s.setTwin twPairing).twinPair
  else
    let s := s.setTwin twPairing
    (s.wr Fld.CSC_STATUS_ALIGN alNone).wrB Fld.SYS_TIME_EPOCH_ALIGNED false

/-- A frame of a type and payload length on the twin link (R354, R369): one whose CRC fails is dropped and counted. -/
def State.twinTake (s : State) (type len : Nat) (bs : List Byte) (g : List Byte → State → State) : State :=
  if !s.twinOn || !frameIs type bs then s
  else match linkRead twinMost bs with
    | none => s.count Fld.CSC_ERR_CRC
    | some f => if f.payload.length = len then g f.payload s else s

/-- A HELLO (R370, R371, R375): the twin is present; pairing starts when both devices are ready. -/
def State.onHello (s : State) (b : List Byte) : State :=
  let uid := num b 0 8
  let s := if s.flag Fld.TWN_STATUS_PRESENT then s else { s with twin := { s.twin with refused := false } }
  let s := { s with twin := { s.twin with helloAt := some s.now } }
  let s := (s.wrB Fld.TWN_STATUS_PRESENT true).wr Fld.TWN_SEEN_UID_UID uid
  if s.twState = twOff || num b 12 1 = twOff then s
  else s.pairTests (BitVec.ofNat 64 uid) (num b 8 1 = 1) (num b 9 1) (num b 10 2)

/-- The delay of the twin's hop in force (R369). -/
def State.twinHop (s : State) : Nat := meanHop s.twin.hops

/-- A twin MARKER: the secondary aligns to its primary as in R361 to R363, and pairing is complete once it is ALIGNED
(R371). -/
def State.onTwinMarker (s : State) (b : List Byte) (epoch : Nat) (lag : Int) : State :=
  if !s.followsTwin || !(s.twState = twPairing || s.twState = twPaired) then s
  else
    let m := markerRead b
    let s := if m.second && !s.flag Fld.CSC_CFG_ENABLE then s.wr Fld.CSC_MTICK_MTICK m.mtick else s
    let s := (s.untilEpoch epoch).alignStep m.second 1 epoch (markerPhase lag m.acc s.twinHop)
    if s.twState = twPairing && s.rd Fld.CSC_STATUS_ALIGN = alAligned then s.twinPair else s

/-- The 16 records of a DELTA payload (R373). -/
def deltaRead (b : List Byte) : List TwinBay :=
  (List.range 16).map fun i =>
    { imp := BitVec.ofNat 64 (num b (8 + 17 * i) 8), exp := BitVec.ofNat 64 (num b (16 + 17 * i) 8)
      flags := BitVec.ofNat 8 (num b (24 + 17 * i) 1) }

/-- A DELTA: the peer's record of a pair tick (R373); none is taken from a frozen twin (R376). -/
def State.onDelta (s : State) (b : List Byte) : State :=
  let k := num b 0 4
  if s.twState ≠ twPaired || s.flag Fld.TWN_STATUS_SOLE || k ≤ s.twin.start then s
  else ({ s with twin := { s.twin with peer := s.twin.peer ++ [(k, deltaRead b)] } }).matchTick k

/-- A SOLE: the twin has frozen (R376); a device that is itself FROZEN ignores it. -/
def State.onSole (s : State) : State :=
  if s.chip = chipFrozen then s
  else ((s.wrB Fld.TWN_STATUS_SOLE true).wrB Fld.SYS_STATUS_SINGLE true).raise evTwinSole 0xFF []

/-- The twin ceases to be present (R370, R375, R377); while its primary is absent a ring S master in RUN is ALIGNED (R365). -/
def State.presenceLost (s : State) : State :=
  if !s.flag Fld.TWN_STATUS_PRESENT then s
  else
    let s := (s.wrB Fld.TWN_STATUS_PRESENT false).wr Fld.TWN_SEEN_UID_UID 0
    let s := { s with twin := { s.twin with helloAt := none, refused := false } }
    let s := s.twinUnpair (if s.twState = twOff then twOff else twWait)
    let s := if s.isMaster && !s.flag Fld.TWN_STATUS_ROLE && s.enum = enRun then s.wr Fld.CSC_STATUS_ALIGN alAligned else s
    s.raise evTwinDetached 0xFF []

/-! ### Windows (R374) -/

/-- dev of a direction in ppm, to the nearest, when it is tested: own at least TWN_MIN and half the ticks usable. -/
def devOf (own peer minWh usable win : Nat) : Option Int :=
  if own = 0 || own < minWh * 1000 || 2 * usable < win then none
  else
    let n : Int := ((peer : Int) - own) * 1000000
    some ((2 * n + own) / (2 * own))

/-- Whether a tested direction exceeds the tolerance: |dev| above TOL. -/
def devBad (own peer tol : Nat) : Bool := tol * own < (((peer : Int) - own) * 1000000).natAbs

/-- A deviation in its register: signed, saturating at ±32 767, 0x8000 untested. -/
def devCode (d : Option Int) : Nat :=
  match d with
  | none => 0x8000
  | some x => ofSigned 16 (if 32767 < x then 32767 else if x < -32767 then -32767 else x)

/-- Test one bay at the end of a window. -/
def State.windowBay (s : State) (b : Nat) : State :=
  let x := storeGet (fun _ => ({} : TwinSums)) s.twin.sums b
  let win := s.rd Fld.TWN_CFG_WIN
  let tol := s.rd Fld.TWN_CFG_TOL
  let mn := s.rd Fld.TWN_MIN_MIN
  let di := devOf x.iOwn x.iPeer mn x.usable win
  let de := devOf x.eOwn x.ePeer mn x.usable win
  let badI := di.isSome && devBad x.iOwn x.iPeer tol
  let badE := de.isSome && devBad x.eOwn x.ePeer tol
  let s := (s.wr (Fld.TWN_DEV_IMPORT b) (devCode di)).wr (Fld.TWN_DEV_EXPORT b) (devCode de)
  if badI || badE then
    let s := s.wr Fld.TWN_DIS_NOW (s.rd Fld.TWN_DIS_NOW ||| 2 ^ b)
    let s := s.wr Fld.TWN_DIS_SEEN (s.rd Fld.TWN_DIS_SEEN ||| 2 ^ b)
    s.raise evTwinDisagree b (beBytes 1 ((if badI then 1 else 0) + (if badE then 2 else 0)) ++
      beBytes 2 (devCode di) ++ beBytes 2 (devCode de))
  else if di.isSome || de.isSome then s.wr Fld.TWN_DIS_NOW (s.rd Fld.TWN_DIS_NOW &&& (0xFFFF ^^^ 2 ^ b))
  else s

/-- The pair ticks both sides have sent for that wait for the window in progress. -/
def State.matchWaiting (s : State) : State := (s.twin.own.map (·.1)).foldl State.matchTick s

/-- A window of WIN pair ticks ends (R373, R374): the ticks that lack a side's DELTA count MISSED for every bay, each bay is
tested, and a new window begins. -/
def State.windowEnd (s : State) : State :=
  if s.twState ≠ twPaired || s.committedTick - s.twin.pairedAt < s.windowLast then s
  else
    let last := s.windowLast
    let s := s.count Fld.TWN_CMP_MISSED (16 * (last - s.twin.start - s.twin.matched))
    let s := (List.range 16).foldl State.windowBay s
    let s := s.wrap Fld.TWN_CMP_WINDOWS
    let s := s.wrB Fld.TWN_STATUS_DISAGREE (s.rd Fld.TWN_DIS_NOW ≠ 0)
    let later : Nat × List TwinBay → Bool := fun x => last < x.1
    ({ s with twin := { s.twin with
      own := s.twin.own.filter later
      peer := s.twin.peer.filter later
      sums := []
      start := last
      matched := 0 } }).matchWaiting

/-! ### The commands -/

/-- HELLO: its frame is the header, the UID, role and position, the site, the state and the CRC one after another. -/
def execHello (head uid place site status check : List Byte) (s : State) : Host.Outcome State Fault Refusal :=
  .next (s.twinTake ftHello 13 (head ++ uid ++ place ++ site ++ status ++ check) fun b s => s.onHello b)
def execTwinMarker (frame : List Byte) (epoch : BitVec 64) (lag : Int) (s : State) : Host.Outcome State Fault Refusal :=
  .next (s.twinTake ftTwinMarker 20 frame fun b s => s.onTwinMarker b epoch.toNat lag)
/-- DELTA: its frame is the header, the payload and the CRC one after another. -/
def execTwinDelta (head body check : List Byte) (s : State) : Host.Outcome State Fault Refusal :=
  .next (s.twinTake ftDelta 280 (head ++ body ++ check) fun b s => s.onDelta b)
def execSole (frame : List Byte) (s : State) : Host.Outcome State Fault Refusal :=
  .next (s.twinTake ftSole 0 frame fun _ s => s.onSole)
def execTwinPresenceLost (s : State) : Host.Outcome State Fault Refusal := .next s.presenceLost
def execTwinWindowEnd (s : State) : Host.Outcome State Fault Refusal := .next s.windowEnd

end Sys2Proof.Machine
end

