-- ==== Sys2Proof/Machine/Time.lean ====
section
/-!
DEFINITION. The sources of ledger time (R36) and the outage processing (R216, R235).
-/

namespace Sys2Proof.Machine

/-- The time source in force and its time in ms, at an instant `ago` ms before now whose PTP clock read `ptp` ns (R36). -/
def State.sourceAt (s : State) (ptp ago : Nat) : Nat × Option Nat :=
  if s.flag Fld.SYS_TIME_PTP_LOCKED then
    let u := s.ptpUtcMs ptp
    (2, some (u + s.leapMs u).toNat)
  else
    match if s.isMember then s.masterTime else none with
    | some t => (3, some (t * 1000))
    | none => if s.flag Fld.SYS_TIME_RTC_VALID then (1, some (s.rtcMs - ago)) else (0, none)

/-- The time source in force now. -/
def State.sourceNow (s : State) : Nat × Option Nat := s.sourceAt s.ptpNow 0

/-- A boundary with its source's time (step 2 of R193). -/
def State.fillTime (s : State) (b : Boundary) : Boundary :=
  let x := s.sourceAt b.ptp (s.now - b.at_)
  { b with src := x.1, srcMs := x.2 }

/-- The outage processing of a start whose ledger time is valid (R216, R235): the OUTAGE transactions for every boundary
from the last committed tick to the restart instant. -/
def State.outageProcessing (s : State) : State :=
  if !s.ledgerOk || s.core.warned then s
  else
    match s.led.outageFrom, s.sourceNow with
    | some a, (src, some ms) =>
      let n := ms / 1000
      let img := if s.led.synced then s.nextImage else timeUntaken s.nextImage
      if img.st.lastClosed ≠ 0 && n ≤ img.st.lastClosed then s
      else
        let r := if s.led.ranInvalid then n - (img.st.opsec - s.led.startOpsec) else n
        let bs := if a < r then s.outageBuilds ⟨s.led.demCfg, s.led.lpCfg, s.led.bpCfg⟩ img a r src else []
        if bs.isEmpty then { s with led := { s.led with outageFrom := none } }
        else
          let t := { s with led := { s.led with
            outageFrom := none, timeTaken := true, timeAt := s.now - (ms - r * 1000)
            queue := s.renumber (s.led.queue ++ txnsOf 0x03 .outage bs) } }
          (t.wrB Fld.STR_STATUS_OUTAGE_PROC true).raiseAll (buildEvents bs)
    | _, _ => s

def execOutageProcessing (s : State) : Host.Outcome State Fault Refusal := .next s.outageProcessing

end Sys2Proof.Machine
end

