-- ==== Sys2Proof/Machine/Recorder.lean ====
section
/-!
DEFINITION. The Quality Recorder and the reading of both logs (R241 to R258, R263, R264): records, the freeze, the clear,
the loads of the paths' buffers.
-/

namespace Sys2Proof.Machine

/-! ### Bytes of records and entries (R247, R248, R260) -/

/-- An event in a record (R248). -/
def eventBytes (e : Event) : List Byte :=
  beBytes 1 e.code ++ beBytes 1 e.source ++ beBytes 1 ((if e.provisional then 1 else 0) + (if e.locked then 2 else 0)) ++
  beBytes 1 (min e.payload.length 20) ++ beBytes 5 e.opsec ++ [0] ++ beBytes 2 e.msec ++ padTo 20 e.payload

/-- The 256 bytes of a record (R247). -/
def recordBytes (r : Record) : List Byte :=
  let b := beBytes 4 r.rseq.toNat ++ beBytes 1 r.type ++ beBytes 1 r.owner ++ beBytes 1 r.flags.toNat ++ beBytes 1 r.count ++
    beBytes 5 r.opsec ++ beBytes 3 0 ++ beBytes 4 r.pwrcyc ++ padTo 8 r.sub ++ beBytes 4 0 ++ padTo 220 r.body
  b ++ wordBytes (crc32 b)

/-! ### Sequence numbers (R247, R252) -/

/-- The RSEQ through which records are cleared, when the recorder has been cleared (R258). -/
def State.clearedThrough (s : State) : Option (BitVec 32) :=
  let st := s.led.com.st
  st.recCleared.map fun _ => st.recThrough

/-- Whether a record with a sequence number is held: in the ring and not cleared. -/
def State.recHeld (s : State) (r : Record) : Bool :=
  !seqAfter r.rseq s.rcd.newest && (s.rcd.newest - r.rseq).toNat < 2048 &&
  s.clearedThrough.elim true fun t => seqAfter r.rseq t

/-- The oldest record held. -/
def State.oldestRec (s : State) : Option (BitVec 32) :=
  ((s.str.recs.map (·.2)).filter s.recHeld).foldl (fun a r =>
    match a with
    | none => some r.rseq
    | some x => if seqAfter x r.rseq then some r.rseq else some x) none

/-- REC_NEWEST and REC_OLDEST follow the ring; with no record held the spec states no oldest RSEQ, so it is a free value. -/
def State.refreshRecs (s : State) : State :=
  let t := s.wr Fld.REC_NEWEST_RSEQ s.rcd.newest.toNat
  match s.oldestRec with
  | some x => t.wr Fld.REC_OLDEST_RSEQ x.toNat
  | none => (t.wr Fld.REC_OLDEST_RSEQ s.openWord).drawn

/-! ### Starting a record (R244, R248 to R251) -/

/-- A record as the recorder would write it now; its RSEQ follows the newest. -/
def State.mkRec (s : State) (type owner : Nat) (flags : BitVec 8) (count : Nat) (sub body : List Byte) : Record :=
  { rseq := s.rcd.newest + 1, type, owner, flags, count, opsec := s.opsec, pwrcyc := s.startCycles, sub, body }

/-- The SUPPRESSED records of the counts in force, 55 codes in each (R250). -/
def State.suppRecs (s : State) : List Record :=
  let one (l : List (Nat × Nat)) : Record :=
    s.mkRec 4 0xFF (if s.rcd.heldBack then 4 else 0) l.length (beBytes 5 (s.rcd.suppFirst.elim 0 (·.1)))
      (l.flatMap fun x => beBytes 1 x.1 ++ [0] ++ beBytes 2 x.2)
  let n := s.rcd.suppPending.length
  (List.range ((n + 54) / 55)).map fun i => one ((s.rcd.suppPending.drop (55 * i)).take 55)

/-- What the recorder writes next, in the order of R251, and the recorder's state once it has taken it. -/
def State.nextRec (s : State) : Option (Record × Recorder) :=
  let r := s.rcd
  let supp : Option (Record × Recorder) :=
    match s.suppRecs with
    | [] => none
    | x :: xs => some (x, { r with
        periodic := xs ++ r.periodic, suppPending := [], suppFirst := none, dueByTime := false, dueByEmpty := false
        heldBack := false })
  match r.clear with
  | some j => some (s.mkRec 5 0xFF (if j.held then 4 else 0) 0 (beBytes 4 j.through.toNat ++ beBytes 1 (if j.slots then 1 else 0)) [], r)
  | none =>
    match r.periodic with
    | x :: xs => some ({ x with rseq := r.newest + 1, opsec := s.opsec, pwrcyc := s.startCycles }, { r with periodic := xs })
    | [] =>
      if r.dueByTime then supp
      else match r.queue with
        | [] => if r.dueByEmpty then supp else none
        | q =>
          let es := q.take 6
          let rest := q.drop 6
          let fl : BitVec 8 := if es.any (·.held) then 4 else 0
          some (s.mkRec 1 0xFF fl es.length [] (es.flatMap eventBytes), { r with
            queue := rest, emptySince := r.emptySince || rest.isEmpty
            dueByEmpty := r.dueByEmpty || (rest.isEmpty && !r.suppPending.isEmpty) })

/-- The recorder starts its next ready record (R245, R251, R255): not before its scan, during a freeze, while dead, nor
after a power-fail warning. -/
def State.recStart (s : State) : State :=
  if !s.rcd.scanned || s.rcd.freezeStart.isSome || s.rcd.writing.isSome || s.recDead || s.rcd.closed then s
  else match s.nextRec with
    | none => s
    | some (x, r) =>
      let x := if s.rd Fld.REC_STATUS_MODE = 1 then { x with flags := x.flags ||| 1 } else x
      (s.setRcd { r with writing := some x }).wrB Fld.REC_STATUS_WRITING true

/-- The record being written is complete in every bank in service (R251); a CLEAR record ends the clear. -/
def State.recEnd (s : State) : State :=
  match s.rcd.writing with
  | none => s
  | some x =>
    let s := (s.setRcd { s.rcd with writing := none }).wrB Fld.REC_STATUS_WRITING false
    if s.recDead then s
    else
      let p := x.rseq.toNat % 2048
      let s := { s with str := s.str.each 3 fun c => { c with recs := atPos c.recs p x } }
      let s := s.setRcd { s.rcd with newest := x.rseq, clear := if x.type = 5 then none else s.rcd.clear }
      s.refreshRecs.irq Fld.SYS_IRQ_STAT_RECORD

/-- A record write ends, banks failing in it first (R237, R251). -/
def State.recDone (s : State) (fails : List BankFail) : State := (s.bankFails fails).recEnd

/-- 60 s after the first suppression not reported, a SUPPRESSED record is due (R244). -/
def State.suppTimeout (s : State) : State :=
  match s.rcd.suppFirst with
  | none => s
  | some x => (s.until (x.2 + 60000)).setRcd { s.rcd with dueByTime := true }

/-! ### The start scan (R245, R252) -/

/-- The scan completes: the newest record, the clear that power loss cut short, POWER_UP ahead of every event, then what the
start itself raises (R252, R258, R335, R345, R409). -/
def State.scanDone (s : State) : State :=
  if s.rcd.scanned || !s.core.running || !s.led.recovered then s
  else
    -- a record that passes in one copy only is rewritten into the other
    let rs := s.str.recs
    let s := { s with str := s.str.each 3 fun c => { c with recs := rs } }
    let ring := s.str.recs.foldl (fun a x => if seqAfter x.2.rseq a then x.2.rseq else a) ((s.str.recs.head?.elim 0 (·.2.rseq)))
    let newest := s.clearedThrough.elim ring fun t => if seqAfter t ring then t else ring
    let due : Option ClearJob := match s.led.com.st.recCleared with
      | some slots => if seqAfter newest s.led.com.st.recThrough then none
        else some { through := s.led.com.st.recThrough, slots }
      | none => none
    let s := s.setRcd { s.rcd with scanned := true, newest, clear := due, periodStart := s.opsec }
    let s := (s.wrB Fld.REC_STATUS_READY true).refreshRecs
    let s := s.raiseFront evPowerUp 0xFF
      (beBytes 4 s.startCycles ++ beBytes 1 (s.rd Fld.STR_RECOVERY_RESULT) ++ beBytes 1 (s.rd Fld.STR_RECOVERY_DISCARDED))
    s.sameCycle fun s =>
    let s := s.raise 0xD3 0xFF (beBytes 1 (s.rd Fld.CFG_RESET_CAUSE))
    let s := if s.bk.bkpLostDue && s.flag Fld.BK_STATUS_BKP_LOST then
        ({ s with bk := { s.bk with bkpLostDue := false } }).raise evBkpLost 0xFF []
      else s
    s.batAlarms

/-! ### Periods (R249) -/

/-- The default of an extreme: none yet. -/
def extNone (_ : Nat) : Word × Nat := (0, 0xFFFFFFFF)

/-- The five records of a bay for a period: four histograms and the extremes (R249). -/
def State.periodRecs (s : State) (bay : Nat) (q : QualLive) : List Record :=
  let fl : BitVec 8 := if s.rcd.shortPeriod then 2 else 0
  let start := beBytes 5 s.rcd.periodStart
  let hist (k : Nat) : List Byte := (List.range 64).flatMap fun b => beBytes 1 (min (storeGet zeroAt q.hist (k * 64 + b)) 255)
  let set (n : Nat) : Record :=
    let ks := if n = 3 then [9, 10] else [3 * n, 3 * n + 1, 3 * n + 2]
    s.mkRec 2 bay fl ks.length (start ++ beBytes 1 n ++ beBytes 1 (min q.intervals 144) ++ [0]) (ks.flatMap hist)
  let ext := s.mkRec 3 bay fl 11 start ((List.range 22).flatMap fun i =>
    let x := storeGet extNone q.ext i
    wordBytes x.1 ++ beBytes 4 x.2)
  [set 0, set 1, set 2, set 3, ext]

/-- The operating seconds of a period: REC_CFG.PERIOD. -/
def State.recPeriod (s : State) : Nat := [3600, 14400, 43200, 86400].getD (s.rd Fld.REC_CFG_PERIOD) 86400

/-- Operating seconds reach a multiple of PERIOD: the records of every bay that received a value are ready, and the live
values restart. -/
def State.periodEnd (s : State) : State :=
  if s.opsec % s.recPeriod ≠ 0 || s.opsec = s.rcd.periodStart then s
  else
    let rs := (List.range 16).flatMap fun n =>
      match s.rcd.bays.lookup n with
      | some q => if q.any then s.periodRecs n q else []
      | none => []
    s.setRcd { s.rcd with periodic := s.rcd.periodic ++ rs, bays := [], periodStart := s.opsec, shortPeriod := false }

/-! ### The freeze (R254, R255) -/

/-- Set REC_RD.RESULT. -/
def State.rdResult (s : State) (v : Nat) : State := s.wr Fld.REC_RD_RESULT v

/-- FREEZE = 1. -/
def State.recFreeze (s : State) : State :=
  if !s.flag Fld.REC_CFG_READ_MODE then s.rdResult 2
  else if s.rcd.freezeStart.isSome then s.rdResult 3
  else if s.rcd.freezeEnd.any (fun t => s.now < t + 1000) || !s.rcd.emptySince then s.rdResult 4
  else if s.recDead then s.rdResult 5
  else ((s.setRcd { s.rcd with freezeStart := some s.now }).wrB Fld.REC_STATUS_FROZEN true).rdResult 1

/-- RELEASE = 1. -/
def State.recRelease (s : State) : State :=
  if s.rcd.freezeStart.isSome then s.endFreeze.rdResult 1
  else s.rdResult (if s.flag Fld.REC_CFG_READ_MODE then 6 else 2)

/-- A write of REC_RD: FREEZE, then RELEASE. -/
def State.wRecRd (s : State) (_p : Path) (v : Word) : WStatus × State :=
  let s := if v.msb then s.recFreeze else s
  (.ok, if v.getLsbD 30 then s.recRelease else s)

/-- A freeze ends by itself 10 s after it began. -/
def State.freezeTimeout (s : State) : State :=
  match s.rcd.freezeStart with
  | none => s
  | some t => (s.until (t + 10000)).endFreeze

/-! ### The clear (R258) -/

/-- The last-resort slots are freed and read 0 (R347). -/
def State.freeSlots (s : State) : State :=
  let t := (List.range 32).foldl (fun t i => t.setWord (Adr.BK_LR (i / 8) (i % 8)) 0) s
  (t.wr Fld.BK_LR_STAT_OCCUPIED 0).wr Fld.BK_LR_STAT_CRC_OK 0

/-- An accepted clear: a record being written completes and the freeze ends; REC_CLEAR commits with THROUGH; the live
values restart, the slots are freed, and the CLEAR record is due. -/
def State.recClear (s : State) (a : Armed) (slots : Bool) : State :=
  let s := s.recEnd.endFreeze
  let thr := s.rcd.newest
  match s.command 0x06 fun b =>
      (b.audit 0x0B a.roles a.keys (beBytes 4 thr.toNat ++ beBytes 1 (if slots then 1 else 0))).st fun st =>
        { st with recThrough := thr, recCleared := some slots } with
  | (false, t) => t.wr Fld.REC_CMD_RESULT 6
  | (true, t) =>
    let t := t.setRcd { t.rcd with
      clear := some { through := thr, slots }, bays := [], periodStart := t.opsec, shortPeriod := true }
    let t := if slots then t.freeSlots else t
    t.refreshRecs.wr Fld.REC_CMD_RESULT 1

/-- A write of REC_CMD (R258, R275 to R277). -/
def State.wRecCmd (s : State) (p : Path) (v : Word) : WStatus × State :=
  let cmd := bitsOf v.toNat 28 4
  if cmd = 1 || cmd = 2 then
    let t := s.disarm p 0x0050
    match s.gateDual p 0x0050 [] with
    | .noSession => (.refused, t)
    | .locked => (.refused, t.wr Fld.REC_CMD_RESULT 3)
    | .authorisation => (.refused, t.wr Fld.REC_CMD_RESULT 2)
    | .pass a =>
      (.ok, if s.recDead || areaDead s.str 4 then t.wr Fld.REC_CMD_RESULT 4
        else if s.rcd.clear.isSome then t.wr Fld.REC_CMD_RESULT 5
        else t.recClear a (cmd = 2))
  else (if (s.session p).isSome then .ok else .refused, s)

/-! ### Loads and buffers (R253, R259, R264) -/

/-- Codes of the STATUS of a buffer. -/
def bufLoading : Nat := 0
def bufOk : Nat := 1
def bufGone : Nat := 2
def bufBad : Nat := 3

/-- A write of REC_SEL: a load into the path's buffer starts. -/
def State.wRecSel (s : State) (p : Path) (v : Word) : WStatus × State :=
  let t := (s.wr Fld.REC_SEL_RSEQ v.toNat).wrP p Fld.REC_RD_STATUS bufLoading
  (.ok, t.setPath p { t.path p with recLoad := some v, recBuf := [], recIdx := 0 })

/-- A write of AUD_SEL. -/
def State.wAudSel (s : State) (p : Path) (v : Word) : WStatus × State :=
  let t := (s.wr Fld.AUD_SEL_ASEQ v.toNat).wrP p Fld.AUD_STATUS_STATUS bufLoading
  (.ok, t.setPath p { t.path p with audLoad := some v, audBuf := [], audIdx := 0 })

/-- What a load of a record finds: its status code and its words. -/
def State.recFind (s : State) (q : BitVec 32) : Nat × List Word :=
  match s.str.recs.lookup (q.toNat % 2048) with
  | some r => if r.rseq = q && s.recHeld r then
      (if s.recDead then (bufBad, []) else (bufOk, bytesWords (recordBytes r)))
    else (bufGone, List.replicate 64 0)
  | none => (bufGone, List.replicate 64 0)

/-- The Audit Trail entry with a sequence number: one whose copy is pending, else that of the ring (R228, R259). -/
def State.audFind (s : State) (q : BitVec 32) : Option AudEntry :=
  let pend := s.led.copies.findSome? fun c => match c.entry with
    | .audit _ e => if e.aseq = q then some e else none
    | _ => none
  match pend with
  | some e => some e
  | none => (s.str.aud.lookup (q.toNat % 8192)).bind fun e => if e.aseq = q then some e else none

/-- A load completes, banks failing in it first. No request of Strata is served before recovery is done (R223). -/
def State.loadDone (s : State) (p : Path) (log : LogKind) (fails : List BankFail) : State :=
  let s := s.bankFails fails
  if !s.led.recovered then s
  else match log with
  | .recorder =>
    match (s.path p).recLoad with
    | none => s
    | some q =>
      let x := s.recFind q
      let t := s.wrP p Fld.REC_RD_STATUS x.1
      t.setPath p { t.path p with recLoad := none, recBuf := x.2, recIdx := 0 }
  | .audit =>
    match (s.path p).audLoad with
    | none => s
    | some q =>
      let x : Nat × List Word := if areaDead s.str 4 then (bufGone, List.replicate 16 0)
        else match s.audFind q with
          | some e => (bufOk, bytesWords (audEntryBytes e))
          | none => (bufGone, List.replicate 16 0)
      let t := s.wrP p Fld.AUD_STATUS_STATUS x.1
      t.setPath p { t.path p with audLoad := none, audBuf := x.2, audIdx := 0 }

/-- The word a buffer gives: of a loaded buffer its own; of one not loaded before, the reset value; while a load runs, or
where the record failed its CRC, the spec states none, so the word is free. -/
def State.bufWord (s : State) (buf : List Word) (i : Nat) (status : Nat) (loading : Bool) : Word × State :=
  match buf[i]? with
  | some w => (w, s)
  | none => if loading || status = bufBad then (BitVec.ofNat 32 s.openWord, s.drawn) else (0, s)

/-- A read of REC_DATA: the next word; the index returns to 0 after word 63. -/
def State.recDataRead (s : State) (p : Path) : Word × State :=
  let x := s.path p
  let y := s.bufWord x.recBuf x.recIdx (s.rdP p Fld.REC_RD_STATUS) x.recLoad.isSome
  (y.1, y.2.setPath p { x with recIdx := (x.recIdx + 1) % 64 })

/-- A read of AUD_DATA; with both banks failed it reads as GONE (R264). -/
def State.audDataRead (s : State) (p : Path) : Word × State :=
  let x := s.path p
  let y := if areaDead s.str 4 then (0, s.wrP p Fld.AUD_STATUS_STATUS bufGone)
    else s.bufWord x.audBuf x.audIdx (s.rdP p Fld.AUD_STATUS_STATUS) x.audLoad.isSome
  (y.1, y.2.setPath p { y.2.path p with audIdx := (x.audIdx + 1) % 16 })

/-- A refill interval of a bucket elapses, REFILL × 10 ms after the one before or after the core reset: it gains one token
(R241). -/
def State.refill (s : State) (code : Nat) : State :=
  let due := (s.rcd.refills.lookup code).getD s.resetAt + 10 * s.rd (Fld.REC_BUCKET_REFILL code)
  (s.until due).setRcd { s.rcd with
    taken := storeSet zeroAt s.rcd.taken code (storeGet zeroAt s.rcd.taken code - 1)
    refills := (code, due) :: s.rcd.refills.filter fun (x : Nat × Nat) => x.1 ≠ code }

/-! ### The commands -/

def execBucketRefill (code : BitVec 8) (s : State) : Host.Outcome State Fault Refusal := .next (s.refill code.toNat)
def execRecordWriteStart (s : State) : Host.Outcome State Fault Refusal := .next s.recStart
def execRecordWriteDone (fails : List BankFail) (s : State) : Host.Outcome State Fault Refusal := .next (s.recDone fails)
def execSuppressedTimeout (s : State) : Host.Outcome State Fault Refusal := .next s.suppTimeout
def execRecorderPeriodEnd (s : State) : Host.Outcome State Fault Refusal := .next s.periodEnd
def execRecorderScanDone (s : State) : Host.Outcome State Fault Refusal := .next s.scanDone
def execRecSelLoad (p : Path) (rseq : Word) (s : State) : Host.Outcome State Fault Refusal :=
  .next (s.host fun s => s.wRecSel p rseq)
def execRecLoadDone (p : Path) (log : LogKind) (fails : List BankFail) (s : State) : Host.Outcome State Fault Refusal :=
  .next (s.loadDone p log fails)
def execRecDataRead (p : Path) (s : State) : Host.Outcome State Fault Refusal := .next (s.hostRead fun s => s.recDataRead p)
def execFreeze (p : Path) (s : State) : Host.Outcome State Fault Refusal := .next (s.host fun s => s.wRecRd p 0x80000000)
def execRelease (p : Path) (s : State) : Host.Outcome State Fault Refusal := .next (s.host fun s => s.wRecRd p 0x40000000)
def execFreezeTimeout (s : State) : Host.Outcome State Fault Refusal := .next s.freezeTimeout
def execClear (p : Path) (s : State) : Host.Outcome State Fault Refusal := .next (s.host fun s => s.wRecCmd p 0x10000000)
def execClearSlots (p : Path) (s : State) : Host.Outcome State Fault Refusal :=
  .next (s.host fun s => s.wRecCmd p 0x20000000)
def execAudSelLoad (p : Path) (aseq : Word) (s : State) : Host.Outcome State Fault Refusal :=
  .next (s.host fun s => s.wAudSel p aseq)
def execAudDataRead (p : Path) (s : State) : Host.Outcome State Fault Refusal := .next (s.hostRead fun s => s.audDataRead p)

end Sys2Proof.Machine
end

