-- ==== Sys2Proof/Machine/Reals.lean ====
section
/-!
DEFINITION. Numbers of the metrology chapters: rounding, IEEE 754 binary32 values (R16), square roots, powers, exponentials
and angles to far more bits than any register shows (notes/assumptions/16.md), complex numbers as pairs, small sums, the
filters of R55 and R102.
-/

namespace Sys2Proof.Machine

/-- Rounding to nearest; a tie goes up (DESIGN CHOICE, notes/assumptions/21.md). -/
def nearest (q : Real) : Int := (q + 1 / 2).floor

/-! ### binary32 -/

/-- 2 to an integer power. -/
def pow2 (e : Int) : Real := if 0 ≤ e then (2 ^ e.toNat : Nat) else 1 / ((2 ^ (-e).toNat : Nat) : Real)

/-- The number a binary32 word codes; infinities and NaN have none. -/
def b32Value (w : Word) : Option Real :=
  let e := bitsOf w.toNat 23 8
  let m := bitsOf w.toNat 0 23
  let sgn : Real := if w.msb then -1 else 1
  if e = 255 then none
  else if e = 0 then some (sgn * m * pow2 (-149))
  else some (sgn * (m + 2 ^ 23 : Nat) * pow2 ((e : Int) - 150))

/-- The number a word of an image is taken as. -/
def b32 (w : Word) : Real := (b32Value w).getD (Config.specialB32 w)

/-- The exponent of the leading bit of a positive number. -/
def leadingExp (q : Real) : Int :=
  let e : Int := (Nat.log2 q.num.natAbs : Int) - (Nat.log2 q.den : Int)
  if pow2 e ≤ q then e else e - 1

/-- The binary32 word of a number that binary32 holds exactly. -/
def b32Exact (q : Real) : Option Word :=
  if q = 0 then some 0
  else
    let a := abs q
    let sgn : Nat := if q < 0 then 2 ^ 31 else 0
    let e := leadingExp a
    if 127 < e then none
    else if -126 ≤ e then
      let m := a * pow2 (23 - e)
      if m.den = 1 then some (BitVec.ofNat 32 (sgn + (e + 127).toNat * 2 ^ 23 + (m.num.natAbs - 2 ^ 23))) else none
    else
      let m := a * pow2 149
      if m.den = 1 then some (BitVec.ofNat 32 (sgn + m.num.natAbs)) else none

/-- The largest positive binary32 word whose value does not exceed a positive number. -/
def b32Low (a : Real) : Nat :=
  let e := leadingExp a
  if 127 < e then 0x7F7FFFFF
  else if -126 ≤ e then (e + 127).toNat * 2 ^ 23 + ((a * pow2 (23 - e)).floor.toNat - 2 ^ 23)
  else (a * pow2 149).floor.toNat

/-- The binary32 word stored for a number: the number itself where binary32 holds it, else one of its two neighbours, the
spec naming no rounding (R16; notes/assumptions/16.md). -/
def toB32 (q : Real) : Word :=
  (b32Exact q).getD (BitVec.ofNat 32 ((if q < 0 then 2 ^ 31 else 0) + b32Low (abs q) + (if Config.roundUp q then 1 else 0)))

/-! ### Roots, powers, exponentials -/

/-- A number cut to 128 significant bits. -/
def trim (q : Real) : Real :=
  if q = 0 then 0 else
    let k := 128 - leadingExp (abs q)
    (nearest (q * pow2 k) : Real) * pow2 (-k)

/-- Newton's steps to the integer square root, from above. -/
def isqrtFrom (n : Nat) : (fuel : Nat) → Nat → Nat
  | 0, x => x
  | fuel + 1, x =>
    let y := (x + n / x) / 2
    if y < x then isqrtFrom n fuel y else x

/-- The integer square root. -/
def isqrt (n : Nat) : Nat := if n = 0 then 0 else isqrtFrom n 64 (2 ^ (Nat.log2 n / 2 + 1))

/-- The square root: exact for a square, else to 96 bits; of a negative number, which no equation takes one of, it is 0. -/
def sqrtR (q : Real) : Real :=
  if q ≤ 0 then 0
  else
    let a := isqrt q.num.toNat
    let b := isqrt q.den
    if a * a = q.num.toNat && b * b = q.den then (a : Real) / (b : Real)
    else
      let k : Int := 96 - leadingExp q / 2
      (isqrt (q * pow2 (2 * k)).floor.toNat : Real) * pow2 (-k)

/-- Fixed-point numbers with 160 fraction bits, for the series below. -/
def fxOne : Int := 2 ^ 160
def toFx (q : Real) : Int := (q * (2 ^ 160 : Nat)).floor
def ofFx (a : Int) : Real := (a : Real) / ((2 ^ 160 : Nat) : Real)
def fxMul (a b : Int) : Int := a * b / fxOne

/-- Σ of a series: `n` terms, each from the one before it by `next`, which is given its number. -/
def fxSeries (first : Int) (next : Nat → Int → Int) (n : Nat) : Int :=
  ((List.range n).foldl (fun (acc : Int × Int) i => let t := next i acc.2; (acc.1 + t, t)) (first, first)).1

/-- π and the natural logarithm of 2. -/
def piR : Real := 314159265358979323846264338327950288419716939937510582097494459 / 10 ^ 62
def ln2 : Real := 693147180559945309417232121458176568075500134360255254120680009 / 10 ^ 63

/-- The exponential: 2^k·exp(r) with |r| at most ln 2 / 2. -/
def expR (x : Real) : Real :=
  let k := nearest (x / ln2)
  let r := toFx (x - (k : Real) * ln2)
  if x = 0 then 1 else trim (ofFx (fxSeries fxOne (fun i t => fxMul t r / ((i : Int) + 1)) 36) * pow2 k)

/-- The natural logarithm of a positive number. -/
def lnR (x : Real) : Real :=
  let e := leadingExp x
  let m := x * pow2 (-e)
  let z := toFx ((m - 1) / (m + 1))
  let zz := fxMul z z
  let odd := (List.range 50).foldl (fun (acc : Int × Int) i => (acc.1 + acc.2 / (2 * (i : Int) + 1), fxMul acc.2 zz)) (0, z)
  2 * ofFx odd.1 + (e : Real) * ln2

/-- An integer power. -/
def ipow (x : Real) (n : Int) : Real := if 0 ≤ n then x ^ n.toNat else 1 / x ^ (-n).toNat

/-- A power: exact for small integers, else exp(y·ln x). Of 0 it is 0; of a negative number a value the spec leaves open. -/
def rpow (x y : Real) : Real :=
  if x = 0 then 0
  else if y.den = 1 && y.num.natAbs ≤ 64 then ipow x y.num
  else if x < 0 then Config.oddPower x y
  else expR (trim (y * lnR x))

/-! ### Angles, in turns -/

/-- The cosine and sine of a small angle in radians. -/
def cosSmall (x : Real) : Real :=
  let t := toFx x
  let tt := fxMul t t
  ofFx (fxSeries fxOne (fun i y => -(fxMul y tt) / ((2 * (i : Int) + 1) * (2 * (i : Int) + 2))) 22)
def sinSmall (x : Real) : Real :=
  let t := toFx x
  let tt := fxMul t t
  ofFx (fxSeries t (fun i y => -(fxMul y tt) / ((2 * (i : Int) + 2) * (2 * (i : Int) + 3))) 22)

/-- The cosine of an angle counted in turns; exact at the quarters. -/
def cosTurn (x : Real) : Real :=
  let a := abs (x - (nearest x : Real))
  if a ≤ 1 / 8 then cosSmall (2 * piR * a)
  else if a ≤ 3 / 8 then -sinSmall (2 * piR * (a - 1 / 4))
  else -cosSmall (2 * piR * (1 / 2 - a))
def sinTurn (x : Real) : Real := cosTurn (x - 1 / 4)

/-- The arc tangent of a number from 0 to 1, in turns: three halvings and a series. -/
def atanTurn (t : Real) : Real :=
  let half (t : Real) : Real := trim (t / (1 + sqrtR (1 + t * t)))
  let z := toFx (half (half (half t)))
  let zz := fxMul z z
  let odd := (List.range 30).foldl (fun (acc : Int × Int) i => (acc.1 + acc.2 / (2 * (i : Int) + 1), -fxMul acc.2 zz)) (0, z)
  8 * ofFx odd.1 / (2 * piR)

/-- The angle of x + jy in turns, in (−1/2, 1/2]; that of 0 is a value the spec leaves open. -/
def turnOf (x y : Real) : Real :=
  if x = 0 && y = 0 then max (-499 / 1000) (min (1 / 2) Config.zeroAngle)
  else
    let ax := abs x
    let ay := abs y
    let base : Real := if ay = 0 then 0 else if ax = ay then 1 / 8 else if ay < ax then atanTurn (trim (ay / ax))
      else 1 / 4 - atanTurn (trim (ax / ay))
    let base := if x < 0 then 1 / 2 - base else base
    if y < 0 then -base else base

/-! ### Complex numbers -/

/-- A complex number. -/
abbrev Cx := Real × Real

def cxAdd (a b : Cx) : Cx := (a.1 + b.1, a.2 + b.2)
def cxSub (a b : Cx) : Cx := (a.1 - b.1, a.2 - b.2)
def cxMul (a b : Cx) : Cx := (a.1 * b.1 - a.2 * b.2, a.1 * b.2 + a.2 * b.1)
def cxScale (k : Real) (a : Cx) : Cx := (k * a.1, k * a.2)
def cxConj (a : Cx) : Cx := (a.1, -a.2)

/-- The square of the magnitude. -/
def cxSq (a : Cx) : Real := a.1 * a.1 + a.2 * a.2

/-- The magnitude. -/
def cxAbs (a : Cx) : Real := sqrtR (cxSq a)

/-- exp(j·2π·x), x in turns. -/
def cxTurn (x : Real) : Cx := (cosTurn x, sinTurn x)

/-- The angle of a complex number in turns, in (−1/2, 1/2]. -/
def cxAngle (a : Cx) : Real := turnOf a.1 a.2

/-- A number of turns wrapped to (−1/2, 1/2]. -/
def wrapTurn (x : Real) : Real := x - ((x - 1 / 2).ceil : Int)

/-- The operator a = exp(j·2π/3) and its square. -/
def opA : Cx := (-1 / 2, sqrtR 3 / 2)
def opA2 : Cx := cxConj opA

/-- The coefficient of bin `k` of a transform over `n` samples: Σ x·exp(−j·2π·k·i/n). -/
def dft (xs : List Real) (k n : Nat) : Cx :=
  xs.zipIdx.foldl (fun acc (x, i) => cxAdd acc (cxScale x (cxTurn (-((k * i : Nat) : Real) / n)))) (0, 0)

/-- Sum of the products of two lists. -/
def dot (xs ys : List Real) : Real := ((xs.zip ys).map fun p => p.1 * p.2).sum

/-! ### The filters of R55 and R102

The spec gives their responses, not their taps: the taps are free among those whose response keeps to the figures, tested
every 500 Hz. Were the free ones to miss them, a windowed sinc takes their place, which keeps to them
(notes/assumptions/38.md). -/

/-- A cosine-sum window of five terms, over −1/2 to 1/2. -/
def window5 (x : Real) : Real :=
  if 1 / 2 < abs x then 0 else
    3232153788877343 / 10 ^ 16 + 4714921439576260 / 10 ^ 16 * cosTurn x + 1755341299601972 / 10 ^ 16 * cosTurn (2 * x)
      + 2849699010614994 / 10 ^ 17 * cosTurn (3 * x) + 1261357088292677 / 10 ^ 18 * cosTurn (4 * x)

/-- sin(2π·f·x)/(π·x). -/
def sincAt (f x : Real) : Real := if x = 0 then 2 * f else trim (sinTurn (f * x) / (piR * x))

/-- The taps 0 to 608 of a symmetric filter of 1217 taps with gain 1 at 0 Hz, from those below the centre. -/
def firHalf (side : Nat → Real) : List Real :=
  let low := (List.range 608).map side
  low ++ [1 - 2 * low.sum]

/-- The gain of a symmetric filter at a frequency in Hz, of conversions at 1.024 MHz. -/
def firGain (half : List Real) (f : Nat) : Real :=
  half.getD 608 0 + 2 * ((half.take 608).zipIdx.map fun (x : Real × Nat) =>
    x.1 * cosTurn (((f * (608 - x.2) : Nat) : Real) / 1024000)).sum

/-- The response of R55: pass band, ripple, stop band and attenuation of WIDE or NARROW, every 500 Hz. -/
def firConforms (narrow : Bool) (half : List Real) : Bool :=
  let pass := if narrow then 10 else 20
  let stop := if narrow then 32 else 44
  let ripple : Real := if narrow then 12 / 1000000 else 23 / 1000000
  let floor : Real := if narrow then 3162 / 10 ^ 9 else 1 / 10 ^ 5
  ((List.range (pass + 1)).all fun k => decide (abs (firGain half (500 * k) - 1) ≤ ripple)) &&
    ((List.range (1025 - stop)).all fun k => decide (abs (firGain half (500 * (stop + k))) ≤ floor))

/-- The windowed sinc of R55's span. -/
def firSinc (narrow : Bool) : List Real :=
  let f : Real := if narrow then 105 / 10240 else 16 / 1024
  let raw := (List.range 608).map fun i =>
    let x : Real := ((608 - i : Nat) : Real)
    trim (sincAt f x * window5 (x / 1217))
  firHalf fun i => trim (raw.getD i 0 / (2 * raw.sum + 2 * f))

/-- The taps 0 to 608 in use. -/
def firTaps (narrow : Bool) : List Real :=
  let free := firHalf (Config.firTap narrow)
  if firConforms narrow free then free else firSinc narrow

/-- The interpolator's response at a frequency in Hz of 32 kS/s, for a branch (R102). -/
def interpGain (taps : Nat → Real) (branch f : Nat) : Cx :=
  (List.range 32).foldl (fun acc m =>
    cxAdd acc (cxScale (taps m) (cxTurn (((f : Nat) : Real) / 32000 * ((m : Real) - 15 - (branch : Real) / 1024))))) (0, 0)

/-- The ripple of R102: ±5 ppm up to 5 kHz, ±50 ppm up to 10 kHz, every 500 Hz, in every branch. -/
def interpConforms (taps : Nat → Nat → Real) : Bool :=
  (List.range 1025).all fun j => (List.range 21).all fun k =>
    let lim : Real := if k ≤ 10 then 5 / 1000000 else 50 / 1000000
    decide (cxSq (cxSub (interpGain (taps j) j (500 * k)) (1, 0)) ≤ lim * lim)

/-- A windowed sinc as interpolator. -/
def interpSinc (branch tap : Nat) : Real :=
  let x : Real := (tap : Real) - 15 - (branch : Real) / 1024
  trim (sincAt (1 / 2) x * window5 (x / 33))

/-- The taps of the interpolator in use. -/
def interpTap (branch tap : Nat) : Real :=
  if interpConforms Config.interpTap then Config.interpTap branch tap else interpSinc branch tap

end Sys2Proof.Machine
end

