-- ==== Sys2Proof/Machine/Lanes.lean ====
section
/-!
DEFINITION. The acquisition lanes (R47 to R72): dither and code correction, the conversion checks, isolation of slices,
decimation, the merge, tags and lane states, lane restart, and the min-max trackers.
-/

namespace Sys2Proof.Machine

/-! ### Lanes and their registers (R47, R48) -/

/-- States of AQ_LANE_STAT.STATE. -/
def laneOff : Nat := 0
def laneStarting : Nat := 1
def laneRunning : Nat := 2
def laneSingle : Nat := 3
def laneOut : Nat := 4

/-- The state of a lane. -/
def State.laneState (s : State) (n : Nat) : Nat := s.rd (Fld.AQ_LANE_STAT_STATE n)

/-- Whether a lane is present on the part (R72). -/
def State.lanePresent (s : State) (n : Nat) : Bool := n < 76 && !(s.fuses.kb9608 && 32 ≤ n && n < 64)

/-- The power domain of a lane (R66). -/
def laneDomain (n : Nat) : Nat := if n < 64 then n / 16 else 4

/-- The block of a lane in SYS_ESC_LAST: CB0 to CB15, VB0 to VB3. -/
def laneBlock (n : Nat) : Nat := if n < 64 then n / 4 else 16 + (n - 64) / 3

/-- The number of a lane's coarse slice within its block; its fine slice follows (DEDUCED, notes/assumptions/20.md). -/
def laneCell (n : Nat) : Nat := if n < 64 then 2 * (n % 4) else 2 * ((n - 64) % 3)

/-- The fine gain G (R48). -/
def State.fineGain (s : State) (n : Nat) : Nat :=
  (if n < 64 then 32 else 8) / (if s.flag (Fld.AQ_LANE_CFG_FINE_GAIN n) then 2 else 1)

/-- A lane's working state. -/
def State.lane (s : State) (n : Nat) : Lane := s.acq.lanes.getD n {}

/-- Replace a lane's working state. -/
def State.setLane (s : State) (n : Nat) (l : Lane) : State :=
  { s with acq := { s.acq with lanes := s.acq.lanes.set n l } }

/-- Change what the statistics hold of a lane in a window. -/
def bumpStat (m : List (Nat × LaneStat)) (win lane : Nat) (f : LaneStat → LaneStat) : List (Nat × LaneStat) :=
  storeSet (fun _ => ({} : LaneStat)) m (win * 128 + lane) (f (storeGet (fun _ => ({} : LaneStat)) m (win * 128 + lane)))

/-- The window an epoch falls in (R75). -/
def windowOf (epoch : Nat) : Nat := epoch / 2 ^ 24

/-- The lane has restarted or changed its setting in the window in progress (R77). -/
def State.breakWindow (s : State) (n : Nat) : State :=
  { s with acq := { s.acq with stats := bumpStat s.acq.stats (windowOf s.epoch) n fun x => { x with broken := true } } }

/-! ### Status that follows the lanes -/

/-- SYS_STATUS.DEGRADED: at least one lane, bay or stream is DEGRADED. -/
def State.refreshDegraded (s : State) : State :=
  s.wrB Fld.SYS_STATUS_DEGRADED
    ((List.range 76).any (fun n => s.flag (Fld.AQ_LANE_STAT_DEGRADED n)) ||
     (List.range 16).any (fun n => s.flag (Fld.BAY_STATUS_DEGRADED n)) ||
     (List.range 4).any (fun n => s.flag (Fld.MT_PS_STATUS_DEGRADED n)))

/-- AQ_LANE_STAT.DEGRADED of a lane. -/
def State.refreshLane (s : State) (n : Nat) : State :=
  s.wrB (Fld.AQ_LANE_STAT_DEGRADED n)
    (s.flag (Fld.AQ_LANE_STAT_COARSE_ISO n) || s.flag (Fld.AQ_LANE_STAT_FINE_ISO n) ||
     s.flag (Fld.AQ_LANE_STAT_CAL_DEGRADED n) || s.laneState n = laneOut)

/-- The counts of AQ_STATUS, and SYS_STATUS.DEGRADED. -/
def State.refreshAcq (s : State) : State :=
  let count (v : Nat) : Nat := ((List.range 76).filter fun n =>
    s.laneState n = v && (v ≠ laneOut || s.flag (Fld.AQ_LANE_CFG_ENABLE n))).length
  let s := s.wr Fld.AQ_STATUS_OUT_LANES (count laneOut)
  let s := s.wr Fld.AQ_STATUS_SINGLE_LANES (count laneSingle)
  (s.wr Fld.AQ_STATUS_STARTING_LANES (count laneStarting)).refreshDegraded

/-- Put a lane into a state. -/
def State.setLaneState (s : State) (n v : Nat) : State := (s.wr (Fld.AQ_LANE_STAT_STATE n) v).refreshLane n

/-! ### Starting and stopping a lane (R62, R64, R65) -/

/-- Start the count of 40 INVALID samples; isolated slices stay isolated. -/
def State.laneInvalid (s : State) (n : Nat) : State :=
  let s := s.setLane n { s.lane n with count := 40 }
  s.setLaneState n (if s.flag (Fld.AQ_LANE_STAT_COARSE_ISO n) && s.flag (Fld.AQ_LANE_STAT_FINE_ISO n) then laneOut
    else laneStarting)

/-- A change of setting: the count starts, and the window in progress does not measure the lane (R62, R77). -/
def State.laneCount (s : State) (n : Nat) : State := (s.laneInvalid n).breakWindow n

/-- Start a lane (R62, R65): its slices are in service, its discard windows empty, and it counts 40 INVALID samples. -/
def State.laneBegin (s : State) (n : Nat) : State :=
  let s := (s.wrB (Fld.AQ_LANE_STAT_COARSE_ISO n) false).wrB (Fld.AQ_LANE_STAT_FINE_ISO n) false
  let l := s.lane n
  (s.setLane n { l with coarse := { l.coarse with discards := [] }, fine := { l.fine with discards := [] } }).laneInvalid n

/-- Restart a lane (R65): the window in progress does not measure it (R77). -/
def State.laneStart (s : State) (n : Nat) : State := (s.laneBegin n).breakWindow n

/-- A lane enters OFF. -/
def State.laneStop (s : State) (n : Nat) : State :=
  (s.setLane n { s.lane n with count := 0 }).setLaneState n laneOff

/-- The 40th INVALID sample of a lane has been delivered (R64). -/
def State.laneCountEnd (s : State) (n : Nat) : State :=
  if s.laneState n = laneStarting && (s.lane n).count = 0 then
    (s.setLaneState n (if s.flag (Fld.AQ_LANE_STAT_COARSE_ISO n) || s.flag (Fld.AQ_LANE_STAT_FINE_ISO n) then laneSingle
      else laneRunning)).refreshAcq
  else s

def execLaneStartCountEnd (lane : Fin 76) (s : State) : Host.Outcome State Fault Refusal := .next (s.laneCountEnd lane.val)

/-- A write of AQ_LANE_CTRL (R65): the lane index, and with RESTART = 1 the restart of that lane or its refusal. -/
def State.wLaneCtrl (s : State) (p : Path) (v : Word) : WStatus × State :=
  match s.gate p (roleOperator ||| roleService) false with
  | .pass _ =>
    let n := bitsOf v.toNat 0 7
    let s := s.wr Fld.AQ_LANE_CTRL_LANE n
    if !v.msb then (.ok, s)
    else
      let d := laneDomain n
      if !s.lanePresent n || !s.flag (Fld.AQ_LANE_CFG_ENABLE n) || !s.domOn d then
        (.ok, s.wrB Fld.AQ_LANE_CTRL_REFUSED true)
      else
        let s := s.wrB Fld.AQ_LANE_CTRL_REFUSED false
        (.ok, if s.laneState n = laneOff then s else (s.laneStart n).refreshAcq)
  | _ => (.refused, s)

def execLaneRestart (p : Path) (lane : BitVec 7) (s : State) : Host.Outcome State Fault Refusal :=
  .next (s.host fun s => s.wLaneCtrl p (0x80000000#32 ||| lane.setWidth 32))

/-! ### Min-max trackers (R69 to R71) -/

/-- Epoch of the next output sample (R50): the first is that of epoch 0. -/
def State.nextSample (s : State) : Nat :=
  let c := (s.epoch + 31) / 32 * 32
  match s.acq.sampleAt with
  | none => c
  | some a => if c ≤ a then a + 32 else c

/-- Epoch of the last output sample. -/
def State.lastSample (s : State) : Nat := s.acq.sampleAt.getD 0

/-- A write of AQ_MM_CTRL (R70). -/
def State.wMmCtrl (s : State) (_ : Path) (v : Word) : WStatus × State :=
  if !v.getLsbD 0 then (.ok, s)
  else if s.flag Fld.AQ_MM_STAT_BUSY || s.acq.captureAt.any (fun a => s.epoch < a + 10240) then
    (.ok, s.count Fld.AQ_MM_STAT_REFUSED)
  else (.ok, s.wrB Fld.AQ_MM_STAT_BUSY true)

def execCapture (p : Path) (s : State) : Host.Outcome State Fault Refusal := .next (s.host fun s => s.wMmCtrl p 1)

/-- The output sample boundary at which a capture takes effect (R70, R71): the sample delivered there opens the next
interval. -/
def State.captureBoundary (s : State) : State :=
  if !s.flag Fld.AQ_MM_STAT_BUSY || !s.flag Fld.AQ_STATUS_RUN then s
  else
    let e := s.nextSample
    let one (s : State) (n : Nat) : State :=
      let x := (s.lane n).track.getD (-2147483648, 2147483647)
      (s.wrS (Fld.AQ_MM_MAX_MAX n) x.1).wrS (Fld.AQ_MM_MIN_MIN n) x.2
    let s := (List.range 76).foldl one s
    let s := { s with acq := { s.acq with
      captureAt := some e
      lanes := s.acq.lanes.map fun (l : Lane) => { l with track := none } } }
    ((s.wr Fld.AQ_MM_EPOCH_EPOCH e).wrB Fld.AQ_MM_STAT_BUSY false).wrB Fld.AQ_MM_STAT_VALID true

def execCaptureBoundary (s : State) : Host.Outcome State Fault Refusal := .next s.captureBoundary

/-! ### One conversion (R51 to R54) -/

/-- One clock of a dither generator: x^23 + x^18 + 1 (R51). -/
def lfsrStep (x : BitVec 23) : BitVec 23 :=
  (x <<< 1) ||| (if x.getLsbD 22 != x.getLsbD 17 then 1 else 0)

/-- The dither value of a slice at an epoch, in half LSB: the generator starts from its seed with the epoch counter and is
clocked once an epoch (R51). -/
def dither (uid : BitVec 64) (slice epoch : Nat) : Int :=
  (Config.ditherBits (Nat.iterate lfsrStep epoch (Config.lfsrSeed slice uid))).toInt

/-- The correction in a table. -/
def corrAt (c : CalSet) (slice code : Nat) : Int := storeGet (fun _ => (0 : Int)) c.tab (slice * 4096 + code)

/-- The coefficient set of a lane. -/
def coefAt (c : CalSet) (lane : Nat) : Coef := storeGet (fun _ => ({} : Coef)) c.coef lane

/-- The set whose tables serve a conversion (R57). -/
def Acq.setAt (a : Acq) (epoch : Int) : CalSet := if epoch < (a.switchAt : Int) then a.prev else a.act

/-- The slice value of a conversion (R52). -/
def sliceValue (raw d corr : Int) : Int := (raw - 2048) * 128 - d * 64 + corr * 2

/-- A rail code (R53). -/
def railCode (raw : Nat) : Bool := raw = 0 || raw = 4095

/-- Feed a value to the decimator. -/
def Slice.feed (l : Slice) (x : Int × Bool) : Slice := { l with hist := (x :: l.hist).take 1217 }

/-- Take an accepted conversion. -/
def Slice.accept (l : Slice) (x : Int × Bool) : Slice := { l with last := x }.feed x

/-- Discard a conversion: the last accepted value is fed in its place (R53). -/
def Slice.discard (l : Slice) (epoch : Nat) : Slice :=
  { l with discards := (epoch :: l.discards).filter fun e => epoch < e + 1024000 }.feed l.last

/-- More than 64 discards in a window of 1 s (R54). -/
def Slice.isolates (l : Slice) : Bool := 64 < l.discards.length

/-- A lane in the course of its conversions: the slices isolated, the discards counted, the statistics. -/
structure LaneRun where
  lane : Lane
  isoC : Bool
  isoF : Bool
  discC : Nat := 0
  discF : Nat := 0
  stats : List (Nat × LaneStat)
deriving DecidableEq, Repr

/-- Count an accepted conversion in the statistics of its window: its raw code, and its dither-removed value in half-LSB
bins, which start at −32. -/
def countCode (m : List (Nat × LaneStat)) (epoch lane which raw : Nat) (d : Int) : List (Nat × LaneStat) :=
  bumpStat m (windowOf epoch) lane fun x =>
    let i := which * 16384 + raw
    let k := which * 16384 + ((raw : Int) * 2 - d + 32).toNat
    { x with h := storeSet zeroAt x.h i (storeGet zeroAt x.h i + 1), u := storeSet zeroAt x.u k (storeGet zeroAt x.u k + 1) }

/-- One conversion of a lane (R52 to R54). A check that needs the other slice is not made while that slice is isolated. The
fine range check takes |v| of the coarse conversion of the same epoch, also where that one is itself discarded (DESIGN
CHOICE, notes/assumptions/136.md). -/
def State.convert (s : State) (n : Nat) (r : LaneRun) (epoch : Nat) (c : LaneConv) : LaneRun :=
  let t := s.acq.setAt epoch
  let dc := dither s.fuses.uid (2 * n) epoch
  let df := dither s.fuses.uid (2 * n + 1) epoch
  let rc := c.coarse.toNat
  let rf := c.fine.toNat
  let vc := sliceValue rc dc (corrAt t (2 * n) rc)
  let vf := sliceValue rf df (corrAt t (2 * n + 1) rf)
  let both := !r.isoC && !r.isoF
  let badC := !c.coarseResidueOk || (both && railCode rc && !railCode rf)
  let badF := !c.fineResidueOk || (both && railCode rf && vc.natAbs * s.fineGain n < 2048 * 128)
  let r := if r.isoC then { r with lane := { r.lane with coarse := r.lane.coarse.feed r.lane.coarse.last } }
    else if badC then
      let l := r.lane.coarse.discard epoch
      { r with lane := { r.lane with coarse := l }, discC := r.discC + 1, isoC := l.isolates }
    else { r with
      lane := { r.lane with coarse := r.lane.coarse.accept (vc, railCode rc) }
      stats := countCode r.stats epoch n 0 rc dc }
  if r.isoF then { r with lane := { r.lane with fine := r.lane.fine.feed r.lane.fine.last } }
  else if badF then
    let l := r.lane.fine.discard epoch
    { r with lane := { r.lane with fine := l }, discF := r.discF + 1, isoF := l.isolates }
  else { r with
    lane := { r.lane with fine := r.lane.fine.accept (vf, railCode rf) }
    stats := countCode r.stats epoch n 1 rf df }

/-! ### Decimation and merge (R55 to R60) -/

/-- The decimated value of a slice (R56): the 1217 taps are symmetric about the centre (R55). -/
def decimate (narrow : Bool) (hist : List (Int × Bool)) : Int :=
  let half := firTaps narrow
  nearest (dot (half ++ (half.take 608).reverse) (hist.map fun (x : Int × Bool) => (x.1 : Real)))

/-- The largest magnitude m of the 38 block means of coarse values (R58). -/
def blockMax (hist : List (Int × Bool)) (offC : Int) : Real :=
  ((List.range 38).map fun j =>
    let b := (hist.drop (32 * j)).take 32
    abs (((b.map fun x => x.1).sum : Int) / (32 : Real) - (offC : Real))).foldl max 0

/-- The thresholds T0 and T1 of a merge band (R60). -/
def mergeBand (low : Bool) (g : Nat) : Real × Real :=
  if low then (3 / 10 * 256000 / g, 375 / 1000 * 256000 / g) else (6 / 10 * 256000 / g, 75 / 100 * 256000 / g)

/-- The coarse value scaled to Q2.30 of full scale (R58). -/
def scaleCoarse (k : Coef) (vc : Int) : Int := nearest (((vc - k.offC) * k.gc : Int) / (256000 : Real))

/-- The fine value scaled to Q2.30 of full scale (R58). -/
def scaleFine (k : Coef) (g : Nat) (vf : Int) : Int :=
  nearest (((vf - k.offF) * k.gc : Int) / (256000 * g : Real)) * k.rho / 2 ^ 30

/-- The weight of the coarse value, 0 to 32 768 (R58 to R60). -/
def mergeWeight (m t0 t1 : Real) : Int :=
  if m ≤ t0 then 0 else if t1 ≤ m then 32768 else nearest ((m - t0) * 32768 / (t1 - t0))

/-- The merged sample (R58). -/
def mergeSample (xc xf w : Int) : Int := xf + (xc - xf) * w / 2 ^ 15

/-! ### Output samples (R50, R61, R62, R69) -/

/-- Output samples kept for the engines, more than any window they use. -/
def sampleKeep : Nat := 16384

/-- Deliver a sample: it joins those the engines use, and the tracker takes it in unless it is OUT or INVALID (R69). -/
def Lane.deliver (l : Lane) (x : Sample) : Lane :=
  { l with
    samples := (x :: l.samples).take sampleKeep
    track := if x.out || x.invalid then l.track
      else some (l.track.elim (x.x, x.x) fun t => (max t.1 x.x, min t.2 x.x)) }

/-- What a slice passed up to its block becomes (R39, R54, R461). -/
def State.sliceIsolated (s : State) (n : Nat) (fine : Bool) : State :=
  let s := if fine then s.wrB (Fld.AQ_LANE_STAT_FINE_ISO n) true else s.wrB (Fld.AQ_LANE_STAT_COARSE_ISO n) true
  let both := s.flag (Fld.AQ_LANE_STAT_COARSE_ISO n) && s.flag (Fld.AQ_LANE_STAT_FINE_ISO n)
  let v := s.laneState n
  let s := s.setLaneState n (if both then laneOut else if v = laneRunning then laneSingle else v)
  (s.escBlock 0).escRecord 1 0 (laneBlock n) (laneCell n + (if fine then 1 else 0)) 0x04 0x04

/-- A usable sample enters the statistics of its window: vc, and (xf, vc) of a fine-only sample. -/
def State.countSample (s : State) (win n : Nat) (vc : Int) (fit : List (Int × Int)) : State :=
  { s with acq := { s.acq with
    stats := bumpStat s.acq.stats win n fun y => { y with n := y.n + 1, vc := y.vc + vc, fits := fit ++ y.fits } } }

/-- The output sample of a lane from the conversions up to epoch `e`, none of which lies before epoch 0 (R50 to R62). -/
def State.laneSample (s : State) (e n : Nat) (conv : List LaneConv) : State :=
  let v := s.laneState n
  let centre : Int := (e : Int) - 608
  if v = laneOff || v = laneOut then
    let s := s.setLane n ((s.lane n).deliver { centre, out := true })
    { s with acq := { s.acq with stats := bumpStat s.acq.stats (windowOf e) n fun x => { x with idle := x.idle + 1 } } }
  else
    let isoC := s.flag (Fld.AQ_LANE_STAT_COARSE_ISO n)
    let isoF := s.flag (Fld.AQ_LANE_STAT_FINE_ISO n)
    let r : LaneRun := conv.zipIdx.foldl (fun r (c, i) => if e + i < 31 then r else s.convert n r (e + i - 31) c)
      { lane := s.lane n, isoC, isoF, stats := s.acq.stats }
    let s := ({ s with acq := { s.acq with stats := r.stats } }).setLane n r.lane
    let s := (s.count (Fld.AQ_LANE_DISC_COARSE n) r.discC).count (Fld.AQ_LANE_DISC_FINE n) r.discF
    let s := if r.isoC && !isoC then s.sliceIsolated n false else s
    let s := if r.isoF && !isoF then s.sliceIsolated n true else s
    let l := r.lane
    let k := coefAt (s.acq.setAt centre) n
    if s.laneState n = laneOut then s.setLane n (l.deliver { centre, out := true })
    else if 0 < l.count then
      s.setLane n (({ l with count := l.count - 1 } : Lane).deliver { centre, invalid := true, delay := k.delay })
    else
      let g := s.fineGain n
      let narrow := s.rd (Fld.AQ_LANE_CFG_FILTER n) = 1
      let t := mergeBand (s.rd (Fld.AQ_LANE_CFG_MERGE_BAND n) = 1) g
      let vc := decimate narrow l.coarse.hist
      let vf := decimate narrow l.fine.hist
      let xc := scaleCoarse k vc
      let xf := scaleFine k g vf
      let railC := l.coarse.hist.any (·.2)
      let railF := l.fine.hist.any (·.2)
      let w := if r.isoF then 32768 else if r.isoC then 0 else if railF then 32768
        else mergeWeight (blockMax l.coarse.hist k.offC) t.1 t.2
      let clip : Bool := railC || (r.isoC && railF)
      let x : Sample := {
        centre, x := mergeSample xc xf w, clip, oneSlice := s.laneState n = laneSingle, delay := k.delay }
      let s : State := s.setLane n (l.deliver x)
      if clip then (s.wrB (Fld.AQ_LANE_STAT_CLIP n) true).count (Fld.AQ_LANE_STAT_CLIP_CNT n)
      else s.countSample (windowOf e) n vc (if w = 0 && !r.isoC then [(xf, vc)] else [])

/-- The output samples of all lanes at the next sample epoch (R50). -/
def State.lanesSample (s : State) (conv : List (List LaneConv)) : State :=
  let e := s.nextSample
  let s := s.setEpoch (max s.epoch e)
  let s := { s with acq := { s.acq with sampleAt := some e } }
  (conv.zipIdx.foldl (fun s (c, n) => s.laneSample e n c) s).refreshAcq

end Sys2Proof.Machine
end

