-- ==== Sys2Proof/Machine/Cal.lean ====
section
/-!
DEFINITION. The Eltur calibrator (R73 to R97): windows and their evaluation, plausibility, switch-over, the reference check,
the staging session, REBASE, and host access to the calibration SRAM.
-/

namespace Sys2Proof.Machine

/-- Events of R246 from the calibrator. -/
def evCalReject : Nat := 0x20
def evCalDegraded : Nat := 0x21
def evRefMismatch : Nat := 0x22

/-- States of CAL_STATUS.PIPE. -/
def pipeOff : Nat := 0
def pipeCollect : Nat := 1
def pipeEvaluate : Nat := 2
def pipeStaged : Nat := 3

/-- The pipeline state. -/
def State.pipe (s : State) : Nat := s.rd Fld.CAL_STATUS_PIPE

/-! ### Copies of the SRAM -/

/-- Set a table entry. -/
def CalSet.setCorr (c : CalSet) (slice code : Nat) (v : Int) : CalSet :=
  { c with tab := storeSet (fun _ => (0 : Int)) c.tab (slice * 4096 + code) v }

/-- Set a coefficient set. -/
def CalSet.setCoef (c : CalSet) (lane : Nat) (k : Coef) : CalSet :=
  { c with coef := storeSet (fun _ => ({} : Coef)) c.coef lane k }

/-- Replace the table of a slice by that of another copy. -/
def CalSet.takeTable (c d : CalSet) (slice : Nat) : CalSet :=
  let mine : Nat × Int → Bool := fun p => p.1 / 4096 = slice
  let rest := c.tab.filter fun p => !mine p
  { c with tab := (d.tab.filter mine).foldl (fun m p => storeSet (fun _ => (0 : Int)) m p.1 p.2) rest }

/-- Replace everything of a lane by what another copy holds of it. -/
def CalSet.takeLane (c d : CalSet) (lane : Nat) : CalSet :=
  ((c.takeTable d (2 * lane)).takeTable d (2 * lane + 1)).setCoef lane (coefAt d lane)

/-- The factory coefficients of a lane, with the gc given (R73). -/
def State.factoryCoef (s : State) (lane gc : Nat) : Coef :=
  { storeGet (fun _ => ({} : Coef)) s.fuses.coef lane with gc }

/-- The coefficient set and tables in force. -/
def State.inForce (s : State) (lane : Nat) : Coef := coefAt s.acq.act lane

/-- A lane's staged copies return to what they are when nothing is staged: the values of a commit that still waits for its
boundary (DESIGN CHOICE, notes/assumptions/138.md), or those in force. -/
def State.unstage (s : State) (lane : Nat) : State :=
  let src := if lane ∈ s.acq.committed then s.acq.commitSet else s.acq.act
  { s with acq := { s.acq with staged := s.acq.staged.takeLane src lane } }

/-! ### Status of lanes and bays (R83, R90, R91) -/

/-- The lanes a bay meters: its four current lanes and the three of its voltage set (R67). -/
def State.bayLanes (s : State) (b : Nat) : List Nat :=
  let v := 64 + 3 * s.rd (Fld.AQ_VSET_MAP_VSET b)
  [4 * b, 4 * b + 1, 4 * b + 2, 4 * b + 3, v, v + 1, v + 2]

/-- BAY_STATUS.PROVISIONAL (R91); of a bay that is not enabled it reads 0 (DESIGN CHOICE, notes/assumptions/140.md). -/
def State.refreshProvisional (s : State) : State :=
  (List.range 16).foldl (fun s b => s.wrB (Fld.BAY_STATUS_PROVISIONAL b)
    (s.bayOn b && (s.bayLanes b).any fun n =>
      !(s.flag (Fld.CAL_LANE_STAT_CONVERGED n) || s.flag (Fld.AQ_LANE_STAT_CAL_DEGRADED n)) ||
      !s.flag (Fld.CAL_LANE_STAT_SCALE_VALID n))) s

/-- IDLE_HOLD of a current lane (R90). -/
def State.refreshIdle (s : State) (n : Nat) : State :=
  s.wrB (Fld.CAL_LANE_STAT_IDLE_HOLD n) (n < 64 && n ∈ s.acq.tablesOnce && n ∉ s.acq.rhoOnce)

/-! ### The statistics of a window (R77, R79) -/

/-- A candidate: the coefficients with measured values in place of those in force, the measured table entries, and what
was measured. -/
structure Cand where
  coef : Coef
  rho : Int
  tabC : List (Nat × Int) := []
  tabF : List (Nat × Int) := []
  off : Bool := false
  ratio : Bool := false
  delay : Bool := false
deriving DecidableEq, Repr

/-- CAL_LANE_STAT.MEASURED of a candidate. -/
def Cand.measured (c : Cand) : Nat :=
  (if c.tabC.isEmpty then 0 else 1) + (if c.tabF.isEmpty then 0 else 2) + (if c.off then 4 else 0) +
  (if c.ratio then 8 else 0) + (if c.delay then 16 else 0)

/-- The contiguous runs of codes with at least 256 counts. -/
def codeRuns (h : Nat → Nat) : List (List Nat) :=
  let step (acc : List (List Nat)) (c : Nat) : List (List Nat) :=
    if h c < 256 then acc
    else match acc with
      | (d :: r) :: rest => if d + 1 = c then (c :: d :: r) :: rest else [c] :: (d :: r) :: rest
      | _ => [c] :: acc
  ((List.range 4096).foldl step []).map List.reverse

/-- The expected count of a code: the dither-removed values convolved with the uniform kernel of 64 bins, over the two
half-LSB bins of the code (DEDUCED, notes/assumptions/22.md). `u` is indexed from bin −32. -/
def expectedCount (u : Nat → Nat) (c : Nat) : Real :=
  (((List.range 64).map fun j => u (2 * c + j + 1) + u (2 * c + j)).sum : Nat) / (64 : Real)

/-- The corrections of one run, in 1/64 LSB (per-code linearity). -/
def runCorrections (h u : Nat → Nat) (cs : List Nat) : List (Nat × Int) :=
  let c0 := cs.headD 0
  let go := cs.foldl (fun (acc : Real × List (Nat × Real)) c =>
    let w : Real := rdiv (h c) (expectedCount u c)
    (acc.1 + w, acc.2 ++ [(c, acc.1 + w / 2 - ((c - c0 : Nat) : Real) - 1 / 2)])) (0, [])
  let mean : Real := (go.2.map fun p => p.2).sum / (cs.length : Real)
  go.2.map fun p => (p.1, nearest ((p.2 - mean) * 64))

/-- The table a slice's statistics give: the entries measured. -/
def sliceTable (x : LaneStat) (which : Nat) : List (Nat × Int) :=
  let h (c : Nat) : Nat := storeGet zeroAt x.h (which * 16384 + c)
  let u (k : Nat) : Nat := storeGet zeroAt x.u (which * 16384 + k)
  (codeRuns h).flatMap (runCorrections h u)

/-- The regression of xc on xf: slope and intercept; where the samples do not determine a line, the slope is a value the
spec leaves open. -/
def regression (ps : List (Int × Int)) : Real × Real :=
  let n : Real := ps.length
  let sx : Real := ((ps.map fun p => p.1).sum : Int)
  let sy : Real := ((ps.map fun p => p.2).sum : Int)
  let sxx : Real := ((ps.map fun p => p.1 * p.1).sum : Int)
  let sxy : Real := ((ps.map fun p => p.1 * p.2).sum : Int)
  let a := rdiv (n * sxy - sx * sy) (n * sxx - sx * sx)
  (a, (sy - a * sx) / n)

/-- Whether a lane's samples suffice for rho and off_f: at least 2^16 of them, with an rms of xf of at least 2 % of fine
full scale. -/
def ratioSuffices (g : Nat) (ps : List (Int × Int)) : Bool :=
  let sxx : Real := ((ps.map fun p => p.1 * p.1).sum : Int)
  let lim : Real := 2 / 100 * 2 ^ 30 / g
  2 ^ 16 ≤ ps.length && decide (lim * lim * (ps.length : Real) ≤ sxx)

/-- Whether CAL_ZSUM makes a lane's delay measurable: phases B and C, and N of a four-wire bay. -/
def State.delayDeclared (s : State) (n : Nat) : Bool :=
  n < 64 &&
  (let z := s.rd (Fld.CAL_ZSUM_BAY (n / 4))
   (z = 1 && n % 4 ≠ 0) || (z = 2 && (n % 4 = 1 || n % 4 = 2)))

/-- The solution of linear equations, each a row of coefficients and right-hand side; none where they determine none. -/
def solve : (unknowns : Nat) → List (List Real) → Option (List Real)
  | 0, _ => some []
  | n + 1, rows =>
    match rows.find? fun r => r.headD 0 ≠ 0 with
    | none => none
    | some p =>
      let rest := (rows.erase p).map fun r =>
        ((r.zip p).map fun (x : Real × Real) => x.1 - x.2 * (r.headD 0 / p.headD 0)).drop 1
      (solve n rest).map fun xs =>
        let tail := p.drop 1
        ((tail.getLastD 0 - dot tail xs) / p.headD 0) :: xs

/-- The lanes of a bay's zero sum, by phase (CAL_ZSUM). -/
def State.zeroSumLanes (s : State) (b : Nat) : List Nat :=
  match s.rd (Fld.CAL_ZSUM_BAY b) with
  | 1 => [0, 1, 2, 3]
  | 2 => [0, 1, 2]
  | _ => []

/-- Whether a window's zero-sum statistics suffice: half the window under load, and a residual of at most 0.5 % of the
largest phase rms. -/
def ZeroSum.suffices (z : ZeroSum) : Bool :=
  let top := z.lanes.foldl max 0
  decide (8192000000 ≤ z.loaded) && decide (z.rr ≤ (5 / 1000) * (5 / 1000) * top)

/-- The change of a lane's delay, Q8.8 ns, that the zero-sum residual of its bay gives (R79): the changes that leave the
least residual, in-phase parts fitted alongside; free where the residual does not determine them. -/
def State.delayChange (s : State) (n : Nat) : Option Int :=
  let z := storeGet (fun _ => ({} : ZeroSum)) s.acq.zsums (s.acq.evaluating * 16 + n / 4)
  if !s.delayDeclared n || !z.suffices then none
  else some (match solve z.eqs.length z.eqs with
    | none => Config.delayFit s.free
    | some xs => nearest (-(xs.getD (n % 4 - 1) 0) * 256))

/-- The values in force of a lane when the window in evaluation ended (R96). -/
def State.endForce (s : State) (n : Nat) : Coef := coefAt s.acq.atEnd n

/-- The candidate of a lane from the statistics of a window, against the values in force at its end (R79, R96). -/
def State.candidate (s : State) (n : Nat) (x : LaneStat) (delay : Option Int) : Cand :=
  let k := s.endForce n
  let isoC := s.flag (Fld.AQ_LANE_STAT_COARSE_ISO n)
  let isoF := s.flag (Fld.AQ_LANE_STAT_FINE_ISO n)
  let off : Bool := !isoC && 2 ^ 18 ≤ x.n
  let k1 : Coef := if off then { k with offC := nearest ((x.vc : Real) / (x.n : Real)) } else k
  let g := s.fineGain n
  let ps := x.fits.map fun p => (p.1, scaleCoarse k1 p.2)
  let fit := if !isoC && !isoF && ratioSuffices g ps then some (regression ps) else none
  let c : Cand := {
    coef := k1, rho := k.rho, off
    tabC := if isoC then [] else sliceTable x 0
    tabF := if isoF then [] else sliceTable x 1 }
  let c := match fit with
    | none => c
    | some (a, b) =>
      let den : Real := ((k.gc : Real) / 2 ^ 30) * ((k.rho : Real) / 2 ^ 30) * a
      { c with
        ratio := true, rho := nearest (k.rho * a)
        coef := { c.coef with offF := nearest (k.offF - rdiv (b / 2 ^ 30 * 256000 * g) den) } }
  match delay with
  | none => c
  | some d => { c with delay := true, coef := { c.coef with delay := k.delay + d } }

/-! ### Plausibility (R80, R81) -/

/-- Whether a signed value lies outside the 8 bits of a table entry. -/
def offTable (v : Int) : Bool := v < -128 || 127 < v

/-- The range tests of R80, causes 0x01 to 0x05, over measured values. -/
def rangeCause (g : Nat) (c : Cand) : Nat :=
  if c.tabC.any fun p => offTable p.2 then 1
  else if c.tabF.any fun p => offTable p.2 then 2
  else if c.ratio && (decide ((c.rho : Real) < 995 / 1000 * 2 ^ 30) || decide (1005 / 1000 * 2 ^ 30 < (c.rho : Real))) then 3
  else if (c.off && 2048 < c.coef.offC.natAbs) || (c.ratio && 2048 * g < c.coef.offF.natAbs) then 4
  else if c.delay && (c.coef.delay < -32768 || 32767 < c.coef.delay) then 5
  else 0

/-- The move tests of R80, causes 0x06 to 0x09; `fine` tells whether the fine-side values are tested (R81). -/
def State.moveCause (s : State) (n : Nat) (c : Cand) (fine : Bool) : Nat :=
  let k := s.endForce n
  let moved (slice : Nat) (p : Nat × Int) : Bool := 12 < (p.2 - corrAt s.acq.atEnd slice p.1).natAbs
  if c.tabC.any (moved (2 * n)) || (fine && c.tabF.any (moved (2 * n + 1))) then 6
  else if (c.off && 25 < (c.coef.offC - k.offC).natAbs) || (fine && c.ratio && 25 < (c.coef.offF - k.offF).natAbs) then 7
  else if fine && c.ratio && k.rho < 10000 * (c.rho - k.rho).natAbs then 8
  else if c.delay && 800 < (c.coef.delay - k.delay).natAbs then 9
  else 0

/-! ### Windows and evaluation (R75 to R83) -/

/-- A host staging session ends: the staged copies of the lanes written return to their values in force (R94). -/
def State.stageEnd (s : State) (result : Nat) : State :=
  let s := s.acq.written.foldl State.unstage s
  let s := { s with acq := { s.acq with written := [], gcWritten := [] } }
  (s.wrB Fld.CAL_STATUS_HOST_STAGE false).wr Fld.CAL_CMD_RESULT result

/-- A window ends (R75, R76): its evaluation begins and the next window collects; an open staging session is aborted
(R94). -/
def State.calWindowEnd (s : State) : State :=
  if s.pipe = pipeOff then s
  else
    let k := s.acq.window
    let s := { s with acq := { s.acq with
      evaluating := k, window := k + 1, atEnd := s.acq.act
      stats := s.acq.stats.filter fun (p : Nat × LaneStat) => k ≤ p.1 / 128
      zsums := s.acq.zsums.filter fun (p : Nat × ZeroSum) => k ≤ p.1 / 16 } }
    let s := (s.setEpoch (max s.epoch ((k + 1) * 2 ^ 24))).wr Fld.CAL_STATUS_PIPE pipeEvaluate
    if s.flag Fld.CAL_STATUS_HOST_STAGE then s.stageEnd 5 else s

def execCalWindowEnd (s : State) : Host.Outcome State Fault Refusal := .next s.calWindowEnd

/-- A lane's candidate is not measured. -/
def State.notMeasured (s : State) (n : Nat) : State := s.wr (Fld.CAL_LANE_STAT_LAST_RESULT n) 3

/-- A candidate is accepted (R82, R83, R90): its measured values are staged. LAST_CAUSE returns to 0, "none" (DESIGN CHOICE,
notes/assumptions/137.md). -/
def State.acceptCand (s : State) (n : Nat) (c : Cand) : State :=
  let put (slice : Nat) (m : CalSet) (p : Nat × Int) : CalSet := m.setCorr slice p.1 p.2
  let m := c.tabF.foldl (put (2 * n + 1)) (c.tabC.foldl (put (2 * n)) s.acq.staged)
  let k := coefAt m n
  let m := m.setCoef n { k with
    offC := if c.off then c.coef.offC else k.offC
    offF := if c.ratio then c.coef.offF else k.offF
    rho := if c.ratio then c.rho.toNat else k.rho
    delay := if c.delay then c.coef.delay else k.delay }
  let isoC := s.flag (Fld.AQ_LANE_STAT_COARSE_ISO n)
  let isoF := s.flag (Fld.AQ_LANE_STAT_FINE_ISO n)
  let tables := (isoC || !c.tabC.isEmpty) && (isoF || !c.tabF.isEmpty) && c.off
  let s := { s with acq := { s.acq with
    staged := m, accepted := s.acq.accepted ++ [n]
    tablesOnce := if tables then n :: s.acq.tablesOnce else s.acq.tablesOnce } }
  let s := (s.wr (Fld.CAL_LANE_STAT_REJ_CNT n) 0).wr (Fld.CAL_LANE_STAT_LAST_RESULT n) 1
  let s := (s.wrap (Fld.CAL_LANE_STAT_ACCEPT_CNT n)).wr (Fld.CAL_LANE_STAT_LAST_CAUSE n) 0
  let s := if tables && c.ratio then s.wrB (Fld.CAL_LANE_STAT_CONVERGED n) true else s
  (s.wrB (Fld.AQ_LANE_STAT_CAL_DEGRADED n) false).refreshLane n

/-- A candidate is rejected (R82, R83), with the events of it. -/
def State.rejectCand (s : State) (n cause : Nat) : State × List Offer :=
  let r := min (s.rd (Fld.CAL_LANE_STAT_REJ_CNT n) + 1) 3
  let third := s.rd (Fld.CAL_LANE_STAT_REJ_CNT n) = 2
  let s := (s.wr (Fld.CAL_LANE_STAT_REJ_CNT n) r).wr (Fld.CAL_LANE_STAT_LAST_RESULT n) 2
  let s := s.wr (Fld.CAL_LANE_STAT_LAST_CAUSE n) cause
  let e : List Offer := [(evCalReject, n, beBytes 1 cause ++ beBytes 1 r)]
  if third then ((s.wrB (Fld.AQ_LANE_STAT_CAL_DEGRADED n) true).refreshLane n, e ++ [(evCalDegraded, n, [])]) else (s, e)

/-- The evaluation of one lane (R77, R80 to R84, R96): accepted, rejected or not measured. A lane whose commit waits for the
same boundary is tested without the move tests; its candidate, if it passes, is discarded as not measured (R96). -/
def State.evaluateLane (s : State) (n : Nat) : State × List Offer :=
  let x := storeGet (fun _ => ({} : LaneStat)) s.acq.stats (s.acq.evaluating * 128 + n)
  let c := s.candidate n x (s.delayChange n)
  let s := if s.delayDeclared n then s.drawn else s
  if x.broken || 2 ^ 18 < x.idle || c.measured = 0 then
    ((s.notMeasured n).wr (Fld.CAL_LANE_STAT_MEASURED n) 0, [])
  else
    let rebased := s.flag (Fld.CAL_LANE_STAT_REBASE_PEND n)
    let s := s.wr (Fld.CAL_LANE_STAT_MEASURED n) c.measured
    let r := rangeCause (s.fineGain n) c
    let cause := if r ≠ 0 then r else if n ∈ s.acq.exempt || n ∈ s.acq.committed || rebased then 0
      else s.moveCause n c (n ∉ s.acq.exemptFine)
    if cause = 0 && n ∈ s.acq.committed then (s.notMeasured n, [])
    else
      let s := s.wrB (Fld.CAL_LANE_STAT_REBASE_PEND n) false
      let s := if c.ratio then { s with acq := { s.acq with rhoOnce := n :: s.acq.rhoOnce } } else s
      let x := if cause = 0 then (s.acceptCand n c, []) else s.rejectCand n cause
      (x.1.refreshIdle n, x.2)

/-- The evaluation of a window completes (R76, R80). -/
def State.calEvaluated (s : State) : State :=
  if s.pipe ≠ pipeEvaluate then s
  else
    let k := s.acq.evaluating
    let lanes := (List.range 76).filter fun n => s.lanePresent n && s.flag (Fld.AQ_LANE_CFG_ENABLE n)
    let s := { s with acq := { s.acq with accepted := [], stagedTick := s.core.ticks } }
    let x := lanes.foldl (fun (acc : State × List Offer) n =>
      let y := acc.1.evaluateLane n
      (y.1, acc.2 ++ y.2)) (s, [])
    let s := x.1.raiseTogether x.2
    let result (v : Nat) : Nat := (lanes.filter fun n => s.rd (Fld.CAL_LANE_STAT_LAST_RESULT n) = v).length
    let s := (s.wr Fld.CAL_RESULT_ACCEPTED (result 1)).wr Fld.CAL_RESULT_REJECTED (result 2)
    let s := (s.wr Fld.CAL_RESULT_UNMEASURED (result 3)).wr Fld.CAL_RESULT_WINDOW k
    let s := { s with acq := { s.acq with
      stats := s.acq.stats.filter fun (p : Nat × LaneStat) => p.1 / 128 ≠ k
      zsums := s.acq.zsums.filter fun (p : Nat × ZeroSum) => p.1 / 16 ≠ k } }
    let s := s.wr Fld.CAL_STATUS_PIPE (if s.acq.accepted.isEmpty then pipeCollect else pipeStaged)
    (s.refreshAcq).refreshProvisional

def execCalEvaluationComplete (s : State) : Host.Outcome State Fault Refusal := .next s.calEvaluated

/-! ### Switch-over (R85, R86, R91, R95, R96) -/

/-- Every enabled lane has converged, holds idle or is CAL_DEGRADED (R91). -/
def State.allConverged (s : State) : Bool :=
  (List.range 76).all fun n => !s.flag (Fld.AQ_LANE_CFG_ENABLE n) || s.flag (Fld.CAL_LANE_STAT_CONVERGED n) ||
    s.flag (Fld.CAL_LANE_STAT_IDLE_HOLD n) || s.flag (Fld.AQ_LANE_STAT_CAL_DEGRADED n)

/-- STATE moves from PROVISIONAL to FULL (R91). -/
def State.calFull (s : State) : State :=
  if s.allConverged && !s.flag Fld.CAL_STATUS_FULL then
    let s := s.wrB Fld.CAL_STATUS_FULL true
    if s.chip = chipProvisional then s.setChip chipFull else s
  else s

/-- Staged copies become active at the boundary that began the tick in progress (R57, R85), which is the first after their
evaluation (R76) or commit (R95); committed lanes take what their commit wrote (R96). After a region failure none does
(R86). -/
def State.calSwitchOver (s : State) : State :=
  let due := s.pipe = pipeStaged && s.acq.stagedTick < s.core.ticks
  let hostDue := s.acq.commitTick < s.core.ticks
  let mine := if due then s.acq.accepted else []
  let host := if hostDue then s.acq.committed else []
  let newBase := if hostDue then s.acq.newBase else none
  if s.chip = chipFrozen then s
  else if mine.isEmpty && host.isEmpty && newBase.isNone then
    if due then s.wr Fld.CAL_STATUS_PIPE pipeCollect else s
  else
    let a := s.acq
    let act := host.foldl (fun m n => m.takeLane a.commitSet n) (mine.foldl (fun m n => m.takeLane a.staged n) a.act)
    let fine := mine.filter fun n => s.rd (Fld.CAL_LANE_STAT_MEASURED n) &&& 0xA ≠ 0
    let s := { s with acq := { a with
      prev := a.act, act, switchAt := s.core.tickEpoch, accepted := if due then [] else a.accepted
      committed := if hostDue then [] else a.committed, commitSet := if hostDue then {} else a.commitSet
      newBase := if hostDue then none else a.newBase
      base := if newBase.isSome then newBase else a.base
      exempt := (a.exempt.filter (· ∉ mine)) ++ (host.filter (· ∉ a.exempt))
      exemptFine := a.exemptFine.filter (· ∉ fine) } }
    let s := if newBase.isSome then
        (List.range 76).foldl (fun s n => if s.lanePresent n then s.wrB (Fld.CAL_LANE_STAT_SCALE_VALID n) true else s) s
      else s
    let s := (s.wrap Fld.CAL_STATUS_SWITCH_CNT).irq Fld.SYS_IRQ_STAT_CAL
    let s := if due then s.wr Fld.CAL_STATUS_PIPE pipeCollect else s
    (s.calFull).refreshProvisional

def execCalSwitchOver (s : State) : Host.Outcome State Fault Refusal := .next s.calSwitchOver

/-- The isolate step of a lane's domain: what is staged of it, by an evaluation or a commit, is discarded, and the lane counts
as not measured (R86). -/
def State.calDiscard (s : State) (n : Nat) : State :=
  let a := s.acq
  if n ∉ a.accepted && n ∉ a.committed then s
  else
    let t := ({ s with acq := { a with
      accepted := a.accepted.filter (· ≠ n), committed := a.committed.filter (· ≠ n)
      commitSet := a.commitSet.takeLane {} n } }).unstage n
    if n ∉ a.accepted then t
    else
      let t := t.wr Fld.CAL_RESULT_ACCEPTED (t.rd Fld.CAL_RESULT_ACCEPTED - 1)
      (t.wr Fld.CAL_RESULT_UNMEASURED (t.rd Fld.CAL_RESULT_UNMEASURED + 1)).notMeasured n

/-- A lane's FINE_GAIN has changed: its fine-side values revert to factory values (R78). -/
def State.calFineGain (s : State) (n : Nat) : State :=
  let fix (m : CalSet) : CalSet :=
    let k := coefAt m n
    let f := s.factoryCoef n k.gc
    (m.takeTable {} (2 * n + 1)).setCoef n { k with offF := f.offF, rho := f.rho }
  let a := s.acq
  ({ s with acq := { a with
    act := fix a.act, staged := fix a.staged
    commitSet := if n ∈ a.committed then fix a.commitSet else a.commitSet
    exemptFine := n :: a.exemptFine.filter (· ≠ n) } }).wrB (Fld.CAL_LANE_STAT_CONVERGED n) false

/-! ### The references (R87) -/

/-- The deviation of a ratio from the baseline in 1/16 ppm. -/
def refDeviation (ratio base : Nat) : Int := nearest ((rdiv ratio base - 1) * 16000000)

/-- CAL_REF_BASE.BASE. -/
def State.refBase (s : State) : Word := s.acq.base.getD s.fuses.refBase

/-- The reference check of a tick (R87), from the ratio REFB / REFA the comparator measured: that which a scale commit of
the tick has taken already, if one has (R95; notes/assumptions/45.md). A deviation that DEV cannot hold reads as a free
value. -/
def State.refCheck (s : State) (measured : Word) : State :=
  let ratio := s.acq.tickRatio.getD measured
  let s := { s with acq := { s.acq with tickRatio := none } }
  if s.pipe = pipeOff then s
  else
    let d := refDeviation ratio.toNat s.refBase.toNat
    let fits := -32768 ≤ d && d ≤ 32767
    let s := if fits then s.wrS Fld.CAL_REF_DEV d else (s.wr Fld.CAL_REF_DEV s.openWord).drawn
    let above := if 320 < d.natAbs then s.acq.refOver + 1 else 0
    let below := if d.natAbs < 240 then s.acq.refUnder + 1 else 0
    let s := { s with acq := { s.acq with refOver := above, refUnder := below } }
    if !s.flag Fld.CAL_REF_MISMATCH && 2 ≤ above then
      let s := (s.wrB Fld.CAL_REF_MISMATCH true).wrB Fld.CAL_REF_MISMATCH_SEEN true
      s.raise evRefMismatch 0xFF (beBytes 2 (s.rd Fld.CAL_REF_DEV))
    else if s.flag Fld.CAL_REF_MISMATCH && 10 ≤ below then s.wrB Fld.CAL_REF_MISMATCH false
    else s

/-! ### The start (R73, R76, R89) -/

/-- The calibration SRAM after a core reset: factory values (R73). -/
def Acq.fresh (f : Fuses) : Acq := { act := { coef := f.coef }, prev := { coef := f.coef }, staged := { coef := f.coef } }

/-- Whether a scale record is valid: its CRC passes, FORMAT is 0x01, LANES is 76, and every gc lies within 0.95 to 1.05
(R230). -/
def scaleValid (r : ScaleRec) : Bool :=
  r.crc = crc32 (scaleBytes r) && r.format = 1 && r.lanes = 76 && r.gc.length = 76 &&
    r.gc.all fun g => 95 * 2 ^ 30 ≤ 100 * g.toNat && 100 * g.toNat ≤ 105 * 2 ^ 30

/-- A scale record that is valid in at least one copy loads gc and the baseline (R89, R230). -/
def State.calScale (s : State) : State :=
  match ((s.str.copies 0).filterMap fun (c : StrataCopy) => c.scale).find? scaleValid with
  | none => s
  | some r =>
    let put (m : CalSet) : CalSet := r.gc.zipIdx.foldl (fun m (g, n) => m.setCoef n { coefAt m n with gc := g.toNat }) m
    let s := { s with acq := { s.acq with
      act := put s.acq.act, prev := put s.acq.prev, staged := put s.acq.staged, base := some r.base } }
    (List.range 76).foldl (fun s n => if s.lanePresent n then s.wrB (Fld.CAL_LANE_STAT_SCALE_VALID n) true else s) s

/-- The calibrator starts with acquisition (R76). -/
def State.calStart (s : State) : State :=
  ((s.wr Fld.CAL_STATUS_PIPE pipeCollect).setEpoch 0).refreshProvisional

/-! ### The staging session (R94, R95) and REBASE (R84) -/

/-- The map of lanes of R262: lane n in byte n / 8, bit n mod 8. -/
def laneMap (ns : List Nat) : List Byte :=
  (List.range 10).map fun b => BitVec.ofNat 8 (((List.range 8).map fun i => if 8 * b + i ∈ ns then 2 ^ i else 0).sum)

/-- Why a written lane is refused at STAGE_COMMIT (R95); 0 when it passes. -/
def State.commitCause (s : State) (n : Nat) : Nat :=
  let k := coefAt s.acq.staged n
  let f := s.inForce n
  let c : Cand := { coef := k, rho := k.rho, off := true, ratio := true, delay := true }
  let r := rangeCause (s.fineGain n) c
  let g : Real := k.gc
  if r ≠ 0 then r
  else if n ∉ s.acq.gcWritten then 0
  else if g < 95 / 100 * 2 ^ 30 || 105 / 100 * 2 ^ 30 < g then 0x0A
  else if s.flag (Fld.CAL_LANE_STAT_SCALE_VALID n) && f.gc * 2 < 100 * ((k.gc : Int) - f.gc).natAbs then 0x0A
  else 0

/-- What a STAGE_COMMIT does once it is authorised (R95). -/
def State.stageCommit (s : State) (roles keys : BitVec 8) : State :=
  let a := s.acq
  let bad := a.written.filter fun n => s.commitCause n ≠ 0
  if !bad.isEmpty then
    (bad.foldl (fun s n => s.wr (Fld.CAL_LANE_STAT_LAST_CAUSE n) (s.commitCause n)) s).wr Fld.CAL_CMD_RESULT 4
  else
    let scaled := a.written.filter fun n => (coefAt a.staged n).gc ≠ (s.inForce n).gc
    let base := a.tickRatio.getD (BitVec.ofNat 32 s.openWord)
    let gcs : List (BitVec 32) := (List.range 76).map fun n => BitVec.ofNat 32 (coefAt a.staged n).gc
    let x := s.command (if scaled.isEmpty then 0x06 else 0x05) fun b =>
      let b := b.audit 0x01 roles keys (laneMap a.written)
      if scaled.isEmpty then b
      else
        let b := b.audit 0x02 roles keys (laneMap scaled ++ wordBytes base)
        b.add (.scale { time := BitVec.ofNat 64 (stampOf b.img.st), base, tseq := b.tseq, gc := gcs })
    if !x.1 then x.2.wr Fld.CAL_CMD_RESULT 6
    else
      let s := if scaled.isEmpty then x.2 else x.2.drawn
      let all := s.acq.committed ++ a.written.filter (· ∉ s.acq.committed)
      let s := { s with acq := { s.acq with
        committed := all, written := [], gcWritten := [], commitTick := s.core.ticks
        tickRatio := if scaled.isEmpty then s.acq.tickRatio else some base
        commitSet := a.written.foldl (fun m n => m.takeLane a.staged n) s.acq.commitSet
        newBase := if scaled.isEmpty then s.acq.newBase else some base } }
      (s.wrB Fld.CAL_STATUS_HOST_STAGE false).wr Fld.CAL_CMD_RESULT 1

/-- The target of a SCALE_COMMIT: bytes 0 to 23 of SHA-256 over the staged gc values (R277). -/
def State.scaleTarget (s : State) : List Byte :=
  let m := (List.range 76).flatMap fun n => beBytes 4 (coefAt s.acq.staged n).gc
  (beBytes 32 (Config.sha256 m).toNat).take 24

/-- A write of CAL_CMD (R84, R94, R95). RESULT 0x7, "no session open", means the host staging session; a write outside an
authorised session is refused and leaves RESULT (DESIGN CHOICE, notes/assumptions/139.md). -/
def State.wCalCmd (s : State) (p : Path) (v : Word) : WStatus × State :=
  let cmd := bitsOf v.toNat 28 4
  let lane := bitsOf v.toNat 0 7
  let dual : Bool := cmd = 2 && s.flag Fld.CAL_STATUS_HOST_STAGE && !s.acq.gcWritten.isEmpty
  let g := s.gateDual p 0x0040 s.scaleTarget
  -- a STAGE_COMMIT uses up an armed SCALE_COMMIT, accepted or not (R276)
  let s := if cmd = 2 then s.disarm p 0x0040 else s
  if dual then
    match g with
    | .pass a => (.ok, (s.wr Fld.CAL_CMD_LANE lane).stageCommit a.roles a.keys)
    | .locked => (.refused, s.wr Fld.CAL_CMD_RESULT 3)
    | _ => (.refused, s)
  else
    match s.gate p roleService (1 ≤ cmd && cmd ≤ 4) with
    | .locked => (.refused, s.wr Fld.CAL_CMD_RESULT 3)
    | .noSession => (.refused, s)
    | .role => (.refused, s)
    | .pass x =>
      let s := s.wr Fld.CAL_CMD_LANE lane
      let res (n : Nat) : WStatus × State := (.ok, s.wr Fld.CAL_CMD_RESULT n)
      match cmd with
      | 1 =>
        if s.pipe ≠ pipeCollect || 2 ^ 24 - s.rd Fld.CAL_WINDOW_POS < 4096000 || s.flag Fld.CAL_STATUS_HOST_STAGE then res 2
        else (.ok, (s.wrB Fld.CAL_STATUS_HOST_STAGE true).wr Fld.CAL_CMD_RESULT 1)
      | 2 => if !s.flag Fld.CAL_STATUS_HOST_STAGE then res 7 else (.ok, s.stageCommit x.role (keysOne x.key))
      | 3 => if !s.flag Fld.CAL_STATUS_HOST_STAGE then res 7 else (.ok, s.stageEnd 1)
      | 4 =>
        if !s.lanePresent lane then res 7
        else
          let y := s.command 0x06 fun b => b.audit 0x03 x.role (keysOne x.key) (beBytes 1 lane)
          if y.1 then (.ok, (y.2.wrB (Fld.CAL_LANE_STAT_REBASE_PEND lane) true).wr Fld.CAL_CMD_RESULT 1)
          else (.ok, y.2.wr Fld.CAL_CMD_RESULT 6)
      | _ => (.ok, s)

def execStageOpen (p : Path) (s : State) : Host.Outcome State Fault Refusal :=
  .next (s.host fun s => s.wCalCmd p 0x10000000)

def execStageCommit (p : Path) (s : State) : Host.Outcome State Fault Refusal :=
  .next (s.host fun s => s.wCalCmd p 0x20000000)

def execStageAbort (p : Path) (s : State) : Host.Outcome State Fault Refusal :=
  .next (s.host fun s => s.wCalCmd p 0x30000000)

def execRebase (p : Path) (lane : BitVec 7) (s : State) : Host.Outcome State Fault Refusal :=
  .next (s.host fun s => s.wCalCmd p (0x40000000#32 ||| lane.setWidth 32))

/-! ### Host access to the SRAM (R92 to R94) -/

/-- The object CAL_ACC_SEL selects: whether it is a coefficient set, its index and the word. -/
def State.calSel (s : State) : Bool × Nat × Nat :=
  (s.flag Fld.CAL_ACC_SEL_OBJ, s.rd Fld.CAL_ACC_SEL_INDEX, s.rd Fld.CAL_ACC_SEL_WORD)

/-- The lane an object belongs to. -/
def calLane (sel : Bool × Nat × Nat) : Nat := if sel.1 then sel.2.1 else sel.2.1 / 2

/-- Whether the selected index is in range, and the word within the object. -/
def calInRange (sel : Bool × Nat × Nat) : Bool :=
  if sel.1 then sel.2.1 < 76 && sel.2.2 < 5 else sel.2.1 < 152

/-- Advance WORD, and the index after the last word of an object (R92). -/
def State.calAdvance (s : State) : State :=
  let sel := s.calSel
  let last := if sel.1 then 4 else 1023
  let n := if sel.1 then 76 else 152
  if sel.2.2 < last then s.wr Fld.CAL_ACC_SEL_WORD (sel.2.2 + 1)
  else (s.wr Fld.CAL_ACC_SEL_WORD 0).wr Fld.CAL_ACC_SEL_INDEX (if sel.2.1 + 1 = n then 0 else sel.2.1 + 1)

/-- A word of an object (R92). -/
def calWord (c : CalSet) (sel : Bool × Nat × Nat) : Nat :=
  let i := sel.2.1
  let w := sel.2.2
  if sel.1 then
    let k := coefAt c i
    match w with
    | 0 => ofSigned 32 k.offC
    | 1 => ofSigned 32 k.offF
    | 2 => k.gc
    | 3 => k.rho
    | _ => ofSigned 32 k.delay
  else ((List.range 4).map fun j => 2 ^ (8 * j) * ofSigned 8 (corrAt c i (4 * w + j))).sum

/-- Store a word of an object. -/
def calPut (c : CalSet) (sel : Bool × Nat × Nat) (v : Nat) : CalSet :=
  let i := sel.2.1
  let w := sel.2.2
  if sel.1 then
    let k := coefAt c i
    c.setCoef i (match w with
      | 0 => { k with offC := toSigned 32 v }
      | 1 => { k with offF := toSigned 32 v }
      | 2 => { k with gc := v }
      | 3 => { k with rho := v }
      | _ => { k with delay := toSigned 16 (v % 2 ^ 16) })
  else (List.range 4).foldl (fun c j => c.setCorr i (4 * w + j) (toSigned 8 (bitsOf v (8 * j) 8))) c

/-- A read of CAL_ACC_DATA. -/
def State.calDataRead (s : State) : Word × State :=
  let sel := s.calSel
  let c := if s.flag Fld.CAL_ACC_SEL_SET then s.acq.staged else s.acq.act
  let v := if calInRange sel && s.lanePresent (calLane sel) then calWord c sel else 0
  (BitVec.ofNat 32 v, s.calAdvance)

def execCalAccDataRead (_ : Path) (s : State) : Host.Outcome State Fault Refusal := .next (s.hostRead State.calDataRead)

/-- A write of CAL_ACC_DATA (R94). -/
def State.wCalData (s : State) (p : Path) (v : Word) : WStatus × State :=
  match s.gate p roleService true with
  | .pass _ =>
    let sel := s.calSel
    let n := calLane sel
    if !s.flag Fld.CAL_STATUS_HOST_STAGE || !s.flag Fld.CAL_ACC_SEL_SET || !calInRange sel then (.refused, s)
    else if !s.lanePresent n then (.unimplemented, s)
    else
      let a := s.acq
      let add (l : List Nat) : List Nat := if n ∈ l then l else l ++ [n]
      let s := { s with acq := { a with
        staged := calPut a.staged sel v.toNat, written := add a.written
        gcWritten := if sel.1 && sel.2.2 = 2 then add a.gcWritten else a.gcWritten } }
      (.ok, s.calAdvance)
  | _ => (.refused, s)

def execCalAccDataWrite (p : Path) (data : Word) (s : State) : Host.Outcome State Fault Refusal :=
  .next (s.host fun s => s.wCalData p data)

end Sys2Proof.Machine
end

