-- ==== Sys2Proof/Machine/Bays.lean ====
section
/-!
DEFINITION. Bay metrology (R98 to R119): the corrected timescale, the resampler, fundamental tracking, the quantities of one
cycle, held and lost samples, allocation and the quantum, and the per-tick values.
-/

namespace Sys2Proof.Machine

/-! ### Bays and their registers -/

/-- States of BAY_STATUS.TRACK. -/
def trkOff : Nat := 0
def trkFree : Nat := 1
def trkLocked : Nat := 2
def trkStopped : Nat := 3

/-- Events of R112. -/
def evReverse : Nat := 0x30
def evForward : Nat := 0x31

/-- The tracking state of a bay. -/
def State.track (s : State) (b : Nat) : Nat := s.rd (Fld.BAY_STATUS_TRACK b)

/-- A bay engine's working state. -/
def State.bay (s : State) (b : Nat) : Bay := s.met.bays.getD b {}

/-- Replace a bay engine's working state. -/
def State.setBay (s : State) (b : Nat) (y : Bay) : State :=
  { s with met := { s.met with bays := s.met.bays.set b y } }

/-- The voltage set of a bay (R67): of a cycle that a change of assignment cuts, the set it had. -/
def State.vset (s : State) (b : Nat) : Nat := (s.bay b).oldSet.getD (s.rd (Fld.AQ_VSET_MAP_VSET b))

/-- The lanes of the seven channels U_A to U_C, I_A to I_N. -/
def State.channelLanes (s : State) (b : Nat) : List Nat :=
  let v := 64 + 3 * s.vset b
  [v, v + 1, v + 2, 4 * b, 4 * b + 1, 4 * b + 2, 4 * b + 3]

/-- Whether the bay is wired as THREE_WIRE_2E (R98). -/
def State.twoElement (s : State) (b : Nat) : Bool := s.rd (Fld.BAY_CFG_WIRING b) = 1

/-- The elements of a bay, by phase (R98). -/
def State.elements (s : State) (b : Nat) : List Nat := if s.twoElement b then [0, 2] else [0, 1, 2]

/-- Nominal frequency, Hz. -/
def State.nomF (s : State) (b : Nat) : Nat := if s.flag (Fld.BAY_CFG_NOM_F b) then 60 else 50

/-- Nominal cycle, ns. -/
def State.nomT (s : State) (b : Nat) : Real := 1000000000 / (s.nomF b : Real)

/-- K of a channel: primary units per pin volt (R99). -/
def State.chanK (s : State) (b c : Nat) : Real :=
  b32 (s.word (match c with
    | 0 => Adr.MT_VL_KU (3 * s.vset b)
    | 1 => Adr.MT_VL_KU (3 * s.vset b + 1)
    | 2 => Adr.MT_VL_KU (3 * s.vset b + 2)
    | 3 => Adr.BAY_KI_A b
    | 4 => Adr.BAY_KI_B b
    | 5 => Adr.BAY_KI_C b
    | _ => Adr.BAY_KI_N b))

/-- Phase correction of a channel, ns (R102). -/
def State.chanPhase (s : State) (b c : Nat) : Real :=
  let w := s.word (match c with
    | 0 => Adr.MT_VL_PHC (3 * s.vset b)
    | 1 => Adr.MT_VL_PHC (3 * s.vset b + 1)
    | 2 => Adr.MT_VL_PHC (3 * s.vset b + 2)
    | 3 => Adr.BAY_PHC_A b
    | 4 => Adr.BAY_PHC_B b
    | 5 => Adr.BAY_PHC_C b
    | _ => Adr.BAY_PHC_N b)
  (toSigned 24 (bitsOf w.toNat 0 24) : Real) / 256

/-- The field of SYS_ENG_MAPn that names the engine metering a bay. -/
def engField (b : Nat) : Field := { addr := Adr.SYS_ENG_MAP0 + 4 * (b / 8), lo := 4 * (b % 8), width := 4 }

/-- Whether a bay is metered by a unit: its own engine (0x0), or PE0 to PE3 (0x8 to 0xB). -/
def State.meteredBy (s : State) (b : Nat) : FaultUnit → Bool
  | .bayEngine n => n.val = b && s.rd (engField b) = 0
  | .procEngine m => s.rd (engField b) = 8 + m.val
  | _ => false

/-- The power domain of the engine that meters a bay: its quad's, or DMP on a standby engine (R41, R405). -/
def State.engineDomain (s : State) (b : Nat) : Nat := if s.flag (Fld.BAY_STATUS_STANDBY b) then 10 else 6 + b / 4

/-! ### The rate of XREF (R101) -/

/-- The XREF rate error of a tick against the PTP clock, in 2^-16 ppm: epochs counted and PTP nanoseconds passed. -/
def measuredRate (epochs ns : Nat) : Int :=
  nearest (((epochs : Real) * (9765625 / 10000) / (ns : Real) - 1) * 65536000000)

/-- The rate takes effect at a boundary (R101): from the PTP clock's readings at this boundary and the last, while PTP is
locked; else the trim of the image. At the first boundary after PTP locks the tick began unlocked, and nothing was measured
over it: the trim stays, with SRC 0, for that tick (DESIGN CHOICE, notes/assumptions/50.md). A rate the field cannot hold
reads as a free value. -/
def State.rateUpdate (s : State) (epoch ns : Nat) : State :=
  let meas := if s.flag Fld.SYS_TIME_PTP_LOCKED then
      s.ptp.lastCap.bind fun c => if c.1 < ns && c.2 < epoch then some (measuredRate (epoch - c.2) (ns - c.1)) else none
    else none
  match meas with
  | none => s.rateTrim epoch
  | some r =>
    if -8388608 ≤ r && r ≤ 8388607 then (s.rateFrom epoch r).wrB Fld.MT_XREF_SRC true
    else ((s.rateFrom epoch (toSigned 24 (s.openWord % 2 ^ 24))).wrB Fld.MT_XREF_SRC true).drawn

/-! ### The resampler (R102) -/

/-- The samples of a lane at a position of the epoch counter: the 32 that the interpolator spans and the fraction between
the two in the middle; `none` while they have not all been delivered. -/
def lanePoint (l : Lane) (pos : Real) : Option (List Sample × Real) :=
  match l.samples with
  | [] => none
  | x :: _ =>
    let q := (pos - (x.centre : Real)) / 32
    let i : Int := q.floor
    if 0 < i + 16 then none
    else
      let back : Nat := (-(i + 16)).toNat
      let span := ((l.samples.drop back).take 32).reverse
      some (span, q - (i : Real))

/-- The interpolated value of a span (R102): 1024 branches, linear between branches. -/
def interpolate (span : List Sample) (f : Real) : Real :=
  let j : Nat := (f * 1024).floor.toNat
  let g : Real := f * 1024 - (j : Real)
  (span.zipIdx.map fun (x, m) =>
    (x.x : Real) * (interpTap j m * (1 - g) + interpTap (j + 1) m * g)).sum

/-- One resampled point of a channel: its primary value, whether its span holds an INVALID or an OUT sample, and whether the
sample at or before the point itself is OUT. -/
structure Point where
  v : Real
  invalid : Bool
  out : Bool
  outHere : Bool
deriving DecidableEq, Repr

/-- A channel at a position: the lane is read at t + d, d its lane delay and phase correction (R99, R102). -/
def State.point (s : State) (b c lane : Nat) (pos : Real) : Option Point :=
  match lanePoint (s.lane lane) pos with
  | none => none
  | some (here, _) =>
    let d : Real := ((here.getD 15 { centre := 0 }).delay : Real) / 256 + s.chanPhase b c
    match lanePoint (s.lane lane) (s.later pos d) with
    | none => none
    | some (span, f) =>
      let fs : Real := if c < 3 then 1 else 1 / 2
      some { v := interpolate span f / 2 ^ 30 * fs * s.chanK b c
             invalid := span.any (·.invalid) || span.length < 32, out := span.any (·.out)
             outHere := (span.getD 15 { centre := 0 }).out }

/-- The points of the seven channels over a cycle (R103); `none` while samples are missing. -/
def State.points (s : State) (b : Nat) (start T : Real) (n : Nat := 512) : Option (List (List Point)) :=
  ((s.channelLanes b).zipIdx.map fun (lane, c) =>
    ((List.range n).map fun k => s.point b c lane (s.later start ((k : Real) * T / 512))).mapM id).mapM id

/-! ### Quantities of one cycle (R105 to R109) -/

/-- A mean over 512 products in which the held ones take the last cycle's mean. -/
def heldMean (xs : List Real) (held : List Bool) (prev : Real) : Real :=
  ((xs.zip held).map fun p => if p.2 then prev else p.1).sum / 512

/-- The fundamental rms phasor of 512 samples. -/
def fundamental (xs : List Real) : Cx := cxScale (sqrtR 2 / 512) (dft xs 1 512)

/-- The cycle before the first, whose products the spec does not state: free values. -/
def State.openCycle (s : State) : Cycle :=
  let f (i : Nat) : Real := Config.openReal s.free i
  { start := 0, stop := 0, T := 0
    p := [f 0, f 1, f 2], qs := [f 3, f 4, f 5], uu := [f 6, f 7, f 8], ii := [f 9, f 10, f 11], nn := f 12, res := f 13
    u1 := [(f 14, f 15), (f 16, f 17), (f 18, f 19)], i1 := [(f 20, f 21), (f 22, f 23), (f 24, f 25)]
    q1 := [f 26, f 27, f 28], held := true }

/-- What a cycle's channels give before no-load: the averages, phasors and marks of R105 to R108. A sample of an element is
held when the span of any of the element's lanes holds an INVALID or OUT sample (R107); a lane of no element stands alone. In
the first LOCKED cycle, and after a held one, QS takes the value of Q1. R105 gives I_RES for FOUR_WIRE; in THREE_WIRE_2E it
is 0 here (DESIGN CHOICE, notes/assumptions/141.md). -/
def State.cycleOf (s : State) (b : Nat) (y : Bay) (prev : Cycle) (stop : Real) (pts : List (List Point)) : Cycle :=
  let v (c : Nat) : List Real := (pts.getD c []).map (·.v)
  let lostCh (c : Nat) : Bool := 2 ≤ y.outFor.getD c 0
  let bad (c : Nat) : List Bool := (pts.getD c []).map fun q => q.invalid || (q.out && !lostCh c)
  let or2 (a b : List Bool) : List Bool := (a.zip b).map fun p => p.1 || p.2
  let uLag (c : Nat) : List Real := ((prev.grid.getD c []).drop 384) ++ (v c).take 384
  let prods (xs ys : List Real) : List Real := (xs.zip ys).map fun p => p.1 * p.2
  let three := List.range 3
  let held (p : Nat) : List Bool := or2 (bad p) (bad (3 + p))
  let heldOf (p c : Nat) : List Bool := if (s.elements b).contains p then held p else bad c
  let phasor (p c : Nat) (was : Cx) : Cx := if (heldOf p c).any id then was else fundamental (v c)
  let u1 := three.map fun p => phasor p p (prev.u1.getD p (0, 0))
  let i1 := three.map fun p => phasor p (3 + p) (prev.i1.getD p (0, 0))
  let q1 := three.map fun p => if (held p).any id then prev.q1.getD p 0
    else (cxMul (u1.getD p (0, 0)) (cxConj (i1.getD p (0, 0)))).2
  let resV := ((v 3).zip ((v 4).zip ((v 5).zip (v 6)))).map fun (a, b, c, n) => a + b + c + n
  let resH := or2 (or2 (heldOf 0 3) (heldOf 1 4)) (or2 (heldOf 2 5) (bad 6))
  { start := y.start, stop, T := y.T
    p := three.map fun p => heldMean (prods (v p) (v (3 + p))) (held p) (prev.p.getD p 0)
    qs := three.map fun p => if y.first || prev.held then q1.getD p 0
      else heldMean (prods (uLag p) (v (3 + p))) (held p) (prev.qs.getD p 0)
    uu := three.map fun p => heldMean (prods (v p) (v p)) (heldOf p p) (prev.uu.getD p 0)
    ii := three.map fun p => heldMean (prods (v (3 + p)) (v (3 + p))) (heldOf p (3 + p)) (prev.ii.getD p 0)
    nn := if lostCh 6 then 0 else heldMean (prods (v 6) (v 6)) (bad 6) prev.nn
    res := if lostCh 6 || s.twoElement b then 0 else heldMean (prods resV resV) resH prev.res
    u1, i1, q1
    grid := (List.range 7).map v
    held := (s.elements b).any fun p => (held p).any id }

/-- Powers of a cycle by A, B, C and total, after no-load and lost elements (R106, R108, R109). -/
structure Powers where
  p : List Real
  q1 : List Real
  qs : List Real
  s : List Real
  noLoad : List Bool
deriving DecidableEq, Repr

/-- An element uses a lane that is lost in this cycle (R108). -/
def State.elementLost (s : State) (b : Nat) (y : Bay) (p : Nat) : Bool :=
  (s.elements b).contains p && (2 ≤ y.outFor.getD p 0 || 2 ≤ y.outFor.getD (3 + p) 0)

/-- No-load (R109): the current rms at the pins is below START_I ppm of 100 mV. -/
def State.noLoadElement (s : State) (b : Nat) (c : Cycle) (p : Nat) : Bool :=
  let k := s.chanK b (3 + p)
  let lim : Real := (s.rd (Fld.BAY_THRESH_START_I b) : Real) / 10000000
  decide (c.ii.getD p 0 < lim * lim * (k * k))

/-- The powers of a cycle; with `secondary`, on K = 1 (R99, R116). -/
def State.powers (s : State) (b : Nat) (y : Bay) (c : Cycle) (secondary : Bool) : Powers :=
  let nl := (List.range 3).map fun p => (s.elements b).contains p && s.noLoadElement b c p
  let dead (p : Nat) : Bool := !(s.elements b).contains p || nl.getD p false || s.elementLost b y p
  let k (p : Nat) : Real := if secondary then s.chanK b p * s.chanK b (3 + p) else 1
  let el (f : Nat → Real) : List Real := (List.range 3).map fun p => if dead p then 0 else f p
  let ps := el fun p => rdiv (c.p.getD p 0) (k p)
  let q1 := el fun p => rdiv (c.q1.getD p 0) (k p)
  let qs := el fun p => rdiv (c.qs.getD p 0) (k p)
  let ss := el fun p => rdiv (sqrtR (c.uu.getD p 0) * sqrtR (c.ii.getD p 0)) (abs (k p))
  let pt := ps.sum
  let qt := if s.flag (Fld.BAY_CFG_Q_SRC b) then qs.sum else q1.sum
  let st := if s.flag (Fld.BAY_CFG_S_METHOD b) then sqrtR (pt * pt + qt * qt) else ss.sum
  { p := ps ++ [pt], q1 := q1 ++ [q1.sum], qs := qs ++ [qs.sum], s := ss ++ [st], noLoad := nl }

/-- The selected reactive power (R106). -/
def State.selectedQ (s : State) (b : Nat) (x : Powers) : List Real :=
  if s.flag (Fld.BAY_CFG_Q_SRC b) then x.qs else x.q1

/-- The quadrant of a cycle, 1 to 4; 0 when nothing is allocated (R111). -/
def quadrant (p q : Real) : Nat :=
  if p = 0 && q = 0 then 0 else if 0 ≤ p then (if 0 ≤ q then 1 else 4) else (if 0 ≤ q then 2 else 3)

/-- Apparent power with the direction of the active power (R110). -/
def signedS (p s : Real) : Real := if 0 < p then s else if p < 0 then -s else 0

/-- An energy in Q40.24 of the milli-unit, from a power and a duration in ns (R113). -/
def energyQ (p T : Real) : Int := nearest (p * T / 3600000000 * 2 ^ 24)

/-- Whether a bay is DEGRADED now, apart from lost elements (R114). -/
def State.bayDegraded (s : State) (b : Nat) : Bool :=
  (s.bayLanes b).any (fun n => s.flag (Fld.AQ_LANE_STAT_DEGRADED n)) || s.flag Fld.CAL_REF_MISMATCH ||
  s.track b = trkStopped

/-! ### Pulse outputs (R116, R117) -/

/-- A pulse output's working state. -/
def State.pulse (s : State) (k : Nat) : Pulse := s.met.pulses.getD k {}

/-- Replace a pulse output's working state. -/
def State.setPulse (s : State) (k : Nat) (x : Pulse) : State :=
  { s with met := { s.met with pulses := s.met.pulses.set k x } }

/-- Whether output k takes energy from a bay. -/
def State.pulseFrom (s : State) (k b : Nat) : Bool :=
  s.flag (Fld.MT_PO_CFG_ENABLE k) && s.rd (Fld.MT_PO_CFG_BAY k) = b

/-- The source power of an output (R116): a part of the powers of a cycle. -/
def State.sourcePower (s : State) (k b : Nat) (x : Powers) : Real :=
  let p := x.p.getD 3 0
  let q := (s.selectedQ b x).getD 3 0
  let a := x.s.getD 3 0
  let quad := quadrant p q
  match s.rd (Fld.MT_PO_CFG_SOURCE k) with
  | 0 => max p 0
  | 1 => max (-p) 0
  | 2 => max q 0
  | 3 => max (-q) 0
  | 4 => if 0 < p then a else 0
  | 5 => if p < 0 then a else 0
  | 6 => if quad = 1 then abs q else 0
  | 7 => if quad = 2 then abs q else 0
  | 8 => if quad = 3 then abs q else 0
  | 9 => if quad = 4 then abs q else 0
  | _ => 0

/-- µ, m or unit: how many of UNIT a milli-unit is. -/
def unitScale (u : Nat) : Real := match u with
  | 0 => 1000
  | 1 => 1
  | _ => 1 / 1000

/-- A quantum of its bay adds its energy to an output: what has not been delivered yet and the new energy are spread over
the output sample periods of the following cycle (R116). The T that gives N_s is that of the quantum (DESIGN CHOICE,
notes/assumptions/142.md). -/
def State.pulseAdd (s : State) (k b : Nat) (prim sec : Powers) (T : Real) : State :=
  if !s.pulseFrom k b then s
  else
    let x := if s.flag (Fld.MT_PO_CFG_SECONDARY k) then sec else prim
    let e := nearest (s.sourcePower k b x * T / 3600000000 * unitScale (s.rd (Fld.MT_PO_CFG_UNIT k)) * 2 ^ 24)
    let y := s.pulse k
    let rest := y.rest + e.toNat
    let n := max 1 (nearest (T / 31250)).toNat
    s.setPulse k { y with rest, left := n, part := rest / n }

/-- One output sample period of an output (R116). An output whose bay is STOPPED or OFF adds no energy (R117). -/
def State.pulseStep (s : State) (k : Nat) : State :=
  let y := s.pulse k
  let t := s.track (s.rd (Fld.MT_PO_CFG_BAY k))
  let quant := s.rd (Fld.MT_PO_QUANT_QUANT k) * 2 ^ 16
  if !s.flag (Fld.MT_PO_CFG_ENABLE k) || t = trkOff || t = trkStopped || y.left = 0 || quant = 0 then s
  else
    let add := if y.left = 1 then y.rest else y.part
    let acc := y.acc + add
    let n := acc / quant
    let back := s.rd (Fld.MT_PO_STAT_BACKLOG k)
    let s := s.setPulse k { y with acc := acc % quant, rest := y.rest - add, left := y.left - 1 }
    let s := if 255 < back + n then s.wrB (Fld.MT_PO_STAT_OVERRUN k) true else s
    s.wr (Fld.MT_PO_STAT_BACKLOG k) (min 255 (back + n))

/-- A pulse starts (R117). -/
def State.pulseStart (s : State) (k : Nat) : State :=
  let y := s.pulse k
  let width := s.rd (Fld.MT_PO_CFG_WIDTH k)
  let back := s.rd (Fld.MT_PO_STAT_BACKLOG k)
  if !s.flag (Fld.MT_PO_CFG_ENABLE k) || y.on || back = 0 ||
      y.endedAt.any (fun e => s.lastSample < e + 32 * width) then s
  else
    let s := s.setPulse k { y with on := true, startedAt := s.lastSample }
    (s.wr (Fld.MT_PO_STAT_BACKLOG k) (back - 1)).wrap (Fld.MT_PO_STAT_COUNT k)

/-- A pulse ends WIDTH periods after its start (R117). -/
def State.pulseEnd (s : State) (k : Nat) : State :=
  let y := s.pulse k
  if !y.on then s
  else s.setPulse k { y with on := false, endedAt := some (y.startedAt + 32 * s.rd (Fld.MT_PO_CFG_WIDTH k)) }

/-- The level of a pulse output's pin. -/
def State.pulsePin (s : State) (k : Nat) : Bool := (s.pulse k).on != s.flag (Fld.MT_PO_CFG_POLARITY k)

/-- A configuration load has changed an output: its accumulator, spread and backlog clear (R117). -/
def State.pulseClear (s : State) (k : Nat) : State :=
  let y := s.pulse k
  (s.setPulse k { y with acc := 0, rest := 0, left := 0, part := 0 }).wr (Fld.MT_PO_STAT_BACKLOG k) 0

def execPoPulseStart (k : Fin 16) (s : State) : Host.Outcome State Fault Refusal := .next (s.pulseStart k.val)

def execPoPulseEnd (k : Fin 16) (s : State) : Host.Outcome State Fault Refusal := .next (s.pulseEnd k.val)

/-! ### Tracking (R103, R104) -/

/-- The window in progress cannot go on (R121): it is discarded and counted. -/
def State.dropWindow (s : State) (b : Nat) : State :=
  match (s.bay b).win with
  | none => s
  | some _ => (s.setBay b { s.bay b with win := none }).count (Fld.BAY_HSKIP_INVALID b)

/-- Enter a tracking state (R104). -/
def State.setTrack (s : State) (b v : Nat) : State :=
  let was := s.track b
  let s := (s.wr (Fld.BAY_STATUS_TRACK b) v).wrB (Fld.BAY_STATUS_FREQ_VALID b) (v = trkLocked)
  let s := if was = trkLocked && v ≠ trkLocked then (s.wrB (Fld.BAY_QUAL_UNLOCK_SEEN b) true).dropWindow b else s
  let s := if v = trkFree then s.wr (Fld.BAY_FREQ_FREQ b) (s.nomF b * 2 ^ 24) else s
  let s := if v = trkLocked then s.setBay b { s.bay b with everLocked := true } else s
  let bits (t : Nat) : Nat := ((List.range 16).map fun n => if s.track n = t then 2 ^ n else 0).sum
  (s.wr Fld.MT_STATUS_FREE_RUN (bits trkFree)).wr Fld.MT_STATUS_LOCKED (bits trkLocked)

/-- The positive-sequence fundamental voltage at the pins, with the polarity of K, as its phase-to-neutral phasor. -/
def State.posSeq (s : State) (b : Nat) (c : Cycle) : Cx :=
  let pin (p : Nat) : Cx := cxScale (rdiv 1 (abs (s.chanK b p))) (c.u1.getD p (0, 0))
  if s.twoElement b then cxScale (1 / 3) (cxAdd (pin 0) (cxMul opA2 (pin 2)))
  else cxScale (1 / 3) (cxAdd (pin 0) (cxAdd (cxMul opA (pin 1)) (cxMul opA2 (pin 2))))

/-- The duration of the cycle that ends at the first θ = 0 at least half a nominal cycle after its start (R104), from the
angle θ at its start in turns and the frequency in Hz. -/
def lockDuration (nom theta f : Real) : Real :=
  let per : Real := rdiv 1000000000 f
  let first : Real := (-theta - ((-theta).floor : Int)) * per
  let more : Int := (rdiv (nom / 2 - first) per).ceil
  first + (max more 0 : Int) * per

/-- What the end of a cycle makes of the tracking (R103, R104): the bay's working state with the next cycle begun, and the
tracking state it is in. -/
def State.trackEnd (s : State) (b : Nat) (y : Bay) (c : Cycle) : Bay × Nat :=
  let now := s.track b
  let v := s.posSeq b c
  let theta := wrapTurn (cxAngle v + 1 / 4)
  let dth := wrapTurn (theta - y.theta.getD theta)
  let f : Real := rdiv ((1 + dth) * 1000000000) y.tPrev
  let known := y.theta.isSome
  let inRange : Bool := decide (425 / 10 ≤ f) && decide (f ≤ 69)
  let strong : Bool := decide ((2 / 100 : Real) * (2 / 100) ≤ cxSq v)
  let weak : Bool := decide (cxSq v < (1 / 100 : Real) * (1 / 100))
  let good := if strong && known && inRange then y.good + 1 else 0
  let bad := if weak || (known && !inRange) then y.bad + 1 else 0
  let state := y.next.getD now
  let base : Bay := { y with start := c.stop, tPrev := y.T, n := y.n + 1, theta := some theta, f, good, bad,
                             next := none, short := false, first := false, oldSet := none }
  let nom := s.nomT b
  if state = trkLocked then
    if now ≠ trkLocked then
      ({ base with T := rdiv 1000000000 f, first := true, good := 0, bad := 0 }, trkLocked)
    else
      let T := rdiv y.T (1 + (dth + theta / 4))
      if 2 ≤ bad then
        ({ base with T := max (nom / 2) (min (3 / 2 * nom) T), next := some trkFree, short := true, bad := 0 }, trkLocked)
      else ({ base with T }, trkLocked)
  else if now = trkLocked then ({ base with T := nom, good := 0, bad := 0 }, trkFree)
  else if 5 ≤ good then
    ({ base with T := lockDuration nom (wrapTurn (theta + f * y.T / 1000000000)) f, next := some trkLocked, short := true,
                 good := 0 }, trkFree)
  else ({ base with T := nom }, trkFree)

/-- A cycle credited to a restarted engine ends (R40): the engine knows no phasor, and the next cycle takes its duration from
the frequency last held in BAY_FREQ. -/
def State.trackResume (s : State) (b : Nat) (y : Bay) (c : Cycle) : Bay × Nat :=
  let state := y.next.getD (s.track b)
  let T := if state = trkLocked then rdiv (1000000000 * 2 ^ 24) (s.rd (Fld.BAY_FREQ_FREQ b)) else s.nomT b
  ({ y with start := c.stop, T, tPrev := y.T, n := y.n + 1, theta := none, f := 0, good := 0, bad := 0, next := none
            short := false, first := state = trkLocked && s.track b ≠ trkLocked, oldSet := none }, state)

/-- Begin tracking with a sample: cycle 0 starts there (R104). -/
def State.trackStart (s : State) (b : Nat) (centre : Int) : State :=
  let y := s.bay b
  let z : Bay := { y with
    start := centre, T := s.nomT b, tPrev := 0, n := 0, theta := none, f := 0, good := 0, bad := 0, next := none
    short := false, first := false, prev := none, dirFor := 0, credit := false, half := 0, win := none, oldSet := none
    outFor := List.replicate 7 0 }
  (s.setBay b z).setTrack b trkFree

/-- The bay ends its cycle in progress at an epoch, as a SHORT_CYCLE, and goes on in a tracking state (R104, R405). -/
def State.cutCycle (s : State) (b : Nat) (epoch : Real) (v : Nat) : State :=
  let y := s.bay b
  if s.track b = trkOff || s.track b = trkStopped || epoch ≤ y.start then s
  else s.setBay b { y with T := s.between y.start epoch, next := some v, short := true }

/-! ### Direction (R112) -/

/-- The direction state after a cycle. -/
def State.direction (s : State) (b : Nat) (x : Powers) (T : Real) : State :=
  let s := (s.elements b).foldl (fun s p =>
    if x.noLoad.getD p false then s
    else
      let f := [Fld.BAY_STATUS_DIR_A, Fld.BAY_STATUS_DIR_B, Fld.BAY_STATUS_DIR_C].getD p Fld.BAY_STATUS_DIR_A
      s.wrB (f b) (decide (x.p.getD p 0 < 0))) s
  let pt := x.p.getD 3 0
  let y := s.bay b
  if (s.elements b).all fun p => x.noLoad.getD p false then s
  else
    let rev := s.flag (Fld.BAY_STATUS_DIR b)
    if decide (pt < 0) = rev then s.setBay b { y with dirFor := 0 }
    else
      let d := y.dirFor + T
      if d < 2000000000 then s.setBay b { y with dirFor := d }
      else
        let s := (s.setBay b { y with dirFor := 0 }).wrB (Fld.BAY_STATUS_DIR b) (!rev)
        s.raise (if rev then evForward else evReverse) b (wordBytes (toB32 pt))

/-! ### Per-tick values (R114) -/

/-- The names of the per-tick registers of A, B, C and the total or neutral. -/
def tickFields : List (List (Nat → Field)) :=
  [[Fld.BAY_P_A_VALUE, Fld.BAY_P_B_VALUE, Fld.BAY_P_C_VALUE, Fld.BAY_P_T_VALUE],
   [Fld.BAY_Q1_A_VALUE, Fld.BAY_Q1_B_VALUE, Fld.BAY_Q1_C_VALUE, Fld.BAY_Q1_T_VALUE],
   [Fld.BAY_QS_A_VALUE, Fld.BAY_QS_B_VALUE, Fld.BAY_QS_C_VALUE, Fld.BAY_QS_T_VALUE],
   [Fld.BAY_S_A_VALUE, Fld.BAY_S_B_VALUE, Fld.BAY_S_C_VALUE, Fld.BAY_S_T_VALUE],
   [Fld.BAY_URMS_A_VALUE, Fld.BAY_URMS_B_VALUE, Fld.BAY_URMS_C_VALUE],
   [Fld.BAY_IRMS_A_VALUE, Fld.BAY_IRMS_B_VALUE, Fld.BAY_IRMS_C_VALUE, Fld.BAY_IRMS_N_VALUE, Fld.BAY_IRES_VALUE]]

/-- Store binary32 values in registers. -/
def State.putB32 (s : State) (b : Nat) (fs : List (Nat → Field)) (vs : List Real) : State :=
  (fs.zip vs).foldl (fun s (f, v) => s.wr (f b) (toB32 v).toNat) s

/-- Write the per-tick values of the cycles of a tick; the frequency is that of the cycles that have an f_meas. -/
def State.tickValues (s : State) (b : Nat) (cs : List CycleSum) : State :=
  let T : Real := (cs.map (·.T)).sum
  let mean (f : CycleSum → Real) : Real := rdiv (cs.map fun c => f c * c.T).sum T
  let four (f : CycleSum → List Real) : List Real := (List.range 4).map fun i => mean fun c => (f c).getD i 0
  let ps := four (·.p)
  let ss := four (·.s)
  let vals := [ps, four (·.q1), four (·.qs), ss,
    (List.range 3).map fun i => sqrtR (mean fun c => c.uu.getD i 0),
    ((List.range 4).map fun i => sqrtR (mean fun c => c.ii.getD i 0)) ++ [sqrtR (mean (·.res))]]
  let s := (tickFields.zip vals).foldl (fun s (fs, vs) => s.putB32 b fs vs) s
  let pf (i : Nat) : Nat := ofSigned 32 (if ss.getD i 0 = 0 then 0 else nearest (ps.getD i 0 / ss.getD i 0 * 2 ^ 30))
  let s := ([Fld.BAY_PF_A_PF, Fld.BAY_PF_B_PF, Fld.BAY_PF_C_PF, Fld.BAY_PF_T_PF].zipIdx).foldl
    (fun s (f, i) => s.wr (f b) (pf i)) s
  let known := cs.filter fun (c : CycleSum) => c.f ≠ 0
  let fs : Real := (known.map fun (c : CycleSum) => rdiv 1 c.f).sum
  let s := if s.track b = trkLocked && fs ≠ 0 then
      s.wr (Fld.BAY_FREQ_FREQ b) (nearest ((known.length : Real) / fs * 2 ^ 24)).toNat
    else s
  s.wr (Fld.BAY_QUAL_CYCLES b) cs.length

/-- The per-tick values and status of a bay for the tick that ended at a boundary (R114): over the cycles whose end epoch lies
before it. -/
def State.bayTickNow (s : State) (b epoch : Nat) : State :=
  let y := s.bay b
  let ended := y.cycles.filter fun (c : CycleSum) => c.endEpoch < epoch
  let s := s.setBay b { y with
    tickDue := none, cycles := y.cycles.filter fun (c : CycleSum) => !(c.endEpoch < epoch) }
  let s := s.wrB (Fld.BAY_STATUS_DEGRADED b) (s.bayOn b && (s.bayDegraded b || ended.any (·.lost)))
  if ended.isEmpty then s.wr (Fld.BAY_QUAL_CYCLES b) 0
  else (s.tickValues b ended).wrap (Fld.BAY_SEQ_SEQ b)

/-- A bay's per-tick values are written once no cycle in progress ends before the boundary they wait for (R114: within 2 ms
of it). -/
def State.bayTickDue (s : State) (b : Nat) : State :=
  let y := s.bay b
  match y.tickDue with
  | none => s
  | some e =>
    let t := s.track b
    if (t = trkFree || t = trkLocked) && (s.later y.start y.T).floor < (e : Int) then s else s.bayTickNow b e

/-- A boundary: the values of the tick before are written at the latest now, those of the tick just ended are due. -/
def State.bayTick (s : State) (b epoch : Nat) : State :=
  let s := match (s.bay b).tickDue with
    | none => s
    | some e => s.bayTickNow b e
  (s.setBay b { s.bay b with tickDue := some epoch }).bayTickDue b

/-- A cycle joins the values of its tick. -/
def State.addCycle (s : State) (b : Nat) (c : CycleSum) : State :=
  s.setBay b { s.bay b with cycles := (s.bay b).cycles ++ [c] }

/-! ### The cycle end (R103 to R113) -/

/-- For how many cycles each channel's lane has been OUT, after a cycle: an OUT sample within the cycle counts (R108). -/
def outAfter (y : Bay) (pts : List (List Point)) : List Nat :=
  (List.range 7).map fun c =>
    if ((pts.getD c []).getLast?.elim false (·.outHere)) then y.outFor.getD c 0 + 1 else 0

/-- The 32 kS/s samples held in a cycle (R113): those tagged INVALID on the bay's lanes; all samples of a credited cycle
(R40). -/
def State.heldIn (s : State) (b : Nat) (y : Bay) (c : Cycle) : Nat :=
  if y.credit then (nearest (c.T / 31250)).toNat
  else ((s.channelLanes b).map fun n => ((s.lane n).samples.filter fun x =>
    x.invalid && decide (c.start ≤ (x.centre : Real)) && decide ((x.centre : Real) < c.stop)).length).sum

/-- The quantum of a cycle (R113). -/
def State.quantumOf (s : State) (b : Nat) (y : Bay) (c : Cycle) (x : Powers) (lost : Bool) : Quantum :=
  let q := s.selectedQ b x
  { owner := b, endEpoch := c.stop.floor.toNat
    w := x.p.map fun p => energyQ p c.T
    var := q.map fun p => energyQ p c.T
    va := (x.p.zip x.s).map fun (p, a) => energyQ (signedS p a) c.T
    quad := quadrant (x.p.getD 3 0) (q.getD 3 0)
    held := c.held, degraded := s.bayDegraded b || lost, provisional := s.flag (Fld.BAY_STATUS_PROVISIONAL b)
    short := y.short, freeRun := s.track b = trkFree, lost
    noLoad := (x.noLoad.zipIdx.map fun (z, i) => if z then 2 ^ i else 0).sum
    endFrac := ((c.stop - (c.stop.floor : Int)) * 65536).floor.toNat, heldSamples := s.heldIn b y c
    duration := (nearest c.T).toNat }

/-- The 120 bytes of a bay quantum as it crosses the Vein (R113); an energy its field cannot hold wraps. -/
def bayQuantumBytes (k : Quantum) : List Byte :=
  let bit (n : Nat) (v : Bool) : Nat := if v then 2 ^ n else 0
  let four (l : List Int) : List Byte := (List.range 4).flatMap fun i => beBytes 8 (ofSigned 64 (l.getD i 0))
  beBytes 1 k.owner ++ beBytes 1 (bit 0 k.short + bit 1 k.held + bit 2 k.freeRun + bit 3 k.degraded +
    bit 4 k.provisional + bit 5 k.lost) ++ beBytes 1 k.noLoad ++ beBytes 1 k.quad ++ beBytes 8 k.endEpoch ++
  beBytes 2 k.endFrac ++ beBytes 2 k.heldSamples ++ beBytes 4 k.duration ++ four k.w ++ four k.var ++ four k.va ++
  beBytes 4 0

/-- Status bits of the last cycle (R109, R111). -/
def State.cycleStatus (s : State) (b : Nat) (x : Powers) (quad : Nat) : State :=
  let s := if quad = 0 then s else s.wr (Fld.BAY_STATUS_QUAD b) (quad - 1)
  let s := s.wrB (Fld.BAY_STATUS_NO_LOAD_ALL b) ((s.elements b).all fun p => x.noLoad.getD p false)
  let s := s.wrB (Fld.BAY_STATUS_NO_LOAD_A b) (x.noLoad.getD 0 false)
  let s := s.wrB (Fld.BAY_STATUS_NO_LOAD_B b) (x.noLoad.getD 1 false)
  s.wrB (Fld.BAY_STATUS_NO_LOAD_C b) (x.noLoad.getD 2 false)

/-- A cycle is complete: its quantum is posted, its energies feed the outputs, direction, status and per-tick values
follow. Quanta posted after a chip freeze are discarded (R43). -/
def State.finishCycle (s : State) (b : Nat) (y : Bay) (c : Cycle) : State :=
  let x := s.powers b y c false
  let lostN := ((s.elements b).filter fun p => s.elementLost b y p).length
  let k := s.quantumOf b y c x (0 < lostN)
  let s := if s.led.frozen then s else { s with led := { s.led with posted := s.led.posted ++ [k] } }
  let s := (List.range 16).foldl (fun s o => s.pulseAdd o b x (s.powers b y c true) c.T) s
  let s := ((s.cycleStatus b x k.quad).direction b x c.T).count (Fld.BAY_LOST_LOST b) lostN
  let s := if 0 < lostN then s.wrB (Fld.BAY_QUAL_LOST_SEEN b) true else s
  let s := if y.short then s.wrB (Fld.BAY_QUAL_SHORT_SEEN b) true else s
  s.addCycle b {
    endEpoch := k.endEpoch, T := c.T, f := (s.bay b).f, p := x.p, q1 := x.q1, qs := x.qs, s := x.s
    uu := c.uu, ii := c.ii ++ [c.nn], res := c.res, lost := 0 < lostN }

/-- Whether a base window can be formed (R121). -/
def State.windowReady (s : State) (b : Nat) : Bool := s.chip = chipFull && s.domOn 11 && s.track b = trkLocked

/-- A job starts on a free accelerator that is in service, SA0 first, or joins the queue, which is in order of integer end
epochs and then of bays; a full queue, or two stopped accelerators, lose it (R122, R123). -/
def State.queueJob (s : State) (j : HarmJob) : State :=
  let down (n : Fin 2) : Bool := s.esc.down.contains (.accel n)
  let busy (n : Fin 2) : Bool := down n || s.esc.restarting.contains (.accel n)
  if down 0 && down 1 then s.count (Fld.BAY_HSKIP_FAULT j.bay)
  else if s.met.sa0.isNone && !busy 0 then { s with met := { s.met with sa0 := some j } }
  else if s.met.sa1.isNone && !busy 1 then { s with met := { s.met with sa1 := some j } }
  else if 32 ≤ s.met.queue.length then s.count (Fld.BAY_HSKIP_FAULT j.bay)
  else
    let stop (x : HarmJob) : Int := (x.cycles.getLast?.elim 0 fun (w : WinCycle) => w.stop).floor
    let first (x : HarmJob) : Bool := decide (stop x < stop j) || (decide (stop x = stop j) && x.bay ≤ j.bay)
    let before := s.met.queue.filter first
    let after := s.met.queue.filter fun x => !first x
    { s with met := { s.met with queue := before ++ [j] ++ after } }

/-- A completed cycle joins the base window, which becomes a job when it is full; the next window begins with the next
cycle (R121, R122). `was` is the tracking state of the cycle. A window in progress when STATE leaves FULL or DSA goes off is
dropped without counting (DESIGN CHOICE, notes/assumptions/144.md). -/
def State.windowCycle (s : State) (b : Nat) (y : Bay) (c : Cycle) (lost : Bool) (was : Nat) : State :=
  let s := match y.win with
    | none => s
    | some cs =>
      if y.short || c.held || lost || was ≠ trkLocked then s.dropWindow b
      else if !(s.chip = chipFull && s.domOn 11) then s.setBay b { s.bay b with win := none }
      else
        let cs := cs ++ [{ start := c.start, stop := c.stop, T := c.T, uu := c.uu, grid := c.grid }]
        let n := if s.nomF b = 60 then 12 else 10
        if cs.length < n then s.setBay b { s.bay b with win := some cs }
        else
          let j : HarmJob := { bay := b, cycles := cs, narrow := s.rd (Fld.AQ_LANE_CFG_FILTER (4 * b)) = 1 }
          (s.setBay b { s.bay b with win := some [] }).queueJob j
  if (s.bay b).win.isNone && s.windowReady b then s.setBay b { s.bay b with win := some [] } else s

/-- A cycle of a bay with a zero-sum declaration joins the statistics of the window it ends in (R79): under load, when the
fundamental of every lane of the sum is at least 1 % of the reference current at the pins; the equations of the fit of the
residual to the time derivatives of B, C and N, with their in-phase parts. Time derivatives are central differences of the
512 resampled values (DESIGN CHOICE, notes/assumptions/48.md). -/
def State.zeroSumAdd (s : State) (b : Nat) (c : Cycle) : State :=
  let lanes := s.zeroSumLanes b
  if lanes.isEmpty || c.held then s
  else
    let i (p : Nat) : List Real := c.grid.getD (3 + p) []
    let loaded := lanes.all fun p =>
      decide ((s.chanK b (3 + p)) ^ 2 ≤ 1000000 * cxSq (fundamental (i p)))
    let inner (xs : List Real) : List Real := (xs.drop 1).take 510
    let slope (xs : List Real) : List Real :=
      ((xs.drop 2).zip xs).map fun (x : Real × Real) => rdiv ((x.1 - x.2) * 256) c.T
    let res := inner ((List.range 512).map fun k => (lanes.map fun p => (i p).getD k 0).sum)
    let free := lanes.drop 1
    let cols := (free.map fun p => slope (i p)) ++ (free.map fun p => inner (i p))
    let eqs := cols.map fun x => (cols.map fun y => trim (dot x y)) ++ [trim (dot x res)]
    let add (xs ys : List Real) : List Real := if xs.isEmpty then ys else (xs.zip ys).map fun (x : Real × Real) => x.1 + x.2
    let k := windowOf c.stop.floor.toNat * 16 + b
    let z := storeGet (fun _ => ({} : ZeroSum)) s.acq.zsums k
    let z : ZeroSum := {
      loaded := z.loaded + (if loaded then c.T else 0)
      rr := z.rr + dot res res
      lanes := add z.lanes (lanes.map fun p => dot (inner (i p)) (inner (i p)))
      eqs := if z.eqs.isEmpty then eqs else (z.eqs.zip eqs).map fun (x : List Real × List Real) => add x.1 x.2 }
    { s with acq := { s.acq with zsums := storeSet (fun _ => ({} : ZeroSum)) s.acq.zsums k z } }

/-- A bay's fundamental cycle ends (R103): nothing happens while its samples have not been delivered. A cycle whose
accumulation was lost with its engine is credited with the last cycle's average power (R40); the engine goes on with the
frequency in BAY_FREQ. -/
def State.cycleEnd (s : State) (b : Nat) : State :=
  let y := s.bay b
  let was := s.track b
  if was ≠ trkFree && was ≠ trkLocked then s
  else
    let stop := s.later y.start y.T
    let restarting := s.esc.restarting.any (s.meteredBy b)
    let prev := y.prev.getD s.openCycle
    let fin (s : State) (x : Bay × Nat) (c : Cycle) (out : List Nat) : State :=
      let s := if y.prev.isNone then s.drawn else s
      let s := s.setBay b { x.1 with prev := some c, outFor := out, credit := restarting }
      let lost := (s.elements b).any fun p => s.elementLost b y p
      let s := s.finishCycle b y c
      let s := if x.2 = s.track b then s else s.setTrack b x.2
      (s.windowCycle b y c lost was).bayTickDue b
    if y.credit then
      let n := (nearest (y.T / 31250)).toNat
      let c : Cycle := { prev with start := y.start, stop, T := y.T, held := true }
      let s := (s.count (Fld.BAY_HELD_HELD b) n).wrB (Fld.BAY_QUAL_HELD_SEEN b) true
      fin s (s.trackResume b y c) c y.outFor
    else
      match s.points b y.start y.T with
      | none => s
      | some pts =>
        let c := s.cycleOf b y prev stop pts
        fin (s.zeroSumAdd b c) (s.trackEnd b y c) c (outAfter y pts)

/-! ### Output samples and the bays (R104, R107, R116) -/

/-- What an output sample means to a bay: INVALID samples of its lanes count as held (R107); an enabled bay that is OFF, and
has an engine, starts with the first sample after the INVALID count of its lanes (R104). A STOPPED bay's registers do not
advance (R42). -/
def State.baySample (s : State) (b : Nat) : State :=
  let heads := (s.bayLanes b).map fun n => (s.lane n).samples.head?
  let inv := (heads.filter fun x => x.any (·.invalid)).length
  let t := s.track b
  if !s.bayOn b || t = trkStopped then s
  else if 0 < inv then (s.count (Fld.BAY_HELD_HELD b) inv).wrB (Fld.BAY_QUAL_HELD_SEEN b) true
  else if t = trkOff && s.rd (engField b) ≠ 0xE && s.domOn (s.engineDomain b) then
    match heads.head? with
    | some (some x) => s.trackStart b x.centre
    | _ => s
  else s

/-- The output samples of all lanes, and what they mean to the bays and the pulse outputs. -/
def State.outputSample (s : State) (conv : List (List LaneConv)) : State :=
  let s := s.lanesSample conv
  let s := (List.range 16).foldl State.baySample s
  (List.range 16).foldl State.pulseStep s

/-- LANE_OUTPUT_SAMPLE (R50): the conversions of the 32 epochs up to the next sample epoch, of all 76 lanes. -/
def execLaneOutputSample (conv : List (List LaneConv)) (s : State) : Host.Outcome State Fault Refusal :=
  if conv.length = 76 && conv.all (fun c => c.length = 32) then
    .next (if s.core.running && s.flag Fld.AQ_STATUS_RUN then s.outputSample conv else s)
  else .fault .illFormed

end Sys2Proof.Machine
end

