-- ==== Sys2Proof/Machine/Quality.lean ====
section
/-!
DEFINITION. Harmonics and power quality (R120 to R142): half-cycle rms values, dips, swells and interruptions, the spectral
accelerators, aggregation over 150/180 cycles and 10 min, limits and the recorder's statistics.
-/

namespace Sys2Proof.Machine

/-! ### Half-cycle rms (R134) -/

/-- The voltage channels of the half-cycle values, sample by sample, as mean squares: A, B, C; in THREE_WIRE_2E U_AB, U_CA
and U_CB, u_CA = u_CB − u_AB. R107 holds the sums of R105 only: the resampled values enter as they are, those of INVALID and OUT
samples too (DESIGN CHOICE, notes/assumptions/143.md). -/
def State.halfSquares (s : State) (b : Nat) (grid : List (List Real)) : List Real :=
  let v (c : Nat) : List Real := grid.getD c []
  let chans := if s.twoElement b then [v 0, ((v 2).zip (v 0)).map fun p => p.1 - p.2, v 2] else [v 0, v 1, v 2]
  chans.map fun xs => dot xs xs / 512

/-- The next half-cycle value of a bay: the 512 samples it covers, its end instant and the start of its half cycle, from which
an event's interval counts (R133); `none` when it cannot be formed. The number of the half cycle is `y.half`. -/
def State.halfGrid (s : State) (b : Nat) (y : Bay) : Option (List (List Real) × Real × Real) :=
  let prev := y.prev
  if y.half % 2 = 0 then
    match prev, s.points b y.start y.T 256 with
    | some c, some pts =>
      let now := pts.map fun ps => ps.map (·.v)
      some ((c.grid.zip now).map (fun (g, n) => g.drop 256 ++ n), s.later y.start (y.T / 2), y.start)
    | _, _ => none
  else if y.half + 1 = 2 * y.n then prev.map fun c => (c.grid, c.stop, s.later c.start (c.T / 2))
  else (s.points b y.start y.T).map fun pts => (pts.map fun ps => ps.map (·.v), s.later y.start y.T, s.later y.start (y.T / 2))

/-! ### Dips and swells (R135 to R138) -/

/-- A threshold in units of 0.5 % of U_din, as the square of a ratio. -/
def ratioSq (n : Nat) : Real := ((n : Real) / 200) * ((n : Real) / 200)

/-- A mask of the channels that meet a test. -/
def chanMask (rs : List Real) (f : Real → Bool) : Nat := ((rs.zipIdx.map fun (r, i) => if f r then 2 ^ i else 0)).sum

/-- Report a dip or swell that ends at an instant (R136, R138): BAY_EVT_ registers and counters, and the event for the intake,
which a chip freeze suppresses (R137). Kinds 1 SAG, 2 SWELL, 3 INTERRUPTION. -/
def State.reportEvent (s : State) (b kind : Nat) (e : QEvent) (stop : Real) (down aborted : Bool) : State × List Offer :=
  let dur := (nearest ((s.corrected stop - e.startNs) / 1000000)).toNat
  let ext := min (nearest (sqrtR e.ext * 10000)).toNat 65535
  let s := s.wr (Fld.BAY_EVT_LAST_KIND b) kind
  let s := (s.wrB (Fld.BAY_EVT_LAST_POWERDOWN b) down).wrB (Fld.BAY_EVT_LAST_ABORTED b) aborted
  let s := (s.wr (Fld.BAY_EVT_LAST_CHANNELS b) e.chans).wr (Fld.BAY_EVT_LAST_EXT b) ext
  let s := s.wr (Fld.BAY_EVT_DUR_DUR b) dur
  let s := s.count (match kind with
    | 1 => Fld.BAY_EVT_CNT_SAG b
    | 2 => Fld.BAY_EVT_CNT_SWELL b
    | _ => Fld.BAY_EVT_CNT_INT b)
  let y := s.bay b
  let keep := y.spans.filter fun p => decide (e.since < p.2 + 30720000)
  let s := s.setBay b { y with spans := keep ++ [(e.since, stop)] }
  if s.chip = chipFrozen then (s, [])
  else
    let bits := e.chans + (if down then 8 else 0) + (if aborted then 16 else 0) +
      (if s.flag (Fld.BAY_STATUS_PROVISIONAL b) then 32 else 0)
    let code := match kind with
      | 1 => 0x40
      | 2 => 0x41
      | _ => 0x42
    (s, [(code, b, beBytes 5 e.opsec ++ beBytes 8 e.start.floor.toNat ++ beBytes 4 dur ++ beBytes 2 ext ++ beBytes 1 bits)])

/-- The kind of a dip. -/
def dipKind (e : QEvent) : Nat := if e.int then 3 else 1

/-- The dip after a half-cycle value (R135, R136), and the event of its end. -/
def State.stepDip (s : State) (b : Nat) (rs : List Real) (stop since : Real) : State × List Offer :=
  let sag := s.rd (Fld.BAY_QTHR_SAG b)
  let below (r : Real) : Bool := decide (r < ratioSq sag)
  let allInt := rs.all fun r => decide (r < ratioSq (s.rd (Fld.BAY_QTHR_INT b)))
  let low := rs.foldl min (rs.headD 0)
  let y := s.bay b
  match y.dip with
  | none =>
    if rs.any below then
      (s.setBay b { y with dip := some {
        start := stop, startNs := s.corrected stop, since, opsec := s.opsec, ext := low, chans := chanMask rs below, int := allInt } }, [])
    else (s, [])
  | some e =>
    let e : QEvent := { e with ext := min e.ext low, chans := e.chans ||| chanMask rs below, int := e.int || allInt }
    if rs.all fun r => decide (ratioSq (sag + s.rd (Fld.BAY_QTHR_HYST b)) ≤ r) then
      (s.setBay b { y with dip := none }).reportEvent b (dipKind e) e stop false false
    else (s.setBay b { y with dip := some e }, [])

/-- The swell after a half-cycle value, and the event of its end. -/
def State.stepSwell (s : State) (b : Nat) (rs : List Real) (stop since : Real) : State × List Offer :=
  let sw := s.rd (Fld.BAY_QTHR_SWELL b)
  let above (r : Real) : Bool := decide (ratioSq sw < r)
  let high := rs.foldl max (rs.headD 0)
  let y := s.bay b
  match y.swell with
  | none =>
    if rs.any above then
      (s.setBay b { y with swell := some {
        start := stop, startNs := s.corrected stop, since, opsec := s.opsec, ext := high, chans := chanMask rs above } }, [])
    else (s, [])
  | some e =>
    let e : QEvent := { e with ext := max e.ext high, chans := e.chans ||| chanMask rs above }
    if rs.all fun r => decide (r ≤ ratioSq (sw - s.rd (Fld.BAY_QTHR_HYST b))) then
      (s.setBay b { y with swell := none }).reportEvent b 2 e stop false false
    else (s.setBay b { y with swell := some e }, [])

/-- The bits of BAY_HSTAT that follow a half-cycle value. -/
def State.halfStatus (s : State) (b : Nat) (rs : List Real) : State :=
  let y := s.bay b
  let s := s.wr (Fld.BAY_HSTAT_BELOW_SAG b) (chanMask rs fun r => decide (r < ratioSq (s.rd (Fld.BAY_QTHR_SAG b))))
  let s := s.wr (Fld.BAY_HSTAT_ABOVE_SWELL b) (chanMask rs fun r => decide (ratioSq (s.rd (Fld.BAY_QTHR_SWELL b)) < r))
  let s := (s.wrB (Fld.BAY_HSTAT_DIP_ACT b) y.dip.isSome).wrB (Fld.BAY_HSTAT_SWELL_ACT b) y.swell.isSome
  s.wrB (Fld.BAY_HSTAT_INT_SEEN b) (y.dip.any (·.int))

/-- A half-cycle rms value of a bay is refreshed (R134, R135): nothing happens while it cannot be formed. -/
def State.halfCycle (s : State) (b : Nat) : State :=
  let t := s.track b
  if t ≠ trkFree && t ≠ trkLocked then s
  else
    let y := s.bay b
    let y : Bay := { y with half := max y.half (2 * y.n - 1) }
    if y.half = 0 then s.setBay b { y with half := 1 }
    else
      match s.halfGrid b y with
      | none => s
      | some (grid, stop, since) =>
        let s := s.setBay b { y with half := y.half + 1 }
        let udin := b32 (s.word (Adr.BAY_UDIN b))
        if !y.everLocked || udin = 0 then s
        else
          let rs := (s.halfSquares b grid).map fun q => q / (udin * udin)
          let d := s.stepDip b rs stop since
          let w := d.1.stepSwell b rs stop since
          (w.1.raiseTogether (d.2 ++ w.2)).halfStatus b rs

def execHalfCycleRms (bay : Fin 16) (s : State) : Host.Outcome State Fault Refusal := .next (s.halfCycle bay.val)

/-- Close the events in progress of a bay at once (R137): at a power-fail warning, or when its metering stops; with the events
for the intake. -/
def State.endEvents (s : State) (b : Nat) (down : Bool) : State × List Offer :=
  let y := s.bay b
  let stop : Real := s.epoch
  let s := s.setBay b { y with dip := none, swell := none }
  let d := match y.dip with
    | some e => s.reportEvent b (dipKind e) e (max stop e.start) down (!down)
    | none => (s, [])
  let w := match y.swell with
    | some e => d.1.reportEvent b 2 e (max stop e.start) down (!down)
    | none => (d.1, [])
  let s := (w.1.wrB (Fld.BAY_HSTAT_DIP_ACT b) false).wrB (Fld.BAY_HSTAT_SWELL_ACT b) false
  (s.wrB (Fld.BAY_HSTAT_INT_SEEN b) false, d.2 ++ w.2)

/-- The events in progress of a bay end, and their events reach the intake. -/
def State.closeEvents (s : State) (b : Nat) (down : Bool) : State :=
  let x := s.endEvents b down
  x.1.raiseTogether x.2

/-- The events in progress of every bay end at a power-fail warning (R137). -/
def State.closeAllEvents (s : State) : State :=
  let x := (List.range 16).foldl (fun (acc : State × List Offer) b =>
    let y := acc.1.endEvents b true
    (y.1, acc.2 ++ y.2)) (s, [])
  x.1.raiseTogether x.2

/-! ### The spectrum of a window (R124 to R128) -/

/-- Squares of the bin magnitudes C[k] of a channel (R124). -/
def binSq (xs : List Real) (k : Nat) : Real :=
  let n := xs.length
  let m := cxSq (dft xs k n) / ((n : Real) * n)
  if k = 0 then m else 2 * m

/-- Square of the harmonic value of order h, a subgroup or a group (R125). -/
def harmSq (c : Nat → Real) (n : Nat) (groups : Bool) (h : Nat) : Real :=
  let m := h * n
  if h = 0 then c 0
  else if groups then
    c (m - n / 2) / 2 + ((List.range (n - 1)).map fun i => c (m - n / 2 + 1 + i)).sum + c (m + n / 2) / 2
  else c (m - 1) + c m + c (m + 1)

/-- Square of the interharmonic value between orders h and h + 1. -/
def interSq (c : Nat → Real) (n : Nat) (groups : Bool) (h : Nat) : Real :=
  if groups then ((List.range (n - 1)).map fun i => c (h * n + 1 + i)).sum
  else ((List.range (n - 3)).map fun i => c (h * n + 2 + i)).sum

/-- What an accelerator computes of one channel: squares of the harmonics, interharmonic words, spectrum. -/
structure Channel where
  /-- squares of G_0 to G_127, 0 beyond HMAX -/
  g : List Real
  inter : List Real
  angle : List Real
  /-- the phasor of the fundamental, rms -/
  x : Cx
deriving DecidableEq, Repr

/-- A channel that reads 0 in every harmonic result: U_B in THREE_WIRE_2E. -/
def noChannel : Channel :=
  { g := List.replicate 128 0, inter := List.replicate 128 0, angle := List.replicate 128 0, x := (0, 0) }

/-- One channel of a window (R124, R125, R126). -/
def channelOf (xs : List Real) (n hmax : Nat) (groups : Bool) (ref : Real) : Channel :=
  let c (k : Nat) : Real := binSq xs k
  { g := (List.range 128).map fun h => if h ≤ hmax then harmSq c n groups h else 0
    inter := (List.range 128).map fun h => if h + 1 ≤ hmax then interSq c n groups h else 0
    angle := (List.range 128).map fun h => if h = 0 || hmax < h then 0
      else wrapTurn (cxAngle (dft xs (h * n) xs.length) - (h : Real) * ref)
    x := cxScale (sqrtR 2 / (xs.length : Real)) (dft xs n xs.length) }

/-- A ratio whose denominator is below 10^-6 of full scale reads 0 (R127, R128). -/
def overFloor (num den fs : Real) : Real := if den < fs / 1000000 then 0 else rdiv num den

/-- The results of a window (R126 to R128, R133). -/
structure WinSpec where
  hmax : Nat
  f : Real
  chans : List Channel
  thd : List Real
  thdx : List Real
  tdd : List Real
  u2 : Real
  u0 : Real
  i2 : Real
  i0 : Real
  u : List Real
deriving DecidableEq, Repr

/-- Full scale of a channel in primary units. -/
def State.fullScale (s : State) (b c : Nat) : Real := (if c < 3 then 1 else 1 / 2) * abs (s.chanK b c)

/-- What an accelerator computes of a window (R124 to R128). The floor of |U1| and |I1| takes full scale from phase A, U_A and
I_A (DESIGN CHOICE, notes/assumptions/146.md). -/
def State.windowSpec (s : State) (j : HarmJob) : WinSpec :=
  let b := j.bay
  let n := j.cycles.length
  let two := s.twoElement b
  let T : Real := (j.cycles.map (·.T)).sum
  let f : Real := rdiv ((n : Real) * 1000000000) T
  let hmax := min 127 ((rdiv (if j.narrow then 5000 else 10000) f).floor.toNat)
  let xs (c : Nat) : List Real := j.cycles.flatMap fun w => w.grid.getD c []
  let ref := cxAngle (dft (xs 0) n (xs 0).length)
  let groups := s.flag (Fld.BAY_QCFG_GROUPING b)
  let chans := (List.range 7).map fun c =>
    if two && c = 1 then noChannel else channelOf (xs c) n hmax groups ref
  let sum (c top : Nat) : Real := sqrtR (((chans.getD c ⟨[], [], [], (0, 0)⟩).g.take (top + 1)).drop 2).sum
  let g1 (c : Nat) : Real := sqrtR ((chans.getD c ⟨[], [], [], (0, 0)⟩).g.getD 1 0)
  let fs (c : Nat) : Real := s.fullScale b c
  let il := b32 (s.word (Adr.BAY_IL b))
  let ph (c : Nat) : Cx := (chans.getD c ⟨[], [], [], (0, 0)⟩).x
  let volt := if two then [ph 0, cxScale (-1) (ph 2), cxSub (ph 2) (ph 0)] else [ph 0, ph 1, ph 2]
  let seq (v : List Cx) (p q : Cx) : Real :=
    cxAbs (cxScale (1 / 3) (cxAdd (v.getD 0 (0, 0)) (cxAdd (cxMul p (v.getD 1 (0, 0))) (cxMul q (v.getD 2 (0, 0))))))
  let amp := [ph 3, ph 4, ph 5]
  let rel (v : List Cx) (p q : Cx) (full : Real) : Real := overFloor (seq v p q) (seq v opA opA2) full
  { hmax, f, chans
    thd := (List.range 7).map fun c => overFloor (sum c (min 40 hmax)) (g1 c) (fs c)
    thdx := (List.range 7).map fun c => overFloor (sum c hmax) (g1 c) (fs c)
    tdd := (List.range 3).map fun p => if il = 0 then 0 else overFloor (sum (3 + p) (min 40 hmax)) il (fs (3 + p))
    u2 := rel volt opA2 opA (fs 0)
    u0 := if two then 0 else rel volt (1, 0) (1, 0) (fs 0)
    i2 := rel amp opA2 opA (fs 3)
    i0 := if two then 0 else rel amp (1, 0) (1, 0) (fs 3)
    u := (List.range 3).map fun p => sqrtR ((j.cycles.map fun w => w.uu.getD p 0).sum / (n : Real)) }

/-! ### Aggregation (R131 to R133, R139, R140) -/

/-- Root mean square of window values (R133). -/
def rmsOf (xs : List Real) : Real := sqrtR (dot xs xs / (xs.length : Real))

/-- The aggregated values of an interval: U A to C, THD_U A to C, THD_I A to C, u2, frequency. -/
def aggregate (ws : List WinResult) : List Real :=
  let three (f : WinResult → List Real) : List Real := (List.range 3).map fun i => rmsOf (ws.map fun w => (f w).getD i 0)
  three (·.u) ++ three (·.thdU) ++ three (·.thdI) ++
    [rmsOf (ws.map (·.u2)), (ws.map (·.f)).sum / (ws.length : Real)]

def a3Fields : List (Nat → Field) :=
  [Fld.BAY_A3_U_A_VALUE, Fld.BAY_A3_U_B_VALUE, Fld.BAY_A3_U_C_VALUE, Fld.BAY_A3_THDU_A_VALUE, Fld.BAY_A3_THDU_B_VALUE,
   Fld.BAY_A3_THDU_C_VALUE, Fld.BAY_A3_THDI_A_VALUE, Fld.BAY_A3_THDI_B_VALUE, Fld.BAY_A3_THDI_C_VALUE,
   Fld.BAY_A3_U2_VALUE, Fld.BAY_A3_FREQ_VALUE]

def a10Fields : List (Nat → Field) :=
  [Fld.BAY_A10_U_A_VALUE, Fld.BAY_A10_U_B_VALUE, Fld.BAY_A10_U_C_VALUE, Fld.BAY_A10_THDU_A_VALUE, Fld.BAY_A10_THDU_B_VALUE,
   Fld.BAY_A10_THDU_C_VALUE, Fld.BAY_A10_THDI_A_VALUE, Fld.BAY_A10_THDI_B_VALUE, Fld.BAY_A10_THDI_C_VALUE,
   Fld.BAY_A10_U2_VALUE, Fld.BAY_A10_FREQ_VALUE]

/-- Test one limit (R139), with the event it gives: a limit of 0 disables its test. -/
def State.testLimit (b : Nat) (acc : State × List Offer) (x : Nat × Real × Real) : State × List Offer :=
  let s := acc.1
  let bit := x.1
  let v := x.2.1
  let limit := x.2.2
  let on := s.rd (Fld.BAY_HSTAT_LIMIT b)
  let set := on / 2 ^ bit % 2 = 1
  let payload := beBytes 1 (bit + 3) ++ beBytes 3 0 ++ wordBytes (toB32 v) ++ wordBytes (toB32 limit)
  if limit = 0 then acc
  else if !set && decide (limit < v) then
    (s.wr (Fld.BAY_HSTAT_LIMIT b) (on ||| 2 ^ bit), acc.2 ++ [(0x43, b, payload)])
  else if set && decide (v ≤ limit * 95 / 100) then
    (s.wr (Fld.BAY_HSTAT_LIMIT b) (on &&& (15 - 2 ^ bit)), acc.2 ++ [(0x44, b, payload)])
  else acc

/-- The limits of a bay against an unflagged 150/180-cycle value (R139). -/
def State.testLimits (s : State) (b : Nat) (v : List Real) : State :=
  let top (i : Nat) : Real := max (v.getD i 0) (max (v.getD (i + 1) 0) (v.getD (i + 2) 0))
  let tests : List (Nat × Real × Real) :=
    [(0, top 3, b32 (s.word (Adr.BAY_LIM_THDU b))), (1, top 6, b32 (s.word (Adr.BAY_LIM_THDI b))),
     (2, v.getD 9 0, b32 (s.word (Adr.BAY_LIM_U2 b))),
     (3, abs (v.getD 10 0 - (s.nomF b : Real)), b32 (s.word (Adr.BAY_LIM_FDEV b)))]
  let x := tests.foldl (State.testLimit b) (s, [])
  x.1.raiseTogether x.2

/-- The recorder's eleven quantities of R140, as their histograms take them; the ratio to a U_din of 0 is
left open. -/
def State.histValues (s : State) (b : Nat) (v : List Real) : List (Nat × Real) :=
  let udin := b32 (s.word (Adr.BAY_UDIN b))
  (List.range 11).map fun q =>
    (q, if q < 3 then rdiv (v.getD q 0) udin else if q = 10 then v.getD 10 0 - (s.nomF b : Real) else v.getD q 0)

/-- Lower end and width of the bins of a quantity (R140). -/
def histBins (q : Nat) : Real × Real :=
  if q < 3 then (84 / 100, 5 / 1000) else if q < 6 then (0, 25 / 10000) else if q < 9 then (0, 1 / 100)
  else if q = 9 then (0, 1 / 1000) else (-32 / 100, 1 / 100)

/-- The live statistics of a bay in the recorder. -/
def State.qual (s : State) (b : Nat) : QualLive := (s.rcd.bays.lookup b).getD {}

/-- Replace them. -/
def State.setQual (s : State) (b : Nat) (q : QualLive) : State :=
  { s with rcd := { s.rcd with bays := storeSet (fun _ => ({} : QualLive)) s.rcd.bays b q } }

/-- An unflagged 10-min interval enters the histograms (R140). -/
def State.histogram (s : State) (b : Nat) (v : List Real) : State :=
  let q := s.qual b
  let hist := (s.histValues b v).foldl (fun m (i, x) =>
    let w := histBins i
    let bin := min ((x - w.1) / w.2).floor.toNat 63
    storeSet zeroAt m (i * 64 + bin) (storeGet zeroAt m (i * 64 + bin) + 1)) q.hist
  s.setQual b { q with hist, intervals := q.intervals + 1, any := true }

/-- An unflagged base window enters the extremes (R140, R249). -/
def State.extremes (s : State) (b : Nat) (w : WinResult) : State :=
  let q := s.qual b
  let ms : Int := ((s.opsec : Int) - s.rcd.periodStart) * 1000 +
    nearest (((w.stop - (s.core.tickEpoch : Real)) * (9765625 / 10000)) / 1000000)
  let v := w.u ++ w.thdU ++ w.thdI ++ [w.u2, w.f]
  let put (m : List (Nat × (Word × Nat))) (k : Nat) (x : Real) (better : Real → Bool) : List (Nat × (Word × Nat)) :=
    let old := storeGet extNone m k
    if old.2 = 0xFFFFFFFF || better (b32 old.1) then storeSet extNone m k (toB32 x, ms.toNat) else m
  let ext := (s.histValues b v).foldl (fun m (i, x) =>
    put (put m (2 * i) x fun o => decide (o < x)) (2 * i + 1) x fun o => decide (x < o)) q.ext
  s.setQual b { q with ext, any := true }

/-- Close an interval (R131 to R133) with its windows that end at or before an epoch, all of them where none is given:
nothing when it has no window. -/
def State.closeInterval (s : State) (b : Nat) (upto : Option Nat) (ten short step : Bool) : State :=
  let y := s.bay b
  let early (w : WinResult) : Bool := upto.elim true fun e => decide (w.stop ≤ (e : Real))
  let all := if ten then y.windows10 else y.windows3
  let ws := all.filter early
  let rest := all.filter fun (w : WinResult) => !early w
  let s := s.setBay b (if ten then { y with windows10 := rest } else { y with windows3 := rest })
  if ws.isEmpty then s
  else
    let v := aggregate ws
    let fl := ws.any (·.flagged)
    let s := s.putB32 b (if ten then a10Fields else a3Fields) v
    if ten then
      let s := ((s.wrB (Fld.BAY_A10_STAT_FLAG b) fl).wrB (Fld.BAY_A10_STAT_SHORT b) short).wrB (Fld.BAY_A10_STAT_TIME_STEP b) step
      let s := (s.wr (Fld.BAY_A10_STAT_WINDOWS b) (min ws.length 8191)).wrap (Fld.BAY_A10_STAT_SEQ b)
      if fl then s else s.histogram b v
    else
      let s := ((s.wrB (Fld.BAY_A3_STAT_FLAG b) fl).wrB (Fld.BAY_A3_STAT_SHORT b) short).wrB (Fld.BAY_A3_STAT_TIME_STEP b) step
      let s := (s.wr (Fld.BAY_A3_STAT_WINDOWS b) (min ws.length 8191)).wrap (Fld.BAY_A3_STAT_SEQ b)
      if fl then s else s.testLimits b v

/-- Whether a window of a bay that ends at or before an epoch is still to come: in the queue or in service, while an
accelerator serves, or in the cycle in progress. -/
def State.windowDue (s : State) (b epoch : Nat) : Bool :=
  let early (x : Real) : Bool := decide (x ≤ (epoch : Real))
  let mine (j : HarmJob) : Bool := j.bay = b && early (j.cycles.getLast?.elim 0 (·.stop))
  let serving := !(s.esc.down.contains (.accel 0) && s.esc.down.contains (.accel 1))
  (serving && (s.met.queue.any mine || s.met.sa0.any mine || s.met.sa1.any mine ||
    ((s.bay b).win.isSome && early (s.later (s.bay b).start (s.bay b).T))))

/-- Close the intervals of the oldest boundary or step a bay waits for, once their last window is in (R131, R132): at a 10-min
boundary the 150/180-cycle interval closes SHORT; at a step both do, with TIME_STEP. -/
def State.closeDue (s : State) (b : Nat) : State :=
  match (s.bay b).closing with
  | [] => s
  | (e, step) :: rest =>
    if s.windowDue b e then s
    else ((s.setBay b { s.bay b with closing := rest }).closeInterval b (some e) false true step).closeInterval b (some e) true
      step step

/-- Close every interval of a bay that is due. -/
def State.tryTen (s : State) (b : Nat) : State :=
  (s.bay b).closing.foldl (fun (s : State) _ => s.closeDue b) s

/-- The intervals of a bay are to close at an epoch. -/
def State.closeAt (s : State) (b epoch : Nat) (step : Bool) : State :=
  (s.setBay b { s.bay b with closing := (s.bay b).closing ++ [(epoch, step)] }).tryTen b

/-- The number of the 10-min interval that a boundary begins: ledger time, or operating seconds while the time source is
none, in units of 600 s. -/
def State.tenNumber (s : State) : Nat :=
  let st := s.ledNow
  if st.valid then (st.time + (s.led.bounds.map (·.secs)).sum) / 600 else s.opsec / 600

/-- A whole-second boundary: the 10-min intervals end where their number changes (R131). -/
def State.tenBoundary (s : State) (epoch : Nat) : State :=
  let n := s.tenNumber
  let was := s.met.tenAt
  let s := { s with met := { s.met with tenAt := some n } }
  if was.isNone || was = some n then (List.range 16).foldl State.tryTen s
  else (List.range 16).foldl (fun (s : State) b => s.closeAt b epoch false) s

/-- A ledger time step, or time becoming valid or invalid, closes both intervals of every bay at the step, once the windows
that ended before it are in (R131, R132). -/
def State.stepIntervals (s : State) : State :=
  let s := (List.range 16).foldl (fun (s : State) b => s.closeAt b s.epoch true) s
  { s with met := { s.met with tenAt := some s.tenNumber } }

/-! ### The accelerators (R122, R123, R129) -/

/-- The job an accelerator serves. -/
def State.accJob (s : State) (n : Fin 2) : Option HarmJob := if n = 0 then s.met.sa0 else s.met.sa1

/-- Give an accelerator a job, or none. -/
def State.setAcc (s : State) (n : Fin 2) (j : Option HarmJob) : State :=
  { s with met := if n = 0 then { s.met with sa0 := j } else { s.met with sa1 := j } }

/-- A free accelerator in service takes the job at the head of the queue. -/
def State.accTake (s : State) (n : Fin 2) : State :=
  if !s.domOn 11 || s.esc.down.contains (.accel n) || s.esc.restarting.contains (.accel n) || (s.accJob n).isSome then s
  else match s.met.queue with
    | [] => s
    | j :: js => ({ s with met := { s.met with queue := js } }).setAcc n (some j)

/-- Whether a window is flagged: its span overlaps that of a dip or swell (R133). -/
def Bay.flagged (y : Bay) (a b : Real) : Bool :=
  y.spans.any (fun p => decide (p.1 < b) && decide (a < p.2)) ||
  y.dip.any (fun e => decide (e.since < b)) || y.swell.any (fun e => decide (e.since < b))

/-- The results of a window are written together (R129). Fifteen windows that complete make a 150/180-cycle interval, also
where one between them was discarded (DESIGN CHOICE, notes/assumptions/145.md). -/
def State.writeWindow (s : State) (j : HarmJob) : State :=
  let b := j.bay
  let x := s.windowSpec j
  let stop : Real := j.cycles.getLast?.elim 0 (·.stop)
  let start : Real := j.cycles.head?.elim 0 (·.start)
  let fl := (s.bay b).flagged start stop
  let s := s.putB32 b [Fld.BAY_THDU_A_VALUE, Fld.BAY_THDU_B_VALUE, Fld.BAY_THDU_C_VALUE, Fld.BAY_THDI_A_VALUE,
    Fld.BAY_THDI_B_VALUE, Fld.BAY_THDI_C_VALUE, Fld.BAY_THDI_N_VALUE] x.thd
  let s := s.putB32 b [Fld.BAY_THDXU_A_VALUE, Fld.BAY_THDXU_B_VALUE, Fld.BAY_THDXU_C_VALUE, Fld.BAY_THDXI_A_VALUE,
    Fld.BAY_THDXI_B_VALUE, Fld.BAY_THDXI_C_VALUE, Fld.BAY_THDXI_N_VALUE] x.thdx
  let s := s.putB32 b [Fld.BAY_TDD_A_VALUE, Fld.BAY_TDD_B_VALUE, Fld.BAY_TDD_C_VALUE, Fld.BAY_U2_VALUE, Fld.BAY_U0_VALUE,
    Fld.BAY_I2_VALUE, Fld.BAY_I0_VALUE, Fld.BAY_WFREQ_VALUE] (x.tdd ++ [x.u2, x.u0, x.i2, x.i0, x.f])
  let words (c : Channel) : List Word × List Word × List Word :=
    (c.g.map fun q => toB32 (sqrtR q), c.inter.map fun q => toB32 (sqrtR q),
     c.angle.map fun q => toB32 (q * 2 * piR))
  let w : WinResult := { u := x.u, thdU := x.thd.take 3, thdI := (x.thd.drop 3).take 3, u2 := x.u2, f := x.f,
                         flagged := fl, stop }
  let y := s.bay b
  let s := s.setBay b { y with
    spectra := x.chans.map words, windows3 := y.windows3 ++ [w], windows10 := y.windows10 ++ [w] }
  let s := (s.wrB (Fld.BAY_HSTAT_HVALID b) true).wrB (Fld.BAY_HSTAT_FLAGGED b) fl
  let s := (s.wrB (Fld.BAY_HSTAT_HMAX_LIMITED b) (x.hmax < 40)).wr (Fld.BAY_HSTAT_HMAX b) x.hmax
  let s := if fl then s else s.extremes b w
  let s := s.wrap (Fld.BAY_HSEQ_SEQ b)
  let s := if (s.bay b).windows3.length = 15 then s.closeInterval b none false false false else s
  s.tryTen b

/-- An accelerator completes its job and takes the next (R122). -/
def State.accComplete (s : State) (n : Fin 2) : State :=
  match s.accJob n with
  | none => s.accTake n
  | some j => ((s.setAcc n none).writeWindow j).accTake n

/-- A bay's cycle ends, and with it perhaps the last window of a 10-min interval. -/
def execCycleEnd (bay : Fin 16) (s : State) : Host.Outcome State Fault Refusal :=
  .next ((s.cycleEnd bay.val).tryTen bay.val)

def execAccelJobComplete (acc : Fin 2) (s : State) : Host.Outcome State Fault Refusal := .next (s.accComplete acc)

/-- No accelerator serves any more: HVALID reads 0 in every bay (R123), and no interval waits for a window. -/
def State.noService (s : State) : State :=
  (List.range 16).foldl (fun (s : State) b => (s.wrB (Fld.BAY_HSTAT_HVALID b) false).tryTen b) s

/-- The isolate step of the DSA domain empties the queue without counting (R123). -/
def State.accIsolate (s : State) : State :=
  ({ s with met := { s.met with queue := [], sa0 := none, sa1 := none } }).noService

/-- An accelerator has faulted (R123): its job is lost and counted. -/
def State.accLose (s : State) (n : Fin 2) : State :=
  match s.accJob n with
  | none => s
  | some j => (s.setAcc n none).count (Fld.BAY_HSKIP_FAULT j.bay)

/-- A word of BAY_HTAB under BAY_HSEL (R125). -/
def State.harmWord (s : State) (b h : Nat) : Word :=
  match (s.bay b).spectra[s.rd (Fld.BAY_HSEL_CHAN b)]? with
  | none => 0
  | some t =>
    match s.rd (Fld.BAY_HSEL_KIND b) with
    | 0 => t.1.getD h 0
    | 1 => if h = 127 then 0 else t.2.1.getD h 0
    | 2 => if h = 0 then 0 else t.2.2.getD h 0
    | _ => 0

end Sys2Proof.Machine
end

