-- ==== Sys2Proof/Machine/AuxScan.lean ====
section
/-!
DEFINITION. The auxiliary block (R143 to R163): the scanner and its triggers, scan values, tick captures, excitation
sources, pulse and frequency inputs, and the field supply.
-/

namespace Sys2Proof.Machine

/-! ### Registers -/

/-- States of AX_STATUS.STATE. -/
def axOff : Nat := 0
def axIdle : Nat := 1
def axSettle : Nat := 2
def axScan : Nat := 3
def axIsolated : Nat := 4

/-- The scanner's state. -/
def State.axState (s : State) : Nat := s.rd Fld.AX_STATUS_STATE

/-- Whether a scan runs. -/
def State.axBusy (s : State) : Bool := s.axState = axSettle || s.axState = axScan

/-- Events of R246 from the block. -/
def evFldLow : Nat := 0x50
def evFldOk : Nat := 0x51
def evExcOpen : Nat := 0x52

/-- The enabled sources, those not GATED alone or all of them. -/
def State.excMask (s : State) (all : Bool) : Nat :=
  ((List.range 4).map fun k =>
    if s.flag (Fld.AX_EXC_CFG_ENABLE k) && (all || !s.flag (Fld.AX_EXC_CFG_GATED k)) then 2 ^ k else 0).sum

/-- AX_EXC_STAT.ON follows the sources that source current (R154); a source that is off is not out of compliance. A running
scan keeps the sources that were enabled when it was taken (R160). -/
def State.refreshExc (s : State) : State :=
  let on := if !s.domOn 5 || s.axState = axOff || s.flag Fld.AX_STATUS_FLD_LOW then 0
    else if s.axBusy then s.aux.excOn else s.excMask false
  (s.wr Fld.AX_EXC_STAT_ON on).wr Fld.AX_EXC_STAT_OPEN (s.rd Fld.AX_EXC_STAT_OPEN &&& on)

/-- Enter a scanner state. -/
def State.setAx (s : State) (v : Nat) : State := (s.wr Fld.AX_STATUS_STATE v).refreshExc

/-! ### Scans and triggers (R147, R150 to R152) -/

/-- The channels of a scan (R147). -/
def State.scanPlan (s : State) : List AuxChan :=
  let mask := s.rd Fld.AX_SCAN_MASK_MASK
  ((List.range 34).filter fun n =>
    if n < 32 then mask / 2 ^ n % 2 = 1
    else if n = 32 then s.flag Fld.AX_SCAN_CFG_ZERO_EN else s.flag Fld.AX_SCAN_CFG_REF_EN).map fun n =>
      { chan := n, gain := s.rd (Fld.AX_CH_CFG_GAIN n), osr := 4 * 2 ^ s.rd (Fld.AX_CH_CFG_OSR n) }

/-- S of R150, in epochs. -/
def State.scanSettle (s : State) : Nat :=
  if (List.range 4).any fun k => s.flag (Fld.AX_EXC_CFG_ENABLE k) && s.flag (Fld.AX_EXC_CFG_GATED k) then
    32 * s.rd Fld.AX_SCAN_CFG_EXC_SETTLE
  else 0

/-- A trigger is taken at an epoch. -/
def State.scanTake (s : State) (at_ : Nat) : State :=
  let n := s.scanSettle
  let s := { s with aux := { s.aux with
    takenAt := at_, settle := n, plan := s.scanPlan, excOn := s.excMask true, touched := s.flag Fld.AX_STATUS_FLD_LOW } }
  s.setAx (if n = 0 then axScan else axSettle)

/-- A trigger arrives whose next epoch is `at_` (R152). -/
def State.scanTriggered (s : State) (at_ : Nat) : State :=
  if s.axState = axIdle then s.scanTake at_
  else if s.axBusy then
    if s.flag Fld.AX_STATUS_PENDING then s.count Fld.AX_TRIG_OVERRUN_COUNT else s.wrB Fld.AX_STATUS_PENDING true
  else s

/-- A write of AX_TRIG. -/
def State.wAxTrig (s : State) (_ : Path) (v : Word) : WStatus × State :=
  (.ok, if v.getLsbD 0 then s.scanTriggered (s.epoch + 1) else s)

def execScanTrigger (p : Path) (s : State) : Host.Outcome State Fault Refusal := .next (s.host fun s => s.wAxTrig p 1)

/-- The epoch the next periodic trigger is timed at (R151): every 1024 × PERIOD epochs from the boundary that began the tick,
and the next boundary. -/
def State.nextPeriodic (s : State) : Nat :=
  let began := s.core.tickEpoch
  let every := 1024 * max 1 (s.rd Fld.AX_SCAN_CFG_PERIOD)
  let from_ := max s.epoch (s.aux.periodAt.elim 0 (· + 1))
  min (began + (from_ - began + (every - 1)) / every * every) s.nextBoundary

/-- The periodic trigger (R151, R152): the next one falls due, one XREF cycle ahead of its epoch. With a host trigger that was
taken for the same epoch it counts as one trigger (R151; notes/assumptions/151.md). -/
def State.periodicTrigger (s : State) : State :=
  if s.rd Fld.AX_SCAN_CFG_TRIG = 1 then
    let t := s.nextPeriodic
    let s : State := { s with aux := { s.aux with periodAt := some t } }
    if s.axBusy && s.aux.takenAt = t then s else s.scanTriggered t
  else s

def execPeriodicTrigger (s : State) : Host.Outcome State Fault Refusal := .next s.periodicTrigger

/-- The settling of gated sources is over: the first conversion follows (R150). -/
def State.settleEnd (s : State) : State := if s.axState = axSettle then s.setAx axScan else s

def execScanSettleEnd (s : State) : Host.Outcome State Fault Refusal := .next s.settleEnd

/-! ### Scan values (R145, R146, R148, R149, R153) -/

/-- What the conversions of one channel give: slice values accepted, in order, whether a rail code was among them, the
discards for residue and for gain, the epochs of the former, and the conversions left. -/
structure ChanRun where
  vals : List Int := []
  rail : Bool := false
  residue : List Nat := []
  gain : Nat := 0
  rest : List (Nat × AuxConv)
deriving DecidableEq, Repr

/-- Take conversions of a channel until OSR are accepted or its four replacements are used (R149); `fuel` bounds their
number. `none` when conversions run out. -/
def State.takeConv (s : State) (osr : Nat) : (fuel : Nat) → ChanRun → Option ChanRun
  | 0, r => some r
  | fuel + 1, r =>
    if r.vals.length = osr || osr + 4 ≤ r.vals.length + r.residue.length then some r
    else match r.rest with
      | [] => none
      | (e, c) :: rest =>
        if !c.residueOk then s.takeConv osr fuel { r with residue := r.residue ++ [e], rest }
        else
          let raw := c.raw.toNat
          let v := sliceValue raw (dither s.fuses.uid 152 e) (storeGet (fun _ => (0 : Int)) s.fuses.auxTab raw)
          s.takeConv osr fuel { r with vals := r.vals ++ [v], rail := r.rail || railCode raw, rest }

/-- The conversions of one channel: the first is discarded when the gain changes (R148). -/
def State.chanRun (s : State) (p : AuxChan) (last : Option Nat) (conv : List (Nat × AuxConv)) : Option ChanRun :=
  if last = some p.gain then s.takeConv p.osr (p.osr + 4) { rest := conv }
  else match conv with
    | [] => none
    | _ :: rest => s.takeConv p.osr (p.osr + 4) { gain := 1, rest }

/-- A mean of slice values in Q2.30 of channel full scale (R146). -/
def State.scanMean (s : State) (gain : Nat) (vals : List Int) : Int :=
  let sum := (vals.map fun v => v - s.fuses.auxOff.getD gain 0).sum
  ((sum * (s.fuses.auxGain.getD gain 0 : Int)).tdiv vals.length) / 2 ^ 18

/-- The means of whole groups of four (R153). -/
def State.groupMeans (s : State) (gain : Nat) : List Int → List Int
  | a :: b :: c :: d :: rest => s.scanMean gain [a, b, c, d] :: s.groupMeans gain rest
  | _ => []

/-- Write the scan value of a channel and gather it for the tick in progress, or for the ended one (R146, R149, R150,
R153). -/
def State.chanDone (s : State) (late : Bool) (p : AuxChan) (r : ChanRun) : State :=
  let n := p.chan
  let fault : Bool := r.vals.length < p.osr
  let s := if r.vals.length < 4 then s else s.wrS (Fld.AX_LAST_VALUE n) (s.scanMean p.gain r.vals)
  let s := (s.wrB (Fld.AX_LSTAT_OVER n) r.rail).wrB (Fld.AX_LSTAT_FAULT n) fault
  let s := (s.wrB (Fld.AX_LSTAT_FLD n) s.aux.touched).wrB (Fld.AX_LSTAT_VALID n) true
  let s := s.wrap (Fld.AX_LSTAT_SEQ n)
  let l := if late then s.aux.ended else s.aux.acc
  let a := storeGet (fun _ => ({} : AuxAcc)) l n
  let means := s.groupMeans p.gain r.vals
  let ext := means.foldl (fun (e : Option (Int × Int)) m => some (e.elim (m, m) fun x => (max x.1 m, min x.2 m))) a.ext
  let a : AuxAcc := {
    sum := a.sum + s.rdS (Fld.AX_LAST_VALUE n), cnt := a.cnt + 1, rail := a.rail || r.rail, fault := a.fault || fault
    fld := a.fld || s.aux.touched, ext }
  let l := storeSet (fun _ => ({} : AuxAcc)) l n a
  { s with aux := if late then { s.aux with ended := l } else { s.aux with acc := l } }

/-- The runs of a scan's channels in order; `none` when the conversions do not match the scan. -/
def State.scanRuns (s : State) : List AuxChan → Option Nat → List (Nat × AuxConv) → Option (List (AuxChan × ChanRun))
  | [], _, [] => some []
  | [], _, _ :: _ => none
  | p :: ps, last, conv =>
    match s.chanRun p last conv with
    | none => none
    | some r => (s.scanRuns ps (some p.gain) r.rest).map fun rs => (p, r) :: rs

/-- The scan ends and the scanner is free; a pending trigger is taken at the epoch of its last hold edge (R152). -/
def State.scanEnd (s : State) (last : Nat) : State :=
  let s := (s.setAx axIdle).wrap Fld.AX_STATUS_SCAN_CNT
  if s.flag Fld.AX_STATUS_PENDING then (s.wrB Fld.AX_STATUS_PENDING false).scanTake last else s

/-- The auxiliary slice is isolated (R149): the scanner takes no trigger, and every channel keeps its value with FAULT. -/
def State.axIsolate (s : State) : State :=
  let s := { s with aux := { s.aux with isolated := true, lastGain := none } }
  let s := (List.range 34).foldl (fun s n => s.wrB (Fld.AX_LSTAT_FAULT n) true) s
  (((s.wrB Fld.AX_STATUS_PENDING false).setAx axIsolated).escBlock 0).escRecord 1 0 20 0 0x04 0x04

/-- Whether more than 64 discards lie within one second (R39, R149). -/
def tooMany (ds : List Nat) : Bool :=
  ds.any fun a => decide (64 < (ds.filter fun e => decide (a ≤ e) && decide (e < a + secondEpochs)).length)

/-- The tick capture of every channel (R153): what the ended tick gathered goes into the registers. -/
def State.axCapture (s : State) : State :=
  let one (s : State) (n : Nat) : State :=
    let a := storeGet (fun _ => ({} : AuxAcc)) s.aux.ended n
    let x := a.ext.getD (-2147483648, 2147483647)
    let s := (s.wrS (Fld.AX_ACC_SUM_SUM n) a.sum).wr (Fld.AX_ACC_CNT_CNT n) a.cnt
    let s := (s.wrB (Fld.AX_ACC_CNT_OVER_SEEN n) a.rail).wrB (Fld.AX_ACC_CNT_FAULT_SEEN n) a.fault
    let s := s.wrB (Fld.AX_ACC_CNT_FLD_SEEN n) a.fld
    (s.wrS (Fld.AX_MM_MAX_MAX n) x.1).wrS (Fld.AX_MM_MIN_MIN n) x.2
  let s := (List.range 34).foldl one s
  ({ s with aux := { s.aux with capDue := none } }).wrap Fld.AX_TICK_SEQ_SEQ

/-- A capture that waits for a scan is made now. -/
def State.axCaptureDue (s : State) : State := if s.aux.capDue.isSome then s.axCapture else s

/-- A scan's last conversion completes (R149, R150): the scan belongs to the tick that holds its last hold edge. -/
def State.scanComplete (s : State) (runs : List (AuxChan × ChanRun)) (n : Nat) : State :=
  let bad := runs.flatMap fun r => r.2.residue
  let last := s.aux.takenAt + s.aux.settle + n
  let s := (s.count Fld.AX_DISCARD_GAIN ((runs.map fun r => r.2.gain).sum)).count Fld.AX_DISCARD_RESIDUE bad.length
  let all := s.aux.discards ++ bad
  let late : Bool := s.aux.capDue.any fun e => decide (last < e)
  let gain := runs.getLast?.elim s.aux.lastGain fun r => some r.1.gain
  let s := { s with aux := { s.aux with
    discards := all.filter fun e => last < e + secondEpochs, lastGain := gain } }
  if tooMany all then s.axIsolate.axCaptureDue
  else ((runs.foldl (fun s r => s.chanDone late r.1 r.2) s).scanEnd last).axCaptureDue

/-- SCAN_COMPLETE: the conversions of the scan, discards and replacements included, from its first hold edge on. -/
def execScanComplete (conv : List AuxConv) (s : State) : Host.Outcome State Fault Refusal :=
  if s.axState ≠ axScan then .next s
  else
    let first := s.aux.takenAt + 1 + s.aux.settle
    match s.scanRuns s.aux.plan s.aux.lastGain (conv.zipIdx.map fun (c, i) => (first + i, c)) with
    | some runs => .next (s.scanComplete runs conv.length)
    | none => .fault .illFormed

/-- The epochs the conversions of a scan take at least: every channel's own and its gain discard (R146, R148). -/
def scanLeast : List AuxChan → Option Nat → Nat
  | [], _ => 0
  | p :: ps, last => p.osr + (if last = some p.gain then 0 else 1) + scanLeast ps (some p.gain)

/-- The block's share of the boundary at an epoch (R153): the tick ends, and its capture follows at once, or when the scan
that may have made its last hold edge before the boundary completes (R150). Without power no capture is made (R159). -/
def State.axTick (s : State) (epoch : Nat) : State :=
  let s := s.axCaptureDue
  let low := s.flag Fld.AX_STATUS_FLD_LOW
  let shut := s.rd Fld.AX_EXC_STAT_OPEN
  let x := s.aux
  let s := { s with aux := { x with
    ended := x.acc
    acc := []
    lowTick := x.lowSeen || low
    lowSeen := low
    openTick := x.openSeen ||| shut
    openSeen := shut } }
  if s.axState = axOff then s
  else if s.axBusy && decide (x.takenAt + x.settle + scanLeast x.plan x.lastGain < epoch) then
    { s with aux := { s.aux with capDue := some epoch } }
  else s.axCapture

/-- A channel's settings have changed: its accumulator and tracker restart (R160). -/
def State.axRestart (s : State) (n : Nat) : State :=
  { s with aux := { s.aux with acc := storeSet (fun _ => ({} : AuxAcc)) s.aux.acc n {} } }

/-! ### Field supply, excitation and the DAX domain (R154, R158, R159) -/

/-- VFLD falls below its threshold (R158). -/
def State.fldLow (s : State) : State :=
  if !s.core.running || s.flag Fld.AX_STATUS_FLD_LOW then s
  else
    let s := { s with aux := { s.aux with touched := s.aux.touched || s.axBusy, lowSeen := true } }
    let s := ((s.wrB Fld.AX_STATUS_FLD_LOW true).wrB Fld.AX_FLD_LOW_SEEN true).count Fld.AX_FLD_LOW_CNT
    (s.refreshExc).raise evFldLow 0xFF (beBytes 2 (s.rd Fld.AX_FLD_LOW_CNT))

/-- VFLD is valid again. -/
def State.fldOk (s : State) : State :=
  if !s.flag Fld.AX_STATUS_FLD_LOW then s
  else ((s.wrB Fld.AX_STATUS_FLD_LOW false).refreshExc).raise evFldOk 0xFF (beBytes 2 (s.rd Fld.AX_FLD_LOW_CNT))

def execFldLow (s : State) : Host.Outcome State Fault Refusal := .next s.fldLow

def execFldOk (s : State) : Host.Outcome State Fault Refusal := .next s.fldOk

/-- A source cannot hold its current (R154): the event is raised once per setting of OPEN_SEEN. -/
def State.excOpen (s : State) (k : Nat) : State :=
  if s.rd Fld.AX_EXC_STAT_ON / 2 ^ k % 2 = 0 then s
  else
    let seen := s.rd Fld.AX_EXC_STAT_OPEN_SEEN
    let s := s.wr Fld.AX_EXC_STAT_OPEN (s.rd Fld.AX_EXC_STAT_OPEN ||| 2 ^ k)
    let s := { s with aux := { s.aux with openSeen := s.aux.openSeen ||| 2 ^ k } }
    if seen / 2 ^ k % 2 = 1 then s else (s.wr Fld.AX_EXC_STAT_OPEN_SEEN (seen ||| 2 ^ k)).raise evExcOpen k []

/-- The source is within compliance again. -/
def State.excClosed (s : State) (k : Nat) : State :=
  s.wr Fld.AX_EXC_STAT_OPEN (s.rd Fld.AX_EXC_STAT_OPEN &&& (15 - 2 ^ k))

def execExcOpen (k : Fin 4) (s : State) : Host.Outcome State Fault Refusal := .next (s.excOpen k.val)

def execExcOpenEnd (k : Fin 4) (s : State) : Host.Outcome State Fault Refusal := .next (s.excClosed k.val)

/-- The isolate step of DAX (R159): what the tick in progress gathered goes with the power, captured values stay. -/
def State.axStop (s : State) : State :=
  let s := s.axCaptureDue
  let s := { s with aux := { s.aux with plan := [], lastGain := none, acc := [] } }
  (s.wrB Fld.AX_STATUS_PENDING false).setAx axOff

/-- The block starts, with acquisition or with its domain. -/
def State.axStart (s : State) : State :=
  if s.domOn 5 && s.flag Fld.AQ_STATUS_RUN then
    ({ s with aux := { s.aux with lastGain := none } }).setAx (if s.aux.isolated then axIsolated else axIdle)
  else s

/-! ### Pulse and frequency inputs (R155 to R157) -/

/-- The working state of an input. -/
def State.input (s : State) (k : Nat) : PulseIn := s.aux.inputs.getD k {}

/-- Replace it. -/
def State.setInput (s : State) (k : Nat) (x : PulseIn) : State :=
  { s with aux := { s.aux with inputs := s.aux.inputs.set k x } }

/-- Whether an edge is of the kind an input counts. -/
def State.edgeCounts (s : State) (k : Nat) (level : Bool) : Bool :=
  match s.rd (Fld.AX_PI_CFG_EDGE k) with
  | 0 => level
  | 1 => !level
  | 2 => true
  | _ => false

/-- A counted edge of an input in EDGES (R156, R157): the first edge after a pause only sets the start of the gate. -/
def State.countEdge (s : State) (k cycle : Nat) : State :=
  let s := s.wrap (Fld.AX_PI_CNT_CNT k)
  let t := s.corrected ((cycle : Real) / 24)
  let x := s.input k
  let later : Bool := 24 * s.nextBoundary ≤ cycle
  let s := s.wrB (Fld.AX_PI_STAT_NO_SIGNAL k) false
  s.setInput k (if later then { x with
      nextN := x.nextN + 1, nextFirst := if x.nextN = 0 then t else x.nextFirst, nextLast := t, nextDelta := x.nextDelta + 1 }
    else match x.prev with
      | none => { x with prev := some t }
      | some _ => { x with n := x.n + 1, last := t })

/-- A quadrature transition of a pair (R156): +1 when A leads B. -/
def State.countQuad (s : State) (m : Nat) (dir : Int) (cycle : Nat) : State :=
  let s := s.wrS (Fld.AX_PI_CNT_CNT m) (s.rdS (Fld.AX_PI_CNT_CNT m) + dir)
  let x := s.input m
  if 24 * s.nextBoundary ≤ cycle then s.setInput m { x with nextDelta := x.nextDelta + dir } else s

/-- The XREF cycles a new level must hold before it is accepted (R155): three, or the FILTER time. -/
def State.edgeHold (s : State) (k : Nat) : Nat :=
  match s.rd (Fld.AX_PI_CFG_FILTER k) with
  | 0 => 3
  | 1 => 25
  | 2 => 246
  | 3 => 2458
  | _ => 24576

/-- A change of a pulse input's level, or of both inputs of a pair in one sample, that holds for `held` XREF cycles from the
one it was first sampled at: accepted once it has held for long enough (R155, R156). -/
def State.pulseEdge (s : State) (k : Nat) (level partner both : Bool) (cycle held : Nat) : State :=
  let m := k - k % 2
  let quad := s.flag (Fld.AX_PI_CFG_MODE m)
  if s.axState = axOff || s.flag Fld.AX_STATUS_FLD_LOW || decide (held < s.edgeHold k) then s
  else if quad && s.flag (Fld.AX_PI_CFG_ENABLE m) then
    let s := s.wrB (Fld.AX_PI_STAT_LEVEL k) level
    if both then
      (s.wrB (Fld.AX_PI_STAT_LEVEL (m + (1 - k % 2))) partner).count (Fld.AX_PI_STAT_QERR m)
    else s.countQuad m (if (level != partner) = (k % 2 = 0) then 1 else -1) cycle
  else if s.flag (Fld.AX_PI_CFG_ENABLE k) then
    let s := s.wrB (Fld.AX_PI_STAT_LEVEL k) level
    if s.edgeCounts k level then s.countEdge k cycle else s
  else s

def execPulseEdge (k : Fin 8) (level partner bothChanged : Bool) (time : EdgeTime) (s : State) :
    Host.Outcome State Fault Refusal := .next (s.pulseEdge k.val level partner bothChanged time.cycle time.held)

/-- Whether GATE_MAX seconds from t_prev have passed without an edge, at the latest before the next sample (R157). -/
def State.gateOver (s : State) (k : Nat) : Bool :=
  let x := s.input k
  let gate : Real := ((s.rd (Fld.AX_PI_CFG_GATE_MAX k) + 1 : Nat) : Real) * 1000000000
  x.n = 0 && x.nextN = 0 && x.prev.any fun t => decide (t + gate ≤ s.corrected ((s.nextSample : Nat) : Real))

/-- No edge within GATE_MAX of the last one (R157); nothing happens while the block has no power (R159). -/
def State.noSignal (s : State) (k : Nat) : State :=
  if s.axState = axOff || !s.flag (Fld.AX_PI_CFG_ENABLE k) || s.flag (Fld.AX_PI_CFG_MODE k) || !s.gateOver k then s
  else ((s.setInput k { s.input k with prev := none }).wr (Fld.AX_PI_FREQ_FREQ k) 0).wrB (Fld.AX_PI_STAT_NO_SIGNAL k) true

def execNoSignal (k : Fin 8) (s : State) : Host.Outcome State Fault Refusal := .next (s.noSignal k.val)

/-- The edges that fell behind a boundary at which nothing was computed. -/
def PulseIn.roll (x : PulseIn) : PulseIn :=
  let y := { x with nextN := 0, nextDelta := 0 }
  if x.nextN = 0 then y
  else match x.prev with
    | none => { y with prev := some x.nextFirst, n := x.nextN - 1, last := x.nextLast }
    | some _ => { y with n := x.n + x.nextN, last := x.nextLast }

/-- The count and frequency of an input at a boundary that ends a tick of `ns` nanoseconds (R157); without power the block
keeps what it captured (R159). -/
def State.inputTick (s : State) (ns : Real) (k : Nat) : State :=
  if !s.flag (Fld.AX_PI_CFG_ENABLE k) then s
  else if s.axState = axOff then s.setInput k (s.input k).roll
  else
    let x := s.input k
    let cnt := s.rdS (Fld.AX_PI_CNT_CNT k) - x.nextDelta
    let s := s.wrS (Fld.AX_PI_TCNT_CNT k) cnt
    let next : PulseIn := { x with n := x.nextN, last := x.nextLast, nextN := 0, nextDelta := 0, base := cnt }
    if s.flag (Fld.AX_PI_CFG_MODE k) then
      let d := toSigned 32 (ofSigned 32 (cnt - x.base))
      let f : Real := rdiv ((d : Real) * 1000000000) ns
      (s.wr (Fld.AX_PI_FREQ_FREQ k) (toB32 f).toNat).setInput k next
    else
      match x.prev with
      | some t =>
        if x.n = 0 then
          (s.wrB (Fld.AX_PI_STAT_STALE k) (cnt = x.base)).setInput k next
        else
          let f : Real := rdiv ((x.n : Real) * 1000000000) (x.last - t)
          let s := (s.wr (Fld.AX_PI_FREQ_FREQ k) (toB32 f).toNat).wrB (Fld.AX_PI_STAT_STALE k) false
          s.setInput k { next with prev := some x.last }
      | none =>
        let s := s.wrB (Fld.AX_PI_STAT_STALE k) true
        s.setInput k (if x.nextN = 0 then next
          else { next with prev := some x.nextFirst, n := x.nextN - 1 })

/-- An input's settings have changed (R160): its gate restarts, and its count is 0 if its MODE changed. -/
def State.inputRestart (s : State) (k : Nat) (mode : Bool) : State :=
  let s := if mode then (s.wr (Fld.AX_PI_CNT_CNT k) 0).wr (Fld.AX_PI_TCNT_CNT k) 0 else s
  s.setInput k { base := s.rdS (Fld.AX_PI_CNT_CNT k) }

end Sys2Proof.Machine
end

