-- ==== Sys2Proof/Machine/Steam.lean ====
section
/-!
DEFINITION. The industrial formulation IAPWS-IF97 (R174): regions 1 and 2, the saturation line, the boundary of regions 2 and
3. The spec names the formulation and prints values of it; its coefficients are those of the published standard (PRESUMED,
notes/assumptions/67.md). Pressures in kPa, temperatures in °C, densities in kg/m³, enthalpies in kJ/kg.
-/

namespace Sys2Proof.Machine

/-! ### Coefficients: exponents, then a decimal mantissa and its power of ten -/

/-- Region 1: I, J, n, part 1. -/
def if97OneA : List (Nat × Int × Int × Int) := [
  (0, -2, 14632971213167, -14), (0, -1, -84548187169114, -14), (0, 0, -37563603672040, -13),
  (0, 1, 33855169168385, -13), (0, 2, -95791963387872, -14), (0, 3, 15772038513228, -14),
  (0, 4, -16616417199501, -15), (0, 5, 81214629983568, -17), (1, -9, 28319080123804, -17),
  (1, -7, -60706301565874, -17), (1, -1, -18990068218419, -15), (1, 0, -32529748770505, -15)]
/-- Region 1: I, J, n, part 2. -/
def if97OneB : List (Nat × Int × Int × Int) := [
  (1, 1, -21841717175414, -15), (1, 3, -52838357969930, -18), (2, -3, -47184321073267, -17),
  (2, 0, -30001780793026, -17), (2, 1, 47661393906987, -18), (2, 3, -44141845330846, -19),
  (2, 17, -72694996297594, -29), (3, -4, -31679644845054, -18), (3, 0, -28270797985312, -19),
  (3, 6, -85205128120103, -23), (4, -5, -22425281908000, -19), (4, -2, -65171222895601, -20)]
/-- Region 1: I, J, n, part 3. -/
def if97OneC : List (Nat × Int × Int × Int) := [
  (4, 10, -14341729937924, -26), (5, -8, -40516996860117, -20), (8, -11, -12734301741641, -22),
  (8, -6, -17424871230634, -23), (21, -29, -68762131295531, -32), (23, -31, 14478307828521, -33),
  (29, -38, 26335781662795, -36), (30, -39, -11947622640071, -36), (31, -40, 18228094581404, -37),
  (32, -41, -93537087292458, -39)]
/-- Region 1: I, J, n. -/
def if97One : List (Nat × Int × Int × Int) := if97OneA ++ if97OneB ++ if97OneC

/-- Region 2, ideal-gas part: J, n. -/
def if97Ideal : List (Int × Int × Int) := [
  (0, -96927686500217, -13), (1, 10086655968018, -12), (-5, -56087911283020, -16), (-4, 71452738081455, -15),
  (-3, -40710498223928, -14), (-2, 14240819171444, -13), (-1, -43839511319450, -13), (2, -28408632460772, -14),
  (3, 21268463753307, -15)]

/-- Region 2, residual part: I, J, n, part 1. -/
def if97TwoA : List (Nat × Int × Int × Int) := [
  (1, 0, -17731742473213, -16), (1, 1, -17834862292358, -15), (1, 2, -45996013696365, -15),
  (1, 3, -57581259083432, -15), (1, 6, -50325278727930, -15), (2, 1, -33032641670203, -18),
  (2, 2, -18948987516315, -17), (2, 4, -39392777243355, -16), (2, 7, -43797295650573, -15),
  (2, 36, -26674547914087, -18), (3, 0, 20481737692309, -21), (3, 1, 43870667284435, -20),
  (3, 3, -32277677238570, -18), (3, 6, -15033924542148, -16), (3, 35, -40668253562649, -15)]
/-- Region 2, residual part: I, J, n, part 2. -/
def if97TwoB : List (Nat × Int × Int × Int) := [
  (4, 1, -78847309559367, -23), (4, 2, 12790717852285, -21), (4, 3, 48225372718507, -20),
  (5, 7, 22922076337661, -19), (6, 3, -16714766451061, -24), (6, 16, -21171472321355, -16),
  (6, 35, -23895741934104, -12), (7, 0, -59059564324270, -31), (7, 11, -12621808899101, -19),
  (7, 25, -38946842435739, -15), (8, 8, 11256211360459, -24), (8, 36, -82311340897998, -13),
  (9, 13, 19809712802088, -21), (10, 4, 10406965210174, -32), (10, 10, -10234747095929, -26)]
/-- Region 2, residual part: I, J, n, part 3. -/
def if97TwoC : List (Nat × Int × Int × Int) := [
  (10, 14, -10018179379511, -22), (16, 29, -80882908646985, -24), (16, 50, 10693031879409, -14),
  (18, 57, -33662250574171, -14), (20, 20, 89185845355421, -38), (20, 35, 30629316876232, -26),
  (20, 48, -42002467698208, -19), (21, 21, -59056029685639, -39), (22, 53, 37826947613457, -19),
  (23, 39, -12768608934681, -28), (24, 26, 73087610595061, -42), (24, 40, 55414715350778, -30),
  (24, 58, -94369707241210, -20)]
/-- Region 2, residual part: I, J, n. -/
def if97Two : List (Nat × Int × Int × Int) := if97TwoA ++ if97TwoB ++ if97TwoC

/-- Region 4: i, n. -/
def if97Sat : List (Int × Int × Int) := [
  (1, 11670521452767, -10), (2, -72421316703206, -8), (3, -17073846940092, -12), (4, 12020824702470, -9),
  (5, -32325550322333, -7), (6, 14915108613530, -12), (7, -48232657361591, -10), (8, 40511340542057, -8),
  (9, -23855557567849, -14), (10, 65017534844798, -11)]

/-- Boundary of regions 2 and 3: i, n. -/
def if97Edge : List (Int × Int × Int) := [
  (1, 34805185628969, -11), (2, -11671859879975, -13), (3, 10192970039326, -16)]

/-- A decimal number. -/
def dec (m e : Int) : Real := (m : Real) * ipow 10 e

/-! ### Regions 1 and 2 -/

/-- The specific gas constant of water, kJ/(kg K), and the absolute temperature. -/
def waterR : Real := 461526 / 1000000
def kelvin (t : Real) : Real := t + 27315 / 100

/-- Σ k·n·x^(I - a)·y^(J - b) over the terms of a region, with k = I for a derivative in x and J for one in y. -/
def if97Sum (rows : List (Nat × Int × Int × Int)) (byX : Bool) (x y : Real) : Real :=
  (rows.map fun (r : Nat × Int × Int × Int) =>
    let i : Int := r.1
    let j := r.2.1
    let k := if byX then i else j
    if k = 0 then 0
    else trim ((k : Real) * dec r.2.2.1 r.2.2.2 * trim (ipow x (if byX then i - 1 else i)) *
      trim (ipow y (if byX then j else j - 1)))).sum

/-- π·∂γ/∂π and τ·∂γ/∂τ of region 1 or 2 at a pressure and temperature. -/
def if97Gamma (region : Nat) (p t : Real) : Real × Real :=
  if region = 1 then
    let x := trim (p / 16530)
    let y := trim (1386 / kelvin t)
    (-x * if97Sum if97One true (71 / 10 - x) (y - 1222 / 1000), y * if97Sum if97One false (71 / 10 - x) (y - 1222 / 1000))
  else
    let x := trim (p / 1000)
    let y := trim (540 / kelvin t)
    let ideal : Real := (if97Ideal.map fun (r : Int × Int × Int) =>
      (r.1 : Real) * dec r.2.1 r.2.2 * trim (ipow y (r.1 - 1))).sum
    (1 + x * if97Sum if97Two true x (y - 1 / 2), y * (ideal + if97Sum if97Two false x (y - 1 / 2)))

/-- Density and enthalpy in a region. -/
def if97Rho (region : Nat) (p t : Real) : Real := trim (rdiv p (waterR * kelvin t * (if97Gamma region p t).1))
def if97H (region : Nat) (p t : Real) : Real := trim (waterR * kelvin t * (if97Gamma region p t).2)

/-! ### Region 4 and the boundary of region 3 -/

/-- Coefficient n_i of region 4. -/
def satN (i : Nat) : Real :=
  ((if97Sat.find? fun (r : Int × Int × Int) => r.1 = (i : Int)).map fun (r : Int × Int × Int) => dec r.2.1 r.2.2).getD 0

/-- The saturation pressure. -/
def if97Ps (t : Real) : Real :=
  let th := trim (kelvin t + rdiv (satN 9) (kelvin t - satN 10))
  let a := th * th + satN 1 * th + satN 2
  let b := satN 3 * th * th + satN 4 * th + satN 5
  let c := satN 6 * th * th + satN 7 * th + satN 8
  trim (1000 * ipow (trim (rdiv (2 * c) (sqrtR (b * b - 4 * a * c) - b))) 4)

/-- The saturation temperature. -/
def if97Ts (p : Real) : Real :=
  let b := sqrtR (sqrtR (p / 1000))
  let e := b * b + satN 3 * b + satN 6
  let f := satN 1 * b * b + satN 4 * b + satN 7
  let g := satN 2 * b * b + satN 5 * b + satN 8
  let d := trim (rdiv (2 * g) (-f - sqrtR (f * f - 4 * e * g)))
  trim ((satN 10 + d - sqrtR ((satN 10 + d) * (satN 10 + d) - 4 * (satN 9 + satN 10 * d))) / 2 - 27315 / 100)

/-- The pressure of the boundary between regions 2 and 3. -/
def if97B23 (t : Real) : Real :=
  let n (i : Nat) : Real :=
    ((if97Edge.find? fun (r : Int × Int × Int) => r.1 = (i : Int)).map fun (r : Int × Int × Int) => dec r.2.1 r.2.2).getD 0
  1000 * (n 1 + n 2 * kelvin t + n 3 * kelvin t * kelvin t)

end Sys2Proof.Machine
end

