-- ==== Sys2Proof/Machine/Streams.lean ====
section
/-!
DEFINITION. The process custody streams (R164 to R181): inputs of a tick, differential-pressure primaries, properties of
water, steam and air, and the stream quantum. The equations are evaluated on real numbers; what the engine's binary64
arithmetic adds to mass, volume and energy is free within the ±10 ppm of R179.
-/

namespace Sys2Proof.Machine

/-- The working state of a stream. -/
def State.stream (s : State) (n : Nat) : Stream := s.strm.getD n {}

/-- Replace it. -/
def State.setStream (s : State) (n : Nat) (x : Stream) : State := { s with strm := s.strm.set n x }

/-- States of MT_PS_STATUS.STATE. -/
def psOff : Nat := 0
def psRun : Nat := 1
def psStopped : Nat := 2

/-- Kinds of stream (R165). -/
def kindWater : Nat := 0
def kindHeat : Nat := 1
def kindSuper : Nat := 2
def kindSat : Nat := 3
def kindAir : Nat := 4

/-- A binary32 constant of the image. -/
def State.psReal (s : State) (f : Field) : Real := b32 (BitVec.ofNat 32 (s.rd f))

/-! ### Inputs (R166 to R168) -/

/-- An input of a tick: its value and whether it failed, was held or was substituted (R168). -/
structure PsIn where
  v : Real
  failed : Bool := false
  held : Bool := false
  subst : Bool := false
deriving DecidableEq, Repr

/-- What the scans of the ended tick gave for a channel (R153): none where the block had no power. -/
def State.axEnded (s : State) (c : Nat) : AuxAcc := storeGet (fun _ => ({} : AuxAcc)) s.aux.ended c

/-- x̄ of a channel: the tick mean in units of full scale. -/
def State.axMean (s : State) (c : Nat) : Real :=
  rdiv ((s.axEnded c).sum : Real) (((s.axEnded c).cnt : Real) * 2 ^ 30)

/-- A channel's tick mean in volts. -/
def State.axVolts (s : State) (c : Nat) : Real :=
  s.axMean c * (2048 / 1000) / (2 ^ s.rd (Fld.AX_CH_CFG_GAIN c) : Nat)

/-- The coefficients of IEC 60751. -/
def rtdA : Real := 39083 / 10000000
def rtdB : Real := -5775 / 10000000000
def rtdC : Real := -4183 / 1000000000000000

/-- Newton's steps towards the temperature below 0 °C whose R/R0 is given. The ratio rises with T and its slope falls, so
they converge for every ratio. -/
def rtdNewton (ratio : Real) : (fuel : Nat) → Real → Real
  | 0, t => t
  | fuel + 1, t =>
    let f := 1 + rtdA * t + rtdB * t ^ 2 + rtdC * (t - 100) * t ^ 3 - ratio
    let step := f / (rtdA + 2 * rtdB * t + rtdC * (4 * t ^ 3 - 300 * t ^ 2))
    let t' := trim (t - step)
    if decide (abs step ≤ 1 / 1000000000000) then t' else rtdNewton ratio fuel t'

/-- Temperature of an IEC 60751 thermometer of R0 at a resistance (R166); the iteration below R0 ends within 10^-6 K of the
root. -/
def rtdTemp (r r0 : Real) : Real :=
  let ratio := rdiv r r0
  if r0 ≤ r then (-rtdA + sqrtR (rtdA * rtdA - 4 * rtdB * (1 - ratio))) / (2 * rtdB)
  else rtdNewton ratio 64 0 + max (-1 / 1000000) (min (1 / 1000000) (Config.rtdError ratio))

/-- Whether a channel makes its input fail (R167). -/
def State.axBad (s : State) (c : Nat) : Bool :=
  let a := s.axEnded c
  a.cnt = 0 || a.rail || a.fault || a.fld

/-- The change of a pulse count since the last computed boundary (R166). -/
def State.pulseDelta (g : State) (c : Nat) (prev : Option Nat) : Int :=
  match prev with
  | none => 0
  | some p =>
    let d := ofSigned 32 ((g.rd (Fld.AX_PI_TCNT_CNT c) : Int) - p)
    if g.flag (Fld.AX_PI_CFG_MODE (c - c % 2)) then toSigned 32 d else d

/-- The value an input's source gives for a tick of `dt` ns (R166), in L/s for FLOW from pulses, and whether it fails
(R167). `g` holds the registers the tick is computed under. -/
def State.psRaw (s g : State) (n i : Nat) (dt : Real) : Real × Bool :=
  let chan := g.rd (Fld.MT_PS_IN_CFG_CHAN n i)
  let a := g.psReal (Fld.MT_PS_IN_A_VALUE n i)
  let b := g.psReal (Fld.MT_PS_IN_B_VALUE n i)
  let inside (v : Real) : Bool :=
    decide (g.psReal (Fld.MT_PS_IN_LO_VALUE n i) ≤ v) && decide (v ≤ g.psReal (Fld.MT_PS_IN_HI_VALUE n i))
  match g.rd (Fld.MT_PS_IN_CFG_SRC n i) with
  | 1 =>
    let v := a + b * g.axMean chan
    let v := if g.flag (Fld.MT_PS_IN_CFG_GAUGE n i) then v + g.psReal (Fld.MT_PS_P_ATM_VALUE n) else v
    (v, g.axBad chan || !inside v)
  | 2 =>
    let ref := g.rd (Fld.MT_PS_IN_CFG_CHAN2 n i)
    let v := rtdTemp (a * rdiv (g.axVolts chan) (g.axVolts ref)) b
    (v, g.axBad chan || g.axBad ref || !inside v || s.aux.openTick / 2 ^ g.rd (Fld.MT_PS_IN_CFG_EXC n i) % 2 = 1)
  | 3 =>
    let d := g.pulseDelta (chan % 8) ((s.stream n).prev.getD i none)
    (rdiv (rdiv d a) (dt / 1000000000), s.aux.lowTick)
  | _ => (g.psReal (Fld.MT_PS_IN_SUB_VALUE n i), false)

/-- An input's value for a tick that covers `dt` ns (R168). -/
def State.psInput (s g : State) (n i : Nat) (dt : Real) : PsIn :=
  let r := s.psRaw g n i dt
  if !r.2 then { v := r.1 }
  else
    let sub := g.psReal (Fld.MT_PS_IN_SUB_VALUE n i)
    let x := s.stream n
    let limit : Real := g.rd (Fld.MT_PS_IN_CFG_HOLD_MAX n i) * 10 * 1000000000
    match g.rd (Fld.MT_PS_IN_CFG_FAIL_MODE n i), x.good.getD i none with
    | 0, some v =>
      if x.heldFor.getD i 0 + dt ≤ limit then { v, failed := true, held := true }
      else { v := sub, failed := true, subst := true }
    | 2, _ => { v := 0, failed := true, subst := true }
    | _, _ => { v := sub, failed := true, subst := true }

/-- Write an input's result registers and keep what later ticks need of it. -/
def State.psInputDone (s g : State) (n i : Nat) (dt : Real) (r : PsIn) : State :=
  let x := s.stream n
  let x := if r.failed then { x with heldFor := x.heldFor.set i (x.heldFor.getD i 0 + dt) }
    else { x with good := x.good.set i (some r.v), heldFor := x.heldFor.set i 0 }
  let cnt := if g.rd (Fld.MT_PS_IN_CFG_SRC n i) = 3 then some (g.rd (Fld.AX_PI_TCNT_CNT (g.rd (Fld.MT_PS_IN_CFG_CHAN n i) % 8)))
    else none
  let x := { x with prev := x.prev.set i cnt }
  let s := (s.setStream n x).wr (Fld.MT_PS_IN_VAL_VALUE n i) (toB32 r.v).toNat
  let s := (s.wrB (Fld.MT_PS_IN_STAT_FAILED n i) r.failed).wrB (Fld.MT_PS_IN_STAT_HELD n i) r.held
  let s := s.wrB (Fld.MT_PS_IN_STAT_SUBST n i) r.subst
  if r.failed then s.count (Fld.MT_PS_IN_STAT_FAIL_CNT n i) else s

/-! ### Properties (R174 to R177) -/

/-- Density, enthalpy, and whether the point was clamped. -/
structure Prop3 where
  rho : Real
  h : Real := 0
  range : Bool := false
deriving DecidableEq, Repr

/-- A number clamped to a range. -/
def clampTo (lo hi x : Real) : Real := max lo (min hi x)

/-- The limits of region 4 in pressure, kPa (R174). -/
def satLow : Real := 611657 / 1000000
def satHigh : Real := 165292 / 10

/-- Water in region 1, clamped first in T and then in p (R174). -/
def waterAt (p t : Real) : Prop3 :=
  let t' := clampTo 0 350 t
  let p' := clampTo (if97Ps t') 100000 p
  { rho := if97Rho 1 p' t', h := if97H 1 p' t', range := t' ≠ t || p' ≠ p }

/-- Steam of a dryness on the saturation line (R175). -/
def saturated (p t x : Real) : Prop3 :=
  let vg := rdiv 1 (if97Rho 2 p t)
  let vf := rdiv 1 (if97Rho 1 p t)
  { rho := rdiv 1 (x * vg + (1 - x) * vf), h := x * if97H 2 p t + (1 - x) * if97H 1 p t }

/-- Steam in region 2; below the saturation temperature, saturated vapour (R174, R175). -/
def superAt (p t : Real) : Prop3 :=
  if decide (satLow ≤ p) && decide (p ≤ satHigh) && decide (t < if97Ts p) then
    { saturated p (if97Ts p) 1 with range := true }
  else
    let t' := clampTo 0 800 t
    let top : Real := if t' ≤ 350 then if97Ps t' else if t' ≤ 590 then if97B23 t' else 100000
    let p' := min top p
    { rho := if97Rho 2 p' t', h := if97H 2 p' t', range := t' ≠ t || p' ≠ p }

/-- Saturated steam from its pressure (`byT` false) or its temperature (R175). -/
def satAt (byT : Bool) (p t x : Real) : Prop3 :=
  if byT then
    let t' := clampTo (1 / 100) 350 t
    { saturated (if97Ps t') t' x with range := t' ≠ t }
  else
    let p' := clampTo satLow satHigh p
    { saturated p' (if97Ts p') x with range := p' ≠ p }

/-- Position of a coordinate among ascending nodes: the lower node and the fraction of the interval, both clamped. -/
def nodeAt (nodes : List Real) (x : Real) : Nat × Real × Bool :=
  let lo := nodes.getD 0 0
  let hi := nodes.getD 7 0
  let x' := clampTo lo hi x
  let j := min 6 (((List.range 8).filter fun j => decide (nodes.getD j 0 ≤ x')).length - 1)
  (j, rdiv (x' - nodes.getD j 0) (nodes.getD (j + 1) 0 - nodes.getD j 0), x' ≠ x)

/-- Air by the ideal gas law with the compressibility table (R177). -/
def State.airAt (g : State) (n : Nat) (p t : Real) : Prop3 :=
  let a := nodeAt ((List.range 8).map fun j => g.psReal (Fld.MT_PS_ZP_VALUE n j)) p
  let b := nodeAt ((List.range 8).map fun k => g.psReal (Fld.MT_PS_ZT_VALUE n k)) t
  let z (j k : Nat) : Real := g.psReal (Fld.MT_PS_Z_VALUE n (8 * j + k))
  let row (j : Nat) : Real := z j b.1 + (z j (b.1 + 1) - z j b.1) * b.2.1
  let zz := row a.1 + (row (a.1 + 1) - row a.1) * a.2.1
  { rho := rdiv (p * g.psReal (Fld.MT_PS_MOLAR_VALUE n)) (zz * (8314462618 / 1000000000) * (t + 27315 / 100))
    range := a.2.2 || b.2.2 }

/-- The property source of a stream at a pressure and temperature. -/
def State.psProp (g : State) (n : Nat) (p t : Real) : Prop3 :=
  let kind := g.rd (Fld.MT_PS_CFG_KIND n)
  if kind = kindSuper then superAt p t
  else if kind = kindSat then
    satAt (g.flag (Fld.MT_PS_CFG_SAT_BY n)) p t (g.psReal (Fld.MT_PS_DRYNESS_VALUE n))
  else if kind = kindAir then g.airAt n p t
  else waterAt p t

/-! ### Differential-pressure primaries (R171 to R173) -/

/-- The terms (10^6/Re) and (19 000β/Re) of a discharge coefficient; at infinite Re they are 0. -/
def overRe (k : Real) : Option Real → Real
  | none => 0
  | some re => rdiv k re

/-- Discharge coefficient of a primary; D in m. -/
def coefC (prim : Nat) (beta dPipe : Real) (re : Option Real) : Real :=
  if prim = 4 then
    99 / 100 - 2262 / 10000 * rpow beta (41 / 10)
      - (175 / 100000 * beta ^ 2 - 33 / 10000 * rpow beta (415 / 100)) * rpow (overRe 1000000 re) (115 / 100)
  else if prim = 5 then
    9965 / 10000 - 653 / 100000 * rpow beta (1 / 2) * rpow (overRe 1000000 re) (1 / 2)
  else
    let mm := dPipe * 1000
    let l1 : Real := if prim = 1 then 0 else if prim = 2 then rdiv (254 / 10) mm else 1
    let l2 : Real := if prim = 1 then 0 else if prim = 2 then rdiv (254 / 10) mm else 47 / 100
    let a := rpow (overRe (19000 * beta) re) (8 / 10)
    let m2 := rdiv (2 * l2) (1 - beta)
    let c : Real := 5961 / 10000 + 261 / 10000 * beta ^ 2 - 216 / 1000 * beta ^ 8
      + 521 / 1000000 * rpow (overRe (1000000 * beta) re) (7 / 10)
      + (188 / 10000 + 63 / 10000 * a) * rpow beta (35 / 10) * rpow (overRe 1000000 re) (3 / 10)
      + (43 / 1000 + 80 / 1000 * expR (-10 * l1) - 123 / 1000 * expR (-7 * l1)) * (1 - 11 / 100 * a)
        * rdiv (beta ^ 4) (1 - beta ^ 4)
      - 31 / 1000 * (m2 - 8 / 10 * rpow m2 (11 / 10)) * rpow beta (13 / 10)
    if mm < 7112 / 100 then c + 11 / 1000 * (75 / 100 - beta) * (28 / 10 - mm / (254 / 10)) else c

/-- Expansibility of a primary. -/
def coefEps (prim : Nat) (beta tau kappa : Real) : Real :=
  if prim = 4 || prim = 5 then
    sqrtR (rdiv (kappa * rpow tau (rdiv 2 kappa)) (kappa - 1)
      * rdiv (1 - beta ^ 4) (1 - beta ^ 4 * rpow tau (rdiv 2 kappa))
      * rdiv (1 - rpow tau (rdiv (kappa - 1) kappa)) (1 - tau))
  else 1 - (351 / 1000 + 256 / 1000 * beta ^ 4 + 93 / 100 * beta ^ 8) * (1 - rpow tau (rdiv 1 kappa))

/-- The limits of Re (R173); D in m. -/
def clampRe (prim : Nat) (beta dPipe re : Real) : Real :=
  if prim = 4 then clampTo (if beta < 44 / 100 then 70000 else 20000) 10000000 re
  else if prim = 5 then clampTo 10000 10000000 re
  else if prim = 2 then max (max 5000 (170 * beta ^ 2 * (dPipe * 1000))) re
  else max (if beta ≤ 56 / 100 then 5000 else 16000 * beta ^ 2) re

/-- What the iteration of R172 has come to. -/
structure Iter where
  c : Real
  re : Real := 0
  n : Nat := 0
  done : Bool := false
  clamped : Bool := false
deriving DecidableEq, Repr

/-- The iteration of R172: `rek` is 4k/(π·VISC·D). -/
def iterate (prim : Nat) (beta dPipe rek : Real) : (fuel : Nat) → Iter → Iter
  | 0, r => r
  | fuel + 1, r =>
    let raw := rek * r.c
    let re := clampRe prim beta dPipe raw
    let cn := coefC prim beta dPipe (some re)
    let stop : Bool := decide (abs (cn - r.c) ≤ cn / 1000000000)
    let r : Iter := { c := cn, re, n := r.n + 1, done := stop, clamped := r.clamped || re ≠ raw }
    if stop then r else iterate prim beta dPipe rek fuel r

/-- The result of a DP primary. -/
structure DpRun where
  qm : Real := 0
  cut : Bool := false
  range : Bool := false
  noConv : Bool := false
  iter : Nat := 0
  c : Option Real := none
  eps : Option Real := none
  re : Real := 0
deriving DecidableEq, Repr

/-- The mass flow rate of a DP primary in kg/s (R171 to R173); pressures in kPa, `t2` the temperature the density of
WATER_HEAT with METER_AT = 1 is taken at (R176). -/
def State.dpFlow (g : State) (n : Nat) (dp p t td : Real) : DpRun :=
  if decide (dp < g.psReal (Fld.MT_PS_DP_CUT_VALUE n)) || decide (dp < 0) then { cut := true }
  else
    let prim := g.rd (Fld.MT_PS_CFG_PRIMARY n)
    let liquid : Bool := g.rd (Fld.MT_PS_CFG_KIND n) ≤ kindHeat
    let d := g.psReal (Fld.MT_PS_BORE_D20_VALUE n) / 1000 * (1 + g.psReal (Fld.MT_PS_LAM_BORE_VALUE n) * (t - 20))
    let dd := g.psReal (Fld.MT_PS_PIPE_D20_VALUE n) / 1000 * (1 + g.psReal (Fld.MT_PS_LAM_PIPE_VALUE n) * (t - 20))
    let beta := rdiv d dd
    let e := rdiv 1 (sqrtR (1 - beta ^ 4))
    let p1 := if g.flag (Fld.MT_PS_CFG_P_TAP n) then p + dp else p
    let raw := rdiv (p1 - dp) p1
    let tau := max raw (75 / 100)
    let eps := if liquid then 1 else coefEps prim beta tau (g.psReal (Fld.MT_PS_KAPPA_VALUE n))
    let rho := g.psProp n p1 td
    let k := e * eps * (piR / 4) * d ^ 2 * sqrtR (2 * (dp * 1000) * rho.rho)
    let rek := rdiv (4 * k) (piR * g.psReal (Fld.MT_PS_VISC_VALUE n) * dd)
    let r := iterate prim beta dd rek 15 { c := coefC prim beta dd none }
    { qm := r.c * k, range := rho.range || tau ≠ raw || r.clamped || !r.done, noConv := !r.done, iter := r.n
      c := some r.c, eps := some eps, re := r.re }

/-! ### The tick (R169, R170, R178, R180) -/

/-- A result within ±10 ppm of an exact evaluation (R179); `which` separates the results of one tick. -/
def State.near (s : State) (which : Nat) (q : Real) : Real :=
  q * (1 + clampTo (-1 / 100000) (1 / 100000) (Config.openReal s.free which))

/-- Whether the saturation check of R175 fails. -/
def State.satMismatch (g : State) (n : Nat) (p t : Real) : Bool :=
  let other := if g.flag (Fld.MT_PS_CFG_SAT_BY n) then 1 else 2
  g.rd (Fld.MT_PS_CFG_KIND n) = kindSat && g.rd (Fld.MT_PS_IN_CFG_SRC n other) ≠ 0 &&
    decide (g.psReal (Fld.MT_PS_SAT_TOL_VALUE n) < abs (t - if97Ts (clampTo satLow satHigh p)))

/-- What a tick gives: mass in kg, volumes in L and energy in kJ, the properties, the run of a DP primary, the flags. -/
structure PsTick where
  mass : Real
  vol : Real
  voln : Real
  energy : Real
  rho : Real
  h : Real
  href : Real
  dp : DpRun
  range : Bool
  cut : Bool
deriving DecidableEq, Repr

/-- The custody quantities of a tick of `sec` seconds from the values of its inputs (R170, R175, R176); `flow` is the
volume in L of a PULSE primary. -/
def State.psEval (s g : State) (n : Nat) (sec : Real) (dp p t t2 flow : Real) : PsTick :=
  let kind := g.rd (Fld.MT_PS_CFG_KIND n)
  let pulse : Bool := g.rd (Fld.MT_PS_CFG_PRIMARY n) = 0
  let hot := g.psProp n p t
  let back := waterAt p t2
  let ret : Bool := kind = kindHeat && g.flag (Fld.MT_PS_CFG_METER_AT n)
  let rho := if ret then back else hot
  let run : DpRun := if pulse then {} else g.dpFlow n dp p t (if ret then t2 else t)
  let mass := s.near 0 (if pulse then flow / 1000 * rho.rho else run.qm * sec)
  let vol := s.near 1 (if pulse then flow else rdiv (run.qm * sec) rho.rho * 1000)
  let norm := g.psProp n (g.psReal (Fld.MT_PS_PN_VALUE n)) (g.psReal (Fld.MT_PS_TN_VALUE n))
  let steam : Bool := kind = kindSuper || kind = kindSat
  let voln := if steam then 0 else s.near 2 (rdiv (if pulse then flow / 1000 * rho.rho else run.qm * sec) norm.rho * 1000)
  let ref : Prop3 :=
    if kind = kindHeat then back
    else if steam then
      if g.flag (Fld.MT_PS_CFG_HREF_SRC n) then waterAt (g.psReal (Fld.MT_PS_P_ATM_VALUE n)) t2
      else { rho := 0, h := g.psReal (Fld.MT_PS_HREF_VALUE n) }
    else { rho := 0 }
  let small : Bool := kind = kindHeat && decide (abs (t - t2) < g.psReal (Fld.MT_PS_DT_CUT_VALUE n))
  let energy := if kind = kindWater || kind = kindAir || small then 0
    else s.near 3 ((if pulse then flow / 1000 * rho.rho else run.qm * sec) * (hot.h - ref.h))
  { mass, vol, voln, energy, rho := rho.rho, h := hot.h, href := ref.h, dp := run
    range := hot.range || (kind = kindHeat && back.range) || (steam && ref.range) || (!steam && norm.range) || run.range
    cut := run.cut || small }

/-- A quantity as the quantum codes it: Q40.24. -/
def q24 (q : Real) : Int := nearest (q * 2 ^ 24)

/-- A density or enthalpy as the engine reports it: within ±1 ppm of IAPWS-IF97 (R179), and of the gas law itself. -/
def State.if97Near (s : State) (air : Bool) (which : Nat) (q : Real) : Real :=
  if air then q else q * (1 + clampTo (-1 / 1000000) (1 / 1000000) (Config.if97Error s.free which))

/-- Write the result registers of a tick of `sec` seconds. -/
def State.psResults (s g : State) (n : Nat) (sec : Real) (r : PsTick) : State :=
  let kind := g.rd (Fld.MT_PS_CFG_KIND n)
  let fixed : Bool := kind = kindAir
  let given : Bool := !g.flag (Fld.MT_PS_CFG_HREF_SRC n) && kind ≠ kindHeat
  let put (s : State) (f : Field) (q : Real) : State := s.wr f (toB32 q).toNat
  let s := put s (Fld.MT_PS_QM_VALUE n) (rdiv r.mass sec)
  let s := put s (Fld.MT_PS_QV_VALUE n) (rdiv (r.vol / 1000) sec)
  let s := put s (Fld.MT_PS_QN_VALUE n) (rdiv (r.voln / 1000) sec)
  let s := put s (Fld.MT_PS_PWR_VALUE n) (rdiv r.energy sec)
  let s := put s (Fld.MT_PS_RHO_VALUE n) (s.if97Near fixed 0 r.rho)
  let s := if kind = kindAir then s else put s (Fld.MT_PS_H_VALUE n) (s.if97Near false 1 r.h)
  let s := if kind = kindAir || kind = kindWater then s else put s (Fld.MT_PS_HREF_USED_VALUE n) (s.if97Near given 2 r.href)
  if g.rd (Fld.MT_PS_CFG_PRIMARY n) = 0 then
    ((s.wr (Fld.MT_PS_C_VALUE n) 0).wr (Fld.MT_PS_EPS_VALUE n) 0).wr (Fld.MT_PS_RE_VALUE n) 0
  else
    let s := put s (Fld.MT_PS_RE_VALUE n) r.dp.re
    match r.dp.c, r.dp.eps with
    | some c, some e => put (put s (Fld.MT_PS_C_VALUE n) c) (Fld.MT_PS_EPS_VALUE n) e
    | _, _ =>
      let s := (s.wr (Fld.MT_PS_C_VALUE n) (Config.openWord s.free).toNat).drawn
      (s.wr (Fld.MT_PS_EPS_VALUE n) (Config.openWord s.free).toNat).drawn

/-- After the due tick, the changes of a live load made while it was due (R181). -/
def State.psSettle (s : State) (n : Nat) : State :=
  let x := s.stream n
  let good := x.drop.foldl (fun (l : List (Option Real)) i => l.set i none) x.good
  let prev := x.zero.foldl (fun (l : List (Option Nat)) i => l.set i (some 0)) x.prev
  let prev := x.moved.foldl (fun (l : List (Option Nat)) i => l.set i none) prev
  s.setStream n { x with
    good
    prev
    old := none
    drop := []
    zero := []
    moved := [] }

/-- The 56 bytes of a stream quantum as it crosses the Vein (R178). -/
def streamQuantumBytes (k : Quantum) : List Byte :=
  let bit (n : Nat) (v : Bool) : Nat := if v then 2 ^ n else 0
  beBytes 1 (k.owner - 16) ++ beBytes 1 (bit 0 k.subst + bit 1 k.range + bit 2 k.lowCut + bit 3 k.held + bit 4 k.degraded) ++
  beBytes 1 k.kind ++ beBytes 1 0 ++ beBytes 8 k.endEpoch ++ beBytes 4 k.duration ++ beBytes 8 (ofSigned 64 k.mass) ++
  beBytes 8 (ofSigned 64 k.vol) ++ beBytes 8 (ofSigned 64 k.voln) ++ beBytes 8 (ofSigned 64 k.energy) ++ beBytes 8 0

/-- The computation of a tick of `dt` ns that ended at an epoch (R169). -/
def State.psCompute (s : State) (n : Nat) (dt : Real) (epoch : Nat) : State :=
  let x := s.stream n
  let g : State := match x.old with
    | some r => { s with regs := r }
    | none => s
  let pulse : Bool := g.rd (Fld.MT_PS_CFG_PRIMARY n) = 0
  let gone := x.lost.getD 0
  let span := dt + gone
  let cover (i : Nat) : Real := if i = 4 then span else dt
  let ins := (List.range 5).map fun i => s.psInput g n i (cover i)
  let val (i : Nat) : Real := (ins.getD i { v := 0 }).v
  let bound (i : Nat) : Bool := g.rd (Fld.MT_PS_IN_CFG_SRC n i) ≠ 0
  let subst := (List.range 5).any fun i => bound i && (ins.getD i { v := 0 }).failed
  let sec := (if pulse then span else dt) / 1000000000
  let r := s.psEval g n sec (val 0) (val 1) (val 2) (val 3) (val 4 * sec)
  let s := { s with free := s.free + 1 }
  let s := (List.range 5).foldl (fun s i =>
    if bound i then s.psInputDone g n i (cover i) (ins.getD i { v := 0 }) else s) s
  let held : Bool := x.lost.isSome
  let extra (k : Nat) : Real := if pulse then 0 else x.rates.getD k 0 * (gone / 1000000000)
  let quantum : Quantum := {
    owner := 16 + n, endEpoch := epoch - 1, mass := q24 ((r.mass + extra 0) * 1000), vol := q24 (r.vol + extra 1)
    voln := q24 (r.voln + extra 2), energy := q24 ((r.energy + extra 3) * 1000 * 1000 / 3600), subst
    degraded := subst || r.range || held, held, range := r.range, lowCut := r.cut, kind := g.rd (Fld.MT_PS_CFG_KIND n)
    duration := (nearest span).toNat }
  let s := { s with led := { s.led with posted := s.led.posted ++ [quantum] } }
  let rates := [r.mass, r.vol, r.voln, r.energy].map fun q => rdiv q sec
  let s := s.setStream n { s.stream n with due := none, lost := none, rates }
  let s := s.psResults g n sec r
  let s := (s.wrB (Fld.MT_PS_STATUS_SUBST n) subst).wrB (Fld.MT_PS_STATUS_RANGE n) r.range
  let s := (s.wrB (Fld.MT_PS_STATUS_LOWCUT n) r.cut).wrB (Fld.MT_PS_STATUS_HELD n) held
  let s := (s.wrB (Fld.MT_PS_STATUS_NOCONV n) r.dp.noConv).wr (Fld.MT_PS_STATUS_ITER n) r.dp.iter
  let s := s.wrB (Fld.MT_PS_STATUS_SAT_MISMATCH n) (g.satMismatch n (val 1) (val 2))
  let s := s.wrB (Fld.MT_PS_STATUS_DEGRADED n) (subst || r.range || held)
  let s := if subst then s.wrB (Fld.MT_PS_STATUS_SUBST_SEEN n) true else s
  let s := if r.range then s.wrB (Fld.MT_PS_STATUS_RANGE_SEEN n) true else s
  let s := if held then s.wrB (Fld.MT_PS_STATUS_HELD_SEEN n) true else s
  ((s.wrap (Fld.MT_PS_SEQ_SEQ n)).psSettle n).refreshDegraded

/-- The computation of the due tick is lost (R180). -/
def State.psLose (s : State) (n : Nat) : State :=
  let x := s.stream n
  match x.due with
  | none => s
  | some (dt, _) => (s.setStream n { x with due := none, lost := some (x.lost.getD 0 + dt) }).psSettle n

/-- The computation of a stream for the tick just ended; with its engine restarting it is lost (R169, R180). -/
def State.streamTick (s : State) (n : Fin 4) : State :=
  let s := s.axCaptureDue
  match (s.stream n.val).due with
  | none => s
  | some (dt, epoch) =>
    if s.rd (Fld.MT_PS_STATUS_STATE n.val) ≠ psRun then s.psLose n.val
    else if s.esc.restarting.contains (.procEngine n) then s.psLose n.val
    else s.psCompute n.val dt epoch

def execStreamTick (n : Fin 4) (s : State) : Host.Outcome State Fault Refusal := .next (s.streamTick n)

/-- A boundary that ends a tick of `dt` ns: a tick still due is lost, and the ended one is due (R169). -/
def State.streamDue (s : State) (dt : Real) (epoch n : Nat) : State :=
  if s.rd (Fld.MT_PS_STATUS_STATE n) ≠ psRun then s
  else
    let s := s.psLose n
    s.setStream n { s.stream n with due := some (dt, epoch) }

/-- A stream enters RUN when it is enabled and its engine has power; a STOPPED stream stays so (R164, R180). Its inputs
start anew. -/
def State.streamStart (s : State) (n : Nat) : State :=
  if s.flag (Fld.MT_PS_CFG_ENABLE n) && s.domOn 10 && s.rd (Fld.MT_PS_STATUS_STATE n) = psOff then
    let x := s.stream n
    (s.setStream n { x with due := none, lost := none, prev := List.replicate 5 none }).wr (Fld.MT_PS_STATUS_STATE n) psRun
  else s

/-- The isolate step of DMP, and a load that disables the stream: the computation in progress completes and the stream is
OFF (R180, R405). -/
def State.streamStop (s : State) (n : Fin 4) : State :=
  if s.rd (Fld.MT_PS_STATUS_STATE n.val) ≠ psRun then s
  else (s.streamTick n).wr (Fld.MT_PS_STATUS_STATE n.val) psOff

/-- A second fault of its engine within 10 s stops the stream until the next core reset (R180). -/
def State.streamHalt (s : State) (n : Nat) : State :=
  if s.rd (Fld.MT_PS_STATUS_STATE n) = psRun then
    (s.setStream n { s.stream n with due := none }).wr (Fld.MT_PS_STATUS_STATE n) psStopped
  else s

/-- A live load changes inputs of a stream (`drop`), restarts the counts of pulse inputs they use (`zero`), or gives them
another source (`moved`): such an input starts anew, so it has no previous boundary (R166). `regs` are
the registers before the load (R181). -/
def State.streamReload (s : State) (regs : List (Nat × Word)) (n : Nat) (drop zero moved : List Nat) : State :=
  let x := s.stream n
  let s := s.setStream n { x with
    drop
    zero
    moved
    old := if x.due.isSome then some regs else none }
  if x.due.isSome then s else s.psSettle n

end Sys2Proof.Machine
end

