-- ==== Sys2Proof/Machine/LedgerCmds.lean ====
section
/-!
DEFINITION. The ledger's events and commands (R192 to R195, R198, R201, R207, R209, R213, R215) and the events of the
Strata controller (R227 to R236): quanta, ticks, the final transaction, recovery, commits, copies, compaction.
-/

namespace Sys2Proof.Machine

/-! ### Quanta and ticks (R192 to R195) -/

/-- The quantum at the head of those posted reaches the ledger: discarded while frozen (R43), lost after the cut-off
(R215), late when its tick's fold window has closed (R192). -/
def State.takeQuantum (s : State) : State :=
  match s.led.posted with
  | [] => s
  | k :: ks =>
    let s := { s with led := { s.led with posted := ks } }
    if s.led.frozen then s
    else if s.led.cutOffDone then s.count Fld.LED_LATE_LOST
    else
      let s := if k.endEpoch < s.led.closedEpoch then s.count Fld.LED_LATE_LATE else s
      { s with led := { s.led with quanta := s.led.quanta ++ [k] } }

def execQuantum (s : State) : Host.Outcome State Fault Refusal := .next s.takeQuantum

/-- Whether the tick that ends at a boundary steps ledger time, or makes it valid or invalid (R132). -/
def State.timeBreaks (s : State) (bd : Boundary) : Bool :=
  (s.led.synced || s.led.ranInvalid) &&
    match s.timeCase s.nextImage.st bd with
    | .stillInvalid => false
    | .carry _ _ => false
    | .held _ _ => false
    | _ => true

/-- Whether a LOCK_ENGAGE transaction waits for its commit. -/
def State.lockQueued (s : State) : Bool := s.led.queue.any fun t => t.act = .lockEngage

/-- Flint in ENGAGING, or LOCKED by an alarm of its own (R294), retries LOCK_ENGAGE at a ledger tick (R292), once the image
has loaded (R293). -/
def State.lockRetry (s : State) : State :=
  if (s.flint = flEngaging || (s.flint = flLocked && !s.nextImage.st.lockFlag)) && s.core.loaded && !s.lockQueued then s.queueLock
  else s

/-- The fold window of the oldest boundary closes and the ledger processes its tick (R192, R193); a tick not built at a
power-fail warning is left to the final transaction (R215). -/
def State.foldClose (s : State) : State :=
  if s.core.warned || !s.ledgerOk then s
  else match s.led.bounds with
    | [] => s
    | b :: bs =>
      let s := { s with led := { s.led with bounds := bs } }
      let b := s.fillTime b
      let cut := s.timeBreaks b
      let s := s.processTick b 0x01 .tick
      (if cut then s.stepIntervals else s).lockRetry.audBankEntry

def execFoldWindowClose (s : State) : Host.Outcome State Fault Refusal := .next s.foldClose

/-- A lockstep mismatch of the ledger pair (R39, R195): the transaction is aborted and rebuilt from the same inputs; a
second one within 1 s restarts both engines, and a third within 10 s is a failure of region LG. -/
def State.lockstep (s : State) : State :=
  let recent := s.led.mismatches.filter fun t => s.now ≤ t + 10000
  let s := { s with led := { s.led with mismatches := recent ++ [s.now] } }
  if 2 ≤ recent.length then ((s.escBlock 2).escRegion 2).regionFail 2 0 0 0x08
  else if recent.any fun t => decide (s.now ≤ t + 1000) then ((s.escBlock 2).escRegion 2).escRecord 2 2 0 0 0x08 0x08
  else (s.escBlock 2).escRecord 1 2 0 0 0x08 0x08

def execLockstepMismatch (s : State) : Host.Outcome State Fault Refusal := .next s.lockstep

/-! ### The final transaction (R215) -/

/-- Commit the transaction at the head of the queue whatever copy is pending, at a power-fail warning. -/
def State.commitNow (s : State) : State :=
  match s.led.queue with
  | [] => s
  | t :: ts =>
    let s := s.meetFault
    if areaDead s.str 0 then s.drawn
    else ((({ s with led := { s.led with queue := ts } }).commitTxn s.freeUs t).committed s.freeUs t.act).drawn

/-- The partial tick joined to a transaction: one transaction of KIND FINAL, if it keeps to 64 blocks (R224); else it follows
as one of its own. -/
def joinFinal (t u : Txn) : List Txn :=
  let es := u.entries.foldl (fun es e => supersede e es ++ [e]) t.entries
  if blocksOf es ≤ 64 then
    [{ t with kind := 0x02, entries := es, time := u.time, opsec := u.opsec, pwrcyc := u.pwrcyc }]
  else [t, u]

/-- The partial tick: its quanta under the rate in force, no operating second, the intervals in progress flagged
POWERDOWN. -/
def State.partialTick (s : State) : Txn :=
  let b := s.foldStep (s.newBuild s.nextImage) s.led.quanta []
  let b := b.st fun st => { st with
    dem := { st.dem with powerdown := true }, lp := { st.lp with powerdown := true }, bpDown := true }
  b.txn 0x02 .final

/-- The cut-off: a tick not built at the warning is processed and the partial tick joins its last transaction; else the
partial tick is a transaction of its own, after those that wait. -/
def State.finalTxn (s : State) : State :=
  if !s.core.warned || s.led.cutOffDone then s
  else
    let s := { s with led := { s.led with cutOffDone := true } }
    if !s.ledgerOk then s
    else
      let had := !s.led.bounds.isEmpty
      let s := s.led.bounds.foldl (fun s b => s.processTick (s.fillTime b) 0x01 .tick) { s with led := { s.led with bounds := [] } }
      let u := s.partialTick
      let queue := match s.led.queue.getLast? with
        | some t => if had then s.led.queue.dropLast ++ joinFinal t u else s.led.queue ++ [u]
        | none => [u]
      let s := { s with led := { s.led with queue := s.renumber queue, quanta := [] } }
      (Nat.iterate State.commitNow s.led.queue.length s).wrB Fld.LED_STATUS_POWERDOWN false

def execFinalCutoff (s : State) : Host.Outcome State Fault Refusal := .next s.finalTxn

/-! ### LED_CMD (R209, R213) -/

/-- Close the billing period at the next tick. -/
def State.billingCmd (s : State) (p : Path) : WStatus × State :=
  match s.gate p (roleSupplier + roleReceiver) false with
  | .pass x =>
    let s := { s with led := { s.led with billReq := true, billRoles := x.role, billKeys := keysOne x.key } }
    (.ok, s.wr Fld.LED_CMD_RESULT 1)
  | .role => (.refused, s.wr Fld.LED_CMD_RESULT 2)
  | _ => (.refused, s)

/-- Apply the withheld step at the next tick. -/
def State.acceptCmd (s : State) (p : Path) : WStatus × State :=
  let g := s.gateDual p 0x0021 (beBytes 4 (s.rd Fld.LED_STEP_STEP))
  let t := s.disarm p 0x0021
  match g with
  | .noSession => (.refused, t)
  | .locked => (.refused, t.wr Fld.LED_CMD_RESULT 3)
  | .authorisation => (.refused, t.wr Fld.LED_CMD_RESULT 2)
  | .pass a =>
    if !s.flag Fld.LED_STATUS_STEP_HELD then (.ok, t.wr Fld.LED_CMD_RESULT 4)
    else (.ok, { t with led := { t.led with stepReq := some (a.roles, a.keys) } }.wr Fld.LED_CMD_RESULT 1)

/-- Discard the withheld step. The register has no result for a Strata failure: the step then stays withheld. -/
def State.rejectCmd (s : State) (p : Path) : WStatus × State :=
  match s.gate p (roleSupplier + roleReceiver) true with
  | .noSession => (.refused, s)
  | .locked => (.refused, s.wr Fld.LED_CMD_RESULT 3)
  | .role => (.refused, s.wr Fld.LED_CMD_RESULT 2)
  | .pass x =>
    if !s.flag Fld.LED_STATUS_STEP_HELD then (.ok, s.wr Fld.LED_CMD_RESULT 4)
    else
      let r := s.command 0x06 fun b =>
        (b.audit 0x0A x.role (keysOne x.key) (beBytes 4 (ofSigned 32 (b.img.st.stepHeld.getD 0)))).st fun st =>
          { st with rejected := st.stepHeld.map fun _ => st.stepMs, stepHeld := none }
      if r.1 then (.ok, r.2.wr Fld.LED_CMD_RESULT 1) else (.ok, r.2)

/-- A write of LED_CMD. -/
def State.wLedCmd (s : State) (p : Path) (v : Word) : WStatus × State :=
  match bitsOf v.toNat 28 4 with
  | 1 => s.billingCmd p
  | 2 => s.acceptCmd p
  | 3 => s.rejectCmd p
  | _ =>
    match s.gate p (roleSupplier + roleReceiver) false with
    | .pass _ => (.ok, s)
    | .role => (.refused, s.wr Fld.LED_CMD_RESULT 2)
    | _ => (.refused, s)

def execBillingClose (p : Path) (s : State) : Host.Outcome State Fault Refusal :=
  .next (s.host fun s => s.wLedCmd p 0x10000000)

def execAcceptStep (p : Path) (s : State) : Host.Outcome State Fault Refusal :=
  .next (s.host fun s => s.wLedCmd p 0x20000000)

def execRejectStep (p : Path) (s : State) : Host.Outcome State Fault Refusal :=
  .next (s.host fun s => s.wLedCmd p 0x30000000)

/-! ### The passive calendar (R198 to R202) -/

/-- End an open sequence. -/
def State.psvEnd (s : State) : State := { s with led := { s.led with psvOpen := none, psvBuf := [] } }

/-- Open a sequence: the write buffer is cleared and WORD is 0. -/
def State.psvOpenCmd (s : State) (p : Path) : WStatus × State :=
  match s.gate p (roleSupplier + roleReceiver) true with
  | .noSession => (.refused, s)
  | .locked => (.refused, s.wr Fld.TAR_CMD_RESULT 3)
  | .role => (.refused, s.wr Fld.TAR_CMD_RESULT 4)
  | .pass _ =>
    let s := { s with led := { s.led with psvOpen := some p, psvBuf := List.replicate 353 0 } }
    (.ok, (s.wr Fld.TAR_CAL_SEL_WORD 0).wr Fld.TAR_CMD_RESULT 1)

/-- Commit the write buffer as the pending passive calendar; it is late if its ACT_TIME lies at or before the ledger time of
the commit (R202). -/
def State.psvCommitCmd (s : State) (p : Path) : WStatus × State :=
  let buf := s.led.psvBuf
  let g := s.gateDual p 0x0030 (wordBytes (buf.getD 0 0) ++ wordBytes (buf.getD 352 0))
  let t := s.disarm p 0x0030
  match g with
  | .noSession => (.refused, t)
  | .locked => (.refused, t.wr Fld.TAR_CMD_RESULT 3)
  | .authorisation => (.refused, t.wr Fld.TAR_CMD_RESULT 4)
  | .pass a =>
    if s.led.psvOpen.isNone then (.ok, t.wr Fld.TAR_CMD_RESULT 5)
    else if !calendarOk buf then (.ok, t.wr Fld.TAR_CMD_RESULT 2)
    else
      let at_ := t.ledNowMs / 1000
      let r := t.command 0x04 fun b =>
        let b := b.audit 0x04 a.roles a.keys (beBytes 4 (calId buf) ++ beBytes 8 (calActTime buf))
        (b.add (.calendar 1 (some buf))).st fun st => { st with late := st.valid && calActTime buf ≤ at_, lateAt := at_ }
      if r.1 then (.ok, r.2.psvEnd.wr Fld.TAR_CMD_RESULT 1) else (.ok, r.2.wr Fld.TAR_CMD_RESULT 6)

/-- Discard the write buffer. -/
def State.psvAbortCmd (s : State) (p : Path) : WStatus × State :=
  match s.gate p (roleSupplier + roleReceiver) false with
  | .role => (.refused, s.wr Fld.TAR_CMD_RESULT 4)
  | .pass _ =>
    if s.led.psvOpen.isNone then (.ok, s.wr Fld.TAR_CMD_RESULT 5) else (.ok, s.psvEnd.wr Fld.TAR_CMD_RESULT 1)
  | _ => (.refused, s)

/-- Remove the pending passive calendar. -/
def State.psvCancelCmd (s : State) (p : Path) : WStatus × State :=
  let id := s.nextImage.psv.elim 0 calId
  let g := s.gateDual p 0x0031 (beBytes 4 id)
  let t := s.disarm p 0x0031
  let none_ := s.nextImage.psv.isNone
  match g with
  | .noSession => (.refused, t)
  | .locked => (.refused, t.wr Fld.TAR_CMD_RESULT 3)
  | .authorisation => (.refused, t.wr Fld.TAR_CMD_RESULT 4)
  | .pass a =>
    if none_ then (.ok, t.wr Fld.TAR_CMD_RESULT 5)
    else
      let r := t.command 0x06 fun b =>
        ((b.audit 0x05 a.roles a.keys (beBytes 4 id)).add (.calendar 1 none)).st fun st => { st with late := false }
      (.ok, r.2.wr Fld.TAR_CMD_RESULT (if r.1 then 1 else 6))

/-- A write of TAR_CMD. -/
def State.wTarCmd (s : State) (p : Path) (v : Word) : WStatus × State :=
  match bitsOf v.toNat 28 4 with
  | 1 => s.psvOpenCmd p
  | 2 => s.psvCommitCmd p
  | 3 => s.psvAbortCmd p
  | 4 => s.psvCancelCmd p
  | _ =>
    match s.gate p (roleSupplier + roleReceiver) false with
    | .pass _ => (.ok, s)
    | .role => (.refused, s.wr Fld.TAR_CMD_RESULT 4)
    | _ => (.refused, s)

def execPsvOpen (p : Path) (s : State) : Host.Outcome State Fault Refusal := .next (s.host fun s => s.wTarCmd p 0x10000000)
def execPsvCommit (p : Path) (s : State) : Host.Outcome State Fault Refusal := .next (s.host fun s => s.wTarCmd p 0x20000000)
def execPsvAbort (p : Path) (s : State) : Host.Outcome State Fault Refusal := .next (s.host fun s => s.wTarCmd p 0x30000000)
def execPsvCancel (p : Path) (s : State) : Host.Outcome State Fault Refusal := .next (s.host fun s => s.wTarCmd p 0x40000000)

/-- TAR_CAL_SEL.WORD after an access of TAR_CAL_DATA. A WORD written above 352 counts on and returns to 0 with its field. -/
def State.tarAdvance (s : State) : State :=
  let w := s.rd Fld.TAR_CAL_SEL_WORD
  s.wr Fld.TAR_CAL_SEL_WORD (if w = 352 then 0 else w + 1)

/-- The calendar TAR_CAL_DATA reads. -/
def State.tarShown (s : State) : Calendar :=
  if !s.flag Fld.TAR_CAL_SEL_SLOT then s.led.live.act.getD []
  else if s.led.psvOpen.isSome then s.led.psvBuf
  else s.led.live.psv.getD []

/-- A read of TAR_CAL_DATA. -/
def State.tarCalRead (s : State) : Word × State := (s.tarShown.getD (s.rd Fld.TAR_CAL_SEL_WORD) 0, s.tarAdvance)

/-- A write of TAR_CAL_DATA. -/
def State.wTarCal (s : State) (p : Path) (v : Word) : WStatus × State :=
  match s.gate p (roleSupplier + roleReceiver) false with
  | .pass _ =>
    if !s.flag Fld.TAR_CAL_SEL_SLOT || s.led.psvOpen.isNone then (.refused, s)
    else
      let w := s.rd Fld.TAR_CAL_SEL_WORD
      (.ok, ({ s with led := { s.led with psvBuf := s.led.psvBuf.set w v } }).tarAdvance)
  | _ => (.refused, s)

def execTarCalDataRead (_ : Path) (s : State) : Host.Outcome State Fault Refusal := .next (s.hostRead fun s => s.tarCalRead)

def execTarCalDataWrite (p : Path) (data : Word) (s : State) : Host.Outcome State Fault Refusal :=
  .next (s.host fun s => s.wTarCal p data)

/-! ### The load profile (R207) -/

/-- The sixteen words of an entry. -/
def lpWords (e : LpEntry) : List Word := bytesWords (lpBytes e)

/-- The entry of an age: from its home, or from the committed transaction while its copy is on its way (R228). -/
def State.lpEntry (s : State) (age : Nat) : Option LpEntry :=
  let st := s.led.live.st
  if st.lpCount ≤ age || areaDead s.str 2 then none
  else
    let pos := (st.lpPos + 16384 * 2 - 1 - age) % 16384
    let going := s.led.copies.filterMap fun c => match c.entry with
      | .loadProfile p v => if p = pos then some v else none
      | _ => none
    match going.getLast? with
    | some v => some v
    | none => s.str.lp.lookup pos

/-- A read of LED_LP_DATA: the words in turn; the sixteenth read moves on to the next older entry. -/
def State.lpDataRead (s : State) : Word × State :=
  let n := s.led.lpReads
  let w := match s.lpEntry (s.rd Fld.LED_LP_SEL_AGE) with
    | some e => (lpWords e).getD n 0
    | none => 0
  let s := { s with led := { s.led with lpReads := (n + 1) % 16 } }
  (w, if n = 15 then s.wrap Fld.LED_LP_SEL_AGE else s)

def execLedLpDataRead (_ : Path) (s : State) : Host.Outcome State Fault Refusal := .next (s.hostRead fun s => s.lpDataRead)

/-- A write of LED_LP_SEL: the next word read is word 0. -/
def State.wLpSel (s : State) (_ : Path) (v : Word) : WStatus × State :=
  (.ok, { s with led := { s.led with lpReads := 0 } }.wr Fld.LED_LP_SEL_AGE v.toNat)

/-! ### The Strata controller (R227 to R236) -/

/-- COMMIT_COMPLETE: banks that failed during the commit are dropped, and the transaction is committed in what is left. -/
def execCommitComplete (us : BitVec 16) (fails : List BankFail) (s : State) : Host.Outcome State Fault Refusal :=
  .next (if s.core.running then (s.bankFails fails).commitHead us.toNat else s)

/-- POST_COMMIT_COPY_DONE: the oldest copy reaches its home. -/
def execPostCommitCopyDone (fails : List BankFail) (s : State) : Host.Outcome State Fault Refusal :=
  .next (if s.core.running then (s.bankFails fails).copyDone else s)

/-- COMPACTION_COMPLETE: the new base is current in every copy that took it; while a snapshot copy is pending compaction waits
for it (R233). -/
def execCompactionComplete (fails : List BankFail) (s : State) : Host.Outcome State Fault Refusal :=
  .next (if s.core.running then
    (let s := s.bankFails fails
     if areaDead s.str 0 || snapPending s.led.copies then s else s.compacted)
   else s)

/-! ### Recovery (R234 to R236, R293) -/

/-- Redo the post-commit copies of the replayed transactions (step 5 of R234). -/
def State.redoCopies (s : State) : State :=
  let es := s.str.journal.flatMap fun (j : JTxn) => j.txn.entries.filter needsCopy
  { s with str := es.foldl (copyHome s.fuses.uid) s.str }

/-- The registers of banks marked failed at earlier starts (R237, R239). -/
def State.refreshBanks (s : State) : State :=
  let st := s.str
  let t := s.wr Fld.STR_BANKS_FAILED ((st.failed.map fun b => 2 ^ b.val).sum)
  let t := t.wr Fld.STR_STATUS_SINGLE (((List.range 5).map fun i => if areaSingle st i then 2 ^ i else 0).sum)
  let t := t.wr Fld.STR_STATUS_AREA_DEAD (((List.range 5).map fun i => if areaDead st i then 2 ^ i else 0).sum)
  let mode (a : Nat) : Nat := if areaDead st a then 2 else if areaSingle st a then 1 else 0
  let t := (t.wr Fld.REC_STATUS_MODE (mode 3)).wr Fld.AUD_STATUS_MODE (mode 4)
  let t := if areaDead st 3 then t.alert Fld.SYS_ALERT_REC_DEAD true else t
  if areaDead st 4 then t.alert Fld.SYS_ALERT_AUD_DEAD true else t

/-- Flint takes its state from the two records of the lock (R293). -/
def State.flintStart (s : State) : State :=
  if s.led.com.st.lockFlag then ({ s with bk := { s.bk with lock := true } }).setFlint flLocked
  else s.setFlint (if s.bk.lock then flEngaging else flUnlocked)

/-- The ledger copies whose header fails, or whose partner's header marks them failed, drop out (R234 step 1, R237, R238). -/
def State.headerFails (s : State) : List BankFail :=
  let h (c : Nat) : AreaHeader := (if c = 0 then s.str.copy0 else s.str.copy1).header
  let ok (c : Nat) : Bool := headerPasses s.fuses.uid c (h c)
  (List.range 2).filterMap fun c =>
    if !ok c || (ok (1 - c) && (h (1 - c)).partnerFailed ≠ 0) then some { bank := Fin.ofNat 16 c, cause := 4 } else none

/-- The image that recovery leaves: the intervals of a start whose time was invalid are no whole ones (R206), and DEM_STATUS
counts from the start. -/
def restoredImage (img : Ledger) : Ledger :=
  let st := img.st
  { img with st := { st with
    demSeq := 0, dem := { st.dem with short := !st.valid || st.dem.short }, lp := { st.lp with short := !st.valid || st.lp.short } } }

/-- Recovery restores the ledger from a base and the transactions accepted after it (steps 2 to 6 of R234). -/
def State.restore (s : State) (x : Bool × BaseImage) : State :=
  let acc := s.str.accepted x.2
  let result := s.str.recoveryResult x acc
  let discarded := s.str.discarded (lastSeq x.2 acc)
  let img := restoredImage (acc.foldl (fun l j => applyTxn l j.txn) x.2.img)
  let st := img.st
  let c := st.cfg.getD (s.word Adr.DEM_CFG, s.word Adr.LED_LP_CFG, s.word Adr.LED_BP_CFG)
  let s := { s with str := s.str.recovered x acc }
  let s := { s with led := { s.led with
    com := img, live := img, liveTseq := s.str.tseq, recovered := true, startCount := min (st.pwrcyc + 1) 0xFFFFFFFF
    outageFrom := if st.valid then some st.time else if st.lastValid = 0 then none else some st.lastValid
    outageTick := st.lastValid + (st.opsec - st.lastValidOpsec), lostInvalid := !st.valid && 0 < st.opsec
    timeAt := s.now, startOpsec := st.opsec, demCfg := c.1, lpCfg := c.2.1, bpCfg := c.2.2 } }
  let s := (s.redoCopies).wr Fld.SYS_OPSEC_OPSEC st.opsec
  let s := (s.wr Fld.STR_TSEQ_TSEQ s.str.tseq.toNat).wr Fld.STR_BASE_SEQ_BASE_SEQ x.2.seq.toNat
  let s := (s.wr Fld.STR_RECOVERY_RESULT result).wr Fld.STR_RECOVERY_REPLAYED acc.length
  let s := s.wr Fld.STR_RECOVERY_DISCARDED (min discarded 255)
  let s := (s.wr Fld.LED_STATUS_STATE 2).wr Fld.STR_STATUS_STATE 2
  ((s.refresh).refreshAnchor).refreshJournal.maybeCompact

/-- Recovery ends in a ledger failure (R236); the Bedrock lock bit is enforced. -/
def State.recoveryFailed (s : State) : State :=
  let s := (s.wr Fld.STR_STATUS_STATE 4).wr Fld.STR_RECOVERY_RESULT 4
  let s := s.wr Fld.LED_STATUS_STATE 3
  let s := if s.bk.lock then s.setFlint flEngaging else s.setFlint flUnlocked
  if s.chip = chipFrozen then s else (s.escRegion 2).regionFail 2 2 0 0x10

/-- Strata at recovery, without the banks found failed. -/
def State.strFound (s : State) (fails : List BankFail) : Strata :=
  fails.foldl (fun (st : Strata) (f : BankFail) =>
    if f.cause = 0 || f.bank ∈ st.failed then st else { st with failed := st.failed ++ [f.bank] }) s.str

/-- The base that recovery starts from: none with no copy of the ledger area or no base left (R234 steps 1 and 2, R236). -/
def State.baseFound (s : State) (fails : List BankFail) : Option (Bool × BaseImage) :=
  let st := s.strFound fails
  if areaDead st 0 then none else st.select

/-- RECOVERY_COMPLETE: the copies whose headers fail and the banks found failed are dropped first; with no copy or no base
left in the ledger area the start goes no further. -/
def State.recovery (s : State) (fails : List BankFail) : State :=
  if !s.core.running || !s.core.pll || s.rd Fld.STR_STATUS_STATE ≠ 1 then s
  else
    let fails := s.headerFails ++ fails
    let known := s.str.failed
    match s.baseFound fails with
    | none => ((s.refreshBanks).bankFails fails).recoveryFailed
    | some x =>
      let t := ({ s with str := s.strFound fails }).restore x
      ((((({ t with str := { t.str with failed := known } }).refreshBanks).bankFails fails).flintStart).calScale).audBankEntry

def execRecoveryComplete (fails : List BankFail) (s : State) : Host.Outcome State Fault Refusal := .next (s.recovery fails)

end Sys2Proof.Machine
end

