-- ==== Sys2Proof/Machine/Security.lean ====
section
/-!
DEFINITION. Nonces, tokens, sessions and dual authorisations (R270 to R277), and the queue of Garnet (R284).
-/

namespace Sys2Proof.Machine

/-! ### Garnet's queue (R284, R285) -/

/-- Events of R286. -/
def evTokenRefused : Nat := 0x70
def evSessionOpen : Nat := 0x71
def evDualExpired : Nat := 0x72
def evGarnetFault : Nat := 0x73

/-- Requests waiting besides the one in service. -/
def Garnet.waiting (g : Garnet) : Nat := g.verify.length + g.sign.length

/-- Whether a request is refused with FAULT: Garnet restarts, is stopped, or a power-fail warning has been given. -/
def State.garnetShut (s : State) : Bool := s.gar.restarting || s.gar.stopped || s.core.warned

/-- Whether a request is refused with BUSY. -/
def State.garnetFull (s : State) : Bool := s.gar.serving.isSome && 16 ≤ s.gar.waiting

/-- Garnet, when free, takes the next request: verifications first. -/
def Garnet.next (g : Garnet) : Garnet :=
  if g.serving.isSome then g
  else match g.verify, g.sign with
    | v :: vs, _ => { g with serving := some v, verify := vs }
    | [], x :: xs => { g with serving := some x, sign := xs }
    | [], [] => g

/-- Queue a request. -/
def State.garnetQueue (s : State) (r : GarnetReq) : State :=
  let g := match r with
    | .token _ _ => { s.gar with verify := s.gar.verify ++ [r] }
    | .sign _ _ => { s.gar with sign := s.gar.sign ++ [r] }
  { s with gar := g.next }

/-- The request in service ends. -/
def State.garnetDone (s : State) : State := { s with gar := ({ s.gar with serving := none } : Garnet).next }

/-! ### Sessions (R274) -/

/-- A path's session ends: the calendar sequence it opened and the RTC halt it made end with it (R201, R342). -/
def State.sessionEnd (s : State) (p : Path) : State :=
  if (s.path p).session.isNone then s
  else
    let s := s.setPath p { s.path p with session := none }
    let s := if s.led.psvOpen = some p then s.psvEnd else s
    if s.bk.haltBy = some p then s.rtcAbandon else s

/-- A session opens on a path, replacing the one it holds. -/
def State.sessionOpen (s : State) (p : Path) (role key : Nat) : State :=
  let s := s.sessionEnd p
  let s := s.setPath p { s.path p with session := some { role := BitVec.ofNat 8 role, key, opened := s.now } }
  s.raise evSessionOpen (pathNo p) (beBytes 1 key ++ beBytes 1 role)

/-- The session of a path reaches 300 s. -/
def State.sessionDue (s : State) (p : Path) : State :=
  match (s.path p).session with
  | none => s
  | some x => (s.until (x.opened + 300000)).sessionEnd p

def execSessionExpiry (p : Path) (s : State) : Host.Outcome State Fault Refusal := .next (s.sessionDue p)

/-! ### Nonces (R270) -/

/-- A read of the lowest word of SEC_NONCE: a fresh nonce is outstanding and captured on the path. -/
def State.nonceRead (s : State) (p : Path) : Word × State :=
  let v := Config.nonce s.free
  let x := s.path p
  let kept := (x.nonces.filter fun n => s.now < n.2 + 300000) ++ [(v, s.now)]
  let ws := (List.range 4).map fun i => BitVec.ofNat 32 (v.toNat / 2 ^ (32 * i))
  let caps := (Adr.SEC_NONCE, ws) :: x.caps.filter fun c => c.1 ≠ Adr.SEC_NONCE
  (v.setWidth 32, (s.setPath p { x with nonces := kept.drop (kept.length - 4), caps }).drawn)

def execNonceIssue (p : Path) (s : State) : Host.Outcome State Fault Refusal := .next (s.hostRead fun s => s.nonceRead p)

/-- The oldest nonce of a path reaches 300 s. -/
def State.nonceDue (s : State) (p : Path) : State :=
  match (s.path p).nonces with
  | [] => s
  | n :: ns => (s.until (n.2 + 300000)).setPath p { s.path p with nonces := ns }

def execNonceLapse (p : Path) (s : State) : Host.Outcome State Fault Refusal := .next (s.nonceDue p)

/-- Whether a nonce is outstanding on a path. -/
def State.nonceLive (s : State) (p : Path) (v : BitVec 128) : Bool :=
  (s.path p).nonces.any fun n => n.1 = v && s.now < n.2 + 300000

/-! ### Tokens (R271, R272) -/

/-- Bytes of a token. -/
def tokenBytes (t : Token) : List Byte := t.flatMap wordBytes

/-- A field of a token. -/
def tokenNat (t : Token) (off n : Nat) : Nat := beNat (sub (tokenBytes t) off n)

def tokKey (t : Token) : Nat := tokenNat t 1 1
def tokRole (t : Token) : Nat := tokenNat t 2 1
def tokCmd (t : Token) : Nat := tokenNat t 4 2
def tokNonce (t : Token) : BitVec 128 := BitVec.ofNat 128 (tokenNat t 16 16)
def tokCounter (t : Token) : Nat := tokenNat t 32 4
def tokTarget (t : Token) : List Byte := sub (tokenBytes t) 40 24

/-- Action codes of R277. -/
def cmdSession : Nat := 0x0001
def cmdUnlock : Nat := 0x0010
def cmdAuthChange : Nat := 0x0011
def cmdRekey : Nat := 0x0012
def cmdTwinNew : Nat := 0x0060

/-- The actions that need dual authorisation by SUPPLIER and RECEIVER. -/
def dualCmds : List Nat := [0x0040, 0x0030, 0x0031, 0x0021, 0x0020, 0x0050, 0x0060, 0x0010, 0x0011, 0x0012]

/-- Test 0x2: format and reserved bytes of 32 words. -/
def tokenFormat (t : Token) : Bool :=
  t.length = 32 && tokenNat t 0 1 = 1 && tokenNat t 3 1 = 0 && tokenNat t 6 2 = 0 && tokenNat t 36 4 = 0

/-- Test 0x4: the entry is used and ROLE is exactly one bit held in its ROLES. -/
def State.tokenKey (s : State) (t : Token) : Bool :=
  let roles := if tokKey t < 8 then s.rd (Fld.SEC_AUTH_ROLES (tokKey t)) else 0
  tokRole t ∈ [1, 2, 4, 8, 16] && roles &&& tokRole t ≠ 0

/-- Test 0x5: the nonce is outstanding, and for UNLOCK it was issued after the lock last engaged (R276). -/
def State.tokenNonce (s : State) (p : Path) (t : Token) : Bool :=
  s.nonceLive p (tokNonce t) && !(tokCmd t = cmdUnlock && s.sec.stale.contains (tokNonce t))

/-- Test 0x6: the signature over bytes 0 to 63. -/
def State.tokenSig (s : State) (t : Token) : Bool :=
  Config.ecdsaVerify (s.sec.pubs.getD (tokKey t) 0) (Config.sha256 ((tokenBytes t).take 64))
    (BitVec.ofNat 512 (tokenNat t 64 64))

/-- The pending authorisation, within its 300 s. -/
def State.pendingDual (s : State) : Option Dual := s.sec.dual.filter fun d => s.now ≤ d.at_ + 300000

/-- The pending authorisation that a token matches in CMD and TARGET. A pending UNLOCK whose nonce was issued before the lock
last engaged completes with no token (R276 item 4): a further one is a first token, which replaces it (DESIGN CHOICE,
notes/assumptions/147.md). -/
def State.matching (s : State) (t : Token) : Option Dual :=
  s.pendingDual.filter fun d => d.cmd = tokCmd t && d.target = tokTarget t && !(d.cmd = cmdUnlock && d.stale)

/-- Test 0x8: the action is known, the role may authorise it, and a token that matches the pending authorisation comes from
a different key and role, the two meeting the requirement (R276). -/
def State.tokenRole (s : State) (t : Token) : Bool :=
  if tokCmd t = cmdSession then true
  else dualCmds.contains (tokCmd t) && (tokRole t = roleSupplier || tokRole t = roleReceiver) &&
    match s.matching t with
    | none => true
    | some d => d.key ≠ tokKey t && d.role.toNat ≠ tokRole t && d.role.toNat ||| tokRole t = roleSupplier + roleReceiver

/-- Test 0xC: the TARGET of an action that takes effect at once. -/
def State.tokenTarget (s : State) (t : Token) : Bool :=
  let x := tokTarget t
  let used (n : Nat) : Bool := (x.drop n).all fun b => b = 0
  if tokCmd t = cmdSession || tokCmd t = cmdUnlock then used 0
  else if tokCmd t = cmdTwinNew then used 8
  else if tokCmd t = cmdRekey then used 4 && s.nextImage.st.hmacGen < beNat (x.take 4)
  else true

/-- The tests made at SUBMIT (0x2 to 0x5): 0 when all pass. -/
def State.testEarly (s : State) (p : Path) (t : Token) : Nat :=
  if !tokenFormat t then 2
  else if tokenNat t 8 8 ≠ s.fuses.uid.toNat then 3
  else if !s.tokenKey t then 4
  else if !s.tokenNonce p t then 5 else 0

/-- The tests made once Garnet has verified the token: 0 when all pass but the commit. The nonce is tested again, since a
token taken before may have used it (R273). -/
def State.testLate (s : State) (p : Path) (t : Token) : Nat :=
  if !s.tokenNonce p t then 5
  else if !s.tokenSig t then 6
  else if tokCounter t ≤ (storeGet (fun _ => 0) s.nextImage.st.authCnt (tokKey t)).toNat then 7
  else if !s.tokenRole t then 8
  else if s.locked && lockRefuses (tokCmd t) then 9
  else if !s.tokenTarget t then 0xC else 0

/-- A SUBMIT has its RESULT. TOKEN of SYS_IRQ_STAT belongs to the host port's path (R438). -/
def State.tokenResult (s : State) (p : Path) (r : Nat) : State :=
  let s := s.wrP p Fld.SEC_TOKEN_CMD_RESULT r
  if p = .spi then s.irq Fld.SYS_IRQ_STAT_TOKEN else s

/-- A token is refused: RESULT and the event TOKEN_REFUSED; nothing else changes (R273). -/
def State.tokenRefuse (s : State) (p : Path) (t : Token) (r : Nat) : State :=
  let b := padTo 128 (tokenBytes t)
  (s.tokenResult p r).raise evTokenRefused (pathNo p) (sub b 1 2 ++ sub b 4 2 ++ beBytes 1 r)

/-! ### Acceptance (R273, R276, R277) -/

/-- Use up a token's nonce. -/
def State.useNonce (s : State) (p : Path) (t : Token) : State :=
  s.setPath p { s.path p with nonces := (s.path p).nonces.filter fun n => n.1 ≠ tokNonce t }

/-- The counter of the token's key takes COUNTER. -/
def Build.counter (b : Build) (t : Token) : Build :=
  b.st fun st => { st with authCnt := storeSet (fun _ => 0) st.authCnt (tokKey t) (BitVec.ofNat 32 (tokCounter t)) }

/-- The entry of the authority table that has HMAC_KEY. -/
def State.hmacEntry (s : State) : Option Nat :=
  (List.range 8).find? fun k => s.rd (Fld.SEC_AUTH_ROLES k) ≠ 0 && s.rd (Fld.SEC_AUTH_FLAGS k) % 2 = 1

/-- What an action that takes effect at once adds to its transaction. -/
def State.atOnce (s : State) (b : Build) (t : Token) (roles keys : BitVec 8) : Build :=
  let x := tokTarget t
  if tokCmd t = cmdAuthChange then
    (b.audit 0x11 roles keys (x.take 18)).st fun st => { st with authTarget := some (BitVec.ofNat 256 (beNat x)) }
  else if tokCmd t = cmdRekey then
    (b.audit 0x13 roles keys (x.take 4 ++ beBytes 1 (s.hmacEntry.getD (s.openWord % 256)))).st fun st =>
      { st with hmacGen := beNat (x.take 4) }
  else if tokCmd t = cmdTwinNew then
    (b.audit 0x28 roles keys (beBytes 8 (b.img.st.twinUid.getD 0).toNat ++ x.take 8)).st fun st =>
      { st with twinUid := some (BitVec.ofNat 64 (beNat (x.take 8))) }
  else if tokCmd t = cmdUnlock && s.flint ≠ flEngaging then s.unlockBuild b roles keys
  else b

/-- What follows the commit of such an action. -/
def State.atOnceDone (s : State) (t : Token) (roles keys : BitVec 8) (deferred : Bool) : State :=
  if tokCmd t = cmdUnlock then
    if !deferred then s.unlockEffect
    else { s with sec := { s.sec with unlockDeferred := some (roles, keys) } }
  else if tokCmd t = cmdTwinNew then
    let s := s.wr Fld.TWN_PEER_UID_UID (s.led.com.st.twinUid.getD 0).toNat
    let st := s.rd Fld.TWN_STATUS_STATE
    if st = twPaired || st = twPairing then s.twinUnpair twWait else s
  else if tokCmd t = cmdRekey && s.hmacEntry.isNone then s.drawn
  else s

/-- Flint's state for an UNLOCK that completes: a LOCK_ENGAGE that waits commits first, in its turn; a lock it finds engaged is
RELEASING until the UNLOCK commits (R294). -/
def State.unlockReady (s : State) (t : Token) : State :=
  if tokCmd t ≠ cmdUnlock || !s.ledgerOk || s.core.warned then s
  else
    let s := if s.flint = flEngaging then s.drain else s
    if s.flint = flLocked then s.setFlint flReleasing else s

/-- A second token completes the pending authorisation: the action takes effect, or its command is armed on this path. -/
def State.completeDual (s : State) (p : Path) (t : Token) (d : Dual) : Bool × State :=
  let roles := d.role ||| BitVec.ofNat 8 (tokRole t)
  let keys := BitVec.ofNat 8 (d.key * 16 + tokKey t)
  let s := s.unlockReady t
  let deferred := s.flint = flEngaging
  let r := s.command 0x06 fun b => s.atOnce (b.counter t) t roles keys
  if !r.1 then (false, if r.2.flint = flReleasing then r.2.setFlint flLocked else r.2)
  else
    let u := r.2.useNonce p t
    let u := { u with sec := { u.sec with dual := none } }
    if tokCmd t ∈ [cmdUnlock, cmdAuthChange, cmdRekey, cmdTwinNew] then (true, u.atOnceDone t roles keys deferred)
    else
      let a : Armed := { cmd := tokCmd t, target := tokTarget t, roles, keys, firstAt := d.at_ }
      let x := u.path p
      (true, u.setPath p { x with armed := (x.armed.filter fun y => y.cmd ≠ a.cmd) ++ [a] })

/-- The pending authorisation lapses or is replaced (R276). -/
def State.dualLapse (s : State) : State :=
  match s.sec.dual with
  | none => s
  | some d => { s with sec := { s.sec with dual := none } }.raise evDualExpired 0xFF (beBytes 2 d.cmd ++ beBytes 1 d.key)

/-- A first token becomes the pending authorisation. -/
def State.firstDual (s : State) (p : Path) (t : Token) : Bool × State :=
  let r := s.command 0x06 fun b => b.counter t
  if !r.1 then (false, r.2)
  else
    let u := (r.2.useNonce p t).dualLapse
    let d : Dual := { cmd := tokCmd t, target := tokTarget t, role := BitVec.ofNat 8 (tokRole t), key := tokKey t, at_ := u.now }
    (true, { u with sec := { u.sec with dual := some d } })

/-- A SESSION token opens a session; SUPPLIER, RECEIVER and SERVICE sessions write the entry SESSION. -/
def State.acceptSession (s : State) (p : Path) (t : Token) : Bool × State :=
  let role := tokRole t
  let r := s.command 0x06 fun b =>
    let b := b.counter t
    if role &&& (roleSupplier + roleReceiver + roleService) ≠ 0 then
      b.audit 0x10 (BitVec.ofNat 8 role) (keysOne (tokKey t)) (beBytes 1 (pathNo p))
    else b
  if !r.1 then (false, r.2) else (true, (r.2.useNonce p t).sessionOpen p role (tokKey t))

/-- A token that passes every test: its counter and nonce commit, and it takes effect (R273). -/
def State.acceptToken (s : State) (p : Path) (t : Token) : Bool × State :=
  if tokCmd t = cmdSession then s.acceptSession p t
  else match s.matching t with
    | some d => s.completeDual p t d
    | none => s.firstDual p t

/-- Garnet has verified the token in service (R272, R273). -/
def State.tokenDone (s : State) : State :=
  match s.gar.serving with
  | some (.token p t) =>
    let s := s.garnetDone
    match s.testLate p t with
    | 0 =>
      let r := s.acceptToken p t
      if r.1 then r.2.tokenResult p 1 else r.2.tokenRefuse p t 0xA
    | n => s.tokenRefuse p t n
  | _ => s

def execTokenVerified (s : State) : Host.Outcome State Fault Refusal := .next s.tokenDone

/-! ### The token registers (R272) -/

/-- A write of SEC_TOKEN_DATA: word 32 onwards is ignored. -/
def State.wTokenData (s : State) (p : Path) (v : Word) : WStatus × State :=
  let x := s.path p
  (.ok, if x.token.length < 32 then s.setPath p { x with token := x.token ++ [v] } else s)

def execTokenDataWrite (p : Path) (data : Word) (s : State) : Host.Outcome State Fault Refusal :=
  .next (s.host fun s => s.wTokenData p data)

/-- SUBMIT: tests 0x2 to 0x5 refuse at once; a token that passes them waits for Garnet. -/
def State.tokenSubmit (s : State) (p : Path) : State :=
  let t := (s.path p).token
  let s := (s.setPath p { s.path p with token := [] }).wrP p Fld.SEC_TOKEN_CMD_RESULT 0
  match s.testEarly p t with
  | 0 =>
    if s.garnetShut then s.tokenRefuse p t 0xB
    else if s.garnetFull then (s.count Fld.SEC_GARNET_BUSY).tokenRefuse p t 0xB
    else s.garnetQueue (.token p t)
  | n => s.tokenRefuse p t n

/-- A write of SEC_TOKEN_CMD. -/
def State.wTokenCmd (s : State) (p : Path) (v : Word) : WStatus × State :=
  match bitsOf v.toNat 28 4 with
  | 1 => (.ok, s.tokenSubmit p)
  | 2 => (.ok, (s.setPath p { s.path p with token := [] }).sessionEnd p)
  | _ => (.ok, s)

def execSubmit (p : Path) (s : State) : Host.Outcome State Fault Refusal := .next (s.host fun s => s.wTokenCmd p 0x10000000)
def execClose (p : Path) (s : State) : Host.Outcome State Fault Refusal := .next (s.host fun s => s.wTokenCmd p 0x20000000)

/-! ### Lapses (R276) -/

/-- The pending authorisation reaches 300 s. -/
def State.dualDue (s : State) : State :=
  match s.sec.dual with
  | none => s
  | some d => (s.until (d.at_ + 300000)).dualLapse

def execDualExpired (s : State) : Host.Outcome State Fault Refusal := .next s.dualDue

/-- The oldest armed command of a path reaches 300 s from its first token. -/
def State.armedDue (s : State) (p : Path) : State :=
  match (s.path p).armed with
  | [] => s
  | a :: as_ =>
    let first := as_.foldl (fun m (b : Armed) => min m b.firstAt) a.firstAt
    (s.until (first + 300000)).setPath p { s.path p with armed := (s.path p).armed.filter fun b => b.firstAt ≠ first }

def execArmedExpiry (p : Path) (s : State) : Host.Outcome State Fault Refusal := .next (s.armedDue p)

end Sys2Proof.Machine
end

