-- ==== Sys2Proof/Machine/View.lean ====
section
/-!
DEFINITION. What the registers read (R1, R4, R8, R188, R210, R219, R281, R419): words that follow from the state instead
of being stored, words of the path used, registers whose read has an effect, and captures.
-/

namespace Sys2Proof.Machine

/-! ### Addresses (R1, R439) -/

/-- Whether an address lies in the live view of billing slots. -/
def inSlots (a : Nat) : Bool := 0x410000 ≤ a && a < 0x450000

/-- Whether an address lies in the live view of demand. -/
def inDemand (a : Nat) : Bool := 0x404000 ≤ a && a < 0x40E800

/-- The live address a snapshot view shows (R210). -/
def snapLive (a : Nat) : Option Nat :=
  if 0x60000 ≤ a && (inSlots (a - 0x60000) || inDemand (a - 0x60000)) then some (a - 0x60000) else none

/-- The owner of a slot or demand address. -/
def ownerAt (a : Nat) : Nat := if inSlots a then (a - 0x410000) / 0x2000 else (a - 0x404000) / 0x800

/-- Whether an address belongs to a unit fused off on a KB9608 (R1, R72, R97, R119, R188, R381). -/
def fusedOff (a : Nat) : Bool :=
  let b := (snapLive a).getD a
  let arr (base : Nat) : Bool := base + 4 * 32 ≤ a && a < base + 4 * 64
  (0x308000 ≤ a && a < 0x310000) || (0x312000 ≤ a && a < 0x314000) ||
  ((inSlots b || inDemand b) && ((8 ≤ ownerAt b && ownerAt b < 16) || ownerAt b = 18 || ownerAt b = 19)) ||
  arr (Adr.AQ_LANE_CFG 0) || arr (Adr.AQ_LANE_STAT 0) || arr (Adr.AQ_LANE_DISC 0) || arr (Adr.AQ_MM_MAX 0) ||
  arr (Adr.AQ_MM_MIN 0) || arr (Adr.CAL_LANE_STAT 0) || (Adr.TWN_DEV 8 ≤ a && a < Adr.TWN_DEV 8 + 32)

/-- Whether an address is absent on the part. -/
def State.absent (s : State) (a : Nat) : Bool := s.fuses.kb9608 && fusedOff a

/-- The base address and words of the register at a word address, `none` where nothing is implemented (R439). -/
def regShape (a : Nat) : Option (Nat × Nat) :=
  if a % 4 ≠ 0 then none
  else
    let b := (snapLive a).getD a
    if inSlots b then
      let k := b % 0x10 / 4
      if k ≤ 1 then some (a - 4 * k, 2) else some (a, 1)
    else (findReg b).map fun r => (a - 4 * r.2, r.1.words)

/-! ### Slots, demand and snapshots (R184, R203, R210, R229) -/

/-- A word of a slot; until recovery it reads its reset value (R218). -/
def State.slotWord (s : State) (slots : List (Nat × Slot)) (a : Nat) : Word :=
  let i := a - 0x410000
  let o := i / 0x2000
  let q := i % 0x2000 / 0x100
  let t := i % 0x100 / 0x10
  if !s.led.recovered || !s.slotExists o q t then 0
  else
    let x := storeGet slotZero slots (slotIdx o q t)
    match i % 0x10 / 4 with
    | 0 => x.val.setWidth 32
    | 1 => BitVec.ofNat 32 (x.val.toNat / 2 ^ 32)
    | 2 => BitVec.ofNat 32 (slotStat x)
    | _ => BitVec.ofNat 32 (x.frac.toNat * 256)

/-- A word of a demand window. -/
def demandWord (dem : List (Nat × DemLast)) (dmax : List (Nat × DemMax)) (a : Nat) : Word :=
  let i := a - 0x404000
  let ch := i / 0x800 * 8 + i % 0x800 / 0x100
  let w := i % 0x100
  let hi (v : BitVec 64) : Word := BitVec.ofNat 32 (v.toNat / 2 ^ 32)
  let d := storeGet demZero dem ch
  if w = 0 then d.value.setWidth 32
  else if w = 4 then hi d.value
  else if w = 8 then BitVec.ofNat 32 (demStat d)
  else if w < 0x10 || 0xA0 ≤ w then 0
  else
    let m := storeGet maxZero dmax (ch * 16 + (w - 0x10) / 0x10)
    match w % 0x10 / 4 with
    | 0 => m.value.setWidth 32
    | 1 => hi m.value
    | 2 => m.time.setWidth 32
    | _ => hi m.time

/-- LED_SNAP_INFO of a snapshot. -/
def snapInfo : Option SnapRec → Word
  | none => 0
  | some r =>
    let c := r.cause.toNat
    BitVec.ofNat 32 (2 ^ 31 + c / 16 % 2 * 2 ^ 30 + c / 32 % 2 * 2 ^ 29 + c / 64 % 2 * 2 ^ 28 + c % 16 * 2 ^ 24 +
      r.period.toNat)

/-- The registers that describe the snapshot selected: LED_SNAP_INFO, LED_SNAP_OPEN and LED_SNAP_CLOSE. -/
def isSnapReg (a : Nat) : Bool :=
  a = Adr.LED_SNAP_INFO || (Adr.LED_SNAP_OPEN ≤ a && a < Adr.LED_SNAP_OPEN + 8) ||
  (Adr.LED_SNAP_CLOSE ≤ a && a < Adr.LED_SNAP_CLOSE + 8)

/-- The number coded by words, least significant word first. -/
def wordsNat : List Word → Nat
  | [] => 0
  | w :: ws => w.toNat + 2 ^ 32 * wordsNat ws

/-- A word of a number as a 32-bit word. -/
def wordK (v k : Nat) : Word := BitVec.ofNat 32 (v / 2 ^ (32 * k))

/-- A word of those registers. -/
def snapRegWord (r : Option SnapRec) (a : Nat) : Word :=
  if a = Adr.LED_SNAP_INFO then snapInfo r
  else if Adr.LED_SNAP_OPEN ≤ a && a < Adr.LED_SNAP_OPEN + 8 then
    r.elim 0 fun x => wordK x.openTime.toNat ((a - Adr.LED_SNAP_OPEN) / 4)
  else r.elim 0 fun x => wordK x.closeTime.toNat ((a - Adr.LED_SNAP_CLOSE) / 4)

/-- A word of the snapshot views, by the live address it shows (R210). -/
def State.snapWord (s : State) (r : Option SnapRec) (b : Nat) : Word :=
  match r with
  | none => 0
  | some x => if inSlots b then s.slotWord x.slots b else demandWord x.dem x.dmax b

/-! ### Words that follow from the state -/

/-- PTP_NOW: NS, SEC, WRAP and LT32 (R323, R328). -/
def State.ptpNowNat (s : State) : Nat :=
  let n := s.ptpNow
  n % 1000000000 + n / 1000000000 % 2 ^ 48 * 2 ^ 32 + s.rd Fld.NET_NS_WRAP_WRAPS % 2 ^ 16 * 2 ^ 80 + n % 2 ^ 32 * 2 ^ 96

/-- SEC_DUAL: the pending authorisation. -/
def State.dualWord (s : State) : Word :=
  match s.pendingDual with
  | none => 0
  | some d => BitVec.ofNat 32 (d.cmd * 2 ^ 16 + Nat.log2 d.role.toNat * 2 ^ 13 + d.key * 2 ^ 10 + (s.now - d.at_) / 1000)

/-- SEC_STATUS of a path; `none` is a path that holds no session. -/
def State.secStatus (s : State) (p : Option Path) : Word :=
  let hmac := if s.core.loaded && s.hmacEntry.isSome then 2 ^ 21 else 0
  match p with
  | none => BitVec.ofNat 32 hmac
  | some q =>
    let armed := if (s.path q).armed.any fun a => s.now ≤ a.firstAt + 300000 then 2 ^ 22 else 0
    match s.session q with
    | none => BitVec.ofNat 32 (hmac + armed)
    | some x => BitVec.ofNat 32 (2 ^ 31 + x.role.toNat % 32 * 2 ^ 26 + x.key % 8 * 2 ^ 23 + armed + hmac +
        (x.opened + 300000 - s.now) / 1000)

/-- REC_SUPP for the code selected (R244). -/
def State.suppWord (s : State) : Word :=
  let c := s.rd Fld.REC_SUPP_SEL_CODE
  BitVec.ofNat 32 (storeGet zeroAt s.rcd.suppTotal c * 2 ^ 16 + storeGet zeroAt s.rcd.suppPending c)

/-- Registers held by each access path: their words come from the path used. -/
def pathHeld (a : Nat) : Bool :=
  a = Adr.SEC_TOKEN_CMD || a = Adr.SEC_RDG_CMD || (Adr.NET_HTX_LT ≤ a && a ≤ Adr.NET_HTX_CMD) ||
  (Adr.NET_HRX_CMD 0 ≤ a && a ≤ Adr.NET_HRX_CMD 0 + 12) || (Adr.NET_HRX_CMD 1 ≤ a && a ≤ Adr.NET_HRX_CMD 1 + 12)

/-- The word of a path-held register on a path. -/
def State.pathWord (s : State) (p : Option Path) (a : Nat) : Word :=
  match p with
  | none => resetWord a
  | some q => storeGet resetWord (s.path q).regs a

/-- STATUS of the record or entry buffer of the path used, in a word shared otherwise (R253, R259). -/
def State.withPath (s : State) (p : Option Path) (a mask : Nat) : Word :=
  (s.word a &&& ~~~ BitVec.ofNat 32 mask) ||| (s.pathWord p a &&& BitVec.ofNat 32 mask)

/-- Bits of a field within its word. -/
def Field.mask (f : Field) : Nat := (2 ^ f.width - 1) * 2 ^ f.lo

/-- The word a register reads on a path, when the read has no effect; `none` is the path of the panel or of readings. -/
def State.view (s : State) (p : Option Path) (a : Nat) : Word :=
  if s.absent a || (regShape a).isNone then 0
  else match snapLive a with
  | some b => s.snapWord s.snapSel b
  | none =>
    if inSlots a then s.slotWord s.led.live.slots a
    else if inDemand a then
      (if s.ownerExists (ownerAt a) then demandWord s.led.live.dem s.led.live.dmax a else 0)
    else if a = 0 then
      BitVec.ofNat 32 ((if s.fuses.kb9608 then 0x9608 else 0x9616) * 2 ^ 16 + s.fuses.revision.toNat * 16)
    else if a = Adr.SYS_PRESENT then (if s.fuses.kb9608 then 0x000300FF else 0x000FFFFF)
    else if a = Adr.SYS_UID || a = Adr.SYS_UID + 4 then wordK s.fuses.uid.toNat ((a - Adr.SYS_UID) / 4)
    else if a = Adr.SYS_ENG_MAP1 && s.fuses.kb9608 then 0xFFFFFFFF
    else if a = Adr.CAL_REF_BASE then s.refBase
    else if 0x300000 ≤ a && a < 0x310000 && 0x800 ≤ a % 0x1000 && a % 0x1000 < 0xA00 then
      s.harmWord ((a - 0x300000) / 0x1000) (a % 0x1000 / 4 - 0x200)
    else if isSnapReg a then snapRegWord s.snapSel a
    else if a = Adr.REC_SUPP then s.suppWord
    else if a = Adr.REC_RD then
      s.withPath p a Fld.REC_RD_STATUS.mask ||| BitVec.ofNat 32 (s.rcd.freezeStart.elim 0 fun t => min ((s.now - t) / 1000) 31)
    else if a = Adr.AUD_STATUS then s.withPath p a Fld.AUD_STATUS_STATUS.mask
    else if a = Adr.SEC_STATUS then s.secStatus p
    else if a = Adr.SEC_DUAL then s.dualWord
    else if Adr.SEC_DEVKEY ≤ a && a < Adr.SEC_DEVKEY + 64 then s.fuses.devKey.getD ((a - Adr.SEC_DEVKEY) / 4) 0
    else if Adr.SEC_DEVCERT ≤ a && a < Adr.SEC_DEVCERT + 64 then s.fuses.devCert.getD ((a - Adr.SEC_DEVCERT) / 4) 0
    else if a = Adr.TMP_FUSE then s.fuses.lsg.setWidth 32
    else if Adr.PTP_NOW ≤ a && a < Adr.PTP_NOW + 16 then wordK s.ptpNowNat ((a - Adr.PTP_NOW) / 4)
    else if pathHeld a then s.pathWord p a
    else s.word a

/-! ### Reads with an effect (R281, R419) -/

/-- The registers whose read has an effect. -/
inductive Effect where
  | nonce (k : Nat)
  | recData
  | audData
  | rdgData
  | lpData
  | calendar
  | calAcc
  | htxDone (k : Nat)
  | hrxData (n : Fin 2)
  | rtc (i : Nat)
deriving DecidableEq, Repr

/-- The effect of a read at an address. -/
def effectAt (a : Nat) : Option Effect :=
  if Adr.SEC_NONCE ≤ a && a < Adr.SEC_NONCE + 16 then some (.nonce ((a - Adr.SEC_NONCE) / 4))
  else if a = Adr.REC_DATA then some .recData
  else if a = Adr.AUD_DATA then some .audData
  else if a = Adr.SEC_RDG_DATA then some .rdgData
  else if a = Adr.LED_LP_DATA then some .lpData
  else if a = Adr.TAR_CAL_DATA then some .calendar
  else if a = Adr.CAL_ACC_DATA then some .calAcc
  else if Adr.NET_HTX_DONE ≤ a && a < Adr.NET_HTX_DONE + 16 then some (.htxDone ((a - Adr.NET_HTX_DONE) / 4))
  else if a = Adr.NET_HRX_DATA 0 then some (.hrxData 0)
  else if a = Adr.NET_HRX_DATA 1 then some (.hrxData 1)
  else if Adr.RTC_SUBSEC ≤ a && a < Adr.RTC_SUBSEC + 32 then some (.rtc ((a - Adr.RTC_SUBSEC) / 4))
  else none

/-- The effect of a read of one word; an unaligned address is unimplemented and reads 0 without effect (R3). -/
def readEffect (a : Nat) : Option Effect := if a % 4 = 0 then effectAt a else none

/-- A word as the panel and the formation of readings read it: 0 where a read has an effect (R281, R419). -/
def State.quiet (s : State) (a : Nat) : Word := if (readEffect a).isSome then 0 else s.view none a

/-- Whether an address lies in the LG area of R281. -/
def inLg (a : Nat) : Bool := 0x400000 ≤ a && a < 0x500000

/-- A word of the LG area as of the last commit (R281): slots and demand from the live image, which only commits change,
other words from what the commit left. -/
def State.lgRead (s : State) (a : Nat) : Word :=
  if (readEffect a).isSome || s.absent a || (regShape a).isNone then 0
  else match snapLive a with
  | some b => s.snapWord s.led.lgSnap b
  | none =>
    if inSlots a || inDemand a then s.view none a
    else if isSnapReg a then snapRegWord s.led.lgSnap a
    else storeGet resetWord s.led.lgShown a

/-- A word as the formation of readings reads it. -/
def State.formed (s : State) (a : Nat) : Word := if inLg a then s.lgRead a else s.quiet a

/-! ### Captures (R4) -/

/-- The captures an access path holds: base address and words of each captured quantity. -/
abbrev Captures := List (Nat × List Word)

/-- A read of one word under R4, for the words a path reads live: the word, and the captures after it. -/
def captureRead (live : Nat → Word) (caps : Captures) (a : Nat) : Word × Captures :=
  match regShape a with
  | none => (0, caps)
  | some (base, words) =>
    let k := (a - base) / 4
    let rest := caps.filter fun (y : Nat × List Word) => y.1 ≠ base
    if words ≤ 1 then (live a, caps)
    else if k = 0 then (live a, (base, (List.range words).map fun i => live (base + 4 * i)) :: rest)
    else match caps.lookup base with
      | some ws => (ws.getD k 0, if k + 1 = words then rest else caps)
      | none => (live a, caps)

/-- A run of consecutive words read under R4. -/
def captureRun (live : Nat → Word) (caps : Captures) (a : Nat) : Nat → List Word × Captures
  | 0 => ([], caps)
  | n + 1 =>
    let r := captureRead live caps a
    let rest := captureRun live r.2 (a + 4) n
    (r.1 :: rest.1, rest.2)

/-- Set or release a capture of a path. -/
def State.setCap (s : State) (p : Path) (base : Nat) (c : Option (List Word)) : State :=
  let x := s.path p
  let rest := x.caps.filter fun y => y.1 ≠ base
  s.setPath p { x with caps := match c with
    | some ws => (base, ws) :: rest
    | none => rest }

/-- A word, other than the lowest, of a quantity whose lowest word has a read with an effect: the highest releases the
capture. -/
def State.capRead (s : State) (p : Path) (base words k : Nat) (live : Word) : Word × State :=
  match (s.path p).caps.lookup base with
  | some ws => (ws.getD k 0, if k + 1 = words then s.setCap p base none else s)
  | none => (live, s)

/-- A read of a register without an effect of its own, by a path. -/
def State.plainRead (s : State) (p : Path) (a : Nat) : Word × State :=
  if s.absent a then (0, s)
  else
    let r := captureRead (s.view (some p)) (s.path p).caps a
    (r.1, s.setPath p { s.path p with caps := r.2 })

/-- The next word of the path's reading buffer of 256 words. -/
def State.rdgRead (s : State) (p : Path) : Word × State :=
  let x := s.path p
  ((bytesWords x.rdgBuf).getD x.rdgIdx 0, s.setPath p { x with rdgIdx := (x.rdgIdx + 1) % 256 })

def execRdgDataRead (p : Path) (s : State) : Host.Outcome State Fault Refusal := .next (s.hostRead fun s => s.rdgRead p)

/-- A read with an effect, by a path. -/
def State.effectRead (s : State) (p : Path) : Effect → Word × State
  | .nonce 0 => s.nonceRead p
  | .nonce k => s.capRead p Adr.SEC_NONCE 4 k 0
  | .recData => s.recDataRead p
  | .audData => s.audDataRead p
  | .rdgData => s.rdgRead p
  | .lpData => s.lpDataRead
  | .calendar => s.tarCalRead
  | .calAcc => s.calDataRead
  | .htxDone 0 =>
    let r := s.htxDoneRead p
    (r.1.getD 0 0, r.2.setCap p Adr.NET_HTX_DONE (some r.1))
  | .htxDone k => s.capRead p Adr.NET_HTX_DONE 4 k (((s.path p).htxDone.headD []).getD k 0)
  | .hrxData n => s.hrxRead p n
  | .rtc i => s.rtcRead p i

def execHtxDoneRead (p : Path) (s : State) : Host.Outcome State Fault Refusal :=
  .next (s.hostRead fun s => s.effectRead p (.htxDone 0))

/-- A read of one word by a path. -/
def State.readWord (s : State) (p : Path) (a : Nat) : Word × State :=
  match readEffect a with
  | some e => s.effectRead p e
  | none => s.plainRead p a

end Sys2Proof.Machine
end

