-- ==== Sys2Proof/Machine/Readings.lean ====
section
/-!
DEFINITION. Signed readings (R279 to R285): the tests of a request, the frame and its signature, delivery to a host, to a
Drega requester and as a publication (R317, R320), and faults of Garnet.
-/

namespace Sys2Proof.Machine

/-! ### Requests (R279) -/

/-- STATUS codes of SEC_RDG_CMD. -/
def rdForming : Nat := 1
def rdOk : Nat := 2
def rdNotReady : Nat := 3
def rdTooLong : Nat := 4
def rdBadItem : Nat := 5
def rdNoHmac : Nat := 6
def rdBusy : Nat := 7
def rdFault : Nat := 8

/-- The items used, from their addresses and words: consecutive from item 0, at most 32 words each, inside the register
space. -/
def rdgItems (vs : List (Nat × Nat)) : Option (List (Nat × Nat)) :=
  let used := vs.takeWhile fun v => v.2 ≠ 0
  let bad := used.isEmpty || ((vs.drop used.length).any fun v => v.2 ≠ 0) ||
    used.any fun v => 32 < v.2 || 0x1000000 < v.1 + 4 * v.2
  if bad then none else some used

/-- Bytes of the items of a frame. -/
def itemBytes (items : List (Nat × Nat)) : Nat := items.foldl (fun n i => n + 8 + 4 * i.2) 0

/-- Bytes of a signature. -/
def sigBytes (hmac : Bool) : Nat := if hmac then 32 else 64

/-- The tests of R279 in their order; the items of a request that passes, or the code that refuses it. -/
def State.rdgTest (s : State) (hmac : Bool) (vs : List (Nat × Nat)) : Nat ⊕ List (Nat × Nat) :=
  match rdgItems vs with
  | none => .inl rdBadItem
  | some items =>
    if 1024 < 64 + itemBytes items + sigBytes hmac then .inl rdTooLong
    else if hmac && !s.flag Fld.SEC_CFG_HMAC_ALLOWED then .inl rdNoHmac
    else if s.gar.stopped || (s.chip = chipFrozen && (s.esc.failed.contains .lg || s.esc.failed.contains .ifr)) then .inl rdFault
    else if !s.led.firstCommit || s.rd Fld.LED_STATUS_STATE = 1 then .inl rdNotReady
    else if s.garnetShut then .inl rdFault
    else if s.garnetFull then .inl rdBusy
    else .inr items

/-! ### The frame (R280 to R282) -/

/-- Whether an item reaches into an area. -/
def reaches (i : Nat × Nat) (base size : Nat) : Bool := i.1 < base + size && base < i.1 + 4 * i.2

/-- Bays whose live window or billing slots appear in the items. -/
def rdgBays (items : List (Nat × Nat)) : List Nat :=
  (List.range 16).filter fun n => items.any fun i => reaches i (0x300000 + n * 0x1000) 0x1000 || reaches i (0x410000 + n * 0x2000) 0x2000

/-- Streams whose live window or billing slots appear in the items. -/
def rdgStreams (items : List (Nat × Nat)) : List Nat :=
  (List.range 4).filter fun n =>
    items.any fun i => reaches i (0x310000 + n * 0x1000) 0x1000 || reaches i (0x410000 + (n + 16) * 0x2000) 0x2000

/-- STATUS of a reading (R282). -/
def State.rdgStatus (s : State) (items : List (Nat × Nat)) : Nat :=
  let bays := rdgBays items
  let b (x : Bool) (n : Nat) : Nat := if x then 2 ^ n else 0
  b (s.chip = chipStart || s.chip = chipProvisional || bays.any fun n => s.flag (Fld.BAY_STATUS_PROVISIONAL n)) 0 +
  b s.locked 1 +
  b ((bays.any fun n => s.flag (Fld.BAY_STATUS_DEGRADED n)) ||
      ((rdgStreams items).any fun n => s.flag (Fld.MT_PS_STATUS_DEGRADED n)) ||
      s.flag Fld.CAL_REF_MISMATCH || s.rd Fld.STR_STATUS_SINGLE % 2 = 1 || s.flag Fld.LED_STATUS_STEP_HELD ||
      s.chip = chipFrozen) 2 +
  b (s.flag Fld.SYS_STATUS_SINGLE) 3 +
  b s.led.liveOutage 4

/-- An item with its head and data, read with captures of its own (R4, R281). DEDUCED: "with R4 capture per item" makes a
capture of the formation of readings end with its item (notes/assumptions/133.md). -/
def State.rdgItem (s : State) (i : Nat × Nat) : List Byte :=
  let lg := 0x400000 ≤ i.1 && i.1 + 4 * i.2 ≤ 0x500000
  beBytes 4 i.1 ++ beBytes 2 i.2 ++ beBytes 1 (if lg then 1 else 0) ++ beBytes 1 0 ++
    (captureRun s.formed [] i.1 i.2).1.flatMap wordBytes

/-- The frame without its signature. -/
def State.rdgFrame (s : State) (hmac : Bool) (items : List (Nat × Nat)) (rseq reqNonce : Nat) : List Byte :=
  let st := s.led.live.st
  beBytes 1 1 ++ beBytes 1 (if hmac then 2 else 1) ++ beBytes 2 (64 + itemBytes items + sigBytes hmac) ++
  beBytes 8 s.fuses.uid.toNat ++ beBytes 4 rseq ++ beBytes 8 (s.rd Fld.LED_TIME_TIME) ++ beBytes 1 st.tsrc ++
  beBytes 1 (s.rdgStatus items) ++ beBytes 2 items.length ++ beBytes 5 st.opsec ++ beBytes 3 0 ++ beBytes 4 st.pwrcyc ++
  beBytes 4 s.led.liveTseq.toNat ++ beBytes 4 0 ++ beBytes 8 (s.rd Fld.AUD_HEAD_CHAIN) ++ beBytes 8 reqNonce ++
  items.flatMap s.rdgItem

/-- The device's public key, which names its key pair. -/
def State.devPub (s : State) : BitVec 512 :=
  BitVec.ofNat 512 (s.fuses.devKey.foldr (fun w n => w.toNat + 2 ^ 32 * n) 0)

/-- The HMAC key of readings (R269). -/
def State.hmacKey (s : State) : BitVec 256 :=
  let z := Config.ecdh s.devPub (s.sec.pubs.getD (s.hmacEntry.getD 0) 0)
  Config.sha256 (beBytes 4 0x4B424831 ++ beBytes 32 z.toNat ++ beBytes 8 s.fuses.uid.toNat ++ beBytes 4 (s.rd Fld.SEC_HMAC_GEN))

/-- A frame with its signature (R280, R284). -/
def State.rdgSign (s : State) (frame : List Byte) : List Byte :=
  if frame.getD 1 0 = 2 then frame ++ beBytes 32 (Config.hmac s.hmacKey frame).toNat
  else frame ++ beBytes 64 (Config.ecdsaSign s.devPub (Config.sha256 frame)).toNat

/-! ### Outcomes -/

/-- STATUS of Drega for a refusal code of SEC_RDG_CMD (R318). -/
def drStatus (code : Nat) : Nat :=
  if code = rdNotReady then 5 else if code = rdTooLong then 6 else if code = rdBadItem then 7 else if code = rdNoHmac then 8
  else if code = rdBusy then 4 else 9

/-- SEC_RDG_CMD.STATUS of a path leaves FORMING. RDG of SYS_IRQ_STAT belongs to the host port's path (R438). -/
def State.rdgResult (s : State) (p : Path) (code : Nat) : State :=
  let s := s.wrP p Fld.SEC_RDG_CMD_STATUS code
  if p = .spi then s.irq Fld.SYS_IRQ_STAT_RDG else s

/-- A request is refused. A publication counts FAILED for BUSY, FAULT and NOT_READY. -/
def State.rdgRefuse (s : State) (o : RdgOrigin) (code : Nat) : State :=
  match o with
  | .host p => s.rdgResult p code
  | .drega src tag => (s.dregaAnswer src 3 tag (drStatus code) []).dregaFlush dregaMost
  | .lost => s
  | .publish _ _ => if code ∈ [rdBusy, rdFault, rdNotReady] then s.count Fld.NET_PUB_STAT_FAILED else s

/-- A signed frame is delivered. -/
def State.rdgDeliver (s : State) (o : RdgOrigin) (frame : List Byte) : State :=
  match o with
  | .host p =>
    let s := s.setPath p { s.path p with rdgBuf := frame, rdgIdx := 0 }
    (s.wrP p Fld.SEC_RDG_CMD_LENGTH frame.length).rdgResult p rdOk
  | .drega src tag => (s.dregaAnswer src 3 tag drOk frame).dregaFlush dregaMost
  | .lost => s
  | .publish k lt =>
    let port : Fin 2 := if s.flag (Fld.NET_PUB_PORT k) then 1 else 0
    s.pubSend port { pub := k, payload := dregaBytes 0x84 k.val 0 (s.openWord % 4) frame, lt }

/-- A request is tested; one that passes is formed and queued for Garnet. RSEQ is assigned when formation begins. -/
def State.rdgRequest (s : State) (o : RdgOrigin) (hmac : Bool) (reqNonce : Nat) (vs : List (Nat × Nat)) : State :=
  match s.rdgTest hmac vs with
  | .inl code => (if code = rdBusy then s.count Fld.SEC_GARNET_BUSY else s).rdgRefuse o code
  | .inr items =>
    let s := s.wrap Fld.SEC_RDG_SEQ_RSEQ
    s.garnetQueue (.sign o (s.rdgFrame hmac items (s.rd Fld.SEC_RDG_SEQ_RSEQ) reqNonce))

/-! ### Host requests (SEC_RDG_) -/

/-- The items of the host's request registers. -/
def State.hostItems (s : State) : List (Nat × Nat) :=
  (List.range 32).map fun i => (4 * s.rd (Fld.SEC_RDG_REQ_ADDR i), s.rd (Fld.SEC_RDG_REQ_WORDS i))

/-- A write of SEC_RDG_CMD. -/
def State.wRdgCmd (s : State) (p : Path) (v : Word) : WStatus × State :=
  let c := bitsOf v.toNat 28 4
  if c = 1 || c = 2 then
    let s := (s.setPath p { s.path p with rdgIdx := 0 }).wrP p Fld.SEC_RDG_CMD_STATUS rdForming
    (.ok, s.rdgRequest (.host p) (c = 2) (s.rd Fld.SEC_RDG_NONCE_NONCE) s.hostItems)
  else (.ok, s)

def execFormEcdsa (p : Path) (s : State) : Host.Outcome State Fault Refusal :=
  .next (s.host fun s => s.wRdgCmd p 0x10000000)

def execFormHmac (p : Path) (s : State) : Host.Outcome State Fault Refusal :=
  .next (s.host fun s => s.wRdgCmd p 0x20000000)

/-- Garnet completes the signature in service; the frame is delivered and the next request starts. -/
def State.signed (s : State) : State :=
  match s.gar.serving with
  | some (.sign o frame) => ((s.wrap Fld.SEC_GARNET_SIGNED).garnetDone).rdgDeliver o (s.rdgSign frame)
  | _ => s

def execReadingSigned (s : State) : Host.Outcome State Fault Refusal := .next s.signed

/-! ### Drega requests (R317) -/

/-- The items of a READING message. -/
def readingItems (m : List Byte) : List RdgItem :=
  (List.range (num m 16 2)).map fun i =>
    { addr := BitVec.ofNat 32 (num m (20 + 8 * i) 4), words := BitVec.ofNat 16 (num m (24 + 8 * i) 2)
      reserved := BitVec.ofNat 16 (num m (26 + 8 * i) 2) }

/-- Whether FLAGS, LENGTH, the counts and the reserved bytes of a READING message are right (R317, R318). -/
def readingOk (m : List Byte) : Bool :=
  num m 5 1 < 4 && 1 ≤ num m 16 2 && num m 16 2 ≤ 32 && num m 6 2 = 12 + 8 * num m 16 2 && num m 18 2 = 0 &&
  (readingItems m).all fun i => 1 ≤ i.words.toNat && i.words.toNat ≤ 32 && i.reserved = 0

/-- The registers a READING message asks for: the address and the number of words of each item. -/
def readingAsks (m : List Byte) : List (Nat × Nat) := (readingItems m).map fun i => (i.addr.toNat, i.words.toNat)

/-- A READING request: a wrong one is answered BAD_MESSAGE, any other tested and queued. -/
def State.dregaReading (s : State) (src : DregaSrc) (tag : BitVec 16) (m : List Byte) : State :=
  if !readingOk m then s.dregaAnswer src 3 tag drBadMessage []
  else s.rdgRequest (.drega src tag) (num m 5 1 / 2 % 2 = 1) (num m 8 8) (readingAsks m)

/-- READING: the Drega request that has waited longest, where it is the READING of these fields. -/
def execReading (src : DregaSrc) (tag : BitVec 16) (flags : Byte) (nonce : BitVec 64) (items : List RdgItem) (s : State) :
    Host.Outcome State Fault Refusal :=
  .next (s.dregaServe 3
    (fun r m => dregaNamed src tag flags r m && num m 8 8 = nonce.toNat && readingItems m = items) fun src tag m s =>
      s.dregaReading src tag m)

/-! ### Publication (R320) -/

/-- The PTP second of the last whole-second boundary, rounded: S of R320, while the launch timebase is valid. -/
def State.pubSecond (s : State) : Option Nat :=
  if s.timebase then s.ptp.lastCap.map fun c => (c.1 + 500000000) / 1000000000 else none

/-- Whether the tick that ended at the last whole-second boundary has been committed: none waits for its fold window, and no
tick's transaction waits for its commit. -/
def State.tickCommitted (s : State) : Bool :=
  let ofTick : Txn → Bool := fun t => match t.act with
    | .tick _ => true
    | _ => false
  s.led.bounds.isEmpty && !s.led.queue.any ofTick

/-- Whether publication k falls due at the last whole-second boundary and has not been formed since: it is enabled, and its
period is up. -/
def State.pubUp (s : State) (k : Fin 4) : Bool :=
  s.flag (Fld.NET_PUB_ENABLE k) && s.pubSecond.getD s.opsec % s.rd (Fld.NET_PUB_PERIOD k) = 0 &&
  s.net.pubAt.getD k.val 0 ≠ s.core.tickEpoch + 1

/-- Whether publication k is formed now: it is due, the tick that ends at the boundary has been committed, and of those due
together it is the one of lowest index. -/
def State.pubDue (s : State) (k : Fin 4) : Bool :=
  s.flag Fld.AQ_STATUS_RUN && s.tickCommitted && s.pubUp k && (List.finRange 4).all fun (j : Fin 4) => !(j < k && s.pubUp j)

/-- The items of a publication. -/
def State.pubItems (s : State) (k : Fin 4) : List (Nat × Nat) :=
  (List.range 8).map fun i => (4 * s.rd (Fld.NET_PUB_ITEM_ADDR k i), s.rd (Fld.NET_PUB_ITEM_WORDS k i))

/-- A publication falls due: its destination is looked up, and its reading formed. -/
def State.publish (s : State) (k : Fin 4) : State :=
  if !s.core.loaded || !s.pubDue k then s
  else
    let port : Fin 2 := if s.flag (Fld.NET_PUB_PORT k) then 1 else 0
    let s := { s with net := { s.net with pubAt := s.net.pubAt.set k.val (s.core.tickEpoch + 1) } }
    let lt := s.pubSecond.map fun x => BitVec.ofNat 32 ((x * 1000 + s.rd (Fld.NET_PUB_OFFSET k)) * 1000000)
    (s.arpResolve port (s.nextHop port (s.rd (Fld.NET_PUB_DST_ADDR k)))).rdgRequest (.publish k lt) (s.flag (Fld.NET_PUB_SIG k)) 0
      (s.pubItems k)

def execPublished (k : Fin 4) (s : State) : Host.Outcome State Fault Refusal := .next (s.publish k)

/-! ### Faults of Garnet (R285) -/

/-- A request in the queue is refused with FAULT. -/
def State.garnetRefuse (s : State) : GarnetReq → State
  | .token p t => s.tokenRefuse p t 0xB
  | .sign o _ => s.rdgRefuse o rdFault

/-- Every request, that in service too, is refused with FAULT and not retried; GARNET_FAULT gives their number. -/
def State.garnetFlush (s : State) : State :=
  let rs := s.gar.serving.toList ++ s.gar.verify ++ s.gar.sign
  let s := { s with gar := { s.gar with serving := none, verify := [], sign := [] } }
  (rs.foldl State.garnetRefuse s).raise evGarnetFault 0xFF (beBytes 2 rs.length)

/-- A fault of Garnet: contained at block level, Garnet restarting; a second within 10 s passes to region LG, which stops
Garnet until the next core reset. -/
def State.garnetFault (s : State) (error : Nat) : State :=
  if s.gar.stopped then s
  else
    let again := s.gar.lastFault.any fun t => s.now ≤ t + 10000
    let s := s.count Fld.SEC_GARNET_FAULT
    let s := { s with gar := { s.gar with restarting := !again, stopped := again, lastFault := some s.now } }
    let s := (s.escBlock 2).garnetFlush
    if again then (s.escRegion 2).escRecord 2 2 1 0 0x0D error else s.escRecord 1 2 1 0 0x05 error

/-- Garnet has restarted. -/
def State.garnetBack (s : State) : State := { s with gar := ({ s.gar with restarting := false } : Garnet).next }

/-- At a power-fail warning the readings in Garnet's queue are abandoned (R281, R285). -/
def State.garnetWarned (s : State) : State :=
  let isSign : GarnetReq → Bool
    | .sign _ _ => true
    | .token _ _ => false
  let rs := s.gar.serving.toList.filter isSign ++ s.gar.sign
  let s := { s with gar := { s.gar with serving := s.gar.serving.filter fun r => !isSign r, sign := [] } }
  rs.foldl State.garnetRefuse s

end Sys2Proof.Machine
end

