-- ==== Sys2Proof/Machine/Engines.lean ====
section
/-!
DEFINITION. Faults of engines, accelerators, Garnet and network engines (R39 to R42, R123, R180, R331), and the Vein watchdog.
-/

namespace Sys2Proof.Machine

/-! ### Units -/

/-- The power domain of a unit (R405). -/
def unitDomain : FaultUnit → Nat
  | .bayEngine n => 6 + n.val / 4
  | .procEngine _ => 10
  | .accel _ => 11
  | .garnet => 13
  | .netEngine p => 14 + p.val

/-- Whether the part has a unit and it works: not fused off, its domain on, not out of service. -/
def State.unitIn (s : State) (u : FaultUnit) : Bool :=
  let fused := match u with
    | .bayEngine n => s.fuses.kb9608 && 8 ≤ n.val
    | .procEngine m => s.fuses.kb9608 && 2 ≤ m.val
    | _ => false
  s.core.running && !fused && s.domOn (unitDomain u) && !s.esc.down.contains u

/-! ### Standby takeover (R41, R42) -/

/-- Whether a process engine serves as standby and is free. -/
def State.standbyFree (s : State) (m : Nat) : Bool :=
  s.rd Fld.SYS_ESC_CTRL_STANDBY_PE / 2 ^ m % 2 = 1 && s.domOn 10 && !(s.fuses.kb9608 && 2 ≤ m) &&
  !s.esc.down.contains (.procEngine (Fin.ofNat 4 m)) && (List.range 16).all fun b => s.rd (engField b) ≠ 8 + m

/-- The lowest-indexed free standby engine. -/
def State.standby (s : State) : Option Nat := (List.range 4).find? s.standbyFree

/-- A bay is bound to a standby engine; it resumes at its next cycle start, the cycle in progress credited (R40). -/
def State.bindBay (s : State) (b m : Nat) : State :=
  ((s.wr (engField b) (8 + m)).wrB (Fld.BAY_STATUS_STANDBY b) true).setBay b { s.bay b with credit := true }

/-- A bay finds no free standby engine: it is STOPPED and DEGRADED until the next core reset (R42, R104), and its events end
(R137). -/
def State.stopBay (s : State) (b : Nat) : State :=
  let s := { s with esc := { s.esc with stopped := b :: s.esc.stopped } }
  let s := (s.wr (engField b) 0xE).wrB (Fld.BAY_STATUS_STANDBY b) false
  let s := ((s.closeEvents b false).dropWindow b).setTrack b trkStopped
  (s.wrB (Fld.BAY_STATUS_DEGRADED b) true).refreshDegraded

/-- A bay hosted in DMP at its isolate step: its metering is off, and it waits for a standby engine (R104, R405). -/
def State.unhostBay (s : State) (b : Nat) : State :=
  let s := (s.wr (engField b) 0xE).wrB (Fld.BAY_STATUS_STANDBY b) false
  ((s.closeEvents b false).dropWindow b).setTrack b trkOff

/-- Bays that wait for a standby engine are bound at a power-on of DMP, lower indices first (R41, R405); one stopped for want
of an engine stays so (R42). -/
def State.bindWaiting (s : State) : State :=
  (List.range 16).foldl (fun s b =>
    if s.rd (engField b) = 0xE && !s.esc.stopped.contains b then
      match s.standby with
      | some m => ((s.bindBay b m).setBay b { s.bay b with credit := false }).setTrack b trkOff
      | none => s
    else s) s

/-! ### Faults (R39) -/

/-- Whether a unit has faulted within the last 10 s. -/
def State.faultedBefore (s : State) (u : FaultUnit) : Bool :=
  s.esc.faults.any fun (x : FaultUnit × Nat) => x.1 = u && s.now ≤ x.2 + 10000

/-- Note a fault of a unit. -/
def State.noteFault (s : State) (u : FaultUnit) : State :=
  { s with esc := { s.esc with faults := (u, s.now) :: s.esc.faults.filter fun (x : FaultUnit × Nat) => x.1 ≠ u } }

/-- A unit restarts. -/
def State.restart (s : State) (u : FaultUnit) : State :=
  { s with esc := { s.esc with restarting := u :: s.esc.restarting.filter fun x => x ≠ u } }

/-- A unit goes out of service until the next core reset. -/
def State.outOfService (s : State) (u : FaultUnit) : State :=
  { s with esc := { s.esc with down := u :: s.esc.down, restarting := s.esc.restarting.filter fun x => x ≠ u } }

/-- The record of a unit's fault at block level: restarted. -/
def State.recordRestart (s : State) (u : FaultUnit) (error : Nat) : State :=
  let (r, b, c) := unitPlace u
  s.escRecord 1 r b c 0x05 error

/-- The bay that an engine meters. -/
def State.bayOf (s : State) (u : FaultUnit) : Option Nat := (List.range 16).find? fun b => s.meteredBy b u

/-- An engine that meters a bay has failed twice: the bay moves to a standby engine, or stops (R41, R42). -/
def State.takeover (s : State) (u : FaultUnit) (b error : Nat) : State :=
  let (r, blk, c) := unitPlace u
  let s := s.escRegion 1
  match s.standby with
  | some m => (s.bindBay b m).escRecord 2 r blk c 0x06 error
  | none => (s.stopBay b).escRecord 2 r blk c 0x07 error

/-- An engine that serves nothing has failed twice within 10 s: it passes to region MT, which leaves it out of service (R39,
R41). DEDUCED: R461 lists no CAUSE for this containment, so that of its record is a free value (notes/assumptions/87.md). -/
def State.idleTwice (s : State) (u : FaultUnit) (error : Nat) : State :=
  let (r, b, c) := unitPlace u
  (((s.outOfService u).escRegion r).escRecord 2 r b c (s.openWord % 256) error).drawn

/-- A fault of a bay or process engine. A process engine that carries a stream stops it at the second fault (R180). -/
def State.engineFault (s : State) (u : FaultUnit) (again : Bool) (error : Nat) : State :=
  match s.bayOf u, u with
  | some b, _ =>
    if again then (s.outOfService u).takeover u b error
    else ((s.restart u).setBay b { s.bay b with credit := true }).recordRestart u error
  | none, .procEngine m =>
    let running := s.rd (Fld.MT_PS_STATUS_STATE m.val) = psRun
    if again && running then
      let (r, blk, c) := unitPlace u
      ((s.outOfService u).streamHalt m.val).escRecord 1 r blk c 0x0F error
    else if again then s.idleTwice u error
    else ((s.restart u).psLose m.val).recordRestart u error
  | none, _ => if again then s.idleTwice u error else (s.restart u).recordRestart u error

/-- A fault of a spectral accelerator (R123): its job is lost; a second fault stops it. -/
def State.accFault (s : State) (a : Fin 2) (again : Bool) (error : Nat) : State :=
  let s := s.accLose a
  if again then
    let s := s.outOfService (.accel a)
    let s := if s.esc.down.contains (.accel 0) && s.esc.down.contains (.accel 1) then s.noService else s
    s.escRecord 1 1 (5 + a.val) 0 0x0C error
  else (s.restart (.accel a)).recordRestart (.accel a) error

/-- The Drega request of a port in service is lost without a response (R331): its reading, where Garnet has it, goes
nowhere. -/
def State.dregaLost (s : State) (p : Fin 2) : State :=
  let drop : GarnetReq → GarnetReq
    | .sign (.drega src tag) f => .sign (if src.port = p then .lost else .drega src tag) f
    | r => r
  { s with gar := { s.gar with serving := s.gar.serving.map drop, sign := s.gar.sign.map drop } }

/-- A fault of a network engine (R331): the frame on the wire is cut short; a second fault stops the port. -/
def State.netFault (s : State) (p : Fin 2) (again : Bool) (error : Nat) : State :=
  if again then ((s.outOfService (.netEngine p)).dregaLost p |>.portStop p).escRecord 1 3 p.val 0 0x0E error
  else (((s.dregaLost p).portCut p).restart (.netEngine p)).recordRestart (.netEngine p) error

/-- A unit reports a fault: a corrected error is counted at cell level; any other is contained at block level, a second one
within 10 s as R39 states. -/
def State.unitFault (s : State) (u : FaultUnit) (k : FaultKind) : State :=
  if !s.unitIn u then s
  else if k = .corrected then s.count Fld.SYS_ESC_COUNT_CORRECTED
  else
    let again := s.faultedBefore u
    let e := errorOf k
    match u with
    | .garnet => s.garnetFault e
    | .accel a => ((s.noteFault u).escBlock 1).accFault a again e
    | .netEngine p => ((s.noteFault u).escBlock 3).netFault p again e
    | .bayEngine _ => ((s.noteFault u).escBlock 1).engineFault u again e
    | .procEngine _ => ((s.noteFault u).escBlock 1).engineFault u again e

def execEngineFault (u : FaultUnit) (k : FaultKind) (s : State) : Host.Outcome State Fault Refusal := .next (s.unitFault u k)

/-- A unit's restart is complete. -/
def State.restarted (s : State) (u : FaultUnit) : State :=
  let t := { s with esc := { s.esc with restarting := s.esc.restarting.filter fun x => x ≠ u } }
  match u with
  | .garnet => s.garnetBack
  | .accel a => t.accTake a
  | _ => t

def execEngineRestartDone (u : FaultUnit) (s : State) : Host.Outcome State Fault Refusal := .next (s.restarted u)

/-! ### The Vein watchdog (R39) -/

/-- A transfer granted to a region has not completed within 1 ms: the region fails. The block and cell of the record are not
stated: free values. -/
def State.veinFault (s : State) (r : Region) : State :=
  if !s.core.running then s
  else
    let w := s.openWord
    ((s.escRegion (regionNo r)).regionFail (regionNo r) (w % 64) (w / 64 % 64) 0x09).drawn

def execVeinWatchdog (r : Region) (s : State) : Host.Outcome State Fault Refusal := .next (s.veinFault r)

end Sys2Proof.Machine
end

