-- ==== Sys2Proof/Machine/Tamper.lean ====
section
/-!
DEFINITION. Tamper detections and their test runs (R288 to R304): conditions that begin and end, FSM_ALARM and the safe
states, the windows of a test run.
-/

namespace Sys2Proof.Machine

/-! ### Conditions (R288, R289) -/

/-- Whether a source is monitored as the device is now powered: VGLITCH from power-good until a power-fail warning, PANEL_CRACK
while the loop is measured; on the backup cell the light sensors, the enclosure inputs and the supply switch. -/
def State.monitored (s : State) (c machine : Nat) : Bool :=
  if s.core.running then
    if c = 24 then !s.core.warned
    else if c = 31 then s.core.ready && s.flag Fld.PNL_CRACK_CFG_ENABLE
    else if c = 32 then 1 ≤ machine && machine ≤ 6
    else true
  else if c = 32 then machine = 5
  else if s.onBat then c < 24 || (27 ≤ c && c ≤ 30)
  else c ≠ 31 && (c ≠ 24 || s.core.cause ≠ 1)

/-- The sources of a list in rising order, once each. -/
def sourcesOf (srcs : List (Fin 33)) : List Nat := ((List.finRange 33).filter fun c => srcs.contains c).map (·.val)

/-- Conditions of sources begin; TMP_ACTIVE follows. That of FSM_ALARM ends as the machine goes to its safe state. -/
def State.condBegin (s : State) (srcs : List Nat) : State :=
  let new := (srcs.filter fun c => c < 32).map fun c => Fin.ofNat 33 c
  ({ s with tmp := { s.tmp with cond := s.tmp.cond ++ new } }).refreshActive

/-- The condition of a source ends; an enclosure pin leaves its alarm level. -/
def State.condEnd (s : State) (c : Nat) : State :=
  let enc := if 27 ≤ c && c ≤ 30 && s.encAlarm c then s.tmp.enc ^^^ BitVec.twoPow 4 (c - 27) else s.tmp.enc
  let s := { s with tmp := { s.tmp with enc } }
  ({ s with tmp := { s.tmp with cond := s.tmp.cond.filter fun x => x.val ≠ c } }).refreshActive

def execTamperConditionEnd (src : Fin 33) (s : State) : Host.Outcome State Fault Refusal := .next (s.condEnd src.val)

/-! ### FSM_ALARM (R299) -/

/-- Flint reads LOCKED with the Bedrock lock bit set; LOCK_ENGAGE is committed where Strata does not show the lock, and an
UNLOCK that has not committed is abandoned (R294). -/
def State.flintAlarm (s : State) : State :=
  let s := { s with bk := { s.bk with lock := true }, sec := { s.sec with unlockDeferred := none } }
  let was := s.locked
  let s := s.setFlint flLocked
  let s := if was then s else s.staleNonces.dropAuthorisations
  let s := if s.led.com.st.lockFlag then s
    else ({ s with tmp := { s.tmp with engageSrc := 32 } }).queueLock
  s.loadLocked

/-- A machine whose code was invalid goes to its safe state. A transaction of the Strata commit machine is rebuilt from the
same inputs, and the supply switch restarts from the present levels, so that neither changes the state here. -/
def State.safeState (s : State) (machine : Nat) : State :=
  match machine with
  | 1 => s.flintAlarm
  | 3 => s.loadAlarm
  | 4 => (s.garnetFault (1 + s.openWord % 3)).drawn
  | 6 => if s.ringOn && s.core.ready then s.ringSearch else s
  | _ => s

/-- FSM_ALARM on a machine: TMP_FSM, the flag, the safe state. -/
def State.fsmAlarm (s : State) (machine code : Nat) : State :=
  if !s.core.running then s
  else
    let s := (s.wr Fld.TMP_FSM_MACHINE machine).wr Fld.TMP_FSM_CODE code
    let s := if s.underTest 32 then s else (s.count Fld.TMP_FSM_COUNT).setFlags [32]
    s.safeState machine

/-! ### Detections -/

/-- Conditions of sources begin and are detected together (R289, R291); the pins ENC0 to ENC3 have the levels `enc`, and an
enclosure source counts while its pin is at the alarm level of Bedrock's copy (R288, R466). -/
def State.tamperDetection (s : State) (srcs : List (Fin 33)) (enc : BitVec 4) (machine code : Nat) : State :=
  let s := ({ s with tmp := { s.tmp with enc } }).encSettle
  let new := (sourcesOf srcs).filter fun c =>
    s.monitored c machine && s.encAlarm c && !s.fused c && s.tmp.cond.all fun x => x.val ≠ c
  let s := s.condBegin new
  let s := if new.contains 32 then s.fsmAlarm machine code else s
  s.detect new { machine, code }

def execTamperDetection (begun : TamperIn) (machine : BitVec 4) (code : BitVec 8) (s : State) :
    Host.Outcome State Fault Refusal := .next (s.tamperDetection begun.sources begun.enc machine.toNat code.toNat)

/-! ### Test runs (R300, R301) -/

def evTamperTestFail : Nat := 0x81

/-- The first monitor from `m` on that is not a fused group; 15 after the last. -/
def State.nextMonitor (s : State) (m : Nat) : Nat :=
  ((List.range 15).find? fun k => m ≤ k && !s.fused (firstSource k)).getD 15

/-- A monitor's window begins, or every window of the run is over. -/
def State.testWindow (s : State) (m : Nat) (periodic : Bool) : State :=
  let t := { s with tmp := { s.tmp with testRun := some (m, periodic) } }
  if m < 15 then t.wr Fld.TMP_STATUS_TEST_SRC m else t

/-- A test run starts. -/
def State.testStart (s : State) (periodic : Bool) : State :=
  let s := { s with tmp := { s.tmp with testedAt := s.opsec } }
  let s := (s.wr Fld.TMP_TEST_FAIL 0).wrB Fld.TMP_STATUS_TEST_RUN true
  s.testWindow (s.nextMonitor 0) periodic

/-- The sensors' bits of a light group. -/
def State.flagGroup (s : State) (m : Nat) : State :=
  if m < 6 then s.wr Fld.TMP_LIGHT_SENSOR (s.rd Fld.TMP_LIGHT_SENSOR ||| 15 * 2 ^ (4 * m)) else s

/-- A monitor's window ends: one that did not respond has failed its test and counts as a detection with every sensor of
its group flagged; a condition that holds is detected; the run moves on. -/
def State.testWindowEnd (s : State) (responded : Bool) : State :=
  match s.tmp.testRun with
  | none => s
  | some (m, periodic) =>
    if 15 ≤ m then s
    else
      let first := firstSource m
      let s := s.testWindow (s.nextMonitor (m + 1)) periodic
      let held := (s.tmp.cond.map (·.val)).filter fun c => stickyBit c = m
      if responded then s.detect held {}
      else
        let s := s.wr Fld.TMP_TEST_FAIL (s.rd Fld.TMP_TEST_FAIL ||| 2 ^ m)
        let s := s.raise evTamperTestFail first (beBytes 1 (if periodic then 1 else 0))
        let s := if m = 14 then s.count Fld.TMP_FSM_COUNT else s
        (s.flagGroup m).detect (first :: held.filter fun c => c ≠ first) { failed := [first] }

def execTamperTestWindowEnd (responded : Bool) (s : State) : Host.Outcome State Fault Refusal :=
  .next (s.testWindowEnd responded)

/-- Whether the limits of the crack-detect loop are out of order: its condition then holds permanently (R425). -/
def State.crackWrong (s : State) : Bool :=
  s.rd Fld.PNL_CRACK_CFG_RHI ≤ s.rd Fld.PNL_CRACK_CFG_RLO || 1000 < s.rd Fld.PNL_CRACK_CFG_RHI

/-- The crack-detect loop when the device becomes ready and under new settings: with ENABLE at 0 the loop is not measured and
the source never detects; with limits out of order the condition holds at once (R425). -/
def State.crackSettle (s : State) : State :=
  if !s.flag Fld.PNL_CRACK_CFG_ENABLE then
    (({ s with panel := { s.panel with crack := 0, crackAt := none } }).wr Fld.PNL_CRACK_STAT_LAST 3).condEnd 31
  else if s.core.running && s.core.ready && s.crackWrong then s.tamperDetection [31] s.tmp.enc 0 0
  else s

/-- The pending flags apply their sources' responses, with UNPOWERED in their events (R298); those of fused groups,
whose response is ignored, are acknowledged with them. -/
def State.applyPending (s : State) : State :=
  let p := s.rd Fld.TMP_PENDING_PEND
  let light := s.rd Fld.TMP_LIGHT_SENSOR
  let srcs := (List.range 33).filter fun c =>
    p / 2 ^ stickyBit c % 2 = 1 && !s.fused c && (24 ≤ c || light / 2 ^ c % 2 = 1)
  let left := ((List.range 15).filter fun k => p / 2 ^ k % 2 = 1 && !srcs.any fun c => stickyBit c = k).map (2 ^ ·)
  let i : DetectInfo := { unpowered := true, machine := s.rd Fld.TMP_FSM_MACHINE, code := s.rd Fld.TMP_FSM_CODE }
  (if srcs = [] then s else s.respond srcs i).acknowledge left.sum false

/-- A test run completes; the run of a start applies the pending flags and makes the device ready. -/
def State.testComplete (s : State) : State :=
  match s.tmp.testRun with
  | none => s
  | some (m, periodic) =>
    if m < 15 then s
    else
      let s := { s with tmp := { s.tmp with testRun := none } }
      let s := (s.wrB Fld.TMP_STATUS_TEST_RUN false).wr Fld.TMP_STATUS_TEST_SRC 0
      let s := s.count Fld.TMP_TEST_RUNS
      if periodic then s
      else
        let s := s.applyPending
        ((({ s with core := { s.core with ready := true } }).crackSettle).ringReady).twinReady

def execTamperTestComplete (s : State) : Host.Outcome State Fault Refusal := .next s.testComplete

/-- Whether TEST_PERIOD hours of operating seconds have passed since the last run started (R301). -/
def State.testDue (s : State) : Bool :=
  s.rd Fld.TMP_CFG_TEST_PERIOD ≠ 0 && s.tmp.testedAt + 3600 * s.rd Fld.TMP_CFG_TEST_PERIOD ≤ s.opsec

/-- A periodic run starts when it is due, unless one is in progress. -/
def State.testPeriodic (s : State) : State :=
  if s.core.running && s.core.ready && s.testDue && s.tmp.testRun.isNone then s.testStart true else s

def execTamperTestPeriodic (s : State) : Host.Outcome State Fault Refusal := .next s.testPeriodic

end Sys2Proof.Machine
end

