-- ==== Sys2Proof/Machine/Panel.lean ====
section
/-!
DEFINITION. The OLED panel (R412 to R427): the text of windows, updates, frames, blanking, the power-on and shutdown of DPN,
and the crack-detect loop.
-/

namespace Sys2Proof.Machine

/-- STATE codes of PNL_STATUS. -/
def pnOff : Nat := 0
def pnScan : Nat := 1
def pnVpnl : Nat := 2
def pnPf : Nat := 3
def pnCfg : Nat := 4

def evVpnlLow : Nat := 0xE0
def evVpnlOk : Nat := 0xE1
def evWinErr : Nat := 0xE2

/-! ### The text of a window (R416 to R418) -/

/-- A decimal digit. -/
def digitChar (d : Nat) : Byte := BitVec.ofNat 8 (0x30 + d % 10)

/-- Exactly `n` decimal digits of a number. -/
def digitsN : Nat → Nat → List Byte
  | 0, _ => []
  | n + 1, v => digitsN n (v / 10) ++ [digitChar v]

/-- A number in decimal, leading zeros blanked down to the units digit; at most 60 digits. -/
def decimal (v : Nat) : List Byte :=
  let ds := (digitsN 60 v).dropWhile fun c => c = 0x30
  if ds = [] then [0x30] else ds

/-- A number of units of 10^−dec, with its decimal point. -/
def fixedText (v dec : Nat) : List Byte :=
  if dec = 0 then decimal v else decimal (v / 10 ^ dec) ++ [0x2E] ++ digitsN dec (v % 10 ^ dec)

/-- Text right-aligned in a width. -/
def rightAlign (w : Nat) (t : List Byte) : List Byte := List.replicate (w - t.length) 0x20 ++ t

/-- The text of a COUNT window (R417). -/
def countText (v shift dec width : Nat) : List Byte := rightAlign width (fixedText (v / 10 ^ shift % 10 ^ 12) dec)

/-- The text of a REAL window (R418), `none` where it does not fit or the number is not finite. -/
def realText (w : Word) (shift dec width : Nat) : Option (List Byte) :=
  match b32Value w with
  | none => none
  | some x =>
    let n := nearest (x / 10 ^ shift * 10 ^ dec)
    if (10 : Int) ^ 60 ≤ n.natAbs then none
    else
      let t := (if n < 0 then [0x2D] else []) ++ fixedText n.natAbs dec
      if t.length ≤ width then some (rightAlign width t) else none

/-- What a window's update reads at its start, and the captures of the panel's path after it: the register at ADDR and for
COUNT the word after it, or the 16 characters of a TEXT window (R4, R419, R422). -/
def State.winRead (s : State) (w : Nat) : Nat × Captures :=
  let a := s.rd (Fld.PNL_WIN_ADDR_ADDR w) * 4
  let words (n : Nat) : Nat × Captures :=
    let r := captureRun s.quiet s.panelCaps a n
    (wordsNat r.1, r.2)
  match s.rd (Fld.PNL_WIN_CFG_KIND w) with
  | 0 => (beNat ((List.range 4).flatMap fun j => wordBytes (s.word (Adr.PNL_WIN_TEXT w j))), s.panelCaps)
  | 1 => words 2
  | _ => words 1

/-- The number a window's update reads. -/
def State.winSource (s : State) (w : Nat) : Nat := (s.winRead w).1

/-- The text of a window for what its update read, and the ERR it gives. -/
def State.winText (s : State) (w src : Nat) : List Byte × Nat :=
  let width := s.rd (Fld.PNL_WIN_CFG_WIDTH w)
  let dec := s.rd (Fld.PNL_WIN_CFG_DEC w)
  let shift := s.rd (Fld.PNL_WIN_CFG_SHIFT w)
  if s.badGeom w then (List.replicate width 0x20, 1)
  else match s.rd (Fld.PNL_WIN_CFG_KIND w) with
    | 0 => ((beBytes 16 src).take width, 0)
    | 1 => (countText src shift dec width, 0)
    | _ =>
      match realText (BitVec.ofNat 32 src) shift dec width with
      | some t => (t, 0)
      | none => (List.replicate width 0x23, 2)

/-- Whether a window's area holds the cell at a row and column. -/
def State.winHolds (s : State) (w r c : Nat) : Bool :=
  s.flag (Fld.PNL_WIN_CFG_ENABLE w) && s.rd (Fld.PNL_WIN_CFG_ROW w) = r && s.rd (Fld.PNL_WIN_CFG_COL w) ≤ c &&
  c < s.rd (Fld.PNL_WIN_CFG_COL w) + s.rd (Fld.PNL_WIN_CFG_WIDTH w)

/-- The enabled window of lowest index that holds a cell (R416). -/
def State.cellOwner (s : State) (r c : Nat) : Option Nat := (List.range 8).find? fun w => s.winHolds w r c

/-- A character as its cell shows it: codes outside the font are blank (R415). -/
def shownChar (c : Byte) : Byte := if 0x20 ≤ c.toNat && c.toNat ≤ 0x7E then c else 0x20

/-- A frame buffer with a window's text in the cells it owns. -/
def State.rendered (s : State) (w : Nat) (text : List Byte) (buf : List Byte) : List Byte :=
  (List.range 48).map fun i =>
    if s.cellOwner (i / 16) (i % 16) = some w then
      shownChar (text.getD (i % 16 - s.rd (Fld.PNL_WIN_CFG_COL w)) 0x20)
    else buf.getD i 0x20

/-! ### Updates (R420 to R422) -/

/-- A write of PNL_REQ: a request for every window whose bit is 1. -/
def State.wPnlReq (s : State) (_ : Path) (v : Word) : WStatus × State :=
  (.ok, (List.range 8).foldl (fun s w => if v.getLsbD w then s.panelRequest w else s) s)

def execPanelReq (p : Path) (win : BitVec 8) (s : State) : Host.Outcome State Fault Refusal :=
  .next (s.host fun s => s.wPnlReq p (win.setWidth 32))

/-- Set or clear the update in progress; PNL_STATUS and the window's STAT follow. -/
def State.setUpdate (s : State) (u : Option (Nat × Nat)) : State :=
  let s := match s.panel.cur with
    | some x => s.wrB (Fld.PNL_WIN_STAT_UPDATING x.1) false
    | none => s
  let s := { s with panel := { s.panel with cur := u } }
  match u with
  | some x => ((s.wrB (Fld.PNL_WIN_STAT_UPDATING x.1) true).wrB Fld.PNL_STATUS_UPDATING true).wr Fld.PNL_STATUS_CUR_WIN x.1
  | none => s.wrB Fld.PNL_STATUS_UPDATING false

/-- Drop the pending request of a window. -/
def State.dropRequest (s : State) (w : Nat) : State :=
  (s.wrB (Fld.PNL_WIN_STAT_PENDING w) false).wr Fld.PNL_STATUS_PENDING (s.rd Fld.PNL_STATUS_PENDING &&& (0xFF ^^^ 2 ^ w))

/-- Drop every pending request. -/
def State.dropRequests (s : State) : State := (List.range 8).foldl State.dropRequest s

/-- The update of the lowest window with a pending request starts, if none is running. -/
def State.updateStart (s : State) : State :=
  if !s.core.running || !s.panelOn || s.panel.cur.isSome || s.rd Fld.PNL_STATUS_STATE = pnPf then s
  else match (List.range 8).find? fun w => s.flag (Fld.PNL_WIN_STAT_PENDING w) with
    | none => s
    | some w => (({ s with panelCaps := (s.winRead w).2 }).dropRequest w).setUpdate (some (w, s.winSource w))

def execPanelUpdateStart (s : State) : Host.Outcome State Fault Refusal := .next s.updateStart

/-- The update in progress completes: the window is rendered into the hidden buffer, UPDATES counts and ERR is set or
cleared; a change to an error raises PANEL_WIN_ERR. -/
def State.updateDone (s : State) : State :=
  match s.panel.cur with
  | none => s
  | some (w, src) =>
    let (text, err) := s.winText w src
    let old := s.rd (Fld.PNL_WIN_STAT_ERR w)
    let buf := s.rendered w text s.panel.hidden
    let s := s.setUpdate none
    let s := { s with panel := { s.panel with hidden := buf, rendered := true } }
    let s := (s.wrap (Fld.PNL_WIN_STAT_UPDATES w)).wr (Fld.PNL_WIN_STAT_ERR w) err
    if old = 0 && err ≠ 0 then s.raise evWinErr w (beBytes 1 err) else s

/-- The update completes and the next pending request starts (R422). -/
def execPanelUpdateDone (s : State) : Host.Outcome State Fault Refusal :=
  .next (if s.panel.cur.isSome then s.updateDone.updateStart else s)

/-! ### Frames (R414, R415) -/

/-- Whether a PNL_TIMING is valid. -/
def timingOk (t : Word) : Bool :=
  let row := bitsOf t.toNat 0 9
  let ph1 := bitsOf t.toNat 28 4
  let ph2 := bitsOf t.toNat 24 4
  100 ≤ row && row ≤ 500 && ph1 ≠ 0 && ph2 ≠ 0 && ph1 + ph2 + 20 ≤ row

/-- The scan takes PNL_DRIVE and PNL_TIMING; with an invalid timing the panel stays blank. -/
def State.takeTiming (s : State) : State :=
  let t := { s with panel := { s.panel with drive := s.word Adr.PNL_DRIVE, timing := s.word Adr.PNL_TIMING } }
  t.wr Fld.PNL_STATUS_STATE (if timingOk (s.word Adr.PNL_TIMING) then pnScan else pnCfg)

/-- A frame starts: settings changed since the last are taken, and the buffers exchange if a render has completed. -/
def State.frameStart (s : State) : State :=
  let st := s.rd Fld.PNL_STATUS_STATE
  if !s.core.running || st = pnPf || st = pnOff || s.flag Fld.PNL_STATUS_VPNL_LOW then s
  else
    let s := s.takeTiming
    if s.rd Fld.PNL_STATUS_STATE = pnScan && s.panel.rendered then
      { s with panel := { s.panel with shown := s.panel.hidden, rendered := false } }
    else s

def execPanelFrameStart (s : State) : Host.Outcome State Fault Refusal := .next s.frameStart

/-! ### What the panel is driven with (R412, R413, R415) -/

/-- Whether a pixel of the shown buffer is set; the font's patterns are free and a space is blank. -/
def State.pixel (s : State) (x y : Nat) : Bool :=
  let c := (s.panel.shown.getD (y / 16 * 16 + x / 8) 0x20).toNat
  c ≠ 0x20 && Config.fontPixel c (x % 8) (y % 16)

/-- Whether a column is lit while a row is selected, under FLIP_X and FLIP_Y. -/
def State.columnLit (s : State) (column row : Nat) : Bool :=
  let t := s.panel.timing
  s.rd Fld.PNL_STATUS_STATE = pnScan &&
  s.pixel (if t.getLsbD 23 then 127 - column else column) (if t.getLsbD 22 then 47 - row else row)

/-- The current of a lit column in µA, and how long it flows in each row period, in units of 1/256 µs. -/
def State.columnDrive (s : State) : Nat × Nat :=
  let d := s.panel.drive.toNat
  let t := s.panel.timing.toNat
  (bitsOf d 24 8 * 2, bitsOf d 16 8 * (bitsOf t 0 9 - bitsOf t 28 4 - bitsOf t 24 4))

/-! ### Blanking (R423, R424) -/

/-- VPNL has been below 7.5 V for 10 µs: the panel blanks; updates go on into the frame buffers. -/
def State.vpnlLow (s : State) : State :=
  if !s.core.running || !s.domOn 16 || s.flag Fld.PNL_STATUS_VPNL_LOW then s
  else
    let t := s.wrB Fld.PNL_STATUS_VPNL_LOW true
    let t := if s.rd Fld.PNL_STATUS_STATE = pnPf then t else t.wr Fld.PNL_STATUS_STATE pnVpnl
    t.raise evVpnlLow 0xFF []

def execPanelVpnlLow (s : State) : Host.Outcome State Fault Refusal := .next s.vpnlLow

/-- VPNL has stayed above 7.8 V for 10 ms: scanning resumes at the next frame start. -/
def State.vpnlOk (s : State) : State :=
  if !s.core.running || !s.flag Fld.PNL_STATUS_VPNL_LOW then s
  else (s.wrB Fld.PNL_STATUS_VPNL_LOW false).raise evVpnlOk 0xFF []

def execPanelVpnlOk (s : State) : Host.Outcome State Fault Refusal := .next s.vpnlOk

/-- A power-fail warning: the update in progress is abandoned and pending requests are dropped; the panel stays blank. -/
def State.panelWarned (s : State) : State :=
  if !s.domOn 16 then s else ((s.setUpdate none).dropRequests).wr Fld.PNL_STATUS_STATE pnPf

/-- The drain of a DPN shutdown. -/
def State.panelDrain (s : State) : State := (s.updateDone).dropRequests

/-- The isolate step of a DPN shutdown; after a power-fail warning STATE reads BLANK_PF until the core reset. -/
def State.panelOff (s : State) : State :=
  let s := s.wrB Fld.PNL_STATUS_VPNL_LOW false
  if s.rd Fld.PNL_STATUS_STATE = pnPf then s else s.wr Fld.PNL_STATUS_STATE pnOff

/-- A DPN power-on: both buffers are cleared, scanning starts, every enabled window is requested. -/
def State.panelStart (s : State) : State :=
  let blank := List.replicate 48 (0x20 : Byte)
  let s := { s with panel := { s.panel with shown := blank, hidden := blank, rendered := false } }
  (List.range 8).foldl State.panelRequest s.takeTiming

/-- The boundary at which a configuration load changes windows (R416, R420): the cells a window leaves are blanked, and each
changed window is requested. `old` is the device under the settings before. -/
def State.panelReload (s old : State) (changed : List Nat) : State :=
  if !s.domOn 16 || changed = [] then s
  else
    let buf := (List.range 48).map fun i =>
      if (old.cellOwner (i / 16) (i % 16)).all fun (w : Nat) => s.winHolds w (i / 16) (i % 16) then s.panel.hidden.getD i 0x20
      else 0x20
    let s := { s with panel := { s.panel with hidden := buf, rendered := true } }
    changed.foldl State.panelRequest s

/-! ### The crack-detect loop (R425) -/

/-- What a measurement reads: 0 OK, 1 OPEN, 2 SHORT. -/
def State.crackReading (s : State) (ohms : Nat) : Fin 3 :=
  if s.rd Fld.PNL_CRACK_CFG_RHI * 10 < ohms then 1 else if ohms < s.rd Fld.PNL_CRACK_CFG_RLO * 10 then 2 else 0

/-- A measurement of the loop, made every 10 ms while the device is ready and ENABLE is set: the condition holds while two
in succession read OPEN, or two read SHORT, and permanently with limits out of order. -/
def State.crackMeasure (s : State) (ohms : Nat) : State :=
  if !s.core.running || !s.core.ready || !s.flag Fld.PNL_CRACK_CFG_ENABLE || s.underTest 31 then s
  else
    let s := s.until (s.panel.crackAt.elim 0 (· + 10))
    let r := s.crackReading ohms
    let holds := s.crackWrong || (r ≠ 0 && r = s.panel.crack)
    let s := { s with panel := { s.panel with crack := r, crackAt := some s.now } }
    let s := (s.wr Fld.PNL_CRACK_STAT_LAST r.val).wr Fld.PNL_CRACK_STAT_OHMS (min ohms 0xFFFF)
    if holds then s.tamperDetection [31] s.tmp.enc 0 0 else s.condEnd 31

def execCrackMeasure (ohms : Nat) (s : State) : Host.Outcome State Fault Refusal := .next (s.crackMeasure ohms)

end Sys2Proof.Machine
end

