-- ==== Sys2Proof/Machine/Domains.lean ====
section
/-!
DEFINITION. The switched power domains (R405 to R408): PWR_CMD, the shutdown and power-on sequences, and what each domain
drains, isolates and restarts.
-/

namespace Sys2Proof.Machine

def evDomain : Nat := 0xD2

/-! ### What a domain holds (R405) -/

/-- The lanes of a domain DAQ0 to DAQ3 or DAV (R66). -/
def lanesOfDomain (d : Nat) : List Nat :=
  if d < 4 then (List.range 16).map (16 * d + ·) else if d = 4 then (List.range 12).map (64 + ·) else []

/-- The epoch up to which the samples of a bay's lanes let a cycle be computed: the interpolator reaches 16 samples past it
(R102), the decimators half their span (R56). -/
def State.drainEpoch (s : State) (b : Nat) : Real :=
  let heads := (s.channelLanes b).filterMap fun n => ((s.lane n).samples.head?).map (·.centre)
  ((heads.foldl min (s.epoch : Int)) - 576 : Int)

/-- A bay ends its cycle in progress as a SHORT_CYCLE quantum (R405). -/
def State.bayDrain (s : State) (b : Nat) : State := (s.cutCycle b (s.drainEpoch b) trkFree).cycleEnd b

/-- The metering of a bay stops at the isolate step of its engine's domain (R104, R121, R137). -/
def State.bayOff (s : State) (b : Nat) : State :=
  if s.track b = trkOff then s
  else ((s.closeEvents b false).dropWindow b).setTrack b trkOff

/-- The bays metered by engines of a domain: by their quad's engines, or in DMP by a standby engine. -/
def State.baysOfDomain (s : State) (d : Nat) : List Nat :=
  (List.range 16).filter fun b => if d = 10 then 8 ≤ s.rd (engField b) && s.rd (engField b) < 12
    else d = 6 + b / 4 && s.rd (engField b) = 0

/-- Work in flight finishes, results are committed, and the domain isolates (R405, R407). -/
def State.domainDrain (s : State) (d : Fin 17) : State :=
  let n := d.val
  if n < 5 then ((lanesOfDomain n).foldl (fun s l => (s.laneStop l).calDiscard l) s).refreshAcq
  else if n = 5 then s.axStop
  else if n < 10 then
    let bs := s.baysOfDomain n
    bs.foldl State.bayOff (bs.foldl State.bayDrain s)
  else if n = 10 then
    let bs := s.baysOfDomain n
    let s := (List.finRange 4).foldl State.streamStop s
    bs.foldl State.unhostBay (bs.foldl State.bayDrain s)
  else if n = 11 then ((s.accComplete 0).accComplete 1).accIsolate
  else if n = 14 then (s.portFlush 0).setLink 0 false 0
  else if n = 15 then (s.portFlush 1).setLink 1 false 0
  else if n = 16 then s.panelDrain.panelOff
  else s

/-- What a domain starts when its power is on (R66, R104, R159, R164, R405, R424): nothing of acquisition before it runs. -/
def State.domainStart (s : State) (d : Fin 17) : State :=
  let n := d.val
  if n < 5 then
    if s.flag Fld.AQ_STATUS_RUN then
      ((lanesOfDomain n).foldl (fun s l =>
        if s.lanePresent l && s.flag (Fld.AQ_LANE_CFG_ENABLE l) then (if s.acq.sampleAt.isNone then s.laneBegin l else s.laneStart l)
        else s) s).refreshAcq
    else s
  else if n = 5 then s.axStart
  else if n = 10 then (if s.flag Fld.AQ_STATUS_RUN then ((List.range 4).foldl State.streamStart s).bindWaiting else s)
  else if n = 16 then s.panelStart
  else s

/-! ### Sequences (R407, R408) -/

/-- Set or clear a domain's bit of PWR_ON, PWR_BUSY or PWR_PEND. -/
def State.domainBit (s : State) (f : Field) (d : Fin 17) (b : Bool) : State :=
  s.wr f (if b then s.rd f ||| 2 ^ d.val else s.rd f &&& (0x1FFFF ^^^ 2 ^ d.val))

/-- A shutdown starts. -/
def State.domainDown (s : State) (d : Fin 17) : State :=
  ({ s with pwr := { s.pwr with down := d :: s.pwr.down } }).domainBit Fld.PWR_BUSY_DOMAINS d true

/-- A power-on starts. -/
def State.domainUp (s : State) (d : Fin 17) : State :=
  ({ s with pwr := { s.pwr with up := d :: s.pwr.up } }).domainBit Fld.PWR_BUSY_DOMAINS d true

/-- The event DOMAIN: a domain has changed (R403, R409). -/
def State.domainEvent (s : State) (d : Fin 17) (on : Bool) : State :=
  s.raise evDomain d.val (beBytes 1 (if on then 1 else 0) ++ beBytes 1 (if s.pwr.byImage.contains d then 0 else 1))

/-- The drain, commit and isolate steps of a shutdown. -/
def State.drainDone (s : State) (d : Fin 17) : State :=
  if !s.pwr.down.contains d || s.pwr.isolated.contains d then s
  else
    let s := s.domainDrain d
    { s with pwr := { s.pwr with isolated := d :: s.pwr.isolated } }

def execDomainDrainDone (d : Fin 17) (s : State) : Host.Outcome State Fault Refusal := .next (s.drainDone d)

/-- Power off; a held ON starts its power-on, unless the chip is frozen (R408). -/
def State.offDone (s : State) (d : Fin 17) : State :=
  if !s.pwr.isolated.contains d then s
  else
    let held := s.rd Fld.PWR_PEND_DOMAINS / 2 ^ d.val % 2 = 1
    let s := { s with pwr := { s.pwr with
      down := s.pwr.down.filter fun x => x ≠ d, isolated := s.pwr.isolated.filter fun x => x ≠ d } }
    let s := (s.domainBit Fld.PWR_ON_ON d false).domainBit Fld.PWR_BUSY_DOMAINS d false
    let s := s.domainEvent d false
    if held && s.chip ≠ chipFrozen then (s.domainBit Fld.PWR_PEND_DOMAINS d false).domainUp d else s

def execDomainOffDone (d : Fin 17) (s : State) : Host.Outcome State Fault Refusal := .next (s.offDone d)

/-- The domain is on and restarts; a held OFF then starts its shutdown, unless the chip is frozen. -/
def State.onDone (s : State) (d : Fin 17) : State :=
  if !s.pwr.up.contains d then s
  else
    let held := s.pwr.offAfter.contains d
    let s := { s with pwr := { s.pwr with up := s.pwr.up.filter fun x => x ≠ d } }
    let s := (s.domainBit Fld.PWR_ON_ON d true).domainBit Fld.PWR_BUSY_DOMAINS d false
    let s := (s.domainStart d).domainEvent d true
    if held && s.chip ≠ chipFrozen then
      ((({ s with pwr := { s.pwr with offAfter := s.pwr.offAfter.filter fun x => x ≠ d } }).domainBit
        Fld.PWR_PEND_DOMAINS d false)).domainDown d
    else s

def execDomainOnDone (d : Fin 17) (s : State) : Host.Outcome State Fault Refusal := .next (s.onDone d)

/-! ### Commands (R406, R408) -/

/-- What a command comes to: nothing to do, a sequence, or a command that is held. -/
inductive DomainPlan where
  | idle
  | start
  | hold
  | unhold
deriving DecidableEq, Repr

/-- What ON or OFF comes to in the present state of a domain (R408). -/
def State.domainPlan (s : State) (d : Fin 17) (on : Bool) : DomainPlan :=
  let isOn := s.rd Fld.PWR_ON_ON / 2 ^ d.val % 2 = 1
  let held := s.rd Fld.PWR_PEND_DOMAINS / 2 ^ d.val % 2 = 1
  if s.pwr.down.contains d then
    if on then (if held then .idle else .hold) else (if held then .unhold else .idle)
  else if s.pwr.up.contains d then
    if on then (if held then .unhold else .idle) else (if held then .idle else .hold)
  else if isOn = on then .idle else .start

/-- Carry a plan out. -/
def State.domainDo (s : State) (d : Fin 17) (on image : Bool) (p : DomainPlan) : State :=
  let rest := s.pwr.byImage.filter fun x => x ≠ d
  let s := if p = .idle then s else { s with pwr := { s.pwr with byImage := if image then d :: rest else rest } }
  match p with
  | .idle => s
  | .start => if on then s.domainUp d else s.domainDown d
  | .hold =>
    let s := s.domainBit Fld.PWR_PEND_DOMAINS d true
    if on then s else { s with pwr := { s.pwr with offAfter := d :: s.pwr.offAfter } }
  | .unhold =>
    ({ s with pwr := { s.pwr with offAfter := s.pwr.offAfter.filter fun x => x ≠ d } }).domainBit Fld.PWR_PEND_DOMAINS d false

/-- A change of PWR_DEFAULT at a live load acts as a command without an entry (R403). -/
def State.domainImage (s : State) (d : Fin 17) (on : Bool) : State :=
  if s.core.warned || s.chip = chipFrozen then s else s.domainDo d on true (s.domainPlan d on)

/-- Whether commands may name a domain: not DLG or DGN, not above DPN, not fused off. -/
def State.domainOk (s : State) (d : Nat) : Bool :=
  d ≤ 16 && d ≠ 12 && d ≠ 13 && !(s.fuses.kb9608 && (d = 2 || d = 3 || d = 8 || d = 9))

/-- PWR_CMD.RESULT. -/
def State.pwrResult (s : State) (v : Nat) : WStatus × State := (.ok, s.wr Fld.PWR_CMD_RESULT v)

/-- A command that passes the tests of access: refused for its domain or after a warning; else its entry POWER_CMD commits
before its sequence starts. A command that repeats the one held reads HELD and makes no second entry. -/
def State.domainCommand (s : State) (x : Session) (n : Nat) (on : Bool) : WStatus × State :=
  if !s.domainOk n then s.pwrResult 3
  else if s.core.warned then s.pwrResult 5
  else
    let d : Fin 17 := Fin.ofNat 17 n
    match s.domainPlan d on with
    | .idle => s.pwrResult (if s.rd Fld.PWR_PEND_DOMAINS / 2 ^ n % 2 = 1 then 2 else 1)
    | p =>
      match s.command 0x06 fun b => b.audit 0x31 x.role (keysOne x.key) (beBytes 1 n ++ beBytes 1 (if on then 1 else 0)) with
      | (false, s) => s.pwrResult 6
      | (true, s) => (s.domainDo d on false p).pwrResult (if p = .hold then 2 else 1)

/-- A write of PWR_CMD: inside a SERVICE session; a command is refused while the lock is engaged. -/
def State.wPwrCmd (s : State) (p : Path) (v : Word) : WStatus × State :=
  let cmd := bitsOf v.toNat 28 4
  match s.gate p roleService (cmd = 1 || cmd = 2) with
  | .pass x =>
    let n := bitsOf v.toNat 0 5
    let s := s.wr Fld.PWR_CMD_DOMAIN n
    match cmd with
    | 1 => s.domainCommand x n true
    | 2 => s.domainCommand x n false
    | _ => (.ok, s)
  | .locked => (.refused, s.wr Fld.PWR_CMD_RESULT 4)
  | _ => (.refused, s)

/-- The word of PWR_CMD for a command. -/
def pwrWord (cmd : Nat) (d : BitVec 5) : Word := BitVec.ofNat 32 (cmd * 2 ^ 28 + d.toNat)

def execPowerOn (p : Path) (dom : BitVec 5) (s : State) : Host.Outcome State Fault Refusal :=
  .next (s.host fun s => s.wPwrCmd p (pwrWord 1 dom))

def execPowerOff (p : Path) (dom : BitVec 5) (s : State) : Host.Outcome State Fault Refusal :=
  .next (s.host fun s => s.wPwrCmd p (pwrWord 2 dom))

end Sys2Proof.Machine
end

