-- ==== Sys2Proof/Machine/ImageFile.lean ====
section
/-!
DEFINITION. The configuration image as its bytes in flash (R392 to R395): reading the flash, the header, the section table,
sections, patches.
-/

namespace Sys2Proof.Machine

/-! ### The flash (R388) -/

/-- An erased byte. -/
def erasedAt (_ : Nat) : Byte := 0xFF

/-- The byte of the flash at an address. -/
def State.flashByte (s : State) (a : Nat) : Byte := storeGet erasedAt s.flash.cells a

/-- Bytes of the flash from an address. -/
def State.flashRead (s : State) (a n : Nat) : List Byte := (List.range n).map fun i => s.flashByte (a + i)

/-- Bytes of a slot: 8 MiB. -/
def cfgSlotBytes : Nat := 0x800000

/-! ### Header and section table (R392) -/

/-- A number held by `n` bytes of an image at an offset. -/
def imgNat (bs : List Byte) (off n : Nat) : Nat := beNat (sub bs off n)

/-- The fields of a header that stand alone: MAGIC, FORMAT, LENGTH, NSECT and HDR_CRC. -/
def headerOk (h : List Byte) : Bool :=
  let len := imgNat h 12 4
  let n := imgNat h 25 1
  imgNat h 0 4 = 0x4B424346 && imgNat h 4 2 = 1 && imgNat h 28 4 = (crc32 (h.take 28)).toNat &&
  len % 4 = 0 && 4096 ≤ len && len ≤ cfgSlotBytes && 3 ≤ n && n ≤ 20

/-- The part code of the device. -/
def State.partCode (s : State) : Nat := if s.fuses.kb9608 then 0x9608 else 0x9616

/-- GEN in a slot's header, 0 where it fails HEADER or PART (CFG_SLOTn). -/
def State.slotGen (s : State) (slot : Nat) : Nat :=
  let h := s.flashRead (slot * cfgSlotBytes) 64
  if headerOk h && imgNat h 6 2 = s.partCode then imgNat h 8 4 else 0

/-- A row of the section table. -/
structure Section where
  type : Nat
  off : Nat
  len : Nat
  crc : Nat
deriving DecidableEq, Repr

/-- The section table of an image. -/
def imgSections (bs : List Byte) : List Section :=
  (List.range (imgNat bs 25 1)).map fun i =>
    let o := 64 + 16 * i
    { type := imgNat bs o 2, off := imgNat bs (o + 4) 4, len := imgNat bs (o + 8) 4, crc := imgNat bs (o + 12) 4 }

/-- The geometry of the section table: sections lie after it and before SIG, at multiples of 4, and do not overlap. -/
def geometryOk (len : Nat) (ss : List Section) : Bool :=
  ss.all (fun x => x.off % 4 = 0 && 64 + 16 * ss.length ≤ x.off && x.off + x.len ≤ len - 64) &&
  (ss.zipIdx).all fun (x, i) => (ss.zipIdx).all fun (y, j) => i = j || x.off + x.len ≤ y.off || y.off + y.len ≤ x.off

/-- The bytes of a section. -/
def sectionBytes (bs : List Byte) (x : Section) : List Byte := sub bs x.off x.len

/-! ### Sections (R393) -/

def secRegsType : Nat := 1
def secAuth : Nat := 2
def secActive : Nat := 3
def secPassive : Nat := 4
def secPatch : Nat := 0x10

/-- The number of sections of a type. -/
def countType (ss : List Section) (t : Nat) : Nat := (ss.filter fun x => x.type = t).length

/-- CRCs, types, counts, and the lengths R393 states. -/
def sectionsOk (bs : List Byte) (ss : List Section) : Bool :=
  ss.all (fun x => x.crc = (crc32 (sectionBytes bs x)).toNat && x.type ∈ [1, 2, 3, 4, 0x10]) &&
  countType ss secRegsType = 1 && countType ss secAuth = 1 && countType ss secActive = 1 && countType ss secPassive ≤ 1 &&
  countType ss secPatch ≤ 16 &&
  ss.all fun x => (x.type ≠ secAuth || x.len = 576) && ((x.type ≠ secActive && x.type ≠ secPassive) || x.len = 1412)

/-- The bytes of the first section of a type. -/
def firstOf (bs : List Byte) (ss : List Section) (t : Nat) : Option (List Byte) :=
  (ss.find? fun x => x.type = t).map (sectionBytes bs)

/-- The index of the first section of a type. -/
def indexOf (ss : List Section) (t : Nat) : Nat := ss.findIdx fun x => x.type = t

/-- The records of a REGS section (R394). -/
def regRecords : List Byte → List (Nat × Word)
  | a :: b :: c :: d :: e :: f :: g :: h :: r =>
    (beNat [a, b, c, d], BitVec.ofNat 32 (beNat [e, f, g, h])) :: regRecords r
  | _ => []

/-! ### The authority table (R267) -/

/-- Entry `k` of an authority table: ROLES, FLAGS and PUBKEY. -/
def authRoles (t : List Byte) (k : Nat) : Nat := imgNat t (72 * k) 1
def authFlags (t : List Byte) (k : Nat) : Nat := imgNat t (72 * k + 1) 1
def authKey (t : List Byte) (k : Nat) : BitVec 512 := BitVec.ofNat 512 (imgNat t (72 * k + 8) 64)

/-! ### Patches (R395) -/

/-- Fields of a patch: ENGINE, revision (letter and digit), CODE_LEN. -/
def patchEngine (p : List Byte) : Nat := imgNat p 0 2
def patchRev (p : List Byte) : Nat × Nat := (imgNat p 2 1, imgNat p 3 1)
def patchCode (p : List Byte) : Nat := imgNat p 8 4

/-- Whether a patch has the form of R395 and its WSIG verifies. -/
def patchOk (p : List Byte) : Bool :=
  let n := 16 + patchCode p
  1 ≤ patchEngine p && patchEngine p ≤ 4 && patchCode p % 4 = 0 && imgNat p 12 4 = 0 && p.length = n + 64 &&
  Config.ecdsaVerify Config.patchKey (Config.sha256 (p.take n)) (BitVec.ofNat 512 (imgNat p n 64))

/-- Whether the patch sections of an image pass: none for the same engine and revision as another. -/
def patchesOk (ps : List (List Byte)) : Bool :=
  ps.all patchOk && decide ((ps.map fun p => (patchEngine p, patchRev p)).Nodup)

/-- Whether a patch applies to this silicon; the others are skipped. -/
def State.patchFits (s : State) (p : List Byte) : Bool := patchRev p = (s.fuses.revision.toNat / 16, s.fuses.revision.toNat % 16)

end Sys2Proof.Machine
end

