-- ==== Sys2Proof/Machine/Limits.lean ====
section
/-!
DEFINITION. The loader's limits (R404): for each chapter's limits the addresses of the registers that break them, under the
configuration of a candidate. The first offending register is the lowest of these.
-/

namespace Sys2Proof.Machine

/-- An address, if its register offends. -/
def lim (a : Nat) (bad : Bool) : List Nat := if bad then [a] else []

/-- Limits over the instances of a register. -/
def limAll (n : Nat) (f : Nat → List Nat) : List Nat := (List.range n).flatMap f

/-! ### The candidate's configuration (R394) -/

/-- Whether an address is that of an Image register. -/
def isImage (a : Nat) : Bool := (findReg a).any fun r => r.1.cls = .image

/-- The bits an image sets in the word at an address. -/
def imgMask (a : Nat) : Word := (findReg a).elim 0 fun r => BitVec.ofNat 32 (r.1.img / 2 ^ (32 * r.2))

/-- The register space with a candidate's configuration in force: Image registers that REGS does not name take their reset
values. -/
def State.withImage (s : State) (recs : List (Nat × Word)) : State :=
  let keep := s.regs.filter fun x => !isImage x.1
  { s with regs := recs.foldl (fun m r => storeSet resetWord m r.1 r.2) keep }

/-- R394: ascending order, Image registers implemented on the part, reserved bits 0. -/
def State.limRegs (s : State) (recs : List (Nat × Word)) : List Nat :=
  ((recs.zip ((0xFFFFFFFF, 0) :: recs)).zipIdx.flatMap fun ((r, before), i) =>
    lim r.1 ((i ≠ 0 && r.1 ≤ before.1) || !isImage r.1 || s.absent r.1 || r.2 &&& ~~~ imgMask r.1 ≠ 0))

/-! ### Lanes and bays (R68, R100, R118, R142); `c` has the candidate's configuration -/

/-- A binary32 word that is not a normal number. -/
def notNormal (v : Nat) : Bool := bitsOf v 23 8 = 0 || bitsOf v 23 8 = 255

/-- A binary32 word that is negative or not finite. -/
def negOrNot (v : Nat) : Bool := (b32Value (BitVec.ofNat 32 v)).all fun q => decide (q < 0)

/-- Whether the magnitude of a binary32 word lies outside a range. -/
def magOut (v : Nat) (lo hi : Real) : Bool :=
  (b32Value (BitVec.ofNat 32 v)).all fun q => decide (abs q < lo) || decide (hi < abs q)

/-- The lanes of a bay's voltage set. -/
def State.setLanes (c : State) (b : Nat) : List Nat := (List.range 3).map fun i => 64 + 3 * c.rd (Fld.AQ_VSET_MAP_VSET b) + i

/-- R68. -/
def State.limLanes (c : State) : List Nat :=
  let filt (n : Nat) : Nat := c.rd (Fld.AQ_LANE_CFG_FILTER n)
  (limAll 16 fun b =>
    if !c.bayOn b then []
    else ((List.range 4).map (4 * b + ·) ++ c.setLanes b).flatMap (fun n => lim (Adr.AQ_LANE_CFG n) (filt n ≠ filt (4 * b))) ++
      (c.setLanes b).flatMap fun n => lim (Adr.AQ_LANE_CFG n) (!c.flag (Fld.AQ_LANE_CFG_ENABLE n))) ++
  limAll 76 fun n => lim (Adr.AQ_LANE_CFG n) (1 < filt n || 1 < c.rd (Fld.AQ_LANE_CFG_MERGE_BAND n))

/-- R100. -/
def State.limBays (c : State) : List Nat :=
  let kis (b : Nat) : List (Nat × Nat) := [(Adr.BAY_KI_A b, c.rd (Fld.BAY_KI_A_K b)), (Adr.BAY_KI_B b, c.rd (Fld.BAY_KI_B_K b)),
    (Adr.BAY_KI_C b, c.rd (Fld.BAY_KI_C_K b)), (Adr.BAY_KI_N b, c.rd (Fld.BAY_KI_N_K b))]
  let ku (j : Nat) : Nat := c.rd (Fld.MT_VL_KU_K j)
  (limAll 16 fun b =>
    (kis b).flatMap (fun k => lim k.1 ((c.bayOn b && notNormal k.2) || magOut k.2 (1 / 10) 1000000)) ++
    (if c.bayOn b then (c.setLanes b).flatMap fun n => lim (Adr.MT_VL_KU (n - 64)) (notNormal (ku (n - 64))) else []) ++
    lim (Adr.BAY_CFG b) (1 < c.rd (Fld.BAY_CFG_WIRING b) || (c.rd (Fld.BAY_CFG_WIRING b) = 1 && !c.flag (Fld.BAY_CFG_S_METHOD b))) ++
    lim (Adr.BAY_THRESH b) (c.rd (Fld.BAY_THRESH_START_I b) < 20 || 2000 < c.rd (Fld.BAY_THRESH_START_I b))) ++
  limAll 12 fun j => lim (Adr.MT_VL_KU j) (magOut (ku j) 1 10000000)

/-- R118. -/
def State.limPulses (c : State) : List Nat :=
  limAll 16 fun k =>
    if !c.flag (Fld.MT_PO_CFG_ENABLE k) then []
    else lim (Adr.MT_PO_CFG k) (!c.bayOn (c.rd (Fld.MT_PO_CFG_BAY k)) || c.rd (Fld.MT_PO_CFG_WIDTH k) = 0) ++
      lim (Adr.MT_PO_QUANT k) (c.rd (Fld.MT_PO_QUANT_QUANT k) = 0)

/-- R142. -/
def State.limQuality (c : State) : List Nat :=
  limAll 16 fun b =>
    let sag := c.rd (Fld.BAY_QTHR_SAG b)
    let hyst := c.rd (Fld.BAY_QTHR_HYST b)
    lim (Adr.BAY_UDIN b) (negOrNot (c.rd (Fld.BAY_UDIN_VALUE b))) ++ lim (Adr.BAY_IL b) (negOrNot (c.rd (Fld.BAY_IL_VALUE b))) ++
    lim (Adr.BAY_LIM_THDU b) (negOrNot (c.rd (Fld.BAY_LIM_THDU_LIMIT b))) ++
    lim (Adr.BAY_LIM_THDI b) (negOrNot (c.rd (Fld.BAY_LIM_THDI_LIMIT b))) ++
    lim (Adr.BAY_LIM_U2 b) (negOrNot (c.rd (Fld.BAY_LIM_U2_LIMIT b))) ++
    lim (Adr.BAY_LIM_FDEV b) (negOrNot (c.rd (Fld.BAY_LIM_FDEV_LIMIT b))) ++
    lim (Adr.BAY_QTHR b) (200 < sag + hyst || c.rd (Fld.BAY_QTHR_SWELL b) < 200 + hyst ||
      sag ≤ c.rd (Fld.BAY_QTHR_INT b) || hyst = 0)

/-- CAL_ZSUM codes. -/
def State.limZsum (c : State) : List Nat :=
  lim Adr.CAL_ZSUM ((List.range 16).any fun b => c.rd (Fld.CAL_ZSUM_BAY b) = 3)

/-! ### The auxiliary block and streams (R163, R164, R165, R173, R182) -/

/-- R163. -/
def State.limAux (c : State) : List Nat :=
  let diff (n : Nat) : Bool := c.flag (Fld.AX_CH_CFG_MODE n)
  let mask := c.rd Fld.AX_SCAN_MASK_MASK
  let quad (k : Nat) : Bool := c.flag (Fld.AX_PI_CFG_MODE k)
  lim Adr.AX_SCAN_MASK ((List.range 16).any fun i => diff (2 * i) && mask / 2 ^ (2 * i + 1) % 2 = 1) ++
  lim Adr.AX_SCAN_CFG (1 < c.rd Fld.AX_SCAN_CFG_TRIG ||
    (c.rd Fld.AX_SCAN_CFG_TRIG = 1 && (c.rd Fld.AX_SCAN_CFG_PERIOD = 0 || 1000 < c.rd Fld.AX_SCAN_CFG_PERIOD))) ++
  (limAll 34 fun n => lim (Adr.AX_CH_CFG n)
    (c.rd (Fld.AX_CH_CFG_GAIN n) = 7 || c.rd (Fld.AX_CH_CFG_OSR n) = 7 || (n = 33 && 1 < c.rd (Fld.AX_CH_CFG_GAIN n)) ||
      (diff n && (n % 2 = 1 || 32 ≤ n)))) ++
  limAll 8 fun k => lim (Adr.AX_PI_CFG k)
    ((quad k && k % 2 = 1) || (k % 2 = 1 && quad (k - 1) && c.flag (Fld.AX_PI_CFG_ENABLE k)) ||
      c.rd (Fld.AX_PI_CFG_EDGE k) = 3 || 4 < c.rd (Fld.AX_PI_CFG_FILTER k))

/-- Whether a binary32 word of the image lies outside a range. -/
def State.outside (c : State) (f : Field) (lo hi : Real) : Bool :=
  (b32Value (BitVec.ofNat 32 (c.rd f))).all fun q => decide (q < lo) || decide (hi < q)

/-- Whether it is not above 0. -/
def State.notAbove0 (c : State) (f : Field) : Bool := (b32Value (BitVec.ofNat 32 (c.rd f))).all fun q => decide (q ≤ 0)

/-- Whether it is not finite. -/
def State.notFinite (c : State) (a : Nat) : Bool := (b32Value (c.word a)).isNone

/-- The geometry limits of R173 at 20 °C, lengths in mm. -/
def geometryBad (prim : Nat) (d dd : Real) : Bool :=
  let beta := rdiv d dd
  let out (lo hi x : Real) : Bool := decide (x < lo) || decide (hi < x)
  if prim ≤ 3 then decide (d < 25 / 2) || out 50 1000 dd || out (1 / 10) (3 / 4) beta
  else if prim = 4 then out 50 500 dd || out (3 / 10) (4 / 5) beta
  else out 50 630 dd || out (1 / 5) (4 / 5) beta

/-- The inputs a stream needs (R165): 0 DP, 1 P, 2 T, 3 T2, 4 FLOW. -/
def State.psNeeds (c : State) (n : Nat) : List Nat :=
  let kind := c.rd (Fld.MT_PS_CFG_KIND n)
  let href := c.flag (Fld.MT_PS_CFG_HREF_SRC n)
  (if c.rd (Fld.MT_PS_CFG_PRIMARY n) = 0 then [4] else [0]) ++
  (if kind = kindSat then (if c.flag (Fld.MT_PS_CFG_SAT_BY n) then [2] else [1]) else [1, 2]) ++
  (if kind = kindHeat || ((kind = kindSuper || kind = kindSat) && href) then [3] else [])

/-- The limits on input `i` of a stream. -/
def State.limInput (c : State) (n i : Nat) : List Nat :=
  let src := c.rd (Fld.MT_PS_IN_CFG_SRC n i)
  let fm := c.rd (Fld.MT_PS_IN_CFG_FAIL_MODE n i)
  let chan := c.rd (Fld.MT_PS_IN_CFG_CHAN n i)
  let unmasked (ch : Nat) : Bool := 32 ≤ ch || c.rd Fld.AX_SCAN_MASK_MASK / 2 ^ ch % 2 = 0
  let flow := if c.rd (Fld.MT_PS_CFG_PRIMARY n) = 0 then i = 4 && src ≠ 3 else i = 0 && src ≠ 1
  lim (Adr.MT_PS_IN_CFG n i) (4 < src || fm = 3 || (fm = 2 && i ≠ 4) || (src = 0 && (c.psNeeds n).contains i) || flow ||
    ((src = 1 || src = 2) && unmasked chan) || (src = 2 && unmasked (c.rd (Fld.MT_PS_IN_CFG_CHAN2 n i))) ||
    (src = 3 && (8 ≤ chan || !c.flag (Fld.AX_PI_CFG_ENABLE chan)))) ++
  lim (Adr.MT_PS_IN_A n i) (i = 4 && src = 3 && c.notAbove0 (Fld.MT_PS_IN_A_VALUE n i)) ++
  [Adr.MT_PS_IN_A n i, Adr.MT_PS_IN_B n i, Adr.MT_PS_IN_LO n i, Adr.MT_PS_IN_HI n i, Adr.MT_PS_IN_SUB n i].flatMap
    fun a => lim a (c.notFinite a)

/-- Whether the nodes of a compressibility axis do not ascend. -/
def notAscending (xs : List Real) : Bool := (xs.zip (xs.drop 1)).any fun (a, b) => decide (b ≤ a)

/-- R164 and R182 for an enabled stream. -/
def State.limStream (c : State) (n : Nat) : List Nat :=
  let prim := c.rd (Fld.MT_PS_CFG_PRIMARY n)
  let zp := (List.range 8).map fun j => c.psReal (Fld.MT_PS_ZP_VALUE n j)
  let zt := (List.range 8).map fun j => c.psReal (Fld.MT_PS_ZT_VALUE n j)
  let air := c.rd (Fld.MT_PS_CFG_KIND n) = kindAir
  lim (Adr.MT_PS_CFG n) (!c.streamPresent n || c.rd Fld.SYS_ESC_CTRL_STANDBY_PE / 2 ^ n % 2 = 1 ||
    4 < c.rd (Fld.MT_PS_CFG_KIND n) || 5 < prim) ++
  limAll 5 (c.limInput n) ++
  lim (Adr.MT_PS_BORE_D20 n) (prim ≠ 0 &&
    geometryBad prim (c.psReal (Fld.MT_PS_BORE_D20_VALUE n)) (c.psReal (Fld.MT_PS_PIPE_D20_VALUE n))) ++
  lim (Adr.MT_PS_KAPPA n) (c.outside (Fld.MT_PS_KAPPA_VALUE n) 1 2) ++
  lim (Adr.MT_PS_VISC n) (c.notAbove0 (Fld.MT_PS_VISC_VALUE n)) ++
  lim (Adr.MT_PS_DRYNESS n) (c.outside (Fld.MT_PS_DRYNESS_VALUE n) (4 / 5) 1) ++
  lim (Adr.MT_PS_DP_CUT n) (negOrNot (c.rd (Fld.MT_PS_DP_CUT_VALUE n))) ++
  lim (Adr.MT_PS_ZP n 0) (air && notAscending zp) ++ lim (Adr.MT_PS_ZT n 0) (air && notAscending zt) ++
  (limAll 64 fun j => lim (Adr.MT_PS_Z n j) ((air && c.notAbove0 (Fld.MT_PS_Z_VALUE n j)) || c.notFinite (Adr.MT_PS_Z n j))) ++
  (limAll 15 fun j => lim (Adr.MT_PS_PIPE_D20 n + 4 * j) (c.notFinite (Adr.MT_PS_PIPE_D20 n + 4 * j))) ++
  limAll 16 fun j => lim (Adr.MT_PS_ZP n 0 + 4 * j) (c.notFinite (Adr.MT_PS_ZP n 0 + 4 * j))

/-! ### The other chapters (R219, R265, R290, R308, R320, R350, R352, R381) -/

/-- R219. -/
def State.limLedger (c : State) : List Nat :=
  lim Adr.DEM_CFG (c.rd Fld.DEM_CFG_LENGTH = 7 || (c.flag Fld.DEM_CFG_METHOD && c.rd Fld.DEM_CFG_SUBS < 2)) ++
  lim Adr.LED_LP_CFG (c.rd Fld.LED_LP_CFG_LENGTH = 7) ++
  lim Adr.LED_BP_CFG (1 < c.rd Fld.LED_BP_CFG_MODE ||
    (c.rd Fld.LED_BP_CFG_MODE = 1 && (c.rd Fld.LED_BP_CFG_DAY = 0 || 28 < c.rd Fld.LED_BP_CFG_DAY)))

/-- R265. -/
def State.limRecorder (c : State) : List Nat :=
  limAll 256 fun k =>
    let cap := c.rd (Fld.REC_BUCKET_CAP k)
    lim (Adr.REC_BUCKET k) (cap ≠ 0 && cap ≠ 0xFF && c.rd (Fld.REC_BUCKET_REFILL k) = 0)

/-- R290. -/
def State.limTamper (c : State) : List Nat :=
  let bad (r : Nat) : Bool := 1 < r && r % 2 = 0
  lim Adr.TMP_RESP_A ((List.range 6).any fun g => bad (c.rd (Fld.TMP_RESP_A_LSG g))) ++
  lim Adr.TMP_RESP_B (((List.range 9).any fun i => bad (c.rd (Fld.TMP_RESP_B_SRC i))) || c.rd (Fld.TMP_RESP_B_SRC 8) % 4 ≠ 3)

/-- R308. -/
def State.limNet (c : State) : List Nat :=
  let depth (i : Nat) : Nat := c.rd (Fld.NET_TXQ_CFG_DEPTH (i / 8) (i % 8))
  limAll 16 fun i => lim (Adr.NET_TXQ_CFG (i / 8) (i % 8))
    (128 < ((List.range (i + 1)).map depth).sum ||
      (i % 8 < 5 && depth i = 0 && c.flag (Fld.NET_PORT_CFG_ENABLE (i / 8))))

/-- R320. -/
def State.limPublish (c : State) : List Nat :=
  limAll 4 fun k =>
    if !c.flag (Fld.NET_PUB_ENABLE k) then []
    else
      let off := c.rd (Fld.NET_PUB_OFFSET k)
      let per := c.rd (Fld.NET_PUB_PERIOD k)
      let items := (List.range 8).map fun i => (c.rd (Fld.NET_PUB_ITEM_ADDR k i) * 4, c.rd (Fld.NET_PUB_ITEM_WORDS k i))
      let wrong := match rdgItems items with
        | none => true
        | some is => 1024 < 64 + itemBytes is + sigBytes (c.flag (Fld.NET_PUB_SIG k))
      lim (Adr.NET_PUB k) (off < 40 || 999 < off || per = 0 || 3600 < per || !c.flag (Fld.NET_PORT_CFG_ENABLE (c.rd (Fld.NET_PUB_PORT k)))) ++
      lim (Adr.NET_PUB_ITEM k 0) wrong

/-- R350. -/
def State.limPwron (c : State) : List Nat :=
  let m := c.rd Fld.BK_PWRON_CFG_MODE
  let t := c.rd Fld.BK_PWRON_CFG_TIMEOUT
  lim Adr.BK_PWRON_CFG (1 < m || t = 0 || 60 < t || (m = 1 && c.rd Fld.BK_PWRON_CFG_WIDTH = 0))

/-- R352, R381. The strap of CSC_ROLE is that of the device. -/
def State.limLinks (c : State) : List Nat :=
  let pos := c.rd Fld.CSC_CFG_POSITION
  let master := c.flag Fld.CFG_STRAP_CSC_ROLE
  lim Adr.CSC_CFG (c.flag Fld.CSC_CFG_ENABLE &&
    (if master then pos ≠ 0 || c.rd Fld.CSC_CFG_EXPECT % 2 = 1 else pos = 0)) ++
  lim Adr.TWN_CFG (c.flag Fld.TWN_CFG_ENABLE && (c.rd Fld.TWN_CFG_TOL = 0 || c.rd Fld.TWN_CFG_WIN < 60))

/-- The limits of R404 on power domains. -/
def State.limPower (c : State) : List Nat :=
  let on (d : Nat) : Bool := c.rd Fld.PWR_DEFAULT_ON / 2 ^ d % 2 = 1
  lim Adr.PWR_DEFAULT (!on 12 || !on 13) ++
  lim Adr.SYS_ESC_CTRL (c.rd Fld.SYS_ESC_CTRL_STANDBY_PE ≠ 0 && !on 10) ++
  (limAll 16 fun b => lim (Adr.BAY_CFG b) (c.bayOn b && !on (6 + b / 4))) ++
  (limAll 76 fun n => lim (Adr.AQ_LANE_CFG n) (c.lanePresent n && c.flag (Fld.AQ_LANE_CFG_ENABLE n) && !on (laneDomain n))) ++
  limAll 4 fun n => lim (Adr.MT_PS_CFG n) (c.streamOn n && !on 10)

/-- The rows of R404 for a KB9608. -/
def State.lim9608 (c : State) : List Nat :=
  if !c.fuses.kb9608 then []
  else
    lim Adr.AQ_VSET_MAP (c.rd Fld.AQ_VSET_MAP_ALL / 2 ^ 16 ≠ 0) ++ lim Adr.CAL_ZSUM (c.rd Fld.CAL_ZSUM_ALL / 2 ^ 16 ≠ 0) ++
    lim Adr.SYS_ESC_CTRL (4 ≤ c.rd Fld.SYS_ESC_CTRL_STANDBY_PE) ++
    lim Adr.PWR_DEFAULT (c.rd Fld.PWR_DEFAULT_ON &&& 0x30C ≠ 0)

/-- R268; `sec` is the place of the AUTH section. -/
def State.limAuth (c : State) (t : List Byte) (sec : Nat) : List Nat :=
  let used := (List.range 8).filter fun k => authRoles t k ≠ 0
  let has (r k : Nat) : Bool := authRoles t k / r % 2 = 1
  let sup := used.filter (has 2)
  let rec_ := used.filter (has 4)
  let hmac := (List.range 8).filter fun k => authFlags t k % 2 = 1
  let bad := used.any (fun k => !Config.onCurve (authKey t k)) || !decide (used.map (authKey t)).Nodup || sup.isEmpty || rec_.isEmpty ||
    (sup.length = 1 && rec_ = sup) || 1 < hmac.length || hmac.any fun k => !has 8 k
  lim sec bad ++ lim Adr.SEC_CFG (c.flag Fld.SEC_CFG_HMAC_ALLOWED && hmac.isEmpty)

/-- Every limit on a configuration's registers. -/
def State.limAllRegs (c : State) : List Nat :=
  c.limLanes ++ c.limBays ++ c.limPulses ++ c.limQuality ++ c.limZsum ++ c.limAux ++
  (limAll 4 fun n => if c.flag (Fld.MT_PS_CFG_ENABLE n) then c.limStream n else []) ++
  c.limLedger ++ c.limRecorder ++ c.limTamper ++ c.limNet ++ c.limPublish ++ c.limPwron ++ c.limLinks ++ c.limPower ++ c.lim9608

/-- The lowest of the offending addresses. -/
def lowest : List Nat → Option Nat
  | [] => none
  | a :: as => some (as.foldl min a)

end Sys2Proof.Machine
end

