-- ==== Sys2Proof/Machine/Loader.lean ====
section
/-!
DEFINITION. The configuration loader (R386 to R404, R302): the candidates of a start, the tests of an image and their order,
the loader transaction, applying an image at a start and at a live load, and the flash commands of R391.
-/

namespace Sys2Proof.Machine

/-! ### The candidates of a start (R389, R390, R399) -/

/-- CFG_SLOT0 and CFG_SLOT1 follow the slots' headers. -/
def State.refreshSlots (s : State) : State := (s.wr Fld.CFG_SLOT0_GEN (s.slotGen 0)).wr Fld.CFG_SLOT1_GEN (s.slotGen 1)

/-- The slots whose headers pass HEADER and PART, highest GEN first, slot 0 first on equal GEN. -/
def State.slotOrder (s : State) : List Nat :=
  let ok (n : Nat) : Bool :=
    let h := s.flashRead (n * cfgSlotBytes) 64
    headerOk h && imgNat h 6 2 = s.partCode
  (if s.slotGen 0 < s.slotGen 1 then [1, 0] else [0, 1]).filter ok

/-- The PLLs have locked: recovery begins, and the loader reads the flash parameters and the headers. Without a valid SFDP
of at least 16 MiB both slots end with NO_FLASH. -/
def State.pllLock (s : State) : State :=
  if !s.core.running || s.core.pll then s
  else
    let s := { s with core := { s.core with pll := true } }
    match s.flash.sfdp.filter fun x => 4 ≤ x.1 with
    | none => ((s.loadRefuse 0 false lrNoFlash 0 true).loadRefuse 1 false lrNoFlash 0 true).loadFailed
    | some (size, mode) =>
      let s := s.wr Fld.CFG_FLASH_JEDEC_ID s.flash.jedec.toNat
      let s := (s.wr Fld.CFG_FLASH_SIZE size).wr Fld.CFG_FLASH_MODE mode
      let s := s.refreshSlots
      ({ s with ldr := { s.ldr with rest := s.slotOrder } }).loadNext

def execPllLock (s : State) : Host.Outcome State Fault Refusal := .next s.pllLock

/-- A candidate has been read, with its digest. -/
def State.readComplete (s : State) : State :=
  if s.ldr.cur.isSome && s.loader = ldRead then s.wr Fld.CFG_STATUS_LOADER ldVerify else s

def execCandidateReadComplete (s : State) : Host.Outcome State Fault Refusal := .next s.readComplete

/-! ### The tests (R397, R398) -/

/-- Bytes 0 to 23 of a digest. -/
def digest24 (d : BitVec 256) : BitVec 192 := (d >>> 64).setWidth 192

/-- Whether an authority table may be the one in force (R397). -/
def authAllowed (st : LedState) (h : BitVec 256) : Bool :=
  st.authHash.isNone || st.authHash = some h || st.authTarget.any fun t => t.toNat = (digest24 h).toNat

/-- The tests of SIGNATURE: SIGNER holds SERVICE in the image's table, and SIG verifies. -/
def signatureOk (bs auth : List Byte) : Bool :=
  let k := imgNat bs 24 1
  let n := bs.length - 64
  k < 8 && authRoles auth k / 16 % 2 = 1 &&
  Config.ecdsaVerify (authKey auth k) (Config.sha256 (bs.take n)) (BitVec.ofNat 512 (imgNat bs n 64))

/-- The limits on an image: those of its registers, calendars and authority table; the lowest offending place. -/
def State.imageLimit (s : State) (im : Image) (bs : List Byte) (ss : List Section) : Option Nat :=
  let place (t : Nat) : Nat := 0xFFFF0000 + indexOf ss t
  let c := s.withImage im.regs
  lowest (s.limRegs im.regs ++ lim (place secRegsType) (((firstOf bs ss secRegsType).elim 0 List.length) % 8 ≠ 0) ++
    c.limAllRegs ++ c.limAuth im.auth (place secAuth) ++ lim (place secActive) (!calendarOk im.active) ++
    lim (place secPassive) (im.passive.any fun p => !calendarOk p))

/-- The tests after the sections, in the order of R398: 0 when all pass but the transaction, else RESULT and the address. -/
def State.imageTest (s : State) (l : Load) (im : Image) (bs : List Byte) (ss : List Section) : Nat × Nat :=
  let st := s.led.com.st
  if !authAllowed st (Config.sha256 im.auth) then (lrAuth, 0)
  else if !signatureOk bs im.auth then (lrSignature, 0)
  else if im.gen < st.genFloor || (im.gen = st.imageGen && digest24 im.digest ≠ st.digest) || (l.live && im.gen ≤ st.imageGen) then
    (lrGen, 0)
  else if !patchesOk im.patches then (lrPatch, 0)
  else match s.imageLimit im bs ss with
    | some a => (lrLimit, a)
    | none =>
      if st.imageGen < im.gen && s.locked then (lrLocked, 0)
      else if l.live && !l.reset && im.patches ≠ s.ldr.patches then (lrRestart, 0)
      else (0, 0)

/-- Test a candidate as it lies in its slot: the RESULT that ends it and the offending address, or its image. -/
def State.verify (s : State) (l : Load) : (Nat × Nat) ⊕ Image :=
  let base := l.slot * cfgSlotBytes
  let h := s.flashRead base 64
  if !headerOk h then .inl (lrHeader, 0)
  else
    let len := imgNat h 12 4
    let bs := s.flashRead base len
    let ss := imgSections bs
    if !geometryOk len ss then .inl (lrHeader, 0)
    else if imgNat h 6 2 ≠ s.partCode then .inl (lrPart, 0)
    else if !sectionsOk bs ss then .inl (lrSection, 0)
    else
      let get (t : Nat) : List Byte := (firstOf bs ss t).getD []
      let im : Image := {
        gen := imgNat h 8 4, regs := regRecords (get secRegsType), auth := get secAuth
        active := bytesWords (get secActive), passive := (firstOf bs ss secPassive).map bytesWords
        patches := (ss.filter fun x => x.type = secPatch).map (sectionBytes bs), digest := Config.sha256 bs }
      match s.imageTest l im bs ss with
      | (0, _) => .inr im
      | r => .inl r

/-! ### Acceptance (R399, R400) -/

/-- The kind of an accepted candidate: 0 normal start, 1 update, 2 fallback, 3 first commissioning (R409). -/
def loadKind (st : LedState) (im : Image) : Nat :=
  if st.authHash.isNone then 3 else if st.imageGen < im.gen then 1 else if im.gen < st.imageGen then 2 else 0

/-- The value an image gives an Image register word. -/
def imageWord (im : Image) (a : Nat) : Word := (im.regs.lookup a).getD (resetWord a)

/-- What the loader transaction sets in the ledger state (R396, R400). -/
def loadState (im : Image) (kind : Nat) (st : LedState) : LedState :=
  let hash := Config.sha256 im.auth
  let keys := (List.range 8).map (authKey im.auth)
  let used := st.authHash ≠ some hash && st.authTarget.any fun t => t.toNat = (digest24 hash).toNat
  let cnt := (List.range 8).foldl (fun m k =>
    if st.authKeys.getD k 0 = keys.getD k 0 then m else storeSet (fun _ => 0) m k 0) st.authCnt
  let uid : Nat := (imageWord im Adr.TWN_INIT_UID).toNat + 2 ^ 32 * (imageWord im (Adr.TWN_INIT_UID + 4)).toNat
  { st with
    imageGen := im.gen
    genFloor := if kind = 2 then st.genFloor else st.imageGen
    digest := digest24 im.digest
    authHash := some hash
    authKeys := keys
    authTarget := if used then none else st.authTarget
    authCnt := cnt
    twinUid := if kind = 3 && st.twinUid.isNone then some (BitVec.ofNat 64 uid) else st.twinUid }

/-- The loader transaction: the Audit Trail entry CONFIG_LOAD, and at first commissioning the calendars (R200, R410). -/
def loadBuild (l : Load) (im : Image) (kind : Nat) (b : Build) : Build :=
  let old := b.img.st.authHash
  let bit (x : Bool) (n : Nat) : Nat := if x then 2 ^ n else 0
  let bits := bit (kind = 3) 0 + bit (kind = 2) 1 + bit (old.isSome && old ≠ some (Config.sha256 im.auth)) 2 +
    bit l.reset 3 + bit l.live 4
  let b := b.audit 0x30 l.roles l.keys (beBytes 4 im.gen ++ beBytes 1 l.slot ++ beBytes 1 bits ++ (beBytes 32 im.digest.toNat).take 12)
  let b := b.st (loadState im kind)
  if kind = 3 && b.img.act.isNone then
    let b := b.add (.calendar 0 (some im.active))
    if im.passive.isSome then b.add (.calendar 1 im.passive) else b
  else b

/-- The candidate is accepted: RESULT, the status of the running image and CONFIG_LOADED. A live load waits for its boundary,
LOAD_RESET for its core reset. -/
def State.accepted (s : State) (l : Load) (im : Image) (kind : Nat) : State :=
  let s := { s with ldr := { s.ldr with
    cur := none, rest := [], accepted := if l.reset then none else some im, resetDue := l.reset, atTick := s.core.ticks } }
  let s := (s.wr Fld.CFG_STATUS_LOADER ldApply).loadReport l.slot l.live lrAccepted 0 true
  let s := s.wr Fld.CFG_LOAD_STAT_SKIPPED (im.patches.filter fun p => !s.patchFits p).length
  let s := ((s.wrB Fld.CFG_STATUS_FIRST (kind = 3)).wrB Fld.CFG_STATUS_FALLBACK (kind = 2)).wr Fld.CFG_STATUS_ACTIVE_SLOT l.slot
  s.raise evConfigLoaded l.slot (beBytes 4 im.gen ++ beBytes 1 kind ++ beBytes 1 (if l.live then 1 else 0))

/-- The candidate is refused: a start turns to the next, a live load ends. -/
def State.candidateRefuse (s : State) (l : Load) (result addr : Nat) : State :=
  if l.live then s.liveEnd l result addr true else s.startRefuse l.slot result addr

/-- IMAGE_VERIFY: the tests, once the candidate has been read and Strata recovered, and the loader transaction where the kind
calls for one. -/
def State.imageVerify (s : State) : State :=
  match s.ldr.cur with
  | none => s
  | some l =>
    if s.loader ≠ ldVerify || !s.led.recovered then s
    else match s.verify l with
      | .inl (result, addr) => s.candidateRefuse l result addr
      | .inr im =>
        let kind := loadKind s.led.com.st im
        if kind = 0 then s.accepted l im kind
        else match s.command 0x06 (loadBuild l im kind) with
          | (true, s) => s.accepted l im kind
          | (false, s) => s.candidateRefuse l lrStrata 0

def execImageVerify (s : State) : Host.Outcome State Fault Refusal := .next s.imageVerify

/-! ### Applying an image (R267, R302, R386, R394, R466) -/

/-- The registers of an image are in force, with the authority table and Bedrock's copy of ENC_POL. -/
def State.applyRegs (s : State) (im : Image) : State :=
  let s := s.withImage im.regs
  let s := (List.range 8).foldl (fun s k =>
    (s.wr (Fld.SEC_AUTH_ROLES k) (authRoles im.auth k)).wr (Fld.SEC_AUTH_FLAGS k) (authFlags im.auth k)) s
  { s with
    sec := { s.sec with pubs := (List.range 8).map (authKey im.auth) }
    bk := { s.bk with encPol := BitVec.ofNat 4 (s.rd Fld.TMP_CFG_ENC_POL) } }.encSettle

/-- The light-group fuses an image requests are blown, with the entry LSG_FUSE, while the lock is not engaged (R302). -/
def State.lsgFuse (s : State) : State :=
  let new := BitVec.ofNat 6 (s.rd Fld.TMP_CFG_LSG_FUSE_REQ) &&& ~~~ s.fuses.lsg
  if new = 0 || s.locked then s
  else match s.command 0x06 fun b => b.audit 0x19 0 keysNone (beBytes 1 new.toNat) with
    | (false, s) => s
    | (true, s) =>
      let s := { s with fuses := { s.fuses with lsg := s.fuses.lsg ||| new } }
      ({ s with tmp := { s.tmp with cond := s.tmp.cond.filter fun c => !s.fused c.val } }).refreshActive

/-- The lowest-indexed flagged source whose response includes LOCK, 0xFF without one (R293). -/
def State.flaggedLocker (s : State) : Nat :=
  let st := s.rd Fld.TMP_STICKY_ALL
  let light := s.rd Fld.TMP_LIGHT_SENSOR
  ((List.range 33).find? fun c => st / 2 ^ stickyBit c % 2 = 1 && (24 ≤ c || light / 2 ^ c % 2 = 1) && !s.fused c &&
    s.response c / 4 % 2 = 1).getD 0xFF

/-- A lock that Strata does not show yet is committed once the image has loaded (R293). -/
def State.lockFirst (s : State) : State :=
  if s.flint ≠ flEngaging then s
  else ({ s with tmp := { s.tmp with engageSrc := s.flaggedLocker } }).queueLock

/-- The interval settings that the first tick of a ledger works under (R208). -/
def State.ledgerCfg (s : State) : State :=
  if s.led.com.st.cfg.isSome then s
  else { s with led := { s.led with demCfg := s.word Adr.DEM_CFG, lpCfg := s.word Adr.LED_LP_CFG, bpCfg := s.word Adr.LED_BP_CFG } }

/-- IMAGE_APPLY at a start: the image's registers and responses are in force, STATE leaves START, and the tamper test run
begins. -/
def State.imageApply (s : State) : State :=
  match s.ldr.accepted with
  | none => s
  | some im =>
    if s.core.loaded || s.chip ≠ chipStart then s
    else
      let s := s.applyRegs im
      let s := { s with
        core := { s.core with loaded := true }
        tmp := { s.tmp with responsesOn := true }
        ldr := { s.ldr with accepted := none, patches := im.patches } }
      let s := (s.wr Fld.CFG_STATUS_LOADER ldIdle).setChip chipProvisional
      let s := (s.ledgerCfg.lsgFuse).refreshTamperAlert
      (s.lockFirst.ptpStart).testStart false

def execImageApply (s : State) : Host.Outcome State Fault Refusal := .next s.imageApply

/-! ### Live loads (R63, R78, R86, R104, R117, R160, R181, R331, R403) -/

/-- Whether a word differs between two states of the registers. -/
def State.changed (s old : State) (a : Nat) : Bool := s.word a ≠ old.word a

/-- Lanes at the boundary (R63). -/
def State.reloadLane (s old : State) (n : Nat) : State :=
  let f := Fld.AQ_LANE_CFG_ENABLE n
  let differs (g : Field) : Bool := s.rd g ≠ old.rd g
  let s := if differs (Fld.AQ_LANE_CFG_FINE_GAIN n) then s.calFineGain n else s
  if !s.flag Fld.AQ_STATUS_RUN then s
  else if old.flag f && !s.flag f then s.laneStop n
  else if !s.flag f || !s.domOn (laneDomain n) then s
  else if !old.flag f then s.laneStart n
  else if differs (Fld.AQ_LANE_CFG_FILTER n) || differs (Fld.AQ_LANE_CFG_MERGE_BAND n) || differs (Fld.AQ_LANE_CFG_FINE_GAIN n) then
    s.laneCount n
  else s

/-- Bays at the boundary: a disabled bay is OFF; a LOCKED bay whose voltage set changes ends its cycle there (R104). -/
def State.reloadBay (s old : State) (b : Nat) : State :=
  if old.bayOn b && !s.bayOn b then (s.bayDrain b).bayOff b
  else if s.track b = trkLocked && s.rd (Fld.AQ_VSET_MAP_VSET b) ≠ old.rd (Fld.AQ_VSET_MAP_VSET b) then
    (s.setBay b { s.bay b with oldSet := some (old.vset b) }).cutCycle b s.core.tickEpoch trkFree
  else s

/-- Pulse outputs at the boundary (R117). -/
def State.reloadPulse (s old : State) (k : Nat) : State :=
  if s.changed old (Adr.MT_PO_CFG k) || s.changed old (Adr.MT_PO_QUANT k) then s.pulseClear k else s

/-- The auxiliary block at the boundary (R160). -/
def State.reloadAux (s old : State) : State :=
  let s := (List.range 34).foldl (fun s n => if s.changed old (Adr.AX_CH_CFG n) then s.axRestart n else s) s
  let s := (List.range 8).foldl (fun s k =>
    if s.changed old (Adr.AX_PI_CFG k) then
      s.inputRestart k (s.rd (Fld.AX_PI_CFG_MODE k) ≠ old.rd (Fld.AX_PI_CFG_MODE k))
    else s) s
  s.refreshExc

/-- Streams at the boundary (R181): the tick that ends there is computed under the old settings. -/
def State.reloadStream (s old : State) (n : Fin 4) : State :=
  let m := n.val
  let mode (k : Nat) : Bool := s.rd (Fld.AX_PI_CFG_MODE k) ≠ old.rd (Fld.AX_PI_CFG_MODE k)
  let drop := (List.range 5).filter fun i => (List.range 6).any fun j => s.changed old (Adr.MT_PS_IN_CFG m i + 4 * j)
  let zero := (List.range 5).filter fun i =>
    s.rd (Fld.MT_PS_IN_CFG_SRC m i) = 3 && mode (s.rd (Fld.MT_PS_IN_CFG_CHAN m i) % 8)
  let moved := (List.range 5).filter fun i =>
    s.rd (Fld.MT_PS_IN_CFG_SRC m i) ≠ old.rd (Fld.MT_PS_IN_CFG_SRC m i) ||
      s.rd (Fld.MT_PS_IN_CFG_CHAN m i) ≠ old.rd (Fld.MT_PS_IN_CFG_CHAN m i)
  let s := s.streamReload old.regs m drop zero moved
  if s.streamOn m then (if s.flag Fld.AQ_STATUS_RUN then s.streamStart m else s) else s.streamStop n

/-- Ethernet ports at the boundary (R331): a port whose MAC, address or port settings changed restarts. -/
def State.reloadPort (s old : State) (p : Fin 2) : State :=
  let moved := [Adr.NET_MAC p, Adr.NET_MAC p + 4, Adr.NET_IP p, Adr.NET_GW p, Adr.NET_PORT_CFG p].any (s.changed old)
  if !moved then s
  else
    let s := s.portFlush p
    (s.setPort p { s.port p with arp := [] }).setLink p false 0

/-- PTP at the boundary (R322, R324, R331): it starts anew when its port changed or was enabled or disabled, and PTP_LOCKED
clears; a device that is never to be master leaves the states of one. -/
def State.reloadPtp (s old : State) : State :=
  let s := if s.flag Fld.PTP_CFG_TEST && !old.flag Fld.PTP_CFG_TEST then s.ptpUnlock 6 else s
  let e := Fld.NET_PORT_CFG_ENABLE s.ptpPort
  let moved := s.rd Fld.PTP_CFG_PORT ≠ old.rd Fld.PTP_CFG_PORT && s.flag Fld.PTP_STATUS_ON_B ≠ (s.rd Fld.PTP_CFG_PORT = 1)
  let s := if moved || s.rd e ≠ old.rd e then s.ptpLeave.ptpStart else s.refreshUtc
  let s := if s.flag Fld.PTP_CFG_SLAVE_ONLY && (s.ptpState = ptpMaster || s.ptpState = ptpPassive) then s.setPtp ptpListening else s
  s.refreshTimebase

/-- The ring and the twin at the boundary. -/
def State.reloadLinks (s old : State) : State :=
  let s := if !s.changed old Adr.CSC_CFG then s
    else if s.flag Fld.CSC_CFG_ENABLE then (if s.core.ready then s.ringReady else s)
    else s.wr Fld.CSC_STATUS_ENUM enOff
  let s := if s.isMaster then s else s.setWord Adr.LED_SITE 0
  if s.flag Fld.TWN_CFG_ENABLE = old.flag Fld.TWN_CFG_ENABLE then s
  else if s.flag Fld.TWN_CFG_ENABLE then (if s.core.ready then s.twinReady else s)
  else (s.setTwin twOff).wrB Fld.SYS_STATUS_SINGLE false

/-- The windows of the panel whose settings changed. -/
def State.changedWindows (s old : State) : List Nat :=
  (List.range 8).filter fun w => (List.range 6).any fun j => s.changed old (Adr.PNL_WIN_CFG w + 4 * j)

/-- A change of PWR_DEFAULT acts as commands (R403). -/
def State.reloadPower (s old : State) : State :=
  (List.finRange 17).foldl (fun s d =>
    let on := s.rd Fld.PWR_DEFAULT_ON / 2 ^ d.val % 2 = 1
    if on = (old.rd Fld.PWR_DEFAULT_ON / 2 ^ d.val % 2 = 1) then s else s.domainImage d on) s

/-- The image of a live load is in force (step 5 of R402). -/
def State.liveApply (s : State) (im : Image) : State :=
  let old := s
  let s := s.applyRegs im
  let s := { s with ldr := { s.ldr with accepted := none } }
  let s := s.wr Fld.CFG_STATUS_LOADER ldIdle
  let s := if s.flag Fld.MT_XREF_SRC || !s.flag Fld.AQ_STATUS_RUN || !s.changed old Adr.MT_XREF_TRIM then s
    else s.rateTrim s.core.tickEpoch
  let s := (((List.range 76).foldl (fun s n => s.reloadLane old n) s).refreshAcq).refreshProvisional
  let s := (List.range 16).foldl (fun s b => s.reloadBay old b) s
  let s := (List.range 16).foldl (fun s k => s.reloadPulse old k) s
  let s := s.reloadAux old
  let s := (List.finRange 4).foldl (fun s n => s.reloadStream old n) s
  let s := ((s.lsgFuse).refreshTamperAlert).crackSettle
  let s := s.panelReload old (s.changedWindows old)
  let s := (List.finRange 2).foldl (fun s p => s.reloadPort old p) s
  ((s.reloadPtp old).reloadLinks old).reloadPower old

/-- LOAD_TAKES_EFFECT: at the first whole-second boundary after the acceptance; after a power-fail warning the new image
waits for the next start (R403). -/
def State.takesEffect (s : State) : State :=
  match s.ldr.accepted with
  | some im =>
    if s.core.loaded && !s.core.warned && s.ldr.atTick < s.core.ticks then s.liveApply im else s
  | none => s

def execLoadTakesEffect (s : State) : Host.Outcome State Fault Refusal := .next s.takesEffect

/-- Whether a load or a flash command is in progress. -/
def State.cfgBusy (s : State) : Bool :=
  s.ldr.cur.isSome || s.ldr.accepted.isSome || s.ldr.resetDue || s.ldr.flash.isSome

/-- A live load of the slot that does not hold the running image (R402). -/
def State.liveLoad (s : State) (x : Session) (reset : Bool) : State :=
  let slot := 1 - s.rd Fld.CFG_STATUS_ACTIVE_SLOT
  if s.cfgBusy then s.loadRefuse slot true lrBusy 0 false
  else
    let l : Load := { slot, live := true, reset, roles := x.role, keys := keysOne x.key }
    ({ s with ldr := { s.ldr with cur := some l } }).wr Fld.CFG_STATUS_LOADER ldRead

/-- A write of CFG_CMD: LOAD or LOAD_RESET inside a SERVICE session; the lock refuses it (R278). -/
def State.wCfgCmd (s : State) (p : Path) (v : Word) : WStatus × State :=
  let cmd := bitsOf v.toNat 28 4
  match s.gate p roleService (cmd = 1 || cmd = 2) with
  | .pass x => (.ok, if cmd = 1 || cmd = 2 then s.liveLoad x (cmd = 2) else s)
  | .locked => (.refused, s.loadRefuse (1 - s.rd Fld.CFG_STATUS_ACTIVE_SLOT) true lrLocked 0 false)
  | _ => (.refused, s)

def execLoad (p : Path) (s : State) : Host.Outcome State Fault Refusal := .next (s.host fun s => s.wCfgCmd p 0x10000000)

def execLoadReset (p : Path) (s : State) : Host.Outcome State Fault Refusal := .next (s.host fun s => s.wCfgCmd p 0x20000000)

/-! ### Flash commands (R391) -/

/-- CFG_FL_CMD.RESULT. -/
def State.flResult (s : State) (r : Nat) : WStatus × State := (.ok, s.wr Fld.CFG_FL_CMD_RESULT r)

/-- The page buffer CFG_FL_DATAw as bytes. -/
def State.pageBuffer (s : State) : List Byte := (List.range 64).flatMap fun w => wordBytes (s.word (Adr.CFG_FL_DATA w))

/-- A flash command starts, or is refused. -/
def State.flashStart (s : State) (cmd : Nat) : WStatus × State :=
  let a := s.rd Fld.CFG_FL_ADDR_ADDR
  if s.cfgBusy then s.flResult 2
  else if cmd ≠ 1 && a / cfgSlotBytes = s.rd Fld.CFG_STATUS_ACTIVE_SLOT then s.flResult 3
  else if (cmd = 2 && a % 256 ≠ 0) || (cmd = 3 && a % 4096 ≠ 0) then s.flResult 4
  else
    let j : FlashJob := { cmd, addr := a, data := if cmd = 2 then s.pageBuffer else [] }
    let s := { s with ldr := { s.ldr with flash := some j } }
    (.ok, ((s.wr Fld.CFG_FL_CMD_RESULT 0).wrB Fld.CFG_FL_CMD_BUSY true).wrB Fld.CFG_STATUS_FL_BUSY true)

/-- A write of CFG_FL_CMD inside a SERVICE session; PROGRAM and ERASE are configuration updates, which the lock refuses. -/
def State.wFlCmd (s : State) (p : Path) (v : Word) : WStatus × State :=
  let cmd := bitsOf v.toNat 28 4
  match s.gate p roleService (cmd = 2 || cmd = 3) with
  | .pass _ => if 1 ≤ cmd && cmd ≤ 3 then s.flashStart cmd else (.ok, s)
  | .locked => (.refused, s.wr Fld.CFG_FL_CMD_RESULT 6)
  | _ => (.refused, s)

def execFlashRead (p : Path) (s : State) : Host.Outcome State Fault Refusal := .next (s.host fun s => s.wFlCmd p 0x10000000)

def execFlashProgram (p : Path) (s : State) : Host.Outcome State Fault Refusal := .next (s.host fun s => s.wFlCmd p 0x20000000)

def execFlashErase (p : Path) (s : State) : Host.Outcome State Fault Refusal := .next (s.host fun s => s.wFlCmd p 0x30000000)

/-- Write bytes of the flash. -/
def flashPut (m : List Host.Cell) (a : Nat) (bs : List Byte) : List Host.Cell :=
  (bs.zipIdx).foldl (fun m (b, i) => storeSet erasedAt m (a + i) b) m

/-- Bytes the spec leaves open, from an address. -/
def State.openBytes (s : State) (a n : Nat) : List Byte := (List.range n).map fun i => Config.openByte s.free (a + i)

/-- Write words from an address of the register space. -/
def State.setWords (s : State) (a : Nat) (ws : List Word) : State :=
  (ws.zipIdx).foldl (fun s (w, i) => s.setWord (a + 4 * i) w) s

/-- What a flash command does; of one that fails, what it leaves in the page buffer, page or sector is open. -/
def State.flashEffect (s : State) (j : FlashJob) (failed : Bool) : State :=
  let page := j.addr / 256 * 256
  let opened := s.openBytes j.addr
  let put (bs : List Byte) : State := { s with flash := { s.flash with cells := flashPut s.flash.cells j.addr bs } }
  match j.cmd with
  | 1 => s.setWords (Adr.CFG_FL_DATA 0) (bytesWords (if failed then s.openBytes page 256 else s.flashRead page 256))
  | 2 => put (if failed then opened 256 else j.data)
  | _ => put (if failed then opened 4096 else List.replicate 4096 0xFF)

/-- A flash command completes, or ends with FLASH_ERROR; the slots' GEN are read again. -/
def State.flashDone (s : State) (failed : Bool) : State :=
  match s.ldr.flash with
  | none => s
  | some j =>
    let s := s.flashEffect j failed
    let s := if failed then s.drawn else s
    let s := { s with ldr := { s.ldr with flash := none } }
    let s := (s.wr Fld.CFG_FL_CMD_RESULT (if failed then 5 else 1)).wrB Fld.CFG_FL_CMD_BUSY false
    ((s.wrB Fld.CFG_STATUS_FL_BUSY false).refreshSlots).irq Fld.SYS_IRQ_STAT_FLASH

def execFlashCmdDone (failed : Bool) (s : State) : Host.Outcome State Fault Refusal := .next (s.flashDone failed)

end Sys2Proof.Machine
end

