-- ==== Sys2Proof/Machine/Startup.lean ====
section
/-!
DEFINITION. Supply, resets and the start (R43, R382 to R387, R405): what a core reset loses and keeps, the causes of a core
reset, the power-fail warning, and the start of acquisition.
-/

namespace Sys2Proof.Machine

/-! ### The core reset (R14, R382) -/

/-- Whether a register word keeps its value through a core reset: the BK area and the sticky tamper flags. -/
def keptWord (a : Nat) : Bool := inBk a || a = Adr.TMP_STICKY || a = Adr.TMP_LIGHT || a = Adr.TMP_PENDING

/-- A PROGRAM or ERASE that a core reset cuts short leaves what it was writing open. -/
def State.flashCut (s : State) : State :=
  match s.ldr.flash with
  | none => s
  | some j => if j.cmd = 1 then s else (s.flashEffect j true).drawn

/-- A core reset (R14, R382): every region but Bedrock takes its reset values. Strata (a write it cuts short apart), the
flash, Bedrock, the sticky tamper flags, the conditions of the tamper sources and the levels of the enclosure pins stay; an
RTC halt is abandoned first (R342). -/
def State.coreReset (s : State) (cause : Nat) : State :=
  let st := s.strCut
  let s := s.rtcAbandon.flashCut
  let t : State := {
    pending := s.pending
    fuses := s.fuses
    regs := s.regs.filter fun x => keptWord x.1
    now := s.now
    tickStart := s.now
    resetAt := s.now
    free := s.free + 1
    core := { cause }
    acq := Acq.fresh s.fuses
    ptp := ({ at_ := s.now } : Ptp)
    str := st
    tmp := { cond := s.tmp.cond, enc := s.tmp.enc }
    bk := s.bk
    flash := s.flash }
  t.refreshActive.refreshRtcValid

/-- The core leaves reset (R382, R386): straps are sampled, the cause is latched, and with a valid RTC the PTP clock waits for
its seed (R323). -/
def State.release (s : State) (csc twn : Bool) : State :=
  let cause := if s.core.cause = 1 && s.bk.por then 2 else s.core.cause
  let s := { s with core := { s.core with running := true }, bk := { s.bk with por := false } }
  let s := { s with acq := Acq.fresh s.fuses, ptp := { s.ptp with seedDue := s.flag Fld.SYS_TIME_RTC_VALID } }
  let s := (s.wr Fld.CFG_RESET_CAUSE cause).wrB Fld.PWR_MON_VMAIN_HIGH true
  let s := (s.wrB Fld.CFG_STRAP_CSC_ROLE csc).wrB Fld.CFG_STRAP_TWN_ROLE twn
  (s.wrB Fld.CSC_STATUS_ROLE csc).wrB Fld.TWN_STATUS_ROLE twn

/-- POWER_GOOD: the later of power-good and the release of RST_N. -/
def execPowerGood (csc twn : Bool) (s : State) : Host.Outcome State Fault Refusal :=
  .next (if s.core.running then s else s.release csc twn)

/-- RST_N is held low. While power-good is absent the reset stays one of cause POWER. -/
def State.rstN (s : State) : State := if s.core.running then s.coreReset 3 else s

def execRstNAssert (s : State) : Host.Outcome State Fault Refusal := .next s.rstN

/-- VMAIN falls below the brownout threshold. -/
def execBrownout (s : State) : Host.Outcome State Fault Refusal := .next (s.coreReset 1)

/-- A core reset of the device's own: the supply is present, and the straps keep their levels. -/
def State.ownReset (s : State) (cause : Nat) : State :=
  (s.coreReset cause).release (s.flag Fld.CFG_STRAP_CSC_ROLE) (s.flag Fld.CFG_STRAP_TWN_ROLE)

/-- AUTO_RESTART_S seconds in FROZEN have passed (R43). -/
def State.autoRestart (s : State) : State :=
  let after := s.rd Fld.SYS_ESC_CTRL_AUTO_RESTART_S
  if s.core.running && s.chip = chipFrozen && after ≠ 0 then (s.until (s.esc.frozenAt.elim 0 (· + 1000 * after))).ownReset 4
  else s

def execAutoRestart (s : State) : Host.Outcome State Fault Refusal := .next s.autoRestart

/-- 100 ms above 3.10 V after a warning (R385). -/
def execWarnReset (s : State) : Host.Outcome State Fault Refusal := .next (if s.core.warned then s.ownReset 5 else s)

/-- The core reset of an accepted LOAD_RESET (R402). -/
def execConfigReset (s : State) : Host.Outcome State Fault Refusal := .next (if s.ldr.resetDue then s.ownReset 6 else s)

/-! ### The power-fail warning (R384) -/

/-- What a path loses at the warning (R270, R274, R276). -/
def State.pathWarned (s : State) (p : Path) : State :=
  let s := s.sessionEnd p
  s.setPath p { s.path p with nonces := [], armed := [] }

/-- The ledger and Strata at the warning: the final transaction is awaited; a compaction stops (R233); of the transactions
that wait, those that Flint and the Audit Trail ask for by themselves are left to the next start (R292). -/
def State.ledgerWarned (s : State) : State :=
  let s := if s.led.compacting.isSome then
      ({ s with led := { s.led with compacting := none } }.wrB Fld.STR_STATUS_COMPACTING false).count Fld.STR_COMPACT_STOPPED
    else s
  let stays (t : Txn) : Bool := t.act ≠ .lockEngage && t.act ≠ .audBankFail
  let rest := s.led.queue.drop 1
  let s := if rest.all stays then s else s.setQueue (s.led.queue.take 1 ++ rest.filter stays)
  -- a snapshot copy that is pending stops: recovery rebuilds its record (R228)
  let s := { s with led := { s.led with
    copies := s.led.copies.filter fun (c : CopyJob) => !snapPending [c] } }
  let s := s.wrB Fld.STR_STATUS_SNAP_PENDING false
  if s.ledgerOk then (s.wrB Fld.LED_STATUS_POWERDOWN true).wr Fld.STR_STATUS_STATE 3 else s

/-- Pending domain commands are dropped (R408). -/
def State.domainsWarned (s : State) : State :=
  let s := ({ s with pwr := { s.pwr with offAfter := [] } }).wr Fld.PWR_PEND_DOMAINS 0
  if s.domOn 16 then s.domainDown 16 else s

/-- POWER_FAIL_WARNING. -/
def State.powerFail (s : State) : State :=
  if !s.core.running || s.core.warned then s
  else
    let s := { s with core := { s.core with warned := true, warnedAt := s.now }, rcd := { s.rcd with closed := true } }
    let s := ((s.wrB Fld.PWR_MON_WARN true).wrB Fld.PWR_MON_VMAIN_HIGH false).endFreeze
    let s := s.ledgerWarned
    let s := (s.pathWarned .spi).pathWarned .drega
    let s := { s with sec := { s.sec with dual := none, unlockDeferred := none } }
    let s := s.psvEnd.garnetWarned.rtcAbandon
    let s := s.closeAllEvents
    s.panelWarned.loadAbandon.domainsWarned

def execPowerFailWarning (s : State) : Host.Outcome State Fault Refusal := .next s.powerFail

/-! ### The start of acquisition (R386, R387, R405) -/

/-- The domains that PWR_DEFAULT powers; a fused domain stays off. -/
def State.defaultDomains (s : State) : Nat :=
  let on := s.rd Fld.PWR_DEFAULT_ON ||| 0x3000
  if s.fuses.kb9608 then on &&& (0x1FFFF ^^^ 0x30C) else on

/-- The order in which domains power on at a start. -/
def domainOrder : List (Fin 17) := [4, 0, 1, 2, 3, 5, 6, 7, 8, 9, 10, 11, 14, 15, 16]

/-- ACQUISITION_START: the default domains are powered, the epoch counter starts from 0, lanes, calibrator, auxiliary block
and streams start, and the rate of XREF is the image's trim until PTP measures it (R101). -/
def State.acquire (s : State) : State :=
  if !s.core.ready || s.core.warned || s.chip ≠ chipProvisional || s.flag Fld.AQ_STATUS_RUN then s
  else
    let s := (s.wr Fld.PWR_ON_ON s.defaultDomains).wrB Fld.AQ_STATUS_RUN true
    let s := { s with tickStart := s.now, core := { s.core with tickEpoch := 0, ticks := 0 } }
    let s := ({ s with met := { s.met with rates := [{}] } }).rateTrim 0
    domainOrder.foldl (fun s (d : Fin 17) => if s.domOn d.val then s.domainStart d else s) s.calStart

def execAcquisitionStart (s : State) : Host.Outcome State Fault Refusal := .next s.acquire

end Sys2Proof.Machine
end

