-- ==== Sys2Proof/Machine/Boundary.lean ====
section
/-!
DEFINITION. The whole-second boundary (R33, R34, R87, R101, R114, R153, R157, R169, R326, R370).
-/

namespace Sys2Proof.Machine

/-- The ledger's share of a boundary: the tick waits for its fold window (R192), operating seconds advance (R33, R35). -/
def State.ledgerBoundary (s : State) (epoch ptp : Nat) : State :=
  if !s.ledgerOk then s
  else
    let b : Boundary := { epoch, secs := (epoch - s.core.tickEpoch + secondEpochs / 2) / secondEpochs, ptp, at_ := s.now }
    ({ s with led := { s.led with bounds := s.led.bounds ++ [b] } }).count Fld.SYS_OPSEC_OPSEC

/-- The PTP time of the boundary (R326): captured with the boundary's epoch count, and kept for the rate while locked. -/
def State.ptpBoundary (s : State) (epoch : Nat) (t : PtpTime) : State :=
  let s := (s.wr Fld.PTP_EPOCH_CAP_EPOCH epoch).wr Fld.PTP_EPOCH_CAP_SEC t.sec.toNat
  let s := s.wr Fld.PTP_EPOCH_CAP_NS t.ns.toNat
  { s with ptp := { s.ptp with
    ns := ptpNs t, at_ := s.now
    lastCap := if s.flag Fld.SYS_TIME_PTP_LOCKED then some (ptpNs t, epoch) else none } }

/-- The master's time advances by whole ticks (R366). A master in STEERED mode that is locked to PTP steers its own oscillator
(R360); the value it sets is not stated. -/
def State.masterTick (s : State) : State :=
  let steers := s.isMaster && s.flag Fld.CSC_CFG_CLOCK && s.flag Fld.SYS_TIME_PTP_LOCKED
  let s := if steers then ({ s with ring := { s.ring with vctl := s.openWord } }).drawn else s
  { s with ring := { s.ring with master := s.ring.master.map fun (t, src, n) => (t, src, n + 1) } }

/-- WHOLE_SECOND_BOUNDARY, with the ratio of the references over the tick that ends and the PTP clock's reading. -/
def State.boundary (s : State) (ratio : Word) (t : PtpTime) : State :=
  if !s.flag Fld.AQ_STATUS_RUN then s
  else
    s.sameCycle fun s =>
    let e := s.nextBoundary
    let began := s.core.tickEpoch
    let ns : Real := ((e - began : Nat) : Real) * epochNs (s.rdS Fld.MT_XREF_RATE)
    let s := if s.epoch < e then s.setEpoch e else s
    let s := s.until (s.tickStart + (e - began) / 1024)
    let s := { s with tickStart := s.now }
    let s := s.ledgerBoundary e (ptpNs t)
    let s := { s with core := { s.core with tickEpoch := e, ticks := s.core.ticks + 1 } }
    let s := (s.rateUpdate e (ptpNs t)).ptpBoundary e t
    let s := (List.range 16).foldl (fun s b => s.bayTick b e) s
    let s := (List.range 8).foldl (fun s k => s.inputTick ns k) s
    let s := s.axTick e
    let s := (List.range 4).foldl (fun s n => s.streamDue ns e n) s
    ((((s.refCheck ratio).tenBoundary e).masterTick).helloSend).refreshDegraded

def execWholeSecondBoundary (ratio : Word) (t : PtpTime) (s : State) : Host.Outcome State Fault Refusal :=
  .next (s.boundary ratio t)

end Sys2Proof.Machine
end

