-- ==== Sys2Proof/Machine/HostPort.lean ====
section
/-!
DEFINITION. The register space as an access path writes it (R5 to R11, R275, R439), the host SPI port (R428 to R437) and the
register service of Drega (R317 to R319).
-/

namespace Sys2Proof.Machine

/-! ### A write of one word (R5, R7, R8, R275) -/

/-- What a write leaves in a word of an Open register: its RW bits as written, its W1C bits cleared where 1 was written. -/
def openBits (d : RegDef) (k : Nat) (old v : Word) : Word :=
  let m (x : Nat) : Word := BitVec.ofNat 32 (x / 2 ^ (32 * k))
  ((old &&& ~~~ m d.rw) ||| (v &&& m d.rw)) &&& ~~~ (v &&& m d.w1c)

/-- A write of an Open register without an action. -/
def State.openWrite (s : State) (p : Path) (a : Nat) (d : RegDef) (k : Nat) (v : Word) : State :=
  if pathHeld a then
    let x := s.path p
    s.setPath p { x with regs := storeSet resetWord x.regs a (openBits d k (storeGet resetWord x.regs a) v) }
  else s.setWord a (openBits d k (s.word a) v)

/-- A Sealed register that starts no action: its fields, inside a session whose role may update the configuration (R275). -/
def State.sealedWrite (s : State) (p : Path) (a : Nat) (d : RegDef) (v : Word) : WStatus × State :=
  match s.gate p roleService false with
  | .pass _ => (.ok, s.setWord a (openBits d 0 (s.word a) v))
  | _ => (.refused, s)

/-- A register whose write does more than set its fields. -/
inductive Writer where
  | laneCtrl
  | mmCtrl
  | calData
  | calCmd
  | axTrig
  | ledCmd
  | lpSel
  | tarData
  | tarCmd
  | recRd
  | recSel
  | recCmd
  | audSel
  | tokenData
  | tokenCmd
  | rdgCmd
  | htxData
  | htxCmd
  | mdio (n : Fin 2)
  | hrxCmd (n : Fin 2)
  | bkCmd
  | rtcField (i : Nat)
  | rtcCtrl
  | cfgCmd
  | flCmd
  | pwrCmd
  | pnlReq
deriving DecidableEq, Repr

/-- Which register of that kind lies at an address. -/
def writerAt (a : Nat) : Option Writer :=
  if Adr.RTC_SUBSEC ≤ a && a < Adr.RTC_SUBSEC + 32 then some (.rtcField ((a - Adr.RTC_SUBSEC) / 4))
  else ([(Adr.AQ_LANE_CTRL, Writer.laneCtrl), (Adr.AQ_MM_CTRL, .mmCtrl), (Adr.CAL_ACC_DATA, .calData), (Adr.CAL_CMD, .calCmd),
    (Adr.AX_TRIG, .axTrig), (Adr.LED_CMD, .ledCmd), (Adr.LED_LP_SEL, .lpSel), (Adr.TAR_CAL_DATA, .tarData),
    (Adr.TAR_CMD, .tarCmd), (Adr.REC_RD, .recRd), (Adr.REC_SEL, .recSel), (Adr.REC_CMD, .recCmd), (Adr.AUD_SEL, .audSel),
    (Adr.SEC_TOKEN_DATA, .tokenData), (Adr.SEC_TOKEN_CMD, .tokenCmd), (Adr.SEC_RDG_CMD, .rdgCmd),
    (Adr.NET_HTX_DATA, .htxData), (Adr.NET_HTX_CMD, .htxCmd), (Adr.NET_MDIO 0, .mdio 0), (Adr.NET_MDIO 1, .mdio 1),
    (Adr.NET_HRX_CMD 0, .hrxCmd 0), (Adr.NET_HRX_CMD 1, .hrxCmd 1), (Adr.BK_CMD, .bkCmd), (Adr.RTC_CTRL, .rtcCtrl),
    (Adr.CFG_CMD, .cfgCmd), (Adr.CFG_FL_CMD, .flCmd), (Adr.PWR_CMD, .pwrCmd), (Adr.PNL_REQ, .pnlReq)] : List (Nat × Writer)).lookup a

/-- The write of such a register. -/
def State.writer (s : State) (p : Path) (v : Word) : Writer → WStatus × State
  | .laneCtrl => s.wLaneCtrl p v
  | .mmCtrl => s.wMmCtrl p v
  | .calData => s.wCalData p v
  | .calCmd => s.wCalCmd p v
  | .axTrig => s.wAxTrig p v
  | .ledCmd => s.wLedCmd p v
  | .lpSel => s.wLpSel p v
  | .tarData => s.wTarCal p v
  | .tarCmd => s.wTarCmd p v
  | .recRd => s.wRecRd p v
  | .recSel => s.wRecSel p v
  | .recCmd => s.wRecCmd p v
  | .audSel => s.wAudSel p v
  | .tokenData => s.wTokenData p v
  | .tokenCmd => s.wTokenCmd p v
  | .rdgCmd => s.wRdgCmd p v
  | .htxData => s.wHtxData p v
  | .htxCmd => s.wHtxCmd p v
  | .mdio n => s.wMdio p n v
  | .hrxCmd n => s.wHrxCmd p n v
  | .bkCmd => s.wBkCmd p v
  | .rtcField i => s.wRtcField p i v
  | .rtcCtrl => s.wRtcCtrl p v
  | .cfgCmd => s.wCfgCmd p v
  | .flCmd => s.wFlCmd p v
  | .pwrCmd => s.wPwrCmd p v
  | .pnlReq => s.wPnlReq p v

/-- A write of one word by a path: an address without a register on the part is unimplemented; an Image register is refused;
a read-only word of an Open register ignores it. -/
def State.writeWord (s : State) (p : Path) (a : Nat) (v : Word) : WStatus × State :=
  if s.absent a || (regShape a).isNone then (.unimplemented, s)
  else match writerAt a with
  | some w => s.writer p v w
  | none =>
    match findReg a with
    | none => (.ok, s)
    | some (d, k) =>
      match d.cls with
      | .open_ => (.ok, s.openWrite p a d k v)
      | .image => (.refused, s)
      | .sealed => s.sealedWrite p a d v

/-- REGISTER_WRITE. -/
def execRegisterWrite (p : Path) (addr : BitVec 32) (v : Word) (s : State) : Host.Outcome State Fault Refusal :=
  .next (s.host fun s => s.writeWord p addr.toNat v)

/-! ### Several words (R430, R434, R435) -/

/-- Read words at an address, or with FIXED every word at it, oldest first. -/
def State.readWords (s : State) (p : Path) (fixed : Bool) : Nat → Nat → List Word × State
  | _, 0 => ([], s)
  | a, n + 1 =>
    let (w, t) := s.readWord p a
    let (ws, t) := t.readWords p fixed (if fixed then a else a + 4) n
    (w :: ws, t)

/-- Write words in order until one is refused: its status, and how many were applied before it. -/
def State.writeWords (s : State) (p : Path) (fixed : Bool) : Nat → List Word → WStatus × Nat × State
  | _, [] => (.ok, 0, s)
  | a, v :: vs =>
    match s.writeWord p a v with
    | (.ok, t) =>
      let (r, n, t) := t.writeWords p fixed (if fixed then a else a + 4) vs
      (r, n + 1, t)
    | (r, t) => (r, 0, t)

/-- STATUS of a write (R433, R318). -/
def WStatus.code : WStatus → Nat
  | .ok => 0
  | .refused => 1
  | .unimplemented => 2

/-! ### The host SPI port (R429 to R437) -/

/-- CMD codes of R430. -/
def hpRead : Nat := 1
def hpWrite : Nat := 2
def hpReadFixed : Nat := 3
def hpWriteFixed : Nat := 4

/-- Bytes 0 to 6 of a frame header. -/
def hpHeader (cmd : Nat) (addr : BitVec 32) (words : BitVec 16) : List Byte :=
  beBytes 1 cmd ++ beBytes 4 addr.toNat ++ beBytes 2 words.toNat

/-- Whether CMD, WORDS and ADDR make a frame the port takes. -/
def hpFrameOk (cmd : Nat) (addr : BitVec 32) (words : BitVec 16) : Bool :=
  let most := if cmd = hpRead || cmd = hpReadFixed then 256 else 64
  let last := if cmd = hpRead || cmd = hpWrite then addr.toNat + 4 * words.toNat else addr.toNat + 4
  1 ≤ cmd && cmd ≤ 4 && 1 ≤ words.toNat && words.toNat ≤ most && addr.toNat % 4 = 0 && last ≤ 0x1000000

/-- Return a response, closed with its CRC. -/
def State.hostRespond (s : State) (bs : List Byte) : State := { s with spiOut := bs ++ [crc8 bs] }

/-- SYS_HOST_LAST after a write frame. -/
def State.hostLast (s : State) (status cmd applied : Nat) : State :=
  ((s.wr Fld.SYS_HOST_LAST_STATUS status).wr Fld.SYS_HOST_LAST_CMD cmd).wr Fld.SYS_HOST_LAST_APPLIED applied

/-- A READ or READ_FIXED frame: nothing is accessed unless the header passes. -/
def State.hostReadFrame (s : State) (cmd : Nat) (addr : BitVec 32) (words : BitVec 16) (hcrc : Byte) : State :=
  if !s.core.running then s
  else if crc8 (hpHeader cmd addr words) ≠ hcrc then (s.count Fld.SYS_HOST_ERR_HCRC).hostRespond [4]
  else if !hpFrameOk cmd addr words then (s.count Fld.SYS_HOST_ERR_BAD_FRAME).hostRespond [3]
  else
    let (ws, t) := s.readWords .spi (cmd = hpReadFixed) addr.toNat words.toNat
    t.hostRespond (0 :: ws.flatMap wordBytes)

/-- The words of a write frame whose DCRC has passed are applied. -/
def State.hostApply (s : State) (cmd : Nat) (addr : BitVec 32) (data : List Word) : Nat × Nat × State :=
  let (r, n, t) := s.writeWords .spi (cmd = hpWriteFixed) addr.toNat data
  (r.code, n, t.hostLast r.code cmd n)

/-- The response of a write: STATUS and APPLIED. -/
def State.writeResponse (s : State) (status applied : Nat) : State := s.hostRespond (beBytes 1 status ++ beBytes 2 applied)

/-- A write frame that is answered without being applied. -/
def State.writeRejected (s : State) (cmd status : Nat) : State := (s.hostLast status cmd 0).writeResponse status 0

/-- A WRITE or WRITE_FIXED frame: header, then data, then DCRC. Where HCRC fails, CMD is not known, and the answer is STATUS
alone. -/
def State.hostWriteFrame (s : State) (cmd : Nat) (addr : BitVec 32) (words : BitVec 16) (hcrc : Byte) (data : List Word)
    (dcrc : Byte) : State :=
  if !s.core.running then s
  else if crc8 (hpHeader cmd addr words) ≠ hcrc then (s.count Fld.SYS_HOST_ERR_HCRC).hostRespond [4]
  else if !hpFrameOk cmd addr words || data.length ≠ words.toNat then (s.count Fld.SYS_HOST_ERR_BAD_FRAME).writeRejected cmd 3
  else if crc8 (data.flatMap wordBytes) ≠ dcrc then (s.count Fld.SYS_HOST_ERR_DCRC).writeRejected cmd 5
  else
    let (r, n, t) := s.hostApply cmd addr data
    t.writeResponse r n

def execRead (addr : BitVec 32) (words : BitVec 16) (hcrc : Byte) (s : State) : Host.Outcome State Fault Refusal :=
  .next (s.hostReadFrame hpRead addr words hcrc)

def execReadFixed (addr : BitVec 32) (words : BitVec 16) (hcrc : Byte) (s : State) : Host.Outcome State Fault Refusal :=
  .next (s.hostReadFrame hpReadFixed addr words hcrc)

def execWrite (addr : BitVec 32) (words : BitVec 16) (hcrc : Byte) (data : List Word) (dcrc : Byte) (s : State) :
    Host.Outcome State Fault Refusal := .next (s.hostWriteFrame hpWrite addr words hcrc data dcrc)

def execWriteFixed (addr : BitVec 32) (words : BitVec 16) (hcrc : Byte) (data : List Word) (dcrc : Byte) (s : State) :
    Host.Outcome State Fault Refusal := .next (s.hostWriteFrame hpWriteFixed addr words hcrc data dcrc)

/-- HCS_N rises before a frame ends (R436): the frame is counted, and what it had reached by then stands. -/
def State.hostAbort (s : State) (stage : AbortStage) : State :=
  if !s.core.running then s
  else
    let s := { s.count Fld.SYS_HOST_ERR_ABORTED with spiOut := [] }
    match stage with
    | .beforeCrc => s
    | .writeAfterDcrc cmd addr words data =>
      let c := cmd.toNat
      if (c = hpWrite || c = hpWriteFixed) && hpFrameOk c addr words && data.length = words.toNat then
        (s.hostApply c addr data).2.2
      else s
    | .readAfterHeader cmd addr words fetched =>
      let c := cmd.toNat
      if (c = hpRead || c = hpReadFixed) && hpFrameOk c addr words then
        (s.readWords .spi (c = hpReadFixed) addr.toNat (min fetched.toNat words.toNat)).2
      else s

def execFrameAbandoned (stage : AbortStage) (s : State) : Host.Outcome State Fault Refusal := .next (s.hostAbort stage)

/-! ### The register service of Drega (R317 to R319) -/

/-- Whether FLAGS, LENGTH, the count and the reserved bytes of a REG_READ or REG_WRITE message are right: `data` words follow
the head of its body (R317, R318). -/
def dregaOk (m : List Byte) (most data : Nat) : Bool :=
  num m 5 1 < 4 && 1 ≤ num m 12 2 && num m 12 2 ≤ most && num m 6 2 = 8 + 4 * data && num m 14 2 = 0

/-- The words after the head of a body. -/
def dregaData (m : List Byte) : List Word := bytesWords (m.drop 16)

/-- The head of a response body: ADDR, WORDS, 0. -/
def dregaHead (addr words : Nat) : List Byte := beBytes 4 addr ++ beBytes 2 words ++ beBytes 2 0

/-- A REG_READ request: one that reaches beyond the register space is refused as a whole. -/
def State.regReadReq (s : State) (src : DregaSrc) (tag : BitVec 16) (m : List Byte) : State :=
  let fixed := num m 5 1 % 2 = 1
  let addr := num m 8 4
  let words := num m 12 2
  let last := if fixed then addr + 4 else addr + 4 * words
  if !dregaOk m 256 0 then s.dregaAnswer src 1 tag drBadMessage []
  else if 0x1000000 < last then s.dregaAnswer src 1 tag drRefused []
  else
    let (ws, t) := s.readWords .drega fixed addr words
    t.dregaAnswer src 1 tag drOk (dregaHead addr words ++ ws.flatMap wordBytes)

/-- A REG_WRITE request: its words are written in order until one is refused. -/
def State.regWriteReq (s : State) (src : DregaSrc) (tag : BitVec 16) (m : List Byte) : State :=
  let addr := num m 8 4
  if !dregaOk m 64 (num m 12 2) then s.dregaAnswer src 2 tag drBadMessage []
  else
    let (r, n, t) := s.writeWords .drega (num m 5 1 % 2 = 1) addr (dregaData m)
    t.dregaAnswer src 2 tag r.code (dregaHead addr n)

/-- REG_READ: the Drega request that has waited longest, where it is the REG_READ of these fields. -/
def execRegRead (src : DregaSrc) (tag : BitVec 16) (flags : Byte) (addr : BitVec 32) (words : BitVec 16) (s : State) :
    Host.Outcome State Fault Refusal :=
  .next (s.dregaServe 1
    (fun r m => dregaNamed src tag flags r m && num m 8 4 = addr.toNat && num m 12 2 = words.toNat) fun src tag m s => s.regReadReq src tag m)

/-- REG_WRITE: the Drega request that has waited longest, where it is the REG_WRITE of these fields. -/
def execRegWrite (src : DregaSrc) (tag : BitVec 16) (flags : Byte) (addr : BitVec 32) (words : BitVec 16) (data : List Word)
    (s : State) : Host.Outcome State Fault Refusal :=
  .next (s.dregaServe 2 (fun r m =>
    dregaNamed src tag flags r m && num m 8 4 = addr.toNat && num m 12 2 = words.toNat && dregaData m = data) fun src tag m s => s.regWriteReq src tag m)

end Sys2Proof.Machine
end

