-- ==== Sys2Proof/Machine/Dispatch.lean ====
section
/-!
DEFINITION. One arm for each command of the table: a direct call of its meaning.
-/

namespace Sys2Proof.Machine

def exec (i : Instr) (s : State) : Host.Outcome State Fault Refusal :=
  match i with
  | .powerGood cscRole twnRole => Sys2Proof.Machine.execPowerGood cscRole twnRole s
  | .rstNAssert => Sys2Proof.Machine.execRstNAssert s
  | .brownout => Sys2Proof.Machine.execBrownout s
  | .powerFailWarning => Sys2Proof.Machine.execPowerFailWarning s
  | .finalCutoff => Sys2Proof.Machine.execFinalCutoff s
  | .warnReset => Sys2Proof.Machine.execWarnReset s
  | .pllLock => Sys2Proof.Machine.execPllLock s
  | .recoveryComplete fails => Sys2Proof.Machine.execRecoveryComplete fails s
  | .candidateReadComplete => Sys2Proof.Machine.execCandidateReadComplete s
  | .imageVerify => Sys2Proof.Machine.execImageVerify s
  | .imageApply => Sys2Proof.Machine.execImageApply s
  | .tamperTestWindowEnd responded => Sys2Proof.Machine.execTamperTestWindowEnd responded s
  | .tamperTestComplete => Sys2Proof.Machine.execTamperTestComplete s
  | .tamperTestPeriodic => Sys2Proof.Machine.execTamperTestPeriodic s
  | .acquisitionStart => Sys2Proof.Machine.execAcquisitionStart s
  | .laneOutputSample conv => Sys2Proof.Machine.execLaneOutputSample conv s
  | .laneStartCountEnd lane => Sys2Proof.Machine.execLaneStartCountEnd lane s
  | .laneRestart p lane => Sys2Proof.Machine.execLaneRestart p lane s
  | .capture p => Sys2Proof.Machine.execCapture p s
  | .captureBoundary => Sys2Proof.Machine.execCaptureBoundary s
  | .wholeSecondBoundary refRatio ptp => Sys2Proof.Machine.execWholeSecondBoundary refRatio ptp s
  | .streamTick n => Sys2Proof.Machine.execStreamTick n s
  | .epochAlign base => Sys2Proof.Machine.execEpochAlign base s
  | .cycleEnd bay => Sys2Proof.Machine.execCycleEnd bay s
  | .halfCycleRms bay => Sys2Proof.Machine.execHalfCycleRms bay s
  | .accelJobComplete acc => Sys2Proof.Machine.execAccelJobComplete acc s
  | .engineFault u k => Sys2Proof.Machine.execEngineFault u k s
  | .engineRestartDone u => Sys2Proof.Machine.execEngineRestartDone u s
  | .lockstepMismatch => Sys2Proof.Machine.execLockstepMismatch s
  | .veinWatchdog r => Sys2Proof.Machine.execVeinWatchdog r s
  | .autoRestart => Sys2Proof.Machine.execAutoRestart s
  | .calWindowEnd => Sys2Proof.Machine.execCalWindowEnd s
  | .calEvaluationComplete => Sys2Proof.Machine.execCalEvaluationComplete s
  | .calSwitchOver => Sys2Proof.Machine.execCalSwitchOver s
  | .stageOpen p => Sys2Proof.Machine.execStageOpen p s
  | .stageCommit p => Sys2Proof.Machine.execStageCommit p s
  | .stageAbort p => Sys2Proof.Machine.execStageAbort p s
  | .rebase p lane => Sys2Proof.Machine.execRebase p lane s
  | .calAccDataRead p => Sys2Proof.Machine.execCalAccDataRead p s
  | .calAccDataWrite p data => Sys2Proof.Machine.execCalAccDataWrite p data s
  | .poPulseStart k => Sys2Proof.Machine.execPoPulseStart k s
  | .poPulseEnd k => Sys2Proof.Machine.execPoPulseEnd k s
  | .scanTrigger p => Sys2Proof.Machine.execScanTrigger p s
  | .periodicTrigger => Sys2Proof.Machine.execPeriodicTrigger s
  | .scanSettleEnd => Sys2Proof.Machine.execScanSettleEnd s
  | .scanComplete conv => Sys2Proof.Machine.execScanComplete conv s
  | .pulseEdge k level partner bothChanged time => Sys2Proof.Machine.execPulseEdge k level partner bothChanged time s
  | .noSignal k => Sys2Proof.Machine.execNoSignal k s
  | .fldLow => Sys2Proof.Machine.execFldLow s
  | .fldOk => Sys2Proof.Machine.execFldOk s
  | .excOpen k => Sys2Proof.Machine.execExcOpen k s
  | .quantum => Sys2Proof.Machine.execQuantum s
  | .foldWindowClose => Sys2Proof.Machine.execFoldWindowClose s
  | .outageProcessing => Sys2Proof.Machine.execOutageProcessing s
  | .billingClose p => Sys2Proof.Machine.execBillingClose p s
  | .acceptStep p => Sys2Proof.Machine.execAcceptStep p s
  | .rejectStep p => Sys2Proof.Machine.execRejectStep p s
  | .psvOpen p => Sys2Proof.Machine.execPsvOpen p s
  | .psvCommit p => Sys2Proof.Machine.execPsvCommit p s
  | .psvAbort p => Sys2Proof.Machine.execPsvAbort p s
  | .psvCancel p => Sys2Proof.Machine.execPsvCancel p s
  | .tarCalDataRead p => Sys2Proof.Machine.execTarCalDataRead p s
  | .tarCalDataWrite p data => Sys2Proof.Machine.execTarCalDataWrite p data s
  | .ledLpDataRead p => Sys2Proof.Machine.execLedLpDataRead p s
  | .commitComplete us fails => Sys2Proof.Machine.execCommitComplete us fails s
  | .postCommitCopyDone fails => Sys2Proof.Machine.execPostCommitCopyDone fails s
  | .compactionComplete fails => Sys2Proof.Machine.execCompactionComplete fails s
  | .bucketRefill code => Sys2Proof.Machine.execBucketRefill code s
  | .recordWriteStart => Sys2Proof.Machine.execRecordWriteStart s
  | .recordWriteDone fails => Sys2Proof.Machine.execRecordWriteDone fails s
  | .suppressedTimeout => Sys2Proof.Machine.execSuppressedTimeout s
  | .recorderPeriodEnd => Sys2Proof.Machine.execRecorderPeriodEnd s
  | .recorderScanDone => Sys2Proof.Machine.execRecorderScanDone s
  | .recSelLoad p rseq => Sys2Proof.Machine.execRecSelLoad p rseq s
  | .recLoadDone p log fails => Sys2Proof.Machine.execRecLoadDone p log fails s
  | .recDataRead p => Sys2Proof.Machine.execRecDataRead p s
  | .freeze p => Sys2Proof.Machine.execFreeze p s
  | .release p => Sys2Proof.Machine.execRelease p s
  | .freezeTimeout => Sys2Proof.Machine.execFreezeTimeout s
  | .clear p => Sys2Proof.Machine.execClear p s
  | .clearSlots p => Sys2Proof.Machine.execClearSlots p s
  | .audSelLoad p aseq => Sys2Proof.Machine.execAudSelLoad p aseq s
  | .audDataRead p => Sys2Proof.Machine.execAudDataRead p s
  | .nonceIssue p => Sys2Proof.Machine.execNonceIssue p s
  | .nonceLapse p => Sys2Proof.Machine.execNonceLapse p s
  | .tokenDataWrite p data => Sys2Proof.Machine.execTokenDataWrite p data s
  | .submit p => Sys2Proof.Machine.execSubmit p s
  | .tokenVerified => Sys2Proof.Machine.execTokenVerified s
  | .close p => Sys2Proof.Machine.execClose p s
  | .sessionExpiry p => Sys2Proof.Machine.execSessionExpiry p s
  | .dualExpired => Sys2Proof.Machine.execDualExpired s
  | .armedExpiry p => Sys2Proof.Machine.execArmedExpiry p s
  | .formEcdsa p => Sys2Proof.Machine.execFormEcdsa p s
  | .formHmac p => Sys2Proof.Machine.execFormHmac p s
  | .readingSigned => Sys2Proof.Machine.execReadingSigned s
  | .rdgDataRead p => Sys2Proof.Machine.execRdgDataRead p s
  | .tamperDetection begun machine code => Sys2Proof.Machine.execTamperDetection begun machine code s
  | .phyPoll port reg1 reg5 reg10 => Sys2Proof.Machine.execPhyPoll port reg1 reg5 reg10 s
  | .mdioRead p port reg => Sys2Proof.Machine.execMdioRead p port reg s
  | .mdioWrite p port reg data => Sys2Proof.Machine.execMdioWrite p port reg data s
  | .mdioDone port data => Sys2Proof.Machine.execMdioDone port data s
  | .rxFrame port bytes fcsOk ts => Sys2Proof.Machine.execRxFrame port bytes fcsOk ts s
  | .announceTimeout => Sys2Proof.Machine.execAnnounceTimeout s
  | .ptpPortReturn => Sys2Proof.Machine.execPtpPortReturn s
  | .ptpMessageSend m => Sys2Proof.Machine.execPtpMessageSend m s
  | .txStart port => Sys2Proof.Machine.execTxStart port s
  | .txComplete port ending ts => Sys2Proof.Machine.execTxComplete port ending ts s
  | .launchTime port now => Sys2Proof.Machine.execLaunchTime port now s
  | .nsWrap => Sys2Proof.Machine.execNsWrap s
  | .htxDataWrite p data => Sys2Proof.Machine.execHtxDataWrite p data s
  | .htxGo p v => Sys2Proof.Machine.execHtxGo p v s
  | .htxDoneRead p => Sys2Proof.Machine.execHtxDoneRead p s
  | .hrxPop p port v => Sys2Proof.Machine.execHrxPop p port v s
  | .hrxDataRead p port => Sys2Proof.Machine.execHrxDataRead p port s
  | .regRead src tag flags addr words => Sys2Proof.Machine.execRegRead src tag flags addr words s
  | .regWrite src tag flags addr words data => Sys2Proof.Machine.execRegWrite src tag flags addr words data s
  | .reading src tag flags nonce items => Sys2Proof.Machine.execReading src tag flags nonce items s
  | .dregaKeptExpiry src => Sys2Proof.Machine.execDregaKeptExpiry src s
  | .published k => Sys2Proof.Machine.execPublished k s
  | .arpRefresh port ip => Sys2Proof.Machine.execArpRefresh port ip s
  | .arpRetry port ip => Sys2Proof.Machine.execArpRetry port ip s
  | .supplyToBat => Sys2Proof.Machine.execSupplyToBat s
  | .supplyToMain => Sys2Proof.Machine.execSupplyToMain s
  | .bedrockPor => Sys2Proof.Machine.execBedrockPor s
  | .clrBkpLost p => Sys2Proof.Machine.execClrBkpLost p s
  | .vbatMeasure mv => Sys2Proof.Machine.execVbatMeasure mv s
  | .rtcSecond => Sys2Proof.Machine.execRtcSecond s
  | .pwronTimeout => Sys2Proof.Machine.execPwronTimeout s
  | .trimWindow => Sys2Proof.Machine.execTrimWindow s
  | .rtcShadowRead p reg => Sys2Proof.Machine.execRtcShadowRead p reg s
  | .rtcShadowRelease p => Sys2Proof.Machine.execRtcShadowRelease p s
  | .halt p => Sys2Proof.Machine.execHalt p s
  | .rtcFieldWrite p reg v => Sys2Proof.Machine.execRtcFieldWrite p reg v s
  | .rtcLoad p => Sys2Proof.Machine.execRtcLoad p s
  | .rtcAutoSet => Sys2Proof.Machine.execRtcAutoSet s
  | .discover rx => Sys2Proof.Machine.execDiscover rx s
  | .join port head body check => Sys2Proof.Machine.execJoin port head body check s
  | .admitFrame rx => Sys2Proof.Machine.execAdmitFrame rx s
  | .marker rx epoch lag => Sys2Proof.Machine.execMarker rx epoch lag s
  | .delayReq link frame => Sys2Proof.Machine.execDelayReq link frame s
  | .delayResp link frame sent arrived => Sys2Proof.Machine.execDelayResp link frame sent arrived s
  | .contrib port frame => Sys2Proof.Machine.execContrib port frame s
  | .contribAck rx => Sys2Proof.Machine.execContribAck rx s
  | .discoverSend => Sys2Proof.Machine.execDiscoverSend s
  | .searchEnd => Sys2Proof.Machine.execSearchEnd s
  | .joinRetry => Sys2Proof.Machine.execJoinRetry s
  | .memberAbsentTimeout pos => Sys2Proof.Machine.execMemberAbsentTimeout pos s
  | .markerSend => Sys2Proof.Machine.execMarkerSend s
  | .hopDelayMeasure => Sys2Proof.Machine.execHopDelayMeasure s
  | .holdover => Sys2Proof.Machine.execHoldover s
  | .ringFaultTimeout => Sys2Proof.Machine.execRingFaultTimeout s
  | .masterTimeTimeout => Sys2Proof.Machine.execMasterTimeTimeout s
  | .nirairPortDown port => Sys2Proof.Machine.execNirairPortDown port s
  | .hello head uid place site status check => Sys2Proof.Machine.execHello head uid place site status check s
  | .twinMarker frame epoch lag => Sys2Proof.Machine.execTwinMarker frame epoch lag s
  | .twinDelta head body check => Sys2Proof.Machine.execTwinDelta head body check s
  | .sole frame => Sys2Proof.Machine.execSole frame s
  | .twinPresenceLost => Sys2Proof.Machine.execTwinPresenceLost s
  | .twinWindowEnd => Sys2Proof.Machine.execTwinWindowEnd s
  | .load p => Sys2Proof.Machine.execLoad p s
  | .loadReset p => Sys2Proof.Machine.execLoadReset p s
  | .configReset => Sys2Proof.Machine.execConfigReset s
  | .loadTakesEffect => Sys2Proof.Machine.execLoadTakesEffect s
  | .flashRead p => Sys2Proof.Machine.execFlashRead p s
  | .flashProgram p => Sys2Proof.Machine.execFlashProgram p s
  | .flashErase p => Sys2Proof.Machine.execFlashErase p s
  | .flashCmdDone failed => Sys2Proof.Machine.execFlashCmdDone failed s
  | .powerOn p dom => Sys2Proof.Machine.execPowerOn p dom s
  | .powerOff p dom => Sys2Proof.Machine.execPowerOff p dom s
  | .domainDrainDone d => Sys2Proof.Machine.execDomainDrainDone d s
  | .domainOffDone d => Sys2Proof.Machine.execDomainOffDone d s
  | .domainOnDone d => Sys2Proof.Machine.execDomainOnDone d s
  | .panelReq p win => Sys2Proof.Machine.execPanelReq p win s
  | .panelUpdateStart => Sys2Proof.Machine.execPanelUpdateStart s
  | .panelUpdateDone => Sys2Proof.Machine.execPanelUpdateDone s
  | .panelFrameStart => Sys2Proof.Machine.execPanelFrameStart s
  | .panelVpnlLow => Sys2Proof.Machine.execPanelVpnlLow s
  | .panelVpnlOk => Sys2Proof.Machine.execPanelVpnlOk s
  | .crackMeasure ohms => Sys2Proof.Machine.execCrackMeasure ohms s
  | .read addr words hcrc => Sys2Proof.Machine.execRead addr words hcrc s
  | .write addr words hcrc data dcrc => Sys2Proof.Machine.execWrite addr words hcrc data dcrc s
  | .readFixed addr words hcrc => Sys2Proof.Machine.execReadFixed addr words hcrc s
  | .writeFixed addr words hcrc data dcrc => Sys2Proof.Machine.execWriteFixed addr words hcrc data dcrc s
  | .frameAbandoned stage => Sys2Proof.Machine.execFrameAbandoned stage s
  | .registerWrite p addr v => Sys2Proof.Machine.execRegisterWrite p addr v s
  | .tamperConditionEnd srcs => Sys2Proof.Machine.execTamperConditionEnd srcs s
  | .excOpenEnd k => Sys2Proof.Machine.execExcOpenEnd k s
  | .nirairSymbolLock port => Sys2Proof.Machine.execNirairSymbolLock port s

end Sys2Proof.Machine
end

