-- ==== Sys2Proof/Machine/Step.lean ====
section
/-!
DEFINITION. One step of the block: the command at the front of the queue runs with the rest of the queue; on an empty queue
one millisecond of the LG clock passes and nothing else happens.
-/

namespace Sys2Proof.Machine

/-- The machine with a command put at the front of its queue. -/
def State.withCommand (s : State) (c : Instr) : State := { s with pending := c :: s.pending }

/-- The state with the command a table word spells put at the front of the queue; the table gives no word (no bits). -/
def State.withFetchWord (s : State) (nbits w : Nat) : State :=
  match Sys2Proof.decodeTableWord nbits w with
  | some c => s.withCommand c
  | none => s

/-- Take the command at the front of the queue and run it with the queue's rest. DESIGN CHOICE: on an empty queue a
millisecond passes (notes/assumptions/1.md). -/
def step (s : State) : Host.Outcome State Fault Refusal :=
  match s.pending with
  | [] => .next { s with now := s.now + 1 }
  | c :: rest => exec c { s with pending := rest }

end Sys2Proof.Machine
end

