-- ==== Sys2Proof/Safety.lean ====
section
/-!
DEFINITION. What claims say of a run and of a frame: a run that stops nowhere; the register words a command may write; a
state in which nothing but some register words has changed; and the canonical form every step keeps.
-/

namespace Sys2Proof

/-- A run of `n` steps that stops nowhere. -/
def SafeRun (n : Nat) (s : Machine.State) : Prop := ∃ t, core.run n s = .next t

namespace Machine

/-- Every register word outside a list of addresses reads as before. -/
def State.keepsWords (s t : State) (l : List Nat) : Prop := ∀ a, a ∉ l → t.word a = s.word a

/-- Nothing but register words differs, and of those only words of a list of addresses. -/
def State.onlyWords (s t : State) (l : List Nat) : Prop := t = { s with regs := t.regs } ∧ s.keepsWords t l

/-- The canonical form of the device's addressed stores: addresses strictly rising, and no entry equal to what an unlisted
address reads as; and between two commands no event is half offered to the intake (R242). -/
structure State.Canonical (s : State) : Prop where
  regs : storeWf resetWord s.regs
  spi : storeWf resetWord s.spi.regs
  drega : storeWf resetWord s.drega.regs
  flash : storeWf erasedAt s.flash.cells
  gather : s.rcd.gather = none

/-- Both copies of the ledger area are in use (R220, R237). -/
def State.twoCopies (s : State) : Prop := copyFailed s.str 0 0 = false ∧ copyFailed s.str 0 1 = false

/-- The ledger can commit a transaction of a command whatever bank fails on the way (R237, R464): its area works in both
copies, nothing is frozen, no warning is in force, and no transaction waits before it. -/
def State.canCommit (s : State) : Prop := s.ledgerOk = true ∧ s.twoCopies ∧ s.core.warned = false ∧ s.led.queue = []

/-- What a core reset loses and keeps (R14, R382): every register word but those of Bedrock and the sticky tamper flags takes
its reset value; the ledger's working state, the paths with their sessions, nonces and authorisations, and the recorder's
intake are empty; Strata stays but for a write that is cut short; the fuses and (without an RTC halt, without a flash write
in progress) Bedrock and the flash stay. -/
def State.coreLost (s t : State) (written : List Nat) : Prop :=
  (∀ a, keptWord a = false → a ∉ written → t.word a = resetWord a) ∧
  (s.halted = false → (∀ a, keptWord a = true → t.word a = s.word a) ∧ t.bk.lock = s.bk.lock ∧ t.bk.held = s.bk.held) ∧
  t.led = {} ∧ t.spi = {} ∧ t.drega = {} ∧ t.rcd = {} ∧ t.sec = {} ∧ t.gar = {} ∧ t.pwr = {} ∧
  t.str = s.strCut ∧ t.fuses = s.fuses ∧ t.now = s.now ∧ t.tmp.cond = s.tmp.cond ∧
  ((∀ j, s.ldr.flash = some j → j.cmd = 1) → t.flash = s.flash)

end Machine
end Sys2Proof
end

