-- ==== Sys2Proof/WellFormed.lean ====
section
/-!
DEFINITION. The commands whose operands have the form the spec gives them: the sample lists of a lane output sample.
-/

namespace Sys2Proof

/-- Whether a lane sample has 76 lanes of 32 conversions (R49, R50). -/
def Instr.wellFormed : Instr → Bool
  | .laneOutputSample conv => conv.length == 76 && conv.all fun l => l.length == 32
  | _ => true

end Sys2Proof
end

