-- ==== Sys2Proof/Certificates/Slice0/Obligations.lean ====
section
/-!
DEFINITION. The statements for the provers, from the numbered rules of the spec: the queue and reset; supply, resets and the
start; the ledger and Strata; Bedrock; tamper; the recorder; security; acquisition, calibration and metrology; the auxiliary
block; faults; the network; the ring and the twin; configuration, domains and panel; the host port; the whole machine.
-/

open Sys2Proof Sys2Proof.Machine

/-! ### The queue and the state after reset -/

/-- A step runs the command at the front of the queue on the state with the queue's rest, and answers its outcome; on an
empty queue a millisecond passes (notes/assumptions/1.md: the model's choice). Every command completes: exec answers a next state
on each of the 188 constructors of Instr, where the
conversions of a lane sample and of a scan have the form the spec gives them: no other is refused or faults. -/
def Obligations.StepRunsFront : Prop :=
  (∀ (c : Instr) (rest : List Instr) (s : State), s.pending = c :: rest → step s = exec c { s with pending := rest }) ∧
  (∀ s : State, s.pending = [] → step s = .next { s with now := s.now + 1 }) ∧
  (∀ (c : Instr) (s : State), c.wellFormed = true →
    (∀ conv, c = .scanComplete conv → s.axState = axScan → (s.scanRuns s.aux.plan s.aux.lastGain
      (conv.zipIdx.map fun (x : AuxConv × Nat) => (s.aux.takenAt + 1 + s.aux.settle + x.2, x.1))).isSome = true) →
    ∃ t, exec c s = .next t)

/-- The state after reset: the core in reset, every register word at its reset value (R14), an empty ledger and Strata, no
session, no command; among the values the spec gives, the RTC's first date, BKP_LOST, Flint UNLOCKED and START. The formatted
Strata without contents and the erased flash are the model's choice (notes/assumptions/10.md, 12.md). Its stores have the
canonical form. -/
def Obligations.ResetState : Prop :=
  State.reset.pending = [] ∧ State.reset.core.running = false ∧ (∀ a, State.reset.word a = resetWord a) ∧
  State.reset.rd Fld.RTC_YEAR_VALUE = 2000 ∧ State.reset.rd Fld.RTC_MONTH_VALUE = 1 ∧ State.reset.rd Fld.RTC_DAY_VALUE = 1 ∧
  State.reset.rd Fld.RTC_WDAY_WDAY = 6 ∧ State.reset.flag Fld.BK_STATUS_BKP_LOST = true ∧
  State.reset.rd Fld.BK_STATUS_SUPPLY = 0xC3 ∧ State.reset.flint = flUnlocked ∧ State.reset.chip = chipStart ∧
  State.reset.rd Fld.STR_STATUS_STATE = 1 ∧ State.reset.spi.session = none ∧ State.reset.drega.session = none ∧
  State.reset.str = {} ∧ State.reset.flash.cells = [] ∧ State.reset.Canonical

/-- Every step keeps the canonical form of the register space, the path-local registers and the flash, and leaves no event
half offered to the intake. -/
def Obligations.StepKeepsCanonical : Prop := ∀ s t : State, s.Canonical → step s = .next t → t.Canonical

/-! ### Supply, resets and the start -/

/-- POWER_GOOD releases the core: the straps are sampled, the cause is latched (POWER becomes BKP_POR after a Bedrock
power-on reset), and Strata, the flash and Bedrock's registers stay. -/
def Obligations.PowerGoodReleases : Prop :=
  ∀ (s : State) (csc twn : Bool), s.core.running = false →
    ∃ t, exec (.powerGood csc twn) s = .next t ∧ t.core = { s.core with running := true } ∧
      t.rd Fld.CFG_RESET_CAUSE = (if s.core.cause = 1 ∧ s.bk.por = true then 2 else s.core.cause % 16) ∧
      t.flag Fld.CFG_STRAP_CSC_ROLE = csc ∧ t.flag Fld.CFG_STRAP_TWN_ROLE = twn ∧ t.flag Fld.PWR_MON_VMAIN_HIGH = true ∧
      t.bk = { s.bk with por := false } ∧ t.str = s.str ∧ t.flash = s.flash ∧ t.led = s.led ∧ t.spi = s.spi ∧
      s.keepsWords t [Adr.CFG_RESET, Adr.PWR_MON, Adr.CFG_STRAP, Adr.CSC_STATUS, Adr.TWN_STATUS]

/-- The resets that hold the core in reset (R382): a brownout, of cause POWER, and RST_N while the core runs, of cause PIN.
The resets the device makes by itself: after FROZEN for AUTO_RESTART_S (cause FREEZE), after a warning (WARN), for a
LOAD_RESET (CONFIG). The core is released at once with the straps it had. -/
def Obligations.Resets : Prop :=
  ((∀ s : State, ∃ t, exec .brownout s = .next t ∧ t.core = { cause := 1 } ∧
     s.coreLost t [Adr.TMP_ACTIVE, Adr.SYS_TIME]) ∧
   (∀ s : State, s.core.running = true → ∃ t, exec .rstNAssert s = .next t ∧ t.core = { cause := 3 } ∧
     s.coreLost t [Adr.TMP_ACTIVE, Adr.SYS_TIME])) ∧
  (∀ s : State,
     let w := [Adr.TMP_ACTIVE, Adr.SYS_TIME, Adr.CFG_RESET, Adr.PWR_MON, Adr.CFG_STRAP, Adr.CSC_STATUS, Adr.TWN_STATUS]
     let done (u t : State) (cause : Nat) : Prop := t.core = { cause, running := true } ∧ t.rd Fld.CFG_RESET_CAUSE = cause ∧
       t.flag Fld.CFG_STRAP_CSC_ROLE = s.flag Fld.CFG_STRAP_CSC_ROLE ∧
       t.flag Fld.CFG_STRAP_TWN_ROLE = s.flag Fld.CFG_STRAP_TWN_ROLE ∧ u.coreLost t w
     (s.core.running = true → s.chip = chipFrozen → s.rd Fld.SYS_ESC_CTRL_AUTO_RESTART_S ≠ 0 →
       ∃ t, exec .autoRestart s = .next t ∧
         done (s.until (s.esc.frozenAt.elim 0 (· + 1000 * s.rd Fld.SYS_ESC_CTRL_AUTO_RESTART_S))) t 4) ∧
     (s.core.warned = true → ∃ t, exec .warnReset s = .next t ∧ done s t 5) ∧
     (s.ldr.resetDue = true → ∃ t, exec .configReset s = .next t ∧ done s t 6))

/-- At a power-fail warning PWR_MON.WARN sets, the event intake closes, sessions end, nonces lapse, and pending and armed
authorisations are discarded; Strata and the flash stay (R384). The final transaction (R215): after the cut-off nothing
waits and no quantum is left; with no boundary and nothing else waiting, and both copies of the ledger area in use, one
transaction commits. -/
def Obligations.PowerFail : Prop :=
  (∀ s : State, s.core.running = true → s.core.warned = false →
     ∃ t, exec .powerFailWarning s = .next t ∧ t.core.warned = true ∧ t.flag Fld.PWR_MON_WARN = true ∧
       t.rcd.closed = true ∧ t.spi.session = none ∧ t.drega.session = none ∧ t.spi.nonces = [] ∧ t.drega.nonces = [] ∧
       t.spi.armed = [] ∧ t.drega.armed = [] ∧ t.sec.dual = none ∧ t.led.compacting = none ∧ t.halted = false ∧
       t.str = s.str ∧ t.flash = s.flash) ∧
  (∀ s : State, s.core.warned = true → s.led.cutOffDone = false → s.ledgerOk = true →
     ∃ t, exec .finalCutoff s = .next t ∧ t.led.cutOffDone = true ∧ t.led.queue = [] ∧ t.led.quanta = [] ∧
       t.led.bounds = [] ∧ t.flag Fld.LED_STATUS_POWERDOWN = false ∧
       (s.led.bounds = [] → s.led.queue = [] → s.twoCopies → t.str.tseq = s.str.tseq + 1))

/-- PLL_LOCK begins recovery and the choice of a slot (R389, R390, R399): without a flash of at least 16 MiB the start ends
in LOAD_FAILED; else the first candidate whose header passes is read. -/
def Obligations.PllLockChoosesSlot : Prop :=
  ∀ s : State, s.core.running = true → s.core.pll = false →
    (s.flash.sfdp.all (fun x => x.1 < 4) = true →
      ∃ t, exec .pllLock s = .next t ∧ t.core.pll = true ∧ t.chip = chipLoadFailed ∧ t.ldr.cur = none) ∧
    (∀ size mode n ns, s.flash.sfdp = some (size, mode) → 4 ≤ size → s.slotOrder = n :: ns →
      ∃ t, exec .pllLock s = .next t ∧ t.core = { s.core with pll := true } ∧
        t.ldr = { s.ldr with cur := some { slot := n }, rest := ns } ∧ t.loader = ldRead ∧
        t.rd Fld.CFG_FLASH_SIZE = size % 16 ∧
        s.keepsWords t [Adr.CFG_FLASH, Adr.CFG_SLOT0, Adr.CFG_SLOT1, Adr.CFG_STATUS])

/-- A candidate that has been read is tested at a start. One that fails a test reports its RESULT, and the loader reads the
next candidate, or with none left ends the start in LOAD_FAILED. One that passes is accepted; an update, a fallback and a
first commissioning commit the loader transaction, a normal start commits none (R398 to R401, R409). IMAGE_APPLY at a start,
where the ledger can commit (R302, R386): STATE becomes PROVISIONAL, the tamper responses are in force, the patches of the
image are loaded, no image waits any more, and the tamper test run begins. -/
def Obligations.ImageTestedAndApplied : Prop :=
  ((∀ s : State, s.ldr.cur.isSome = true → s.loader = ldRead →
     ∃ t, exec .candidateReadComplete s = .next t ∧ t.loader = ldVerify ∧ s.onlyWords t [Adr.CFG_STATUS]) ∧
   (∀ (s : State) (l : Load) (n : Nat) (ns : List Nat) (x : Nat × Nat), s.ldr.cur = some l → s.loader = ldVerify →
     s.led.recovered = true → l.live = false → s.ldr.rest = n :: ns → s.verify l = .inl x →
       ∃ t, exec .imageVerify s = .next t ∧ t.ldr = { s.ldr with cur := some { slot := n }, rest := ns } ∧
         t.loader = ldRead ∧ t.chip = s.chip ∧ t.rd Fld.CFG_LOAD_STAT_RESULT = x.1 % 16 ∧ t.str = s.str ∧ t.flash = s.flash) ∧
   (∀ (s : State) (l : Load), s.ldr.cur = some l → s.loader = ldVerify → l.live = false → l.reset = false → s.ldr.rest = [] →
     s.canCommit →
       ∃ t, exec .imageVerify s = .next t ∧ t.ldr.cur = none ∧ t.flash = s.flash ∧
         match s.verify l with
         | .inl (r, _) => t.chip = chipLoadFailed ∧ t.rd Fld.CFG_LOAD_STAT_RESULT = r % 16 ∧ t.str = s.str
         | .inr im => t.ldr.accepted = some im ∧ t.loader = ldApply ∧ t.rd Fld.CFG_LOAD_STAT_RESULT = lrAccepted ∧
             t.chip = s.chip ∧ (loadKind s.led.com.st im = 0 → t.str = s.str) ∧
             (loadKind s.led.com.st im ≠ 0 → t.str.tseq = s.str.tseq + 1 ∧ t.led.com.st.imageGen = im.gen))) ∧
  (∀ (s : State) (im : Image), s.ldr.accepted = some im → s.core.loaded = false → s.chip = chipStart → s.canCommit →
     ∃ t, exec .imageApply s = .next t ∧ t.core.loaded = true ∧ t.chip = chipProvisional ∧ t.loader = ldIdle ∧
       t.ldr.accepted = none ∧ t.ldr.patches = im.patches ∧ t.tmp.responsesOn = true ∧ t.tmp.testRun.isSome = true ∧
       t.flash = s.flash)

/-- The tamper test runs (R300, R301): each monitor has its window in turn, one that does not respond is marked failed, and
the run of a start makes the device ready; a periodic run starts when its period has passed. -/
def Obligations.TamperTestRun : Prop :=
  (∀ (s : State) (m : Nat) (periodic ok : Bool), s.tmp.testRun = some (m, periodic) → m < 15 →
    ∃ t, exec (.tamperTestWindowEnd ok) s = .next t ∧ t.tmp.testRun = some (s.nextMonitor (m + 1), periodic) ∧
      (ok = false → t.rd Fld.TMP_TEST_FAIL / 2 ^ m % 2 = 1) ∧ t.flash = s.flash) ∧
  (∀ (s : State) (periodic : Bool), s.tmp.testRun = some (15, periodic) →
    ∃ t, exec .tamperTestComplete s = .next t ∧ t.tmp.testRun = none ∧ t.flag Fld.TMP_STATUS_TEST_RUN = false ∧
      t.rd Fld.TMP_TEST_RUNS = min (s.rd Fld.TMP_TEST_RUNS + 1) 0xFFFF ∧ t.core.ready = (!periodic || s.core.ready)) ∧
  (∀ s : State, s.core.running = true → s.core.ready = true → s.tmp.testRun = none →
    s.testDue = true →
    ∃ t, exec .tamperTestPeriodic s = .next t ∧
      t.tmp = { s.tmp with testRun := some (s.nextMonitor 0, true), testedAt := s.opsec } ∧
      t.flag Fld.TMP_STATUS_TEST_RUN = true ∧ t.rd Fld.TMP_TEST_FAIL = 0 ∧ s.keepsWords t [Adr.TMP_TEST, Adr.TMP_STATUS])

/-- ACQUISITION_START powers the default domains and begins sampling (R386, R405). -/
def Obligations.AcquisitionStarts : Prop :=
  ∀ s : State, s.core.ready = true → s.core.warned = false → s.chip = chipProvisional → s.flag Fld.AQ_STATUS_RUN = false →
    ∃ t, exec .acquisitionStart s = .next t ∧ t.flag Fld.AQ_STATUS_RUN = true ∧ t.core.tickEpoch = 0 ∧ t.core.ticks = 0 ∧
      t.epoch = 0 ∧ t.pipe = pipeCollect ∧ t.rd Fld.PWR_ON_ON = s.defaultDomains % 2 ^ 17 ∧
      t.rd Fld.MT_XREF_RATE = s.rd Fld.MT_XREF_TRIM_TRIM ∧ t.str = s.str ∧ t.flash = s.flash

/-! ### The ledger and Strata -/

/-- The quantum at the head of those posted reaches the ledger, and counts as late when its tick's fold window has closed
(R192); while the ledger is frozen it is discarded (R43), and after the cut-off of a power loss it is lost and counted
(R215). The fold window of the oldest boundary closes: its tick takes the quanta that ended before the boundary, and its
transactions wait behind those that waited before, numbered from the last committed TSEQ; nothing has committed yet (R192,
R193, R464). The outage processing of a start (R216): when a source gives a time after the last close, its transactions, if
it has any, wait behind those that waited before, and it does not happen again. -/
def Obligations.QuantaReachTheLedger : Prop :=
  (∀ (s : State) (k : Quantum) (ks : List Quantum), s.led.posted = k :: ks →
     (s.led.frozen = false → s.led.cutOffDone = false →
       ∃ t, exec .quantum s = .next t ∧ t.led = { s.led with posted := ks, quanta := s.led.quanta ++ [k] } ∧
         t.rd Fld.LED_LATE_LATE = (if k.endEpoch < s.led.closedEpoch then min (s.rd Fld.LED_LATE_LATE + 1) 0xFFFF
           else s.rd Fld.LED_LATE_LATE) ∧
         s.keepsWords t [Adr.LED_LATE] ∧ t.str = s.str ∧ t.met = s.met) ∧
     (s.led.frozen = true → exec .quantum s = .next { s with led := { s.led with posted := ks } }) ∧
     (s.led.frozen = false → s.led.cutOffDone = true →
       ∃ t, exec .quantum s = .next t ∧ t.led = { s.led with posted := ks } ∧
         t.rd Fld.LED_LATE_LOST = min (s.rd Fld.LED_LATE_LOST + 1) 0xFFFF ∧ s.keepsWords t [Adr.LED_LATE] ∧ t.str = s.str)) ∧
  (∀ (s : State) (b : Boundary) (bs : List Boundary), s.ledgerOk = true → s.core.warned = false → s.led.bounds = b :: bs →
     ∃ t, exec .foldWindowClose s = .next t ∧ t.led.bounds = bs ∧ t.led.closedEpoch = b.epoch ∧
       s.renumber s.led.queue <+: t.led.queue ∧ s.led.queue.length < t.led.queue.length ∧
       t.led.com = s.led.com ∧ t.led.live = s.led.live ∧
       t.led.quanta = s.led.quanta.filter (fun k => !(k.endEpoch < b.epoch)) ∧ t.str = s.str ∧ t.flash = s.flash) ∧
  ((∀ (s : State) (a src ms : Nat), s.ledgerOk = true → s.core.warned = false → s.led.outageFrom = some a →
     s.sourceNow = (src, some ms) → s.nextImage.st.lastClosed < ms / 1000 →
       ∃ t, exec .outageProcessing s = .next t ∧ t.led.outageFrom = none ∧
         (t.led.queue = s.led.queue ∨ s.renumber s.led.queue <+: t.led.queue) ∧
         t.led.com = s.led.com ∧ t.str = s.str ∧ t.flash = s.flash) ∧
   (∀ s : State, s.led.outageFrom = none → exec .outageProcessing s = .next s))

/-- LED_CMD (R7, R209, R213): a closure is asked for at the next tick; ACCEPT_STEP asks for the withheld step and uses up its
authorisation; REJECT_STEP commits without the step. Without a session nothing changes. -/
def Obligations.LedgerCommands : Prop :=
  ∀ (s : State) (p : Path), s.core.running = true →
    (∀ x, s.gate p (roleSupplier + roleReceiver) false = .pass x →
      ∃ t, exec (.billingClose p) s = .next t ∧ t.rd Fld.LED_CMD_RESULT = 1 ∧
        t.led = { s.led with billReq := true, billRoles := x.role, billKeys := keysOne x.key } ∧
        s.keepsWords t [Adr.LED_CMD] ∧ t.str = s.str) ∧
    (∀ a, s.gateDual p 0x0021 (beBytes 4 (s.rd Fld.LED_STEP_STEP)) = .pass a → s.flag Fld.LED_STATUS_STEP_HELD = true →
      ∃ t, exec (.acceptStep p) s = .next t ∧ t.rd Fld.LED_CMD_RESULT = 1 ∧
        t.led = { s.led with stepReq := some (a.roles, a.keys) } ∧
        (t.path p).armed = (s.path p).armed.filter (fun a => a.cmd ≠ 0x0021) ∧
        s.keepsWords t [Adr.LED_CMD] ∧ t.str = s.str) ∧
    (∀ x, s.gate p (roleSupplier + roleReceiver) true = .pass x → s.flag Fld.LED_STATUS_STEP_HELD = true → s.canCommit →
      ∃ t, exec (.rejectStep p) s = .next t ∧ t.rd Fld.LED_CMD_RESULT = 1 ∧ t.led.com.st.stepHeld = none ∧
        t.led.com.st.aseq = s.led.com.st.aseq + 1 ∧ t.led.com.slots = s.led.com.slots ∧ t.str.tseq = s.str.tseq + 1) ∧
    (s.session p = none → exec (.billingClose p) s = .next s)

/-- The passive calendar's write sequence (R201): opening clears the buffer, a write fills the word selected, committing makes
a valid buffer the pending calendar, aborting discards the buffer, cancelling removes the pending calendar. -/
def Obligations.CalendarSequence : Prop :=
  ∀ (s : State) (p : Path), s.core.running = true →
    (∀ x, s.gate p (roleSupplier + roleReceiver) true = .pass x →
      ∃ t, exec (.psvOpen p) s = .next t ∧ t.led = { s.led with psvOpen := some p, psvBuf := List.replicate 353 0 } ∧
        t.rd Fld.TAR_CMD_RESULT = 1 ∧ t.rd Fld.TAR_CAL_SEL_WORD = 0 ∧ s.keepsWords t [Adr.TAR_CMD, Adr.TAR_CAL_SEL]) ∧
    (∀ x data, s.gate p (roleSupplier + roleReceiver) false = .pass x → s.led.psvOpen.isSome = true →
      s.flag Fld.TAR_CAL_SEL_SLOT = true →
        ∃ t, exec (.tarCalDataWrite p data) s = .next t ∧
          t.led = { s.led with psvBuf := s.led.psvBuf.set (s.rd Fld.TAR_CAL_SEL_WORD) data } ∧
          s.keepsWords t [Adr.TAR_CAL_SEL]) ∧
    (∀ a, s.gateDual p 0x0030 (wordBytes (s.led.psvBuf.getD 0 0) ++ wordBytes (s.led.psvBuf.getD 352 0)) = .pass a →
      s.led.psvOpen.isSome = true → calendarOk s.led.psvBuf = true → s.canCommit →
        ∃ t, exec (.psvCommit p) s = .next t ∧ t.led.com.psv = some s.led.psvBuf ∧ t.led.psvOpen = none ∧
          t.led.com.act = s.led.com.act ∧ t.rd Fld.TAR_CMD_RESULT = 1 ∧ t.str.tseq = s.str.tseq + 1) ∧
    (∀ x, s.gate p (roleSupplier + roleReceiver) false = .pass x → s.led.psvOpen.isSome = true →
      ∃ t, exec (.psvAbort p) s = .next t ∧ t.led = { s.led with psvOpen := none, psvBuf := [] } ∧
        t.rd Fld.TAR_CMD_RESULT = 1 ∧ s.keepsWords t [Adr.TAR_CMD]) ∧
    (∀ a c, s.nextImage.psv = some c → s.gateDual p 0x0031 (beBytes 4 (calId c)) = .pass a → s.canCommit →
      ∃ t, exec (.psvCancel p) s = .next t ∧ t.led.com.psv = none ∧ t.led.com.act = s.led.com.act ∧
        t.rd Fld.TAR_CMD_RESULT = 1)

/-- Reads that move on (R198, R207): TAR_CAL_DATA counts its word up to 352 and returns to 0, LED_LP_DATA counts the sixteen
words of an entry and moves to the next older one after the last. -/
def Obligations.IndexedReads : Prop :=
  ∀ (s : State) (p : Path), s.core.running = true →
    (∃ t, exec (.tarCalDataRead p) s = .next t ∧ s.onlyWords t [Adr.TAR_CAL_SEL] ∧
      t.rd Fld.TAR_CAL_SEL_WORD = (if s.rd Fld.TAR_CAL_SEL_WORD = 352 then 0 else (s.rd Fld.TAR_CAL_SEL_WORD + 1) % 512)) ∧
    (∃ t, exec (.ledLpDataRead p) s = .next t ∧ t.led = { s.led with lpReads := (s.led.lpReads + 1) % 16 } ∧
      t.rd Fld.LED_LP_SEL_AGE = (if s.led.lpReads = 15 then (s.rd Fld.LED_LP_SEL_AGE + 1) % 2 ^ 32
        else s.rd Fld.LED_LP_SEL_AGE) ∧
      s.keepsWords t [Adr.LED_LP_SEL] ∧ t.str = s.str)

/-- COMMIT_COMPLETE (R226, R227, R464): the transaction at the head takes the next TSEQ, enters the journal with a commit record
that agrees with it, and its entries become the committed image; the current base stays. An UNLOCK that follows LOCK_ENGAGE at
once commits with it and is not meant here (R294). -/
def Obligations.CommitTakesNextTseq : Prop :=
  ∀ (s : State) (us : BitVec 16) (x : Txn) (xs : List Txn), s.core.running = true → s.led.queue = x :: xs →
    areaDead s.str 0 = false → snapPending s.led.copies = false →
    (x.act = .lockEngage → s.sec.unlockDeferred = none) →
      ∃ t j, exec (.commitComplete us []) s = .next t ∧ t.str.tseq = s.str.tseq + 1 ∧
        t.str.journal = s.str.journal ++ [j] ∧ j.tseq = s.str.tseq + 1 ∧ j.txn.kind = x.kind ∧ j.passes = true ∧
        t.led.com = applyTxn s.led.com j.txn ∧ t.led.queue = xs ∧ t.rd Fld.STR_TSEQ_TSEQ = (s.str.tseq + 1).toNat ∧
        t.str.base = s.str.base ∧ t.flash = s.flash

/-- The oldest post-commit copy reaches its home area (R228); the compaction that may then begin only opens the base that is
not current. A compaction, with no snapshot copy pending, makes its image the current base and frees the journal it covers
(R232, R233). A bank that fails while both copies of every area are in use, during a commit, is dropped: it is marked, and
the transaction commits in the copy that is left (R237). A corrected error is counted and drops nothing (R222). A failed
bank of the Audit Trail also asks for an entry (R264), which is not meant here. -/
def Obligations.CopiesAndBanks : Prop :=
  (∀ s : State, s.core.running = true →
     (∀ c cs, s.led.copies = c :: cs →
       ∃ t, exec (.postCommitCopyDone []) s = .next t ∧ t.led.copies = cs ∧
         t.str = (if s.led.compacting = none ∧ t.led.compacting ≠ none then (copyHome s.fuses.uid s.str c.entry).openBase
           else copyHome s.fuses.uid s.str c.entry) ∧
         t.led.com = s.led.com ∧ t.led.queue = s.led.queue) ∧
     (∀ q img, areaDead s.str 0 = false → snapPending s.led.copies = false → s.led.compacting = some (q, img) →
       ∃ t, exec (.compactionComplete []) s = .next t ∧ t.str.base = some img ∧ t.str.baseSeq = q ∧
         t.str.journal = s.str.journal.filter (fun j => (q - j.tseq).msb) ∧ t.str.tseq = s.str.tseq ∧
         t.led.com = s.led.com)) ∧
  (∀ (s : State) (us : BitVec 16) (f : BankFail) (x : Txn), s.core.running = true → s.led.queue = [x] → x.act = .tick false →
     s.str.failed = [] → snapPending s.led.copies = false →
       (f.cause ≠ 0 → f.bank.val < 14 →
         ∃ t, exec (.commitComplete us [f]) s = .next t ∧ t.str.failed = [f.bank] ∧ t.str.tseq = s.str.tseq + 1 ∧
           t.rd Fld.STR_BANKS_LAST_BANK = f.bank.val ∧ t.rd Fld.STR_BANKS_LAST_CAUSE = f.cause.toNat) ∧
       (f.cause = 0 →
         ∃ t, exec (.commitComplete us [f]) s = .next t ∧ t.str.failed = [] ∧ t.str.tseq = s.str.tseq + 1 ∧
           t.rd Fld.SYS_ESC_COUNT_CORRECTED = min (s.rd Fld.SYS_ESC_COUNT_CORRECTED + 1) 255))

/-- Recovery takes the newest base that passes in a copy whose header passes, replays on it the transactions of the scan, and
shows what it restored; the lock of either record is in force (R234, R293). With no base or no copy left the device goes FROZEN
(R236). -/
def Obligations.RecoveryReplays : Prop :=
  ∀ s : State, s.core.running = true → s.core.pll = true → s.rd Fld.STR_STATUS_STATE = 1 →
    (∀ x, s.baseFound s.headerFails = some x →
      let acc := (s.strFound s.headerFails).accepted x.2
      let l := acc.foldl (fun l j => applyTxn l j.txn) x.2.img
      ∃ t, exec (.recoveryComplete []) s = .next t ∧ t.led.recovered = true ∧ t.led.com.slots = l.slots ∧
        t.led.com.act = l.act ∧ t.led.com.psv = l.psv ∧ t.led.live = t.led.com ∧ t.str.journal = acc ∧
        t.str.tseq = lastSeq x.2 acc ∧
        t.rd Fld.STR_RECOVERY_RESULT = (s.strFound s.headerFails).recoveryResult x acc ∧
        (t.locked = true ↔ (l.st.lockFlag = true ∨ s.bk.lock = true))) ∧
    (s.baseFound s.headerFails = none →
      ∃ t, exec (.recoveryComplete []) s = .next t ∧ t.chip = chipFrozen ∧ t.rd Fld.STR_RECOVERY_RESULT = 4 ∧
        (s.chip ≠ chipFrozen → t.led.frozen = true))

/-- A lockstep mismatch of the ledger pair is contained in its block, a second within one second in its region; the third within
ten seconds fails the region and the device goes FROZEN with its ledger (R39, R43, R195). -/
def Obligations.LockstepMismatches : Prop :=
  ∀ s : State,
    (s.led.mismatches = [] →
      ∃ t, exec .lockstepMismatch s = .next t ∧ t.led = { s.led with mismatches := [s.now] } ∧ t.chip = s.chip ∧
        t.rd Fld.SYS_ESC_COUNT_BLOCK = min (s.rd Fld.SYS_ESC_COUNT_BLOCK + 1) 255) ∧
    (∀ a, s.led.mismatches = [a] → s.now ≤ a + 1000 →
      ∃ t, exec .lockstepMismatch s = .next t ∧ t.led = { s.led with mismatches := [a, s.now] } ∧ t.chip = s.chip ∧
        t.rd Fld.SYS_ESC_COUNT_REGION = min (s.rd Fld.SYS_ESC_COUNT_REGION + 1) 255) ∧
    (∀ a b, s.led.mismatches = [a, b] → s.now ≤ a + 10000 → s.now ≤ b + 10000 → s.chip ≠ chipFrozen →
      ∃ t, exec .lockstepMismatch s = .next t ∧ t.chip = chipFrozen ∧ t.led.frozen = true ∧ t.led.quanta = [] ∧
        t.flag Fld.SYS_ALERT_FROZEN = true)

/-! ### Bedrock -/

/-- The supply switch (R333, R346). VBAT is measured on the main supply, the next time 60 s after the one before: LOW sets
below 2200 mV, clears above 2300 mV, and is unchanged between; each setting raises VBAT_LOW, 0xB2 (R337). On the backup cell
nothing is measured. The Bedrock power-on reset (R334): the BK area takes its reset values with BKP_LOST set, the tamper
flags and the lock bit clear; the rest of the device keeps what it holds. -/
def Obligations.BedrockSupply : Prop :=
  ((∀ s : State, s.onBat = false → ∃ t, exec .supplyToBat s = .next t ∧ t.rd Fld.BK_STATUS_SUPPLY = 0x96 ∧
     t.rd Fld.BK_STATUS_SWITCHES = min (s.rd Fld.BK_STATUS_SWITCHES + 1) 0xFFFF ∧ s.onlyWords t [Adr.BK_STATUS]) ∧
   (∀ s : State, s.onBat = true → ∃ t, exec .supplyToMain s = .next t ∧ t.rd Fld.BK_STATUS_SUPPLY = 0xC3 ∧
     t.flag Fld.BK_STATUS_PWRON = (s.flag Fld.BK_STATUS_PWRON && s.rd Fld.BK_PWRON_CFG_MODE != 0) ∧
     s.onlyWords t [Adr.BK_STATUS])) ∧
  (∀ (s : State) (mv : BitVec 16),
     (s.onBat = false →
       ∃ t, exec (.vbatMeasure mv) s = .next t ∧ t.rd Fld.BK_VBAT_MV = mv.toNat ∧
         t.flag Fld.BK_STATUS_VBAT_LOW = (decide (mv.toNat < 2200) ||
           (s.flag Fld.BK_STATUS_VBAT_LOW && decide (mv.toNat ≤ 2300))) ∧
         (s.flag Fld.BK_STATUS_VBAT_LOW = true ∨ 2200 ≤ mv.toNat → t.rcd = s.rcd) ∧
         (s.flag Fld.BK_STATUS_VBAT_LOW = false → mv.toNat < 2200 → s.core.running = true → s.rcd.closed = false →
           s.recDead = false → s.rcd.queue.length < 64 → s.hasToken 0xB2 = true → s.rcd.gather = none →
             ∃ e, t.rcd.queue = s.rcd.queue ++ [e] ∧ e.code = 0xB2 ∧ e.payload = beBytes 2 mv.toNat) ∧
         t.now = max s.now (s.bk.vbatAt.elim 0 (· + 60000)) ∧ t.bk = { s.bk with vbatAt := some t.now } ∧
         t.str = s.str ∧ t.led = s.led ∧ t.flash = s.flash) ∧
     (s.onBat = true → exec (.vbatMeasure mv) s = .next s)) ∧
  (∀ s : State, ∃ t, exec .bedrockPor s = .next t ∧ t.bk = {} ∧ t.flag Fld.BK_STATUS_BKP_LOST = true ∧
     (∀ a, 0xA00000 ≤ a → a < 0xB00000 → t.word a = resetWord a) ∧ t.rd Fld.TMP_STICKY_ALL = 0 ∧
     t.rd Fld.TMP_LIGHT_SENSOR = 0 ∧ t.rd Fld.TMP_PENDING_PEND = 0 ∧ t.flag Fld.SYS_TIME_RTC_VALID = false ∧
     t.str = s.str ∧ t.flash = s.flash ∧ t.led = s.led ∧ t.core = s.core ∧ t.spi = s.spi)

/-- One roll-over of the prescaler (R338, R340): the calendar advances by a second; during a halt it stands and HALT_S
counts. -/
def Obligations.RtcSecond : Prop :=
  ∀ s : State,
    (s.halted = false → s.rtcFields + 1 < rtcEnd →
      ∃ t, exec .rtcSecond s = .next t ∧ t.rd Fld.RTC_SEC_VALUE = (s.rtcFields + 1) % 60 ∧
        t.rd Fld.RTC_MIN_VALUE = (s.rtcFields + 1) / 60 % 60 ∧ t.rd Fld.RTC_HOUR_VALUE = (s.rtcFields + 1) / 3600 % 24 ∧
        t.bk.secAt = s.now ∧ t.str = s.str ∧ t.led = s.led) ∧
    (s.halted = true → s.rd Fld.RTC_HALT_HALT_S < 255 →
      ∃ t, exec .rtcSecond s = .next t ∧ t.rd Fld.RTC_HALT_HALT_S = s.rd Fld.RTC_HALT_HALT_S + 1 ∧
        t.rtcFields = s.rtcFields ∧ t.halted = true ∧ t.bk = s.bk.rollOver s.now ∧ s.keepsWords t [Adr.RTC_HALT])

/-- Setting the RTC by hand (R340, R341): HALT freezes it and clears the counters; a field written is held; the load that
passes its tests commits, ends the halt and shows RESULT 1; one refused ends it with its code. CLR_BKP_LOST in a SERVICE
session commits its entry and clears BKP_LOST (R335). -/
def Obligations.BedrockCommands : Prop :=
  (∀ (s : State) (p : Path) (x : Session), s.core.running = true → s.session p = some x →
     (s.halted = false →
       ∃ t, exec (.halt p) s = .next t ∧ t.halted = true ∧ t.rd Fld.RTC_HALT_HALT_S = 0 ∧ t.rd Fld.RTC_HALT_PEND = 0 ∧
         t.bk = { s.bk with haltBy := some p, held := [] } ∧ s.keepsWords t [Adr.RTC_CTRL, Adr.RTC_HALT] ∧ t.str = s.str) ∧
     (∀ (r : Fin 8) (v : Word), s.halted = true → r.val ≠ 0 → r.val ≠ 4 →
       ∃ t, exec (.rtcFieldWrite p r v) s = .next t ∧ t.bk.held.lookup r.val = some (v.toNat % 2 ^ 16) ∧
         (∀ i, i ≠ r.val → t.bk.held.lookup i = s.bk.held.lookup i) ∧ s.keepsWords t [Adr.RTC_HALT]) ∧
     (∀ a, s.halted = true → s.setTest p x = .inr a → s.canCommit → s.setSeconds + s.rd Fld.RTC_HALT_PEND < rtcEnd →
       ∃ t, exec (.rtcLoad p) s = .next t ∧ t.halted = false ∧ t.flag Fld.RTC_CTRL_SET = true ∧
         t.rd Fld.RTC_CTRL_RESULT = 1 ∧ t.rd Fld.RTC_SEC_VALUE = (s.setSeconds + s.rd Fld.RTC_HALT_PEND) % 60 ∧
         t.led.com.st.aseq = s.led.com.st.aseq + 1) ∧
     (∀ code, s.halted = true → s.setTest p x = .inl code → code < 16 →
       ∃ t, exec (.rtcLoad p) s = .next t ∧ t.halted = false ∧ t.rd Fld.RTC_CTRL_RESULT = code ∧ t.str = s.str ∧
         t.led = s.led)) ∧
  (∀ (s : State) (p : Path) (x : Session), s.core.running = true → s.gate p roleService true = .pass x → s.canCommit →
     ∃ t, exec (.clrBkpLost p) s = .next t ∧ t.flag Fld.BK_STATUS_BKP_LOST = false ∧ t.rd Fld.BK_CMD_RESULT = 1 ∧
       t.flag Fld.SYS_TIME_RTC_VALID = s.flag Fld.RTC_CTRL_SET ∧ t.led.com.st.aseq = s.led.com.st.aseq + 1 ∧
       t.str.tseq = s.str.tseq + 1 ∧ t.led.com.slots = s.led.com.slots)

/-- Reading the time (R339): the first read copies all eight registers into the path's shadows, the read of RTC_YEAR or the
end of 2 ms frees them; nothing else changes. The RTC is set by itself when it differs from ledger time by a second or more
(R343). PWRON ends TIMEOUT seconds, or in PULSE mode WIDTH × 10 ms, after it became active (R346). A trim window takes the
value of RTC_TRIM and leaves the prescaler's count as it is (R344). -/
def Obligations.RtcReadAndTimers : Prop :=
  (∀ (s : State) (p : Path),
     (∀ r : Fin 8, s.core.running = true → s.rtcHeld p = none → r.val ≠ 7 →
       exec (.rtcShadowRead p r) s =
         .next (s.setPath p { s.path p with rtcShadow := some (s.now, (List.range 8).map s.rtcLive) })) ∧
     (s.core.running = true →
       ∃ t, exec (.rtcShadowRead p 7) s = .next t ∧ t = s.setPath p { s.path p with rtcShadow := none }) ∧
     (∀ x, (s.path p).rtcShadow = some x →
       exec (.rtcShadowRelease p) s = .next ((s.until (x.1 + 2)).setPath p { s.path p with rtcShadow := none })) ∧
     ((s.path p).rtcShadow = none → exec (.rtcShadowRelease p) s = .next s)) ∧
  ((∀ s : State, s.rd Fld.SYS_TIME_TIME_SRC = 2 → s.halted = false → s.ledNowMs / 1000 < rtcEnd →
     1000 ≤ ((s.rtcMs : Int) - s.ledNowMs).natAbs →
       ∃ t, exec .rtcAutoSet s = .next t ∧ t.flag Fld.RTC_CTRL_SET = true ∧
         t.rd Fld.RTC_SEC_VALUE = s.ledNowMs / 1000 % 60 ∧ t.rd Fld.RTC_MIN_VALUE = s.ledNowMs / 1000 / 60 % 60 ∧
         t = { s with regs := t.regs }) ∧
   (∀ s : State, s.flag Fld.BK_STATUS_PWRON = true →
     ∃ t, exec .pwronTimeout s = .next t ∧ t.flag Fld.BK_STATUS_PWRON = false ∧
       (s.until (s.bk.pwronAt + if s.rd Fld.BK_PWRON_CFG_MODE = 0 then s.rd Fld.BK_PWRON_CFG_TIMEOUT * 1000
         else s.rd Fld.BK_PWRON_CFG_WIDTH * 10)).onlyWords t [Adr.BK_STATUS]) ∧
   (∀ s : State, ∃ t, exec .trimWindow s = .next t ∧ t = { s with bk := t.bk } ∧ t.bk.trim = s.word Adr.RTC_TRIM ∧
     t.bk.phase s.sinceRoll = s.bk.phase s.sinceRoll ∧ t.bk.secAt = s.bk.secAt))

/-! ### Tamper -/

/-- A tamper source other than FSM_ALARM whose condition begins on the running device, an enclosure pin at its alarm level
among them, is detected: its sticky flag is set and the detection counted; with LOCK in its response the lock engages, which
Bedrock keeps, and authorisations that LOCK refuses are discarded (R288, R289, R291, R295). A tamper condition that ends
shows in TMP_ACTIVE alone, with an enclosure pin back from its alarm level: sticky flags, the lock and the rest stay (R289).
-/
def Obligations.TamperSources : Prop :=
  (∀ (s : State) (c : Fin 33) (enc : BitVec 4), c.val < 32 → s.core.running = true → s.monitored c.val 0 = true →
     ({ s with tmp := { s.tmp with enc } } : State).encAlarm c.val = true → s.fused c.val = false →
     s.tmp.cond.all (fun x => x.val ≠ c.val) = true → s.underTest c.val = false →
       ∃ t, exec (.tamperDetection ⟨[c], enc⟩ 0 0) s = .next t ∧ t.rd Fld.TMP_STICKY_ALL / 2 ^ stickyBit c.val % 2 = 1 ∧
         t.rd Fld.TMP_STATUS_DETECT = min (s.rd Fld.TMP_STATUS_DETECT + 1) 0xFFFF ∧
         (s.tmp.responsesOn = true → s.response c.val / 4 % 2 = 1 → s.locked = false →
           t.locked = true ∧ t.bk.lock = true ∧ t.spi.armed.all (fun a => !lockRefuses a.cmd) = true) ∧
         t.str = s.str ∧ t.flash = s.flash) ∧
  (∀ (s : State) (c : Fin 33), ∃ t, exec (.tamperConditionEnd c) s = .next t ∧
     t = { s with regs := t.regs, tmp := { s.tmp with cond := s.tmp.cond.filter fun x => x.val ≠ c.val, enc := t.tmp.enc } } ∧
     s.keepsWords t [Adr.TMP_ACTIVE])

/-! ### The event intake, the Quality Recorder and the Audit Trail -/

/-- Offering an event (R241, R245): with a token and room it joins the queue and takes a token; at a full queue, or without
a token, it is counted as suppressed and counted in REC_INTAKE; after a warning nothing is queued or counted. A record is
written (R245, R251): the first events of the queue, six at most, leave it for a record under the next RSEQ; when the write
is done the record is in the ring and is the newest. -/
def Obligations.IntakeAndRecords : Prop :=
  (∀ (s : State) (code source : Nat) (payload : List Byte), s.core.running = true → s.recDead = false →
     s.rcd.gather = none →
     (s.rcd.closed = true → s.raise code source payload = s) ∧
     (s.rcd.closed = false → s.rcd.queue.length < 64 → s.hasToken code = true →
       (s.raise code source payload).rcd.queue = s.rcd.queue ++ [s.stamp code source payload] ∧
       (s.rd (Fld.REC_BUCKET_CAP code) ≠ 0xFF →
         storeGet zeroAt (s.raise code source payload).rcd.taken code = storeGet zeroAt s.rcd.taken code + 1)) ∧
     (s.rcd.closed = false → 64 ≤ s.rcd.queue.length →
       (s.raise code source payload).rcd.queue = s.rcd.queue ∧
       (s.raise code source payload).rd Fld.REC_INTAKE_FULL = min (s.rd Fld.REC_INTAKE_FULL + 1) 0xFFFF ∧
       storeGet zeroAt (s.raise code source payload).rcd.suppTotal code = min (storeGet zeroAt s.rcd.suppTotal code + 1) 0xFFFF) ∧
     (s.rcd.closed = false → s.rcd.queue.length < 64 → s.hasToken code = false →
       (s.raise code source payload).rcd.queue = s.rcd.queue ∧
       (s.raise code source payload).rd Fld.REC_INTAKE_BUCKET = min (s.rd Fld.REC_INTAKE_BUCKET + 1) 0xFFFF)) ∧
  (∀ s : State,
     (s.rcd.scanned = true → s.rcd.freezeStart = none → s.rcd.writing = none → s.recDead = false → s.rcd.closed = false →
       s.rcd.clear = none → s.rcd.periodic = [] → s.rcd.dueByTime = false → s.rcd.queue ≠ [] →
         ∃ t r, exec .recordWriteStart s = .next t ∧ t.rcd.writing = some r ∧ r.rseq = s.rcd.newest + 1 ∧ r.type = 1 ∧
           r.count = min s.rcd.queue.length 6 ∧ t.rcd.queue = s.rcd.queue.drop 6 ∧
           t.flag Fld.REC_STATUS_WRITING = true ∧ t.str = s.str) ∧
     (∀ r, s.rcd.writing = some r → s.recDead = false → areaDead s.str 3 = false →
       ∃ t, exec (.recordWriteDone []) s = .next t ∧ t.rcd.writing = none ∧ t.rcd.newest = r.rseq ∧
         t.str.recs.lookup (r.rseq.toNat % 2048) = some r ∧ t.rcd.queue = s.rcd.queue ∧ t.led = s.led ∧
         t.flag Fld.SYS_IRQ_STAT_RECORD = true))

/-- The events of the intake's clocks (R241, R244, R249): a bucket gains a token REFILL × 10 ms after the one before, a
SUPPRESSED record falls due 60 s after the first suppression, and at a multiple of PERIOD operating seconds a period's live
values become records and the next period begins; elsewhere it goes on. The recorder's start scan ends with POWER_UP at the
head of the queue; every record that passes in one copy is then in every copy in use (R252). -/
def Obligations.RecorderTimers : Prop :=
  ((∀ (s : State) (code : BitVec 8), ∃ t, exec (.bucketRefill code) s = .next t ∧
     storeGet zeroAt t.rcd.taken code.toNat = storeGet zeroAt s.rcd.taken code.toNat - 1 ∧
     (∀ k, k ≠ code.toNat → storeGet zeroAt t.rcd.taken k = storeGet zeroAt s.rcd.taken k) ∧
     t.now = max s.now ((s.rcd.refills.lookup code.toNat).getD s.resetAt + 10 * s.rd (Fld.REC_BUCKET_REFILL code.toNat)) ∧
     t.rcd.queue = s.rcd.queue ∧ s.keepsWords t [Adr.REC_STATUS]) ∧
   (∀ (s : State) (x : Nat × Nat), s.rcd.suppFirst = some x →
     ∃ t, exec .suppressedTimeout s = .next t ∧ t.rcd = { s.rcd with dueByTime := true } ∧
       t.now = max s.now (x.2 + 60000) ∧ s.keepsWords t [Adr.REC_STATUS]) ∧
   (∀ s : State, s.opsec % s.recPeriod = 0 → s.opsec ≠ s.rcd.periodStart →
     ∃ t, exec .recorderPeriodEnd s = .next t ∧ s.rcd.periodic <+: t.rcd.periodic ∧ t.rcd.bays = [] ∧
       t.rcd.periodStart = s.opsec ∧ t.rcd.shortPeriod = false ∧ t.rcd.queue = s.rcd.queue ∧ t.str = s.str) ∧
   (∀ s : State, s.opsec % s.recPeriod ≠ 0 → exec .recorderPeriodEnd s = .next s)) ∧
  (∀ s : State, s.rcd.scanned = false → s.core.running = true → s.led.recovered = true → s.rcd.closed = false →
     s.recDead = false → s.rcd.queue.length < 60 →
       ∃ t, exec .recorderScanDone s = .next t ∧ t.rcd.scanned = true ∧ t.flag Fld.REC_STATUS_READY = true ∧
         (t.rcd.queue.head?.map (·.code)) = some evPowerUp ∧ t.str.recs = s.str.recs ∧
         t.str = s.str.each 3 (fun c => { c with recs := s.str.recs }) ∧ t.led = s.led)

/-- A freeze (R255): in read mode, with the queue emptied since the last one, it begins; its release, or its timeout after
10 s, ends it and marks what was held back. A clear (R258): authorised, it commits REC_CLEAR with the newest RSEQ; clearing
the slots too frees the last-resort slots of Bedrock. -/
def Obligations.RecorderFreezeAndClear : Prop :=
  (∀ (s : State) (p : Path), s.core.running = true →
     (s.flag Fld.REC_CFG_READ_MODE = true → s.rcd.freezeStart = none → s.rcd.freezeEnd = none → s.rcd.emptySince = true →
       s.recDead = false →
         ∃ t, exec (.freeze p) s = .next t ∧ t.rcd = { s.rcd with freezeStart := some s.now } ∧
           t.flag Fld.REC_STATUS_FROZEN = true ∧ t.rd Fld.REC_RD_RESULT = 1 ∧
           s.keepsWords t [Adr.REC_STATUS, Adr.REC_RD]) ∧
     (∀ b, s.rcd.freezeStart = some b →
       (∃ t, exec (.release p) s = .next t ∧ t.rcd.freezeStart = none ∧ t.rcd.freezeEnd = some s.now ∧
         t.flag Fld.REC_STATUS_FROZEN = false ∧ t.rd Fld.REC_RD_RESULT = 1 ∧
         t.rcd.queue.all (·.held) = true ∧ t.rcd.queue.length = s.rcd.queue.length) ∧
       (∃ t, exec .freezeTimeout s = .next t ∧ t.rcd.freezeStart = none ∧ t.now = max s.now (b + 10000) ∧
         t.flag Fld.REC_STATUS_FROZEN = false ∧ t.rcd.queue.all (·.held) = true))) ∧
  (∀ (s : State) (p : Path) (a : Armed), s.core.running = true → s.gateDual p 0x0050 [] = .pass a → s.recDead = false →
     areaDead s.str 4 = false → s.rcd.clear = none → s.rcd.writing = none → s.rcd.freezeStart = none → s.canCommit →
       (∃ t, exec (.clear p) s = .next t ∧ t.rd Fld.REC_CMD_RESULT = 1 ∧
         t.rcd.clear = some { through := s.rcd.newest, slots := false } ∧ t.led.com.st.recThrough = s.rcd.newest ∧
         t.led.com.st.aseq = s.led.com.st.aseq + 1 ∧ t.rd Fld.BK_LR_STAT_OCCUPIED = s.rd Fld.BK_LR_STAT_OCCUPIED) ∧
       (∃ t, exec (.clearSlots p) s = .next t ∧ t.rd Fld.REC_CMD_RESULT = 1 ∧ t.rd Fld.BK_LR_STAT_OCCUPIED = 0 ∧
         t.rcd.clear = some { through := s.rcd.newest, slots := true }))

/-- Reading a record or an Audit Trail entry (R253, R259): the selection starts a load, which after recovery gives the path the
record's 64 words or the entry's 16, or GONE where it is not held; reading counts the words of the buffer and nothing else. -/
def Obligations.LogBuffers : Prop :=
  ∀ (s : State) (p : Path),
    (∀ q : Word, s.core.running = true →
      ∃ t, exec (.recSelLoad p q) s = .next t ∧ (t.path p).recLoad = some q ∧ (t.path p).recBuf = [] ∧
        t.rdP p Fld.REC_RD_STATUS = bufLoading ∧ t.rcd = s.rcd ∧ t.str = s.str) ∧
    (∀ q : Word, s.core.running = true →
      ∃ t, exec (.audSelLoad p q) s = .next t ∧ (t.path p).audLoad = some q ∧ (t.path p).audIdx = 0 ∧
        t.rdP p Fld.AUD_STATUS_STATUS = bufLoading ∧ t.str = s.str) ∧
    (∀ q r, (s.path p).recLoad = some q → s.str.recs.lookup (q.toNat % 2048) = some r → r.rseq = q → s.recHeld r = true →
      s.recDead = false → s.led.recovered = true →
        ∃ t, exec (.recLoadDone p .recorder []) s = .next t ∧ (t.path p).recBuf = bytesWords (recordBytes r) ∧
          (t.path p).recLoad = none ∧ t.rdP p Fld.REC_RD_STATUS = bufOk ∧ t.str = s.str ∧ t.regs = s.regs) ∧
    (∀ q, (s.path p).recLoad = some q → s.str.recs.lookup (q.toNat % 2048) = none → s.led.recovered = true →
      ∃ t, exec (.recLoadDone p .recorder []) s = .next t ∧ t.rdP p Fld.REC_RD_STATUS = bufGone ∧
        (t.path p).recBuf = List.replicate 64 0 ∧ t.str = s.str ∧ t.regs = s.regs) ∧
    (∀ q e, (s.path p).audLoad = some q → areaDead s.str 4 = false → s.audFind q = some e → s.led.recovered = true →
      ∃ t, exec (.recLoadDone p .audit []) s = .next t ∧ t.rdP p Fld.AUD_STATUS_STATUS = bufOk ∧
        (t.path p).audBuf = bytesWords (audEntryBytes e) ∧ t.str = s.str ∧ t.regs = s.regs) ∧
    (∀ q, (s.path p).audLoad = some q → areaDead s.str 4 = false → s.audFind q = none → s.led.recovered = true →
      ∃ t, exec (.recLoadDone p .audit []) s = .next t ∧ t.rdP p Fld.AUD_STATUS_STATUS = bufGone ∧
        (t.path p).audBuf = List.replicate 16 0 ∧ t.str = s.str ∧ t.regs = s.regs) ∧
    (∀ w, s.core.running = true → (s.path p).recBuf[(s.path p).recIdx]? = some w →
      exec (.recDataRead p) s = .next (s.setPath p { s.path p with recIdx := ((s.path p).recIdx + 1) % 64 })) ∧
    (∀ w, s.core.running = true → areaDead s.str 4 = false → (s.path p).audBuf[(s.path p).audIdx]? = some w →
      exec (.audDataRead p) s = .next (s.setPath p { s.path p with audIdx := ((s.path p).audIdx + 1) % 16 }))

/-! ### Tokens, sessions and readings -/

/-- A nonce (R270): reading SEC_NONCE draws a fresh one, which is outstanding on the path, at most four of them; the oldest
lapses after 300 s. Sessions and authorisations end (R274, R276): by CLOSE, 300 s after a session opened, 300 s after a
first token. -/
def Obligations.NoncesAndAuthority : Prop :=
  (∀ (s : State) (p : Path),
     (s.core.running = true →
       ∃ t, exec (.nonceIssue p) s = .next t ∧ t.nonceLive p (Config.nonce s.free) = true ∧ (t.path p).nonces.length ≤ 4 ∧
         t.free = s.free + 1 ∧ t.regs = s.regs ∧ t.led = s.led ∧ t.sec = s.sec) ∧
     (∀ n ns, (s.path p).nonces = n :: ns →
       ∃ t, exec (.nonceLapse p) s = .next t ∧ (t.path p).nonces = ns ∧ t.now = max s.now (n.2 + 300000) ∧ t.regs = s.regs ∧
         t.led = s.led)) ∧
  (∀ (s : State) (p : Path),
     (s.core.running = true →
       ∃ t, exec (.close p) s = .next t ∧ (t.path p).session = none ∧ (t.path p).token = [] ∧ t.session p = none ∧
         t.str = s.str) ∧
     (∀ x, (s.path p).session = some x →
       ∃ t, exec (.sessionExpiry p) s = .next t ∧ (t.path p).session = none ∧ t.now = max s.now (x.opened + 300000) ∧
         t.led.psvOpen ≠ some p ∧ t.str = s.str) ∧
     (∀ d, s.sec.dual = some d →
       ∃ t, exec .dualExpired s = .next t ∧ t.sec = { s.sec with dual := none } ∧ t.now = max s.now (d.at_ + 300000) ∧
         t.led = s.led ∧ t.str = s.str) ∧
     (∀ a, (s.path p).armed = [a] →
       ∃ t, exec (.armedExpiry p) s = .next t ∧ (t.path p).armed = [] ∧ t.now = max s.now (a.firstAt + 300000) ∧
         t.regs = s.regs))

/-- Writing a token (R272): SEC_TOKEN_DATA takes 32 words; SUBMIT hands a token that passes its first tests to Garnet and
empties the path's words. -/
def Obligations.TokenSubmitted : Prop :=
  ∀ (s : State) (p : Path) (d : Word), s.core.running = true →
    ((s.path p).token.length < 32 →
      exec (.tokenDataWrite p d) s = .next (s.setPath p { s.path p with token := (s.path p).token ++ [d] })) ∧
    (32 ≤ (s.path p).token.length → exec (.tokenDataWrite p d) s = .next s) ∧
    (s.testEarly p (s.path p).token = 0 → s.garnetShut = false → s.gar.serving = none → s.gar.verify = [] → s.gar.sign = [] →
      ∃ t, exec (.submit p) s = .next t ∧ t.gar = { s.gar with serving := some (.token p (s.path p).token) } ∧
        (t.path p).token = [] ∧ t.rdP p Fld.SEC_TOKEN_CMD_RESULT = 0 ∧ t.regs = s.regs ∧ t.led = s.led)

/-- A verified SESSION token that passes every test opens the session of its path with its role and key, commits its counter
and uses up its nonce (R273, R274). A token that fails a test is refused with its code, and opens, arms and commits nothing
(R273). -/
def Obligations.TokenVerified : Prop :=
  (∀ (s : State) (p : Path) (k : Token), s.gar.serving = some (.token p k) → s.testLate p k = 0 →
     tokCmd k = cmdSession → s.canCommit → s.core.running = true →
       ∃ t x, exec .tokenVerified s = .next t ∧ (t.path p).session = some x ∧ x.role = BitVec.ofNat 8 (tokRole k) ∧
         x.key = tokKey k ∧ x.opened = s.now ∧ t.nonceLive p (tokNonce k) = false ∧
         t.rdP p Fld.SEC_TOKEN_CMD_RESULT = 1 ∧
         storeGet (fun _ => 0) t.led.com.st.authCnt (tokKey k) = BitVec.ofNat 32 (tokCounter k) ∧
         t.led.com.slots = s.led.com.slots) ∧
  (∀ (s : State) (p : Path) (k : Token), s.gar.serving = some (.token p k) → s.testLate p k ≠ 0 →
     ∃ t, exec .tokenVerified s = .next t ∧ t.rdP p Fld.SEC_TOKEN_CMD_RESULT = s.testLate p k % 16 ∧
       (t.path p).session = (s.path p).session ∧ (t.path p).armed = (s.path p).armed ∧
       (t.path p).nonces = (s.path p).nonces ∧ t.sec = s.sec ∧ t.led = s.led ∧ t.str = s.str)

/-- The life of a session (R274): a token with CMD SESSION that passes its tests opens one on its path, with the token's role
and key, in place of any other; it ends 300 s after it opened, by CLOSE on its path, at a core reset and at a power-fail warning.
An engaged lock does not end it, but refuses in it the writes of the categories that LOCK refuses. -/
def Obligations.SessionLife : Prop :=
  (∀ (s : State) (p : Path) (k : Token), s.gar.serving = some (.token p k) → s.testLate p k = 0 → tokCmd k = cmdSession →
     s.canCommit → s.core.running = true →
       ∃ t x, exec .tokenVerified s = .next t ∧ (t.path p).session = some x ∧ x.role = BitVec.ofNat 8 (tokRole k) ∧
         x.key = tokKey k ∧ x.opened = s.now ∧ ∀ q, q ≠ p → (t.path q).session = (s.path q).session) ∧
  (∀ (s : State) (p : Path),
     (∀ x, (s.path p).session = some x →
       (s.session p = some x ↔ s.now < x.opened + 300000) ∧
       (∃ t, exec (.sessionExpiry p) s = .next t ∧ (t.path p).session = none ∧ t.now = max s.now (x.opened + 300000)) ∧
       (s.core.running = true → ∃ t, exec (.close p) s = .next t ∧ (t.path p).session = none ∧
         ∀ q, q ≠ p → (t.path q).session = (s.path q).session)) ∧
     (∃ t, exec .brownout s = .next t ∧ (t.path p).session = none) ∧
     (s.core.running = true → ∃ t, exec .rstNAssert s = .next t ∧ (t.path p).session = none) ∧
     (s.core.running = true → s.chip = chipFrozen → s.rd Fld.SYS_ESC_CTRL_AUTO_RESTART_S ≠ 0 →
       ∃ t, exec .autoRestart s = .next t ∧ (t.path p).session = none) ∧
     (s.core.warned = true → ∃ t, exec .warnReset s = .next t ∧ (t.path p).session = none) ∧
     (s.ldr.resetDue = true → ∃ t, exec .configReset s = .next t ∧ (t.path p).session = none) ∧
     (s.core.running = true → s.core.warned = false →
       ∃ t, exec .powerFailWarning s = .next t ∧ (t.path p).session = none) ∧
     (∀ src, ((s.engage src).path p).session = (s.path p).session) ∧
     (∀ x roles, s.session p = some x → s.locked = true →
       s.gate p roles true = .locked ∧ (x.role.toNat &&& roles ≠ 0 → s.gate p roles false = .pass x)))

/-- A reading (R279 to R284): a request that passes its tests takes the next RSEQ and waits for Garnet; a refused one shows
its code; the signature delivers the frame to its path, whose words are then read in turn. -/
def Obligations.ReadingFormed : Prop :=
  ∀ (s : State) (p : Path), s.core.running = true →
    (∀ items, s.rdgTest false s.hostItems = .inr items → s.gar.serving = none → s.gar.verify = [] → s.gar.sign = [] →
      ∃ t f, exec (.formEcdsa p) s = .next t ∧ t.gar.serving = some (.sign (.host p) f) ∧
        t.rd Fld.SEC_RDG_SEQ_RSEQ = (s.rd Fld.SEC_RDG_SEQ_RSEQ + 1) % 2 ^ 32 ∧
        t.rdP p Fld.SEC_RDG_CMD_STATUS = rdForming ∧ f.take 2 = [1, 1] ∧ t.led = s.led) ∧
    (∀ items, s.rdgTest true s.hostItems = .inr items → s.gar.serving = none → s.gar.verify = [] → s.gar.sign = [] →
      ∃ t f, exec (.formHmac p) s = .next t ∧ t.gar.serving = some (.sign (.host p) f) ∧ f.take 2 = [1, 2] ∧
        t.rd Fld.SEC_RDG_SEQ_RSEQ = (s.rd Fld.SEC_RDG_SEQ_RSEQ + 1) % 2 ^ 32 ∧ t.led = s.led) ∧
    (∀ code, s.rdgTest false s.hostItems = .inl code → code ≠ rdBusy →
      ∃ t, exec (.formEcdsa p) s = .next t ∧ t.rdP p Fld.SEC_RDG_CMD_STATUS = code % 16 ∧ t.gar = s.gar ∧
        t.rd Fld.SEC_RDG_SEQ_RSEQ = s.rd Fld.SEC_RDG_SEQ_RSEQ) ∧
    (∀ f, s.gar.serving = some (.sign (.host p) f) →
      ∃ t, exec .readingSigned s = .next t ∧ (t.path p).rdgBuf = s.rdgSign f ∧ (t.path p).rdgIdx = 0 ∧
        t.rdP p Fld.SEC_RDG_CMD_STATUS = rdOk ∧ t.led = s.led ∧ t.str = s.str) ∧
    exec (.rdgDataRead p) s = .next (s.setPath p { s.path p with rdgIdx := ((s.path p).rdgIdx + 1) % 256 })

/-! ### Acquisition and calibration -/

/-- The lanes (R50, R62, R64, R65, R70): an output sample is that of the next sample epoch, and a lane that is OFF delivers it
marked OUT; the 40 INVALID samples of a start end; the host restarts a lane; a capture is taken at its boundary. Conversions of
another shape are ill-formed. -/
def Obligations.LaneCommands : Prop :=
  ∀ (s : State) (p : Path) (conv : List (List LaneConv)),
    (conv.length = 76 → (∀ c ∈ conv, c.length = 32) → s.core.running = true → s.flag Fld.AQ_STATUS_RUN = true →
      ∃ t, exec (.laneOutputSample conv) s = .next t ∧ t.acq.sampleAt = some s.nextSample ∧ t.acq.act = s.acq.act ∧
        (s.acq.lanes.length = 76 → ∀ n, n < 76 → s.laneState n = laneOff →
          ((t.lane n).samples.head?.map (·.out)) = some true ∧ (t.lane n).track = (s.lane n).track) ∧
        t.str = s.str ∧ t.flash = s.flash) ∧
    (conv.length ≠ 76 → exec (.laneOutputSample conv) s = .fault .illFormed) ∧
    (∀ n : Fin 76, s.laneState n.val = laneStarting → (s.lane n.val).count = 0 →
      ∃ t, exec (.laneStartCountEnd n) s = .next t ∧
        t.laneState n.val = (if s.flag (Fld.AQ_LANE_STAT_COARSE_ISO n.val) || s.flag (Fld.AQ_LANE_STAT_FINE_ISO n.val) then
          laneSingle else laneRunning) ∧
        s.onlyWords t [Adr.AQ_LANE_STAT n.val, Adr.AQ_STATUS, Adr.SYS_STATUS]) ∧
    (∀ (n : BitVec 7) (x : Session), s.core.running = true → s.gate p (roleOperator ||| roleService) false = .pass x →
      s.lanePresent n.toNat = true → s.acq.lanes.length = 76 →
      s.flag (Fld.AQ_LANE_CFG_ENABLE n.toNat) = true → s.domOn (laneDomain n.toNat) = true →
      s.laneState n.toNat ≠ laneOff →
        ∃ t, exec (.laneRestart p n) s = .next t ∧ t.laneState n.toNat = laneStarting ∧ (t.lane n.toNat).count = 40 ∧
          t.flag (Fld.AQ_LANE_STAT_COARSE_ISO n.toNat) = false ∧ t.flag (Fld.AQ_LANE_STAT_FINE_ISO n.toNat) = false ∧
          t.flag Fld.AQ_LANE_CTRL_REFUSED = false ∧
          s.keepsWords t [Adr.AQ_LANE_CTRL, Adr.AQ_LANE_STAT n.toNat, Adr.AQ_STATUS, Adr.SYS_STATUS]) ∧
    (s.core.running = true → s.flag Fld.AQ_MM_STAT_BUSY = false → s.acq.captureAt = none →
      ∃ t, exec (.capture p) s = .next t ∧ t.flag Fld.AQ_MM_STAT_BUSY = true ∧ s.onlyWords t [Adr.AQ_MM_STAT]) ∧
    (s.flag Fld.AQ_MM_STAT_BUSY = true → s.flag Fld.AQ_STATUS_RUN = true →
      ∃ t, exec .captureBoundary s = .next t ∧ t.flag Fld.AQ_MM_STAT_BUSY = false ∧ t.flag Fld.AQ_MM_STAT_VALID = true ∧
        t.rd Fld.AQ_MM_EPOCH_EPOCH = s.nextSample % 2 ^ 64 ∧
        (∀ n a b, n < 76 → (s.lane n).track = some (a, b) →
          t.rd (Fld.AQ_MM_MAX_MAX n) = ofSigned 32 a ∧ t.rd (Fld.AQ_MM_MIN_MIN n) = ofSigned 32 b) ∧
        (∀ n, (t.lane n).track = none) ∧ t.str = s.str)

/-- The calibrator's pipeline (R75, R76, R80, R85): a window's end begins its evaluation, which puts nothing in force; the
switch-over puts what was accepted, or committed by the host, in force at the boundary that began the tick in progress, the first after
the evaluation or the commit, and nothing else; a lane committed is exempt from the move tests of its next evaluation (R95, R96). -/
def Obligations.CalibratorPipeline : Prop :=
  (∀ s : State, s.pipe ≠ pipeOff → s.flag Fld.CAL_STATUS_HOST_STAGE = false →
    ∃ t, exec .calWindowEnd s = .next t ∧ t.pipe = pipeEvaluate ∧ t.acq.window = s.acq.window + 1 ∧
      t.acq.evaluating = s.acq.window ∧ t.acq.atEnd = s.acq.act ∧ t.rd Fld.CAL_WINDOW_WINDOW = (s.acq.window + 1) % 256 ∧ t.acq.act = s.acq.act ∧
      s.keepsWords t [Adr.SYS_EPOCH, Adr.SYS_EPOCH + 4, Adr.CAL_WINDOW, Adr.CAL_STATUS]) ∧
  (∀ s : State, s.pipe ≠ pipeOff → s.flag Fld.CAL_STATUS_HOST_STAGE = true →
    ∃ t, exec .calWindowEnd s = .next t ∧ t.flag Fld.CAL_STATUS_HOST_STAGE = false ∧ t.rd Fld.CAL_CMD_RESULT = 5 ∧
      t.acq.written = [] ∧ t.acq.act = s.acq.act) ∧
  (∀ s : State, s.pipe = pipeEvaluate →
    ∃ t, exec .calEvaluationComplete s = .next t ∧
      t.pipe = (if t.acq.accepted.isEmpty then pipeCollect else pipeStaged) ∧
      t.rd Fld.CAL_RESULT_WINDOW = s.acq.evaluating % 256 ∧ t.acq.stagedTick = s.core.ticks ∧ t.acq.act = s.acq.act ∧
      t.str = s.str ∧ t.led = s.led) ∧
  (∀ s : State, s.pipe = pipeStaged → s.acq.stagedTick < s.core.ticks → s.acq.accepted ≠ [] → s.acq.committed = [] →
    s.acq.newBase = none → s.chip ≠ chipFrozen →
    ∃ t, exec .calSwitchOver s = .next t ∧ t.pipe = pipeCollect ∧ t.acq.accepted = [] ∧ t.acq.prev = s.acq.act ∧
      t.acq.switchAt = s.core.tickEpoch ∧
      t.rd Fld.CAL_STATUS_SWITCH_CNT = (s.rd Fld.CAL_STATUS_SWITCH_CNT + 1) % 2 ^ 16 ∧
      (∀ n, coefAt t.acq.act n = if n ∈ s.acq.accepted then coefAt s.acq.staged n else coefAt s.acq.act n) ∧
      t.led = s.led ∧ t.str = s.str) ∧
  (∀ s : State, s.pipe = pipeCollect → s.acq.committed ≠ [] → s.acq.commitTick < s.core.ticks → s.chip ≠ chipFrozen →
    ∃ t, exec .calSwitchOver s = .next t ∧ t.pipe = pipeCollect ∧ t.acq.committed = [] ∧ t.acq.newBase = none ∧
      t.acq.base = (if s.acq.newBase.isSome then s.acq.newBase else s.acq.base) ∧ t.acq.switchAt = s.core.tickEpoch ∧
      (∀ n, coefAt t.acq.act n = if n ∈ s.acq.committed then coefAt s.acq.commitSet n else coefAt s.acq.act n) ∧
      (∀ n ∈ s.acq.committed, n ∈ t.acq.exempt) ∧ t.led = s.led ∧ t.str = s.str) ∧
  (∀ s : State, s.pipe = pipeStaged → s.core.ticks ≤ s.acq.stagedTick → s.acq.committed = [] → s.acq.newBase = none →
    exec .calSwitchOver s = .next s)

/-- The staging session (R94, R95): opened in COLLECT away from the window's end, aborted, or committed; a commit of values
within the limits is audited, waits for the switch-over, and does not change what is in force. A commit that changes gc needs
the armed authorisation of SCALE_COMMIT. REBASE is audited and marks its lane (R84). -/
def Obligations.StagingSession : Prop :=
  ∀ (s : State) (p : Path), s.core.running = true →
    (∀ x, s.gate p roleService true = .pass x → s.pipe = pipeCollect →
      s.rd Fld.CAL_WINDOW_POS ≤ 12681216 → s.flag Fld.CAL_STATUS_HOST_STAGE = false →
        ∃ t, exec (.stageOpen p) s = .next t ∧ t.flag Fld.CAL_STATUS_HOST_STAGE = true ∧ t.rd Fld.CAL_CMD_RESULT = 1 ∧
          s.onlyWords t [Adr.CAL_CMD, Adr.CAL_STATUS]) ∧
    (∀ x, s.gate p roleService true = .pass x → s.flag Fld.CAL_STATUS_HOST_STAGE = true →
        ∃ t, exec (.stageAbort p) s = .next t ∧ t.flag Fld.CAL_STATUS_HOST_STAGE = false ∧ t.rd Fld.CAL_CMD_RESULT = 1 ∧
          t.acq.written = [] ∧ t.acq.gcWritten = [] ∧ t.acq.act = s.acq.act ∧ t.led = s.led ∧
          s.keepsWords t [Adr.CAL_CMD, Adr.CAL_STATUS]) ∧
    (∀ x, s.gate p roleService true = .pass x → s.flag Fld.CAL_STATUS_HOST_STAGE = true → s.acq.gcWritten = [] →
      (∀ n ∈ s.acq.written, s.commitCause n = 0 ∧ (coefAt s.acq.staged n).gc = (s.inForce n).gc) → s.canCommit →
        ∃ t, exec (.stageCommit p) s = .next t ∧ t.flag Fld.CAL_STATUS_HOST_STAGE = false ∧ t.rd Fld.CAL_CMD_RESULT = 1 ∧
          (∀ n ∈ s.acq.written, n ∈ t.acq.committed ∧ coefAt t.acq.commitSet n = coefAt s.acq.staged n) ∧
          t.acq.act = s.acq.act ∧ t.led.com.st.aseq = s.led.com.st.aseq + 1) ∧
    (∀ a, s.gateDual p 0x0040 s.scaleTarget = .pass a → s.flag Fld.CAL_STATUS_HOST_STAGE = true → s.acq.gcWritten ≠ [] →
      (∀ n ∈ s.acq.written, s.commitCause n = 0) →
      (∃ n ∈ s.acq.written, (coefAt s.acq.staged n).gc ≠ (s.inForce n).gc) → s.canCommit →
        ∃ t, exec (.stageCommit p) s = .next t ∧ t.flag Fld.CAL_STATUS_HOST_STAGE = false ∧ t.rd Fld.CAL_CMD_RESULT = 1 ∧
          (∀ n ∈ s.acq.written, n ∈ t.acq.committed) ∧ t.acq.newBase.isSome = true ∧ t.acq.act = s.acq.act ∧
          (∀ r, s.acq.tickRatio = some r → t.acq.newBase = some r) ∧ t.acq.tickRatio = t.acq.newBase ∧
          t.led.com.st.aseq = s.led.com.st.aseq + 2 ∧ t.armedFor p 0x0040 s.scaleTarget = none) ∧
    (∀ (x : Session) (n : BitVec 7), s.gate p roleService true = .pass x → s.lanePresent n.toNat = true → s.canCommit →
        ∃ t, exec (.rebase p n) s = .next t ∧ t.flag (Fld.CAL_LANE_STAT_REBASE_PEND n.toNat) = true ∧
          t.rd Fld.CAL_CMD_RESULT = 1 ∧ t.acq = s.acq ∧ t.led.com.st.aseq = s.led.com.st.aseq + 1) ∧
    exec (.calAccDataRead p) s = .next s.calAdvance ∧
    (∀ (x : Session) (v : Word), s.gate p roleService true = .pass x → s.flag Fld.CAL_STATUS_HOST_STAGE = true →
      s.flag Fld.CAL_ACC_SEL_SET = true → calInRange s.calSel = true → s.lanePresent (calLane s.calSel) = true →
        ∃ t, exec (.calAccDataWrite p v) s = .next t ∧ t.acq.staged = calPut s.acq.staged s.calSel v.toNat ∧
          calLane s.calSel ∈ t.acq.written ∧ t.acq.act = s.acq.act ∧ s.keepsWords t [Adr.CAL_ACC_SEL])

/-! ### The boundary, bays and streams -/

/-- The whole-second boundary and its alignment (R33, R34, R35, R326): the next tick begins there, the ledger notes the boundary
and counts an operating second, the PTP clock is captured. A new base is taken, EPOCH_ALIGNED reads 1 and nothing else
changes. -/
def Obligations.BoundaryBeginsTick : Prop :=
  (∀ (s : State) (ratio : Word) (x : PtpTime), s.flag Fld.AQ_STATUS_RUN = true →
    ∃ t, exec (.wholeSecondBoundary ratio x) s = .next t ∧ t.core.tickEpoch = s.nextBoundary ∧
      t.core.ticks = s.core.ticks + 1 ∧ t.rd Fld.PTP_EPOCH_CAP_SEC = x.sec.toNat ∧ t.rd Fld.PTP_EPOCH_CAP_NS = x.ns.toNat ∧
      t.rd Fld.PTP_EPOCH_CAP_EPOCH = s.nextBoundary % 2 ^ 32 ∧
      (s.ledgerOk = true → t.led.bounds.length = s.led.bounds.length + 1 ∧
        t.rd Fld.SYS_OPSEC_OPSEC = min (s.rd Fld.SYS_OPSEC_OPSEC + 1) (2 ^ 40 - 1)) ∧
      (s.ledgerOk = false → t.led = s.led) ∧ t.led.com = s.led.com ∧ t.str = s.str ∧ t.flash = s.flash) ∧
  (∀ (s : State) (b : BitVec 64), ∃ t, exec (.epochAlign b) s = .next t ∧ t.base = b.toNat ∧
    t.flag Fld.SYS_TIME_EPOCH_ALIGNED = true ∧ s.onlyWords t [Adr.SYS_EPOCH_SEC, Adr.SYS_EPOCH_SEC + 4, Adr.SYS_TIME])

/-- What the measurements of a bay, a window and a stream give (R103, R113, R122, R134, R169): a cycle's quantum is posted
with its end epoch; a half-cycle value counts; a completed window's results are written and counted; a stream's tick posts
its quantum. -/
def Obligations.MeasurementsPosted : Prop :=
  (∀ (s : State) (b : Fin 16), s.track b.val = trkFree ∨ s.track b.val = trkLocked → s.led.frozen = false →
    (s.bay b.val).credit = true ∨ (s.points b.val (s.bay b.val).start (s.bay b.val).T).isSome = true →
      ∃ t k, exec (.cycleEnd b) s = .next t ∧ t.led.posted = s.led.posted ++ [k] ∧ k.owner = b.val ∧
        k.endEpoch = (s.later (s.bay b.val).start (s.bay b.val).T).floor.toNat ∧ t.led.com = s.led.com ∧ t.str = s.str) ∧
  (∀ (s : State) (b : Fin 16) (g : List (List Sys2Proof.Real) × Sys2Proof.Real × Sys2Proof.Real), s.track b.val = trkFree ∨ s.track b.val = trkLocked →
    s.met.bays.length = 16 → 0 < (s.bay b.val).half → 2 * (s.bay b.val).n ≤ (s.bay b.val).half + 1 →
    (s.bay b.val).everLocked = false → s.halfGrid b.val (s.bay b.val) = some g →
      ∃ t, exec (.halfCycleRms b) s = .next t ∧ (t.bay b.val).half = (s.bay b.val).half + 1 ∧ t.regs = s.regs ∧
        t.led = s.led) ∧
  (∀ (s : State) (a : Fin 2) (j : HarmJob), s.accJob a = some j → j.bay < 16 →
    ∃ t, exec (.accelJobComplete a) s = .next t ∧
      t.rd (Fld.BAY_HSEQ_SEQ j.bay) = (s.rd (Fld.BAY_HSEQ_SEQ j.bay) + 1) % 2 ^ 32 ∧
      t.flag (Fld.BAY_HSTAT_HVALID j.bay) = true ∧
      (s.met.queue = [] → t.accJob a = none) ∧ t.led = s.led ∧ t.str = s.str) ∧
  (∀ (s : State) (n : Fin 4) (dt : Sys2Proof.Real) (e : Nat), (s.stream n.val).due = some (dt, e) →
    s.rd (Fld.MT_PS_STATUS_STATE n.val) = psRun → s.esc.restarting.contains (.procEngine n) = false →
      ∃ t k, exec (.streamTick n) s = .next t ∧ t.led.posted = s.led.posted ++ [k] ∧ k.owner = 16 + n.val ∧
        k.endEpoch = e - 1 ∧ t.rd (Fld.MT_PS_SEQ_SEQ n.val) = (s.rd (Fld.MT_PS_SEQ_SEQ n.val) + 1) % 2 ^ 32 ∧
        t.str = s.str)

/-- A pulse output (R117): a pulse starts when one waits, and is counted; it ends, and its gap begins. -/
def Obligations.PulseOutputs : Prop :=
  ∀ (s : State) (k : Fin 16),
    (s.flag (Fld.MT_PO_CFG_ENABLE k.val) = true → (s.pulse k.val).on = false → (s.pulse k.val).endedAt = none →
      s.rd (Fld.MT_PO_STAT_BACKLOG k.val) ≠ 0 → s.met.pulses.length = 16 →
        ∃ t, exec (.poPulseStart k) s = .next t ∧ (t.pulse k.val).on = true ∧
          t.rd (Fld.MT_PO_STAT_BACKLOG k.val) + 1 = s.rd (Fld.MT_PO_STAT_BACKLOG k.val) ∧
          t.rd (Fld.MT_PO_STAT_COUNT k.val) = (s.rd (Fld.MT_PO_STAT_COUNT k.val) + 1) % 2 ^ 16 ∧
          s.keepsWords t [Adr.MT_PO_STAT k.val] ∧ t.led = s.led) ∧
    ((s.pulse k.val).on = true → s.met.pulses.length = 16 →
      ∃ t, exec (.poPulseEnd k) s = .next t ∧ (t.pulse k.val).on = false ∧ t.regs = s.regs ∧ t.led = s.led ∧
        (t.pulse k.val).endedAt = some ((s.pulse k.val).startedAt + 32 * s.rd (Fld.MT_PO_CFG_WIDTH k.val)))

/-! ### The auxiliary block -/

/-- Scans (R147, R149 to R152): a trigger of an idle scanner is taken at the next epoch, a periodic one at a boundary or a
multiple of 1024 PERIOD epochs after it; one during a scan waits, a further one is counted; the scan goes through its settling to its
conversions; SCAN_COMPLETE writes each channel's value and leaves the scanner idle, or isolated where more than 64 discards lie
within one second. Conversions that do not match the scan are ill-formed. -/
def Obligations.AuxScan : Prop :=
  ∀ (s : State) (p : Path),
    let taken (t : State) : Prop := t.axState = (if s.scanSettle = 0 then axScan else axSettle) ∧ t.aux.plan = s.scanPlan ∧ s.keepsWords t [Adr.AX_STATUS, Adr.AX_EXC_STAT]
    (s.core.running = true → s.axState = axIdle → ∃ t, exec (.scanTrigger p) s = .next t ∧ taken t ∧ t.aux.takenAt = s.epoch + 1) ∧
    (s.rd Fld.AX_SCAN_CFG_TRIG = 1 → s.axState = axIdle →
      ∃ t, exec .periodicTrigger s = .next t ∧ taken t ∧ (t.aux.takenAt = s.nextBoundary ∨
        (t.aux.takenAt - s.core.tickEpoch) % (1024 * max 1 (s.rd Fld.AX_SCAN_CFG_PERIOD)) = 0)) ∧
    (s.core.running = true → s.axBusy = true → s.flag Fld.AX_STATUS_PENDING = false →
      ∃ t, exec (.scanTrigger p) s = .next t ∧ t.flag Fld.AX_STATUS_PENDING = true ∧ s.onlyWords t [Adr.AX_STATUS]) ∧
    (s.core.running = true → s.axBusy = true → s.flag Fld.AX_STATUS_PENDING = true →
      ∃ t, exec (.scanTrigger p) s = .next t ∧
        t.rd Fld.AX_TRIG_OVERRUN_COUNT = min (s.rd Fld.AX_TRIG_OVERRUN_COUNT + 1) (2 ^ Fld.AX_TRIG_OVERRUN_COUNT.width - 1)) ∧
    (s.axState = axSettle → ∃ t, exec .scanSettleEnd s = .next t ∧ t.axState = axScan ∧
      s.onlyWords t [Adr.AX_STATUS, Adr.AX_EXC_STAT]) ∧
    (∀ conv : List AuxConv, s.axState = axScan →
      let codes := conv.zipIdx.map fun (c, i) => (s.aux.takenAt + 1 + s.aux.settle + i, c)
      (s.scanRuns s.aux.plan s.aux.lastGain codes = none → exec (.scanComplete conv) s = .fault .illFormed) ∧
      (∀ c r, c.chan < 34 → s.scanRuns s.aux.plan s.aux.lastGain codes = some [(c, r)] → 4 ≤ r.vals.length →
        tooMany (s.aux.discards ++ r.residue) = false → s.flag Fld.AX_STATUS_PENDING = false →
          ∃ t, exec (.scanComplete conv) s = .next t ∧ t.axState = axIdle ∧
            t.rd (Fld.AX_LAST_VALUE c.chan) = ofSigned 32 (s.scanMean c.gain r.vals) ∧
            t.flag (Fld.AX_LSTAT_VALID c.chan) = true ∧ t.flag (Fld.AX_LSTAT_OVER c.chan) = r.rail ∧
            t.flag (Fld.AX_LSTAT_FAULT c.chan) = decide (r.vals.length < c.osr) ∧
            t.rd Fld.AX_STATUS_SCAN_CNT = (s.rd Fld.AX_STATUS_SCAN_CNT + 1) % 2 ^ 16 ∧ t.led = s.led ∧ t.str = s.str) ∧
      (∀ rs, s.scanRuns s.aux.plan s.aux.lastGain codes = some rs →
        tooMany (s.aux.discards ++ rs.flatMap fun (r : AuxChan × ChanRun) => r.2.residue) = true →
          ∃ t, exec (.scanComplete conv) s = .next t ∧ t.axState = axIsolated ∧ t.aux.isolated = true ∧
            t.flag Fld.AX_STATUS_PENDING = false ∧ (∀ n, n < 34 → t.flag (Fld.AX_LSTAT_FAULT n) = true) ∧ t.led = s.led))

/-- Pulse inputs (R155 to R157, R159): a level that holds for its time is accepted; a counted edge adds 1 to its input's count, a
quadrature transition adds or takes 1 from its pair's, a double change is counted as an error; a level that holds too briefly does
nothing; without an edge within GATE_MAX the frequency reads 0, unless the block has no power. -/
def Obligations.PulseInputs : Prop :=
  ∀ (s : State) (k : Fin 8),
    let m := k.val - k.val % 2
    (∀ (level partner both : Bool) (cycle held : Nat), held < s.edgeHold k.val →
      exec (.pulseEdge k level partner both ⟨cycle, held⟩) s = .next s) ∧
    (∀ (level partner both : Bool) (cycle held : Nat), s.axState ≠ axOff → s.flag Fld.AX_STATUS_FLD_LOW = false →
      s.edgeHold k.val ≤ held →
      (s.flag (Fld.AX_PI_CFG_MODE m) = false → s.flag (Fld.AX_PI_CFG_ENABLE k.val) = true →
        ∃ t, exec (.pulseEdge k level partner both ⟨cycle, held⟩) s = .next t ∧ t.flag (Fld.AX_PI_STAT_LEVEL k.val) = level ∧
          t.rd (Fld.AX_PI_CNT_CNT k.val) =
            (if s.edgeCounts k.val level then (s.rd (Fld.AX_PI_CNT_CNT k.val) + 1) % 2 ^ 32
             else s.rd (Fld.AX_PI_CNT_CNT k.val)) ∧
          s.keepsWords t [Adr.AX_PI_CNT k.val, Adr.AX_PI_STAT k.val]) ∧
      (s.flag (Fld.AX_PI_CFG_MODE m) = true → s.flag (Fld.AX_PI_CFG_ENABLE m) = true → both = false →
        ∃ t, exec (.pulseEdge k level partner both ⟨cycle, held⟩) s = .next t ∧
          t.rd (Fld.AX_PI_CNT_CNT m) =
            ofSigned 32 (s.rdS (Fld.AX_PI_CNT_CNT m) + (if (level != partner) = decide (k.val % 2 = 0) then 1 else -1))) ∧
      (s.flag (Fld.AX_PI_CFG_MODE m) = true → s.flag (Fld.AX_PI_CFG_ENABLE m) = true → both = true →
        ∃ t, exec (.pulseEdge k level partner both ⟨cycle, held⟩) s = .next t ∧
          t.rd (Fld.AX_PI_STAT_QERR m) = min (s.rd (Fld.AX_PI_STAT_QERR m) + 1) 0xFFFF ∧
          t.rd (Fld.AX_PI_CNT_CNT m) = s.rd (Fld.AX_PI_CNT_CNT m))) ∧
    (s.flag (Fld.AX_PI_CFG_ENABLE k.val) = true → s.flag (Fld.AX_PI_CFG_MODE k.val) = false →
      s.axState ≠ axOff → s.gateOver k.val = true → s.aux.inputs.length = 8 →
        ∃ t, exec (.noSignal k) s = .next t ∧ t.rd (Fld.AX_PI_FREQ_FREQ k.val) = 0 ∧
          t.flag (Fld.AX_PI_STAT_NO_SIGNAL k.val) = true ∧ (t.input k.val).prev = none ∧
          s.keepsWords t [Adr.AX_PI_FREQ k.val, Adr.AX_PI_STAT k.val]) ∧
    (s.axState = axOff ∨ s.gateOver k.val = false → exec (.noSignal k) s = .next s)

/-- The field supply and the excitation sources (R154, R158): while VFLD is low no source sources current; a source out of
compliance shows in OPEN and in OPEN_SEEN. -/
def Obligations.FieldSupply : Prop :=
  (∀ s : State, s.core.running = true → s.flag Fld.AX_STATUS_FLD_LOW = false →
    ∃ t, exec .fldLow s = .next t ∧ t.flag Fld.AX_STATUS_FLD_LOW = true ∧ t.flag Fld.AX_FLD_LOW_SEEN = true ∧
      t.rd Fld.AX_FLD_LOW_CNT = min (s.rd Fld.AX_FLD_LOW_CNT + 1) 0xFFFF ∧ t.rd Fld.AX_EXC_STAT_ON = 0 ∧ t.led = s.led) ∧
  (∀ s : State, s.flag Fld.AX_STATUS_FLD_LOW = true →
    ∃ t, exec .fldOk s = .next t ∧ t.flag Fld.AX_STATUS_FLD_LOW = false ∧ t.axState = s.axState ∧
      t.rd Fld.AX_FLD_LOW_CNT = s.rd Fld.AX_FLD_LOW_CNT ∧ t.led = s.led) ∧
  (∀ (s : State) (k : Fin 4), s.rd Fld.AX_EXC_STAT_ON / 2 ^ k.val % 2 = 1 →
    ∃ t, exec (.excOpen k) s = .next t ∧ t.rd Fld.AX_EXC_STAT_OPEN / 2 ^ k.val % 2 = 1 ∧
      t.rd Fld.AX_EXC_STAT_OPEN_SEEN / 2 ^ k.val % 2 = 1 ∧ t.rd Fld.AX_EXC_STAT_ON = s.rd Fld.AX_EXC_STAT_ON) ∧
  (∀ (s : State) (k : Fin 4), ∃ t, exec (.excOpenEnd k) s = .next t ∧ t.rd Fld.AX_EXC_STAT_OPEN / 2 ^ k.val % 2 = 0 ∧
    s.onlyWords t [Adr.AX_EXC_STAT])

/-! ### Contained faults -/

/-- Faults of units (R39, R41, R42, R180, R285, R331): a corrected error is counted and does no more; of the others the first restarts the unit at block level and is recorded; the second
within 10 s takes it out of service: its bay moves to a standby engine or stops, its stream or its port stops. A restart ends. -/
def Obligations.FaultsContained : Prop :=
  ∀ (s : State) (k : FaultKind),
    (∀ u, s.unitIn u = true → ∃ t, exec (.engineFault u .corrected) s = .next t ∧
      t.rd Fld.SYS_ESC_COUNT_CORRECTED = min (s.rd Fld.SYS_ESC_COUNT_CORRECTED + 1) 255 ∧
      s.onlyWords t [Adr.SYS_ESC_COUNT]) ∧
    (∀ (n : Fin 16) (b : Nat), k ≠ .corrected → s.unitIn (.bayEngine n) = true → s.bayOf (.bayEngine n) = some b → s.met.bays.length = 16 →
      (s.faultedBefore (.bayEngine n) = false →
        ∃ t, exec (.engineFault (.bayEngine n) k) s = .next t ∧ .bayEngine n ∈ t.esc.restarting ∧
          (t.bay b).credit = true ∧
          t.rd Fld.SYS_ESC_LAST_ALL = 0x50000500 + n.val / 4 * 2 ^ 22 + n.val % 4 * 2 ^ 16 + errorOf k) ∧
      (∀ m, s.faultedBefore (.bayEngine n) = true → s.standby = some m →
        ∃ t, exec (.engineFault (.bayEngine n) k) s = .next t ∧ .bayEngine n ∈ t.esc.down ∧
          t.rd (engField b) = 8 + m ∧ t.flag (Fld.BAY_STATUS_STANDBY b) = true ∧ t.led = s.led) ∧
      (s.faultedBefore (.bayEngine n) = true → s.standby = none →
        ∃ t, exec (.engineFault (.bayEngine n) k) s = .next t ∧ .bayEngine n ∈ t.esc.down ∧
          t.rd (engField b) = 0xE ∧ t.track b = trkStopped ∧ t.flag (Fld.BAY_STATUS_DEGRADED b) = true ∧
          t.flag Fld.SYS_STATUS_DEGRADED = true ∧ t.led = s.led)) ∧
    (∀ m : Fin 4, k ≠ .corrected → s.unitIn (.procEngine m) = true → s.bayOf (.procEngine m) = none → s.faultedBefore (.procEngine m) = true →
      s.rd (Fld.MT_PS_STATUS_STATE m.val) = psRun →
        ∃ t, exec (.engineFault (.procEngine m) k) s = .next t ∧ t.rd (Fld.MT_PS_STATUS_STATE m.val) = psStopped ∧
          .procEngine m ∈ t.esc.down ∧ t.led = s.led) ∧
    (∀ n : Fin 2, k ≠ .corrected → s.unitIn (.netEngine n) = true → s.faultedBefore (.netEngine n) = true →
      ∃ t, exec (.engineFault (.netEngine n) k) s = .next t ∧ t.flag (stoppedFld n) = true ∧ (t.port n).tx = [] ∧
        (t.port n).sending = none ∧ (t.port n).rx = [] ∧ t.led = s.led) ∧
    (k ≠ .corrected → s.unitIn .garnet = true → s.gar.stopped = false → s.gar.lastFault = none →
      ∃ t, exec (.engineFault .garnet k) s = .next t ∧ t.gar.restarting = true ∧ t.gar.stopped = false ∧
        t.gar.serving = none ∧ t.gar.verify = [] ∧ t.gar.sign = [] ∧
        t.rd Fld.SEC_GARNET_FAULT = min (s.rd Fld.SEC_GARNET_FAULT + 1) 0xFF ∧ t.chip = s.chip) ∧
    (∀ u : FaultUnit, u ≠ .garnet →
      ∃ t, exec (.engineRestartDone u) s = .next t ∧ u ∉ t.esc.restarting ∧ t.esc.down = s.esc.down ∧ t.regs = s.regs ∧
        t.led = s.led) ∧
    (∃ t, exec (.engineRestartDone .garnet) s = .next t ∧ t.gar.restarting = false ∧ t.regs = s.regs ∧ t.led = s.led) ∧
    (∀ r : Region, s.core.running = true → s.chip ≠ chipFrozen →
      ∃ t, exec (.veinWatchdog r) s = .next t ∧ t.chip = chipFrozen ∧ t.led.frozen = true ∧ t.led.quanta = [] ∧
        t.rd Fld.SYS_ESC_STATUS_FAIL / 2 ^ regionNo r % 2 = 1 ∧ t.flag Fld.SYS_ALERT_FROZEN = true)

/-! ### The network -/

/-- Management of a port (R305, R306, R314): the poll sets the link from the PHY, half duplex counting as down; a management
frame is started inside a SERVICE session and its end clears BUSY; ARP asks anew 300 s after an address was learned, and repeats an
unanswered request 1 s later, three times in all. -/
def Obligations.PortManagement : Prop :=
  ∀ (s : State) (n : Fin 2),
    (∀ reg1 reg5 reg10 : BitVec 16, s.portRuns n = true → s.flag (Fld.NET_MDIO_BUSY n) = false →
      let up := decide (reg1.toNat / 4 % 2 = 1) && (phyMode reg5.toNat reg10.toNat).2
      ∃ t, exec (.phyPoll n reg1 reg5 reg10) s = .next t ∧ t.flag (linkFld n) = up ∧
        (up = true → t.rd (speedFld n) = (phyMode reg5.toNat reg10.toNat).1) ∧
        t.rd (Fld.NET_PORT_STAT_FLAPS n) = (if s.flag (linkFld n) && !up then
          min (s.rd (Fld.NET_PORT_STAT_FLAPS n) + 1) 0xFFFF else s.rd (Fld.NET_PORT_STAT_FLAPS n)) ∧ t.led = s.led) ∧
    (∀ (p : Path) (x : Session) (reg : BitVec 5), s.core.running = true → s.gate p roleService false = .pass x →
      s.flag (Fld.NET_MDIO_BUSY n) = false →
        ∃ t, exec (.mdioRead p n reg) s = .next t ∧ t.flag (Fld.NET_MDIO_BUSY n) = true ∧
          t.flag (Fld.NET_MDIO_WRITE n) = false ∧ t.rd (Fld.NET_MDIO_REG n) = reg.toNat ∧ (t.port n).mdioRead = true ∧
          t.led = s.led) ∧
    (∀ (p : Path) (x : Session) (reg : BitVec 5) (data : BitVec 16), s.core.running = true →
      s.gate p roleService true = .pass x → s.flag (Fld.NET_MDIO_BUSY n) = false →
        ∃ t, exec (.mdioWrite p n reg data) s = .next t ∧ t.flag (Fld.NET_MDIO_BUSY n) = true ∧
          t.flag (Fld.NET_MDIO_WRITE n) = true ∧ t.rd (Fld.NET_MDIO_REG n) = reg.toNat ∧
          t.rd (Fld.NET_MDIO_DATA n) = data.toNat ∧ (t.port n).mdioRead = false ∧ t.led = s.led) ∧
    (∀ data : BitVec 16, s.flag (Fld.NET_MDIO_BUSY n) = true →
      ∃ t, exec (.mdioDone n data) s = .next t ∧ t.flag (Fld.NET_MDIO_BUSY n) = false ∧
        t.rd (Fld.NET_MDIO_DATA n) = (if (s.port n).mdioRead then data.toNat else s.rd (Fld.NET_MDIO_DATA n)) ∧
        s.onlyWords t [Adr.NET_MDIO n.val]) ∧
    (∀ (ip : BitVec 32) (e : ArpEntry), (s.port n).arpEntry ip.toNat = some e →
      (e.tries = 0 → s.portRuns n = true → s.txRoom n 2 = true →
        ∃ t, exec (.arpRefresh n ip) s = .next t ∧ t.now = max s.now (e.at_ + 300000) ∧
          (t.port n).arpEntry ip.toNat = some { e with tries := 1, at_ := t.now } ∧
          (t.port n).tx.length = (s.port n).tx.length + 1) ∧
      (e.tries ≠ 0 → exec (.arpRefresh n ip) s = .next s)) ∧
    (∀ (ip : BitVec 32) (e : ArpEntry), (s.port n).arpEntry ip.toNat = some e →
      (e.tries ≠ 0 → e.tries < 3 →
        ∃ t, exec (.arpRetry n ip) s = .next t ∧ t.now = max s.now (e.at_ + 1000) ∧
          (t.port n).arpEntry ip.toNat = some { e with tries := e.tries + 1, at_ := t.now }) ∧
      (3 ≤ e.tries →
        ∃ t, exec (.arpRetry n ip) s = .next t ∧ t.now = max s.now (e.at_ + 1000) ∧ (t.port n).arpEntry ip.toNat = none ∧
          (t.port n).tx = (s.port n).tx))

/-- Transmission (R308 to R311, R325, R328 to R330): the chosen frame goes on the wire and completes with its time stamp; its completion joins the
path's ring; a host frame is queued with the bytes of the path's buffer; wraps are counted. -/
def Obligations.Transmission : Prop :=
  ∀ (s : State) (n : Fin 2) (p : Path),
    (∀ f, (s.port n).sending = none → s.linkUp n = true → s.esc.restarting.contains (.netEngine n) = false →
      s.txChoice n = some f → (s.txLate f && s.timebase && s.flag (Fld.NET_TXQ_CFG_LATE_POLICY n f.queue)) = false →
        ∃ t, exec (.txStart n) s = .next t ∧ (t.port n).sending = some { f with late := s.txLate f } ∧
          (t.port n).tx = takeFirst f.queue (s.port n).tx ∧ t.led = s.led) ∧
    (∀ f ts, (s.port n).sending = some f →
      (∃ t, exec (.txComplete n .linkDown ts) s = .next t ∧ (t.port n).sending = none ∧ (t.port n).tx = (s.port n).tx) ∧
      (∃ t, exec (.txComplete n .sent ts) s = .next t ∧ (t.port n).sending = none ∧ t.ptp.ns = ptpNs ts ∧
        (t.port n).sent = f.wire (s.txStamp n ts)) ∧
      (f.follow = none → f.late = false → f.launch = false → f.host = some p → (s.path p).htxDone.length < 16 →
        ∃ t, exec (.txComplete n .sent ts) s = .next t ∧ (t.path p).htxDone =
          (s.path p).htxDone ++ [doneWords f.tag.toNat txSent (if f.tsreq then some (ptpTime (s.txStamp n ts)) else none)])) ∧
    (∀ (x : PtpTime) (f : TxFrame) (fs : List TxFrame), (s.port n).tx = f :: fs → f.launch = true →
      launchDiff f.lt (ptpNs x) ≤ 0 →
        ∃ t, exec (.launchTime n x) s = .next t ∧ (t.port n).tx.head? = some { f with eligible := true } ∧
          (t.port n).tx.length = (s.port n).tx.length ∧ t.ptp.ns = ptpNs x ∧ t.led = s.led) ∧
    (∃ t, exec .nsWrap s = .next t ∧ t.rd Fld.NET_NS_WRAP_WRAPS = (s.rd Fld.NET_NS_WRAP_WRAPS + 1) % 2 ^ 32 ∧
      t.ptp = { s.ptp with wraps := s.ptp.wraps + 1 } ∧ s.now ≤ t.now ∧ s.keepsWords t [Adr.NET_NS_WRAP] ∧ t.led = s.led) ∧
    (∀ d : Word, s.core.running = true → (s.path p).htx.length < 384 →
      exec (.htxDataWrite p d) s = .next (s.setPath p { s.path p with htx := (s.path p).htx ++ [d] })) ∧
    (∀ v : Word, s.core.running = true → v.getLsbD 30 = decide (n.val = 1) →
      s.htxResult p n (4 + bitsOf v.toNat 28 2) (bitsOf v.toNat 0 11) = 1 →
        ∃ t f, exec (.htxGo p v) s = .next t ∧ (t.port n).tx = (s.port n).tx ++ [f] ∧
          f.queue = 4 + bitsOf v.toNat 28 2 ∧ f.bytes.length = bitsOf v.toNat 0 11 ∧ f.host = some p ∧
          t.rdP p Fld.NET_HTX_CMD_RESULT = 1 ∧ (t.path p).htx = [] ∧ t.led = s.led) ∧
    (s.core.running = true → ∃ t, exec (.htxDoneRead p) s = .next t ∧
      (t.path p).htxDone = (s.path p).htxDone.drop 1 ∧ t.regs = s.regs ∧ t.led = s.led)

/-- Reception (R312, R325): a frame with an error is counted and goes nowhere; one that a host filter takes waits in its queue with
its time stamp; POP
loads the oldest into the path's buffer, whose words are then read in turn. -/
def Obligations.Reception : Prop :=
  ∀ (s : State) (n : Fin 2) (p : Path),
    (∀ bytes ts, s.linkUp n = true →
      ∃ t, exec (.rxFrame n bytes false ts) s = .next t ∧ (t.port n).rx = (s.port n).rx ∧
        t.rd (Fld.NET_RX_CNT_ERROR n) = min (s.rd (Fld.NET_RX_CNT_ERROR n) + 1) (2 ^ (Fld.NET_RX_CNT_ERROR n).width - 1)) ∧
    (∀ bytes ts i, s.linkUp n = true → 60 ≤ bytes.length → bytes.length ≤ 1518 → (ethParse bytes).vids = [] →
      (ethParse bytes).type ∉ [0x0800, 0x0806, 0x88F7] →
      (List.range 3).find? (fun j => s.filterHit n j (ethParse bytes)) = some i →
      ((s.port n).rx.filter fun y => y.1 = 5 + i).length < 8 →
        ∃ t, exec (.rxFrame n bytes true ts) s = .next t ∧ (t.port n).rx = (s.port n).rx ++ [(5 + i, ({ bytes, ts := s.rxStamp n ts } : RxFrame))] ∧
          t.flag Fld.SYS_IRQ_STAT_HRX = true ∧ t.led = s.led) ∧
    (∀ (v : Word) f, s.core.running = true →
      (s.port n).rx.find? (fun y => y.1 = 4 + bitsOf v.toNat 29 2) = some (4 + bitsOf v.toNat 29 2, f) →
        ∃ t, exec (.hrxPop p n v) s = .next t ∧ (t.path p).hrx n = (bytesWords f.bytes, 0) ∧
          (t.port n).rx = (s.port n).rx.erase (4 + bitsOf v.toNat 29 2, f) ∧ t.rdP p (Fld.NET_HRX_CMD_LOADED n) = 1 ∧
          t.rdP p (Fld.NET_HRX_CMD_LENGTH n) = f.bytes.length % 2 ^ 11 ∧ t.led = s.led) ∧
    (s.core.running = true →
      exec (.hrxDataRead p n) s = .next (s.setHrx p n (((s.path p).hrx n).1, ((s.path p).hrx n).2 + 1)))

/-- The PTP port (R322, R324): an announce timeout unlocks and leaves the parent; with fallback the port moves to B and
returns to A once A has been up with valid announces for 10 s; a master sends its Sync messages in sequence. -/
def Obligations.PtpPort : Prop :=
  ∀ s : State,
    (s.ptpState ≠ ptpDisabled → s.rd Fld.PTP_CFG_PORT ≠ 2 → s.flag Fld.PTP_CFG_SLAVE_ONLY = true →
      ∃ t, exec .announceTimeout s = .next t ∧ t.ptpState = ptpListening ∧ t.flag Fld.SYS_TIME_PTP_LOCKED = false ∧
        t.ptp.parent = none ∧ t.led = s.led) ∧
    (s.ptpState ≠ ptpDisabled → s.rd Fld.PTP_CFG_PORT = 2 → s.flag Fld.PTP_STATUS_ON_B = false →
      ∃ t, exec .announceTimeout s = .next t ∧ t.flag Fld.PTP_STATUS_ON_B = true ∧ t.ptpState = ptpListening ∧
        t.flag Fld.SYS_TIME_PTP_LOCKED = false) ∧
    (s.ptp.aSince = none → exec .ptpPortReturn s = .next s) ∧
    (∀ a, s.ptp.aSince = some a → s.rd Fld.PTP_CFG_PORT = 2 → s.flag Fld.PTP_STATUS_ON_B = true → s.linkUp 0 = true →
      max s.now (a + 10000) ≤ s.ptp.aLast + s.announceMs →
      ∃ t, exec .ptpPortReturn s = .next t ∧ t.flag Fld.PTP_STATUS_ON_B = false ∧ t.ptpState = ptpListening ∧
        t.flag Fld.SYS_TIME_PTP_LOCKED = false ∧ t.ptp.foreign = [] ∧
        t.now = max s.now (a + 10000) ∧ t.led = s.led) ∧
    (s.ptpState = ptpMaster →
      ∃ t, exec (.ptpMessageSend .sync) s = .next t ∧ t.ptp.seqSync = (s.ptp.seqSync + 1) % 65536 ∧ t.ptpState = ptpMaster ∧
        (s.portRuns s.ptpPort = true → s.txRoom s.ptpPort 0 = true →
          (t.port s.ptpPort).tx.length = (s.port s.ptpPort).tx.length + 1) ∧ t.led = s.led)

/-- Drega (R317 to R320): the request that has waited longest, of a source with no kept response and with a good header, is served,
where the command is for its type: its answer is kept, with STATUS OK and the words read or applied, or BAD_MESSAGE for a wrong body;
a reading and a publication that is due, its destination known, take the next RSEQ and wait for Garnet; a kept response
expires. -/
def Obligations.DregaService : Prop :=
  ∀ s : State,
    (∀ (p : Fin 2) (x : RxFrame), s.dregaNext = some (p, x) →
      let m := x.drega
      let r := x.source p
      let tag : BitVec 16 := BitVec.ofNat 16 (num m 2 2)
      let taken := s.dregaTake p x
      let fixed : Bool := num m 5 1 % 2 = 1
      let answered (t : State) (type status : Nat) (words : Option Nat) : Prop := ∃ k, t.kept.head? = some k ∧ k.src = r ∧
        k.tag = tag ∧ num k.payload 1 1 = type ∧ num k.payload 4 1 = status ∧ ∀ n ∈ words, num k.payload 12 2 = n
      let fl : Byte := BitVec.ofNat 8 (num m 5 1)
      let read : Instr := .regRead r tag fl (BitVec.ofNat 32 (num m 8 4)) (BitVec.ofNat 16 (num m 12 2))
      let write : Instr := .regWrite r tag fl (BitVec.ofNat 32 (num m 8 4)) (BitVec.ofNat 16 (num m 12 2)) (dregaData m)
      let reading : Instr := .reading r tag fl (BitVec.ofNat 64 (num m 8 8)) (readingItems m)
      s.keptFor r tag = none → dregaHeadOk m = true →
      (num m 1 1 = 1 → dregaOk m 256 0 = true → num m 8 4 + 4 * num m 12 2 ≤ 0x1000000 →
        (taken.readWords .drega fixed (num m 8 4) (num m 12 2)).2.dregaNext = none →
          ∃ t, exec read s = .next t ∧ answered t 0x81 0 (some (num m 12 2))) ∧
      (num m 1 1 = 1 → dregaOk m 256 0 = false → taken.dregaNext = none →
        ∃ t, exec read s = .next t ∧ answered t 0x81 3 none) ∧
      (∀ n u, num m 1 1 = 2 → dregaOk m 64 (num m 12 2) = true →
        taken.writeWords .drega fixed (num m 8 4) (dregaData m) = (.ok, n, u) → u.dregaNext = none →
          ∃ t, exec write s = .next t ∧ answered t 0x82 0 (some (num m 12 2)) ∧ t.led = u.led ∧ t.str = u.str ∧
            t.met = u.met) ∧
      (num m 1 1 = 2 → dregaOk m 64 (num m 12 2) = false → taken.dregaNext = none →
        ∃ t, exec write s = .next t ∧ answered t 0x82 3 none) ∧
      (∀ its : List (Nat × Nat), num m 1 1 = 3 → readingOk m = true → s.gar.serving = none → s.gar.verify = [] →
        s.gar.sign = [] →
        s.rdgTest (num m 5 1 / 2 % 2 = 1) (readingAsks m) = .inr its →
          ∃ t f, exec reading s = .next t ∧ t.gar.serving = some (.sign (.drega r tag) f) ∧
            t.rd Fld.SEC_RDG_SEQ_RSEQ = (s.rd Fld.SEC_RDG_SEQ_RSEQ + 1) % 2 ^ 32 ∧ t.led = s.led) ∧
      (num m 1 1 = 3 → readingOk m = false → taken.dregaNext = none →
        ∃ t, exec reading s = .next t ∧ answered t 0x83 3 none) ∧
      (num m 1 1 ≠ 1 → exec read s = .next s) ∧ (num m 1 1 ≠ 2 → exec write s = .next s) ∧
      (num m 1 1 ≠ 3 → exec reading s = .next s) ∧
      (∀ (r' : DregaSrc) (tag' : BitVec 16) fl' a w d (n : BitVec 64) is, (r', tag') ≠ (r, tag) →
        exec (.regRead r' tag' fl' a w) s = .next s ∧ exec (.regWrite r' tag' fl' a w d) s = .next s ∧
        exec (.reading r' tag' fl' n is) s = .next s)) ∧
    (∀ (r : DregaSrc) (tag : BitVec 16) fl a w d (n : BitVec 64) is, s.dregaNext = none →
      exec (.regRead r tag fl a w) s = .next s ∧ exec (.regWrite r tag fl a w d) s = .next s ∧
      exec (.reading r tag fl n is) s = .next s) ∧
    (∀ (r : DregaSrc) k, s.kept.find? (fun (x : Kept) => x.src.ip = r.ip && x.src.udp = r.udp) = some k →
      ∃ t, exec (.dregaKeptExpiry r) s = .next t ∧ t.now = max s.now (k.sent + 5000) ∧
        (∀ x ∈ t.kept, x ∈ s.kept ∧ (x.src.ip ≠ r.ip ∨ x.src.udp ≠ r.udp)) ∧ t.regs = s.regs ∧ t.led = s.led) ∧
    (∀ (k : Fin 4) items, s.core.loaded = true → s.pubDue k = true →
      ((s.port (if s.flag (Fld.NET_PUB_PORT k) then 1 else 0)).arpEntry
        (s.nextHop (if s.flag (Fld.NET_PUB_PORT k) then 1 else 0) (s.rd (Fld.NET_PUB_DST_ADDR k)))).isSome = true →
      s.rdgTest (s.flag (Fld.NET_PUB_SIG k)) (s.pubItems k) = .inr items → s.gar.serving = none → s.gar.verify = [] →
      s.gar.sign = [] →
        ∃ t lt f, exec (.published k) s = .next t ∧ t.gar.serving = some (.sign (.publish k lt) f) ∧
          t.rd Fld.SEC_RDG_SEQ_RSEQ = (s.rd Fld.SEC_RDG_SEQ_RSEQ + 1) % 2 ^ 32 ∧ t.led = s.led)

/-! ### The ring and the twin -/

/-- Enumeration of a ring (R354, R355, R357, R358): a frame whose CRC fails is counted and does no more; a ready member answers
DISCOVER with JOIN and enters RUN with its ADMIT; a master admits an expected position, sends DISCOVER while it searches, and at the
end of the search marks what has not joined ABSENT, as it does a member that is silent for 3 ticks; a foreign DISCOVER puts it into
FAULT, from which it searches anew; ports go down and come back. -/
def Obligations.RingEnumeration : Prop :=
  ∀ (s : State) (port : RingPort) (bs : List Byte),
    let sent (t : State) (type dest : Nat) (payload : List Byte) : Prop :=
      t.ring.out.getLast? = some (none, (s.ringFrame dest type payload).bytes)
    (s.ringOn = true → port ∉ s.ring.portDown → frameIs ftDiscover bs = true → linkRead ringMost bs = none →
      ∃ t, exec (.discover ⟨port, bs⟩) s = .next t ∧ t.rd Fld.CSC_ERR_CRC = min (s.rd Fld.CSC_ERR_CRC + 1) 0xFFFF ∧
        s.onlyWords t [Adr.CSC_ERR]) ∧
    (∀ f, s.ringOn = true → port ∉ s.ring.portDown → linkRead ringMost bs = some f → f.hops ≠ 8 →
      f.site = s.rd Fld.CSC_CFG_SITE_ID → f.ring = s.ringNo → f.seq ∉ s.seenOf f.src →
      (f.type = ftDiscover → f.payload.length = 0 →
        (s.isMaster = false → s.ringMine f = true → s.enum ≠ enOff →
          ∃ t, exec (.discover ⟨port, bs⟩) s = .next t ∧ sent t ftJoin 0 s.joinPayload ∧ t.led = s.led) ∧
        (s.isMaster = true → s.enum ≠ enOff → s.enum ≠ enFault →
          ∃ t, exec (.discover ⟨port, bs⟩) s = .next t ∧ t.enum = enFault ∧ t.ring.foreignAt = some s.now ∧ t.led = s.led)) ∧
      (∀ pos (h b c : List Byte), bs = h ++ b ++ c → f.type = ftJoin → f.payload.length = 10 → pos = num f.payload 8 1 → s.isMaster = true →
        s.ringMine f = true → s.enum = enSearch → pos < 8 → s.rd Fld.CSC_CFG_EXPECT / 2 ^ pos % 2 = 1 →
        s.ring.members.lookup pos = none →
          ∃ t, exec (.join port h b c) s = .next t ∧ t.rd Fld.CSC_STATUS_PRESENT / 2 ^ pos % 2 = 1 ∧
            t.rd Fld.CSC_STATUS_ABSENT / 2 ^ pos % 2 = 0 ∧
            t.ring.members.lookup pos = some (BitVec.ofNat 64 (num f.payload 0 8)) ∧ sent t ftAdmit pos [] ∧
            t.led = s.led) ∧
      (f.type = ftAdmit → f.payload.length = 0 → s.isMember = true → s.ringMine f = true → s.enum = enSearch →
        ∃ t, exec (.admitFrame ⟨port, bs⟩) s = .next t ∧ t.enum = enRun ∧ t.led = s.led)) ∧
    (s.ringOn = true → s.isMaster = true → s.enum = enSearch →
      (∃ t, exec .discoverSend s = .next t ∧ t.regs = s.regs ∧
        t.ring.out = s.ring.out ++
          (((List.range 8).filter fun p => s.rd Fld.CSC_CFG_EXPECT / 2 ^ p % 2 = 1).zipIdx.map fun (x : Nat × Nat) =>
            (none, { s.ringFrame x.1 ftDiscover [] with seq := s.ring.seq + BitVec.ofNat 16 x.2 }.bytes))) ∧
      (∃ t, exec .searchEnd s = .next t ∧ t.enum = enRun ∧ t.now = max s.now (s.ring.searchAt + 150) ∧
        (∀ p, p < 8 → s.rd Fld.CSC_CFG_EXPECT / 2 ^ p % 2 = 1 → s.rd Fld.CSC_STATUS_PRESENT / 2 ^ p % 2 = 0 →
          t.rd Fld.CSC_STATUS_ABSENT / 2 ^ p % 2 = 1) ∧
        (s.followsTwin = false → t.rd Fld.CSC_STATUS_ALIGN = alAligned) ∧ t.led = s.led)) ∧
    (s.ringOn = true → s.isMember = true → s.enum = enSearch →
      ∃ t, exec .joinRetry s = .next t ∧ sent t ftJoin 0 s.joinPayload ∧ t.regs = s.regs) ∧
    (∀ p : Fin 8, s.isMaster = true → s.rd Fld.CSC_STATUS_PRESENT / 2 ^ p.val % 2 = 1 →
      ((∀ k, s.ring.heard.lookup p.val = some k → k + 3 ≤ s.core.ticks) →
        ∃ t, exec (.memberAbsentTimeout p) s = .next t ∧ t.rd Fld.CSC_STATUS_ABSENT / 2 ^ p.val % 2 = 1 ∧ t.led = s.led) ∧
      (∀ k, s.ring.heard.lookup p.val = some k → s.core.ticks < k + 3 → exec (.memberAbsentTimeout p) s = .next s)) ∧
    (∀ a, s.isMaster = true → s.enum = enFault → s.ring.foreignAt = some a →
      ∃ t, exec .ringFaultTimeout s = .next t ∧ t.enum = enSearch ∧ t.now = max s.now (a + 10000)) ∧
    (∀ p : RingPort,
      (∃ t, exec (.nirairPortDown p) s = .next t ∧ p ∈ t.ring.portDown ∧
        (s.isMaster = true → otherPort p ∈ s.ring.portDown → ∀ i, i < 8 → s.rd Fld.CSC_STATUS_PRESENT / 2 ^ i % 2 = 1 →
          t.rd Fld.CSC_STATUS_ABSENT / 2 ^ i % 2 = 1)) ∧
      (∃ t, exec (.nirairSymbolLock p) s = .next t ∧ p ∉ t.ring.portDown ∧ t.regs = s.regs ∧
        (∀ q, q ≠ p → (q ∈ t.ring.portDown ↔ q ∈ s.ring.portDown))))

/-- Time on the ring (R356, R361 to R363, R366): markers are sent, forwarded with the delays added to ACC, and followed; a
member's first marker of a second sets its base, four with a large phase error lose the alignment, and without markers it is
held over; hops are measured and answered. Site contributions (R217, R367): the master takes the delta of a PRESENT member
whose ticks follow one another, for the fold of its tick, and acknowledges it; a member takes the acknowledgement. -/
def Obligations.RingTimeAndSites : Prop :=
  (∀ (s : State) (bs : List Byte),
     let valid (port : RingPort) (f : LinkFrame) : Prop := s.ringOn = true ∧ port ∉ s.ring.portDown ∧
       linkRead ringMost bs = some f ∧ f.hops ≠ 8 ∧ f.site = s.rd Fld.CSC_CFG_SITE_ID ∧ f.ring = s.ringNo
     (∀ (port : RingPort) (f : LinkFrame) (epoch : BitVec 64) (lag : Int), valid port f → f.seq ∉ s.seenOf f.src →
       f.type = ftMarker →
       let m := markerRead f.payload
       let e := markerPhase lag m.acc (s.hopDelay port)
       (f.dest ≠ s.position →
         ∃ t d, exec (.marker ⟨port, bs⟩ epoch lag) s = .next t ∧ 1920 ≤ d ∧ d ≤ 2880 ∧
           (some (otherPort port), { f with hops := f.hops + 1, payload := addAcc (s.hopDelay port + d) f.payload }.bytes)
             ∈ t.ring.out) ∧
       (f.payload.length = 20 → s.isMember = true → s.enum = enRun → f.src = 0 → s.followsTwin = false →
         s.ring.usedMarker ≠ some f.seq → (s.noteMarker port f).betterCopy port f = false →
         (m.second = true → s.rd Fld.CSC_STATUS_ALIGN = alNone →
           ∃ t, exec (.marker ⟨port, bs⟩ epoch lag) s = .next t ∧ t.ring.master = some (m.time, m.tsrc, 0) ∧
             t.rd Fld.CSC_MTICK_MTICK = m.mtick ∧ t.base = epoch.toNat ∧ t.rd Fld.CSC_STATUS_ALIGN = alAligning ∧
             t.led = s.led) ∧
         (m.second = false → s.rd Fld.CSC_STATUS_ALIGN = alAligned → s.ring.bad = 3 → 800 < e.natAbs →
           ∃ t, exec (.marker ⟨port, bs⟩ epoch lag) s = .next t ∧ t.rd Fld.CSC_STATUS_ALIGN = alNone ∧
             t.flag Fld.SYS_TIME_EPOCH_ALIGNED = false ∧ t.led = s.led))) ∧
     (s.flag Fld.AQ_STATUS_RUN = true → s.nextMarker < s.nextBoundary → s.ringOn = true → s.isMaster = true →
       s.enum = enRun →
         ∃ t, exec .markerSend s = .next t ∧ t.ring.sentAt = some s.nextMarker ∧ t.ring.out.getLast? =
           some (none, (s.ringFrame 0xFF ftMarker (markerBytes (s.ownMarker s.nextMarker))).bytes) ∧ t.led = s.led) ∧
     (s.nextBoundary ≤ s.nextMarker → exec .markerSend s = .next s) ∧
     ((s.isMember || s.followsTwin) = true → s.rd Fld.CSC_STATUS_ALIGN = alAligned →
       ∃ t, exec .holdover s = .next t ∧ t.rd Fld.CSC_STATUS_ALIGN = alHoldover ∧
         (s.until (s.ring.markerAt + 16)).onlyWords t [Adr.CSC_STATUS]) ∧
     (∃ t, exec .masterTimeTimeout s = .next t ∧ t.masterTime = none ∧ t.regs = s.regs ∧ t.led = s.led) ∧
     (s.ringOn = true → ∃ t, exec .hopDelayMeasure s = .next t ∧ t.ring.out.length = s.ring.out.length + 2 ∧
       t.regs = s.regs ∧ t.led = s.led) ∧
     (∀ (port : RingPort) (f : LinkFrame) (sent arrived : BitVec 32), valid port f →
       let d := ((arrived - sent).toNat / 4 * 4 - num f.payload 0 4) / 2
       (f.type = ftDelayReq → ∃ t p, exec (.delayReq (if port = .u then .u else .d) bs) s = .next t ∧ p.length = 4 ∧
         t.ring.out.getLast? = some (some port, (s.ringFrame 0xFF ftDelayResp p).bytes) ∧ t.regs = s.regs) ∧
       (f.type = ftDelayResp → port = .u → ∃ t, exec (.delayResp .u bs sent arrived) s = .next t ∧
         t.rd Fld.CSC_HOP_HOP_U = min (meanHop ((d :: s.ring.hopU).take 16)) 0xFFFF ∧ s.keepsWords t [Adr.CSC_HOP]) ∧
       (f.type = ftDelayResp → port = .d → ∃ t, exec (.delayResp .d bs sent arrived) s = .next t ∧
         t.rd Fld.CSC_HOP_HOP_D = min (meanHop ((d :: s.ring.hopD).take 16)) 0xFFFF ∧ s.keepsWords t [Adr.CSC_HOP])) ∧
     (∀ (f : LinkFrame) (sent arrived : BitVec 32), s.linkOn .twin = true → linkRead twinMost bs = some f →
       (f.type = ftTwinDelayReq → ∃ t p, exec (.delayReq .twin bs) s = .next t ∧ p.length = 4 ∧
         t.twin.out.getLast? = some (s.twinFrame ftTwinDelayResp p).bytes ∧ t.regs = s.regs) ∧
       (f.type = ftTwinDelayResp → ∃ t, exec (.delayResp .twin bs sent arrived) s = .next t ∧
         t.twin.hops = (((arrived - sent).toNat / 4 * 4 - num f.payload 0 4) / 2 :: s.twin.hops).take 16 ∧ t.regs = s.regs))) ∧
  (∀ (s : State) (port : RingPort) (bs : List Byte) (f : LinkFrame), s.ringOn = true → port ∉ s.ring.portDown →
     linkRead ringMost bs = some f → f.hops ≠ 8 → f.site = s.rd Fld.CSC_CFG_SITE_ID → f.ring = s.ringNo →
     f.seq ∉ s.seenOf f.src →
     (∀ c, f.type = ftContrib → f.payload.length = 184 → c = contribRead f.payload → s.isMaster = true →
       s.ringMine f = true → s.enum = enRun → s.rd Fld.CSC_STATUS_PRESENT / 2 ^ f.src % 2 = 1 → s.led.frozen = false →
       (s.ring.lastContrib.lookup f.src).map (· + 1) = some c.mtick → s.ring.foldedTick < c.mtick →
       s.lastUid f.src = s.ring.members.lookup f.src →
         ∃ t d, exec (.contrib port bs) s = .next t ∧ t.led.site = s.led.site ++ [d] ∧ d.pos = f.src ∧ d.delta = c.delta ∧
           d.total = some c.total ∧ d.flags = c.flags ∧ t.led.com = s.led.com ∧
           t.ring.out.getLast? = some (none, (s.ringFrame f.src ftContribAck []).bytes)) ∧
     (f.type = ftContribAck →
       ∃ t, exec (.contribAck ⟨port, bs⟩) s = .next t ∧ f.seq ∈ t.seenOf f.src ∧ t.led = s.led ∧ t.str = s.str))

/-- The twin (R369 to R377): a frame whose CRC fails is counted and does no more; a HELLO makes the twin present and, when the
pairing tests pass, starts pairing, which a primary completes at once and a secondary once it is aligned; ticks are compared in
windows of WIN pair ticks; SOLE and the loss of presence make the device SINGLE. -/
def Obligations.TwinPairing : Prop :=
  ∀ s : State, s.twinOn = true →
    (∀ (h u p g v c : List Byte) bs, bs = h ++ u ++ p ++ g ++ v ++ c → frameIs ftHello bs = true → linkRead twinMost bs = none →
      ∃ t, exec (.hello h u p g v c) s = .next t ∧ t.rd Fld.CSC_ERR_CRC = min (s.rd Fld.CSC_ERR_CRC + 1) 0xFFFF ∧
        s.onlyWords t [Adr.CSC_ERR]) ∧
    (∀ (h u p g v c : List Byte) f, linkRead twinMost (h ++ u ++ p ++ g ++ v ++ c) = some f → f.type = ftHello → f.payload.length = 13 → s.twState = twWait →
      num f.payload 12 1 ≠ 0 →
      (num f.payload 0 8 ≠ 0 → num f.payload 0 8 = s.rd Fld.TWN_PEER_UID_UID →
        num f.payload 9 1 = s.rd Fld.CSC_CFG_POSITION → num f.payload 10 2 = s.rd Fld.CSC_CFG_SITE_ID →
        decide (num f.payload 8 1 = 1) ≠ s.flag Fld.TWN_STATUS_ROLE →
          ∃ t, exec (.hello h u p g v c) s = .next t ∧ t.flag Fld.TWN_STATUS_PRESENT = true ∧
            t.rd Fld.TWN_SEEN_UID_UID = num f.payload 0 8 ∧ t.twin.helloAt = some s.now ∧
            t.twState = (if s.flag Fld.TWN_STATUS_ROLE then twPaired else twPairing) ∧
            (s.flag Fld.TWN_STATUS_ROLE = true → t.flag Fld.SYS_STATUS_SINGLE = false) ∧ t.led = s.led) ∧
      (decide (num f.payload 8 1 = 1) = s.flag Fld.TWN_STATUS_ROLE →
        ∃ t, exec (.hello h u p g v c) s = .next t ∧ t.twState = twConflict ∧ t.flag Fld.SYS_STATUS_SINGLE = true)) ∧
    (∀ bs f (epoch : BitVec 64) (lag : Int), linkRead twinMost bs = some f → f.type = ftTwinMarker →
      f.payload.length = 20 → s.followsTwin = true → s.twState = twPairing →
      let m := markerRead f.payload
      (m.second = true → s.rd Fld.CSC_STATUS_ALIGN = alNone →
        ∃ t, exec (.twinMarker bs epoch lag) s = .next t ∧ t.rd Fld.CSC_STATUS_ALIGN = alAligning ∧
          t.base = epoch.toNat ∧ t.twState = twPairing) ∧
      (s.rd Fld.CSC_STATUS_ALIGN = alAligning → s.ring.good = 63 → (markerPhase lag m.acc s.twinHop).natAbs ≤ 80 →
        ∃ t, exec (.twinMarker bs epoch lag) s = .next t ∧ t.rd Fld.CSC_STATUS_ALIGN = alAligned ∧ t.twState = twPaired ∧
          t.flag Fld.SYS_STATUS_SINGLE = false ∧ t.flag Fld.SYS_TIME_EPOCH_ALIGNED = true ∧
          t.twin.pairedAt = s.core.ticks ∧ t.twin.own = [] ∧ t.twin.peer = [])) ∧
    (∀ (h b c : List Byte) f k, linkRead twinMost (h ++ b ++ c) = some f → f.type = ftDelta → f.payload.length = 280 → k = num f.payload 0 4 →
      s.twState = twPaired → s.flag Fld.TWN_STATUS_SOLE = false →
      (s.twin.start < k →
        ∃ t, exec (.twinDelta h b c) s = .next t ∧ t.led = s.led ∧ t.str = s.str ∧
          (s.twin.own.lookup k = none → t.twin.peer = s.twin.peer ++ [(k, deltaRead f.payload)]) ∧
          ((s.twin.own.lookup k).isSome = true → k ≤ s.windowLast →
            t.twin.own.lookup k = none ∧ t.twin.peer.lookup k = none ∧ t.twin.matched = s.twin.matched + 1)) ∧
      (k ≤ s.twin.start → exec (.twinDelta h b c) s = .next s)) ∧
    (∀ bs f, linkRead twinMost bs = some f → f.type = ftSole → f.payload.length = 0 → s.chip ≠ chipFrozen →
      ∃ t, exec (.sole bs) s = .next t ∧ t.flag Fld.TWN_STATUS_SOLE = true ∧ t.flag Fld.SYS_STATUS_SINGLE = true ∧
        t.led = s.led) ∧
    (s.flag Fld.TWN_STATUS_PRESENT = true → s.twState ≠ twOff →
      ∃ t, exec .twinPresenceLost s = .next t ∧ t.flag Fld.TWN_STATUS_PRESENT = false ∧ t.rd Fld.TWN_SEEN_UID_UID = 0 ∧
        t.twState = twWait ∧ t.flag Fld.SYS_STATUS_SINGLE = true ∧ t.twin.helloAt = none ∧ t.led = s.led) ∧
    (s.twState = twPaired → s.windowLast ≤ s.committedTick - s.twin.pairedAt →
      ∃ t, exec .twinWindowEnd s = .next t ∧ t.rd Fld.TWN_CMP_WINDOWS = (s.rd Fld.TWN_CMP_WINDOWS + 1) % 2 ^ 16 ∧
        t.flag Fld.TWN_STATUS_DISAGREE = decide (t.rd Fld.TWN_DIS_NOW ≠ 0) ∧ t.twin.start = s.windowLast ∧
        ((∀ x ∈ s.twin.own, x.1 ≤ s.windowLast) → t.twin.own = [] ∧ t.twin.sums = [] ∧ t.twin.matched = 0 ∧
          t.rd Fld.TWN_CMP_MISSED = min (s.rd Fld.TWN_CMP_MISSED +
            16 * (s.rd Fld.TWN_CFG_WIN - s.twin.matched)) (2 ^ Fld.TWN_CMP_MISSED.width - 1)) ∧
        (∀ b, b < 16 → (storeGet (fun _ => ({} : TwinSums)) s.twin.sums b).iOwn = 0 →
          t.rd (Fld.TWN_DEV_IMPORT b) = 0x8000) ∧ t.led = s.led)

/-! ### Configuration, flash, domains and panel -/

/-- Live loads (R402, R403): LOAD and LOAD_RESET read the slot that does not hold the running image; an accepted image is in
force at the first boundary after its acceptance. -/
def Obligations.LiveLoads : Prop :=
  ∀ s : State,
    (∀ (p : Path) (x : Session), s.core.running = true → s.gate p roleService true = .pass x → s.cfgBusy = false →
      (∃ t l, exec (.load p) s = .next t ∧ t.ldr.cur = some l ∧ l.slot = 1 - s.rd Fld.CFG_STATUS_ACTIVE_SLOT ∧
        l.live = true ∧ l.reset = false ∧ l.roles = x.role ∧ t.loader = ldRead ∧ s.keepsWords t [Adr.CFG_STATUS] ∧
        t.led = s.led ∧ t.str = s.str ∧ t.flash = s.flash) ∧
      (∃ t l, exec (.loadReset p) s = .next t ∧ t.ldr.cur = some l ∧ l.slot = 1 - s.rd Fld.CFG_STATUS_ACTIVE_SLOT ∧
        l.live = true ∧ l.reset = true ∧ t.loader = ldRead ∧ s.keepsWords t [Adr.CFG_STATUS] ∧ t.led = s.led ∧
        t.str = s.str ∧ t.flash = s.flash)) ∧
    (∀ im : Image, s.ldr.accepted = some im → s.core.loaded = true → s.core.warned = false →
      s.ldr.atTick < s.core.ticks →
        ∃ t, exec .loadTakesEffect s = .next t ∧ t.ldr.accepted = none ∧ t.loader = ldIdle ∧ t.flash = s.flash ∧
          (∀ b v, b < 16 → (Adr.BAY_UDIN b, v) ∈ im.regs → (∀ w, (Adr.BAY_UDIN b, w) ∈ im.regs → w = v) →
            t.word (Adr.BAY_UDIN b) = v))

/-- Flash commands (R391): READ, PROGRAM and ERASE start inside a SERVICE session outside the running slot; at its end READ
fills the page buffer, PROGRAM writes the page and ERASE the sector, and every other byte of the flash reads as before. -/
def Obligations.FlashCommands : Prop :=
  ∀ (s : State) (p : Path),
    (s.core.running = true → s.cfgBusy = false →
      (∀ x, s.gate p roleService false = .pass x →
        ∃ t, exec (.flashRead p) s = .next t ∧ t.ldr.flash = some { cmd := 1, addr := s.rd Fld.CFG_FL_ADDR_ADDR } ∧
          t.flag Fld.CFG_FL_CMD_BUSY = true ∧ t.flash = s.flash ∧ s.keepsWords t [Adr.CFG_FL_CMD, Adr.CFG_STATUS]) ∧
      (∀ x, s.gate p roleService true = .pass x →
        s.rd Fld.CFG_FL_ADDR_ADDR / cfgSlotBytes ≠ s.rd Fld.CFG_STATUS_ACTIVE_SLOT →
        (s.rd Fld.CFG_FL_ADDR_ADDR % 256 = 0 →
          ∃ t, exec (.flashProgram p) s = .next t ∧
            t.ldr.flash = some { cmd := 2, addr := s.rd Fld.CFG_FL_ADDR_ADDR, data := s.pageBuffer } ∧
            t.flag Fld.CFG_FL_CMD_BUSY = true ∧ t.flash = s.flash ∧ s.keepsWords t [Adr.CFG_FL_CMD, Adr.CFG_STATUS]) ∧
        (s.rd Fld.CFG_FL_ADDR_ADDR % 4096 = 0 →
          ∃ t, exec (.flashErase p) s = .next t ∧ t.ldr.flash = some { cmd := 3, addr := s.rd Fld.CFG_FL_ADDR_ADDR } ∧
            t.flag Fld.CFG_FL_CMD_BUSY = true ∧ t.flash = s.flash ∧ s.keepsWords t [Adr.CFG_FL_CMD, Adr.CFG_STATUS]))) ∧
    (∀ (j : FlashJob) (failed : Bool), s.ldr.flash = some j →
      ∃ t, exec (.flashCmdDone failed) s = .next t ∧ t.ldr.flash = none ∧ t.flag Fld.CFG_FL_CMD_BUSY = false ∧
        t.rd Fld.CFG_FL_CMD_RESULT = (if failed then 5 else 1) ∧ t.flag Fld.SYS_IRQ_STAT_FLASH = true ∧
        (j.cmd = 1 → t.flash = s.flash ∧ (failed = false →
          t.pageBuffer = s.flashRead (j.addr / 256 * 256) 256)) ∧
        (j.cmd = 2 → (∀ a, a < j.addr ∨ j.addr + max j.data.length 256 ≤ a → t.flashByte a = s.flashByte a) ∧
          (failed = false → ∀ i b, j.data[i]? = some b → t.flashByte (j.addr + i) = b)) ∧
        (j.cmd = 3 → (∀ a, a < j.addr ∨ j.addr + 4096 ≤ a → t.flashByte a = s.flashByte a) ∧
          (failed = false → ∀ i, i < 4096 → t.flashByte (j.addr + i) = 0xFF)) ∧ t.led = s.led ∧ t.str = s.str)

/-- The switched domains (R406 to R408): ON and OFF commit POWER_CMD and start the sequence, whose steps isolate the domain,
switch it off, and switch it on. -/
def Obligations.PowerDomains : Prop :=
  ∀ (s : State) (d : Fin 17),
    (∀ (p : Path) (x : Session), s.core.running = true → s.gate p roleService true = .pass x → s.domainOk d.val = true →
      s.canCommit →
      (s.domainPlan d true = .start →
        ∃ t, exec (.powerOn p (BitVec.ofNat 5 d.val)) s = .next t ∧ d ∈ t.pwr.up ∧
          t.rd Fld.PWR_BUSY_DOMAINS / 2 ^ d.val % 2 = 1 ∧ t.rd Fld.PWR_CMD_RESULT = 1 ∧
          t.led.com.st.aseq = s.led.com.st.aseq + 1) ∧
      (s.domainPlan d false = .start →
        ∃ t, exec (.powerOff p (BitVec.ofNat 5 d.val)) s = .next t ∧ d ∈ t.pwr.down ∧
          t.rd Fld.PWR_BUSY_DOMAINS / 2 ^ d.val % 2 = 1 ∧ t.rd Fld.PWR_CMD_RESULT = 1 ∧
          t.led.com.st.aseq = s.led.com.st.aseq + 1)) ∧
    (d ∈ s.pwr.down → d ∉ s.pwr.isolated →
      ∃ t, exec (.domainDrainDone d) s = .next t ∧ t.pwr = { s.pwr with isolated := d :: s.pwr.isolated } ∧
        t.led.com = s.led.com ∧ t.str = s.str) ∧
    (d ∈ s.pwr.isolated → s.rd Fld.PWR_PEND_DOMAINS / 2 ^ d.val % 2 = 0 →
      ∃ t, exec (.domainOffDone d) s = .next t ∧ t.rd Fld.PWR_ON_ON / 2 ^ d.val % 2 = 0 ∧
        t.rd Fld.PWR_BUSY_DOMAINS / 2 ^ d.val % 2 = 0 ∧ d ∉ t.pwr.down ∧ d ∉ t.pwr.isolated ∧ t.led = s.led) ∧
    (d ∈ s.pwr.up → d ∉ s.pwr.offAfter →
      ∃ t, exec (.domainOnDone d) s = .next t ∧ t.rd Fld.PWR_ON_ON / 2 ^ d.val % 2 = 1 ∧
        t.rd Fld.PWR_BUSY_DOMAINS / 2 ^ d.val % 2 = 0 ∧ d ∉ t.pwr.up ∧ t.led = s.led)

/-- The panel (R415, R420 to R423, R425): requests wait for their update, which renders the window and
makes way for the next; the buffers exchange at a
frame start; low VPNL blanks it; the crack-detect loop is measured every 10 ms, and its condition holds while two measurements
in succession read OPEN or SHORT, or its limits are out of order. -/
def Obligations.PanelShows : Prop :=
  ∀ s : State, s.core.running = true →
    (∀ (p : Path) (win : BitVec 8), s.panelOn = true → s.core.warned = false →
      ∃ t, exec (.panelReq p win) s = .next t ∧ t.led = s.led ∧ t.panel = s.panel ∧
        (∀ w, w < 8 → win.getLsbD w = true → s.flag (Fld.PNL_WIN_CFG_ENABLE w) = true →
          (s.rd (Fld.PNL_WIN_STAT_ERR w) ≠ 1 ∨ s.badGeom w = false) →
          t.flag (Fld.PNL_WIN_STAT_PENDING w) = true ∧ t.rd Fld.PNL_STATUS_PENDING / 2 ^ w % 2 = 1)) ∧
    (∀ w, s.panelOn = true → s.panel.cur = none → s.rd Fld.PNL_STATUS_STATE ≠ pnPf →
      (List.range 8).find? (fun w => s.flag (Fld.PNL_WIN_STAT_PENDING w)) = some w →
        ∃ t, exec .panelUpdateStart s = .next t ∧ t.panel = { s.panel with cur := some (w, s.winSource w) } ∧
          t.flag (Fld.PNL_WIN_STAT_PENDING w) = false ∧ t.flag (Fld.PNL_WIN_STAT_UPDATING w) = true ∧
          t.rd Fld.PNL_STATUS_CUR_WIN = w ∧ s.keepsWords t [Adr.PNL_STATUS, Adr.PNL_WIN_STAT w]) ∧
    (∀ w src, w < 8 → s.panel.cur = some (w, src) →
      ∃ t, exec .panelUpdateDone s = .next t ∧ t.panel.rendered = true ∧
        t.panel.hidden = s.rendered w (s.winText w src).1 s.panel.hidden ∧ t.panel.shown = s.panel.shown ∧
        t.rd (Fld.PNL_WIN_STAT_UPDATES w) = (s.rd (Fld.PNL_WIN_STAT_UPDATES w) + 1) % 2 ^ 16 ∧
        t.rd (Fld.PNL_WIN_STAT_ERR w) = (s.winText w src).2 ∧ t.led = s.led ∧
        ((∀ v, v < 8 → s.flag (Fld.PNL_WIN_STAT_PENDING v) = false) → t.panel.cur = none) ∧
        (∀ v, s.panelOn = true → s.rd Fld.PNL_STATUS_STATE ≠ pnPf →
          (List.range 8).find? (fun v => s.flag (Fld.PNL_WIN_STAT_PENDING v)) = some v →
            ∃ x, t.panel.cur = some (v, x))) ∧
    (s.rd Fld.PNL_STATUS_STATE = pnScan → s.flag Fld.PNL_STATUS_VPNL_LOW = false →
      timingOk (s.word Adr.PNL_TIMING) = true →
        ∃ t, exec .panelFrameStart s = .next t ∧ t.rd Fld.PNL_STATUS_STATE = pnScan ∧ t.panel.rendered = false ∧
          t.panel.shown = (if s.panel.rendered then s.panel.hidden else s.panel.shown) ∧
          t.panel.timing = s.word Adr.PNL_TIMING ∧ s.keepsWords t [Adr.PNL_STATUS]) ∧
    (s.domOn 16 = true → s.flag Fld.PNL_STATUS_VPNL_LOW = false →
      ∃ t, exec .panelVpnlLow s = .next t ∧ t.flag Fld.PNL_STATUS_VPNL_LOW = true ∧
        t.rd Fld.PNL_STATUS_STATE = (if s.rd Fld.PNL_STATUS_STATE = pnPf then pnPf else pnVpnl) ∧ t.panel = s.panel ∧
        t.led = s.led) ∧
    (s.flag Fld.PNL_STATUS_VPNL_LOW = true →
      ∃ t, exec .panelVpnlOk s = .next t ∧ t.flag Fld.PNL_STATUS_VPNL_LOW = false ∧
        t.rd Fld.PNL_STATUS_STATE = s.rd Fld.PNL_STATUS_STATE ∧ t.panel = s.panel ∧ t.led = s.led) ∧
    (∀ ohms, s.core.ready = true → s.flag Fld.PNL_CRACK_CFG_ENABLE = true → s.underTest 31 = false →
      ∃ t, exec (.crackMeasure ohms) s = .next t ∧ t.rd Fld.PNL_CRACK_STAT_LAST = (s.crackReading ohms).val ∧
        t.rd Fld.PNL_CRACK_STAT_OHMS = min ohms 0xFFFF ∧ t.panel.crack = s.crackReading ohms ∧
        t.panel.crackAt = some (max s.now (s.panel.crackAt.elim 0 (· + 10))) ∧ t.flash = s.flash ∧
        (s.crackWrong = false → s.crackReading ohms = 0 → ∀ x ∈ t.tmp.cond, x.val ≠ 31) ∧
        (s.crackWrong = true ∨ (s.crackReading ohms ≠ 0 ∧ s.crackReading ohms = s.panel.crack) →
          ∃ x ∈ t.tmp.cond, x.val = 31))

/-! ### The host port -/

/-- A write of one register (R5, R8): an Open register without an action takes its RW bits and clears its W1C bits where 1 was
written, and nothing else changes; a write of an Image register changes nothing, nor does one of a Sealed register outside a
session. -/
def Obligations.RegisterWrites : Prop :=
  ∀ (s : State) (p : Path) (a : BitVec 32) (v : Word) (d : RegDef) (k : Nat), s.core.running = true →
    s.absent a.toNat = false → (regShape a.toNat).isSome = true → writerAt a.toNat = none → findReg a.toNat = some (d, k) →
    (d.cls = .open_ → pathHeld a.toNat = false →
      ∃ t, exec (.registerWrite p a v) s = .next t ∧ t.word a.toNat = openBits d k (s.word a.toNat) v ∧
        s.onlyWords t [a.toNat]) ∧
    (d.cls = .image → exec (.registerWrite p a v) s = .next s) ∧
    (d.cls = .sealed → s.session p = none → exec (.registerWrite p a v) s = .next s)

/-- CRC-8 (R431): the remainder of the message, its first bit of highest degree, times x^8 by x^8 + x^2 + x + 1 over two
elements, without reflection and inversion; over "123456789" it is 0xF4. -/
def Obligations.Crc8IsRemainder : Prop :=
  let bits (b : Byte) : List (ZMod 2) := (List.range 8).map fun i => if b.getLsbD (7 - i) then 1 else 0
  let poly (l : List (ZMod 2)) : Polynomial (ZMod 2) := l.foldl (fun f c => f * Polynomial.X + Polynomial.C c) 0
  (∀ bs : List Byte, ∃ q : Polynomial (ZMod 2), poly (bs.flatMap bits) * Polynomial.X ^ 8 =
    q * (Polynomial.X ^ 8 + Polynomial.X ^ 2 + Polynomial.X + 1) + poly (bits (crc8 bs))) ∧
  crc8 [0x31, 0x32, 0x33, 0x34, 0x35, 0x36, 0x37, 0x38, 0x39] = 0xF4

/-- Frames of the host port (R430 to R436): a frame whose header CRC fails is answered HCRC and accesses nothing; a read
answers STATUS OK, its words and their CRC; a write whose data CRC fails applies nothing; a write whose words are taken answers
STATUS OK with their number; an abandoned frame is counted. -/
def Obligations.HostFrames : Prop :=
  ∀ (s : State) (a : BitVec 32) (n : BitVec 16) (hcrc dcrc : Byte) (data : List Word), s.core.running = true →
    (crc8 (hpHeader hpRead a n) ≠ hcrc →
      ∃ t, exec (.read a n hcrc) s = .next t ∧ t.spiOut = [4, crc8 [4]] ∧
        t.rd Fld.SYS_HOST_ERR_HCRC = min (s.rd Fld.SYS_HOST_ERR_HCRC + 1) 0xFF ∧
        t = { s with regs := t.regs, spiOut := t.spiOut } ∧ s.keepsWords t [Adr.SYS_HOST_ERR]) ∧
    (crc8 (hpHeader hpRead a n) = hcrc → hpFrameOk hpRead a n = true →
      ∃ t bs, exec (.read a n hcrc) s = .next t ∧ t.spiOut = bs ++ [crc8 bs] ∧ bs.length = 1 + 4 * n.toNat ∧
        bs.head? = some 0) ∧
    (crc8 (hpHeader hpReadFixed a n) = hcrc → hpFrameOk hpReadFixed a n = true →
      ∃ t bs, exec (.readFixed a n hcrc) s = .next t ∧ t.spiOut = bs ++ [crc8 bs] ∧ bs.length = 1 + 4 * n.toNat ∧
        bs.head? = some 0) ∧
    (crc8 (hpHeader hpWrite a n) = hcrc → hpFrameOk hpWrite a n = true → data.length = n.toNat →
      (crc8 (data.flatMap wordBytes) ≠ dcrc →
        ∃ t, exec (.write a n hcrc data dcrc) s = .next t ∧ t.spiOut = [5, 0, 0, crc8 [5, 0, 0]] ∧
          t.rd Fld.SYS_HOST_LAST_APPLIED = 0 ∧ t.rd Fld.SYS_HOST_LAST_STATUS = 5 ∧
          t = { s with regs := t.regs, spiOut := t.spiOut } ∧ s.keepsWords t [Adr.SYS_HOST_ERR, Adr.SYS_HOST_LAST]) ∧
      (∀ k u, crc8 (data.flatMap wordBytes) = dcrc → s.writeWords .spi false a.toNat data = (.ok, k, u) →
        ∃ t, exec (.write a n hcrc data dcrc) s = .next t ∧ t = { u with regs := t.regs, spiOut := t.spiOut } ∧
          t.spiOut.take 3 = 0 :: beBytes 2 n.toNat ∧ t.rd Fld.SYS_HOST_LAST_APPLIED = n.toNat ∧
          t.rd Fld.SYS_HOST_LAST_CMD = 2 ∧ t.rd Fld.SYS_HOST_LAST_STATUS = 0 ∧ u.keepsWords t [Adr.SYS_HOST_LAST])) ∧
    (crc8 (hpHeader hpWriteFixed a n) = hcrc → hpFrameOk hpWriteFixed a n = true → data.length = n.toNat →
      ∀ k u, crc8 (data.flatMap wordBytes) = dcrc → s.writeWords .spi true a.toNat data = (.ok, k, u) →
        ∃ t, exec (.writeFixed a n hcrc data dcrc) s = .next t ∧ t = { u with regs := t.regs, spiOut := t.spiOut } ∧
          t.spiOut.take 3 = 0 :: beBytes 2 n.toNat ∧ t.rd Fld.SYS_HOST_LAST_APPLIED = n.toNat ∧
          t.rd Fld.SYS_HOST_LAST_CMD = 4 ∧ u.keepsWords t [Adr.SYS_HOST_LAST]) ∧
    (∃ t, exec (.frameAbandoned .beforeCrc) s = .next t ∧ t.spiOut = [] ∧
      t.rd Fld.SYS_HOST_ERR_ABORTED = min (s.rd Fld.SYS_HOST_ERR_ABORTED + 1) 0xFF ∧
      t = { s with regs := t.regs, spiOut := [] } ∧ s.keepsWords t [Adr.SYS_HOST_ERR])

/-! ### The whole machine -/

/-- No command touches the queue: what waits is the step's alone. -/
def Obligations.QueueUntouched : Prop := ∀ (c : Instr) (s t : State), exec c s = .next t → t.pending = s.pending

/-- Without a flash command in progress no command changes the flash (R391). -/
def Obligations.FlashKept : Prop :=
  ∀ (c : Instr) (s t : State), s.ldr.flash = none → exec c s = .next t → t.flash = s.flash

/-- The fuses are those of the part: no command changes them but to blow light-group fuses, which are never unblown (R302). -/
def Obligations.FusesKept : Prop :=
  ∀ (c : Instr) (s t : State), exec c s = .next t →
    t.fuses = { s.fuses with lsg := t.fuses.lsg } ∧ s.fuses.lsg &&& ~~~ t.fuses.lsg = 0
end

