-- ==== Sys2Proof/Laws/Store.lean ====
section
/-!
SUPPORT. Laws of the sparse stores and of the register words and fields: a read after a write, the frame of a write, and
the canonical form, which every write keeps.
-/

namespace Sys2Proof.Machine

/-! ### Sparse stores -/

section
variable {α : Type} {d : Nat → α} {m : List (Nat × α)} {a b : Nat} {v : α}

theorem lookup_insertSorted_same (h : ∀ p ∈ m, p.1 ≠ a) : (insertSorted a v m).lookup a = some v := by
  induction m with
  | nil => simp [insertSorted]
  | cons p m ih =>
    have hp : p.1 ≠ a := h p (by simp)
    have ha : (a == p.1) = false := by simpa using fun e : a = p.1 => hp e.symm
    unfold insertSorted
    split
    · simp [List.lookup]
    · obtain ⟨k, w⟩ := p
      simp only [List.lookup, ha]
      exact ih fun q hq => h q (by simp [hq])

theorem lookup_insertSorted_other (h : b ≠ a) : (insertSorted a v m).lookup b = m.lookup b := by
  have hb : (b == a) = false := by simpa using h
  induction m with
  | nil => simp [insertSorted, List.lookup, hb]
  | cons p m ih =>
    obtain ⟨k, w⟩ := p
    unfold insertSorted
    split
    · simp [List.lookup, hb]
    · simp only [List.lookup]
      split <;> simp_all

theorem lookup_filter_same : (m.filter fun p => p.1 ≠ a).lookup a = none := by
  induction m with
  | nil => rfl
  | cons p m ih =>
    obtain ⟨k, w⟩ := p
    by_cases hk : k = a
    · simpa [List.filter, hk] using ih
    · have ha : (a == k) = false := by simpa using fun e : a = k => hk e.symm
      simpa [List.filter, hk, List.lookup, ha] using ih

theorem lookup_filter_other (h : b ≠ a) : (m.filter fun p => p.1 ≠ a).lookup b = m.lookup b := by
  induction m with
  | nil => rfl
  | cons p m ih =>
    obtain ⟨k, w⟩ := p
    by_cases hk : k = a
    · have hb : (b == a) = false := by simpa using h
      simpa [List.filter, hk, List.lookup, hb] using ih
    · simp only [List.filter, ne_eq, hk, not_false_eq_true, decide_true, List.lookup]
      split <;> simp_all

/-- A read after a write of the same key gives the value written. -/
@[simp] theorem storeGet_storeSet_same [DecidableEq α] : storeGet d (storeSet d m a v) a = v := by
  unfold storeGet storeSet
  split
  · rename_i h; simp only [lookup_filter_same]; simp [h]
  · rw [lookup_insertSorted_same]; · rfl
    intro p hp
    simpa using (List.mem_filter.1 hp).2

/-- A write leaves every other key alone. -/
theorem storeGet_storeSet_other [DecidableEq α] (h : b ≠ a) : storeGet d (storeSet d m a v) b = storeGet d m b := by
  unfold storeGet storeSet
  split
  · rw [lookup_filter_other h]
  · rw [lookup_insertSorted_other h, lookup_filter_other h]

theorem mem_insertSorted {p : Nat × α} : p ∈ insertSorted a v m ↔ p = (a, v) ∨ p ∈ m := by
  induction m with
  | nil => simp [insertSorted]
  | cons q m ih =>
    unfold insertSorted
    split <;> simp_all
    tauto

theorem insertSorted_rising (h : m.Pairwise fun p q => p.1 < q.1) (ha : ∀ p ∈ m, p.1 ≠ a) :
    (insertSorted a v m).Pairwise fun p q => p.1 < q.1 := by
  induction m with
  | nil => simp [insertSorted]
  | cons q m ih =>
    rw [List.pairwise_cons] at h
    have hq := ha q (by simp)
    unfold insertSorted
    split
    · rename_i hlt
      refine List.pairwise_cons.2 ⟨fun p hp => ?_, List.pairwise_cons.2 h⟩
      rcases List.mem_cons.1 hp with rfl | hp
      · exact hlt
      · exact lt_trans hlt (h.1 p hp)
    · rename_i hge
      refine List.pairwise_cons.2 ⟨fun p hp => ?_, ih h.2 fun p hp => ha p (by simp [hp])⟩
      rcases mem_insertSorted.1 hp with rfl | hp
      · simp only; omega
      · exact h.1 p hp

/-- A write keeps the canonical form. -/
theorem storeWf_storeSet [DecidableEq α] (h : storeWf d m) : storeWf d (storeSet d m a v) := by
  have hf : (m.filter fun p => p.1 ≠ a).Pairwise fun p q => p.1 < q.1 := h.1.filter _
  unfold storeSet
  split
  · exact ⟨hf, fun p hp => h.2 p (List.mem_filter.1 hp).1⟩
  · rename_i hv
    refine ⟨insertSorted_rising hf fun p hp => by simpa using (List.mem_filter.1 hp).2, fun p hp => ?_⟩
    rcases mem_insertSorted.1 hp with rfl | hp
    · exact hv
    · exact h.2 p (List.mem_filter.1 hp).1

/-- The empty store is in canonical form. -/
@[simp] theorem storeWf_nil : storeWf d ([] : List (Nat × α)) := ⟨List.Pairwise.nil, by simp⟩

end

/-! ### Numbers held by words -/

theorem putWords_wf {m : List (Nat × Word)} (h : storeWf resetWord m) (a v n : Nat) :
    storeWf resetWord (putWords m a v n) := by
  induction n generalizing m a v with
  | zero => exact h
  | succ n ih => exact ih (storeWf_storeSet h) _ _

theorem storeGet_putWords_other {m : List (Nat × Word)} {a b v n : Nat} (h : b < a ∨ a + 4 * n ≤ b) :
    storeGet resetWord (putWords m a v n) b = storeGet resetWord m b := by
  induction n generalizing m a v with
  | zero => rfl
  | succ n ih =>
    rw [putWords, ih (by omega), storeGet_storeSet_other (by omega)]

theorem wordsAt_congr {g k : Nat → Word} {a n : Nat} (h : ∀ b, a ≤ b → b < a + 4 * n → g b = k b) :
    wordsAt g a n = wordsAt k a n := by
  induction n generalizing a with
  | zero => rfl
  | succ n ih =>
    rw [wordsAt, wordsAt, h a (by omega) (by omega), ih fun b h1 h2 => h b (by omega) (by omega)]

theorem wordsAt_putWords {m : List (Nat × Word)} {a v n : Nat} :
    wordsAt (storeGet resetWord (putWords m a v n)) a n = v % 2 ^ (32 * n) := by
  induction n generalizing m a v with
  | zero => simp [wordsAt, Nat.mod_one]
  | succ n ih =>
    rw [wordsAt, putWords, ih, storeGet_putWords_other (by omega), storeGet_storeSet_same, BitVec.toNat_ofNat,
      show 32 * (n + 1) = 32 + 32 * n by ring, pow_add, Nat.mod_mul]

theorem wordsAt_putWords_other {m : List (Nat × Word)} {a b v n k : Nat} (h : b + 4 * k ≤ a ∨ a + 4 * n ≤ b) :
    wordsAt (storeGet resetWord (putWords m a v n)) b k = wordsAt (storeGet resetWord m) b k :=
  wordsAt_congr fun c h1 h2 => storeGet_putWords_other (by omega)

theorem wordsAt_lt (g : Nat → Word) (a n : Nat) : wordsAt g a n < 2 ^ (32 * n) := by
  induction n generalizing a with
  | zero => simp [wordsAt]
  | succ n ih =>
    have h1 := (g a).isLt
    have h2 := ih (a + 4)
    rw [wordsAt, show 32 * (n + 1) = 32 + 32 * n by ring, pow_add]
    nlinarith

/-! ### Bit fields -/

theorem bitsOf_withBits (v lo w x : Nat) : bitsOf (withBits v lo w x) lo w = x % 2 ^ w := by
  unfold bitsOf withBits
  have h0 : 0 < 2 ^ lo := by positivity
  rw [Nat.add_mul_div_left _ _ h0, Nat.div_eq_of_lt (Nat.mod_lt _ h0), Nat.zero_add, Nat.add_mul_mod_self_left,
    Nat.mod_mod]

theorem bitsOf_withBits_above {v lo w x l k : Nat} (h : lo + w ≤ l) : bitsOf (withBits v lo w x) l k = bitsOf v l k := by
  unfold bitsOf withBits
  obtain ⟨e, rfl⟩ := Nat.exists_eq_add_of_le h
  have h0 : 0 < 2 ^ lo := by positivity
  have h1 : 0 < 2 ^ w := by positivity
  have key (z : Nat) : (v % 2 ^ lo + 2 ^ lo * (x % 2 ^ w + 2 ^ w * z)) / 2 ^ (lo + w + e) = z / 2 ^ e := by
    rw [show 2 ^ (lo + w + e) = 2 ^ lo * (2 ^ w * 2 ^ e) by rw [pow_add, pow_add, mul_assoc],
      ← Nat.div_div_eq_div_mul, Nat.add_mul_div_left _ _ h0, Nat.div_eq_of_lt (Nat.mod_lt v h0), Nat.zero_add,
      ← Nat.div_div_eq_div_mul, Nat.add_mul_div_left _ _ h1, Nat.div_eq_of_lt (Nat.mod_lt x h1), Nat.zero_add]
  rw [key, Nat.div_div_eq_div_mul, ← pow_add]

theorem bitsOf_withBits_below {v lo w x l k : Nat} (h : l + k ≤ lo) : bitsOf (withBits v lo w x) l k = bitsOf v l k := by
  unfold bitsOf withBits
  obtain ⟨e, rfl⟩ := Nat.exists_eq_add_of_le h
  have h0 : 0 < 2 ^ l := by positivity
  generalize x % 2 ^ w + 2 ^ w * (v / 2 ^ (l + k + e + w)) = y
  rw [show 2 ^ (l + k + e) = 2 ^ l * (2 ^ k * 2 ^ e) by rw [pow_add, pow_add, mul_assoc], mul_assoc,
    Nat.add_mul_div_left _ _ h0, mul_assoc, Nat.add_mul_mod_self_left, Nat.mod_mul_right_div_self,
    Nat.mod_mul_right_mod]

theorem withBits_lt {v lo w x n : Nat} (hv : v < 2 ^ n) (h : lo + w ≤ n) : withBits v lo w x < 2 ^ n := by
  unfold withBits
  obtain ⟨e, rfl⟩ := Nat.exists_eq_add_of_le h
  have h0 : 0 < 2 ^ lo := by positivity
  have h1 : 0 < 2 ^ w := by positivity
  have h2 : v / 2 ^ (lo + w) < 2 ^ e := Nat.div_lt_of_lt_mul (by rwa [← pow_add])
  have h3 := Nat.mod_lt v h0
  have h4 := Nat.mod_lt x h1
  have h5 : x % 2 ^ w + 2 ^ w * (v / 2 ^ (lo + w)) < 2 ^ w * 2 ^ e := by nlinarith
  rw [show 2 ^ (lo + w + e) = 2 ^ lo * (2 ^ w * 2 ^ e) by rw [pow_add, pow_add, mul_assoc]]
  nlinarith

theorem field_in_words (f : Field) : f.lo + f.width ≤ 32 * f.words := by
  unfold Field.words
  omega

/-! ### Register fields -/

/-- A field reads as the value written to it, cut to its width. -/
@[simp] theorem State.rd_wr_same (s : State) (f : Field) (v : Nat) : (s.wr f v).rd f = v % 2 ^ f.width := by
  have h : (s.wr f v).word = storeGet resetWord (putWords s.regs f.addr
      (withBits (wordsAt s.word f.addr f.words) f.lo f.width v) f.words) := rfl
  rw [State.rd, h, wordsAt_putWords, Nat.mod_eq_of_lt (withBits_lt (wordsAt_lt _ _ _) (field_in_words f)),
    bitsOf_withBits]

/-- Whether two fields share no bit: their words are apart, or they lie in the same words at different bits. -/
def Field.apart (f g : Field) : Bool :=
  decide (g.addr + 4 * g.words ≤ f.addr) || decide (f.addr + 4 * f.words ≤ g.addr) ||
    (decide (f.addr = g.addr) && decide (f.words = g.words) &&
      (decide (f.lo + f.width ≤ g.lo) || decide (g.lo + g.width ≤ f.lo)))

/-- A write of a field leaves every field apart from it alone. -/
theorem State.rd_wr_apart (s : State) {f g : Field} (v : Nat) (h : f.apart g = true) : (s.wr f v).rd g = s.rd g := by
  have hw : (s.wr f v).word = storeGet resetWord (putWords s.regs f.addr
      (withBits (wordsAt s.word f.addr f.words) f.lo f.width v) f.words) := rfl
  simp only [Field.apart, Bool.or_eq_true, Bool.and_eq_true, decide_eq_true_eq] at h
  rcases h with h | ⟨⟨ha, hn⟩, h⟩
  · rw [State.rd, hw, wordsAt_putWords_other (by omega)]
    rfl
  · rw [State.rd, hw, ← ha, ← hn, wordsAt_putWords,
      Nat.mod_eq_of_lt (withBits_lt (wordsAt_lt _ _ _) (field_in_words f)), State.rd, ← ha, ← hn]
    rcases h with h | h
    · exact bitsOf_withBits_above h
    · exact bitsOf_withBits_below h

/-- A write of a field leaves every word outside its words alone. -/
theorem State.word_wr_other (s : State) {f : Field} (v : Nat) {b : Nat} (h : b < f.addr ∨ f.addr + 4 * f.words ≤ b) :
    (s.wr f v).word b = s.word b := storeGet_putWords_other h

/-- A word reads as it was set. -/
@[simp] theorem State.word_setWord_same (s : State) (a : Nat) (w : Word) : (s.setWord a w).word a = w :=
  storeGet_storeSet_same

/-- Setting a word leaves every other word alone. -/
theorem State.word_setWord_other (s : State) {a b : Nat} (w : Word) (h : b ≠ a) : (s.setWord a w).word b = s.word b :=
  storeGet_storeSet_other h

/-- A field is below the bound its width gives. -/
theorem State.rd_lt (s : State) (f : Field) : s.rd f < 2 ^ f.width := Nat.mod_lt _ (by positivity)

/-- A flag reads as it was set. -/
@[simp] theorem State.flag_wrB_same (s : State) (f : Field) (b : Bool) (h : f.width = 1) : (s.wrB f b).flag f = b := by
  cases b <;> simp [State.flag, State.wrB, h]

/-- A flag write leaves the fields apart from it alone. -/
theorem State.rd_wrB_apart (s : State) {f g : Field} (b : Bool) (h : f.apart g = true) : (s.wrB f b).rd g = s.rd g :=
  s.rd_wr_apart _ h

end Sys2Proof.Machine
end

