-- ==== Sys2Proof/Laws/State.lean ====
section
/-!
SUPPORT. What each named update of the state leaves unchanged: one lemma for each update and each field it does not touch,
so that no later proof unfolds an update; and what the interrupt, alert and intake operations leave of the registers.
-/

namespace Sys2Proof.Machine

/-! ### `State.setWord` -/

@[simp] theorem State.setWord_pending (s : State) (a : Nat) (w : Word) : (s.setWord a w).pending = s.pending := rfl
@[simp] theorem State.setWord_fuses (s : State) (a : Nat) (w : Word) : (s.setWord a w).fuses = s.fuses := rfl
@[simp] theorem State.setWord_spi (s : State) (a : Nat) (w : Word) : (s.setWord a w).spi = s.spi := rfl
@[simp] theorem State.setWord_drega (s : State) (a : Nat) (w : Word) : (s.setWord a w).drega = s.drega := rfl
@[simp] theorem State.setWord_panelCaps (s : State) (a : Nat) (w : Word) : (s.setWord a w).panelCaps = s.panelCaps := rfl
@[simp] theorem State.setWord_spiOut (s : State) (a : Nat) (w : Word) : (s.setWord a w).spiOut = s.spiOut := rfl
@[simp] theorem State.setWord_now (s : State) (a : Nat) (w : Word) : (s.setWord a w).now = s.now := rfl
@[simp] theorem State.setWord_tickStart (s : State) (a : Nat) (w : Word) : (s.setWord a w).tickStart = s.tickStart := rfl
@[simp] theorem State.setWord_resetAt (s : State) (a : Nat) (w : Word) : (s.setWord a w).resetAt = s.resetAt := rfl
@[simp] theorem State.setWord_free (s : State) (a : Nat) (w : Word) : (s.setWord a w).free = s.free := rfl
@[simp] theorem State.setWord_core (s : State) (a : Nat) (w : Word) : (s.setWord a w).core = s.core := rfl
@[simp] theorem State.setWord_esc (s : State) (a : Nat) (w : Word) : (s.setWord a w).esc = s.esc := rfl
@[simp] theorem State.setWord_pwr (s : State) (a : Nat) (w : Word) : (s.setWord a w).pwr = s.pwr := rfl
@[simp] theorem State.setWord_acq (s : State) (a : Nat) (w : Word) : (s.setWord a w).acq = s.acq := rfl
@[simp] theorem State.setWord_met (s : State) (a : Nat) (w : Word) : (s.setWord a w).met = s.met := rfl
@[simp] theorem State.setWord_aux (s : State) (a : Nat) (w : Word) : (s.setWord a w).aux = s.aux := rfl
@[simp] theorem State.setWord_strm (s : State) (a : Nat) (w : Word) : (s.setWord a w).strm = s.strm := rfl
@[simp] theorem State.setWord_led (s : State) (a : Nat) (w : Word) : (s.setWord a w).led = s.led := rfl
@[simp] theorem State.setWord_str (s : State) (a : Nat) (w : Word) : (s.setWord a w).str = s.str := rfl
@[simp] theorem State.setWord_rcd (s : State) (a : Nat) (w : Word) : (s.setWord a w).rcd = s.rcd := rfl
@[simp] theorem State.setWord_gar (s : State) (a : Nat) (w : Word) : (s.setWord a w).gar = s.gar := rfl
@[simp] theorem State.setWord_sec (s : State) (a : Nat) (w : Word) : (s.setWord a w).sec = s.sec := rfl
@[simp] theorem State.setWord_tmp (s : State) (a : Nat) (w : Word) : (s.setWord a w).tmp = s.tmp := rfl
@[simp] theorem State.setWord_ring (s : State) (a : Nat) (w : Word) : (s.setWord a w).ring = s.ring := rfl
@[simp] theorem State.setWord_twin (s : State) (a : Nat) (w : Word) : (s.setWord a w).twin = s.twin := rfl
@[simp] theorem State.setWord_panel (s : State) (a : Nat) (w : Word) : (s.setWord a w).panel = s.panel := rfl
@[simp] theorem State.setWord_portA (s : State) (a : Nat) (w : Word) : (s.setWord a w).portA = s.portA := rfl
@[simp] theorem State.setWord_portB (s : State) (a : Nat) (w : Word) : (s.setWord a w).portB = s.portB := rfl
@[simp] theorem State.setWord_net (s : State) (a : Nat) (w : Word) : (s.setWord a w).net = s.net := rfl
@[simp] theorem State.setWord_kept (s : State) (a : Nat) (w : Word) : (s.setWord a w).kept = s.kept := rfl
@[simp] theorem State.setWord_ptp (s : State) (a : Nat) (w : Word) : (s.setWord a w).ptp = s.ptp := rfl
@[simp] theorem State.setWord_bk (s : State) (a : Nat) (w : Word) : (s.setWord a w).bk = s.bk := rfl
@[simp] theorem State.setWord_flash (s : State) (a : Nat) (w : Word) : (s.setWord a w).flash = s.flash := rfl
@[simp] theorem State.setWord_ldr (s : State) (a : Nat) (w : Word) : (s.setWord a w).ldr = s.ldr := rfl

/-! ### `State.wr` -/

@[simp] theorem State.wr_pending (s : State) (f : Field) (v : Nat) : (s.wr f v).pending = s.pending := rfl
@[simp] theorem State.wr_fuses (s : State) (f : Field) (v : Nat) : (s.wr f v).fuses = s.fuses := rfl
@[simp] theorem State.wr_spi (s : State) (f : Field) (v : Nat) : (s.wr f v).spi = s.spi := rfl
@[simp] theorem State.wr_drega (s : State) (f : Field) (v : Nat) : (s.wr f v).drega = s.drega := rfl
@[simp] theorem State.wr_panelCaps (s : State) (f : Field) (v : Nat) : (s.wr f v).panelCaps = s.panelCaps := rfl
@[simp] theorem State.wr_spiOut (s : State) (f : Field) (v : Nat) : (s.wr f v).spiOut = s.spiOut := rfl
@[simp] theorem State.wr_now (s : State) (f : Field) (v : Nat) : (s.wr f v).now = s.now := rfl
@[simp] theorem State.wr_tickStart (s : State) (f : Field) (v : Nat) : (s.wr f v).tickStart = s.tickStart := rfl
@[simp] theorem State.wr_resetAt (s : State) (f : Field) (v : Nat) : (s.wr f v).resetAt = s.resetAt := rfl
@[simp] theorem State.wr_free (s : State) (f : Field) (v : Nat) : (s.wr f v).free = s.free := rfl
@[simp] theorem State.wr_core (s : State) (f : Field) (v : Nat) : (s.wr f v).core = s.core := rfl
@[simp] theorem State.wr_esc (s : State) (f : Field) (v : Nat) : (s.wr f v).esc = s.esc := rfl
@[simp] theorem State.wr_pwr (s : State) (f : Field) (v : Nat) : (s.wr f v).pwr = s.pwr := rfl
@[simp] theorem State.wr_acq (s : State) (f : Field) (v : Nat) : (s.wr f v).acq = s.acq := rfl
@[simp] theorem State.wr_met (s : State) (f : Field) (v : Nat) : (s.wr f v).met = s.met := rfl
@[simp] theorem State.wr_aux (s : State) (f : Field) (v : Nat) : (s.wr f v).aux = s.aux := rfl
@[simp] theorem State.wr_strm (s : State) (f : Field) (v : Nat) : (s.wr f v).strm = s.strm := rfl
@[simp] theorem State.wr_led (s : State) (f : Field) (v : Nat) : (s.wr f v).led = s.led := rfl
@[simp] theorem State.wr_str (s : State) (f : Field) (v : Nat) : (s.wr f v).str = s.str := rfl
@[simp] theorem State.wr_rcd (s : State) (f : Field) (v : Nat) : (s.wr f v).rcd = s.rcd := rfl
@[simp] theorem State.wr_gar (s : State) (f : Field) (v : Nat) : (s.wr f v).gar = s.gar := rfl
@[simp] theorem State.wr_sec (s : State) (f : Field) (v : Nat) : (s.wr f v).sec = s.sec := rfl
@[simp] theorem State.wr_tmp (s : State) (f : Field) (v : Nat) : (s.wr f v).tmp = s.tmp := rfl
@[simp] theorem State.wr_ring (s : State) (f : Field) (v : Nat) : (s.wr f v).ring = s.ring := rfl
@[simp] theorem State.wr_twin (s : State) (f : Field) (v : Nat) : (s.wr f v).twin = s.twin := rfl
@[simp] theorem State.wr_panel (s : State) (f : Field) (v : Nat) : (s.wr f v).panel = s.panel := rfl
@[simp] theorem State.wr_portA (s : State) (f : Field) (v : Nat) : (s.wr f v).portA = s.portA := rfl
@[simp] theorem State.wr_portB (s : State) (f : Field) (v : Nat) : (s.wr f v).portB = s.portB := rfl
@[simp] theorem State.wr_net (s : State) (f : Field) (v : Nat) : (s.wr f v).net = s.net := rfl
@[simp] theorem State.wr_kept (s : State) (f : Field) (v : Nat) : (s.wr f v).kept = s.kept := rfl
@[simp] theorem State.wr_ptp (s : State) (f : Field) (v : Nat) : (s.wr f v).ptp = s.ptp := rfl
@[simp] theorem State.wr_bk (s : State) (f : Field) (v : Nat) : (s.wr f v).bk = s.bk := rfl
@[simp] theorem State.wr_flash (s : State) (f : Field) (v : Nat) : (s.wr f v).flash = s.flash := rfl
@[simp] theorem State.wr_ldr (s : State) (f : Field) (v : Nat) : (s.wr f v).ldr = s.ldr := rfl

/-! ### `State.wrB` -/

@[simp] theorem State.wrB_pending (s : State) (f : Field) (b : Bool) : (s.wrB f b).pending = s.pending := rfl
@[simp] theorem State.wrB_fuses (s : State) (f : Field) (b : Bool) : (s.wrB f b).fuses = s.fuses := rfl
@[simp] theorem State.wrB_spi (s : State) (f : Field) (b : Bool) : (s.wrB f b).spi = s.spi := rfl
@[simp] theorem State.wrB_drega (s : State) (f : Field) (b : Bool) : (s.wrB f b).drega = s.drega := rfl
@[simp] theorem State.wrB_panelCaps (s : State) (f : Field) (b : Bool) : (s.wrB f b).panelCaps = s.panelCaps := rfl
@[simp] theorem State.wrB_spiOut (s : State) (f : Field) (b : Bool) : (s.wrB f b).spiOut = s.spiOut := rfl
@[simp] theorem State.wrB_now (s : State) (f : Field) (b : Bool) : (s.wrB f b).now = s.now := rfl
@[simp] theorem State.wrB_tickStart (s : State) (f : Field) (b : Bool) : (s.wrB f b).tickStart = s.tickStart := rfl
@[simp] theorem State.wrB_resetAt (s : State) (f : Field) (b : Bool) : (s.wrB f b).resetAt = s.resetAt := rfl
@[simp] theorem State.wrB_free (s : State) (f : Field) (b : Bool) : (s.wrB f b).free = s.free := rfl
@[simp] theorem State.wrB_core (s : State) (f : Field) (b : Bool) : (s.wrB f b).core = s.core := rfl
@[simp] theorem State.wrB_esc (s : State) (f : Field) (b : Bool) : (s.wrB f b).esc = s.esc := rfl
@[simp] theorem State.wrB_pwr (s : State) (f : Field) (b : Bool) : (s.wrB f b).pwr = s.pwr := rfl
@[simp] theorem State.wrB_acq (s : State) (f : Field) (b : Bool) : (s.wrB f b).acq = s.acq := rfl
@[simp] theorem State.wrB_met (s : State) (f : Field) (b : Bool) : (s.wrB f b).met = s.met := rfl
@[simp] theorem State.wrB_aux (s : State) (f : Field) (b : Bool) : (s.wrB f b).aux = s.aux := rfl
@[simp] theorem State.wrB_strm (s : State) (f : Field) (b : Bool) : (s.wrB f b).strm = s.strm := rfl
@[simp] theorem State.wrB_led (s : State) (f : Field) (b : Bool) : (s.wrB f b).led = s.led := rfl
@[simp] theorem State.wrB_str (s : State) (f : Field) (b : Bool) : (s.wrB f b).str = s.str := rfl
@[simp] theorem State.wrB_rcd (s : State) (f : Field) (b : Bool) : (s.wrB f b).rcd = s.rcd := rfl
@[simp] theorem State.wrB_gar (s : State) (f : Field) (b : Bool) : (s.wrB f b).gar = s.gar := rfl
@[simp] theorem State.wrB_sec (s : State) (f : Field) (b : Bool) : (s.wrB f b).sec = s.sec := rfl
@[simp] theorem State.wrB_tmp (s : State) (f : Field) (b : Bool) : (s.wrB f b).tmp = s.tmp := rfl
@[simp] theorem State.wrB_ring (s : State) (f : Field) (b : Bool) : (s.wrB f b).ring = s.ring := rfl
@[simp] theorem State.wrB_twin (s : State) (f : Field) (b : Bool) : (s.wrB f b).twin = s.twin := rfl
@[simp] theorem State.wrB_panel (s : State) (f : Field) (b : Bool) : (s.wrB f b).panel = s.panel := rfl
@[simp] theorem State.wrB_portA (s : State) (f : Field) (b : Bool) : (s.wrB f b).portA = s.portA := rfl
@[simp] theorem State.wrB_portB (s : State) (f : Field) (b : Bool) : (s.wrB f b).portB = s.portB := rfl
@[simp] theorem State.wrB_net (s : State) (f : Field) (b : Bool) : (s.wrB f b).net = s.net := rfl
@[simp] theorem State.wrB_kept (s : State) (f : Field) (b : Bool) : (s.wrB f b).kept = s.kept := rfl
@[simp] theorem State.wrB_ptp (s : State) (f : Field) (b : Bool) : (s.wrB f b).ptp = s.ptp := rfl
@[simp] theorem State.wrB_bk (s : State) (f : Field) (b : Bool) : (s.wrB f b).bk = s.bk := rfl
@[simp] theorem State.wrB_flash (s : State) (f : Field) (b : Bool) : (s.wrB f b).flash = s.flash := rfl
@[simp] theorem State.wrB_ldr (s : State) (f : Field) (b : Bool) : (s.wrB f b).ldr = s.ldr := rfl

/-! ### `State.wrS` -/

@[simp] theorem State.wrS_pending (s : State) (f : Field) (v : Int) : (s.wrS f v).pending = s.pending := rfl
@[simp] theorem State.wrS_fuses (s : State) (f : Field) (v : Int) : (s.wrS f v).fuses = s.fuses := rfl
@[simp] theorem State.wrS_spi (s : State) (f : Field) (v : Int) : (s.wrS f v).spi = s.spi := rfl
@[simp] theorem State.wrS_drega (s : State) (f : Field) (v : Int) : (s.wrS f v).drega = s.drega := rfl
@[simp] theorem State.wrS_panelCaps (s : State) (f : Field) (v : Int) : (s.wrS f v).panelCaps = s.panelCaps := rfl
@[simp] theorem State.wrS_spiOut (s : State) (f : Field) (v : Int) : (s.wrS f v).spiOut = s.spiOut := rfl
@[simp] theorem State.wrS_now (s : State) (f : Field) (v : Int) : (s.wrS f v).now = s.now := rfl
@[simp] theorem State.wrS_tickStart (s : State) (f : Field) (v : Int) : (s.wrS f v).tickStart = s.tickStart := rfl
@[simp] theorem State.wrS_resetAt (s : State) (f : Field) (v : Int) : (s.wrS f v).resetAt = s.resetAt := rfl
@[simp] theorem State.wrS_free (s : State) (f : Field) (v : Int) : (s.wrS f v).free = s.free := rfl
@[simp] theorem State.wrS_core (s : State) (f : Field) (v : Int) : (s.wrS f v).core = s.core := rfl
@[simp] theorem State.wrS_esc (s : State) (f : Field) (v : Int) : (s.wrS f v).esc = s.esc := rfl
@[simp] theorem State.wrS_pwr (s : State) (f : Field) (v : Int) : (s.wrS f v).pwr = s.pwr := rfl
@[simp] theorem State.wrS_acq (s : State) (f : Field) (v : Int) : (s.wrS f v).acq = s.acq := rfl
@[simp] theorem State.wrS_met (s : State) (f : Field) (v : Int) : (s.wrS f v).met = s.met := rfl
@[simp] theorem State.wrS_aux (s : State) (f : Field) (v : Int) : (s.wrS f v).aux = s.aux := rfl
@[simp] theorem State.wrS_strm (s : State) (f : Field) (v : Int) : (s.wrS f v).strm = s.strm := rfl
@[simp] theorem State.wrS_led (s : State) (f : Field) (v : Int) : (s.wrS f v).led = s.led := rfl
@[simp] theorem State.wrS_str (s : State) (f : Field) (v : Int) : (s.wrS f v).str = s.str := rfl
@[simp] theorem State.wrS_rcd (s : State) (f : Field) (v : Int) : (s.wrS f v).rcd = s.rcd := rfl
@[simp] theorem State.wrS_gar (s : State) (f : Field) (v : Int) : (s.wrS f v).gar = s.gar := rfl
@[simp] theorem State.wrS_sec (s : State) (f : Field) (v : Int) : (s.wrS f v).sec = s.sec := rfl
@[simp] theorem State.wrS_tmp (s : State) (f : Field) (v : Int) : (s.wrS f v).tmp = s.tmp := rfl
@[simp] theorem State.wrS_ring (s : State) (f : Field) (v : Int) : (s.wrS f v).ring = s.ring := rfl
@[simp] theorem State.wrS_twin (s : State) (f : Field) (v : Int) : (s.wrS f v).twin = s.twin := rfl
@[simp] theorem State.wrS_panel (s : State) (f : Field) (v : Int) : (s.wrS f v).panel = s.panel := rfl
@[simp] theorem State.wrS_portA (s : State) (f : Field) (v : Int) : (s.wrS f v).portA = s.portA := rfl
@[simp] theorem State.wrS_portB (s : State) (f : Field) (v : Int) : (s.wrS f v).portB = s.portB := rfl
@[simp] theorem State.wrS_net (s : State) (f : Field) (v : Int) : (s.wrS f v).net = s.net := rfl
@[simp] theorem State.wrS_kept (s : State) (f : Field) (v : Int) : (s.wrS f v).kept = s.kept := rfl
@[simp] theorem State.wrS_ptp (s : State) (f : Field) (v : Int) : (s.wrS f v).ptp = s.ptp := rfl
@[simp] theorem State.wrS_bk (s : State) (f : Field) (v : Int) : (s.wrS f v).bk = s.bk := rfl
@[simp] theorem State.wrS_flash (s : State) (f : Field) (v : Int) : (s.wrS f v).flash = s.flash := rfl
@[simp] theorem State.wrS_ldr (s : State) (f : Field) (v : Int) : (s.wrS f v).ldr = s.ldr := rfl

/-! ### `State.count` -/

@[simp] theorem State.count_pending (s : State) (f : Field) (n : Nat) : (s.count f n).pending = s.pending := rfl
@[simp] theorem State.count_fuses (s : State) (f : Field) (n : Nat) : (s.count f n).fuses = s.fuses := rfl
@[simp] theorem State.count_spi (s : State) (f : Field) (n : Nat) : (s.count f n).spi = s.spi := rfl
@[simp] theorem State.count_drega (s : State) (f : Field) (n : Nat) : (s.count f n).drega = s.drega := rfl
@[simp] theorem State.count_panelCaps (s : State) (f : Field) (n : Nat) : (s.count f n).panelCaps = s.panelCaps := rfl
@[simp] theorem State.count_spiOut (s : State) (f : Field) (n : Nat) : (s.count f n).spiOut = s.spiOut := rfl
@[simp] theorem State.count_now (s : State) (f : Field) (n : Nat) : (s.count f n).now = s.now := rfl
@[simp] theorem State.count_tickStart (s : State) (f : Field) (n : Nat) : (s.count f n).tickStart = s.tickStart := rfl
@[simp] theorem State.count_resetAt (s : State) (f : Field) (n : Nat) : (s.count f n).resetAt = s.resetAt := rfl
@[simp] theorem State.count_free (s : State) (f : Field) (n : Nat) : (s.count f n).free = s.free := rfl
@[simp] theorem State.count_core (s : State) (f : Field) (n : Nat) : (s.count f n).core = s.core := rfl
@[simp] theorem State.count_esc (s : State) (f : Field) (n : Nat) : (s.count f n).esc = s.esc := rfl
@[simp] theorem State.count_pwr (s : State) (f : Field) (n : Nat) : (s.count f n).pwr = s.pwr := rfl
@[simp] theorem State.count_acq (s : State) (f : Field) (n : Nat) : (s.count f n).acq = s.acq := rfl
@[simp] theorem State.count_met (s : State) (f : Field) (n : Nat) : (s.count f n).met = s.met := rfl
@[simp] theorem State.count_aux (s : State) (f : Field) (n : Nat) : (s.count f n).aux = s.aux := rfl
@[simp] theorem State.count_strm (s : State) (f : Field) (n : Nat) : (s.count f n).strm = s.strm := rfl
@[simp] theorem State.count_led (s : State) (f : Field) (n : Nat) : (s.count f n).led = s.led := rfl
@[simp] theorem State.count_str (s : State) (f : Field) (n : Nat) : (s.count f n).str = s.str := rfl
@[simp] theorem State.count_rcd (s : State) (f : Field) (n : Nat) : (s.count f n).rcd = s.rcd := rfl
@[simp] theorem State.count_gar (s : State) (f : Field) (n : Nat) : (s.count f n).gar = s.gar := rfl
@[simp] theorem State.count_sec (s : State) (f : Field) (n : Nat) : (s.count f n).sec = s.sec := rfl
@[simp] theorem State.count_tmp (s : State) (f : Field) (n : Nat) : (s.count f n).tmp = s.tmp := rfl
@[simp] theorem State.count_ring (s : State) (f : Field) (n : Nat) : (s.count f n).ring = s.ring := rfl
@[simp] theorem State.count_twin (s : State) (f : Field) (n : Nat) : (s.count f n).twin = s.twin := rfl
@[simp] theorem State.count_panel (s : State) (f : Field) (n : Nat) : (s.count f n).panel = s.panel := rfl
@[simp] theorem State.count_portA (s : State) (f : Field) (n : Nat) : (s.count f n).portA = s.portA := rfl
@[simp] theorem State.count_portB (s : State) (f : Field) (n : Nat) : (s.count f n).portB = s.portB := rfl
@[simp] theorem State.count_net (s : State) (f : Field) (n : Nat) : (s.count f n).net = s.net := rfl
@[simp] theorem State.count_kept (s : State) (f : Field) (n : Nat) : (s.count f n).kept = s.kept := rfl
@[simp] theorem State.count_ptp (s : State) (f : Field) (n : Nat) : (s.count f n).ptp = s.ptp := rfl
@[simp] theorem State.count_bk (s : State) (f : Field) (n : Nat) : (s.count f n).bk = s.bk := rfl
@[simp] theorem State.count_flash (s : State) (f : Field) (n : Nat) : (s.count f n).flash = s.flash := rfl
@[simp] theorem State.count_ldr (s : State) (f : Field) (n : Nat) : (s.count f n).ldr = s.ldr := rfl

/-! ### `State.wrap` -/

@[simp] theorem State.wrap_pending (s : State) (f : Field) : (s.wrap f).pending = s.pending := rfl
@[simp] theorem State.wrap_fuses (s : State) (f : Field) : (s.wrap f).fuses = s.fuses := rfl
@[simp] theorem State.wrap_spi (s : State) (f : Field) : (s.wrap f).spi = s.spi := rfl
@[simp] theorem State.wrap_drega (s : State) (f : Field) : (s.wrap f).drega = s.drega := rfl
@[simp] theorem State.wrap_panelCaps (s : State) (f : Field) : (s.wrap f).panelCaps = s.panelCaps := rfl
@[simp] theorem State.wrap_spiOut (s : State) (f : Field) : (s.wrap f).spiOut = s.spiOut := rfl
@[simp] theorem State.wrap_now (s : State) (f : Field) : (s.wrap f).now = s.now := rfl
@[simp] theorem State.wrap_tickStart (s : State) (f : Field) : (s.wrap f).tickStart = s.tickStart := rfl
@[simp] theorem State.wrap_resetAt (s : State) (f : Field) : (s.wrap f).resetAt = s.resetAt := rfl
@[simp] theorem State.wrap_free (s : State) (f : Field) : (s.wrap f).free = s.free := rfl
@[simp] theorem State.wrap_core (s : State) (f : Field) : (s.wrap f).core = s.core := rfl
@[simp] theorem State.wrap_esc (s : State) (f : Field) : (s.wrap f).esc = s.esc := rfl
@[simp] theorem State.wrap_pwr (s : State) (f : Field) : (s.wrap f).pwr = s.pwr := rfl
@[simp] theorem State.wrap_acq (s : State) (f : Field) : (s.wrap f).acq = s.acq := rfl
@[simp] theorem State.wrap_met (s : State) (f : Field) : (s.wrap f).met = s.met := rfl
@[simp] theorem State.wrap_aux (s : State) (f : Field) : (s.wrap f).aux = s.aux := rfl
@[simp] theorem State.wrap_strm (s : State) (f : Field) : (s.wrap f).strm = s.strm := rfl
@[simp] theorem State.wrap_led (s : State) (f : Field) : (s.wrap f).led = s.led := rfl
@[simp] theorem State.wrap_str (s : State) (f : Field) : (s.wrap f).str = s.str := rfl
@[simp] theorem State.wrap_rcd (s : State) (f : Field) : (s.wrap f).rcd = s.rcd := rfl
@[simp] theorem State.wrap_gar (s : State) (f : Field) : (s.wrap f).gar = s.gar := rfl
@[simp] theorem State.wrap_sec (s : State) (f : Field) : (s.wrap f).sec = s.sec := rfl
@[simp] theorem State.wrap_tmp (s : State) (f : Field) : (s.wrap f).tmp = s.tmp := rfl
@[simp] theorem State.wrap_ring (s : State) (f : Field) : (s.wrap f).ring = s.ring := rfl
@[simp] theorem State.wrap_twin (s : State) (f : Field) : (s.wrap f).twin = s.twin := rfl
@[simp] theorem State.wrap_panel (s : State) (f : Field) : (s.wrap f).panel = s.panel := rfl
@[simp] theorem State.wrap_portA (s : State) (f : Field) : (s.wrap f).portA = s.portA := rfl
@[simp] theorem State.wrap_portB (s : State) (f : Field) : (s.wrap f).portB = s.portB := rfl
@[simp] theorem State.wrap_net (s : State) (f : Field) : (s.wrap f).net = s.net := rfl
@[simp] theorem State.wrap_kept (s : State) (f : Field) : (s.wrap f).kept = s.kept := rfl
@[simp] theorem State.wrap_ptp (s : State) (f : Field) : (s.wrap f).ptp = s.ptp := rfl
@[simp] theorem State.wrap_bk (s : State) (f : Field) : (s.wrap f).bk = s.bk := rfl
@[simp] theorem State.wrap_flash (s : State) (f : Field) : (s.wrap f).flash = s.flash := rfl
@[simp] theorem State.wrap_ldr (s : State) (f : Field) : (s.wrap f).ldr = s.ldr := rfl

/-! ### `State.irq` -/

@[simp] theorem State.irq_pending (s : State) (f : Field) : (s.irq f).pending = s.pending := rfl
@[simp] theorem State.irq_fuses (s : State) (f : Field) : (s.irq f).fuses = s.fuses := rfl
@[simp] theorem State.irq_spi (s : State) (f : Field) : (s.irq f).spi = s.spi := rfl
@[simp] theorem State.irq_drega (s : State) (f : Field) : (s.irq f).drega = s.drega := rfl
@[simp] theorem State.irq_panelCaps (s : State) (f : Field) : (s.irq f).panelCaps = s.panelCaps := rfl
@[simp] theorem State.irq_spiOut (s : State) (f : Field) : (s.irq f).spiOut = s.spiOut := rfl
@[simp] theorem State.irq_now (s : State) (f : Field) : (s.irq f).now = s.now := rfl
@[simp] theorem State.irq_tickStart (s : State) (f : Field) : (s.irq f).tickStart = s.tickStart := rfl
@[simp] theorem State.irq_resetAt (s : State) (f : Field) : (s.irq f).resetAt = s.resetAt := rfl
@[simp] theorem State.irq_free (s : State) (f : Field) : (s.irq f).free = s.free := rfl
@[simp] theorem State.irq_core (s : State) (f : Field) : (s.irq f).core = s.core := rfl
@[simp] theorem State.irq_esc (s : State) (f : Field) : (s.irq f).esc = s.esc := rfl
@[simp] theorem State.irq_pwr (s : State) (f : Field) : (s.irq f).pwr = s.pwr := rfl
@[simp] theorem State.irq_acq (s : State) (f : Field) : (s.irq f).acq = s.acq := rfl
@[simp] theorem State.irq_met (s : State) (f : Field) : (s.irq f).met = s.met := rfl
@[simp] theorem State.irq_aux (s : State) (f : Field) : (s.irq f).aux = s.aux := rfl
@[simp] theorem State.irq_strm (s : State) (f : Field) : (s.irq f).strm = s.strm := rfl
@[simp] theorem State.irq_led (s : State) (f : Field) : (s.irq f).led = s.led := rfl
@[simp] theorem State.irq_str (s : State) (f : Field) : (s.irq f).str = s.str := rfl
@[simp] theorem State.irq_rcd (s : State) (f : Field) : (s.irq f).rcd = s.rcd := rfl
@[simp] theorem State.irq_gar (s : State) (f : Field) : (s.irq f).gar = s.gar := rfl
@[simp] theorem State.irq_sec (s : State) (f : Field) : (s.irq f).sec = s.sec := rfl
@[simp] theorem State.irq_tmp (s : State) (f : Field) : (s.irq f).tmp = s.tmp := rfl
@[simp] theorem State.irq_ring (s : State) (f : Field) : (s.irq f).ring = s.ring := rfl
@[simp] theorem State.irq_twin (s : State) (f : Field) : (s.irq f).twin = s.twin := rfl
@[simp] theorem State.irq_panel (s : State) (f : Field) : (s.irq f).panel = s.panel := rfl
@[simp] theorem State.irq_portA (s : State) (f : Field) : (s.irq f).portA = s.portA := rfl
@[simp] theorem State.irq_portB (s : State) (f : Field) : (s.irq f).portB = s.portB := rfl
@[simp] theorem State.irq_net (s : State) (f : Field) : (s.irq f).net = s.net := rfl
@[simp] theorem State.irq_kept (s : State) (f : Field) : (s.irq f).kept = s.kept := rfl
@[simp] theorem State.irq_ptp (s : State) (f : Field) : (s.irq f).ptp = s.ptp := rfl
@[simp] theorem State.irq_bk (s : State) (f : Field) : (s.irq f).bk = s.bk := rfl
@[simp] theorem State.irq_flash (s : State) (f : Field) : (s.irq f).flash = s.flash := rfl
@[simp] theorem State.irq_ldr (s : State) (f : Field) : (s.irq f).ldr = s.ldr := rfl

/-! ### `State.drawn` -/

@[simp] theorem State.drawn_pending (s : State) : (s.drawn).pending = s.pending := rfl
@[simp] theorem State.drawn_fuses (s : State) : (s.drawn).fuses = s.fuses := rfl
@[simp] theorem State.drawn_regs (s : State) : (s.drawn).regs = s.regs := rfl
@[simp] theorem State.drawn_spi (s : State) : (s.drawn).spi = s.spi := rfl
@[simp] theorem State.drawn_drega (s : State) : (s.drawn).drega = s.drega := rfl
@[simp] theorem State.drawn_panelCaps (s : State) : (s.drawn).panelCaps = s.panelCaps := rfl
@[simp] theorem State.drawn_spiOut (s : State) : (s.drawn).spiOut = s.spiOut := rfl
@[simp] theorem State.drawn_now (s : State) : (s.drawn).now = s.now := rfl
@[simp] theorem State.drawn_tickStart (s : State) : (s.drawn).tickStart = s.tickStart := rfl
@[simp] theorem State.drawn_resetAt (s : State) : (s.drawn).resetAt = s.resetAt := rfl
@[simp] theorem State.drawn_core (s : State) : (s.drawn).core = s.core := rfl
@[simp] theorem State.drawn_esc (s : State) : (s.drawn).esc = s.esc := rfl
@[simp] theorem State.drawn_pwr (s : State) : (s.drawn).pwr = s.pwr := rfl
@[simp] theorem State.drawn_acq (s : State) : (s.drawn).acq = s.acq := rfl
@[simp] theorem State.drawn_met (s : State) : (s.drawn).met = s.met := rfl
@[simp] theorem State.drawn_aux (s : State) : (s.drawn).aux = s.aux := rfl
@[simp] theorem State.drawn_strm (s : State) : (s.drawn).strm = s.strm := rfl
@[simp] theorem State.drawn_led (s : State) : (s.drawn).led = s.led := rfl
@[simp] theorem State.drawn_str (s : State) : (s.drawn).str = s.str := rfl
@[simp] theorem State.drawn_rcd (s : State) : (s.drawn).rcd = s.rcd := rfl
@[simp] theorem State.drawn_gar (s : State) : (s.drawn).gar = s.gar := rfl
@[simp] theorem State.drawn_sec (s : State) : (s.drawn).sec = s.sec := rfl
@[simp] theorem State.drawn_tmp (s : State) : (s.drawn).tmp = s.tmp := rfl
@[simp] theorem State.drawn_ring (s : State) : (s.drawn).ring = s.ring := rfl
@[simp] theorem State.drawn_twin (s : State) : (s.drawn).twin = s.twin := rfl
@[simp] theorem State.drawn_panel (s : State) : (s.drawn).panel = s.panel := rfl
@[simp] theorem State.drawn_portA (s : State) : (s.drawn).portA = s.portA := rfl
@[simp] theorem State.drawn_portB (s : State) : (s.drawn).portB = s.portB := rfl
@[simp] theorem State.drawn_net (s : State) : (s.drawn).net = s.net := rfl
@[simp] theorem State.drawn_kept (s : State) : (s.drawn).kept = s.kept := rfl
@[simp] theorem State.drawn_ptp (s : State) : (s.drawn).ptp = s.ptp := rfl
@[simp] theorem State.drawn_bk (s : State) : (s.drawn).bk = s.bk := rfl
@[simp] theorem State.drawn_flash (s : State) : (s.drawn).flash = s.flash := rfl
@[simp] theorem State.drawn_ldr (s : State) : (s.drawn).ldr = s.ldr := rfl

/-! ### `State.until` -/

@[simp] theorem State.until_pending (s : State) (t : Nat) : (s.until t).pending = s.pending := rfl
@[simp] theorem State.until_fuses (s : State) (t : Nat) : (s.until t).fuses = s.fuses := rfl
@[simp] theorem State.until_regs (s : State) (t : Nat) : (s.until t).regs = s.regs := rfl
@[simp] theorem State.until_spi (s : State) (t : Nat) : (s.until t).spi = s.spi := rfl
@[simp] theorem State.until_drega (s : State) (t : Nat) : (s.until t).drega = s.drega := rfl
@[simp] theorem State.until_panelCaps (s : State) (t : Nat) : (s.until t).panelCaps = s.panelCaps := rfl
@[simp] theorem State.until_spiOut (s : State) (t : Nat) : (s.until t).spiOut = s.spiOut := rfl
@[simp] theorem State.until_tickStart (s : State) (t : Nat) : (s.until t).tickStart = s.tickStart := rfl
@[simp] theorem State.until_resetAt (s : State) (t : Nat) : (s.until t).resetAt = s.resetAt := rfl
@[simp] theorem State.until_free (s : State) (t : Nat) : (s.until t).free = s.free := rfl
@[simp] theorem State.until_core (s : State) (t : Nat) : (s.until t).core = s.core := rfl
@[simp] theorem State.until_esc (s : State) (t : Nat) : (s.until t).esc = s.esc := rfl
@[simp] theorem State.until_pwr (s : State) (t : Nat) : (s.until t).pwr = s.pwr := rfl
@[simp] theorem State.until_acq (s : State) (t : Nat) : (s.until t).acq = s.acq := rfl
@[simp] theorem State.until_met (s : State) (t : Nat) : (s.until t).met = s.met := rfl
@[simp] theorem State.until_aux (s : State) (t : Nat) : (s.until t).aux = s.aux := rfl
@[simp] theorem State.until_strm (s : State) (t : Nat) : (s.until t).strm = s.strm := rfl
@[simp] theorem State.until_led (s : State) (t : Nat) : (s.until t).led = s.led := rfl
@[simp] theorem State.until_str (s : State) (t : Nat) : (s.until t).str = s.str := rfl
@[simp] theorem State.until_rcd (s : State) (t : Nat) : (s.until t).rcd = s.rcd := rfl
@[simp] theorem State.until_gar (s : State) (t : Nat) : (s.until t).gar = s.gar := rfl
@[simp] theorem State.until_sec (s : State) (t : Nat) : (s.until t).sec = s.sec := rfl
@[simp] theorem State.until_tmp (s : State) (t : Nat) : (s.until t).tmp = s.tmp := rfl
@[simp] theorem State.until_ring (s : State) (t : Nat) : (s.until t).ring = s.ring := rfl
@[simp] theorem State.until_twin (s : State) (t : Nat) : (s.until t).twin = s.twin := rfl
@[simp] theorem State.until_panel (s : State) (t : Nat) : (s.until t).panel = s.panel := rfl
@[simp] theorem State.until_portA (s : State) (t : Nat) : (s.until t).portA = s.portA := rfl
@[simp] theorem State.until_portB (s : State) (t : Nat) : (s.until t).portB = s.portB := rfl
@[simp] theorem State.until_net (s : State) (t : Nat) : (s.until t).net = s.net := rfl
@[simp] theorem State.until_kept (s : State) (t : Nat) : (s.until t).kept = s.kept := rfl
@[simp] theorem State.until_ptp (s : State) (t : Nat) : (s.until t).ptp = s.ptp := rfl
@[simp] theorem State.until_bk (s : State) (t : Nat) : (s.until t).bk = s.bk := rfl
@[simp] theorem State.until_flash (s : State) (t : Nat) : (s.until t).flash = s.flash := rfl
@[simp] theorem State.until_ldr (s : State) (t : Nat) : (s.until t).ldr = s.ldr := rfl

/-! ### `State.setPath` -/

@[simp] theorem State.setPath_pending (s : State) (p : Path) (x : PathSt) : (s.setPath p x).pending = s.pending := by cases p <;> rfl
@[simp] theorem State.setPath_fuses (s : State) (p : Path) (x : PathSt) : (s.setPath p x).fuses = s.fuses := by cases p <;> rfl
@[simp] theorem State.setPath_regs (s : State) (p : Path) (x : PathSt) : (s.setPath p x).regs = s.regs := by cases p <;> rfl
@[simp] theorem State.setPath_panelCaps (s : State) (p : Path) (x : PathSt) : (s.setPath p x).panelCaps = s.panelCaps := by cases p <;> rfl
@[simp] theorem State.setPath_spiOut (s : State) (p : Path) (x : PathSt) : (s.setPath p x).spiOut = s.spiOut := by cases p <;> rfl
@[simp] theorem State.setPath_now (s : State) (p : Path) (x : PathSt) : (s.setPath p x).now = s.now := by cases p <;> rfl
@[simp] theorem State.setPath_tickStart (s : State) (p : Path) (x : PathSt) : (s.setPath p x).tickStart = s.tickStart := by cases p <;> rfl
@[simp] theorem State.setPath_resetAt (s : State) (p : Path) (x : PathSt) : (s.setPath p x).resetAt = s.resetAt := by cases p <;> rfl
@[simp] theorem State.setPath_free (s : State) (p : Path) (x : PathSt) : (s.setPath p x).free = s.free := by cases p <;> rfl
@[simp] theorem State.setPath_core (s : State) (p : Path) (x : PathSt) : (s.setPath p x).core = s.core := by cases p <;> rfl
@[simp] theorem State.setPath_esc (s : State) (p : Path) (x : PathSt) : (s.setPath p x).esc = s.esc := by cases p <;> rfl
@[simp] theorem State.setPath_pwr (s : State) (p : Path) (x : PathSt) : (s.setPath p x).pwr = s.pwr := by cases p <;> rfl
@[simp] theorem State.setPath_acq (s : State) (p : Path) (x : PathSt) : (s.setPath p x).acq = s.acq := by cases p <;> rfl
@[simp] theorem State.setPath_met (s : State) (p : Path) (x : PathSt) : (s.setPath p x).met = s.met := by cases p <;> rfl
@[simp] theorem State.setPath_aux (s : State) (p : Path) (x : PathSt) : (s.setPath p x).aux = s.aux := by cases p <;> rfl
@[simp] theorem State.setPath_strm (s : State) (p : Path) (x : PathSt) : (s.setPath p x).strm = s.strm := by cases p <;> rfl
@[simp] theorem State.setPath_led (s : State) (p : Path) (x : PathSt) : (s.setPath p x).led = s.led := by cases p <;> rfl
@[simp] theorem State.setPath_str (s : State) (p : Path) (x : PathSt) : (s.setPath p x).str = s.str := by cases p <;> rfl
@[simp] theorem State.setPath_rcd (s : State) (p : Path) (x : PathSt) : (s.setPath p x).rcd = s.rcd := by cases p <;> rfl
@[simp] theorem State.setPath_gar (s : State) (p : Path) (x : PathSt) : (s.setPath p x).gar = s.gar := by cases p <;> rfl
@[simp] theorem State.setPath_sec (s : State) (p : Path) (x : PathSt) : (s.setPath p x).sec = s.sec := by cases p <;> rfl
@[simp] theorem State.setPath_tmp (s : State) (p : Path) (x : PathSt) : (s.setPath p x).tmp = s.tmp := by cases p <;> rfl
@[simp] theorem State.setPath_ring (s : State) (p : Path) (x : PathSt) : (s.setPath p x).ring = s.ring := by cases p <;> rfl
@[simp] theorem State.setPath_twin (s : State) (p : Path) (x : PathSt) : (s.setPath p x).twin = s.twin := by cases p <;> rfl
@[simp] theorem State.setPath_panel (s : State) (p : Path) (x : PathSt) : (s.setPath p x).panel = s.panel := by cases p <;> rfl
@[simp] theorem State.setPath_portA (s : State) (p : Path) (x : PathSt) : (s.setPath p x).portA = s.portA := by cases p <;> rfl
@[simp] theorem State.setPath_portB (s : State) (p : Path) (x : PathSt) : (s.setPath p x).portB = s.portB := by cases p <;> rfl
@[simp] theorem State.setPath_net (s : State) (p : Path) (x : PathSt) : (s.setPath p x).net = s.net := by cases p <;> rfl
@[simp] theorem State.setPath_kept (s : State) (p : Path) (x : PathSt) : (s.setPath p x).kept = s.kept := by cases p <;> rfl
@[simp] theorem State.setPath_ptp (s : State) (p : Path) (x : PathSt) : (s.setPath p x).ptp = s.ptp := by cases p <;> rfl
@[simp] theorem State.setPath_bk (s : State) (p : Path) (x : PathSt) : (s.setPath p x).bk = s.bk := by cases p <;> rfl
@[simp] theorem State.setPath_flash (s : State) (p : Path) (x : PathSt) : (s.setPath p x).flash = s.flash := by cases p <;> rfl
@[simp] theorem State.setPath_ldr (s : State) (p : Path) (x : PathSt) : (s.setPath p x).ldr = s.ldr := by cases p <;> rfl

/-! ### `State.wrP` -/

@[simp] theorem State.wrP_pending (s : State) (p : Path) (f : Field) (v : Nat) : (s.wrP p f v).pending = s.pending := by cases p <;> rfl
@[simp] theorem State.wrP_fuses (s : State) (p : Path) (f : Field) (v : Nat) : (s.wrP p f v).fuses = s.fuses := by cases p <;> rfl
@[simp] theorem State.wrP_regs (s : State) (p : Path) (f : Field) (v : Nat) : (s.wrP p f v).regs = s.regs := by cases p <;> rfl
@[simp] theorem State.wrP_panelCaps (s : State) (p : Path) (f : Field) (v : Nat) : (s.wrP p f v).panelCaps = s.panelCaps := by cases p <;> rfl
@[simp] theorem State.wrP_spiOut (s : State) (p : Path) (f : Field) (v : Nat) : (s.wrP p f v).spiOut = s.spiOut := by cases p <;> rfl
@[simp] theorem State.wrP_now (s : State) (p : Path) (f : Field) (v : Nat) : (s.wrP p f v).now = s.now := by cases p <;> rfl
@[simp] theorem State.wrP_tickStart (s : State) (p : Path) (f : Field) (v : Nat) : (s.wrP p f v).tickStart = s.tickStart := by cases p <;> rfl
@[simp] theorem State.wrP_resetAt (s : State) (p : Path) (f : Field) (v : Nat) : (s.wrP p f v).resetAt = s.resetAt := by cases p <;> rfl
@[simp] theorem State.wrP_free (s : State) (p : Path) (f : Field) (v : Nat) : (s.wrP p f v).free = s.free := by cases p <;> rfl
@[simp] theorem State.wrP_core (s : State) (p : Path) (f : Field) (v : Nat) : (s.wrP p f v).core = s.core := by cases p <;> rfl
@[simp] theorem State.wrP_esc (s : State) (p : Path) (f : Field) (v : Nat) : (s.wrP p f v).esc = s.esc := by cases p <;> rfl
@[simp] theorem State.wrP_pwr (s : State) (p : Path) (f : Field) (v : Nat) : (s.wrP p f v).pwr = s.pwr := by cases p <;> rfl
@[simp] theorem State.wrP_acq (s : State) (p : Path) (f : Field) (v : Nat) : (s.wrP p f v).acq = s.acq := by cases p <;> rfl
@[simp] theorem State.wrP_met (s : State) (p : Path) (f : Field) (v : Nat) : (s.wrP p f v).met = s.met := by cases p <;> rfl
@[simp] theorem State.wrP_aux (s : State) (p : Path) (f : Field) (v : Nat) : (s.wrP p f v).aux = s.aux := by cases p <;> rfl
@[simp] theorem State.wrP_strm (s : State) (p : Path) (f : Field) (v : Nat) : (s.wrP p f v).strm = s.strm := by cases p <;> rfl
@[simp] theorem State.wrP_led (s : State) (p : Path) (f : Field) (v : Nat) : (s.wrP p f v).led = s.led := by cases p <;> rfl
@[simp] theorem State.wrP_str (s : State) (p : Path) (f : Field) (v : Nat) : (s.wrP p f v).str = s.str := by cases p <;> rfl
@[simp] theorem State.wrP_rcd (s : State) (p : Path) (f : Field) (v : Nat) : (s.wrP p f v).rcd = s.rcd := by cases p <;> rfl
@[simp] theorem State.wrP_gar (s : State) (p : Path) (f : Field) (v : Nat) : (s.wrP p f v).gar = s.gar := by cases p <;> rfl
@[simp] theorem State.wrP_sec (s : State) (p : Path) (f : Field) (v : Nat) : (s.wrP p f v).sec = s.sec := by cases p <;> rfl
@[simp] theorem State.wrP_tmp (s : State) (p : Path) (f : Field) (v : Nat) : (s.wrP p f v).tmp = s.tmp := by cases p <;> rfl
@[simp] theorem State.wrP_ring (s : State) (p : Path) (f : Field) (v : Nat) : (s.wrP p f v).ring = s.ring := by cases p <;> rfl
@[simp] theorem State.wrP_twin (s : State) (p : Path) (f : Field) (v : Nat) : (s.wrP p f v).twin = s.twin := by cases p <;> rfl
@[simp] theorem State.wrP_panel (s : State) (p : Path) (f : Field) (v : Nat) : (s.wrP p f v).panel = s.panel := by cases p <;> rfl
@[simp] theorem State.wrP_portA (s : State) (p : Path) (f : Field) (v : Nat) : (s.wrP p f v).portA = s.portA := by cases p <;> rfl
@[simp] theorem State.wrP_portB (s : State) (p : Path) (f : Field) (v : Nat) : (s.wrP p f v).portB = s.portB := by cases p <;> rfl
@[simp] theorem State.wrP_net (s : State) (p : Path) (f : Field) (v : Nat) : (s.wrP p f v).net = s.net := by cases p <;> rfl
@[simp] theorem State.wrP_kept (s : State) (p : Path) (f : Field) (v : Nat) : (s.wrP p f v).kept = s.kept := by cases p <;> rfl
@[simp] theorem State.wrP_ptp (s : State) (p : Path) (f : Field) (v : Nat) : (s.wrP p f v).ptp = s.ptp := by cases p <;> rfl
@[simp] theorem State.wrP_bk (s : State) (p : Path) (f : Field) (v : Nat) : (s.wrP p f v).bk = s.bk := by cases p <;> rfl
@[simp] theorem State.wrP_flash (s : State) (p : Path) (f : Field) (v : Nat) : (s.wrP p f v).flash = s.flash := by cases p <;> rfl
@[simp] theorem State.wrP_ldr (s : State) (p : Path) (f : Field) (v : Nat) : (s.wrP p f v).ldr = s.ldr := by cases p <;> rfl

/-! ### `State.alert` -/

@[simp] theorem State.alert_pending (s : State) (f : Field) (b : Bool) : (s.alert f b).pending = s.pending := by unfold State.alert; dsimp only; split <;> rfl
@[simp] theorem State.alert_fuses (s : State) (f : Field) (b : Bool) : (s.alert f b).fuses = s.fuses := by unfold State.alert; dsimp only; split <;> rfl
@[simp] theorem State.alert_spi (s : State) (f : Field) (b : Bool) : (s.alert f b).spi = s.spi := by unfold State.alert; dsimp only; split <;> rfl
@[simp] theorem State.alert_drega (s : State) (f : Field) (b : Bool) : (s.alert f b).drega = s.drega := by unfold State.alert; dsimp only; split <;> rfl
@[simp] theorem State.alert_panelCaps (s : State) (f : Field) (b : Bool) : (s.alert f b).panelCaps = s.panelCaps := by unfold State.alert; dsimp only; split <;> rfl
@[simp] theorem State.alert_spiOut (s : State) (f : Field) (b : Bool) : (s.alert f b).spiOut = s.spiOut := by unfold State.alert; dsimp only; split <;> rfl
@[simp] theorem State.alert_now (s : State) (f : Field) (b : Bool) : (s.alert f b).now = s.now := by unfold State.alert; dsimp only; split <;> rfl
@[simp] theorem State.alert_tickStart (s : State) (f : Field) (b : Bool) : (s.alert f b).tickStart = s.tickStart := by unfold State.alert; dsimp only; split <;> rfl
@[simp] theorem State.alert_resetAt (s : State) (f : Field) (b : Bool) : (s.alert f b).resetAt = s.resetAt := by unfold State.alert; dsimp only; split <;> rfl
@[simp] theorem State.alert_free (s : State) (f : Field) (b : Bool) : (s.alert f b).free = s.free := by unfold State.alert; dsimp only; split <;> rfl
@[simp] theorem State.alert_core (s : State) (f : Field) (b : Bool) : (s.alert f b).core = s.core := by unfold State.alert; dsimp only; split <;> rfl
@[simp] theorem State.alert_esc (s : State) (f : Field) (b : Bool) : (s.alert f b).esc = s.esc := by unfold State.alert; dsimp only; split <;> rfl
@[simp] theorem State.alert_pwr (s : State) (f : Field) (b : Bool) : (s.alert f b).pwr = s.pwr := by unfold State.alert; dsimp only; split <;> rfl
@[simp] theorem State.alert_acq (s : State) (f : Field) (b : Bool) : (s.alert f b).acq = s.acq := by unfold State.alert; dsimp only; split <;> rfl
@[simp] theorem State.alert_met (s : State) (f : Field) (b : Bool) : (s.alert f b).met = s.met := by unfold State.alert; dsimp only; split <;> rfl
@[simp] theorem State.alert_aux (s : State) (f : Field) (b : Bool) : (s.alert f b).aux = s.aux := by unfold State.alert; dsimp only; split <;> rfl
@[simp] theorem State.alert_strm (s : State) (f : Field) (b : Bool) : (s.alert f b).strm = s.strm := by unfold State.alert; dsimp only; split <;> rfl
@[simp] theorem State.alert_led (s : State) (f : Field) (b : Bool) : (s.alert f b).led = s.led := by unfold State.alert; dsimp only; split <;> rfl
@[simp] theorem State.alert_str (s : State) (f : Field) (b : Bool) : (s.alert f b).str = s.str := by unfold State.alert; dsimp only; split <;> rfl
@[simp] theorem State.alert_rcd (s : State) (f : Field) (b : Bool) : (s.alert f b).rcd = s.rcd := by unfold State.alert; dsimp only; split <;> rfl
@[simp] theorem State.alert_gar (s : State) (f : Field) (b : Bool) : (s.alert f b).gar = s.gar := by unfold State.alert; dsimp only; split <;> rfl
@[simp] theorem State.alert_sec (s : State) (f : Field) (b : Bool) : (s.alert f b).sec = s.sec := by unfold State.alert; dsimp only; split <;> rfl
@[simp] theorem State.alert_tmp (s : State) (f : Field) (b : Bool) : (s.alert f b).tmp = s.tmp := by unfold State.alert; dsimp only; split <;> rfl
@[simp] theorem State.alert_ring (s : State) (f : Field) (b : Bool) : (s.alert f b).ring = s.ring := by unfold State.alert; dsimp only; split <;> rfl
@[simp] theorem State.alert_twin (s : State) (f : Field) (b : Bool) : (s.alert f b).twin = s.twin := by unfold State.alert; dsimp only; split <;> rfl
@[simp] theorem State.alert_panel (s : State) (f : Field) (b : Bool) : (s.alert f b).panel = s.panel := by unfold State.alert; dsimp only; split <;> rfl
@[simp] theorem State.alert_portA (s : State) (f : Field) (b : Bool) : (s.alert f b).portA = s.portA := by unfold State.alert; dsimp only; split <;> rfl
@[simp] theorem State.alert_portB (s : State) (f : Field) (b : Bool) : (s.alert f b).portB = s.portB := by unfold State.alert; dsimp only; split <;> rfl
@[simp] theorem State.alert_net (s : State) (f : Field) (b : Bool) : (s.alert f b).net = s.net := by unfold State.alert; dsimp only; split <;> rfl
@[simp] theorem State.alert_kept (s : State) (f : Field) (b : Bool) : (s.alert f b).kept = s.kept := by unfold State.alert; dsimp only; split <;> rfl
@[simp] theorem State.alert_ptp (s : State) (f : Field) (b : Bool) : (s.alert f b).ptp = s.ptp := by unfold State.alert; dsimp only; split <;> rfl
@[simp] theorem State.alert_bk (s : State) (f : Field) (b : Bool) : (s.alert f b).bk = s.bk := by unfold State.alert; dsimp only; split <;> rfl
@[simp] theorem State.alert_flash (s : State) (f : Field) (b : Bool) : (s.alert f b).flash = s.flash := by unfold State.alert; dsimp only; split <;> rfl
@[simp] theorem State.alert_ldr (s : State) (f : Field) (b : Bool) : (s.alert f b).ldr = s.ldr := by unfold State.alert; dsimp only; split <;> rfl

/-! ### `State.setChip` -/

@[simp] theorem State.setChip_pending (s : State) (v : Nat) : (s.setChip v).pending = s.pending := by unfold State.setChip; dsimp only; split <;> rfl
@[simp] theorem State.setChip_fuses (s : State) (v : Nat) : (s.setChip v).fuses = s.fuses := by unfold State.setChip; dsimp only; split <;> rfl
@[simp] theorem State.setChip_spi (s : State) (v : Nat) : (s.setChip v).spi = s.spi := by unfold State.setChip; dsimp only; split <;> rfl
@[simp] theorem State.setChip_drega (s : State) (v : Nat) : (s.setChip v).drega = s.drega := by unfold State.setChip; dsimp only; split <;> rfl
@[simp] theorem State.setChip_panelCaps (s : State) (v : Nat) : (s.setChip v).panelCaps = s.panelCaps := by unfold State.setChip; dsimp only; split <;> rfl
@[simp] theorem State.setChip_spiOut (s : State) (v : Nat) : (s.setChip v).spiOut = s.spiOut := by unfold State.setChip; dsimp only; split <;> rfl
@[simp] theorem State.setChip_now (s : State) (v : Nat) : (s.setChip v).now = s.now := by unfold State.setChip; dsimp only; split <;> rfl
@[simp] theorem State.setChip_tickStart (s : State) (v : Nat) : (s.setChip v).tickStart = s.tickStart := by unfold State.setChip; dsimp only; split <;> rfl
@[simp] theorem State.setChip_resetAt (s : State) (v : Nat) : (s.setChip v).resetAt = s.resetAt := by unfold State.setChip; dsimp only; split <;> rfl
@[simp] theorem State.setChip_free (s : State) (v : Nat) : (s.setChip v).free = s.free := by unfold State.setChip; dsimp only; split <;> rfl
@[simp] theorem State.setChip_core (s : State) (v : Nat) : (s.setChip v).core = s.core := by unfold State.setChip; dsimp only; split <;> rfl
@[simp] theorem State.setChip_esc (s : State) (v : Nat) : (s.setChip v).esc = s.esc := by unfold State.setChip; dsimp only; split <;> rfl
@[simp] theorem State.setChip_pwr (s : State) (v : Nat) : (s.setChip v).pwr = s.pwr := by unfold State.setChip; dsimp only; split <;> rfl
@[simp] theorem State.setChip_acq (s : State) (v : Nat) : (s.setChip v).acq = s.acq := by unfold State.setChip; dsimp only; split <;> rfl
@[simp] theorem State.setChip_met (s : State) (v : Nat) : (s.setChip v).met = s.met := by unfold State.setChip; dsimp only; split <;> rfl
@[simp] theorem State.setChip_aux (s : State) (v : Nat) : (s.setChip v).aux = s.aux := by unfold State.setChip; dsimp only; split <;> rfl
@[simp] theorem State.setChip_strm (s : State) (v : Nat) : (s.setChip v).strm = s.strm := by unfold State.setChip; dsimp only; split <;> rfl
@[simp] theorem State.setChip_led (s : State) (v : Nat) : (s.setChip v).led = s.led := by unfold State.setChip; dsimp only; split <;> rfl
@[simp] theorem State.setChip_str (s : State) (v : Nat) : (s.setChip v).str = s.str := by unfold State.setChip; dsimp only; split <;> rfl
@[simp] theorem State.setChip_rcd (s : State) (v : Nat) : (s.setChip v).rcd = s.rcd := by unfold State.setChip; dsimp only; split <;> rfl
@[simp] theorem State.setChip_gar (s : State) (v : Nat) : (s.setChip v).gar = s.gar := by unfold State.setChip; dsimp only; split <;> rfl
@[simp] theorem State.setChip_sec (s : State) (v : Nat) : (s.setChip v).sec = s.sec := by unfold State.setChip; dsimp only; split <;> rfl
@[simp] theorem State.setChip_tmp (s : State) (v : Nat) : (s.setChip v).tmp = s.tmp := by unfold State.setChip; dsimp only; split <;> rfl
@[simp] theorem State.setChip_ring (s : State) (v : Nat) : (s.setChip v).ring = s.ring := by unfold State.setChip; dsimp only; split <;> rfl
@[simp] theorem State.setChip_twin (s : State) (v : Nat) : (s.setChip v).twin = s.twin := by unfold State.setChip; dsimp only; split <;> rfl
@[simp] theorem State.setChip_panel (s : State) (v : Nat) : (s.setChip v).panel = s.panel := by unfold State.setChip; dsimp only; split <;> rfl
@[simp] theorem State.setChip_portA (s : State) (v : Nat) : (s.setChip v).portA = s.portA := by unfold State.setChip; dsimp only; split <;> rfl
@[simp] theorem State.setChip_portB (s : State) (v : Nat) : (s.setChip v).portB = s.portB := by unfold State.setChip; dsimp only; split <;> rfl
@[simp] theorem State.setChip_net (s : State) (v : Nat) : (s.setChip v).net = s.net := by unfold State.setChip; dsimp only; split <;> rfl
@[simp] theorem State.setChip_kept (s : State) (v : Nat) : (s.setChip v).kept = s.kept := by unfold State.setChip; dsimp only; split <;> rfl
@[simp] theorem State.setChip_ptp (s : State) (v : Nat) : (s.setChip v).ptp = s.ptp := by unfold State.setChip; dsimp only; split <;> rfl
@[simp] theorem State.setChip_bk (s : State) (v : Nat) : (s.setChip v).bk = s.bk := by unfold State.setChip; dsimp only; split <;> rfl
@[simp] theorem State.setChip_flash (s : State) (v : Nat) : (s.setChip v).flash = s.flash := by unfold State.setChip; dsimp only; split <;> rfl
@[simp] theorem State.setChip_ldr (s : State) (v : Nat) : (s.setChip v).ldr = s.ldr := by unfold State.setChip; dsimp only; split <;> rfl

/-! ### `State.setRcd` -/

@[simp] theorem State.setRcd_pending (s : State) (r : Recorder) : (s.setRcd r).pending = s.pending := rfl
@[simp] theorem State.setRcd_fuses (s : State) (r : Recorder) : (s.setRcd r).fuses = s.fuses := rfl
@[simp] theorem State.setRcd_spi (s : State) (r : Recorder) : (s.setRcd r).spi = s.spi := rfl
@[simp] theorem State.setRcd_drega (s : State) (r : Recorder) : (s.setRcd r).drega = s.drega := rfl
@[simp] theorem State.setRcd_panelCaps (s : State) (r : Recorder) : (s.setRcd r).panelCaps = s.panelCaps := rfl
@[simp] theorem State.setRcd_spiOut (s : State) (r : Recorder) : (s.setRcd r).spiOut = s.spiOut := rfl
@[simp] theorem State.setRcd_now (s : State) (r : Recorder) : (s.setRcd r).now = s.now := rfl
@[simp] theorem State.setRcd_tickStart (s : State) (r : Recorder) : (s.setRcd r).tickStart = s.tickStart := rfl
@[simp] theorem State.setRcd_resetAt (s : State) (r : Recorder) : (s.setRcd r).resetAt = s.resetAt := rfl
@[simp] theorem State.setRcd_free (s : State) (r : Recorder) : (s.setRcd r).free = s.free := rfl
@[simp] theorem State.setRcd_core (s : State) (r : Recorder) : (s.setRcd r).core = s.core := rfl
@[simp] theorem State.setRcd_esc (s : State) (r : Recorder) : (s.setRcd r).esc = s.esc := rfl
@[simp] theorem State.setRcd_pwr (s : State) (r : Recorder) : (s.setRcd r).pwr = s.pwr := rfl
@[simp] theorem State.setRcd_acq (s : State) (r : Recorder) : (s.setRcd r).acq = s.acq := rfl
@[simp] theorem State.setRcd_met (s : State) (r : Recorder) : (s.setRcd r).met = s.met := rfl
@[simp] theorem State.setRcd_aux (s : State) (r : Recorder) : (s.setRcd r).aux = s.aux := rfl
@[simp] theorem State.setRcd_strm (s : State) (r : Recorder) : (s.setRcd r).strm = s.strm := rfl
@[simp] theorem State.setRcd_led (s : State) (r : Recorder) : (s.setRcd r).led = s.led := rfl
@[simp] theorem State.setRcd_str (s : State) (r : Recorder) : (s.setRcd r).str = s.str := rfl
@[simp] theorem State.setRcd_gar (s : State) (r : Recorder) : (s.setRcd r).gar = s.gar := rfl
@[simp] theorem State.setRcd_sec (s : State) (r : Recorder) : (s.setRcd r).sec = s.sec := rfl
@[simp] theorem State.setRcd_tmp (s : State) (r : Recorder) : (s.setRcd r).tmp = s.tmp := rfl
@[simp] theorem State.setRcd_ring (s : State) (r : Recorder) : (s.setRcd r).ring = s.ring := rfl
@[simp] theorem State.setRcd_twin (s : State) (r : Recorder) : (s.setRcd r).twin = s.twin := rfl
@[simp] theorem State.setRcd_panel (s : State) (r : Recorder) : (s.setRcd r).panel = s.panel := rfl
@[simp] theorem State.setRcd_portA (s : State) (r : Recorder) : (s.setRcd r).portA = s.portA := rfl
@[simp] theorem State.setRcd_portB (s : State) (r : Recorder) : (s.setRcd r).portB = s.portB := rfl
@[simp] theorem State.setRcd_net (s : State) (r : Recorder) : (s.setRcd r).net = s.net := rfl
@[simp] theorem State.setRcd_kept (s : State) (r : Recorder) : (s.setRcd r).kept = s.kept := rfl
@[simp] theorem State.setRcd_ptp (s : State) (r : Recorder) : (s.setRcd r).ptp = s.ptp := rfl
@[simp] theorem State.setRcd_bk (s : State) (r : Recorder) : (s.setRcd r).bk = s.bk := rfl
@[simp] theorem State.setRcd_flash (s : State) (r : Recorder) : (s.setRcd r).flash = s.flash := rfl
@[simp] theorem State.setRcd_ldr (s : State) (r : Recorder) : (s.setRcd r).ldr = s.ldr := rfl

/-! ### `State.suppress` -/

@[simp] theorem State.suppress_pending (s : State) (code : Nat) : (s.suppress code).pending = s.pending := rfl
@[simp] theorem State.suppress_fuses (s : State) (code : Nat) : (s.suppress code).fuses = s.fuses := rfl
@[simp] theorem State.suppress_spi (s : State) (code : Nat) : (s.suppress code).spi = s.spi := rfl
@[simp] theorem State.suppress_drega (s : State) (code : Nat) : (s.suppress code).drega = s.drega := rfl
@[simp] theorem State.suppress_panelCaps (s : State) (code : Nat) : (s.suppress code).panelCaps = s.panelCaps := rfl
@[simp] theorem State.suppress_spiOut (s : State) (code : Nat) : (s.suppress code).spiOut = s.spiOut := rfl
@[simp] theorem State.suppress_now (s : State) (code : Nat) : (s.suppress code).now = s.now := rfl
@[simp] theorem State.suppress_tickStart (s : State) (code : Nat) : (s.suppress code).tickStart = s.tickStart := rfl
@[simp] theorem State.suppress_resetAt (s : State) (code : Nat) : (s.suppress code).resetAt = s.resetAt := rfl
@[simp] theorem State.suppress_free (s : State) (code : Nat) : (s.suppress code).free = s.free := rfl
@[simp] theorem State.suppress_core (s : State) (code : Nat) : (s.suppress code).core = s.core := rfl
@[simp] theorem State.suppress_esc (s : State) (code : Nat) : (s.suppress code).esc = s.esc := rfl
@[simp] theorem State.suppress_pwr (s : State) (code : Nat) : (s.suppress code).pwr = s.pwr := rfl
@[simp] theorem State.suppress_acq (s : State) (code : Nat) : (s.suppress code).acq = s.acq := rfl
@[simp] theorem State.suppress_met (s : State) (code : Nat) : (s.suppress code).met = s.met := rfl
@[simp] theorem State.suppress_aux (s : State) (code : Nat) : (s.suppress code).aux = s.aux := rfl
@[simp] theorem State.suppress_strm (s : State) (code : Nat) : (s.suppress code).strm = s.strm := rfl
@[simp] theorem State.suppress_led (s : State) (code : Nat) : (s.suppress code).led = s.led := rfl
@[simp] theorem State.suppress_str (s : State) (code : Nat) : (s.suppress code).str = s.str := rfl
@[simp] theorem State.suppress_gar (s : State) (code : Nat) : (s.suppress code).gar = s.gar := rfl
@[simp] theorem State.suppress_sec (s : State) (code : Nat) : (s.suppress code).sec = s.sec := rfl
@[simp] theorem State.suppress_tmp (s : State) (code : Nat) : (s.suppress code).tmp = s.tmp := rfl
@[simp] theorem State.suppress_ring (s : State) (code : Nat) : (s.suppress code).ring = s.ring := rfl
@[simp] theorem State.suppress_twin (s : State) (code : Nat) : (s.suppress code).twin = s.twin := rfl
@[simp] theorem State.suppress_panel (s : State) (code : Nat) : (s.suppress code).panel = s.panel := rfl
@[simp] theorem State.suppress_portA (s : State) (code : Nat) : (s.suppress code).portA = s.portA := rfl
@[simp] theorem State.suppress_portB (s : State) (code : Nat) : (s.suppress code).portB = s.portB := rfl
@[simp] theorem State.suppress_net (s : State) (code : Nat) : (s.suppress code).net = s.net := rfl
@[simp] theorem State.suppress_kept (s : State) (code : Nat) : (s.suppress code).kept = s.kept := rfl
@[simp] theorem State.suppress_ptp (s : State) (code : Nat) : (s.suppress code).ptp = s.ptp := rfl
@[simp] theorem State.suppress_bk (s : State) (code : Nat) : (s.suppress code).bk = s.bk := rfl
@[simp] theorem State.suppress_flash (s : State) (code : Nat) : (s.suppress code).flash = s.flash := rfl
@[simp] theorem State.suppress_ldr (s : State) (code : Nat) : (s.suppress code).ldr = s.ldr := rfl

@[simp] theorem State.drawn_rd (s : State) (g : Field) : (s.drawn).rd g = s.rd g := rfl
@[simp] theorem State.drawn_word (s : State) (y : Nat) : (s.drawn).word y = s.word y := rfl
@[simp] theorem State.until_rd (s : State) (t : Nat) (g : Field) : (s.until t).rd g = s.rd g := rfl
@[simp] theorem State.until_word (s : State) (t : Nat) (y : Nat) : (s.until t).word y = s.word y := rfl
@[simp] theorem State.setPath_rd (s : State) (p : Path) (x : PathSt) (g : Field) : (s.setPath p x).rd g = s.rd g := by cases p <;> rfl
@[simp] theorem State.setPath_word (s : State) (p : Path) (x : PathSt) (y : Nat) : (s.setPath p x).word y = s.word y := by cases p <;> rfl
@[simp] theorem State.wrP_rd (s : State) (p : Path) (f : Field) (v : Nat) (g : Field) : (s.wrP p f v).rd g = s.rd g := by cases p <;> rfl
@[simp] theorem State.wrP_word (s : State) (p : Path) (f : Field) (v : Nat) (y : Nat) : (s.wrP p f v).word y = s.word y := by cases p <;> rfl

@[simp] theorem State.path_setPath (s : State) (p : Path) (x : PathSt) : (s.setPath p x).path p = x := by cases p <;> rfl
@[simp] theorem State.wr_path (s : State) (p : Path) (f : Field) (v : Nat) : (s.wr f v).path p = s.path p := by
  cases p <;> rfl
@[simp] theorem State.wrB_path (s : State) (p : Path) (f : Field) (b : Bool) : (s.wrB f b).path p = s.path p := by
  cases p <;> rfl
@[simp] theorem State.irq_path (s : State) (p : Path) (f : Field) : (s.irq f).path p = s.path p := by cases p <;> rfl

/-- A path-local field reads as it was written. -/
@[simp] theorem State.rdP_wrP_same (s : State) (p : Path) (f : Field) (v : Nat) :
    (s.wrP p f v).rdP p f = v % 2 ^ f.width := by
  unfold State.rdP State.wrP
  dsimp only
  rw [State.path_setPath, wordsAt_putWords, Nat.mod_eq_of_lt (withBits_lt (wordsAt_lt _ _ _) (field_in_words f)),
    bitsOf_withBits]

/-! ### Fields apart -/

theorem State.rd_irq_apart (s : State) {f g : Field} (h : f.apart g = true) : (s.irq f).rd g = s.rd g :=
  s.rd_wr_apart _ h

theorem State.rd_count_apart (s : State) {f g : Field} (n : Nat) (h : f.apart g = true) :
    (s.count f n).rd g = s.rd g := s.rd_wr_apart _ h

/-- A saturating counter after a count (R12). -/
@[simp] theorem State.rd_count_same (s : State) (f : Field) (n : Nat) :
    (s.count f n).rd f = min (s.rd f + n) (2 ^ f.width - 1) := by
  have h : 0 < 2 ^ f.width := by positivity
  rw [State.count, State.rd_wr_same, Nat.mod_eq_of_lt (by omega)]

/-- A wrapping counter after a count (R12). -/
@[simp] theorem State.rd_wrap_same (s : State) (f : Field) : (s.wrap f).rd f = (s.rd f + 1) % 2 ^ f.width :=
  s.rd_wr_same f _

/-- A field outside the words of the recorder (0x500000 to 0x5FFFFF) and of Bedrock (0xA00000 on), which is all that
offering an event to the intake can change. -/
def Field.intakeFree (g : Field) : Bool :=
  decide (g.addr + 4 * g.words ≤ 0x500000) || (decide (0x600000 ≤ g.addr) && decide (g.addr + 4 * g.words ≤ 0xA00000))

section intake
variable (s : State) {g : Field} (h : g.intakeFree = true)
include h

theorem State.rd_wr_recorder {f : Field} (v : Nat) (hf : 0x500000 ≤ f.addr) (hf' : f.addr + 4 * f.words ≤ 0x600000) :
    (s.wr f v).rd g = s.rd g := by
  refine s.rd_wr_apart v ?_
  simp only [Field.intakeFree, Field.apart, Bool.or_eq_true, Bool.and_eq_true, decide_eq_true_eq] at *
  omega

theorem State.rd_count_intake {f : Field} (n : Nat) (hf : 0x500000 ≤ f.addr) (hf' : f.addr + 4 * f.words ≤ 0x600000) :
    (s.count f n).rd g = s.rd g := s.rd_wr_recorder h _ hf hf'

theorem State.rd_setRcd (r : Recorder) : (s.setRcd r).rd g = s.rd g :=
  State.rd_wr_recorder _ h _ (by decide) (by decide)

theorem State.rd_suppress (code : Nat) : (s.suppress code).rd g = s.rd g := s.rd_setRcd h _

theorem State.rd_setWord_bedrock {a : Nat} (w : Word) (ha : 0xA00000 ≤ a) : (s.setWord a w).rd g = s.rd g := by
  have hw : wordsAt (s.setWord a w).word g.addr g.words = wordsAt s.word g.addr g.words := by
    refine wordsAt_congr fun b h1 h2 => s.word_setWord_other w ?_
    simp only [Field.intakeFree, Bool.or_eq_true, Bool.and_eq_true, decide_eq_true_eq] at h
    omega
  rw [State.rd, hw]
  rfl

theorem State.rd_wr_bedrock {f : Field} (v : Nat) (hf : 0xA00000 ≤ f.addr) : (s.wr f v).rd g = s.rd g := by
  refine s.rd_wr_apart v ?_
  simp only [Field.intakeFree, Field.apart, Bool.or_eq_true, Bool.and_eq_true, decide_eq_true_eq] at *
  omega

theorem State.rd_setWords_bedrock (n : Nat) (l : List (Word × Nat)) :
    (l.foldl (fun t x => t.setWord (Adr.BK_LR n x.2) x.1) s).rd g = s.rd g := by
  induction l generalizing s with
  | nil => rfl
  | cons x l ih => rw [List.foldl_cons, ih, State.rd_setWord_bedrock _ h _ (by simp [Adr.BK_LR]; omega)]

theorem State.rd_lastResort (e : Event) : (s.lastResort e).rd g = s.rd g := by
  unfold State.lastResort
  dsimp only
  split
  · exact s.rd_count_intake h 1 (by decide) (by decide)
  · rw [State.rd_wr_bedrock _ h _ (by decide), State.rd_wr_bedrock _ h _ (by decide)]
    exact s.rd_setWords_bedrock h _ _

/-- Offering an event changes no field outside the recorder and Bedrock. -/
theorem State.rd_raise (code source : Nat) (payload : List Byte) : (s.raise code source payload).rd g = s.rd g := by
  unfold State.raise
  split; · rfl
  split; · rfl
  split
  · split
    · exact s.rd_lastResort h _
    · exact s.rd_count_intake h 1 (by decide) (by decide)
  split
  · rw [State.rd_count_intake _ h 1 (by decide) (by decide), s.rd_suppress h]
  split
  · exact s.rd_setRcd h _
  · rw [State.rd_count_intake _ h 1 (by decide) (by decide), s.rd_suppress h]

theorem State.rd_raises (es : List Offer) :
    (es.foldl (fun (s : State) (e : Offer) => s.raise e.1 e.2.1 e.2.2) s).rd g = s.rd g := by
  induction es generalizing s with
  | nil => rfl
  | cons e es ih => rw [List.foldl_cons, ih, s.rd_raise h]

/-- The events of one cycle change no field outside the recorder and Bedrock. -/
theorem State.rd_raiseTogether (es : List Offer) : (s.raiseTogether es).rd g = s.rd g := s.rd_raises h _

/-- A field that a cycle's own work leaves is left by its events too. -/
theorem State.rd_sameCycle {k : State → State} (hk : ∀ u : State, (k u).rd g = u.rd g) : (s.sameCycle k).rd g = s.rd g := by
  unfold State.sameCycle
  split
  · exact hk s
  · rw [State.rd_raiseTogether _ h]
    exact hk _

end intake

/-! ### The copies of an area of Strata -/

section each
variable (st : Strata) (area : Nat) (f : StrataCopy → StrataCopy)

@[simp] theorem Strata.each_curB : (st.each area f).curB = st.curB := rfl
@[simp] theorem Strata.each_tseq : (st.each area f).tseq = st.tseq := rfl
@[simp] theorem Strata.each_nextBlock : (st.each area f).nextBlock = st.nextBlock := rfl
@[simp] theorem Strata.each_failed : (st.each area f).failed = st.failed := rfl
@[simp] theorem Strata.each_anchor : (st.each area f).anchor = st.anchor := rfl
@[simp] theorem Strata.each_audCause : (st.each area f).audCause = st.audCause := rfl

/-- The copy reads come from is changed, where the area has a copy left. -/
theorem Strata.side_each (h : areaDead st area = false) : (st.each area f).side area = f (st.side area) := by
  unfold areaDead copyFailed at h
  unfold Strata.side Strata.each copyFailed
  dsimp only
  split
  · rename_i h0
    rw [h0, Bool.true_and] at h
    simp [h]
  · rfl

end each

/-! ### What offering an event leaves -/


theorem State.setWords_pending (s : State) (n : Nat) (l : List (Word × Nat)) :
    (l.foldl (fun t x => t.setWord (Adr.BK_LR n x.2) x.1) s).pending = s.pending := by induction l generalizing s <;> simp_all
@[simp] theorem State.lastResort_pending (s : State) (e : Event) : (s.lastResort e).pending = s.pending := by
  unfold State.lastResort; dsimp only; split <;> simp [State.setWords_pending]
@[simp] theorem State.raise_pending (s : State) (c n : Nat) (l : List Byte) : (s.raise c n l).pending = s.pending := by
  unfold State.raise; repeat' split
  all_goals simp
theorem State.raises_pending (s : State) (es : List Offer) :
    (es.foldl (fun (s : State) (e : Offer) => s.raise e.1 e.2.1 e.2.2) s).pending = s.pending := by induction es generalizing s <;> simp_all
@[simp] theorem State.raiseTogether_pending (s : State) (es : List Offer) : (s.raiseTogether es).pending = s.pending :=
  s.raises_pending _
theorem State.sameCycle_pending (s : State) {k : State → State} (h : ∀ u : State, (k u).pending = u.pending) :
    (s.sameCycle k).pending = s.pending := by
  unfold State.sameCycle; split
  · exact h s
  · rw [State.raiseTogether_pending]; exact h _
@[simp] theorem State.raiseFront_pending (s : State) (c n : Nat) (l : List Byte) : (s.raiseFront c n l).pending = s.pending := by
  unfold State.raiseFront; repeat' split
  all_goals (try dsimp only); try split
  all_goals simp
theorem State.setWords_fuses (s : State) (n : Nat) (l : List (Word × Nat)) :
    (l.foldl (fun t x => t.setWord (Adr.BK_LR n x.2) x.1) s).fuses = s.fuses := by induction l generalizing s <;> simp_all
@[simp] theorem State.lastResort_fuses (s : State) (e : Event) : (s.lastResort e).fuses = s.fuses := by
  unfold State.lastResort; dsimp only; split <;> simp [State.setWords_fuses]
@[simp] theorem State.raise_fuses (s : State) (c n : Nat) (l : List Byte) : (s.raise c n l).fuses = s.fuses := by
  unfold State.raise; repeat' split
  all_goals simp
theorem State.raises_fuses (s : State) (es : List Offer) :
    (es.foldl (fun (s : State) (e : Offer) => s.raise e.1 e.2.1 e.2.2) s).fuses = s.fuses := by induction es generalizing s <;> simp_all
@[simp] theorem State.raiseTogether_fuses (s : State) (es : List Offer) : (s.raiseTogether es).fuses = s.fuses :=
  s.raises_fuses _
theorem State.sameCycle_fuses (s : State) {k : State → State} (h : ∀ u : State, (k u).fuses = u.fuses) :
    (s.sameCycle k).fuses = s.fuses := by
  unfold State.sameCycle; split
  · exact h s
  · rw [State.raiseTogether_fuses]; exact h _
@[simp] theorem State.raiseFront_fuses (s : State) (c n : Nat) (l : List Byte) : (s.raiseFront c n l).fuses = s.fuses := by
  unfold State.raiseFront; repeat' split
  all_goals (try dsimp only); try split
  all_goals simp
theorem State.setWords_spi (s : State) (n : Nat) (l : List (Word × Nat)) :
    (l.foldl (fun t x => t.setWord (Adr.BK_LR n x.2) x.1) s).spi = s.spi := by induction l generalizing s <;> simp_all
@[simp] theorem State.lastResort_spi (s : State) (e : Event) : (s.lastResort e).spi = s.spi := by
  unfold State.lastResort; dsimp only; split <;> simp [State.setWords_spi]
@[simp] theorem State.raise_spi (s : State) (c n : Nat) (l : List Byte) : (s.raise c n l).spi = s.spi := by
  unfold State.raise; repeat' split
  all_goals simp
theorem State.raises_spi (s : State) (es : List Offer) :
    (es.foldl (fun (s : State) (e : Offer) => s.raise e.1 e.2.1 e.2.2) s).spi = s.spi := by induction es generalizing s <;> simp_all
@[simp] theorem State.raiseTogether_spi (s : State) (es : List Offer) : (s.raiseTogether es).spi = s.spi :=
  s.raises_spi _
theorem State.sameCycle_spi (s : State) {k : State → State} (h : ∀ u : State, (k u).spi = u.spi) :
    (s.sameCycle k).spi = s.spi := by
  unfold State.sameCycle; split
  · exact h s
  · rw [State.raiseTogether_spi]; exact h _
@[simp] theorem State.raiseFront_spi (s : State) (c n : Nat) (l : List Byte) : (s.raiseFront c n l).spi = s.spi := by
  unfold State.raiseFront; repeat' split
  all_goals (try dsimp only); try split
  all_goals simp
theorem State.setWords_drega (s : State) (n : Nat) (l : List (Word × Nat)) :
    (l.foldl (fun t x => t.setWord (Adr.BK_LR n x.2) x.1) s).drega = s.drega := by induction l generalizing s <;> simp_all
@[simp] theorem State.lastResort_drega (s : State) (e : Event) : (s.lastResort e).drega = s.drega := by
  unfold State.lastResort; dsimp only; split <;> simp [State.setWords_drega]
@[simp] theorem State.raise_drega (s : State) (c n : Nat) (l : List Byte) : (s.raise c n l).drega = s.drega := by
  unfold State.raise; repeat' split
  all_goals simp
theorem State.raises_drega (s : State) (es : List Offer) :
    (es.foldl (fun (s : State) (e : Offer) => s.raise e.1 e.2.1 e.2.2) s).drega = s.drega := by induction es generalizing s <;> simp_all
@[simp] theorem State.raiseTogether_drega (s : State) (es : List Offer) : (s.raiseTogether es).drega = s.drega :=
  s.raises_drega _
theorem State.sameCycle_drega (s : State) {k : State → State} (h : ∀ u : State, (k u).drega = u.drega) :
    (s.sameCycle k).drega = s.drega := by
  unfold State.sameCycle; split
  · exact h s
  · rw [State.raiseTogether_drega]; exact h _
@[simp] theorem State.raiseFront_drega (s : State) (c n : Nat) (l : List Byte) : (s.raiseFront c n l).drega = s.drega := by
  unfold State.raiseFront; repeat' split
  all_goals (try dsimp only); try split
  all_goals simp
theorem State.setWords_panelCaps (s : State) (n : Nat) (l : List (Word × Nat)) :
    (l.foldl (fun t x => t.setWord (Adr.BK_LR n x.2) x.1) s).panelCaps = s.panelCaps := by induction l generalizing s <;> simp_all
@[simp] theorem State.lastResort_panelCaps (s : State) (e : Event) : (s.lastResort e).panelCaps = s.panelCaps := by
  unfold State.lastResort; dsimp only; split <;> simp [State.setWords_panelCaps]
@[simp] theorem State.raise_panelCaps (s : State) (c n : Nat) (l : List Byte) : (s.raise c n l).panelCaps = s.panelCaps := by
  unfold State.raise; repeat' split
  all_goals simp
theorem State.raises_panelCaps (s : State) (es : List Offer) :
    (es.foldl (fun (s : State) (e : Offer) => s.raise e.1 e.2.1 e.2.2) s).panelCaps = s.panelCaps := by induction es generalizing s <;> simp_all
@[simp] theorem State.raiseTogether_panelCaps (s : State) (es : List Offer) : (s.raiseTogether es).panelCaps = s.panelCaps :=
  s.raises_panelCaps _
theorem State.sameCycle_panelCaps (s : State) {k : State → State} (h : ∀ u : State, (k u).panelCaps = u.panelCaps) :
    (s.sameCycle k).panelCaps = s.panelCaps := by
  unfold State.sameCycle; split
  · exact h s
  · rw [State.raiseTogether_panelCaps]; exact h _
@[simp] theorem State.raiseFront_panelCaps (s : State) (c n : Nat) (l : List Byte) : (s.raiseFront c n l).panelCaps = s.panelCaps := by
  unfold State.raiseFront; repeat' split
  all_goals (try dsimp only); try split
  all_goals simp
theorem State.setWords_spiOut (s : State) (n : Nat) (l : List (Word × Nat)) :
    (l.foldl (fun t x => t.setWord (Adr.BK_LR n x.2) x.1) s).spiOut = s.spiOut := by induction l generalizing s <;> simp_all
@[simp] theorem State.lastResort_spiOut (s : State) (e : Event) : (s.lastResort e).spiOut = s.spiOut := by
  unfold State.lastResort; dsimp only; split <;> simp [State.setWords_spiOut]
@[simp] theorem State.raise_spiOut (s : State) (c n : Nat) (l : List Byte) : (s.raise c n l).spiOut = s.spiOut := by
  unfold State.raise; repeat' split
  all_goals simp
theorem State.raises_spiOut (s : State) (es : List Offer) :
    (es.foldl (fun (s : State) (e : Offer) => s.raise e.1 e.2.1 e.2.2) s).spiOut = s.spiOut := by induction es generalizing s <;> simp_all
@[simp] theorem State.raiseTogether_spiOut (s : State) (es : List Offer) : (s.raiseTogether es).spiOut = s.spiOut :=
  s.raises_spiOut _
theorem State.sameCycle_spiOut (s : State) {k : State → State} (h : ∀ u : State, (k u).spiOut = u.spiOut) :
    (s.sameCycle k).spiOut = s.spiOut := by
  unfold State.sameCycle; split
  · exact h s
  · rw [State.raiseTogether_spiOut]; exact h _
@[simp] theorem State.raiseFront_spiOut (s : State) (c n : Nat) (l : List Byte) : (s.raiseFront c n l).spiOut = s.spiOut := by
  unfold State.raiseFront; repeat' split
  all_goals (try dsimp only); try split
  all_goals simp
theorem State.setWords_now (s : State) (n : Nat) (l : List (Word × Nat)) :
    (l.foldl (fun t x => t.setWord (Adr.BK_LR n x.2) x.1) s).now = s.now := by induction l generalizing s <;> simp_all
@[simp] theorem State.lastResort_now (s : State) (e : Event) : (s.lastResort e).now = s.now := by
  unfold State.lastResort; dsimp only; split <;> simp [State.setWords_now]
@[simp] theorem State.raise_now (s : State) (c n : Nat) (l : List Byte) : (s.raise c n l).now = s.now := by
  unfold State.raise; repeat' split
  all_goals simp
theorem State.raises_now (s : State) (es : List Offer) :
    (es.foldl (fun (s : State) (e : Offer) => s.raise e.1 e.2.1 e.2.2) s).now = s.now := by induction es generalizing s <;> simp_all
@[simp] theorem State.raiseTogether_now (s : State) (es : List Offer) : (s.raiseTogether es).now = s.now :=
  s.raises_now _
theorem State.sameCycle_now (s : State) {k : State → State} (h : ∀ u : State, (k u).now = u.now) :
    (s.sameCycle k).now = s.now := by
  unfold State.sameCycle; split
  · exact h s
  · rw [State.raiseTogether_now]; exact h _
@[simp] theorem State.raiseFront_now (s : State) (c n : Nat) (l : List Byte) : (s.raiseFront c n l).now = s.now := by
  unfold State.raiseFront; repeat' split
  all_goals (try dsimp only); try split
  all_goals simp
theorem State.setWords_tickStart (s : State) (n : Nat) (l : List (Word × Nat)) :
    (l.foldl (fun t x => t.setWord (Adr.BK_LR n x.2) x.1) s).tickStart = s.tickStart := by induction l generalizing s <;> simp_all
@[simp] theorem State.lastResort_tickStart (s : State) (e : Event) : (s.lastResort e).tickStart = s.tickStart := by
  unfold State.lastResort; dsimp only; split <;> simp [State.setWords_tickStart]
@[simp] theorem State.raise_tickStart (s : State) (c n : Nat) (l : List Byte) : (s.raise c n l).tickStart = s.tickStart := by
  unfold State.raise; repeat' split
  all_goals simp
theorem State.raises_tickStart (s : State) (es : List Offer) :
    (es.foldl (fun (s : State) (e : Offer) => s.raise e.1 e.2.1 e.2.2) s).tickStart = s.tickStart := by induction es generalizing s <;> simp_all
@[simp] theorem State.raiseTogether_tickStart (s : State) (es : List Offer) : (s.raiseTogether es).tickStart = s.tickStart :=
  s.raises_tickStart _
theorem State.sameCycle_tickStart (s : State) {k : State → State} (h : ∀ u : State, (k u).tickStart = u.tickStart) :
    (s.sameCycle k).tickStart = s.tickStart := by
  unfold State.sameCycle; split
  · exact h s
  · rw [State.raiseTogether_tickStart]; exact h _
@[simp] theorem State.raiseFront_tickStart (s : State) (c n : Nat) (l : List Byte) : (s.raiseFront c n l).tickStart = s.tickStart := by
  unfold State.raiseFront; repeat' split
  all_goals (try dsimp only); try split
  all_goals simp
theorem State.setWords_resetAt (s : State) (n : Nat) (l : List (Word × Nat)) :
    (l.foldl (fun t x => t.setWord (Adr.BK_LR n x.2) x.1) s).resetAt = s.resetAt := by induction l generalizing s <;> simp_all
@[simp] theorem State.lastResort_resetAt (s : State) (e : Event) : (s.lastResort e).resetAt = s.resetAt := by
  unfold State.lastResort; dsimp only; split <;> simp [State.setWords_resetAt]
@[simp] theorem State.raise_resetAt (s : State) (c n : Nat) (l : List Byte) : (s.raise c n l).resetAt = s.resetAt := by
  unfold State.raise; repeat' split
  all_goals simp
theorem State.raises_resetAt (s : State) (es : List Offer) :
    (es.foldl (fun (s : State) (e : Offer) => s.raise e.1 e.2.1 e.2.2) s).resetAt = s.resetAt := by induction es generalizing s <;> simp_all
@[simp] theorem State.raiseTogether_resetAt (s : State) (es : List Offer) : (s.raiseTogether es).resetAt = s.resetAt :=
  s.raises_resetAt _
theorem State.sameCycle_resetAt (s : State) {k : State → State} (h : ∀ u : State, (k u).resetAt = u.resetAt) :
    (s.sameCycle k).resetAt = s.resetAt := by
  unfold State.sameCycle; split
  · exact h s
  · rw [State.raiseTogether_resetAt]; exact h _
@[simp] theorem State.raiseFront_resetAt (s : State) (c n : Nat) (l : List Byte) : (s.raiseFront c n l).resetAt = s.resetAt := by
  unfold State.raiseFront; repeat' split
  all_goals (try dsimp only); try split
  all_goals simp
theorem State.setWords_free (s : State) (n : Nat) (l : List (Word × Nat)) :
    (l.foldl (fun t x => t.setWord (Adr.BK_LR n x.2) x.1) s).free = s.free := by induction l generalizing s <;> simp_all
@[simp] theorem State.lastResort_free (s : State) (e : Event) : (s.lastResort e).free = s.free := by
  unfold State.lastResort; dsimp only; split <;> simp [State.setWords_free]
@[simp] theorem State.raise_free (s : State) (c n : Nat) (l : List Byte) : (s.raise c n l).free = s.free := by
  unfold State.raise; repeat' split
  all_goals simp
theorem State.raises_free (s : State) (es : List Offer) :
    (es.foldl (fun (s : State) (e : Offer) => s.raise e.1 e.2.1 e.2.2) s).free = s.free := by induction es generalizing s <;> simp_all
@[simp] theorem State.raiseTogether_free (s : State) (es : List Offer) : (s.raiseTogether es).free = s.free :=
  s.raises_free _
theorem State.sameCycle_free (s : State) {k : State → State} (h : ∀ u : State, (k u).free = u.free) :
    (s.sameCycle k).free = s.free := by
  unfold State.sameCycle; split
  · exact h s
  · rw [State.raiseTogether_free]; exact h _
@[simp] theorem State.raiseFront_free (s : State) (c n : Nat) (l : List Byte) : (s.raiseFront c n l).free = s.free := by
  unfold State.raiseFront; repeat' split
  all_goals (try dsimp only); try split
  all_goals simp
theorem State.setWords_core (s : State) (n : Nat) (l : List (Word × Nat)) :
    (l.foldl (fun t x => t.setWord (Adr.BK_LR n x.2) x.1) s).core = s.core := by induction l generalizing s <;> simp_all
@[simp] theorem State.lastResort_core (s : State) (e : Event) : (s.lastResort e).core = s.core := by
  unfold State.lastResort; dsimp only; split <;> simp [State.setWords_core]
@[simp] theorem State.raise_core (s : State) (c n : Nat) (l : List Byte) : (s.raise c n l).core = s.core := by
  unfold State.raise; repeat' split
  all_goals simp
theorem State.raises_core (s : State) (es : List Offer) :
    (es.foldl (fun (s : State) (e : Offer) => s.raise e.1 e.2.1 e.2.2) s).core = s.core := by induction es generalizing s <;> simp_all
@[simp] theorem State.raiseTogether_core (s : State) (es : List Offer) : (s.raiseTogether es).core = s.core :=
  s.raises_core _
theorem State.sameCycle_core (s : State) {k : State → State} (h : ∀ u : State, (k u).core = u.core) :
    (s.sameCycle k).core = s.core := by
  unfold State.sameCycle; split
  · exact h s
  · rw [State.raiseTogether_core]; exact h _
@[simp] theorem State.raiseFront_core (s : State) (c n : Nat) (l : List Byte) : (s.raiseFront c n l).core = s.core := by
  unfold State.raiseFront; repeat' split
  all_goals (try dsimp only); try split
  all_goals simp
theorem State.setWords_esc (s : State) (n : Nat) (l : List (Word × Nat)) :
    (l.foldl (fun t x => t.setWord (Adr.BK_LR n x.2) x.1) s).esc = s.esc := by induction l generalizing s <;> simp_all
@[simp] theorem State.lastResort_esc (s : State) (e : Event) : (s.lastResort e).esc = s.esc := by
  unfold State.lastResort; dsimp only; split <;> simp [State.setWords_esc]
@[simp] theorem State.raise_esc (s : State) (c n : Nat) (l : List Byte) : (s.raise c n l).esc = s.esc := by
  unfold State.raise; repeat' split
  all_goals simp
theorem State.raises_esc (s : State) (es : List Offer) :
    (es.foldl (fun (s : State) (e : Offer) => s.raise e.1 e.2.1 e.2.2) s).esc = s.esc := by induction es generalizing s <;> simp_all
@[simp] theorem State.raiseTogether_esc (s : State) (es : List Offer) : (s.raiseTogether es).esc = s.esc :=
  s.raises_esc _
theorem State.sameCycle_esc (s : State) {k : State → State} (h : ∀ u : State, (k u).esc = u.esc) :
    (s.sameCycle k).esc = s.esc := by
  unfold State.sameCycle; split
  · exact h s
  · rw [State.raiseTogether_esc]; exact h _
@[simp] theorem State.raiseFront_esc (s : State) (c n : Nat) (l : List Byte) : (s.raiseFront c n l).esc = s.esc := by
  unfold State.raiseFront; repeat' split
  all_goals (try dsimp only); try split
  all_goals simp
theorem State.setWords_pwr (s : State) (n : Nat) (l : List (Word × Nat)) :
    (l.foldl (fun t x => t.setWord (Adr.BK_LR n x.2) x.1) s).pwr = s.pwr := by induction l generalizing s <;> simp_all
@[simp] theorem State.lastResort_pwr (s : State) (e : Event) : (s.lastResort e).pwr = s.pwr := by
  unfold State.lastResort; dsimp only; split <;> simp [State.setWords_pwr]
@[simp] theorem State.raise_pwr (s : State) (c n : Nat) (l : List Byte) : (s.raise c n l).pwr = s.pwr := by
  unfold State.raise; repeat' split
  all_goals simp
theorem State.raises_pwr (s : State) (es : List Offer) :
    (es.foldl (fun (s : State) (e : Offer) => s.raise e.1 e.2.1 e.2.2) s).pwr = s.pwr := by induction es generalizing s <;> simp_all
@[simp] theorem State.raiseTogether_pwr (s : State) (es : List Offer) : (s.raiseTogether es).pwr = s.pwr :=
  s.raises_pwr _
theorem State.sameCycle_pwr (s : State) {k : State → State} (h : ∀ u : State, (k u).pwr = u.pwr) :
    (s.sameCycle k).pwr = s.pwr := by
  unfold State.sameCycle; split
  · exact h s
  · rw [State.raiseTogether_pwr]; exact h _
@[simp] theorem State.raiseFront_pwr (s : State) (c n : Nat) (l : List Byte) : (s.raiseFront c n l).pwr = s.pwr := by
  unfold State.raiseFront; repeat' split
  all_goals (try dsimp only); try split
  all_goals simp
theorem State.setWords_acq (s : State) (n : Nat) (l : List (Word × Nat)) :
    (l.foldl (fun t x => t.setWord (Adr.BK_LR n x.2) x.1) s).acq = s.acq := by induction l generalizing s <;> simp_all
@[simp] theorem State.lastResort_acq (s : State) (e : Event) : (s.lastResort e).acq = s.acq := by
  unfold State.lastResort; dsimp only; split <;> simp [State.setWords_acq]
@[simp] theorem State.raise_acq (s : State) (c n : Nat) (l : List Byte) : (s.raise c n l).acq = s.acq := by
  unfold State.raise; repeat' split
  all_goals simp
theorem State.raises_acq (s : State) (es : List Offer) :
    (es.foldl (fun (s : State) (e : Offer) => s.raise e.1 e.2.1 e.2.2) s).acq = s.acq := by induction es generalizing s <;> simp_all
@[simp] theorem State.raiseTogether_acq (s : State) (es : List Offer) : (s.raiseTogether es).acq = s.acq :=
  s.raises_acq _
theorem State.sameCycle_acq (s : State) {k : State → State} (h : ∀ u : State, (k u).acq = u.acq) :
    (s.sameCycle k).acq = s.acq := by
  unfold State.sameCycle; split
  · exact h s
  · rw [State.raiseTogether_acq]; exact h _
@[simp] theorem State.raiseFront_acq (s : State) (c n : Nat) (l : List Byte) : (s.raiseFront c n l).acq = s.acq := by
  unfold State.raiseFront; repeat' split
  all_goals (try dsimp only); try split
  all_goals simp
theorem State.setWords_met (s : State) (n : Nat) (l : List (Word × Nat)) :
    (l.foldl (fun t x => t.setWord (Adr.BK_LR n x.2) x.1) s).met = s.met := by induction l generalizing s <;> simp_all
@[simp] theorem State.lastResort_met (s : State) (e : Event) : (s.lastResort e).met = s.met := by
  unfold State.lastResort; dsimp only; split <;> simp [State.setWords_met]
@[simp] theorem State.raise_met (s : State) (c n : Nat) (l : List Byte) : (s.raise c n l).met = s.met := by
  unfold State.raise; repeat' split
  all_goals simp
theorem State.raises_met (s : State) (es : List Offer) :
    (es.foldl (fun (s : State) (e : Offer) => s.raise e.1 e.2.1 e.2.2) s).met = s.met := by induction es generalizing s <;> simp_all
@[simp] theorem State.raiseTogether_met (s : State) (es : List Offer) : (s.raiseTogether es).met = s.met :=
  s.raises_met _
theorem State.sameCycle_met (s : State) {k : State → State} (h : ∀ u : State, (k u).met = u.met) :
    (s.sameCycle k).met = s.met := by
  unfold State.sameCycle; split
  · exact h s
  · rw [State.raiseTogether_met]; exact h _
@[simp] theorem State.raiseFront_met (s : State) (c n : Nat) (l : List Byte) : (s.raiseFront c n l).met = s.met := by
  unfold State.raiseFront; repeat' split
  all_goals (try dsimp only); try split
  all_goals simp
theorem State.setWords_aux (s : State) (n : Nat) (l : List (Word × Nat)) :
    (l.foldl (fun t x => t.setWord (Adr.BK_LR n x.2) x.1) s).aux = s.aux := by induction l generalizing s <;> simp_all
@[simp] theorem State.lastResort_aux (s : State) (e : Event) : (s.lastResort e).aux = s.aux := by
  unfold State.lastResort; dsimp only; split <;> simp [State.setWords_aux]
@[simp] theorem State.raise_aux (s : State) (c n : Nat) (l : List Byte) : (s.raise c n l).aux = s.aux := by
  unfold State.raise; repeat' split
  all_goals simp
theorem State.raises_aux (s : State) (es : List Offer) :
    (es.foldl (fun (s : State) (e : Offer) => s.raise e.1 e.2.1 e.2.2) s).aux = s.aux := by induction es generalizing s <;> simp_all
@[simp] theorem State.raiseTogether_aux (s : State) (es : List Offer) : (s.raiseTogether es).aux = s.aux :=
  s.raises_aux _
theorem State.sameCycle_aux (s : State) {k : State → State} (h : ∀ u : State, (k u).aux = u.aux) :
    (s.sameCycle k).aux = s.aux := by
  unfold State.sameCycle; split
  · exact h s
  · rw [State.raiseTogether_aux]; exact h _
@[simp] theorem State.raiseFront_aux (s : State) (c n : Nat) (l : List Byte) : (s.raiseFront c n l).aux = s.aux := by
  unfold State.raiseFront; repeat' split
  all_goals (try dsimp only); try split
  all_goals simp
theorem State.setWords_strm (s : State) (n : Nat) (l : List (Word × Nat)) :
    (l.foldl (fun t x => t.setWord (Adr.BK_LR n x.2) x.1) s).strm = s.strm := by induction l generalizing s <;> simp_all
@[simp] theorem State.lastResort_strm (s : State) (e : Event) : (s.lastResort e).strm = s.strm := by
  unfold State.lastResort; dsimp only; split <;> simp [State.setWords_strm]
@[simp] theorem State.raise_strm (s : State) (c n : Nat) (l : List Byte) : (s.raise c n l).strm = s.strm := by
  unfold State.raise; repeat' split
  all_goals simp
theorem State.raises_strm (s : State) (es : List Offer) :
    (es.foldl (fun (s : State) (e : Offer) => s.raise e.1 e.2.1 e.2.2) s).strm = s.strm := by induction es generalizing s <;> simp_all
@[simp] theorem State.raiseTogether_strm (s : State) (es : List Offer) : (s.raiseTogether es).strm = s.strm :=
  s.raises_strm _
theorem State.sameCycle_strm (s : State) {k : State → State} (h : ∀ u : State, (k u).strm = u.strm) :
    (s.sameCycle k).strm = s.strm := by
  unfold State.sameCycle; split
  · exact h s
  · rw [State.raiseTogether_strm]; exact h _
@[simp] theorem State.raiseFront_strm (s : State) (c n : Nat) (l : List Byte) : (s.raiseFront c n l).strm = s.strm := by
  unfold State.raiseFront; repeat' split
  all_goals (try dsimp only); try split
  all_goals simp
theorem State.setWords_led (s : State) (n : Nat) (l : List (Word × Nat)) :
    (l.foldl (fun t x => t.setWord (Adr.BK_LR n x.2) x.1) s).led = s.led := by induction l generalizing s <;> simp_all
@[simp] theorem State.lastResort_led (s : State) (e : Event) : (s.lastResort e).led = s.led := by
  unfold State.lastResort; dsimp only; split <;> simp [State.setWords_led]
@[simp] theorem State.raise_led (s : State) (c n : Nat) (l : List Byte) : (s.raise c n l).led = s.led := by
  unfold State.raise; repeat' split
  all_goals simp
theorem State.raises_led (s : State) (es : List Offer) :
    (es.foldl (fun (s : State) (e : Offer) => s.raise e.1 e.2.1 e.2.2) s).led = s.led := by induction es generalizing s <;> simp_all
@[simp] theorem State.raiseTogether_led (s : State) (es : List Offer) : (s.raiseTogether es).led = s.led :=
  s.raises_led _
theorem State.sameCycle_led (s : State) {k : State → State} (h : ∀ u : State, (k u).led = u.led) :
    (s.sameCycle k).led = s.led := by
  unfold State.sameCycle; split
  · exact h s
  · rw [State.raiseTogether_led]; exact h _
@[simp] theorem State.raiseFront_led (s : State) (c n : Nat) (l : List Byte) : (s.raiseFront c n l).led = s.led := by
  unfold State.raiseFront; repeat' split
  all_goals (try dsimp only); try split
  all_goals simp
theorem State.setWords_str (s : State) (n : Nat) (l : List (Word × Nat)) :
    (l.foldl (fun t x => t.setWord (Adr.BK_LR n x.2) x.1) s).str = s.str := by induction l generalizing s <;> simp_all
@[simp] theorem State.lastResort_str (s : State) (e : Event) : (s.lastResort e).str = s.str := by
  unfold State.lastResort; dsimp only; split <;> simp [State.setWords_str]
@[simp] theorem State.raise_str (s : State) (c n : Nat) (l : List Byte) : (s.raise c n l).str = s.str := by
  unfold State.raise; repeat' split
  all_goals simp
theorem State.raises_str (s : State) (es : List Offer) :
    (es.foldl (fun (s : State) (e : Offer) => s.raise e.1 e.2.1 e.2.2) s).str = s.str := by induction es generalizing s <;> simp_all
@[simp] theorem State.raiseTogether_str (s : State) (es : List Offer) : (s.raiseTogether es).str = s.str :=
  s.raises_str _
theorem State.sameCycle_str (s : State) {k : State → State} (h : ∀ u : State, (k u).str = u.str) :
    (s.sameCycle k).str = s.str := by
  unfold State.sameCycle; split
  · exact h s
  · rw [State.raiseTogether_str]; exact h _
@[simp] theorem State.raiseFront_str (s : State) (c n : Nat) (l : List Byte) : (s.raiseFront c n l).str = s.str := by
  unfold State.raiseFront; repeat' split
  all_goals (try dsimp only); try split
  all_goals simp
theorem State.setWords_gar (s : State) (n : Nat) (l : List (Word × Nat)) :
    (l.foldl (fun t x => t.setWord (Adr.BK_LR n x.2) x.1) s).gar = s.gar := by induction l generalizing s <;> simp_all
@[simp] theorem State.lastResort_gar (s : State) (e : Event) : (s.lastResort e).gar = s.gar := by
  unfold State.lastResort; dsimp only; split <;> simp [State.setWords_gar]
@[simp] theorem State.raise_gar (s : State) (c n : Nat) (l : List Byte) : (s.raise c n l).gar = s.gar := by
  unfold State.raise; repeat' split
  all_goals simp
theorem State.raises_gar (s : State) (es : List Offer) :
    (es.foldl (fun (s : State) (e : Offer) => s.raise e.1 e.2.1 e.2.2) s).gar = s.gar := by induction es generalizing s <;> simp_all
@[simp] theorem State.raiseTogether_gar (s : State) (es : List Offer) : (s.raiseTogether es).gar = s.gar :=
  s.raises_gar _
theorem State.sameCycle_gar (s : State) {k : State → State} (h : ∀ u : State, (k u).gar = u.gar) :
    (s.sameCycle k).gar = s.gar := by
  unfold State.sameCycle; split
  · exact h s
  · rw [State.raiseTogether_gar]; exact h _
@[simp] theorem State.raiseFront_gar (s : State) (c n : Nat) (l : List Byte) : (s.raiseFront c n l).gar = s.gar := by
  unfold State.raiseFront; repeat' split
  all_goals (try dsimp only); try split
  all_goals simp
theorem State.setWords_sec (s : State) (n : Nat) (l : List (Word × Nat)) :
    (l.foldl (fun t x => t.setWord (Adr.BK_LR n x.2) x.1) s).sec = s.sec := by induction l generalizing s <;> simp_all
@[simp] theorem State.lastResort_sec (s : State) (e : Event) : (s.lastResort e).sec = s.sec := by
  unfold State.lastResort; dsimp only; split <;> simp [State.setWords_sec]
@[simp] theorem State.raise_sec (s : State) (c n : Nat) (l : List Byte) : (s.raise c n l).sec = s.sec := by
  unfold State.raise; repeat' split
  all_goals simp
theorem State.raises_sec (s : State) (es : List Offer) :
    (es.foldl (fun (s : State) (e : Offer) => s.raise e.1 e.2.1 e.2.2) s).sec = s.sec := by induction es generalizing s <;> simp_all
@[simp] theorem State.raiseTogether_sec (s : State) (es : List Offer) : (s.raiseTogether es).sec = s.sec :=
  s.raises_sec _
theorem State.sameCycle_sec (s : State) {k : State → State} (h : ∀ u : State, (k u).sec = u.sec) :
    (s.sameCycle k).sec = s.sec := by
  unfold State.sameCycle; split
  · exact h s
  · rw [State.raiseTogether_sec]; exact h _
@[simp] theorem State.raiseFront_sec (s : State) (c n : Nat) (l : List Byte) : (s.raiseFront c n l).sec = s.sec := by
  unfold State.raiseFront; repeat' split
  all_goals (try dsimp only); try split
  all_goals simp
theorem State.setWords_tmp (s : State) (n : Nat) (l : List (Word × Nat)) :
    (l.foldl (fun t x => t.setWord (Adr.BK_LR n x.2) x.1) s).tmp = s.tmp := by induction l generalizing s <;> simp_all
@[simp] theorem State.lastResort_tmp (s : State) (e : Event) : (s.lastResort e).tmp = s.tmp := by
  unfold State.lastResort; dsimp only; split <;> simp [State.setWords_tmp]
@[simp] theorem State.raise_tmp (s : State) (c n : Nat) (l : List Byte) : (s.raise c n l).tmp = s.tmp := by
  unfold State.raise; repeat' split
  all_goals simp
theorem State.raises_tmp (s : State) (es : List Offer) :
    (es.foldl (fun (s : State) (e : Offer) => s.raise e.1 e.2.1 e.2.2) s).tmp = s.tmp := by induction es generalizing s <;> simp_all
@[simp] theorem State.raiseTogether_tmp (s : State) (es : List Offer) : (s.raiseTogether es).tmp = s.tmp :=
  s.raises_tmp _
theorem State.sameCycle_tmp (s : State) {k : State → State} (h : ∀ u : State, (k u).tmp = u.tmp) :
    (s.sameCycle k).tmp = s.tmp := by
  unfold State.sameCycle; split
  · exact h s
  · rw [State.raiseTogether_tmp]; exact h _
@[simp] theorem State.raiseFront_tmp (s : State) (c n : Nat) (l : List Byte) : (s.raiseFront c n l).tmp = s.tmp := by
  unfold State.raiseFront; repeat' split
  all_goals (try dsimp only); try split
  all_goals simp
theorem State.setWords_ring (s : State) (n : Nat) (l : List (Word × Nat)) :
    (l.foldl (fun t x => t.setWord (Adr.BK_LR n x.2) x.1) s).ring = s.ring := by induction l generalizing s <;> simp_all
@[simp] theorem State.lastResort_ring (s : State) (e : Event) : (s.lastResort e).ring = s.ring := by
  unfold State.lastResort; dsimp only; split <;> simp [State.setWords_ring]
@[simp] theorem State.raise_ring (s : State) (c n : Nat) (l : List Byte) : (s.raise c n l).ring = s.ring := by
  unfold State.raise; repeat' split
  all_goals simp
theorem State.raises_ring (s : State) (es : List Offer) :
    (es.foldl (fun (s : State) (e : Offer) => s.raise e.1 e.2.1 e.2.2) s).ring = s.ring := by induction es generalizing s <;> simp_all
@[simp] theorem State.raiseTogether_ring (s : State) (es : List Offer) : (s.raiseTogether es).ring = s.ring :=
  s.raises_ring _
theorem State.sameCycle_ring (s : State) {k : State → State} (h : ∀ u : State, (k u).ring = u.ring) :
    (s.sameCycle k).ring = s.ring := by
  unfold State.sameCycle; split
  · exact h s
  · rw [State.raiseTogether_ring]; exact h _
@[simp] theorem State.raiseFront_ring (s : State) (c n : Nat) (l : List Byte) : (s.raiseFront c n l).ring = s.ring := by
  unfold State.raiseFront; repeat' split
  all_goals (try dsimp only); try split
  all_goals simp
theorem State.setWords_twin (s : State) (n : Nat) (l : List (Word × Nat)) :
    (l.foldl (fun t x => t.setWord (Adr.BK_LR n x.2) x.1) s).twin = s.twin := by induction l generalizing s <;> simp_all
@[simp] theorem State.lastResort_twin (s : State) (e : Event) : (s.lastResort e).twin = s.twin := by
  unfold State.lastResort; dsimp only; split <;> simp [State.setWords_twin]
@[simp] theorem State.raise_twin (s : State) (c n : Nat) (l : List Byte) : (s.raise c n l).twin = s.twin := by
  unfold State.raise; repeat' split
  all_goals simp
theorem State.raises_twin (s : State) (es : List Offer) :
    (es.foldl (fun (s : State) (e : Offer) => s.raise e.1 e.2.1 e.2.2) s).twin = s.twin := by induction es generalizing s <;> simp_all
@[simp] theorem State.raiseTogether_twin (s : State) (es : List Offer) : (s.raiseTogether es).twin = s.twin :=
  s.raises_twin _
theorem State.sameCycle_twin (s : State) {k : State → State} (h : ∀ u : State, (k u).twin = u.twin) :
    (s.sameCycle k).twin = s.twin := by
  unfold State.sameCycle; split
  · exact h s
  · rw [State.raiseTogether_twin]; exact h _
@[simp] theorem State.raiseFront_twin (s : State) (c n : Nat) (l : List Byte) : (s.raiseFront c n l).twin = s.twin := by
  unfold State.raiseFront; repeat' split
  all_goals (try dsimp only); try split
  all_goals simp
theorem State.setWords_panel (s : State) (n : Nat) (l : List (Word × Nat)) :
    (l.foldl (fun t x => t.setWord (Adr.BK_LR n x.2) x.1) s).panel = s.panel := by induction l generalizing s <;> simp_all
@[simp] theorem State.lastResort_panel (s : State) (e : Event) : (s.lastResort e).panel = s.panel := by
  unfold State.lastResort; dsimp only; split <;> simp [State.setWords_panel]
@[simp] theorem State.raise_panel (s : State) (c n : Nat) (l : List Byte) : (s.raise c n l).panel = s.panel := by
  unfold State.raise; repeat' split
  all_goals simp
theorem State.raises_panel (s : State) (es : List Offer) :
    (es.foldl (fun (s : State) (e : Offer) => s.raise e.1 e.2.1 e.2.2) s).panel = s.panel := by induction es generalizing s <;> simp_all
@[simp] theorem State.raiseTogether_panel (s : State) (es : List Offer) : (s.raiseTogether es).panel = s.panel :=
  s.raises_panel _
theorem State.sameCycle_panel (s : State) {k : State → State} (h : ∀ u : State, (k u).panel = u.panel) :
    (s.sameCycle k).panel = s.panel := by
  unfold State.sameCycle; split
  · exact h s
  · rw [State.raiseTogether_panel]; exact h _
@[simp] theorem State.raiseFront_panel (s : State) (c n : Nat) (l : List Byte) : (s.raiseFront c n l).panel = s.panel := by
  unfold State.raiseFront; repeat' split
  all_goals (try dsimp only); try split
  all_goals simp
theorem State.setWords_portA (s : State) (n : Nat) (l : List (Word × Nat)) :
    (l.foldl (fun t x => t.setWord (Adr.BK_LR n x.2) x.1) s).portA = s.portA := by induction l generalizing s <;> simp_all
@[simp] theorem State.lastResort_portA (s : State) (e : Event) : (s.lastResort e).portA = s.portA := by
  unfold State.lastResort; dsimp only; split <;> simp [State.setWords_portA]
@[simp] theorem State.raise_portA (s : State) (c n : Nat) (l : List Byte) : (s.raise c n l).portA = s.portA := by
  unfold State.raise; repeat' split
  all_goals simp
theorem State.raises_portA (s : State) (es : List Offer) :
    (es.foldl (fun (s : State) (e : Offer) => s.raise e.1 e.2.1 e.2.2) s).portA = s.portA := by induction es generalizing s <;> simp_all
@[simp] theorem State.raiseTogether_portA (s : State) (es : List Offer) : (s.raiseTogether es).portA = s.portA :=
  s.raises_portA _
theorem State.sameCycle_portA (s : State) {k : State → State} (h : ∀ u : State, (k u).portA = u.portA) :
    (s.sameCycle k).portA = s.portA := by
  unfold State.sameCycle; split
  · exact h s
  · rw [State.raiseTogether_portA]; exact h _
@[simp] theorem State.raiseFront_portA (s : State) (c n : Nat) (l : List Byte) : (s.raiseFront c n l).portA = s.portA := by
  unfold State.raiseFront; repeat' split
  all_goals (try dsimp only); try split
  all_goals simp
theorem State.setWords_portB (s : State) (n : Nat) (l : List (Word × Nat)) :
    (l.foldl (fun t x => t.setWord (Adr.BK_LR n x.2) x.1) s).portB = s.portB := by induction l generalizing s <;> simp_all
@[simp] theorem State.lastResort_portB (s : State) (e : Event) : (s.lastResort e).portB = s.portB := by
  unfold State.lastResort; dsimp only; split <;> simp [State.setWords_portB]
@[simp] theorem State.raise_portB (s : State) (c n : Nat) (l : List Byte) : (s.raise c n l).portB = s.portB := by
  unfold State.raise; repeat' split
  all_goals simp
theorem State.raises_portB (s : State) (es : List Offer) :
    (es.foldl (fun (s : State) (e : Offer) => s.raise e.1 e.2.1 e.2.2) s).portB = s.portB := by induction es generalizing s <;> simp_all
@[simp] theorem State.raiseTogether_portB (s : State) (es : List Offer) : (s.raiseTogether es).portB = s.portB :=
  s.raises_portB _
theorem State.sameCycle_portB (s : State) {k : State → State} (h : ∀ u : State, (k u).portB = u.portB) :
    (s.sameCycle k).portB = s.portB := by
  unfold State.sameCycle; split
  · exact h s
  · rw [State.raiseTogether_portB]; exact h _
@[simp] theorem State.raiseFront_portB (s : State) (c n : Nat) (l : List Byte) : (s.raiseFront c n l).portB = s.portB := by
  unfold State.raiseFront; repeat' split
  all_goals (try dsimp only); try split
  all_goals simp
theorem State.setWords_net (s : State) (n : Nat) (l : List (Word × Nat)) :
    (l.foldl (fun t x => t.setWord (Adr.BK_LR n x.2) x.1) s).net = s.net := by induction l generalizing s <;> simp_all
@[simp] theorem State.lastResort_net (s : State) (e : Event) : (s.lastResort e).net = s.net := by
  unfold State.lastResort; dsimp only; split <;> simp [State.setWords_net]
@[simp] theorem State.raise_net (s : State) (c n : Nat) (l : List Byte) : (s.raise c n l).net = s.net := by
  unfold State.raise; repeat' split
  all_goals simp
theorem State.raises_net (s : State) (es : List Offer) :
    (es.foldl (fun (s : State) (e : Offer) => s.raise e.1 e.2.1 e.2.2) s).net = s.net := by induction es generalizing s <;> simp_all
@[simp] theorem State.raiseTogether_net (s : State) (es : List Offer) : (s.raiseTogether es).net = s.net :=
  s.raises_net _
theorem State.sameCycle_net (s : State) {k : State → State} (h : ∀ u : State, (k u).net = u.net) :
    (s.sameCycle k).net = s.net := by
  unfold State.sameCycle; split
  · exact h s
  · rw [State.raiseTogether_net]; exact h _
@[simp] theorem State.raiseFront_net (s : State) (c n : Nat) (l : List Byte) : (s.raiseFront c n l).net = s.net := by
  unfold State.raiseFront; repeat' split
  all_goals (try dsimp only); try split
  all_goals simp
theorem State.setWords_kept (s : State) (n : Nat) (l : List (Word × Nat)) :
    (l.foldl (fun t x => t.setWord (Adr.BK_LR n x.2) x.1) s).kept = s.kept := by induction l generalizing s <;> simp_all
@[simp] theorem State.lastResort_kept (s : State) (e : Event) : (s.lastResort e).kept = s.kept := by
  unfold State.lastResort; dsimp only; split <;> simp [State.setWords_kept]
@[simp] theorem State.raise_kept (s : State) (c n : Nat) (l : List Byte) : (s.raise c n l).kept = s.kept := by
  unfold State.raise; repeat' split
  all_goals simp
theorem State.raises_kept (s : State) (es : List Offer) :
    (es.foldl (fun (s : State) (e : Offer) => s.raise e.1 e.2.1 e.2.2) s).kept = s.kept := by induction es generalizing s <;> simp_all
@[simp] theorem State.raiseTogether_kept (s : State) (es : List Offer) : (s.raiseTogether es).kept = s.kept :=
  s.raises_kept _
theorem State.sameCycle_kept (s : State) {k : State → State} (h : ∀ u : State, (k u).kept = u.kept) :
    (s.sameCycle k).kept = s.kept := by
  unfold State.sameCycle; split
  · exact h s
  · rw [State.raiseTogether_kept]; exact h _
@[simp] theorem State.raiseFront_kept (s : State) (c n : Nat) (l : List Byte) : (s.raiseFront c n l).kept = s.kept := by
  unfold State.raiseFront; repeat' split
  all_goals (try dsimp only); try split
  all_goals simp
theorem State.setWords_ptp (s : State) (n : Nat) (l : List (Word × Nat)) :
    (l.foldl (fun t x => t.setWord (Adr.BK_LR n x.2) x.1) s).ptp = s.ptp := by induction l generalizing s <;> simp_all
@[simp] theorem State.lastResort_ptp (s : State) (e : Event) : (s.lastResort e).ptp = s.ptp := by
  unfold State.lastResort; dsimp only; split <;> simp [State.setWords_ptp]
@[simp] theorem State.raise_ptp (s : State) (c n : Nat) (l : List Byte) : (s.raise c n l).ptp = s.ptp := by
  unfold State.raise; repeat' split
  all_goals simp
theorem State.raises_ptp (s : State) (es : List Offer) :
    (es.foldl (fun (s : State) (e : Offer) => s.raise e.1 e.2.1 e.2.2) s).ptp = s.ptp := by induction es generalizing s <;> simp_all
@[simp] theorem State.raiseTogether_ptp (s : State) (es : List Offer) : (s.raiseTogether es).ptp = s.ptp :=
  s.raises_ptp _
theorem State.sameCycle_ptp (s : State) {k : State → State} (h : ∀ u : State, (k u).ptp = u.ptp) :
    (s.sameCycle k).ptp = s.ptp := by
  unfold State.sameCycle; split
  · exact h s
  · rw [State.raiseTogether_ptp]; exact h _
@[simp] theorem State.raiseFront_ptp (s : State) (c n : Nat) (l : List Byte) : (s.raiseFront c n l).ptp = s.ptp := by
  unfold State.raiseFront; repeat' split
  all_goals (try dsimp only); try split
  all_goals simp
theorem State.setWords_bk (s : State) (n : Nat) (l : List (Word × Nat)) :
    (l.foldl (fun t x => t.setWord (Adr.BK_LR n x.2) x.1) s).bk = s.bk := by induction l generalizing s <;> simp_all
@[simp] theorem State.lastResort_bk (s : State) (e : Event) : (s.lastResort e).bk = s.bk := by
  unfold State.lastResort; dsimp only; split <;> simp [State.setWords_bk]
@[simp] theorem State.raise_bk (s : State) (c n : Nat) (l : List Byte) : (s.raise c n l).bk = s.bk := by
  unfold State.raise; repeat' split
  all_goals simp
theorem State.raises_bk (s : State) (es : List Offer) :
    (es.foldl (fun (s : State) (e : Offer) => s.raise e.1 e.2.1 e.2.2) s).bk = s.bk := by induction es generalizing s <;> simp_all
@[simp] theorem State.raiseTogether_bk (s : State) (es : List Offer) : (s.raiseTogether es).bk = s.bk :=
  s.raises_bk _
theorem State.sameCycle_bk (s : State) {k : State → State} (h : ∀ u : State, (k u).bk = u.bk) :
    (s.sameCycle k).bk = s.bk := by
  unfold State.sameCycle; split
  · exact h s
  · rw [State.raiseTogether_bk]; exact h _
@[simp] theorem State.raiseFront_bk (s : State) (c n : Nat) (l : List Byte) : (s.raiseFront c n l).bk = s.bk := by
  unfold State.raiseFront; repeat' split
  all_goals (try dsimp only); try split
  all_goals simp
theorem State.setWords_flash (s : State) (n : Nat) (l : List (Word × Nat)) :
    (l.foldl (fun t x => t.setWord (Adr.BK_LR n x.2) x.1) s).flash = s.flash := by induction l generalizing s <;> simp_all
@[simp] theorem State.lastResort_flash (s : State) (e : Event) : (s.lastResort e).flash = s.flash := by
  unfold State.lastResort; dsimp only; split <;> simp [State.setWords_flash]
@[simp] theorem State.raise_flash (s : State) (c n : Nat) (l : List Byte) : (s.raise c n l).flash = s.flash := by
  unfold State.raise; repeat' split
  all_goals simp
theorem State.raises_flash (s : State) (es : List Offer) :
    (es.foldl (fun (s : State) (e : Offer) => s.raise e.1 e.2.1 e.2.2) s).flash = s.flash := by induction es generalizing s <;> simp_all
@[simp] theorem State.raiseTogether_flash (s : State) (es : List Offer) : (s.raiseTogether es).flash = s.flash :=
  s.raises_flash _
theorem State.sameCycle_flash (s : State) {k : State → State} (h : ∀ u : State, (k u).flash = u.flash) :
    (s.sameCycle k).flash = s.flash := by
  unfold State.sameCycle; split
  · exact h s
  · rw [State.raiseTogether_flash]; exact h _
@[simp] theorem State.raiseFront_flash (s : State) (c n : Nat) (l : List Byte) : (s.raiseFront c n l).flash = s.flash := by
  unfold State.raiseFront; repeat' split
  all_goals (try dsimp only); try split
  all_goals simp
theorem State.setWords_ldr (s : State) (n : Nat) (l : List (Word × Nat)) :
    (l.foldl (fun t x => t.setWord (Adr.BK_LR n x.2) x.1) s).ldr = s.ldr := by induction l generalizing s <;> simp_all
@[simp] theorem State.lastResort_ldr (s : State) (e : Event) : (s.lastResort e).ldr = s.ldr := by
  unfold State.lastResort; dsimp only; split <;> simp [State.setWords_ldr]
@[simp] theorem State.raise_ldr (s : State) (c n : Nat) (l : List Byte) : (s.raise c n l).ldr = s.ldr := by
  unfold State.raise; repeat' split
  all_goals simp
theorem State.raises_ldr (s : State) (es : List Offer) :
    (es.foldl (fun (s : State) (e : Offer) => s.raise e.1 e.2.1 e.2.2) s).ldr = s.ldr := by induction es generalizing s <;> simp_all
@[simp] theorem State.raiseTogether_ldr (s : State) (es : List Offer) : (s.raiseTogether es).ldr = s.ldr :=
  s.raises_ldr _
theorem State.sameCycle_ldr (s : State) {k : State → State} (h : ∀ u : State, (k u).ldr = u.ldr) :
    (s.sameCycle k).ldr = s.ldr := by
  unfold State.sameCycle; split
  · exact h s
  · rw [State.raiseTogether_ldr]; exact h _
@[simp] theorem State.raiseFront_ldr (s : State) (c n : Nat) (l : List Byte) : (s.raiseFront c n l).ldr = s.ldr := by
  unfold State.raiseFront; repeat' split
  all_goals (try dsimp only); try split
  all_goals simp

end Sys2Proof.Machine
end

