-- ==== Sys2Proof/Machine/Vein.lean ====
section
/-!
DEFINITION. The Vein and the arbiters (R22, R23, R26, R28), as functions of the requests of one cycle. No row of the table is a
transfer, and one queue of commands shows no two requests of one cycle, so no step calls them (notes/assumptions/128.md).
-/

namespace Sys2Proof.Machine

/-- The owner of a slot of the Vein's frame of 16 (R22, SYS_VEIN_OWN): 0 AQ, 1 MT, 2 LG, 3 IF. -/
def State.slotOwner (s : State) (n : Nat) : Nat := s.rd (Fld.SYS_VEIN_OWN_SLOT n)

/-- The region that fills a slot (R23): its owner if it has a transfer waiting, else the first of AQ, MT, LG, IF that has. -/
def veinGrant (owner : Nat) (waiting : Nat → Bool) : Option Nat :=
  if waiting owner then some owner else (List.range 4).find? waiting

/-- Cells of a block (R26): the lower index wins. -/
def cellGrant (n : Nat) (req : Nat → Bool) : Option Nat := (List.range n).find? req

/-- Blocks that share a port (R26): the requester after the last granted wins. -/
def roundRobin (n last : Nat) (req : Nat → Bool) : Option Nat :=
  ((List.range n).map fun i => (last + 1 + i) % n).find? req

/-- The arbiter of a region's ports (R28): what each port may still use of this round, and the port granted last. -/
structure RegionArbiter where
  credit : List Nat
  last : Nat
deriving DecidableEq, Repr

/-- A grant of the weighted round robin (R28): a requester with credit, else, after the credits have been reloaded from the
weights (0 acts as 1), the next requester; it uses one credit. -/
def RegionArbiter.grant (a : RegionArbiter) (weight : List Nat) (req : Nat → Bool) : Option (Nat × RegionArbiter) :=
  let take (c : List Nat) (i : Nat) : Nat × RegionArbiter := (i, { credit := c.set i (c.getD i 0 - 1), last := i })
  match roundRobin 8 a.last fun i => req i && a.credit.getD i 0 ≠ 0 with
  | some i => some (take a.credit i)
  | none => (roundRobin 8 a.last req).map (take (weight.map fun w => max w 1))

/-- The weights of the ports of a region, 0 AQ, 1 MT, 2 LG, 3 IF (SYS_ARB_AQ to SYS_ARB_IF). -/
def State.portWeights (s : State) (region : Nat) : List Nat :=
  (List.range 8).map fun p => match region with
    | 0 => s.rd (Fld.SYS_ARB_AQ_W p)
    | 1 => s.rd (Fld.SYS_ARB_MT_W p)
    | 2 => s.rd (Fld.SYS_ARB_LG_W p)
    | _ => s.rd (Fld.SYS_ARB_IF_W p)

end Sys2Proof.Machine
end

