-- ==== Sys2Proof/Tests/Slice0.lean ====
section
/-!
SUPPORT. The model's own tests, each one step on a small state: ill-formed operands, and for each obligation with hypotheses
a state and operands that meet them (`wit_…`), with what the command then does there.
-/

namespace Sys2Proof.Tests

set_option Elab.async false

open Sys2Proof.Machine

/-! ### Helpers -/

/-- The outcome is a next state with a property. -/
def nextSat (o : Host.Outcome State Fault Refusal) (f : State → Bool) : Bool :=
  match o with
  | .next t => f t
  | _ => false

/-- Only register words of a list differ, as listed in the states. -/
def keeps (s t : State) (l : List Nat) : Bool :=
  (t.regs.filter fun x => !l.contains x.1) == (s.regs.filter fun x => !l.contains x.1)

/-- A device whose core runs, with a formatted Strata recovered. -/
def on : State := {
  State.reset with
  core := { running := true, pll := true, loaded := true, ready := true }
  led := { recovered := true } }

/-- With a session of every role on a path. -/
def sess (s : State) (p : Path) : State := s.setPath p { s.path p with session := some { role := 0x1F, key := 0, opened := 0 } }

/-- With an armed authorisation on the host port's path. -/
def armed (s : State) (cmd : Nat) (target : List Byte) : State :=
  (sess s .spi).setPath .spi { (sess s .spi).path .spi with
    armed := [{ cmd, target := padTo 24 target, roles := 3, keys := 0x10, firstAt := 0 }] }

/-- The session that `sess` opens. -/
def theSess : Session := { role := 0x1F, key := 0, opened := 0 }

/-- A fold whose steps are taken one at a time. -/
def foldStrict (f : Word → Byte → Word) : List Byte → Word → Word
  | [], c => c
  | b :: bs, c => if c.toNat < 4294967296 then foldStrict f bs (f c b) else 0

theorem foldStrict_eq (f : Word → Byte → Word) (bs : List Byte) (c : Word) : foldStrict f bs c = bs.foldl f c := by
  induction bs generalizing c with
  | nil => rfl
  | cons b bs ih => simp only [foldStrict, List.foldl_cons, ih]; exact if_pos c.isLt

/-! ### Ill-formed operands -/

theorem test_laneOutputSample_illFormed : (Instr.laneOutputSample []).wellFormed = false := by decide +kernel
theorem test_laneOutputSample_short : (Instr.laneOutputSample (List.replicate 76 [])).wellFormed = false := by decide +kernel
theorem test_read_wellFormed : (Instr.read 0 1 0).wellFormed = true := by decide +kernel

/-! ### The queue, resets and the start -/

/-- A device out of reset that has not locked its PLLs, without a flash. -/
def cold : State := { State.reset with core := { running := true }, flash := { sfdp := none } }

/-- Bytes of an image header of generation 1 for the KB9616, up to HDR_CRC: MAGIC, FORMAT, PART, GEN, LENGTH, and NSECT = 3. -/
def head28 : List Byte :=
  beBytes 4 0x4B424346 ++ beBytes 2 1 ++ beBytes 2 0x9616 ++ beBytes 4 1 ++ beBytes 4 4096 ++ beBytes 8 0 ++ beBytes 1 0 ++
  beBytes 1 3 ++ beBytes 2 0

/-- A flash of 16 MiB whose slot 1 begins with that header. -/
def withHeader : State :=
  let bs := head28 ++ beBytes 4 (crc32 head28).toNat
  { cold with flash := { cells := (bs.zipIdx.map fun (b, i) => (cfgSlotBytes + i, b)), sfdp := some (4, 1) } }

/-- An image without registers. -/
def im0 : Image := { gen := 1, regs := [], auth := [], active := [], passive := none, patches := [], digest := 0 }

theorem wit_StepRunsFront : (let s := { State.reset with pending := [.brownout, .quantum] }
    s.pending = .brownout :: [.quantum] ∧ nextSat (step s) (fun t => t.pending = [.quantum]) = true) := by decide +kernel

theorem wit_StepRunsFront_lanes : (let c : Instr := .laneOutputSample (List.replicate 76 (List.replicate 32 ⟨0, 0, true, true⟩))
    c.wellFormed = true ∧ nextSat (exec c on) (fun t => t.str = on.str) = true) := by decide +kernel

/-- A scan of one channel waits for its four conversions. -/
def scanning : State :=
  { on with aux := { plan := [{ chan := 3, gain := 0, osr := 4 }], lastGain := some 0 } }.wr Fld.AX_STATUS_STATE axScan

theorem wit_StepRunsFront_scan : (let conv : List AuxConv := List.replicate 4 ⟨9, true⟩
    (Instr.scanComplete conv).wellFormed = true ∧ scanning.axState = axScan ∧
    (scanning.scanRuns scanning.aux.plan scanning.aux.lastGain
      (conv.zipIdx.map fun (x : AuxConv × Nat) => (scanning.aux.takenAt + 1 + scanning.aux.settle + x.2, x.1))).isSome = true) := by decide +kernel

theorem wit_StepKeepsCanonical :
    (let s : State := { State.reset with pending := [.powerGood true true] }
     storeWf resetWord s.regs = true ∧ storeWf resetWord s.spi.regs = true ∧ storeWf resetWord s.drega.regs = true ∧
     storeWf erasedAt s.flash.cells = true ∧ s.rcd.gather = none ∧
     nextSat (exec (.powerGood true true) s) (fun t => storeWf resetWord t.regs && t.core.running) = true) := by decide +kernel

theorem wit_PowerGoodReleases :
    (let s : State := State.reset
     s.core.running = false ∧
     nextSat (exec (.powerGood true false) s) (fun t => t.core.running && t.rd Fld.CFG_RESET_CAUSE = 2 && t.flag Fld.CFG_STRAP_CSC_ROLE &&
       !t.flag Fld.CFG_STRAP_TWN_ROLE && !t.bk.por &&
       keeps s t [Adr.CFG_RESET, Adr.PWR_MON, Adr.CFG_STRAP, Adr.CSC_STATUS, Adr.TWN_STATUS]) = true) := by decide +kernel

theorem wit_Resets_rstN :
    (let s : State := on
     s.core.running = true ∧ s.halted = false ∧ s.ldr.flash = none ∧
     nextSat (exec .rstNAssert s) (fun t => t.core = { cause := 3 } && t.led = {} && t.str = s.str) = true) := by decide +kernel

theorem wit_Resets_auto :
    (let s : State := ({ on with esc := { frozenAt := some 0 } }.setChip chipFrozen).wr Fld.SYS_ESC_CTRL_AUTO_RESTART_S 3
     s.core.running = true ∧ s.chip = chipFrozen ∧ s.rd Fld.SYS_ESC_CTRL_AUTO_RESTART_S ≠ 0 ∧
     nextSat (exec .autoRestart s) (fun t => t.now = 3000 && t.core = { cause := 4, running := true } && t.rd Fld.CFG_RESET_CAUSE = 4) = true) := by decide +kernel

theorem wit_Resets_warn :
    (let s : State := { on with core := { on.core with warned := true } }
     s.core.warned = true ∧ nextSat (exec .warnReset s) (fun t => t.core = { cause := 5, running := true }) = true) := by decide +kernel

theorem wit_Resets_config :
    (let s : State := { on with ldr := { resetDue := true } }
     s.ldr.resetDue = true ∧
     nextSat (exec .configReset s) (fun t => t.core = { cause := 6, running := true } && t.flash = s.flash) = true) := by decide +kernel

theorem wit_PowerFail_warning :
    (let s : State := sess on .spi
     s.core.running = true ∧ s.core.warned = false ∧
     nextSat (exec .powerFailWarning s) (fun t => t.core.warned && t.flag Fld.PWR_MON_WARN && t.rcd.closed && t.spi.session = none && t.sec.dual = none &&
       t.str = s.str && !t.halted && t.led.compacting = none) = true) := by decide +kernel

theorem wit_PowerFail_final :
    (let s : State := { on with core := { on.core with warned := true } }
     s.core.warned = true ∧ s.led.cutOffDone = false ∧ s.ledgerOk = true ∧ s.led.bounds = [] ∧ s.led.queue = [] ∧
     copyFailed s.str 0 0 = false ∧ copyFailed s.str 0 1 = false) := by decide +kernel

theorem wit_PllLockChoosesSlot_none :
    (let s : State := cold
     s.core.running = true ∧ s.core.pll = false ∧ s.flash.sfdp.all (fun x => x.1 < 4) = true ∧
     nextSat (exec .pllLock s) (fun t => t.core.pll && t.chip = chipLoadFailed && t.ldr.cur = none) = true) := by decide +kernel

theorem wit_PllLockChoosesSlot_slot :
    (let s : State := withHeader
     s.core.running = true ∧ s.core.pll = false ∧ s.slotOrder = [1] ∧ s.flash.sfdp = some (4, 1) ∧
     nextSat (exec .pllLock s) (fun t => t.core.pll && t.ldr.cur = some { slot := 1 } && t.ldr.rest = [] && t.loader = ldRead &&
       t.rd Fld.CFG_FLASH_SIZE = 4 && keeps s t [Adr.CFG_FLASH, Adr.CFG_SLOT0, Adr.CFG_SLOT1, Adr.CFG_STATUS]) = true) := by decide +kernel

theorem wit_ImageTested_read :
    (let s : State := { on with ldr := { cur := some { slot := 0 } } }.wr Fld.CFG_STATUS_LOADER ldRead
     s.ldr.cur.isSome = true ∧ s.loader = ldRead ∧
     nextSat (exec .candidateReadComplete s) (fun t => t.loader = ldVerify && keeps s t [Adr.CFG_STATUS]) = true) := by decide +kernel

theorem wit_ImageTested_verify :
    (let s : State := { on with ldr := { cur := some { slot := 0 } } }.wr Fld.CFG_STATUS_LOADER ldVerify
     s.ldr.cur = some { slot := 0 } ∧ s.loader = ldVerify ∧ s.ldr.rest = [] ∧ s.ledgerOk = true ∧
     copyFailed s.str 0 0 = false ∧ copyFailed s.str 0 1 = false ∧ s.core.warned = false ∧ s.led.queue = [] ∧
     nextSat (exec .imageVerify s) (fun t => t.chip = chipLoadFailed && t.ldr.cur = none && t.rd Fld.CFG_LOAD_STAT_RESULT = lrHeader) = true) := by decide +kernel

theorem wit_ImageTested_apply :
    (let s : State := { on with core := { on.core with loaded := false, ready := false }, ldr := { accepted := some im0 } }
     s.ldr.accepted = some im0 ∧ s.core.loaded = false ∧ s.chip = chipStart ∧
     nextSat (exec .imageApply s) (fun t => t.core.loaded && t.chip = chipProvisional && t.loader = ldIdle && t.ldr.accepted = none && t.tmp.responsesOn &&
       t.tmp.testRun.isSome && t.flash = s.flash && t.ldr.patches = []) = true) := by decide +kernel

theorem wit_TamperTestRun_window :
    (let s : State := { on with tmp := { testRun := some (14, true) } }
     s.tmp.testRun = some (14, true) ∧
     nextSat (exec (.tamperTestWindowEnd false) s) (fun t => t.tmp.testRun = some (s.nextMonitor 15, true) && t.rd Fld.TMP_TEST_FAIL / 2 ^ 14 % 2 = 1) = true) := by decide +kernel

theorem wit_TamperTestRun_first :
    (let s : State := { on with tmp := { testRun := some (0, true) } }
     s.tmp.testRun = some (0, true) ∧
     nextSat (exec (.tamperTestWindowEnd true) s) (fun t => t.tmp.testRun = some (s.nextMonitor 1, true) && t.rd Fld.TMP_TEST_FAIL % 2 = 0) = true) := by decide +kernel

theorem wit_TamperTestRun_complete :
    (let s : State := { on with tmp := { testRun := some (15, false) } }
     s.tmp.testRun = some (15, false) ∧
     nextSat (exec .tamperTestComplete s) (fun t => t.tmp.testRun = none && !t.flag Fld.TMP_STATUS_TEST_RUN && t.rd Fld.TMP_TEST_RUNS = 1 && t.core.ready) = true) := by decide +kernel

theorem wit_TamperTestRun_periodic :
    (let s : State := on.wr Fld.TMP_CFG_TEST_PERIOD 1 |>.wr Fld.SYS_OPSEC_OPSEC 3600
     s.core.running = true ∧ s.core.ready = true ∧ s.tmp.testRun = none ∧ s.testDue = true ∧
     nextSat (exec .tamperTestPeriodic s) (fun t => t.tmp = { s.tmp with testRun := some (s.nextMonitor 0, true), testedAt := 3600 } &&
       t.flag Fld.TMP_STATUS_TEST_RUN && keeps s t [Adr.TMP_TEST, Adr.TMP_STATUS]) = true) := by decide +kernel

theorem wit_AcquisitionStarts :
    (let s : State := on.setChip chipProvisional
     s.core.ready = true ∧ s.core.warned = false ∧ s.chip = chipProvisional ∧ s.flag Fld.AQ_STATUS_RUN = false ∧
     nextSat (exec .acquisitionStart s) (fun t => t.flag Fld.AQ_STATUS_RUN && t.core.tickEpoch = 0 && t.core.ticks = 0 && t.epoch = 0 && t.pipe = pipeCollect &&
       t.rd Fld.PWR_ON_ON = s.defaultDomains % 2 ^ 17 && t.rd Fld.MT_XREF_RATE = s.rd Fld.MT_XREF_TRIM_TRIM &&
       t.str = s.str) = true) := by decide +kernel

/-! ### The ledger and Strata -/

/-- A whole-second boundary at an epoch. -/
def bnd (e : Nat) : Boundary := { epoch := e, secs := 1 }

/-- A calendar of one season, week and day, all at rate 1, with ID 7. -/
def cal7 : Calendar :=
  [7, 0, 100, 0x01010101, 0, 0, 0, 0, 0x01010000] ++ List.replicate 23 0 ++ [0x00000100] ++
    List.replicate 11 0xFFFF0000 ++ List.replicate 308 0 ++ [2182009823]

theorem cal7_crc : crc32 ((calBytes cal7).take 1408) = cal7.getD 352 0 := by
  unfold crc32
  rw [← foldStrict_eq]
  decide +kernel

theorem cal7_ok : calendarOk cal7 = true := by
  simp only [calendarOk, cal7_crc]
  decide +kernel

/-- With an armed authorisation for the committing of a calendar. -/
def psvArmed (c : Calendar) : State :=
  let s := armed on 0x0030 (wordBytes (c.getD 0 0) ++ wordBytes (c.getD 352 0))
  { s with led := { s.led with psvOpen := some .spi, psvBuf := c } }

/-- Before recovery. -/
def preRec : State := { State.reset with core := { running := true, pll := true } }.wr Fld.STR_STATUS_STATE 1

theorem wit_QuantumTaken_late :
    (let s : State := { on with led := { on.led with posted := [{ owner := 3, endEpoch := 0 }], closedEpoch := 1 } }
     s.led.posted = [{ owner := 3, endEpoch := 0 }] ∧ s.led.frozen = false ∧ s.led.cutOffDone = false ∧
     nextSat (exec .quantum s) (fun t => t.led.posted = [] && t.led.quanta = [{ owner := 3, endEpoch := 0 }] && t.rd Fld.LED_LATE_LATE = 1 &&
       keeps s t [Adr.LED_LATE]) = true) := by decide +kernel

theorem wit_QuantumTaken_frozen :
    (let s : State := { on with led := { on.led with frozen := true, posted := [{ owner := 3, endEpoch := 0 }] } }
     s.led.posted = [{ owner := 3, endEpoch := 0 }] ∧ s.led.frozen = true ∧
     nextSat (exec .quantum s) (fun t => t = { s with led := { s.led with posted := [] } }) = true) := by decide +kernel

theorem wit_FoldWindowCloses :
    (let s : State := { on with led := { on.led with bounds := [bnd 31250], quanta := [{ owner := 3, endEpoch := 31249 }, { owner := 3, endEpoch := 31250 }] } }
     s.ledgerOk = true ∧ s.core.warned = false ∧ s.led.bounds = [bnd 31250]) := by decide +kernel

theorem wit_OutageProcessed :
    (let s : State := ({ on with led := { on.led with outageFrom := some 5 } }.setRtc 1000000).wr Fld.SYS_TIME_RTC_VALID 1
     s.ledgerOk = true ∧ s.core.warned = false ∧ s.led.outageFrom = some 5 ∧ s.sourceNow = (1, some 1000000000) ∧
     s.nextImage.st.lastClosed < 1000000) := by decide +kernel

theorem wit_LedgerCommands_bill :
    (let s : State := sess on .spi
     s.core.running = true ∧ s.gate .spi (roleSupplier + roleReceiver) false = .pass theSess ∧
     nextSat (exec (.billingClose .spi) s) (fun t => t.rd Fld.LED_CMD_RESULT = 1 && t.led = { s.led with billReq := true, billRoles := 0x1F, billKeys := keysOne 0 } &&
       keeps s t [Adr.LED_CMD]) = true) := by decide +kernel

theorem wit_LedgerCommands_accept :
    (let s : State := (armed on 0x0021 (beBytes 4 77)).wr Fld.LED_STEP_STEP 77 |>.wr Fld.LED_STATUS_STEP_HELD 1
     s.core.running = true ∧
     s.gateDual .spi 0x0021 (beBytes 4 (s.rd Fld.LED_STEP_STEP)) = .pass { cmd := 0x0021, target := padTo 24 (beBytes 4 77), roles := 3, keys := 0x10, firstAt := 0 } ∧
     s.flag Fld.LED_STATUS_STEP_HELD = true ∧
     nextSat (exec (.acceptStep .spi) s) (fun t => t.rd Fld.LED_CMD_RESULT = 1 && t.led = { s.led with stepReq := some (3, 0x10) } && t.spi.armed = [] &&
       keeps s t [Adr.LED_CMD]) = true) := by decide +kernel

theorem wit_LedgerCommands_reject :
    (let s : State := (sess { on with led := { on.led with com := { st := { stepHeld := some 3 } } } } .spi).wr Fld.LED_STATUS_STEP_HELD 1
     s.core.running = true ∧ s.gate .spi (roleSupplier + roleReceiver) true = .pass theSess ∧
     s.flag Fld.LED_STATUS_STEP_HELD = true ∧ s.ledgerOk = true ∧ copyFailed s.str 0 0 = false ∧
     copyFailed s.str 0 1 = false ∧ s.core.warned = false ∧ s.led.queue = []) := by decide +kernel

theorem wit_LedgerCommands_none :
    (let s : State := on
     s.core.running = true ∧ s.session .spi = none ∧ nextSat (exec (.billingClose .spi) s) (fun t => t = s) = true) := by decide +kernel

theorem wit_CalendarSequence_open :
    (let s : State := sess on .spi
     s.core.running = true ∧ s.gate .spi (roleSupplier + roleReceiver) true = .pass theSess ∧
     nextSat (exec (.psvOpen .spi) s) (fun t => t.led = { s.led with psvOpen := some .spi, psvBuf := List.replicate 353 0 } && t.rd Fld.TAR_CMD_RESULT = 1 &&
       t.rd Fld.TAR_CAL_SEL_WORD = 0 && keeps s t [Adr.TAR_CMD, Adr.TAR_CAL_SEL]) = true) := by decide +kernel

theorem wit_CalendarSequence_write :
    (let s : State := (sess { on with led := { on.led with psvOpen := some .spi, psvBuf := List.replicate 353 0 } } .spi).wr Fld.TAR_CAL_SEL_SLOT 1 |>.wr Fld.TAR_CAL_SEL_WORD 352
     s.core.running = true ∧ s.gate .spi (roleSupplier + roleReceiver) false = .pass theSess ∧
     s.led.psvOpen.isSome = true ∧ s.flag Fld.TAR_CAL_SEL_SLOT = true ∧
     nextSat (exec (.tarCalDataWrite .spi 9) s) (fun t => t.led = { s.led with psvBuf := s.led.psvBuf.set 352 9 } && t.rd Fld.TAR_CAL_SEL_WORD = 0 &&
       keeps s t [Adr.TAR_CAL_SEL]) = true) := by decide +kernel

theorem wit_CalendarSequence_commit : (let s : State := psvArmed cal7
     s.core.running = true ∧ (∃ a, s.gateDual .spi 0x0030 (wordBytes (s.led.psvBuf.getD 0 0) ++
       wordBytes (s.led.psvBuf.getD 352 0)) = .pass a) ∧ s.led.psvOpen.isSome = true ∧ calendarOk s.led.psvBuf = true ∧
     s.canCommit) :=
  ⟨rfl, ⟨{ cmd := 0x0030, target := padTo 24 (wordBytes 7 ++ wordBytes 2182009823), roles := 3, keys := 0x10, firstAt := 0 },
    by decide +kernel⟩, rfl, cal7_ok, by decide +kernel, ⟨rfl, rfl⟩, rfl, rfl⟩

theorem wit_CalendarSequence_abort :
    (let s : State := sess { on with led := { on.led with psvOpen := some .spi, psvBuf := List.replicate 353 0 } } .spi
     s.core.running = true ∧ s.gate .spi (roleSupplier + roleReceiver) false = .pass theSess ∧
     s.led.psvOpen.isSome = true ∧
     nextSat (exec (.psvAbort .spi) s) (fun t => t.led = { s.led with psvOpen := none, psvBuf := [] } && t.rd Fld.TAR_CMD_RESULT = 1 && keeps s t [Adr.TAR_CMD]) = true) := by decide +kernel

theorem wit_CalendarSequence_cancel :
    (let s : State := armed { on with led := { on.led with com := { psv := some cal7 } } } 0x0031 (beBytes 4 7)
     s.core.running = true ∧ s.nextImage.psv = some cal7 ∧
     s.gateDual .spi 0x0031 (beBytes 4 (calId cal7)) = .pass { cmd := 0x0031, target := padTo 24 (beBytes 4 7), roles := 3, keys := 0x10, firstAt := 0 } ∧
     s.ledgerOk = true ∧ copyFailed s.str 0 0 = false ∧ copyFailed s.str 0 1 = false ∧ s.core.warned = false ∧
     s.led.queue = []) := by decide +kernel

theorem wit_IndexedReads_tar :
    (let s : State := on.wr Fld.TAR_CAL_SEL_WORD 352
     s.core.running = true ∧
     nextSat (exec (.tarCalDataRead .drega) s) (fun t => t.rd Fld.TAR_CAL_SEL_WORD = 0 && keeps s t [Adr.TAR_CAL_SEL]) = true) := by decide +kernel

theorem wit_IndexedReads_lp :
    (let s : State := { on with led := { on.led with lpReads := 15 } }.wr Fld.LED_LP_SEL_AGE 0xFFFFFFFF
     s.core.running = true ∧
     nextSat (exec (.ledLpDataRead .spi) s) (fun t => t.led.lpReads = 0 && t.rd Fld.LED_LP_SEL_AGE = 0 && keeps s t [Adr.LED_LP_SEL]) = true) := by decide +kernel

theorem wit_CommitTakesNextTseq :
    (let s : State := { on with led := { on.led with queue := [{ kind := 1, entries := [.slot 5 { val := 9 }], act := .tick true }] } }
     s.core.running = true ∧ s.led.queue = [{ kind := 1, entries := [.slot 5 { val := 9 }], act := .tick true }] ∧
     areaDead s.str 0 = false ∧ snapPending s.led.copies = false) := by decide +kernel

theorem wit_CopiesAndCompaction_copy :
    (let s : State := { on with led := { on.led with copies := [{ tseq := 1, entry := .loadProfile 4 { seq := 1, owner := 2, flags := 0, rate := 1, tsrc := 2, endTime := 900, opsec := 9, pwrcyc := 1, delta := [1, 2, 3, 4] } }] } }
     s.core.running = true ∧ s.led.copies.length = 1 ∧
     nextSat (exec (.postCommitCopyDone []) s) (fun t => t.led.copies = [] && (t.str.lp.lookup 4).any (fun e => e.endTime = 900) && t.led.com = s.led.com &&
       t.led.queue = s.led.queue) = true) := by decide +kernel

/-- A journal of one transaction in copy 0 alone. -/
def oneTxn : Strata :=
  { copy0 := { journal := [({} : Strata).place { kind := 1, entries := [.slot 5 { val := 9 }], act := .final }] } }

/-- A journal of transactions 3 and 4 in both copies. -/
def twoTxns : Strata :=
  let j (q : BitVec 32) : JTxn := { tseq := q, txn := { kind := 1, entries := [], act := .final }, blocks := 1, pad := 0 }
  ({ tseq := 4 } : Strata).each 0 fun c => { c with journal := [j 3, j 4] }

theorem wit_CopiesAndCompaction_base :
    (let s : State := { on with str := twoTxns, led := { on.led with compacting := some (3, { slots := [(1, { val := 2 })] }) } }
     s.core.running = true ∧ areaDead s.str 0 = false ∧ snapPending s.led.copies = false ∧
     s.led.compacting = some (3, { slots := [(1, { val := 2 })] }) ∧
     nextSat (exec (.compactionComplete []) s) (fun t => t.str.base = some { slots := [(1, { val := 2 })] } && t.str.baseSeq = 3 && (t.str.journal.map (·.tseq)) = [4] &&
       t.str.tseq = s.str.tseq && t.led.com = s.led.com) = true) := by decide +kernel

theorem wit_FailedBankIsDropped :
    (let s : State := { on with led := { on.led with queue := [{ kind := 1, entries := [], act := .tick false }] } }
     s.core.running = true ∧ s.led.queue = [{ kind := 1, entries := [], act := .tick false }] ∧ s.str.failed = [] ∧
     snapPending s.led.copies = false) := by decide +kernel

theorem wit_RecoveryReplays_base :
    (let s : State := { preRec with bk := { lock := true } }
     s.core.running = true ∧ s.core.pll = true ∧ s.rd Fld.STR_STATUS_STATE = 1 ∧
     s.baseFound s.headerFails = some (false, {})) := by decide +kernel

theorem wit_RecoveryReplays_replay :
    (let s : State := { preRec with str := oneTxn }
     s.core.running = true ∧ s.core.pll = true ∧ s.rd Fld.STR_STATUS_STATE = 1 ∧
     s.baseFound s.headerFails = some (false, {})) := by decide +kernel

theorem wit_RecoveryReplays_none :
    (let s : State := { preRec with str := { copy0 := { baseA := none }, copy1 := { preRec.str.copy1 with baseA := none } } }
     s.core.running = true ∧ s.core.pll = true ∧ s.rd Fld.STR_STATUS_STATE = 1 ∧ s.baseFound s.headerFails = none ∧
     s.chip ≠ chipFrozen ∧
     nextSat (exec (.recoveryComplete []) s) (fun t => t.chip = chipFrozen && t.rd Fld.STR_RECOVERY_RESULT = 4 && t.led.frozen) = true) := by decide +kernel

theorem wit_LockstepMismatches_first :
    (let s : State := on
     s.led.mismatches = [] ∧
     nextSat (exec .lockstepMismatch s) (fun t => t.led = { s.led with mismatches := [0] } && t.chip = s.chip && t.rd Fld.SYS_ESC_COUNT_BLOCK = 1) = true) := by decide +kernel

theorem wit_LockstepMismatches_third :
    (let s : State := { on with now := 10001, led := { on.led with mismatches := [1, 5000] } }
     s.led.mismatches = [1, 5000] ∧ s.now ≤ 1 + 10000 ∧ s.now ≤ 5000 + 10000 ∧ s.chip ≠ chipFrozen ∧
     nextSat (exec .lockstepMismatch s) (fun t => t.chip = chipFrozen && t.led.frozen && t.led.quanta = [] && t.flag Fld.SYS_ALERT_FROZEN) = true) := by decide +kernel

/-! ### Bedrock -/

theorem wit_SupplySwitches_bat :
    (let s : State := on
     s.onBat = false ∧
     nextSat (exec .supplyToBat s) (fun t => t.rd Fld.BK_STATUS_SUPPLY = 0x96 && t.rd Fld.BK_STATUS_SWITCHES = 1 && keeps s t [Adr.BK_STATUS]) = true) := by decide +kernel

theorem wit_SupplySwitches_main :
    (let s : State := on.wr Fld.BK_STATUS_SUPPLY 0x96 |>.wr Fld.BK_STATUS_PWRON 1
     s.onBat = true ∧
     nextSat (exec .supplyToMain s) (fun t => t.rd Fld.BK_STATUS_SUPPLY = 0xC3 && t.flag Fld.BK_STATUS_PWRON = (s.rd Fld.BK_PWRON_CFG_MODE != 0) &&
       keeps s t [Adr.BK_STATUS]) = true) := by decide +kernel

theorem test_bedrockPor :
    nextSat (exec .bedrockPor ({ on with bk := { lock := true } }.wr Fld.TMP_STICKY_ALL 5)) (fun t =>
      t.bk = {} && t.flag Fld.BK_STATUS_BKP_LOST && t.rd Fld.TMP_STICKY_ALL = 0 && t.core = on.core) = true := by decide +kernel

theorem wit_VbatMeasured :
    (let s : State := on
     s.onBat = false ∧ s.flag Fld.BK_STATUS_VBAT_LOW = false ∧ s.core.running = true ∧ s.rcd.closed = false ∧
     s.recDead = false ∧ s.rcd.queue.length < 64 ∧ s.hasToken 0xB2 = true ∧ s.rcd.gather = none ∧
     nextSat (exec (.vbatMeasure 2199) s) (fun t => t.rd Fld.BK_VBAT_MV = 2199 && t.flag Fld.BK_STATUS_VBAT_LOW &&
       (t.rcd.queue.map fun e => (e.code, e.payload)) = [(0xB2, beBytes 2 2199)] && t.now = s.now &&
       t.bk.vbatAt = some s.now) = true) := by decide +kernel

theorem wit_VbatMeasured_edge :
    (let s : State := { on with bk := { vbatAt := some 7 } }
     s.onBat = false ∧
     nextSat (exec (.vbatMeasure 2200) s) (fun t => !t.flag Fld.BK_STATUS_VBAT_LOW && t.rcd = s.rcd && t.now = 60007 && t.bk.vbatAt = some 60007) = true) := by decide +kernel

theorem wit_VbatMeasured_bat :
    (let s : State := on.wr Fld.BK_STATUS_SUPPLY 0x96
     s.onBat = true ∧ nextSat (exec (.vbatMeasure 2199) s) (fun t => t = s) = true) := by decide +kernel

theorem wit_RtcSecond_run :
    (let s : State := (on.setRtc 59)
     s.halted = false ∧ s.rtcFields + 1 < rtcEnd ∧
     nextSat (exec .rtcSecond s) (fun t => t.rd Fld.RTC_SEC_VALUE = 0 && t.rd Fld.RTC_MIN_VALUE = 1 && t.bk.secAt = s.now) = true) := by decide +kernel

theorem wit_RtcSecond_halt :
    (let s : State := on.wr Fld.RTC_CTRL_HALTACK 1 |>.wr Fld.RTC_CTRL_HALT 1 |>.wr Fld.RTC_HALT_HALT_S 254
     s.halted = true ∧ s.rd Fld.RTC_HALT_HALT_S < 255 ∧
     nextSat (exec .rtcSecond s) (fun t => t.rd Fld.RTC_HALT_HALT_S = 255 && t.rtcFields = s.rtcFields && t.halted && t.bk = s.bk.rollOver s.now &&
       keeps s t [Adr.RTC_HALT]) = true) := by decide +kernel

/-- A halt by the host port's session. -/
def haltedAt (h : List (Nat × Nat)) : State :=
  let s := sess on .spi
  ({ s with bk := { haltBy := some .spi, held := h } }.wr Fld.RTC_CTRL_HALTACK 1).wr Fld.RTC_CTRL_HALT 1

theorem wit_RtcSetByHand_halt :
    (let s : State := sess on .spi
     s.core.running = true ∧ s.session .spi = some theSess ∧ s.halted = false ∧
     nextSat (exec (.halt .spi) s) (fun t => t.halted && t.rd Fld.RTC_HALT_HALT_S = 0 && t.bk = { s.bk with haltBy := some .spi, held := [] } &&
       keeps s t [Adr.RTC_CTRL, Adr.RTC_HALT]) = true) := by decide +kernel

theorem wit_RtcSetByHand_field :
    (let s : State := haltedAt [(6, 3)]
     s.core.running = true ∧ s.session .spi = some theSess ∧ s.halted = true ∧
     nextSat (exec (.rtcFieldWrite .spi 7 0x107D0) s) (fun t => t.bk.held.lookup 7 = some 2000 && t.bk.held.lookup 6 = some 3 && keeps s t [Adr.RTC_HALT]) = true) := by decide +kernel

theorem wit_RtcSetByHand_load :
    (let s : State := haltedAt [(7, 2000), (6, 2), (5, 29), (3, 23), (2, 59), (1, 58)] |>.wr Fld.RTC_HALT_PEND 3
     s.core.running = true ∧ s.session .spi = some theSess ∧ s.halted = true ∧ s.setTest .spi theSess = .inr none ∧
     s.ledgerOk = true ∧ s.core.warned = false ∧ s.led.queue = [] ∧ s.setSeconds + s.rd Fld.RTC_HALT_PEND < rtcEnd) := by decide +kernel

theorem wit_RtcSetByHand_refused :
    (let s : State := haltedAt [(7, 2001), (6, 2), (5, 29)]
     s.core.running = true ∧ s.session .spi = some theSess ∧ s.halted = true ∧ s.setTest .spi theSess = .inl 2 ∧
     nextSat (exec (.rtcLoad .spi) s) (fun t => !t.halted && t.rd Fld.RTC_CTRL_RESULT = 2 && t.str = s.str && t.led = s.led) = true) := by decide +kernel

theorem wit_RtcShadows_first :
    (let s : State := on.setRtc 59
     s.core.running = true ∧ s.rtcHeld .drega = none ∧
     nextSat (exec (.rtcShadowRead .drega 1) s) (fun t => t = s.setPath .drega { s.drega with rtcShadow := some (s.now, (List.range 8).map s.rtcLive) } &&
       (t.rtcHeld .drega).any (fun l => l.getD 1 0 = 59)) = true) := by decide +kernel

theorem wit_RtcShadows_year :
    (let s : State := (on.setRtc 59).setPath .spi { rtcShadow := some (0, [1, 2, 3, 4, 5, 6, 7, 8]) }
     s.core.running = true ∧ nextSat (exec (.rtcShadowRead .spi 7) s) (fun t => t.spi.rtcShadow = none) = true) := by decide +kernel

theorem wit_RtcAutoSet :
    (let s : State := { on with now := 0, led := { on.led with timeTaken := true, com := { st := { valid := true, time := 1000000, phase := 999 } } } }.wr Fld.SYS_TIME_TIME_SRC 2
     s.rd Fld.SYS_TIME_TIME_SRC = 2 ∧ s.halted = false ∧ s.ledNowMs / 1000 < rtcEnd ∧
     1000 ≤ ((s.rtcMs : Int) - s.ledNowMs).natAbs ∧
     nextSat (exec .rtcAutoSet s) (fun t => t.flag Fld.RTC_CTRL_SET && t.rd Fld.RTC_SEC_VALUE = s.ledNowMs / 1000 % 60 &&
       t.rd Fld.RTC_MIN_VALUE = s.ledNowMs / 1000 / 60 % 60) = true) := by decide +kernel

theorem wit_BkpLostCleared :
    (let s : State := sess on .spi
     s.core.running = true ∧ s.gate .spi roleService true = .pass theSess ∧ s.ledgerOk = true ∧
     copyFailed s.str 0 0 = false ∧ copyFailed s.str 0 1 = false ∧ s.core.warned = false ∧ s.led.queue = []) := by decide +kernel

/-! ### Tamper -/

theorem wit_DetectionLocks :
    (let s : State := { on with tmp := { responsesOn := true } }.wr (Fld.TMP_RESP_A_LSG 5) 7
     s.core.running = true ∧ s.monitored 23 0 = true ∧ s.fused 23 = false ∧ s.tmp.cond.all (fun x => x.val ≠ 23) = true ∧
     s.underTest 23 = false ∧ s.tmp.responsesOn = true ∧ s.response 23 / 4 % 2 = 1 ∧ s.locked = false) := by decide +kernel

theorem wit_DetectionLocks_first :
    (let s : State := on
     s.core.running = true ∧ s.monitored 0 0 = true ∧ s.fused 0 = false ∧ s.tmp.cond.all (fun x => x.val ≠ 0) = true ∧
     s.underTest 0 = false ∧
     nextSat (exec (.tamperDetection ⟨[0], 0⟩ 0 0) s) (fun t => t.rd Fld.TMP_STICKY_ALL = 1 && t.rd Fld.TMP_STATUS_DETECT = 1) = true) := by decide +kernel

theorem wit_ConditionEnds :
    (let s : State := { on with tmp := { cond := [31] } }
     s.tmp.cond = [31] ∧
     nextSat (exec (.tamperConditionEnd 31) s) (fun t => t.tmp.cond = [] && keeps s t [Adr.TMP_ACTIVE] && t.rd Fld.TMP_STICKY_ALL = s.rd Fld.TMP_STICKY_ALL) = true) := by decide +kernel

/-! ### The intake, the recorder and the Audit Trail -/

/-- An event of a code. -/
def ev (c : Nat) : Event := { code := c, source := 0xFF, payload := [], opsec := 1, msec := 2, provisional := false, locked := false }

/-- A record with a sequence number. -/
def rec1 (q : BitVec 32) : Record :=
  { rseq := q, type := 1, owner := 0xFF, flags := 0, count := 1, opsec := 1, pwrcyc := 1, sub := [], body := eventBytes (ev 3) }

/-- Records in both copies of the Quality Recorder's area. -/
def holds (l : List (Nat × Record)) : Strata := ({} : Strata).each 3 fun c => { c with recs := l }

theorem wit_IntakeOffersEvent_closed : (let s : State := { on with rcd := { closed := true } }
    s.core.running = true ∧ s.recDead = false ∧ s.rcd.gather = none ∧ s.rcd.closed = true ∧ s.raise 0x80 3 [1] = s) := by decide +kernel

theorem wit_IntakeOffersEvent_room : (let s : State := { on with rcd := { queue := List.replicate 63 (ev 1) } }
    s.core.running = true ∧ s.recDead = false ∧ s.rcd.gather = none ∧ s.rcd.closed = false ∧ s.rcd.queue.length < 64 ∧ s.hasToken 0x80 = true ∧
    (s.raise 0x80 3 [1]).rcd.queue.length = 64 ∧ s.rd (Fld.REC_BUCKET_CAP 0x80) ≠ 0xFF ∧
    storeGet zeroAt (s.raise 0x80 3 [1]).rcd.taken 0x80 = 1) := by decide +kernel

theorem wit_IntakeOffersEvent_full : (let s : State := { on with rcd := { queue := List.replicate 64 (ev 1) } }
    s.core.running = true ∧ s.recDead = false ∧ s.rcd.gather = none ∧ s.rcd.closed = false ∧ 64 ≤ s.rcd.queue.length ∧
    (s.raise 0x80 3 [1]).rcd.queue = s.rcd.queue ∧ (s.raise 0x80 3 [1]).rd Fld.REC_INTAKE_FULL = 1 ∧
    storeGet zeroAt (s.raise 0x80 3 [1]).rcd.suppTotal 0x80 = 1) := by decide +kernel

theorem wit_IntakeOffersEvent_bucket : (let s : State := { on with rcd := { taken := [(0x80, 255)] } }.wr (Fld.REC_BUCKET_CAP 0x80) 1
    s.core.running = true ∧ s.recDead = false ∧ s.rcd.gather = none ∧ s.rcd.closed = false ∧ s.rcd.queue.length < 64 ∧ s.hasToken 0x80 = false ∧
    (s.raise 0x80 3 [1]).rcd.queue = [] ∧ (s.raise 0x80 3 [1]).rd Fld.REC_INTAKE_BUCKET = 1) := by decide +kernel

theorem wit_RecorderTimers_refill :
    (let s : State := { on with rcd := { taken := [(0x80, 1), (0x81, 5)] } }
     s.rcd.taken = [(0x80, 1), (0x81, 5)] ∧
     nextSat (exec (.bucketRefill 0x80) s) (fun t => t.rcd.taken = [(0x81, 5)] && keeps s t [Adr.REC_STATUS]) = true) := by decide +kernel

theorem wit_RecorderTimers_supp :
    (let s : State := { on with rcd := { suppFirst := some (3, 500) } }
     s.rcd.suppFirst = some (3, 500) ∧
     nextSat (exec .suppressedTimeout s) (fun t => t.rcd = { s.rcd with dueByTime := true } && t.now = 60500 && keeps s t [Adr.REC_STATUS]) = true) := by decide +kernel

theorem wit_RecorderTimers_period :
    (let s : State := { on with rcd := { bays := [(2, { any := true })] } }.wr Fld.SYS_OPSEC_OPSEC 86400
     s.opsec % s.recPeriod = 0 ∧ s.opsec ≠ s.rcd.periodStart ∧
     nextSat (exec .recorderPeriodEnd s) (fun t => t.rcd.periodic.length = 5 && t.rcd.bays = [] && t.rcd.periodStart = 86400 && !t.rcd.shortPeriod) = true) := by decide +kernel

theorem wit_RecorderTimers_within :
    (let s : State := { on with rcd := { bays := [(2, { any := true })] } }.wr Fld.SYS_OPSEC_OPSEC 86399
     s.opsec % s.recPeriod ≠ 0 ∧ nextSat (exec .recorderPeriodEnd s) (fun t => t = s) = true) := by decide +kernel

theorem wit_RecordWritten_start :
    (let s : State := { on with rcd := { scanned := true, queue := List.replicate 7 (ev 1), newest := 0xFFFFFFFF } }
     s.rcd.scanned = true ∧ s.rcd.freezeStart = none ∧ s.rcd.writing = none ∧ s.recDead = false ∧ s.rcd.closed = false ∧
     s.rcd.clear = none ∧ s.rcd.periodic = [] ∧ s.rcd.dueByTime = false ∧ s.rcd.queue ≠ [] ∧
     nextSat (exec .recordWriteStart s) (fun t => t.rcd.writing.any (fun r => r.rseq = 0 && r.type = 1 && r.count = 6) && t.rcd.queue = [ev 1] &&
       t.flag Fld.REC_STATUS_WRITING) = true) := by decide +kernel

theorem wit_RecordWritten_done :
    (let s : State := { on with rcd := { scanned := true, writing := some (rec1 2049) }, str := holds [(1, rec1 1), (2, rec1 2)] }
     s.rcd.writing = some (rec1 2049) ∧ s.recDead = false ∧ areaDead s.str 3 = false ∧
     nextSat (exec (.recordWriteDone []) s) (fun t => t.rcd.writing = none && t.rcd.newest = 2049 && t.str.recs.lookup 1 = some (rec1 2049) &&
       t.str.recs.lookup 2 = some (rec1 2) && t.flag Fld.SYS_IRQ_STAT_RECORD) = true) := by decide +kernel

theorem wit_ScanReadsPowerUp :
    (let s : State := { on with rcd := { queue := [ev 0x80] }, str := holds [(1, rec1 1)] }
     s.rcd.scanned = false ∧ s.core.running = true ∧ s.led.recovered = true ∧ s.rcd.closed = false ∧ s.recDead = false ∧
     s.rcd.queue.length < 60) := by decide +kernel

theorem wit_RecorderFreeze_begin :
    (let s : State := on.wr Fld.REC_CFG_READ_MODE 1
     s.core.running = true ∧ s.flag Fld.REC_CFG_READ_MODE = true ∧ s.rcd.freezeStart = none ∧ s.rcd.freezeEnd = none ∧
     s.rcd.emptySince = true ∧ s.recDead = false ∧
     nextSat (exec (.freeze .drega) s) (fun t => t.rcd = { s.rcd with freezeStart := some s.now } && t.flag Fld.REC_STATUS_FROZEN && t.rd Fld.REC_RD_RESULT = 1 &&
       keeps s t [Adr.REC_STATUS, Adr.REC_RD]) = true) := by decide +kernel

theorem wit_RecorderFreeze_release :
    (let s : State := { on with now := 9, rcd := { freezeStart := some 3, queue := [ev 1, ev 2] } }
     s.core.running = true ∧ s.rcd.freezeStart = some 3 ∧
     nextSat (exec (.release .spi) s) (fun t => t.rcd.freezeStart = none && t.rcd.freezeEnd = some 9 && !t.flag Fld.REC_STATUS_FROZEN &&
       t.rd Fld.REC_RD_RESULT = 1 && t.rcd.queue.all (·.held) && t.rcd.queue.length = 2) = true) := by decide +kernel

theorem wit_RecorderFreeze_timeout :
    (let s : State := { on with now := 9, rcd := { freezeStart := some 3, queue := [ev 1, ev 2] } }
     s.core.running = true ∧ s.rcd.freezeStart = some 3 ∧
     nextSat (exec .freezeTimeout s) (fun t => t.rcd.freezeStart = none && t.now = 10003 && !t.flag Fld.REC_STATUS_FROZEN && t.rcd.queue.all (·.held)) = true) := by decide +kernel

theorem wit_RecorderClear :
    (let s : State := armed { on with rcd := { newest := 7 } } 0x0050 [] |>.wr Fld.BK_LR_STAT_OCCUPIED 3
     s.core.running = true ∧
     s.gateDual .spi 0x0050 [] = .pass { cmd := 0x0050, target := padTo 24 [], roles := 3, keys := 0x10, firstAt := 0 } ∧
     s.recDead = false ∧ areaDead s.str 4 = false ∧ s.rcd.clear = none ∧ s.rcd.writing = none ∧ s.rcd.freezeStart = none ∧
     s.ledgerOk = true ∧ s.core.warned = false ∧ s.led.queue = []) := by decide +kernel

theorem wit_RecorderClear_slots :
    (let s : State := armed { on with rcd := { newest := 7 } } 0x0050 [] |>.wr Fld.BK_LR_STAT_OCCUPIED 3
     s.rcd.newest = 7) := by decide +kernel

/-- An entry of the Audit Trail. -/
def ent1 : AudEntry :=
  { aseq := 1, kind := 2, roles := 1, keys := 1, tsrc := 2, time := 3, opsec := 4, flags := 0, pwrcyc := 1, detail := [], chain := 5 }

theorem wit_LogBuffers_sel :
    (let s : State := on
     s.core.running = true ∧
     nextSat (exec (.recSelLoad .drega 9) s) (fun t => t.drega.recLoad = some 9 && t.rdP .drega Fld.REC_RD_STATUS = bufLoading && t.rcd = s.rcd) = true) := by decide +kernel

theorem wit_LogBuffers_audSel :
    (let s : State := on
     s.core.running = true ∧
     nextSat (exec (.audSelLoad .spi 9) s) (fun t => t.spi.audLoad = some 9 && t.rdP .spi Fld.AUD_STATUS_STATUS = bufLoading) = true) := by decide +kernel

theorem wit_LogBuffers_rec :
    (let s : State := { on with spi := { recLoad := some 2049 }, str := holds [(1, rec1 2049)], rcd := { newest := 2049 } }
     s.spi.recLoad = some 2049 ∧ s.str.recs.lookup ((2049 : Word).toNat % 2048) = some (rec1 2049) ∧
     (rec1 2049).rseq = 2049 ∧ s.recHeld (rec1 2049) = true ∧ s.recDead = false ∧ s.led.recovered = true ∧
     nextSat (exec (.recLoadDone .spi .recorder []) s) (fun t => t.spi.recLoad = none && t.spi.recBuf.length = 64 && t.rdP .spi Fld.REC_RD_STATUS = bufOk && t.regs = s.regs) = true) := by decide +kernel

theorem wit_LogBuffers_aud :
    (let s : State := { on with spi := { audLoad := some 9 } }
     s.spi.audLoad = some 9 ∧ areaDead s.str 4 = false ∧ s.audFind 9 = none ∧ s.led.recovered = true ∧
     nextSat (exec (.recLoadDone .spi .audit []) s) (fun t => t.rdP .spi Fld.AUD_STATUS_STATUS = bufGone && t.spi.audBuf = List.replicate 16 0 && t.regs = s.regs) = true) := by decide +kernel

theorem wit_LogBuffers_recGone :
    (let s : State := { on with spi := { recLoad := some 2050 }, str := holds [(1, rec1 2049)], rcd := { newest := 2049 } }
     s.spi.recLoad = some 2050 ∧ s.str.recs.lookup ((2050 : Word).toNat % 2048) = none ∧ s.led.recovered = true ∧
     nextSat (exec (.recLoadDone .spi .recorder []) s) (fun t => t.rdP .spi Fld.REC_RD_STATUS = bufGone && t.spi.recBuf = List.replicate 64 0 && t.regs = s.regs) = true) := by decide +kernel

theorem wit_LogBuffers_entry :
    (let s : State := { on with spi := { audLoad := some 1 }, str := ({} : Strata).each 4 fun c => { c with aud := [(1, ent1)] }, led := { on.led with com := { st := { aseq := 1 } } } }
     s.spi.audLoad = some 1 ∧ areaDead s.str 4 = false ∧ s.audFind 1 = some ent1 ∧ s.led.recovered = true ∧
     nextSat (exec (.recLoadDone .spi .audit []) s) (fun t => t.rdP .spi Fld.AUD_STATUS_STATUS = bufOk && t.spi.audBuf = bytesWords (audEntryBytes ent1) && t.regs = s.regs) = true) := by decide +kernel

theorem wit_LogBuffers_recData :
    (let s : State := { on with spi := { recBuf := List.replicate 64 5, recIdx := 63 } }
     s.core.running = true ∧ s.spi.recBuf[s.spi.recIdx]? = some 5 ∧
     nextSat (exec (.recDataRead .spi) s) (fun t => t = s.setPath .spi { s.spi with recIdx := 0 }) = true) := by decide +kernel

theorem wit_LogBuffers_audData :
    (let s : State := { on with spi := { audBuf := List.replicate 16 5, audIdx := 15 } }
     s.core.running = true ∧ areaDead s.str 4 = false ∧ s.spi.audBuf[s.spi.audIdx]? = some 5 ∧
     nextSat (exec (.audDataRead .spi) s) (fun t => t = s.setPath .spi { s.spi with audIdx := 0 }) = true) := by decide +kernel

/-! ### Tokens, sessions and readings -/

/-- A SESSION token of key 1 in role SUPPLIER with nonce and signature 0 and counter 1. -/
def tok1 : Token := [0x01010200, 0x00010000] ++ List.replicate 6 0 ++ [1] ++ List.replicate 23 0

/-- A device whose key 1 has every role, on whose Drega path nonce 0 is outstanding. -/
def tokSt : State := { on with drega := { nonces := [(0, 0)], token := tok1 } }.wr (Fld.SEC_AUTH_ROLES 1) 31

/-- The token passes every test if its signature, which an open function checks, verifies. -/
theorem wit_TokenVerified_open (h : ({ tokSt with gar := { serving := some (.token .drega tok1) } } : State).tokenSig tok1 = true) :
    (let s : State := { tokSt with gar := { serving := some (.token .drega tok1) } }
     s.gar.serving = some (.token .drega tok1) ∧ s.testLate .drega tok1 = 0 ∧ tokCmd tok1 = cmdSession ∧ s.canCommit ∧
     s.core.running = true) := by
  refine ⟨rfl, ?_, by decide +kernel, ⟨by decide +kernel, ⟨rfl, rfl⟩, rfl, rfl⟩, rfl⟩
  unfold State.testLate
  simp only [h]
  decide +kernel

theorem wit_NonceLife_issue :
    (let s : State := on
     s.core.running = true) := by decide +kernel

theorem wit_NonceLife_lapse :
    (let s : State := { on with spi := { nonces := [(4, 7), (5, 8)] } }
     s.spi.nonces = [(4, 7), (5, 8)] ∧
     nextSat (exec (.nonceLapse .spi) s) (fun t => t.spi.nonces = [(5, 8)] && t.now = 300007 && t.regs = s.regs) = true) := by decide +kernel

theorem wit_TokenSubmitted_data :
    (let s : State := { on with spi := { token := List.replicate 31 0 } }
     s.core.running = true ∧ s.spi.token.length < 32 ∧
     nextSat (exec (.tokenDataWrite .spi 9) s) (fun t => t = s.setPath .spi { s.spi with token := s.spi.token ++ [9] }) = true) := by decide +kernel

theorem wit_TokenSubmitted_more :
    (let s : State := { on with spi := { token := List.replicate 32 0 } }
     s.core.running = true ∧ 32 ≤ s.spi.token.length ∧ nextSat (exec (.tokenDataWrite .spi 9) s) (fun t => t = s) = true) := by decide +kernel

theorem wit_TokenSubmitted_submit :
    (let s : State := tokSt
     s.core.running = true ∧ s.testEarly .drega s.drega.token = 0 ∧ s.garnetShut = false ∧ s.gar.serving = none ∧
     s.gar.verify = [] ∧ s.gar.sign = [] ∧
     nextSat (exec (.submit .drega) s) (fun t => t.gar = { s.gar with serving := some (.token .drega tok1) } && t.drega.token = [] &&
       t.rdP .drega Fld.SEC_TOKEN_CMD_RESULT = 0 && t.regs = s.regs) = true) := by decide +kernel

theorem wit_TokenVerified_refused :
    (let s : State := { on with gar := { serving := some (.token .drega tok1) } }
     s.gar.serving = some (.token .drega tok1) ∧ s.testLate .drega tok1 ≠ 0 ∧
     nextSat (exec .tokenVerified s) (fun t => t.rdP .drega Fld.SEC_TOKEN_CMD_RESULT = 5 && t.drega.session = none && t.sec = s.sec && t.led = s.led) = true) := by decide +kernel

theorem wit_SessionLife_locked :
    (let s : State := sess on .drega |>.setFlint flLocked
     s.session .drega = some theSess ∧ s.locked = true ∧ s.gate .drega roleService true = .locked ∧
     s.gate .drega roleService false = .pass theSess ∧ theSess.role.toNat &&& roleService ≠ 0 ∧
     nextSat (exec (.close .drega) s) (fun t => t.drega.session = none) = true) := by decide +kernel

theorem wit_SessionLife_warning :
    (let s : State := sess on .drega
     s.core.running = true ∧ s.core.warned = false ∧
     nextSat (exec .powerFailWarning s) (fun t => t.drega.session = none) = true) := by decide +kernel

theorem wit_SessionLife_brownout :
    (let s : State := sess on .drega
     s.drega.session = some theSess ∧ nextSat (exec .brownout s) (fun t => t.drega.session = none) = true) := by decide +kernel

theorem wit_AuthorityEnds_close :
    (let s : State := sess on .drega
     s.core.running = true ∧
     nextSat (exec (.close .drega) s) (fun t => t.drega.session = none && t.session .drega = none) = true) := by decide +kernel

theorem wit_AuthorityEnds_expiry :
    (let s : State := sess { on with led := { on.led with psvOpen := some .drega } } .drega
     s.drega.session = some theSess ∧
     nextSat (exec (.sessionExpiry .drega) s) (fun t => t.drega.session = none && t.now = 300000 && t.led.psvOpen = none) = true) := by decide +kernel

theorem wit_AuthorityEnds_dual :
    (let s : State := { on with sec := { dual := some { cmd := 0x0020, target := [], role := 1, key := 2, at_ := 5 } } }
     s.sec.dual = some { cmd := 0x0020, target := [], role := 1, key := 2, at_ := 5 } ∧
     nextSat (exec .dualExpired s) (fun t => t.sec = { s.sec with dual := none } && t.now = 300005 && t.led = s.led) = true) := by decide +kernel

theorem wit_AuthorityEnds_armed :
    (let s : State := armed on 0x0050 []
     s.spi.armed = [{ cmd := 0x0050, target := padTo 24 [], roles := 3, keys := 0x10, firstAt := 0 }] ∧
     nextSat (exec (.armedExpiry .spi) s) (fun t => t.spi.armed = [] && t.now = 300000 && t.regs = s.regs) = true) := by decide +kernel

/-- A device with a committed tick whose request registers ask for one word. -/
def rdgSt : State := { on with led := { on.led with firstCommit := true } }.wr (Fld.SEC_RDG_REQ_WORDS 0) 1 |>.wr Fld.LED_STATUS_STATE 2

theorem wit_ReadingFormed_ecdsa :
    (let s : State := rdgSt
     s.core.running = true ∧ s.rdgTest false s.hostItems = .inr [(0, 1)] ∧ s.gar.serving = none ∧ s.gar.verify = [] ∧
     s.gar.sign = [] ∧
     nextSat (exec (.formEcdsa .spi) s) (fun t => t.gar.serving.isSome && t.rd Fld.SEC_RDG_SEQ_RSEQ = 1 && t.rdP .spi Fld.SEC_RDG_CMD_STATUS = rdForming &&
       t.led = s.led) = true) := by decide +kernel

theorem wit_ReadingFormed_hmac :
    (let s : State := rdgSt.wr Fld.SEC_CFG_HMAC_ALLOWED 1
     s.core.running = true ∧ s.rdgTest true s.hostItems = .inr [(0, 1)] ∧ s.gar.serving = none ∧ s.gar.verify = [] ∧
     s.gar.sign = [] ∧
     nextSat (exec (.formHmac .drega) s) (fun t => t.gar.serving.isSome && t.rd Fld.SEC_RDG_SEQ_RSEQ = 1 && t.led = s.led) = true) := by decide +kernel

theorem wit_ReadingFormed_refused :
    (let s : State := rdgSt.wr (Fld.SEC_RDG_REQ_WORDS 0) 33
     s.core.running = true ∧ s.rdgTest false s.hostItems = .inl 5 ∧ 5 ≠ rdBusy ∧
     nextSat (exec (.formEcdsa .spi) s) (fun t => t.rdP .spi Fld.SEC_RDG_CMD_STATUS = 5 && t.gar = s.gar && t.rd Fld.SEC_RDG_SEQ_RSEQ = 0) = true) := by decide +kernel

theorem wit_ReadingFormed_signed :
    (let s : State := { on with gar := { serving := some (.sign (.host .spi) [1, 1, 0, 0]) } }
     s.core.running = true ∧ s.gar.serving = some (.sign (.host .spi) [1, 1, 0, 0])) := by decide +kernel

theorem wit_ReadingFormed_read :
    (let s : State := { on with spi := { rdgIdx := 255 } }
     s.core.running = true ∧
     nextSat (exec (.rdgDataRead .spi) s) (fun t => t = s.setPath .spi { s.spi with rdgIdx := 0 }) = true) := by decide +kernel

/-! ### Acquisition and calibration -/

/-- Conversions of an output sample, all of one code. -/
def conv0 : List (List LaneConv) := List.replicate 76 (List.replicate 32 ⟨2048, 2048, true, true⟩)

/-- Acquisition runs. -/
def runSt : State := on.wr Fld.AQ_STATUS_RUN 1

theorem wit_LaneCommands_sample :
    (let s : State := runSt
     conv0.length = 76 ∧ (∀ c ∈ conv0, c.length = 32) ∧ s.core.running = true ∧ s.flag Fld.AQ_STATUS_RUN = true ∧
     s.acq.lanes.length = 76 ∧ s.laneState 75 = laneOff ∧
     nextSat (exec (.laneOutputSample conv0) s) (fun t => t.acq.sampleAt = some s.nextSample && t.acq.act = s.acq.act &&
       ((t.lane 75).samples.head?.map (·.out)) = some true && (t.lane 75).track = (s.lane 75).track) = true) := by decide +kernel

theorem wit_LaneCommands_startEnd :
    (let s : State := runSt.wr (Fld.AQ_LANE_STAT_STATE 75) laneStarting |>.wr (Fld.AQ_LANE_STAT_FINE_ISO 75) 1
     s.laneState (75 : Fin 76).val = laneStarting ∧ (s.lane 75).count = 0 ∧
     nextSat (exec (.laneStartCountEnd 75) s) (fun t => t.laneState 75 = laneSingle && keeps s t [Adr.AQ_LANE_STAT 75, Adr.AQ_STATUS, Adr.SYS_STATUS]) = true) := by decide +kernel

theorem wit_LaneCommands_restart :
    (let s : State := sess runSt .spi |>.wr (Fld.AQ_LANE_STAT_STATE 3) laneRunning |>.wr (Fld.AQ_LANE_CFG_ENABLE 3) 1 |>.wr Fld.PWR_ON_ON 0x1FFFF |>.wr (Fld.AQ_LANE_STAT_COARSE_ISO 3) 1
     s.core.running = true ∧ s.gate .spi (roleOperator ||| roleService) false = .pass theSess ∧ s.lanePresent 3 = true ∧
     s.acq.lanes.length = 76 ∧ s.flag (Fld.AQ_LANE_CFG_ENABLE 3) = true ∧ s.domOn (laneDomain 3) = true ∧
     s.laneState 3 ≠ laneOff ∧
     nextSat (exec (.laneRestart .spi 3) s) (fun t => t.laneState 3 = laneStarting && (t.lane 3).count = 40 && !t.flag (Fld.AQ_LANE_STAT_COARSE_ISO 3) &&
       keeps s t [Adr.AQ_LANE_CTRL, Adr.AQ_LANE_STAT 3, Adr.AQ_STATUS, Adr.SYS_STATUS]) = true) := by decide +kernel

theorem wit_LaneCommands_capture :
    (let s : State := runSt
     s.core.running = true ∧ s.flag Fld.AQ_MM_STAT_BUSY = false ∧ s.acq.captureAt = none ∧
     nextSat (exec (.capture .drega) s) (fun t => t.flag Fld.AQ_MM_STAT_BUSY && keeps s t [Adr.AQ_MM_STAT]) = true) := by decide +kernel

theorem wit_LaneCommands_boundary :
    (let s : State := { runSt with acq := { lanes := { track := some (7, -3) } :: List.replicate 75 {} } }.wr Fld.AQ_MM_STAT_BUSY 1
     s.flag Fld.AQ_MM_STAT_BUSY = true ∧ s.flag Fld.AQ_STATUS_RUN = true ∧ (s.lane 0).track = some (7, -3) ∧
     nextSat (exec .captureBoundary s) (fun t => !t.flag Fld.AQ_MM_STAT_BUSY && t.flag Fld.AQ_MM_STAT_VALID && t.rd Fld.AQ_MM_EPOCH_EPOCH = s.nextSample &&
       t.rd (Fld.AQ_MM_MAX_MAX 0) = 7 && t.rd (Fld.AQ_MM_MIN_MIN 0) = 2 ^ 32 - 3 && (t.lane 0).track = none) = true) := by decide +kernel

theorem wit_CalibratorPipeline_window :
    (let s : State := runSt.wr Fld.CAL_STATUS_PIPE pipeCollect
     s.pipe ≠ pipeOff ∧ s.flag Fld.CAL_STATUS_HOST_STAGE = false ∧
     nextSat (exec .calWindowEnd s) (fun t => t.pipe = pipeEvaluate && t.acq.window = 1 && t.acq.evaluating = 0 && t.acq.atEnd = s.acq.act &&
       t.rd Fld.CAL_WINDOW_WINDOW = 1 && t.acq.act = s.acq.act &&
       keeps s t [Adr.SYS_EPOCH, Adr.SYS_EPOCH + 4, Adr.CAL_WINDOW, Adr.CAL_STATUS]) = true) := by decide +kernel

theorem wit_CalibratorPipeline_staging :
    (let s : State := { runSt with acq := { written := [3] } }.wr Fld.CAL_STATUS_PIPE pipeCollect |>.wr Fld.CAL_STATUS_HOST_STAGE 1
     s.pipe ≠ pipeOff ∧ s.flag Fld.CAL_STATUS_HOST_STAGE = true ∧
     nextSat (exec .calWindowEnd s) (fun t => !t.flag Fld.CAL_STATUS_HOST_STAGE && t.rd Fld.CAL_CMD_RESULT = 5 && t.acq.written = [] && t.acq.act = s.acq.act) = true) := by decide +kernel

theorem wit_CalibratorPipeline_evaluated :
    (let s : State := runSt.wr Fld.CAL_STATUS_PIPE pipeEvaluate
     s.pipe = pipeEvaluate ∧
     nextSat (exec .calEvaluationComplete s) (fun t => t.pipe = pipeCollect && t.rd Fld.CAL_RESULT_WINDOW = 0 && t.acq.stagedTick = s.core.ticks &&
       t.acq.act = s.acq.act && t.led = s.led) = true) := by decide +kernel

theorem wit_CalibratorPipeline_switch :
    (let s : State := { runSt with core := { runSt.core with ticks := 1 }, acq := { accepted := [3], staged := { coef := [(3, { offC := 5 }), (4, { offC := 6 })] } } }.wr Fld.CAL_STATUS_PIPE pipeStaged
     s.pipe = pipeStaged ∧ s.acq.stagedTick < s.core.ticks ∧ s.acq.accepted ≠ [] ∧ s.acq.committed = [] ∧
     s.acq.newBase = none ∧ s.chip ≠ chipFrozen ∧
     nextSat (exec .calSwitchOver s) (fun t => t.pipe = pipeCollect && t.acq.accepted = [] && t.acq.prev = s.acq.act && coefAt t.acq.act 3 = { offC := 5 } &&
       coefAt t.acq.act 4 = {} && t.rd Fld.CAL_STATUS_SWITCH_CNT = 1) = true) := by decide +kernel

theorem wit_CalibratorPipeline_committed :
    (let s : State := { runSt with core := { runSt.core with ticks := 1 }, acq := { committed := [3], commitSet := { coef := [(3, { offC := 5 }), (4, { offC := 6 })] }, newBase := some 7 } }.wr Fld.CAL_STATUS_PIPE pipeCollect
     s.pipe = pipeCollect ∧ s.acq.committed ≠ [] ∧ s.acq.commitTick < s.core.ticks ∧ s.chip ≠ chipFrozen ∧
     nextSat (exec .calSwitchOver s) (fun t => t.pipe = pipeCollect && t.acq.committed = [] && t.acq.base = some 7 && coefAt t.acq.act 3 = { offC := 5 } &&
       coefAt t.acq.act 4 = {} && t.acq.exempt.contains 3) = true) := by decide +kernel

theorem wit_CalibratorPipeline_notDue :
    (let s : State := { runSt with acq := { accepted := [3] } }.wr Fld.CAL_STATUS_PIPE pipeStaged
     s.pipe = pipeStaged ∧ s.core.ticks ≤ s.acq.stagedTick ∧ s.acq.committed = [] ∧ s.acq.newBase = none ∧
     nextSat (exec .calSwitchOver s) (fun t => t = s) = true) := by decide +kernel

/-- A staging session of the host port in which lane 3's values have been written. -/
def staging (k : Coef) : State :=
  (sess { runSt with acq := { written := [3], staged := { coef := [(3, k)] } } } .spi).wr Fld.CAL_STATUS_PIPE pipeCollect
    |>.wr Fld.CAL_STATUS_HOST_STAGE 1

theorem wit_StagingSession_open :
    (let s : State := sess runSt .spi |>.wr Fld.CAL_STATUS_PIPE pipeCollect |>.wr Fld.CAL_WINDOW_POS 12681216
     s.core.running = true ∧ s.gate .spi roleService true = .pass theSess ∧ s.pipe = pipeCollect ∧
     s.rd Fld.CAL_WINDOW_POS ≤ 12681216 ∧ s.flag Fld.CAL_STATUS_HOST_STAGE = false ∧
     nextSat (exec (.stageOpen .spi) s) (fun t => t.flag Fld.CAL_STATUS_HOST_STAGE && t.rd Fld.CAL_CMD_RESULT = 1 && keeps s t [Adr.CAL_CMD, Adr.CAL_STATUS]) = true) := by decide +kernel

theorem wit_StagingSession_abort :
    (let s : State := staging {}
     s.core.running = true ∧ s.gate .spi roleService true = .pass theSess ∧ s.flag Fld.CAL_STATUS_HOST_STAGE = true ∧
     nextSat (exec (.stageAbort .spi) s) (fun t => !t.flag Fld.CAL_STATUS_HOST_STAGE && t.rd Fld.CAL_CMD_RESULT = 1 && t.acq.written = [] && t.acq.act = s.acq.act &&
       keeps s t [Adr.CAL_CMD, Adr.CAL_STATUS]) = true) := by decide +kernel

theorem wit_StagingSession_commit :
    (let s : State := staging { offC := 5 }
     s.core.running = true ∧ s.gate .spi roleService true = .pass theSess ∧ s.flag Fld.CAL_STATUS_HOST_STAGE = true ∧
     s.acq.gcWritten = [] ∧ (∀ n ∈ s.acq.written, s.commitCause n = 0 ∧ (coefAt s.acq.staged n).gc = (s.inForce n).gc) ∧
     s.ledgerOk = true ∧ copyFailed s.str 0 0 = false ∧ copyFailed s.str 0 1 = false ∧ s.core.warned = false ∧
     s.led.queue = []) := by decide +kernel

/-- A staging session in which lane 3's gain has been written. -/
def scaling : State :=
  let s := staging { gc := 1073741825 }
  { s with acq := { s.acq with gcWritten := [3], tickRatio := some 7 } }

/-- With the armed authorisation of its target, which an open function computes. -/
def scalingArmed : State := scaling.setPath .spi { scaling.spi with
  armed := [{ cmd := 0x0040, target := padTo 24 scaling.scaleTarget, roles := 3, keys := 0x10, firstAt := 0 }] }

theorem wit_StagingSession_scale : (∃ a, scalingArmed.gateDual .spi 0x0040 scalingArmed.scaleTarget = .pass a) ∧
    (let s : State := scalingArmed
     s.flag Fld.CAL_STATUS_HOST_STAGE = true ∧ s.acq.gcWritten ≠ [] ∧ (∀ n ∈ s.acq.written, s.commitCause n = 0) ∧
     (∃ n ∈ s.acq.written, (coefAt s.acq.staged n).gc ≠ (s.inForce n).gc) ∧ s.ledgerOk = true ∧
     copyFailed s.str 0 0 = false ∧ copyFailed s.str 0 1 = false ∧ s.core.warned = false ∧ s.led.queue = [] ∧
     s.acq.tickRatio = some 7) := by
  refine ⟨⟨{ cmd := 0x0040, target := padTo 24 scaling.scaleTarget, roles := 3, keys := 0x10, firstAt := 0 }, ?_⟩,
    by decide +kernel⟩
  have hs : scalingArmed.session .spi = some theSess := by decide +kernel
  have hl : scalingArmed.locked = false := by decide +kernel
  have hp : (scalingArmed.path .spi).armed =
      [{ cmd := 0x0040, target := padTo 24 scaling.scaleTarget, roles := 3, keys := 0x10, firstAt := 0 }] := rfl
  have ht : scalingArmed.scaleTarget = scaling.scaleTarget := rfl
  have hn : scalingArmed.now = 0 := by decide +kernel
  simp [State.gateDual, State.armedFor, hs, hl, hp, ht, hn]

theorem wit_StagingSession_rebase :
    (let s : State := sess runSt .spi
     s.core.running = true ∧ s.gate .spi roleService true = .pass theSess ∧ s.lanePresent 75 = true ∧ s.ledgerOk = true ∧
     copyFailed s.str 0 0 = false ∧ copyFailed s.str 0 1 = false ∧ s.core.warned = false ∧ s.led.queue = []) := by decide +kernel

theorem wit_StagingSession_read :
    (let s : State := runSt.wr Fld.CAL_ACC_SEL_WORD 1023
     s.core.running = true ∧
     nextSat (exec (.calAccDataRead .spi) s) (fun t => t = s.calAdvance && t.rd Fld.CAL_ACC_SEL_WORD = 0 && t.rd Fld.CAL_ACC_SEL_INDEX = 1) = true) := by decide +kernel

theorem wit_StagingSession_write :
    (let s : State := staging {} |>.wr Fld.CAL_ACC_SEL_SET 1 |>.wr Fld.CAL_ACC_SEL_OBJ 1 |>.wr Fld.CAL_ACC_SEL_INDEX 75 |>.wr Fld.CAL_ACC_SEL_WORD 2
     s.core.running = true ∧ s.gate .spi roleService true = .pass theSess ∧ s.flag Fld.CAL_STATUS_HOST_STAGE = true ∧
     s.flag Fld.CAL_ACC_SEL_SET = true ∧ calInRange s.calSel = true ∧ s.lanePresent (calLane s.calSel) = true ∧
     nextSat (exec (.calAccDataWrite .spi 9) s) (fun t => (coefAt t.acq.staged 75).gc = 9 && t.acq.written.contains 75 && t.acq.act = s.acq.act &&
       keeps s t [Adr.CAL_ACC_SEL]) = true) := by decide +kernel

/-! ### The boundary, bays and streams -/

theorem wit_BoundaryBeginsTick :
    (let s : State := runSt
     s.flag Fld.AQ_STATUS_RUN = true ∧ s.ledgerOk = true) := by decide +kernel

theorem wit_BoundaryBeginsTick_frozen :
    (let s : State := { runSt with led := { frozen := true } }
     s.flag Fld.AQ_STATUS_RUN = true ∧ s.ledgerOk = false) := by decide +kernel

theorem wit_BoundaryBeginsTick_align :
    (let s : State := runSt
     s.flag Fld.SYS_TIME_EPOCH_ALIGNED = false ∧
     nextSat (exec (.epochAlign 77) s) (fun t => t.base = 77 && t.flag Fld.SYS_TIME_EPOCH_ALIGNED &&
       keeps s t [Adr.SYS_EPOCH_SEC, Adr.SYS_EPOCH_SEC + 4, Adr.SYS_TIME]) = true) := by decide +kernel

/-- A cycle of zeros. -/
def cyc0 : Cycle := {
  start := 0, stop := 1, T := 20000000, p := [0, 0, 0], qs := [0, 0, 0], uu := [0, 0, 0], ii := [0, 0, 0]
  u1 := [(0, 0), (0, 0), (0, 0)], i1 := [(0, 0), (0, 0), (0, 0)], q1 := [0, 0, 0], grid := List.replicate 7 (List.replicate 512 0) }

/-- A bay with its last cycle and a credit for the one that ends. -/
def bay1 : Bay := { T := 20000000, tPrev := 20000000, n := 1, half := 1, prev := some cyc0, credit := true, f := 50 }

/-- Bay 15 tracks. -/
def bayOn : State :=
  { runSt with met := { bays := List.replicate 15 ({} : Bay) ++ [bay1] } }.wr (Fld.BAY_STATUS_TRACK 15) trkFree

/-- A pulse in progress. -/
def pulse1 : Pulse := { on := true, startedAt := 100 }

theorem wit_MeasurementsPosted_cycle :
    (let s : State := bayOn
     (s.track 15 = trkFree ∨ s.track 15 = trkLocked) ∧ s.led.frozen = false ∧ (s.bay 15).credit = true) := by decide +kernel

theorem wit_MeasurementsPosted_half :
    (let s : State := bayOn
     (s.track 15 = trkFree ∨ s.track 15 = trkLocked) ∧ s.met.bays.length = 16 ∧ 0 < (s.bay 15).half ∧
     2 * (s.bay 15).n ≤ (s.bay 15).half + 1 ∧ (s.bay 15).everLocked = false ∧ (s.halfGrid 15 (s.bay 15)).isSome = true) := by decide +kernel

theorem wit_MeasurementsPosted_window :
    (let s : State := { runSt with met := { sa1 := some { bay := 15, cycles := [], narrow := false } } }
     s.accJob 1 = some { bay := 15, cycles := [], narrow := false }) := by decide +kernel

theorem wit_MeasurementsPosted_stream :
    (let s : State := { runSt with strm := { due := some (1000000000, 9) } :: List.replicate 3 {} }.wr (Fld.MT_PS_STATUS_STATE 0) psRun
     (s.stream 0).due = some (1000000000, 9) ∧ s.rd (Fld.MT_PS_STATUS_STATE 0) = psRun ∧
     s.esc.restarting.contains (.procEngine 0) = false) := by decide +kernel

theorem wit_PulseOutputs_start :
    (let s : State := runSt.wr (Fld.MT_PO_CFG_ENABLE 15) 1 |>.wr (Fld.MT_PO_STAT_BACKLOG 15) 1
     s.flag (Fld.MT_PO_CFG_ENABLE 15) = true ∧ (s.pulse 15).on = false ∧ (s.pulse 15).endedAt = none ∧
     s.rd (Fld.MT_PO_STAT_BACKLOG 15) ≠ 0 ∧ s.met.pulses.length = 16 ∧
     nextSat (exec (.poPulseStart 15) s) (fun t => (t.pulse 15).on && t.rd (Fld.MT_PO_STAT_BACKLOG 15) = 0 && t.rd (Fld.MT_PO_STAT_COUNT 15) = 1 &&
       keeps s t [Adr.MT_PO_STAT 15]) = true) := by decide +kernel

theorem wit_PulseOutputs_end :
    (let s : State := { runSt with met := { pulses := List.replicate 15 ({} : Pulse) ++ [pulse1] } }.wr (Fld.MT_PO_CFG_WIDTH 15) 2
     (s.pulse 15).on = true ∧ s.met.pulses.length = 16 ∧
     nextSat (exec (.poPulseEnd 15) s) (fun t => !(t.pulse 15).on && (t.pulse 15).endedAt = some 164 && t.regs = s.regs) = true) := by decide +kernel

/-! ### The auxiliary block -/

/-- A channel whose scan needs four conversions. -/
def chan33 : AuxChan := { chan := 33, gain := 0, osr := 4 }

/-- A scan of that channel is in its conversions. -/
def scanSt : State :=
  { on with aux := { plan := [chan33], lastGain := some 0, takenAt := 100 } }.wr Fld.AX_STATUS_STATE axScan

/-- Its conversions as SCAN_COMPLETE numbers them. -/
def codesOf (s : State) (conv : List AuxConv) : List (Nat × AuxConv) :=
  conv.zipIdx.map fun (c, i) => (s.aux.takenAt + 1 + s.aux.settle + i, c)

theorem wit_AuxScan_trigger :
    (let s : State := on.wr Fld.AX_STATUS_STATE axIdle
     s.core.running = true ∧ s.axState = axIdle ∧
     nextSat (exec (.scanTrigger .spi) s) (fun t => t.axState = axScan && t.aux.takenAt = 1 && t.aux.plan = s.scanPlan && keeps s t [Adr.AX_STATUS, Adr.AX_EXC_STAT]) = true) := by decide +kernel

theorem wit_AuxScan_periodic :
    (let s : State := on.wr Fld.AX_STATUS_STATE axIdle |>.wr Fld.AX_SCAN_CFG_TRIG 1 |>.wr (Fld.AX_EXC_CFG_ENABLE 3) 1 |>.wr (Fld.AX_EXC_CFG_GATED 3) 1 |>.wr Fld.AX_SCAN_CFG_EXC_SETTLE 1
     s.rd Fld.AX_SCAN_CFG_TRIG = 1 ∧ s.axState = axIdle ∧ s.scanSettle = 32 ∧
     nextSat (exec .periodicTrigger s) (fun t => t.axState = axSettle && t.aux.takenAt = 0 ∨ t.aux.takenAt = s.nextBoundary && t.aux.plan = s.scanPlan &&
       keeps s t [Adr.AX_STATUS, Adr.AX_EXC_STAT]) = true) := by decide +kernel

theorem wit_AuxScan_pending :
    (let s : State := scanSt
     s.core.running = true ∧ s.axBusy = true ∧ s.flag Fld.AX_STATUS_PENDING = false ∧
     nextSat (exec (.scanTrigger .drega) s) (fun t => t.flag Fld.AX_STATUS_PENDING && keeps s t [Adr.AX_STATUS]) = true) := by decide +kernel

theorem wit_AuxScan_overrun :
    (let s : State := scanSt.wr Fld.AX_STATUS_PENDING 1
     s.core.running = true ∧ s.axBusy = true ∧ s.flag Fld.AX_STATUS_PENDING = true ∧
     nextSat (exec (.scanTrigger .drega) s) (fun t => t.rd Fld.AX_TRIG_OVERRUN_COUNT = 1) = true) := by decide +kernel

theorem wit_AuxScan_settle :
    (let s : State := on.wr Fld.AX_STATUS_STATE axSettle
     s.axState = axSettle ∧
     nextSat (exec .scanSettleEnd s) (fun t => t.axState = axScan && keeps s t [Adr.AX_STATUS, Adr.AX_EXC_STAT]) = true) := by decide +kernel

theorem wit_AuxScan_illFormed : scanSt.axState = axScan ∧
    scanSt.scanRuns scanSt.aux.plan scanSt.aux.lastGain (codesOf scanSt [⟨2048, true⟩]) = none ∧
    exec (.scanComplete [⟨2048, true⟩]) scanSt = .fault .illFormed := ⟨by decide +kernel, by decide +kernel, rfl⟩

theorem wit_AuxScan_complete :
    (let s : State := scanSt
     s.axState = axScan ∧
     (s.scanRuns s.aux.plan s.aux.lastGain (codesOf s (List.replicate 4 ⟨4095, true⟩))).any (fun l => l.all fun x => x.1.chan < 34 && 4 ≤ x.2.vals.length && (s.aux.discards ++ x.2.residue).length ≤ 64) = true ∧
     s.flag Fld.AX_STATUS_PENDING = false) := by decide +kernel

theorem wit_PulseInputs_edge :
    (let s : State := on.wr Fld.AX_STATUS_STATE axIdle |>.wr (Fld.AX_PI_CFG_ENABLE 7) 1 |>.wr (Fld.AX_PI_CNT_CNT 7) 0xFFFFFFFF
     s.axState ≠ axOff ∧ s.flag Fld.AX_STATUS_FLD_LOW = false ∧ s.flag (Fld.AX_PI_CFG_MODE 6) = false ∧
     s.flag (Fld.AX_PI_CFG_ENABLE 7) = true ∧ s.edgeCounts 7 true = true ∧
     nextSat (exec (.pulseEdge 7 true false false ⟨5, 3⟩) s) (fun t => s.edgeHold 7 = 3 && t.flag (Fld.AX_PI_STAT_LEVEL 7) && t.rd (Fld.AX_PI_CNT_CNT 7) = 0 &&
       keeps s t [Adr.AX_PI_CNT 7, Adr.AX_PI_STAT 7]) = true) := by decide +kernel

theorem wit_PulseInputs_quad :
    (let s : State := on.wr Fld.AX_STATUS_STATE axIdle |>.wr (Fld.AX_PI_CFG_ENABLE 6) 1 |>.wr (Fld.AX_PI_CFG_MODE 6) 1
     s.axState ≠ axOff ∧ s.flag Fld.AX_STATUS_FLD_LOW = false ∧ s.flag (Fld.AX_PI_CFG_MODE 6) = true ∧
     s.flag (Fld.AX_PI_CFG_ENABLE 6) = true ∧
     nextSat (exec (.pulseEdge 7 true false false ⟨5, 3⟩) s) (fun t => t.rd (Fld.AX_PI_CNT_CNT 6) = 2 ^ 32 - 1) = true) := by decide +kernel

theorem wit_PulseInputs_double :
    (let s : State := on.wr Fld.AX_STATUS_STATE axIdle |>.wr (Fld.AX_PI_CFG_ENABLE 6) 1 |>.wr (Fld.AX_PI_CFG_MODE 6) 1 |>.wr (Fld.AX_PI_STAT_QERR 6) 0xFFFF
     s.axState ≠ axOff ∧ s.flag Fld.AX_STATUS_FLD_LOW = false ∧ s.flag (Fld.AX_PI_CFG_MODE 6) = true ∧
     s.flag (Fld.AX_PI_CFG_ENABLE 6) = true ∧
     nextSat (exec (.pulseEdge 6 true true true ⟨5, 3⟩) s) (fun t => t.rd (Fld.AX_PI_CNT_CNT 6) = 0 && t.rd (Fld.AX_PI_STAT_QERR 6) = 0xFFFF) = true) := by decide +kernel

theorem wit_PulseInputs_short :
    (let s : State := on.wr Fld.AX_STATUS_STATE axIdle |>.wr (Fld.AX_PI_CFG_ENABLE 7) 1 |>.wr (Fld.AX_PI_CFG_FILTER 7) 1
     24 < s.edgeHold 7 ∧ nextSat (exec (.pulseEdge 7 true false false ⟨5, 24⟩) s) (fun t => t = s) = true) := by decide +kernel

/-- A pulse input whose gate has begun. -/
def input1 : PulseIn := { prev := some (-1000000000) }

theorem wit_PulseInputs_noSignal :
    (let s : State := { on with aux := { inputs := List.replicate 7 ({} : PulseIn) ++ [input1] } }.wr (Fld.AX_PI_CFG_ENABLE 7) 1 |>.wr (Fld.AX_PI_FREQ_FREQ 7) 9 |>.wr Fld.AX_STATUS_STATE axIdle
     s.flag (Fld.AX_PI_CFG_ENABLE 7) = true ∧ s.flag (Fld.AX_PI_CFG_MODE 7) = false ∧ s.axState ≠ axOff ∧
     s.gateOver 7 = true ∧ s.aux.inputs.length = 8 ∧
     nextSat (exec (.noSignal 7) s) (fun t => t.rd (Fld.AX_PI_FREQ_FREQ 7) = 0 && t.flag (Fld.AX_PI_STAT_NO_SIGNAL 7) && (t.input 7).prev = none &&
       keeps s t [Adr.AX_PI_FREQ 7, Adr.AX_PI_STAT 7]) = true) := by decide +kernel

theorem wit_PulseInputs_gate :
    (let s : State := { on with aux := { inputs := List.replicate 7 ({} : PulseIn) ++ [{ input1 with n := 1 }] } }.wr (Fld.AX_PI_CFG_ENABLE 7) 1 |>.wr Fld.AX_STATUS_STATE axIdle
     s.gateOver 7 = false ∧ nextSat (exec (.noSignal 7) s) (fun t => t = s) = true) := by decide +kernel

theorem wit_FieldSupply_low :
    (let s : State := on.wr Fld.AX_STATUS_STATE axIdle |>.wr Fld.AX_EXC_STAT_ON 15
     s.core.running = true ∧ s.flag Fld.AX_STATUS_FLD_LOW = false ∧
     nextSat (exec .fldLow s) (fun t => t.flag Fld.AX_STATUS_FLD_LOW && t.flag Fld.AX_FLD_LOW_SEEN && t.rd Fld.AX_FLD_LOW_CNT = 1 &&
       t.rd Fld.AX_EXC_STAT_ON = 0) = true) := by decide +kernel

theorem wit_FieldSupply_ok :
    (let s : State := on.wr Fld.AX_STATUS_STATE axIdle |>.wr Fld.AX_STATUS_FLD_LOW 1
     s.flag Fld.AX_STATUS_FLD_LOW = true ∧
     nextSat (exec .fldOk s) (fun t => !t.flag Fld.AX_STATUS_FLD_LOW && t.axState = axIdle) = true) := by decide +kernel

theorem wit_FieldSupply_open :
    (let s : State := on.wr Fld.AX_EXC_STAT_ON 8
     s.rd Fld.AX_EXC_STAT_ON / 2 ^ 3 % 2 = 1 ∧
     nextSat (exec (.excOpen 3) s) (fun t => t.rd Fld.AX_EXC_STAT_OPEN = 8 && t.rd Fld.AX_EXC_STAT_OPEN_SEEN = 8 && t.rd Fld.AX_EXC_STAT_ON = 8) = true) := by decide +kernel

theorem test_excOpenEnd :
    nextSat (exec (.excOpenEnd 3) (on.wr Fld.AX_EXC_STAT_OPEN 15)) (fun t => t.rd Fld.AX_EXC_STAT_OPEN = 7) = true := by
  decide +kernel

/-! ### Contained faults -/

/-- Every domain is on. -/
def lit : State := on.wr Fld.PWR_ON_ON 0x1FFFF

/-- A unit has faulted before. -/
def again (u : FaultUnit) : State := { lit with esc := { faults := [(u, 0)] } }

theorem wit_FaultsContained_first :
    (let s : State := lit
     s.unitIn (.bayEngine 15) = true ∧ s.bayOf (.bayEngine 15) = some 15 ∧ s.met.bays.length = 16 ∧
     s.faultedBefore (.bayEngine 15) = false ∧
     nextSat (exec (.engineFault (.bayEngine 15) .watchdog) s) (fun t => t.esc.restarting.contains (.bayEngine 15) && (t.bay 15).credit &&
       t.rd Fld.SYS_ESC_LAST_ALL = 0x50000500 + 15 / 4 * 2 ^ 22 + 15 % 4 * 2 ^ 16 + errorOf .watchdog) = true) := by decide +kernel

theorem wit_FaultsContained_standby :
    (let s : State := { again (.bayEngine 0) with now := 10000 }.wr Fld.SYS_ESC_CTRL_STANDBY_PE 8
     s.unitIn (.bayEngine 0) = true ∧ s.bayOf (.bayEngine 0) = some 0 ∧ s.met.bays.length = 16 ∧
     s.faultedBefore (.bayEngine 0) = true ∧ s.standby = some 3 ∧
     nextSat (exec (.engineFault (.bayEngine 0) .ecc) s) (fun t => t.esc.down.contains (.bayEngine 0) && t.rd (engField 0) = 11 && t.flag (Fld.BAY_STATUS_STANDBY 0)) = true) := by decide +kernel

theorem wit_FaultsContained_stop :
    (let s : State := again (.bayEngine 0)
     s.unitIn (.bayEngine 0) = true ∧ s.bayOf (.bayEngine 0) = some 0 ∧ s.met.bays.length = 16 ∧
     s.faultedBefore (.bayEngine 0) = true ∧ s.standby = none ∧
     nextSat (exec (.engineFault (.bayEngine 0) .ecc) s) (fun t => t.esc.down.contains (.bayEngine 0) && t.rd (engField 0) = 0xE && t.track 0 = trkStopped &&
       t.flag (Fld.BAY_STATUS_DEGRADED 0) && t.flag Fld.SYS_STATUS_DEGRADED) = true) := by decide +kernel

theorem wit_FaultsContained_stream :
    (let s : State := again (.procEngine 3) |>.wr (Fld.MT_PS_STATUS_STATE 3) psRun
     s.unitIn (.procEngine 3) = true ∧ s.bayOf (.procEngine 3) = none ∧ s.faultedBefore (.procEngine 3) = true ∧
     s.rd (Fld.MT_PS_STATUS_STATE 3) = psRun ∧
     nextSat (exec (.engineFault (.procEngine 3) .microcode) s) (fun t => t.rd (Fld.MT_PS_STATUS_STATE 3) = psStopped && t.esc.down.contains (.procEngine 3)) = true) := by decide +kernel

theorem wit_FaultsContained_net :
    (let s : State := again (.netEngine 1)
     s.unitIn (.netEngine 1) = true ∧ s.faultedBefore (.netEngine 1) = true ∧
     nextSat (exec (.engineFault (.netEngine 1) .ecc) s) (fun t => t.flag (stoppedFld 1) && (t.port 1).tx = [] && (t.port 1).sending = none) = true) := by decide +kernel

theorem wit_FaultsContained_garnet :
    (let s : State := { lit with gar := { sign := [.sign (.host .spi) [1]] } }
     s.unitIn .garnet = true ∧ s.gar.stopped = false ∧ s.gar.lastFault = none ∧
     nextSat (exec (.engineFault .garnet .ecc) s) (fun t => t.gar.restarting && !t.gar.stopped && t.gar.sign = [] && t.rd Fld.SEC_GARNET_FAULT = 1 && t.chip = s.chip) = true) := by decide +kernel

theorem wit_FaultsContained_restart :
    (let s : State := { lit with esc := { restarting := [.accel 1, .netEngine 0] } }
     s.esc.restarting = [.accel 1, .netEngine 0] ∧
     nextSat (exec (.engineRestartDone (.accel 1)) s) (fun t => t.esc.restarting = [.netEngine 0] && t.regs = s.regs) = true) := by decide +kernel

theorem wit_FaultsContained_garnetBack :
    (let s : State := { lit with gar := { restarting := true } }
     s.gar.restarting = true ∧
     nextSat (exec (.engineRestartDone .garnet) s) (fun t => !t.gar.restarting && t.regs = s.regs) = true) := by decide +kernel

theorem wit_FaultsContained_vein :
    (let s : State := lit
     s.core.running = true ∧ s.chip ≠ chipFrozen) := by decide +kernel

/-! ### The network -/

/-- Port B enabled with its link up. -/
def linkB : State := lit.wr (Fld.NET_PORT_CFG_ENABLE 1) 1 |>.wr (linkFld 1) 1

/-- A frame of a queue. -/
def fr (q : Nat) : TxFrame := { bytes := List.replicate 60 0, queue := q }

/-- Bytes of an untagged frame of type 0x1234 to all. -/
def bytes60 : List Byte := List.replicate 6 0xFF ++ List.replicate 6 0 ++ [0x12, 0x34] ++ List.replicate 46 0

/-- A Drega requester. -/
def src1 : DregaSrc := { port := 1, mac := 0x020000000001, ip := 0x0A000001, udp := 5000 }

theorem wit_PortManagement_poll :
    (let s : State := linkB
     s.portRuns 1 = true ∧ s.flag (Fld.NET_MDIO_BUSY 1) = false ∧
     nextSat (exec (.phyPoll 1 0 0 0) s) (fun t => !t.flag (linkFld 1) && t.rd (Fld.NET_PORT_STAT_FLAPS 1) = 1) = true) := by decide +kernel

theorem wit_PortManagement_up :
    (let s : State := linkB.wr (linkFld 1) 0
     s.portRuns 1 = true ∧ s.flag (Fld.NET_MDIO_BUSY 1) = false ∧
     nextSat (exec (.phyPoll 1 4 0x0100 0) s) (fun t => t.flag (linkFld 1) && t.rd (speedFld 1) = (phyMode 0x0100 0).1 && t.rd (Fld.NET_PORT_STAT_FLAPS 1) = 0) = true) := by decide +kernel

theorem wit_PortManagement_read :
    (let s : State := sess lit .drega
     s.core.running = true ∧ s.gate .drega roleService false = .pass theSess ∧ s.flag (Fld.NET_MDIO_BUSY 0) = false ∧
     nextSat (exec (.mdioRead .drega 0 31) s) (fun t => t.flag (Fld.NET_MDIO_BUSY 0) && !t.flag (Fld.NET_MDIO_WRITE 0) && t.rd (Fld.NET_MDIO_REG 0) = 31 &&
       (t.port 0).mdioRead) = true) := by decide +kernel

theorem wit_PortManagement_write :
    (let s : State := sess lit .drega
     s.core.running = true ∧ s.gate .drega roleService true = .pass theSess ∧ s.flag (Fld.NET_MDIO_BUSY 0) = false ∧
     nextSat (exec (.mdioWrite .drega 0 31 0xABCD) s) (fun t => t.flag (Fld.NET_MDIO_BUSY 0) && t.flag (Fld.NET_MDIO_WRITE 0) && t.rd (Fld.NET_MDIO_REG 0) = 31 &&
       t.rd (Fld.NET_MDIO_DATA 0) = 0xABCD && !(t.port 0).mdioRead) = true) := by decide +kernel

theorem wit_PortManagement_done :
    (let s : State := { lit with portA := { mdioRead := true } }.wr (Fld.NET_MDIO_BUSY 0) 1
     s.flag (Fld.NET_MDIO_BUSY 0) = true ∧
     nextSat (exec (.mdioDone 0 0xABCD) s) (fun t => !t.flag (Fld.NET_MDIO_BUSY 0) && t.rd (Fld.NET_MDIO_DATA 0) = 0xABCD && keeps s t [Adr.NET_MDIO 0]) = true) := by decide +kernel

theorem wit_PortManagement_refresh :
    (let s : State := { linkB with portB := { arp := [{ ip := 9, mac := some 5 }] } }
     (s.port 1).arpEntry 9 = some { ip := 9, mac := some 5 } ∧ s.portRuns 1 = true ∧ s.txRoom 1 2 = true ∧
     nextSat (exec (.arpRefresh 1 9) s) (fun t => t.now = 300000 && (t.port 1).arpEntry 9 = some { ip := 9, mac := some 5, tries := 1, at_ := 300000 } &&
       (t.port 1).tx.length = 1) = true) := by decide +kernel

theorem wit_PortManagement_retry :
    (let s : State := { linkB with portB := { arp := [{ ip := 9, tries := 2 }] } }
     (s.port 1).arpEntry 9 = some { ip := 9, tries := 2 } ∧
     nextSat (exec (.arpRetry 1 9) s) (fun t => t.now = 1000 && (t.port 1).arpEntry 9 = some { ip := 9, tries := 3, at_ := 1000 }) = true) := by decide +kernel

theorem wit_PortManagement_asked :
    (let s : State := { linkB with portB := { arp := [{ ip := 9, tries := 2 }] } }
     (s.port 1).arpEntry 9 = some { ip := 9, tries := 2 } ∧ nextSat (exec (.arpRefresh 1 9) s) (fun t => t = s) = true) := by decide +kernel

theorem wit_PortManagement_giveUp :
    (let s : State := { linkB with portB := { arp := [{ ip := 9, tries := 3 }] } }
     (s.port 1).arpEntry 9 = some { ip := 9, tries := 3 } ∧
     nextSat (exec (.arpRetry 1 9) s) (fun t => (t.port 1).arpEntry 9 = none && (t.port 1).tx = []) = true) := by decide +kernel

theorem wit_Transmission_start :
    (let s : State := { linkB with portB := { tx := [fr 7, fr 6] } }
     (s.port 1).sending = none ∧ s.linkUp 1 = true ∧ s.esc.restarting.contains (.netEngine 1) = false ∧
     s.txChoice 1 = some (fr 6) ∧
     (s.txLate (fr 6) && s.timebase && s.flag (Fld.NET_TXQ_CFG_LATE_POLICY 1 (fr 6).queue)) = false ∧
     nextSat (exec (.txStart 1) s) (fun t => (t.port 1).sending = some (fr 6) && (t.port 1).tx = [fr 7]) = true) := by decide +kernel

theorem wit_Transmission_cut :
    (let s : State := { linkB with portB := { sending := some (fr 6), tx := [fr 7] } }
     (s.port 1).sending = some (fr 6) ∧
     nextSat (exec (.txComplete 1 .linkDown ⟨7, 8⟩) s) (fun t => (t.port 1).sending = none && (t.port 1).tx = [fr 7]) = true) := by decide +kernel

theorem wit_Transmission_done :
    (let s : State := { linkB with portB := { sending := some { fr 6 with host := some .drega, tsreq := true, tag := 3 } } }
     (s.port 1).sending = some { fr 6 with host := some .drega, tsreq := true, tag := 3 } ∧ s.drega.htxDone.length < 16 ∧
     nextSat (exec (.txComplete 1 .sent ⟨7, 8⟩) s) (fun t => (t.port 1).sending = none && t.ptp.ns = 7000000008 && (t.port 1).sent = List.replicate 60 0 &&
       t.drega.htxDone = [doneWords 3 txSent (some (ptpTime (s.txStamp 1 ⟨7, 8⟩)))]) = true) := by decide +kernel

theorem wit_Transmission_launch :
    (let s : State := { linkB with portB := { tx := [{ fr 5 with launch := true, lt := 1000 }] } }
     (s.port 1).tx = [{ fr 5 with launch := true, lt := 1000 }] ∧ launchDiff 1000 (ptpNs ⟨0, 1000⟩) ≤ 0 ∧
     nextSat (exec (.launchTime 1 ⟨0, 1000⟩) s) (fun t => (t.port 1).tx = [{ fr 5 with launch := true, lt := 1000, eligible := true }] && t.ptp.ns = 1000) = true) := by decide +kernel

theorem test_nsWrap :
    nextSat (exec .nsWrap (on.wr Fld.NET_NS_WRAP_WRAPS 0xFFFFFFFF)) (fun t => t.rd Fld.NET_NS_WRAP_WRAPS = 0 && t.ptp.wraps == 1) = true := by
  decide +kernel

theorem wit_Transmission_data :
    (let s : State := { lit with spi := { htx := List.replicate 383 0 } }
     s.core.running = true ∧ s.spi.htx.length < 384 ∧
     nextSat (exec (.htxDataWrite .spi 5) s) (fun t => t = s.setPath .spi { s.spi with htx := s.spi.htx ++ [5] }) = true) := by decide +kernel

theorem wit_Transmission_go :
    (let s : State := { linkB with spi := { htx := List.replicate 15 7 } }
     s.core.running = true ∧ (0x6000003C : Word).getLsbD 30 = true ∧
     s.htxResult .spi 1 (4 + bitsOf (0x6000003C : Word).toNat 28 2) (bitsOf (0x6000003C : Word).toNat 0 11) = 1) := by decide +kernel

theorem wit_Transmission_read :
    (let s : State := { lit with spi := { htxDone := [[1, 2, 3, 4], [5, 6, 7, 8]] } }
     s.core.running = true ∧
     nextSat (exec (.htxDoneRead .spi) s) (fun t => t.spi.htxDone = [[5, 6, 7, 8]] && t.regs = s.regs) = true) := by decide +kernel

theorem wit_Reception_error :
    (let s : State := linkB
     s.linkUp 1 = true ∧
     nextSat (exec (.rxFrame 1 bytes60 false ⟨7, 8⟩) s) (fun t => (t.port 1).rx = [] && t.rd (Fld.NET_RX_CNT_ERROR 1) = 1) = true) := by decide +kernel

theorem wit_Reception_filter :
    (let s : State := linkB.wr (Fld.NET_RXQ_FILT_ENABLE 1 2) 1 |>.wr (Fld.NET_RXQ_FILT_ETHERTYPE 1 2) 0x1234 |>.wr (Fld.NET_RXQ_FILT_DEST 1 2) 3
     s.linkUp 1 = true ∧ 60 ≤ bytes60.length ∧ bytes60.length ≤ 1518 ∧ (ethParse bytes60).vids = [] ∧
     (ethParse bytes60).type ∉ [0x0800, 0x0806, 0x88F7] ∧
     (List.range 3).find? (fun j => s.filterHit 1 j (ethParse bytes60)) = some 2 ∧
     ((s.port 1).rx.filter fun y => y.1 = 5 + 2).length < 8 ∧
     nextSat (exec (.rxFrame 1 bytes60 true ⟨7, 8⟩) s) (fun t => (t.port 1).rx = [(7, { bytes := bytes60, ts := s.rxStamp 1 ⟨7, 8⟩ })] && t.flag Fld.SYS_IRQ_STAT_HRX) = true) := by decide +kernel

theorem wit_Reception_pop :
    (let s : State := { linkB with portB := { rx := [(5, { bytes := bytes60, ts := ⟨7, 8⟩ }), (6, { bytes := bytes60, ts := ⟨9, 8⟩ })] } }
     s.core.running = true ∧
     (s.port 1).rx.find? (fun y => y.1 = 4 + bitsOf (0xC0000000 : Word).toNat 29 2) = some (6, { bytes := bytes60, ts := ⟨9, 8⟩ }) ∧
     nextSat (exec (.hrxPop .drega 1 0xC0000000) s) (fun t => t.drega.hrx 1 = (bytesWords bytes60, 0) && (t.port 1).rx = [(5, { bytes := bytes60, ts := ⟨7, 8⟩ })] &&
       t.rdP .drega (Fld.NET_HRX_CMD_LOADED 1) = 1 && t.rdP .drega (Fld.NET_HRX_CMD_LENGTH 1) = 60) = true) := by decide +kernel

theorem wit_Reception_read :
    (let s : State := { linkB with spi := { hrxB := ([1, 2], 1) } }
     s.core.running = true ∧ nextSat (exec (.hrxDataRead .spi 1) s) (fun t => t = s.setHrx .spi 1 ([1, 2], 2)) = true) := by decide +kernel

theorem wit_PtpPort_timeout :
    (let s : State := { lit with ptp := { parent := some 5 } }.wr Fld.PTP_STATUS_STATE 3 |>.wr Fld.PTP_CFG_SLAVE_ONLY 1 |>.wr Fld.SYS_TIME_PTP_LOCKED 1
     s.ptpState ≠ ptpDisabled ∧ s.rd Fld.PTP_CFG_PORT ≠ 2 ∧ s.flag Fld.PTP_CFG_SLAVE_ONLY = true ∧
     nextSat (exec .announceTimeout s) (fun t => t.ptpState = ptpListening && !t.flag Fld.SYS_TIME_PTP_LOCKED && t.ptp.parent = none) = true) := by decide +kernel

theorem wit_PtpPort_fallback :
    (let s : State := lit.wr Fld.PTP_STATUS_STATE 3 |>.wr Fld.PTP_CFG_PORT 2
     s.ptpState ≠ ptpDisabled ∧ s.rd Fld.PTP_CFG_PORT = 2 ∧ s.flag Fld.PTP_STATUS_ON_B = false ∧
     nextSat (exec .announceTimeout s) (fun t => t.flag Fld.PTP_STATUS_ON_B && t.ptpState = ptpListening) = true) := by decide +kernel

theorem wit_PtpPort_return :
    (let s : State := { lit with ptp := { aSince := some 5, aLast := 10000 } }.wr Fld.PTP_STATUS_ON_B 1 |>.wr Fld.PTP_CFG_PORT 2 |>.wr (linkFld 0) 1 |>.wr (Fld.NET_PORT_CFG_ENABLE 0) 1
     s.ptp.aSince = some 5 ∧ s.rd Fld.PTP_CFG_PORT = 2 ∧ s.flag Fld.PTP_STATUS_ON_B = true ∧ s.linkUp 0 = true ∧
     max s.now (5 + 10000) ≤ s.ptp.aLast + s.announceMs ∧
     nextSat (exec .ptpPortReturn s) (fun t => !t.flag Fld.PTP_STATUS_ON_B && t.ptpState = ptpListening && t.ptp.foreign = []) = true) := by decide +kernel

theorem wit_PtpPort_sync :
    (let s : State := (linkB.wr Fld.PTP_STATUS_STATE ptpMaster |>.wr Fld.PTP_STATUS_ON_B 1)
     s.ptpState = ptpMaster ∧ s.portRuns s.ptpPort = true ∧ s.txRoom s.ptpPort 0 = true ∧
     nextSat (exec (.ptpMessageSend .sync) s) (fun t => t.ptp.seqSync = 1 && t.ptpState = ptpMaster && (t.port 1).tx.length = 1) = true) := by decide +kernel

/-- Drega is served on port B. -/
def dregaB : State := linkB.wr Fld.NET_DREGA_CFG_EN_B 1

/-- A frame from that requester with a Drega message. -/
def dregaFr (m : List Byte) : RxFrame :=
  { bytes := beBytes 6 0 ++ beBytes 6 src1.mac.toNat ++ beBytes 2 0x0800 ++ ipUdp 0 src1.ip.toNat 9 5000 7 true m, ts := ⟨0, 0⟩ }

/-- A Drega message of tag 3: type, flags and body. -/
def msg (type flags : Nat) (body : List Byte) : List Byte :=
  [1, BitVec.ofNat 8 type, 0, 3, 0, BitVec.ofNat 8 flags] ++ beBytes 2 body.length ++ body

/-- With that message at the head of port B's queue. -/
def asked (m : List Byte) : State := { dregaB with portB := { rx := [(3, dregaFr m)] } }

/-- A request of all registers' first 256 words, a write of SYS_IRQ_EN and a reading of one item. -/
def read256 : List Byte := msg 1 0 (beBytes 4 0 ++ beBytes 2 256 ++ beBytes 2 0)
def write1 : List Byte := msg 2 0 (beBytes 4 Adr.SYS_IRQ_EN ++ beBytes 2 1 ++ beBytes 2 0 ++ beBytes 4 5)
def reading1 : List Byte := msg 3 0 (beBytes 8 9 ++ beBytes 2 1 ++ beBytes 2 0 ++ beBytes 4 0 ++ beBytes 2 32 ++ beBytes 2 0)

/-- The rows that name a message of src1 with TAG 3. -/
def readOf (m : List Byte) : Instr :=
  .regRead src1 3 (BitVec.ofNat 8 (num m 5 1)) (BitVec.ofNat 32 (num m 8 4)) (BitVec.ofNat 16 (num m 12 2))
def writeOf (m : List Byte) : Instr :=
  .regWrite src1 3 (BitVec.ofNat 8 (num m 5 1)) (BitVec.ofNat 32 (num m 8 4)) (BitVec.ofNat 16 (num m 12 2)) (dregaData m)
def readingOf (m : List Byte) : Instr :=
  .reading src1 3 (BitVec.ofNat 8 (num m 5 1)) (BitVec.ofNat 64 (num m 8 8)) (readingItems m)

theorem wit_DregaService_read :
    (let s : State := asked read256
     s.dregaNext = some (1, dregaFr read256) ∧ (dregaFr read256).source 1 = src1 ∧ (dregaFr read256).drega = read256 ∧
     s.keptFor src1 3 = none ∧ dregaHeadOk read256 = true ∧ num read256 1 1 = 1 ∧ dregaOk read256 256 0 = true ∧
     num read256 8 4 + 4 * num read256 12 2 ≤ 0x1000000) := by decide +kernel

theorem wit_DregaService_badRead :
    (let s : State := asked (msg 1 0 (beBytes 4 0 ++ beBytes 2 0 ++ beBytes 2 0))
     s.dregaNext = some (1, dregaFr (msg 1 0 (beBytes 4 0 ++ beBytes 2 0 ++ beBytes 2 0))) ∧
     (dregaFr (msg 1 0 (beBytes 4 0 ++ beBytes 2 0 ++ beBytes 2 0))).source 1 = src1 ∧
     (dregaFr (msg 1 0 (beBytes 4 0 ++ beBytes 2 0 ++ beBytes 2 0))).drega = (msg 1 0 (beBytes 4 0 ++ beBytes 2 0 ++ beBytes 2 0)) ∧
     s.keptFor src1 3 = none ∧ dregaHeadOk (msg 1 0 (beBytes 4 0 ++ beBytes 2 0 ++ beBytes 2 0)) = true ∧
     num (msg 1 0 (beBytes 4 0 ++ beBytes 2 0 ++ beBytes 2 0)) 1 1 = 1 ∧
     dregaOk (msg 1 0 (beBytes 4 0 ++ beBytes 2 0 ++ beBytes 2 0)) 256 0 = false ∧
     (s.dregaTake 1 (dregaFr (msg 1 0 (beBytes 4 0 ++ beBytes 2 0 ++ beBytes 2 0)))).dregaNext = none) := by decide +kernel

theorem wit_DregaService_write :
    (let s : State := asked write1
     s.dregaNext = some (1, dregaFr write1) ∧ (dregaFr write1).source 1 = src1 ∧ (dregaFr write1).drega = write1 ∧
     s.keptFor src1 3 = none ∧ dregaHeadOk write1 = true ∧ num write1 1 1 = 2 ∧
     dregaOk write1 64 (num write1 12 2) = true ∧
     ((s.dregaTake 1 (dregaFr write1)).writeWords .drega false (num write1 8 4) (dregaData write1)).1 = .ok ∧
     ((s.dregaTake 1 (dregaFr write1)).writeWords .drega false (num write1 8 4) (dregaData write1)).2.2.dregaNext = none) := by decide +kernel

theorem wit_DregaService_badWrite :
    (let s : State := asked (msg 2 0 (beBytes 4 0 ++ beBytes 2 1 ++ beBytes 2 0))
     s.dregaNext = some (1, dregaFr (msg 2 0 (beBytes 4 0 ++ beBytes 2 1 ++ beBytes 2 0))) ∧
     (dregaFr (msg 2 0 (beBytes 4 0 ++ beBytes 2 1 ++ beBytes 2 0))).source 1 = src1 ∧
     (dregaFr (msg 2 0 (beBytes 4 0 ++ beBytes 2 1 ++ beBytes 2 0))).drega = (msg 2 0 (beBytes 4 0 ++ beBytes 2 1 ++ beBytes 2 0)) ∧
     s.keptFor src1 3 = none ∧ dregaHeadOk (msg 2 0 (beBytes 4 0 ++ beBytes 2 1 ++ beBytes 2 0)) = true ∧
     num (msg 2 0 (beBytes 4 0 ++ beBytes 2 1 ++ beBytes 2 0)) 1 1 = 2 ∧
     dregaOk (msg 2 0 (beBytes 4 0 ++ beBytes 2 1 ++ beBytes 2 0)) 64 (num (msg 2 0 (beBytes 4 0 ++ beBytes 2 1 ++ beBytes 2 0)) 12 2) = false ∧
     (s.dregaTake 1 (dregaFr (msg 2 0 (beBytes 4 0 ++ beBytes 2 1 ++ beBytes 2 0)))).dregaNext = none) := by decide +kernel

theorem wit_DregaService_reading :
    (let s : State := { asked reading1 with led := { dregaB.led with firstCommit := true } }.wr Fld.LED_STATUS_STATE 2
     s.dregaNext = some (1, dregaFr reading1) ∧ (dregaFr reading1).source 1 = src1 ∧ (dregaFr reading1).drega = reading1 ∧
     s.keptFor src1 3 = none ∧ dregaHeadOk reading1 = true ∧ num reading1 1 1 = 3 ∧ readingOk reading1 = true ∧
     s.gar.serving = none ∧ s.gar.verify = [] ∧ s.gar.sign = [] ∧
     s.rdgTest (num reading1 5 1 / 2 % 2 = 1) (readingAsks reading1) = .inr [(0, 32)]) := by decide +kernel

theorem wit_DregaService_badReading :
    (let s : State := asked (msg 3 0 (beBytes 8 9 ++ beBytes 2 0 ++ beBytes 2 0))
     s.dregaNext = some (1, dregaFr (msg 3 0 (beBytes 8 9 ++ beBytes 2 0 ++ beBytes 2 0))) ∧
     (dregaFr (msg 3 0 (beBytes 8 9 ++ beBytes 2 0 ++ beBytes 2 0))).source 1 = src1 ∧
     (dregaFr (msg 3 0 (beBytes 8 9 ++ beBytes 2 0 ++ beBytes 2 0))).drega = (msg 3 0 (beBytes 8 9 ++ beBytes 2 0 ++ beBytes 2 0)) ∧
     s.keptFor src1 3 = none ∧ dregaHeadOk (msg 3 0 (beBytes 8 9 ++ beBytes 2 0 ++ beBytes 2 0)) = true ∧
     num (msg 3 0 (beBytes 8 9 ++ beBytes 2 0 ++ beBytes 2 0)) 1 1 = 3 ∧
     readingOk (msg 3 0 (beBytes 8 9 ++ beBytes 2 0 ++ beBytes 2 0)) = false ∧
     (s.dregaTake 1 (dregaFr (msg 3 0 (beBytes 8 9 ++ beBytes 2 0 ++ beBytes 2 0)))).dregaNext = none) := by decide +kernel

theorem wit_DregaService_other :
    (let s : State := asked write1
     s.dregaNext = some (1, dregaFr write1) ∧ (dregaFr write1).source 1 = src1 ∧ (dregaFr write1).drega = write1 ∧
     s.keptFor src1 3 = none ∧ dregaHeadOk write1 = true ∧ num write1 1 1 ≠ 1 ∧
     nextSat (exec (readOf write1) s) (fun t => t = s) = true) := by decide +kernel

theorem wit_DregaService_empty :
    (let s : State := dregaB
     s.dregaNext = none ∧ nextSat (exec (readingOf reading1) s) (fun t => t = s) = true) := by decide +kernel

theorem wit_DregaService_expiry :
    (let s : State := { dregaB with kept := [{ src := src1, tag := 3, payload := [], sent := 7 }] }
     s.kept.find? (fun (x : Kept) => x.src.ip = src1.ip && x.src.udp = src1.udp) = some { src := src1, tag := 3, payload := [], sent := 7 } ∧
     nextSat (exec (.dregaKeptExpiry src1) s) (fun t => t.kept = [] && t.now = 5007) = true) := by decide +kernel

theorem wit_DregaService_publish :
    (let s : State := { linkB with core := { linkB.core with loaded := true }, led := { linkB.led with firstCommit := true }, portB := { arp := [{ ip := 9, mac := some 5 }] } }.wr Fld.LED_STATUS_STATE 2 |>.wr Fld.AQ_STATUS_RUN 1 |>.wr (Fld.NET_PUB_ENABLE 3) 1 |>.wr (Fld.NET_PUB_PERIOD 3) 1 |>.wr (Fld.NET_PUB_PORT 3) 1 |>.wr (Fld.NET_PUB_DST_ADDR 3) 9 |>.wr (Fld.NET_PUB_ITEM_WORDS 3 0) 1
     s.core.loaded = true ∧ s.pubDue 3 = true ∧
     ((s.port 1).arpEntry (s.nextHop 1 (s.rd (Fld.NET_PUB_DST_ADDR 3)))).isSome = true ∧
     s.flag (Fld.NET_PUB_PORT 3) = true ∧ s.rdgTest (s.flag (Fld.NET_PUB_SIG 3)) (s.pubItems 3) = .inr [(0, 1)] ∧
     s.gar.serving = none ∧ s.gar.verify = [] ∧ s.gar.sign = []) := by decide +kernel

/-! ### The ring and the twin -/

/-- A device on ring 0 of site 5, its role and enumeration state given. -/
def ringSt (master : Bool) (en : Nat) : State :=
  (on.wr Fld.CSC_CFG_ENABLE 1 |>.wr Fld.CSC_CFG_SITE_ID 5 |>.wr Fld.CSC_STATUS_ENUM en).wrB Fld.CSC_STATUS_ROLE master

/-- A member at position 3. -/
def member (en : Nat) : State := ringSt false en |>.wr Fld.CSC_STATUS_POSITION 3

/-- A frame of site 5. -/
def lf (dest src type : Nat) (payload : List Byte) : LinkFrame := { dest, src, type, hops := 0, seq := 1, site := 5, ring := 0, payload }

/-- A marker that its master sent in tick 9. -/
def mk1 (flags : Nat) : List Byte := markerBytes { acc := 0, flags, tsrc := 2, mtick := 9, time := 1000 }

/-- A device with a twin. -/
def twinSt (primary : Bool) (st : Nat) : State :=
  (on.wr Fld.TWN_CFG_ENABLE 1 |>.wr Fld.TWN_STATUS_STATE st |>.wr Fld.TWN_PEER_UID_UID 7 |>.wr Fld.SYS_STATUS_SINGLE 1).wrB
    Fld.TWN_STATUS_ROLE primary

/-- The last frame the device sent on the ring. -/
def lastSent (t : State) : Option LinkFrame := t.ring.out.getLast?.bind fun x => linkRead ringMost x.2

theorem wit_RingEnumeration_crc :
    (let s : State := member enSearch
     s.ringOn = true ∧ RingPort.u ∉ s.ring.portDown ∧ frameIs ftDiscover ((lf 3 0 ftDiscover []).bytes.set 19 0) = true ∧
     linkRead ringMost ((lf 3 0 ftDiscover []).bytes.set 19 0) = none ∧
     nextSat (exec (.discover ⟨.u, ((lf 3 0 ftDiscover []).bytes.set 19 0)⟩) s) (fun t => t.rd Fld.CSC_ERR_CRC = 1 && keeps s t [Adr.CSC_ERR]) = true) := by decide +kernel

theorem wit_RingEnumeration_discover :
    (let s : State := member enSearch
     s.ringOn = true ∧ RingPort.u ∉ s.ring.portDown ∧
     linkRead ringMost (lf 3 0 ftDiscover []).bytes = some (lf 3 0 ftDiscover []) ∧ (lf 3 0 ftDiscover []).hops ≠ 8 ∧
     (lf 3 0 ftDiscover []).site = s.rd Fld.CSC_CFG_SITE_ID ∧ (lf 3 0 ftDiscover []).ring = s.ringNo ∧
     (lf 3 0 ftDiscover []).seq ∉ s.seenOf (lf 3 0 ftDiscover []).src ∧ s.isMaster = false ∧
     s.ringMine (lf 3 0 ftDiscover []) = true ∧ s.enum ≠ enOff ∧
     nextSat (exec (.discover ⟨.u, (lf 3 0 ftDiscover []).bytes⟩) s) (fun t => t.ring.out.getLast? = some (none, (s.ringFrame 0 ftJoin s.joinPayload).bytes)) = true) := by decide +kernel

theorem wit_RingEnumeration_foreign :
    (let s : State := ringSt true enRun
     s.ringOn = true ∧ RingPort.u ∉ s.ring.portDown ∧
     linkRead ringMost (lf 3 0 ftDiscover []).bytes = some (lf 3 0 ftDiscover []) ∧ (lf 3 0 ftDiscover []).hops ≠ 8 ∧
     (lf 3 0 ftDiscover []).site = s.rd Fld.CSC_CFG_SITE_ID ∧ (lf 3 0 ftDiscover []).ring = s.ringNo ∧
     (lf 3 0 ftDiscover []).seq ∉ s.seenOf (lf 3 0 ftDiscover []).src ∧ s.isMaster = true ∧ s.enum ≠ enOff ∧
     s.enum ≠ enFault ∧
     nextSat (exec (.discover ⟨.u, (lf 3 0 ftDiscover []).bytes⟩) s) (fun t => t.enum = enFault && t.ring.foreignAt = some s.now) = true) := by decide +kernel

theorem wit_RingEnumeration_join :
    (let s : State := ringSt true enSearch |>.wr Fld.CSC_CFG_EXPECT 0x80
     s.ringOn = true ∧ RingPort.u ∉ s.ring.portDown ∧
     linkRead ringMost (lf 0 0xFF ftJoin (beBytes 8 77 ++ beBytes 1 7 ++ beBytes 1 0)).bytes = some (lf 0 0xFF ftJoin (beBytes 8 77 ++ beBytes 1 7 ++ beBytes 1 0)) ∧
     (lf 0 0xFF ftJoin (beBytes 8 77 ++ beBytes 1 7 ++ beBytes 1 0)).hops ≠ 8 ∧
     (lf 0 0xFF ftJoin (beBytes 8 77 ++ beBytes 1 7 ++ beBytes 1 0)).site = s.rd Fld.CSC_CFG_SITE_ID ∧
     (lf 0 0xFF ftJoin (beBytes 8 77 ++ beBytes 1 7 ++ beBytes 1 0)).ring = s.ringNo ∧
     (lf 0 0xFF ftJoin (beBytes 8 77 ++ beBytes 1 7 ++ beBytes 1 0)).seq ∉ s.seenOf (lf 0 0xFF ftJoin (beBytes 8 77 ++ beBytes 1 7 ++ beBytes 1 0)).src ∧
     s.isMaster = true ∧ s.ringMine (lf 0 0xFF ftJoin (beBytes 8 77 ++ beBytes 1 7 ++ beBytes 1 0)) = true ∧
     s.enum = enSearch ∧ s.rd Fld.CSC_CFG_EXPECT / 2 ^ 7 % 2 = 1 ∧ s.ring.members.lookup 7 = none ∧
     nextSat (exec (.join .u ((lf 0 0xFF ftJoin (beBytes 8 77 ++ beBytes 1 7 ++ beBytes 1 0)).bytes.take 16) (((lf 0 0xFF ftJoin (beBytes 8 77 ++ beBytes 1 7 ++ beBytes 1 0)).bytes.drop 16).take 10) ((lf 0 0xFF ftJoin (beBytes 8 77 ++ beBytes 1 7 ++ beBytes 1 0)).bytes.drop 26)) s) (fun t => t.rd Fld.CSC_STATUS_PRESENT / 2 ^ 7 % 2 = 1 && t.rd Fld.CSC_STATUS_ABSENT / 2 ^ 7 % 2 = 0 &&
       t.ring.members.lookup 7 = some 77 && t.ring.out.getLast? = some (none, (s.ringFrame 7 ftAdmit []).bytes)) = true) := by decide +kernel

theorem wit_RingEnumeration_admit :
    (let s : State := member enSearch
     s.ringOn = true ∧ RingPort.u ∉ s.ring.portDown ∧
     linkRead ringMost (lf 3 0 ftAdmit []).bytes = some (lf 3 0 ftAdmit []) ∧ (lf 3 0 ftAdmit []).hops ≠ 8 ∧
     (lf 3 0 ftAdmit []).site = s.rd Fld.CSC_CFG_SITE_ID ∧ (lf 3 0 ftAdmit []).ring = s.ringNo ∧
     (lf 3 0 ftAdmit []).seq ∉ s.seenOf (lf 3 0 ftAdmit []).src ∧ s.isMember = true ∧
     s.ringMine (lf 3 0 ftAdmit []) = true ∧ s.enum = enSearch ∧
     nextSat (exec (.admitFrame ⟨.u, (lf 3 0 ftAdmit []).bytes⟩) s) (fun t => t.enum = enRun) = true) := by decide +kernel

theorem wit_RingEnumeration_send :
    (let s : State := ringSt true enSearch |>.wr Fld.CSC_CFG_EXPECT 0x82
     s.ringOn = true ∧ s.isMaster = true ∧ s.enum = enSearch ∧
     nextSat (exec .discoverSend s) (fun t => t.ring.out = [(none, (s.ringFrame 1 ftDiscover []).bytes), (none, { s.ringFrame 7 ftDiscover [] with seq := 1 }.bytes)] &&
       t.regs = s.regs) = true) := by decide +kernel

theorem wit_RingEnumeration_end :
    (let s : State := { ringSt true enSearch with ring := { searchAt := 5 } }.wr Fld.CSC_CFG_EXPECT 0x82 |>.wr Fld.CSC_STATUS_PRESENT 2
     s.ringOn = true ∧ s.isMaster = true ∧ s.enum = enSearch ∧ s.followsTwin = false ∧
     nextSat (exec .searchEnd s) (fun t => t.enum = enRun && t.rd Fld.CSC_STATUS_ABSENT = 0x80 && t.rd Fld.CSC_STATUS_ALIGN = alAligned && t.now = 155) = true) := by decide +kernel

theorem wit_RingEnumeration_retry :
    (let s : State := member enSearch
     s.ringOn = true ∧ s.isMember = true ∧ s.enum = enSearch ∧
     nextSat (exec .joinRetry s) (fun t => t.ring.out.getLast? = some (none, (s.ringFrame 0 ftJoin s.joinPayload).bytes) && t.regs = s.regs) = true) := by decide +kernel

theorem wit_RingEnumeration_absent :
    (let s : State := { ringSt true enRun with ring := { heard := [(7, 2)] }, core := { on.core with ticks := 5 } }.wr Fld.CSC_STATUS_PRESENT 0x80
     s.isMaster = true ∧ s.rd Fld.CSC_STATUS_PRESENT / 2 ^ 7 % 2 = 1 ∧ s.ring.heard.lookup 7 = some 2 ∧
     2 + 3 ≤ s.core.ticks ∧
     nextSat (exec (.memberAbsentTimeout 7) s) (fun t => t.rd Fld.CSC_STATUS_ABSENT / 2 ^ 7 % 2 = 1) = true) := by decide +kernel

theorem wit_RingEnumeration_heard :
    (let s : State := { ringSt true enRun with ring := { heard := [(7, 3)] }, core := { on.core with ticks := 5 } }.wr Fld.CSC_STATUS_PRESENT 0x80
     s.isMaster = true ∧ s.rd Fld.CSC_STATUS_PRESENT / 2 ^ 7 % 2 = 1 ∧ s.ring.heard.lookup 7 = some 3 ∧
     s.core.ticks < 3 + 3 ∧ nextSat (exec (.memberAbsentTimeout 7) s) (fun t => t = s) = true) := by decide +kernel

theorem wit_RingEnumeration_fault :
    (let s : State := { ringSt true enFault with ring := { foreignAt := some 9 } }
     s.isMaster = true ∧ s.enum = enFault ∧ s.ring.foreignAt = some 9 ∧
     nextSat (exec .ringFaultTimeout s) (fun t => t.enum = enSearch && t.now = 10009) = true) := by decide +kernel

theorem wit_RingEnumeration_down :
    (let s : State := { ringSt true enRun with ring := { portDown := [.u] } }.wr Fld.CSC_STATUS_PRESENT 0x81
     s.isMaster = true ∧ otherPort .d ∈ s.ring.portDown ∧ s.rd Fld.CSC_STATUS_PRESENT / 2 ^ 7 % 2 = 1 ∧
     nextSat (exec (.nirairPortDown .d) s) (fun t => t.ring.portDown.contains .d && t.rd Fld.CSC_STATUS_ABSENT / 2 ^ 7 % 2 = 1) = true) := by decide +kernel

theorem wit_RingEnumeration_lock :
    (let s : State := { ringSt true enRun with ring := { portDown := [.u, .d] } }
     s.ring.portDown = [.u, .d] ∧
     nextSat (exec (.nirairSymbolLock .d) s) (fun t => t.ring.portDown = [.u] && t.regs = s.regs) = true) := by decide +kernel

theorem wit_RingTime_second :
    (let s : State := { member enRun with now := 5 }.wr Fld.SYS_EPOCH_EPOCH 77
     s.ringOn = true ∧ RingPort.u ∉ s.ring.portDown ∧
     linkRead ringMost (lf 0xFF 0 ftMarker (mk1 1)).bytes = some (lf 0xFF 0 ftMarker (mk1 1)) ∧
     (lf 0xFF 0 ftMarker (mk1 1)).hops ≠ 8 ∧ (lf 0xFF 0 ftMarker (mk1 1)).site = s.rd Fld.CSC_CFG_SITE_ID ∧
     (lf 0xFF 0 ftMarker (mk1 1)).ring = s.ringNo ∧
     (lf 0xFF 0 ftMarker (mk1 1)).seq ∉ s.seenOf (lf 0xFF 0 ftMarker (mk1 1)).src ∧
     (lf 0xFF 0 ftMarker (mk1 1)).payload.length = 20 ∧ s.isMember = true ∧ s.enum = enRun ∧ s.followsTwin = false ∧
     s.ring.usedMarker ≠ some 1 ∧
     (s.noteMarker .u (lf 0xFF 0 ftMarker (mk1 1))).betterCopy .u (lf 0xFF 0 ftMarker (mk1 1)) = false ∧
     (markerRead (mk1 1)).second = true ∧ s.rd Fld.CSC_STATUS_ALIGN = alNone) := by decide +kernel

theorem wit_RingTime_forward :
    (let s : State := member enRun
     s.ringOn = true ∧ RingPort.u ∉ s.ring.portDown ∧
     linkRead ringMost (lf 0xFF 0 ftMarker (mk1 1)).bytes = some (lf 0xFF 0 ftMarker (mk1 1)) ∧
     (lf 0xFF 0 ftMarker (mk1 1)).hops ≠ 8 ∧ (lf 0xFF 0 ftMarker (mk1 1)).site = s.rd Fld.CSC_CFG_SITE_ID ∧
     (lf 0xFF 0 ftMarker (mk1 1)).ring = s.ringNo ∧
     (lf 0xFF 0 ftMarker (mk1 1)).seq ∉ s.seenOf (lf 0xFF 0 ftMarker (mk1 1)).src ∧
     (lf 0xFF 0 ftMarker (mk1 1)).dest ≠ s.position) := by decide +kernel

theorem wit_RingTime_lost :
    (let s : State := { member enRun with ring := { bad := 3 } }.wr Fld.CSC_STATUS_ALIGN alAligned |>.wr Fld.SYS_TIME_EPOCH_ALIGNED 1
     s.ringOn = true ∧ RingPort.u ∉ s.ring.portDown ∧
     linkRead ringMost (lf 0xFF 0 ftMarker (mk1 0)).bytes = some (lf 0xFF 0 ftMarker (mk1 0)) ∧
     (lf 0xFF 0 ftMarker (mk1 0)).hops ≠ 8 ∧ (lf 0xFF 0 ftMarker (mk1 0)).site = s.rd Fld.CSC_CFG_SITE_ID ∧
     (lf 0xFF 0 ftMarker (mk1 0)).ring = s.ringNo ∧
     (lf 0xFF 0 ftMarker (mk1 0)).seq ∉ s.seenOf (lf 0xFF 0 ftMarker (mk1 0)).src ∧ s.isMember = true ∧ s.enum = enRun ∧
     s.followsTwin = false ∧ s.ring.usedMarker ≠ some 1 ∧
     (s.noteMarker .u (lf 0xFF 0 ftMarker (mk1 0))).betterCopy .u (lf 0xFF 0 ftMarker (mk1 0)) = false ∧
     (markerRead (mk1 0)).second = false ∧ s.rd Fld.CSC_STATUS_ALIGN = alAligned ∧ s.ring.bad = 3 ∧
     800 < (markerPhase (-801) 0 (s.hopDelay .u)).natAbs) := by decide +kernel

theorem wit_RingTime_send :
    (let s : State := ringSt true enRun |>.wr Fld.AQ_STATUS_RUN 1
     s.flag Fld.AQ_STATUS_RUN = true ∧ s.nextMarker < s.nextBoundary ∧ s.ringOn = true ∧ s.isMaster = true ∧
     s.enum = enRun) := by decide +kernel

theorem wit_RingTime_wait :
    (let s : State := { ringSt true enRun with ring := { sentAt := some 1023999 } }.wr Fld.AQ_STATUS_RUN 1
     s.nextBoundary ≤ s.nextMarker ∧ nextSat (exec .markerSend s) (fun t => t = s) = true) := by decide +kernel

theorem wit_RingTime_holdover :
    (let s : State := { member enRun with ring := { markerAt := 3 } }.wr Fld.CSC_STATUS_ALIGN alAligned
     (s.isMember || s.followsTwin) = true ∧ s.rd Fld.CSC_STATUS_ALIGN = alAligned ∧
     nextSat (exec .holdover s) (fun t => t.now = 19 && t.rd Fld.CSC_STATUS_ALIGN = alHoldover && keeps s t [Adr.CSC_STATUS]) = true) := by decide +kernel

theorem test_masterTimeTimeout :
    nextSat (exec .masterTimeTimeout { member enRun with ring := { master := some (9, 2, 0) } }) (fun t =>
      t.masterTime = none) = true := by decide +kernel

theorem wit_RingTime_hop :
    (let s : State := ringSt true enRun
     s.ringOn = true ∧ nextSat (exec .hopDelayMeasure s) (fun t => t.ring.out.length = 2 && t.regs = s.regs) = true) := by decide +kernel

theorem wit_RingTime_ask :
    (let s : State := ringSt true enRun
     s.ringOn = true ∧ RingPort.d ∉ s.ring.portDown ∧
     linkRead ringMost (lf 0xFF 1 ftDelayReq []).bytes = some (lf 0xFF 1 ftDelayReq []) ∧
     (lf 0xFF 1 ftDelayReq []).hops ≠ 8 ∧ (lf 0xFF 1 ftDelayReq []).site = s.rd Fld.CSC_CFG_SITE_ID ∧
     (lf 0xFF 1 ftDelayReq []).ring = s.ringNo ∧ s.position = 0) := by decide +kernel

theorem wit_RingTime_askTwin :
    (let s : State := twinSt true twWait
     s.linkOn .twin = true ∧ linkRead twinMost (lf 0 0 ftTwinDelayReq []).bytes = some (lf 0 0 ftTwinDelayReq [])) := by decide +kernel

theorem wit_RingTime_answer :
    (let s : State := { ringSt true enRun with ring := { hopU := List.replicate 16 10 } }
     s.ringOn = true ∧ RingPort.u ∉ s.ring.portDown ∧
     linkRead ringMost (lf 0xFF 1 ftDelayResp (beBytes 4 47)).bytes = some (lf 0xFF 1 ftDelayResp (beBytes 4 47)) ∧
     (lf 0xFF 1 ftDelayResp (beBytes 4 47)).hops ≠ 8 ∧
     (lf 0xFF 1 ftDelayResp (beBytes 4 47)).site = s.rd Fld.CSC_CFG_SITE_ID ∧
     (lf 0xFF 1 ftDelayResp (beBytes 4 47)).ring = s.ringNo ∧ s.position = 0 ∧
     nextSat (exec (.delayResp .u (lf 0xFF 1 ftDelayResp (beBytes 4 47)).bytes 0xFFFFFFFF 102) s) (fun t => t.rd Fld.CSC_HOP_HOP_U = (15 * 10 + 26) / 16 && keeps s t [Adr.CSC_HOP]) = true) := by decide +kernel

theorem wit_RingTime_answerTwin :
    (let s : State := twinSt true twWait
     s.linkOn .twin = true ∧
     linkRead twinMost (lf 0 0 ftTwinDelayResp (beBytes 4 48)).bytes = some (lf 0 0 ftTwinDelayResp (beBytes 4 48)) ∧
     nextSat (exec (.delayResp .twin (lf 0 0 ftTwinDelayResp (beBytes 4 48)).bytes 7 107) s) (fun t => t.twin.hops = [26] && t.regs = s.regs) = true) := by decide +kernel

/-- A contribution of 11 energies in master tick 9. -/
def con1 : List Byte :=
  beBytes 4 9 ++ beBytes 1 1 ++ beBytes 3 0 ++ (List.replicate 11 3 ++ List.replicate 11 30).flatMap (beBytes 8)

theorem con1_read : linkRead ringMost (lf 0 3 ftContrib con1).bytes = some (lf 0 3 ftContrib con1) := by
  simp only [linkRead, LinkFrame.bytes, crc32, ← foldStrict_eq]
  decide +kernel

theorem wit_SiteContributions_take :
    (let s : State := { ringSt true enRun with ring := { lastContrib := [(3, 8)], members := [(3, 77)] }, led := { on.led with com := { st := { siteUid := [(3, 77)] } } } }.wr Fld.CSC_STATUS_PRESENT 8
     s.ringOn = true ∧ RingPort.u ∉ s.ring.portDown ∧ (lf 0 3 ftContrib con1).hops ≠ 8 ∧
     (lf 0 3 ftContrib con1).site = s.rd Fld.CSC_CFG_SITE_ID ∧ (lf 0 3 ftContrib con1).ring = s.ringNo ∧
     (lf 0 3 ftContrib con1).seq ∉ s.seenOf (lf 0 3 ftContrib con1).src ∧ con1.length = 184 ∧ s.isMaster = true ∧
     s.ringMine (lf 0 3 ftContrib con1) = true ∧ s.enum = enRun ∧ s.rd Fld.CSC_STATUS_PRESENT / 2 ^ 3 % 2 = 1 ∧
     s.led.frozen = false ∧ (s.ring.lastContrib.lookup 3).map (· + 1) = some (contribRead con1).mtick ∧
     s.ring.foldedTick < (contribRead con1).mtick ∧ s.lastUid 3 = s.ring.members.lookup 3) := by decide +kernel

theorem wit_SiteContributions_ack :
    (let s : State := member enRun
     s.ringOn = true ∧ RingPort.u ∉ s.ring.portDown ∧
     linkRead ringMost (lf 3 0 ftContribAck []).bytes = some (lf 3 0 ftContribAck []) ∧
     (lf 3 0 ftContribAck []).hops ≠ 8 ∧ (lf 3 0 ftContribAck []).site = s.rd Fld.CSC_CFG_SITE_ID ∧
     (lf 3 0 ftContribAck []).ring = s.ringNo ∧ (lf 3 0 ftContribAck []).seq ∉ s.seenOf (lf 3 0 ftContribAck []).src ∧
     s.position = 3 ∧
     nextSat (exec (.contribAck ⟨.u, (lf 3 0 ftContribAck []).bytes⟩) s) (fun t => (t.seenOf 0).contains 1 && t.led = s.led) = true) := by decide +kernel

/-- A HELLO: UID, TWN_ROLE, POSITION 0, SITE_ID 0, STATE. -/
def hello1 (uid role st : Nat) : LinkFrame :=
  lf 0 0 ftHello (beBytes 8 uid ++ beBytes 1 role ++ beBytes 1 0 ++ beBytes 2 0 ++ beBytes 1 st)

/-- A DELTA of a pair tick: bay 0 enabled, with 1 and 2 Wh, the others disabled. -/
def delta1 (k : Nat) : LinkFrame :=
  lf 0 0 ftDelta (deltaBytes k ({ imp := 1, exp := 2, flags := 8 } :: List.replicate 15 { imp := 0, exp := 0, flags := 0 }))

theorem delta1_read : linkRead twinMost (delta1 4).bytes = some (delta1 4) := by
  simp only [linkRead, LinkFrame.bytes, crc32, ← foldStrict_eq]
  decide +kernel

theorem wit_TwinPairing_crc :
    (let s : State := twinSt true twWait
     s.twinOn = true ∧ frameIs ftHello ((hello1 7 0 1).bytes.set 30 9) = true ∧
     linkRead twinMost ((hello1 7 0 1).bytes.set 30 9) = none ∧
     nextSat (exec (.hello (((hello1 7 0 1).bytes.set 30 9).take 16) [] [] [] [] (((hello1 7 0 1).bytes.set 30 9).drop 16)) s) (fun t => t.rd Fld.CSC_ERR_CRC = 1 && keeps s t [Adr.CSC_ERR]) = true) := by decide +kernel

theorem wit_TwinPairing_hello :
    (let s : State := twinSt true twWait
     s.twinOn = true ∧ linkRead twinMost (hello1 7 0 1).bytes = some (hello1 7 0 1) ∧ (hello1 7 0 1).payload.length = 13 ∧
     s.twState = twWait ∧ s.rd Fld.TWN_PEER_UID_UID = 7 ∧ s.rd Fld.CSC_CFG_POSITION = 0 ∧ s.rd Fld.CSC_CFG_SITE_ID = 0 ∧
     s.flag Fld.TWN_STATUS_ROLE = true ∧
     nextSat (exec (.hello ((hello1 7 0 1).bytes.take 16) (((hello1 7 0 1).bytes.drop 16).take 8) (((hello1 7 0 1).bytes.drop 24).take 2) (((hello1 7 0 1).bytes.drop 26).take 2) (((hello1 7 0 1).bytes.drop 28).take 1) ((hello1 7 0 1).bytes.drop 29)) s) (fun t => t.flag Fld.TWN_STATUS_PRESENT && t.rd Fld.TWN_SEEN_UID_UID = 7 && t.twin.helloAt = some 0 &&
       t.twState = twPaired && !t.flag Fld.SYS_STATUS_SINGLE) = true) := by decide +kernel

theorem wit_TwinPairing_secondary :
    (let s : State := twinSt false twWait
     s.twinOn = true ∧ linkRead twinMost (hello1 7 1 1).bytes = some (hello1 7 1 1) ∧ s.twState = twWait ∧
     nextSat (exec (.hello ((hello1 7 1 1).bytes.take 16) (((hello1 7 1 1).bytes.drop 16).take 8) (((hello1 7 1 1).bytes.drop 24).take 2) (((hello1 7 1 1).bytes.drop 26).take 2) (((hello1 7 1 1).bytes.drop 28).take 1) ((hello1 7 1 1).bytes.drop 29)) s) (fun t => t.twState = twPairing) = true) := by decide +kernel

theorem wit_TwinPairing_conflict :
    (let s : State := twinSt false twWait
     s.twinOn = true ∧ linkRead twinMost (hello1 7 0 1).bytes = some (hello1 7 0 1) ∧ s.twState = twWait ∧
     nextSat (exec (.hello ((hello1 7 0 1).bytes.take 16) (((hello1 7 0 1).bytes.drop 16).take 8) (((hello1 7 0 1).bytes.drop 24).take 2) (((hello1 7 0 1).bytes.drop 26).take 2) (((hello1 7 0 1).bytes.drop 28).take 1) ((hello1 7 0 1).bytes.drop 29)) s) (fun t => t.twState = twConflict && t.flag Fld.SYS_STATUS_SINGLE) = true) := by decide +kernel

theorem wit_TwinPairing_second :
    (let s : State := twinSt false twPairing |>.wr Fld.TWN_STATUS_PRESENT 1 |>.wr Fld.SYS_EPOCH_EPOCH 77
     s.twinOn = true ∧ linkRead twinMost (lf 0 0 ftTwinMarker (mk1 1)).bytes = some (lf 0 0 ftTwinMarker (mk1 1)) ∧
     s.followsTwin = true ∧ s.twState = twPairing ∧ (markerRead (mk1 1)).second = true ∧
     s.rd Fld.CSC_STATUS_ALIGN = alNone ∧
     nextSat (exec (.twinMarker (lf 0 0 ftTwinMarker (mk1 1)).bytes 77 4) s) (fun t => t.rd Fld.CSC_STATUS_ALIGN = alAligning && t.base = 77 && t.twState = twPairing) = true) := by decide +kernel

theorem wit_TwinPairing_aligned :
    (let s : State := { twinSt false twPairing with ring := { good := 63 } }.wr Fld.TWN_STATUS_PRESENT 1 |>.wr Fld.CSC_STATUS_ALIGN alAligning
     s.twinOn = true ∧ linkRead twinMost (lf 0 0 ftTwinMarker (mk1 0)).bytes = some (lf 0 0 ftTwinMarker (mk1 0)) ∧
     s.followsTwin = true ∧ s.twState = twPairing ∧ s.rd Fld.CSC_STATUS_ALIGN = alAligning ∧ s.ring.good = 63 ∧
     (markerPhase (-80) 0 s.twinHop).natAbs ≤ 80 ∧
     nextSat (exec (.twinMarker (lf 0 0 ftTwinMarker (mk1 0)).bytes 77 (-80)) s) (fun t => t.rd Fld.CSC_STATUS_ALIGN = alAligned && t.twState = twPaired && !t.flag Fld.SYS_STATUS_SINGLE &&
       t.flag Fld.SYS_TIME_EPOCH_ALIGNED && t.twin.pairedAt = 0) = true) := by decide +kernel

theorem wit_TwinPairing_delta :
    (let s : State := twinSt true twPaired
     s.twinOn = true ∧ (delta1 4).payload.length = 280 ∧ s.twState = twPaired ∧ s.flag Fld.TWN_STATUS_SOLE = false ∧
     s.twin.start < 4 ∧ s.twin.own.lookup 4 = none) := by decide +kernel

theorem wit_TwinPairing_match :
    (let s : State := { twinSt true twPaired with twin := { own := [(4, [⟨5, 6, 8⟩])] } }.wr Fld.TWN_CFG_WIN 9
     s.twinOn = true ∧ s.twState = twPaired ∧ s.flag Fld.TWN_STATUS_SOLE = false ∧ s.twin.start < 4 ∧
     (s.twin.own.lookup 4).isSome = true ∧ 4 ≤ s.windowLast) := by decide +kernel

theorem wit_TwinPairing_old :
    (let s : State := { twinSt true twPaired with twin := { start := 4 } }
     s.twinOn = true ∧ s.twState = twPaired ∧ s.flag Fld.TWN_STATUS_SOLE = false ∧ 4 ≤ s.twin.start) := by decide +kernel

theorem wit_TwinPairing_sole :
    (let s : State := twinSt true twPaired |>.wr Fld.SYS_STATUS_SINGLE 0
     s.twinOn = true ∧ linkRead twinMost (lf 0 0 ftSole []).bytes = some (lf 0 0 ftSole []) ∧ s.chip ≠ chipFrozen ∧
     nextSat (exec (.sole (lf 0 0 ftSole []).bytes) s) (fun t => t.flag Fld.TWN_STATUS_SOLE && t.flag Fld.SYS_STATUS_SINGLE) = true) := by decide +kernel

theorem wit_TwinPairing_lost :
    (let s : State := twinSt true twPaired |>.wr Fld.TWN_STATUS_PRESENT 1
     s.twinOn = true ∧ s.flag Fld.TWN_STATUS_PRESENT = true ∧ s.twState ≠ twOff ∧
     nextSat (exec .twinPresenceLost s) (fun t => !t.flag Fld.TWN_STATUS_PRESENT && t.twState = twWait && t.flag Fld.SYS_STATUS_SINGLE) = true) := by decide +kernel

theorem wit_TwinPairing_window :
    (let s : State := { twinSt true twPaired with core := { on.core with ticks := 10 }, twin := { sums := [(15, { iOwn := 1000000, iPeer := 2000000, usable := 9 })], matched := 8 } }.wr Fld.TWN_CFG_WIN 9
     s.twinOn = true ∧ s.twState = twPaired ∧ s.windowLast ≤ s.committedTick - s.twin.pairedAt ∧
     (storeGet (fun _ => ({} : TwinSums)) s.twin.sums 0).iOwn = 0 ∧
     nextSat (exec .twinWindowEnd s) (fun t => t.rd Fld.TWN_CMP_WINDOWS = 1 && t.rd Fld.TWN_CMP_MISSED = 16 && t.twin.start = 9 &&
       t.rd (Fld.TWN_DEV_IMPORT 0) = 0x8000 && t.twin.sums = []) = true) := by decide +kernel

/-! ### Configuration, flash, domains and panel -/

theorem wit_LiveLoads_load :
    (let s : State := sess on .spi |>.wr Fld.CFG_STATUS_ACTIVE_SLOT 1
     s.core.running = true ∧ s.gate .spi roleService true = .pass theSess ∧ s.cfgBusy = false ∧
     nextSat (exec (.load .spi) s) (fun t => t.ldr.cur.any (fun l => l.slot = 0 && l.live && !l.reset && l.roles = 0x1F) && t.loader = ldRead &&
       keeps s t [Adr.CFG_STATUS]) = true) := by decide +kernel

theorem wit_LiveLoads_reset :
    (let s : State := sess on .drega
     s.core.running = true ∧ s.gate .drega roleService true = .pass theSess ∧ s.cfgBusy = false ∧
     nextSat (exec (.loadReset .drega) s) (fun t => t.ldr.cur.any (fun l => l.slot = 1 && l.live && l.reset) && t.loader = ldRead && keeps s t [Adr.CFG_STATUS]) = true) := by decide +kernel

/-- An image that sets the voltage of bay 15. -/
def im15 : Image := { im0 with regs := [(Adr.BAY_UDIN 15, 0x43660000)], auth := List.replicate 576 0 }

theorem wit_LiveLoads_effect :
    (let s : State := { on with core := { on.core with loaded := true, ticks := 1 }, ldr := { accepted := some im15 } }.setChip chipFull
     s.ldr.accepted = some im15 ∧ s.core.loaded = true ∧ s.core.warned = false ∧ s.ldr.atTick < s.core.ticks ∧
     (Adr.BAY_UDIN 15, 0x43660000) ∈ im15.regs) := by decide +kernel

theorem wit_FlashCommands_read :
    (let s : State := sess on .spi |>.wr Fld.CFG_FL_ADDR_ADDR 0xFFFFFF
     s.core.running = true ∧ s.cfgBusy = false ∧ s.gate .spi roleService false = .pass theSess ∧
     nextSat (exec (.flashRead .spi) s) (fun t => t.ldr.flash = some { cmd := 1, addr := 0xFFFFFF } && t.flag Fld.CFG_FL_CMD_BUSY &&
       keeps s t [Adr.CFG_FL_CMD, Adr.CFG_STATUS]) = true) := by decide +kernel

theorem wit_FlashCommands_program :
    (let s : State := sess on .spi |>.wr Fld.CFG_FL_ADDR_ADDR 0x800100
     s.core.running = true ∧ s.cfgBusy = false ∧ s.gate .spi roleService true = .pass theSess ∧
     s.rd Fld.CFG_FL_ADDR_ADDR / cfgSlotBytes ≠ s.rd Fld.CFG_STATUS_ACTIVE_SLOT ∧ s.rd Fld.CFG_FL_ADDR_ADDR % 256 = 0 ∧
     nextSat (exec (.flashProgram .spi) s) (fun t => t.ldr.flash = some { cmd := 2, addr := 0x800100, data := s.pageBuffer } && t.flag Fld.CFG_FL_CMD_BUSY &&
       keeps s t [Adr.CFG_FL_CMD, Adr.CFG_STATUS]) = true) := by decide +kernel

theorem wit_FlashCommands_erase :
    (let s : State := sess on .spi |>.wr Fld.CFG_FL_ADDR_ADDR 0x801000
     s.core.running = true ∧ s.cfgBusy = false ∧ s.gate .spi roleService true = .pass theSess ∧
     s.rd Fld.CFG_FL_ADDR_ADDR / cfgSlotBytes ≠ s.rd Fld.CFG_STATUS_ACTIVE_SLOT ∧ s.rd Fld.CFG_FL_ADDR_ADDR % 4096 = 0 ∧
     nextSat (exec (.flashErase .spi) s) (fun t => t.ldr.flash = some { cmd := 3, addr := 0x801000 } && t.flag Fld.CFG_FL_CMD_BUSY &&
       keeps s t [Adr.CFG_FL_CMD, Adr.CFG_STATUS]) = true) := by decide +kernel

theorem wit_FlashCommands_readDone :
    (let s : State := { on with flash := { cells := [(0x1FF, 5)] }, ldr := { flash := some { cmd := 1, addr := 0x1FF } } }
     s.ldr.flash = some { cmd := 1, addr := 0x1FF } ∧
     nextSat (exec (.flashCmdDone false) s) (fun t => t.ldr.flash = none && !t.flag Fld.CFG_FL_CMD_BUSY && t.rd Fld.CFG_FL_CMD_RESULT = 1 && t.flash = s.flash &&
       t.pageBuffer = List.replicate 255 0xFF ++ [5]) = true) := by decide +kernel

theorem wit_FlashCommands_programDone :
    (let s : State := { on with flash := { cells := [(0x800000, 7), (0x800001, 7), (0x800300, 5)] }, ldr := { flash := some { cmd := 2, addr := 0x800000, data := [1, 0xFF] } } }
     s.ldr.flash = some { cmd := 2, addr := 0x800000, data := [1, 0xFF] } ∧
     nextSat (exec (.flashCmdDone false) s) (fun t => t.flash.cells = [(0x800000, 1), (0x800300, 5)] && t.rd Fld.CFG_FL_CMD_RESULT = 1) = true) := by decide +kernel

theorem wit_FlashCommands_eraseDone :
    (let s : State := { on with flash := { cells := [(0x800FFF, 7), (0x801000, 7), (0x802000, 5)] }, ldr := { flash := some { cmd := 3, addr := 0x801000 } } }
     s.ldr.flash = some { cmd := 3, addr := 0x801000 }) := by decide +kernel

theorem wit_FlashCommands_failed :
    (let s : State := { on with flash := { cells := [(0x800100, 7)] }, ldr := { flash := some { cmd := 2, addr := 0x800000, data := [1] } } }
     s.ldr.flash = some { cmd := 2, addr := 0x800000, data := [1] }) := by decide +kernel

theorem wit_PowerDomains_on :
    (let s : State := sess on .spi |>.wr Fld.PWR_ON_ON 0
     s.core.running = true ∧ s.gate .spi roleService true = .pass theSess ∧ s.domainOk 16 = true ∧ s.ledgerOk = true ∧
     copyFailed s.str 0 0 = false ∧ copyFailed s.str 0 1 = false ∧ s.core.warned = false ∧ s.led.queue = [] ∧
     s.domainPlan 16 true = .start) := by decide +kernel

theorem wit_PowerDomains_off :
    (let s : State := sess on .spi |>.wr Fld.PWR_ON_ON 0x1FFFF
     s.core.running = true ∧ s.gate .spi roleService true = .pass theSess ∧ s.domainOk 0 = true ∧ s.ledgerOk = true ∧
     copyFailed s.str 0 0 = false ∧ copyFailed s.str 0 1 = false ∧ s.core.warned = false ∧ s.led.queue = [] ∧
     s.domainPlan 0 false = .start) := by decide +kernel

theorem wit_PowerDomains_drain :
    (let s : State := { on with pwr := { down := [16] } }
     (16 : Fin 17) ∈ s.pwr.down ∧ (16 : Fin 17) ∉ s.pwr.isolated ∧
     nextSat (exec (.domainDrainDone 16) s) (fun t => t.pwr = { s.pwr with isolated := [16] } && t.led.com = s.led.com) = true) := by decide +kernel

theorem wit_PowerDomains_offDone :
    (let s : State := { on with pwr := { down := [16], isolated := [16] } }.wr Fld.PWR_ON_ON 0x1FFFF |>.wr Fld.PWR_BUSY_DOMAINS 0x10000
     (16 : Fin 17) ∈ s.pwr.isolated ∧ s.rd Fld.PWR_PEND_DOMAINS / 2 ^ 16 % 2 = 0 ∧
     nextSat (exec (.domainOffDone 16) s) (fun t => t.rd Fld.PWR_ON_ON = 0xFFFF && t.rd Fld.PWR_BUSY_DOMAINS = 0 && t.pwr.down = [] && t.pwr.isolated = []) = true) := by decide +kernel

theorem wit_PowerDomains_onDone :
    (let s : State := { on with pwr := { up := [0] } }.wr Fld.PWR_ON_ON 0 |>.wr Fld.PWR_BUSY_DOMAINS 1
     (0 : Fin 17) ∈ s.pwr.up ∧ (0 : Fin 17) ∉ s.pwr.offAfter ∧
     nextSat (exec (.domainOnDone 0) s) (fun t => t.rd Fld.PWR_ON_ON = 1 && t.rd Fld.PWR_BUSY_DOMAINS = 0 && t.pwr.up = []) = true) := by decide +kernel

/-- A panel that scans, with window 7 enabled. -/
def panelSt : State := lit.wr (Fld.PNL_WIN_CFG_ENABLE 7) 1 |>.wr (Fld.PNL_WIN_CFG_WIDTH 7) 16 |>.wr Fld.PNL_STATUS_STATE pnScan

theorem wit_PanelShows_req :
    (let s : State := panelSt
     s.core.running = true ∧ s.panelOn = true ∧ s.core.warned = false ∧ (0x80 : BitVec 8).getLsbD 7 = true ∧
     s.flag (Fld.PNL_WIN_CFG_ENABLE 7) = true ∧ s.rd (Fld.PNL_WIN_STAT_ERR 7) ≠ 1 ∧
     nextSat (exec (.panelReq .spi 0x80) s) (fun t => t.flag (Fld.PNL_WIN_STAT_PENDING 7) && t.rd Fld.PNL_STATUS_PENDING = 0x80 && t.panel = s.panel) = true) := by decide +kernel

theorem wit_PanelShows_start :
    (let s : State := panelSt.wr (Fld.PNL_WIN_STAT_PENDING 7) 1 |>.wr Fld.PNL_STATUS_PENDING 0x80
     s.core.running = true ∧ s.panelOn = true ∧ s.panel.cur = none ∧ s.rd Fld.PNL_STATUS_STATE ≠ pnPf ∧
     (List.range 8).find? (fun w => s.flag (Fld.PNL_WIN_STAT_PENDING w)) = some 7 ∧
     nextSat (exec .panelUpdateStart s) (fun t => t.panel = { s.panel with cur := some (7, s.winSource 7) } && !t.flag (Fld.PNL_WIN_STAT_PENDING 7) &&
       t.flag (Fld.PNL_WIN_STAT_UPDATING 7) && t.rd Fld.PNL_STATUS_CUR_WIN = 7 &&
       keeps s t [Adr.PNL_STATUS, Adr.PNL_WIN_STAT 7]) = true) := by decide +kernel

theorem wit_PanelShows_done :
    (let s : State := { panelSt with panel := { cur := some (7, 0x41 * 2 ^ 120) } }
     s.core.running = true ∧ s.panel.cur = some (7, 0x41 * 2 ^ 120) ∧
     (List.range 8).all (fun v => !s.flag (Fld.PNL_WIN_STAT_PENDING v)) = true ∧
     nextSat (exec .panelUpdateDone s) (fun t => t.panel.cur = none && t.panel.rendered && t.panel.hidden.take 2 = [0x41, 0x20] && t.panel.shown = s.panel.shown &&
       t.rd (Fld.PNL_WIN_STAT_UPDATES 7) = 1 && t.rd (Fld.PNL_WIN_STAT_ERR 7) = 0) = true) := by decide +kernel

theorem wit_PanelShows_frame :
    (let s : State := { panelSt with panel := { hidden := List.replicate 48 0x41, rendered := true } }
     s.core.running = true ∧ s.rd Fld.PNL_STATUS_STATE = pnScan ∧ s.flag Fld.PNL_STATUS_VPNL_LOW = false ∧
     timingOk (s.word Adr.PNL_TIMING) = true ∧
     nextSat (exec .panelFrameStart s) (fun t => t.panel.shown = s.panel.hidden && !t.panel.rendered && t.rd Fld.PNL_STATUS_STATE = pnScan &&
       keeps s t [Adr.PNL_STATUS]) = true) := by decide +kernel

theorem wit_PanelShows_next :
    (let s : State := { panelSt with panel := { cur := some (7, 0x41 * 2 ^ 120) } }.wr (Fld.PNL_WIN_STAT_PENDING 5) 1
     s.core.running = true ∧ s.panel.cur = some (7, 0x41 * 2 ^ 120) ∧ s.panelOn = true ∧
     s.rd Fld.PNL_STATUS_STATE ≠ pnPf ∧ (List.range 8).find? (fun w => s.flag (Fld.PNL_WIN_STAT_PENDING w)) = some 5 ∧
     nextSat (exec .panelUpdateDone s) (fun t => t.panel.rendered && t.panel.cur.any fun x => x.1 = 5) = true) := by decide +kernel

theorem wit_PanelShows_low :
    (let s : State := panelSt
     s.core.running = true ∧ s.domOn 16 = true ∧ s.flag Fld.PNL_STATUS_VPNL_LOW = false ∧
     nextSat (exec .panelVpnlLow s) (fun t => t.flag Fld.PNL_STATUS_VPNL_LOW && t.rd Fld.PNL_STATUS_STATE = pnVpnl && t.panel = s.panel) = true) := by decide +kernel

theorem wit_PanelShows_ok :
    (let s : State := panelSt.wr Fld.PNL_STATUS_VPNL_LOW 1 |>.wr Fld.PNL_STATUS_STATE pnVpnl
     s.core.running = true ∧ s.flag Fld.PNL_STATUS_VPNL_LOW = true ∧
     nextSat (exec .panelVpnlOk s) (fun t => !t.flag Fld.PNL_STATUS_VPNL_LOW && t.rd Fld.PNL_STATUS_STATE = pnVpnl && t.panel = s.panel) = true) := by decide +kernel

theorem wit_PanelShows_crack :
    (let s : State := { panelSt with core := { panelSt.core with ready := true }, panel := { crack := 1, crackAt := some 5 } }.wr Fld.PNL_CRACK_CFG_ENABLE 1 |>.wr Fld.PNL_CRACK_CFG_RHI 1000 |>.wr Fld.PNL_CRACK_CFG_RLO 1
     s.core.running = true ∧ s.core.ready = true ∧ s.flag Fld.PNL_CRACK_CFG_ENABLE = true ∧ s.underTest 31 = false ∧
     s.crackWrong = false ∧ s.crackReading 10001 = s.panel.crack ∧ s.crackReading 10001 ≠ 0) := by decide +kernel

theorem wit_PanelShows_crackOk :
    (let s : State := { panelSt with core := { panelSt.core with ready := true }, tmp := { cond := [31] } }.wr Fld.PNL_CRACK_CFG_ENABLE 1 |>.wr Fld.PNL_CRACK_CFG_RHI 1000 |>.wr Fld.PNL_CRACK_CFG_RLO 1
     s.core.running = true ∧ s.core.ready = true ∧ s.flag Fld.PNL_CRACK_CFG_ENABLE = true ∧ s.underTest 31 = false ∧
     s.crackWrong = false ∧ s.crackReading 500 = 0 ∧
     nextSat (exec (.crackMeasure 500) s) (fun t => t.panel.crack = 0 && t.tmp.cond = [] && t.panel.crackAt = some 0) = true) := by decide +kernel

/-! ### The host port -/

theorem wit_RegisterWrites_open : (let s : State := on.setWord Adr.SYS_IRQ_STAT 0xFF
    s.core.running = true ∧ s.absent Adr.SYS_IRQ_STAT = false ∧ (regShape Adr.SYS_IRQ_STAT).isSome = true ∧
    writerAt Adr.SYS_IRQ_STAT = none ∧ (findReg Adr.SYS_IRQ_STAT).any (fun x => x.1.cls = .open_) = true ∧
    pathHeld Adr.SYS_IRQ_STAT = false ∧
    nextSat (exec (.registerWrite .spi (BitVec.ofNat 32 Adr.SYS_IRQ_STAT) 0x11) s) (fun t =>
      t.word Adr.SYS_IRQ_STAT = 0xEE) = true) := by decide +kernel

theorem wit_RegisterWrites_image : (let s : State := on
    s.core.running = true ∧ s.absent (Adr.BAY_UDIN 15) = false ∧ (regShape (Adr.BAY_UDIN 15)).isSome = true ∧
    writerAt (Adr.BAY_UDIN 15) = none ∧ (findReg (Adr.BAY_UDIN 15)).any (fun x => x.1.cls = .image) = true ∧
    nextSat (exec (.registerWrite .spi (BitVec.ofNat 32 (Adr.BAY_UDIN 15)) 5) s) (fun t => t = s) = true) := by decide +kernel

theorem wit_RegisterWrites_sealed : (let s : State := on
    s.core.running = true ∧ s.absent Fld.CFG_FL_ADDR_ADDR.addr = false ∧ (regShape Fld.CFG_FL_ADDR_ADDR.addr).isSome = true ∧
    writerAt Fld.CFG_FL_ADDR_ADDR.addr = none ∧ (findReg Fld.CFG_FL_ADDR_ADDR.addr).any (fun x => x.1.cls = .sealed) = true ∧
    s.session .spi = none ∧
    nextSat (exec (.registerWrite .spi (BitVec.ofNat 32 Fld.CFG_FL_ADDR_ADDR.addr) 5) s) (fun t => t = s) = true) := by decide +kernel

theorem wit_HostFrames_hcrc :
    (let s : State := on
     s.core.running = true ∧ crc8 (hpHeader hpRead 0 1) ≠ 0 ∧
     nextSat (exec (.read 0 1 0) s) (fun t => t.spiOut = [4, crc8 [4]] && t.rd Fld.SYS_HOST_ERR_HCRC = 1 && keeps s t [Adr.SYS_HOST_ERR]) = true) := by decide +kernel

theorem wit_HostFrames_read :
    (let s : State := on
     s.core.running = true ∧ crc8 (hpHeader hpRead 0xFFFFF8 2) = crc8 [1, 0, 0xFF, 0xFF, 0xF8, 0, 2] ∧
     hpFrameOk hpRead 0xFFFFF8 2 = true ∧
     nextSat (exec (.read 0xFFFFF8 2 (crc8 [1, 0, 0xFF, 0xFF, 0xF8, 0, 2])) s) (fun t => t.spiOut.length = 10 && t.spiOut.head? = some 0) = true) := by decide +kernel

theorem wit_HostFrames_readFixed :
    (let s : State := on
     s.core.running = true ∧ crc8 (hpHeader hpReadFixed 0xFFFFFC 2) = crc8 [3, 0, 0xFF, 0xFF, 0xFC, 0, 2] ∧
     hpFrameOk hpReadFixed 0xFFFFFC 2 = true ∧
     nextSat (exec (.readFixed 0xFFFFFC 2 (crc8 [3, 0, 0xFF, 0xFF, 0xFC, 0, 2])) s) (fun t => t.spiOut.length = 10 && t.spiOut.head? = some 0) = true) := by decide +kernel

/-- The address of SYS_IRQ_EN. -/
def irqEn : BitVec 32 := BitVec.ofNat 32 Adr.SYS_IRQ_EN

theorem wit_HostFrames_dcrc :
    (let s : State := on
     s.core.running = true ∧ hpFrameOk hpWrite irqEn 1 = true ∧ [(5 : Word)].length = (1 : BitVec 16).toNat ∧
     crc8 ([(5 : Word)].flatMap wordBytes) ≠ 0 ∧
     nextSat (exec (.write irqEn 1 (crc8 (hpHeader hpWrite irqEn 1)) [5] 0) s) (fun t => t.spiOut = [5, 0, 0, crc8 [5, 0, 0]] && t.rd Fld.SYS_HOST_LAST_STATUS = 5 && t.word Adr.SYS_IRQ_EN = 0 &&
       keeps s t [Adr.SYS_HOST_ERR, Adr.SYS_HOST_LAST]) = true) := by decide +kernel

theorem wit_HostFrames_write :
    (let s : State := on
     s.core.running = true ∧ hpFrameOk hpWrite irqEn 1 = true ∧ (s.writeWords .spi false irqEn.toNat [5]).1 = .ok ∧
     nextSat (exec (.write irqEn 1 (crc8 (hpHeader hpWrite irqEn 1)) [5] (crc8 ([(5 : Word)].flatMap wordBytes))) s) (fun t => t.spiOut.take 3 = 0 :: beBytes 2 1 && t.rd Fld.SYS_HOST_LAST_APPLIED = 1 && t.rd Fld.SYS_HOST_LAST_CMD = 2 &&
       t.word Adr.SYS_IRQ_EN = 5) = true) := by decide +kernel

theorem wit_HostFrames_writeFixed :
    (let s : State := on
     s.core.running = true ∧ hpFrameOk hpWriteFixed irqEn 2 = true ∧ (s.writeWords .spi true irqEn.toNat [5, 9]).1 = .ok ∧
     nextSat (exec (.writeFixed irqEn 2 (crc8 (hpHeader hpWriteFixed irqEn 2)) [5, 9] (crc8 ([(5 : Word), 9].flatMap wordBytes))) s) (fun t => t.spiOut.take 3 = 0 :: beBytes 2 2 && t.rd Fld.SYS_HOST_LAST_APPLIED = 2 && t.rd Fld.SYS_HOST_LAST_CMD = 4 &&
       t.word Adr.SYS_IRQ_EN = 9) = true) := by decide +kernel

theorem wit_HostFrames_abandoned :
    (let s : State := { on with spiOut := [1] }
     s.core.running = true ∧
     nextSat (exec (.frameAbandoned .beforeCrc) s) (fun t => t.spiOut = [] && t.rd Fld.SYS_HOST_ERR_ABORTED = 1 && keeps s t [Adr.SYS_HOST_ERR]) = true) := by decide +kernel

/-! ### The whole machine -/

theorem wit_QueueUntouched :
    (let s : State := { on with pending := [.brownout] }
     s.pending = [.brownout] ∧ nextSat (exec .supplyToBat s) (fun t => t.pending = [.brownout]) = true) := by decide +kernel

theorem wit_FlashKept :
    (let s : State := { on with flash := { cells := [(3, 4)] } }
     s.ldr.flash = none ∧ nextSat (exec .brownout s) (fun t => t.flash = s.flash) = true) := by decide +kernel

theorem wit_FusesKept :
    (let s : State := { on with fuses := { uid := 9, lsg := 3 } }
     s.fuses.lsg = 3 ∧ nextSat (exec .brownout s) (fun t => t.fuses = s.fuses) = true) := by decide +kernel

/-- A grant to ports 0 to 3 of weights 3, 1, 2 and 1, all requesting throughout (the example of R28). -/
def grantNext (a : RegionArbiter) : Nat × RegionArbiter := (a.grant [3, 1, 2, 1, 1, 1, 1, 1] fun i => i < 4).getD (9, a)

theorem test_arbiter_round : (let a0 : RegionArbiter := { credit := [3, 1, 2, 1], last := 3 }
    let (g1, a1) := grantNext a0
    let (g2, a2) := grantNext a1
    let (g3, a3) := grantNext a2
    let (g4, a4) := grantNext a3
    let (g5, a5) := grantNext a4
    let (g6, a6) := grantNext a5
    [g1, g2, g3, g4, g5, g6, (grantNext a6).1] = [0, 1, 2, 3, 0, 2, 0]) := by decide +kernel

theorem test_slew_carries : (let t := carryTime 1 1 2 ({ valid := true, time := 50, phase := 200, slewed := 999 } : LedState)
    t.time = 52 ∧ t.phase = -799 ∧ t.slewed = 0) := by decide +kernel

end Sys2Proof.Tests
end

section
/-!
Registers as the statements speak of them: a state that differs from another in registers alone, and words that keep their
value through writes of other words.
-/

namespace Sys2Proof.Machine
variable {s t : State} {l : List Nat}

/-! ### Nothing but registers differs -/

/-- The first half of `State.onlyWords`. -/
def State.regsOnly (s t : State) : Prop := t = { s with regs := t.regs }

theorem State.regsOnly.refl (s : State) : s.regsOnly s := rfl

theorem State.regsOnly.withRegs {r} (h : s.regsOnly t) : s.regsOnly { t with regs := r } := by
  change ({ t with regs := r } : State) = { s with regs := r }
  rw [h]

theorem State.regsOnly.wr {f v} (h : s.regsOnly t) : s.regsOnly (t.wr f v) := h.withRegs

theorem State.regsOnly.wrB {f b} (h : s.regsOnly t) : s.regsOnly (t.wrB f b) := h.wr

theorem State.regsOnly.setWord {a w} (h : s.regsOnly t) : s.regsOnly (t.setWord a w) := h.withRegs

/-- The calendar is kept in registers. -/
theorem State.regsOnly.setRtc (h : s.regsOnly t) {n : Nat} : s.regsOnly (t.setRtc n) := by
  unfold State.setRtc
  exact .wr (.wr (.wr (.wr (.wr (.wr (.wr h))))))

/-! ### Words that keep their value -/

/-- A write of a field of one word leaves every other word alone. -/
theorem State.word_wr_ne {f : Field} {v a : Nat} (hf : f.words = 1) (ha : a ≠ f.addr) : (s.wr f v).word a = s.word a := by
  unfold State.wr State.word
  rw [hf]
  exact storeGet_storeSet_other ha

theorem State.flag_wrB_apart {f g : Field} {b : Bool} (h : f.apart g = true) : (s.wrB f b).flag g = s.flag g := by
  unfold State.flag
  rw [State.rd_wrB_apart _ _ h]

/-- The words are those of the register store. -/
theorem State.keepsWords.of_regs (h : t.regs = s.regs) : s.keepsWords t l := fun _ _ => by
  unfold State.word
  rw [h]

theorem State.keepsWords.wr {f : Field} {v : Nat} (h : s.keepsWords t l) (hf : f.words = 1 := by decide)
    (hl : f.addr ∈ l := by decide) : s.keepsWords (t.wr f v) l := fun a ha => by
  rw [State.word_wr_ne hf (ne_of_mem_of_not_mem hl ha).symm, h a ha]

theorem State.keepsWords.wrB {f : Field} {b : Bool} (h : s.keepsWords t l) (hf : f.words = 1 := by decide)
    (hl : f.addr ∈ l := by decide) : s.keepsWords (t.wrB f b) l := State.keepsWords.wr h hf hl

theorem State.keepsWords.setWord {a : Nat} {w : Word} (h : s.keepsWords t l) (hl : a ∈ l) :
    s.keepsWords (t.setWord a w) l := fun b hb => by
  rw [State.word_setWord_other _ _ (ne_of_mem_of_not_mem hl hb).symm, h b hb]

/-! ### An RTC halt that is abandoned -/

theorem State.endHalt_regsOnly {n : Nat} :
    State.regsOnly { s with bk := { s.bk with haltBy := none, held := [] } } (s.endHalt n) := by
  unfold State.endHalt
  exact .wrB (.wrB (.setRtc (.refl _)))

/-- An RTC halt is abandoned in registers and Bedrock's state alone, and one event is raised (R342). -/
theorem State.rtcAbandon_cases (s : State) : s.rtcAbandon = s ∨
    ∃ t, State.regsOnly { s with bk := { s.bk with haltBy := none, held := [] } } t ∧
      s.rtcAbandon = t.raise evRtcSetRefused s.haltPath (beBytes 1 8) := by
  unfold State.rtcAbandon
  split
  · exact .inr ⟨(s.endHalt s.rtcSeconds).wr Fld.RTC_CTRL_RESULT 8, .wr State.endHalt_regsOnly, rfl⟩
  · exact .inl rfl

@[simp] theorem State.rtcAbandon_ldr (s : State) : s.rtcAbandon.ldr = s.ldr := by
  obtain e | ⟨t, ht, e⟩ := s.rtcAbandon_cases
  · rw [e]
  · rw [e, State.raise_ldr, ht]

@[simp] theorem State.rtcAbandon_fuses (s : State) : s.rtcAbandon.fuses = s.fuses := by
  obtain e | ⟨t, ht, e⟩ := s.rtcAbandon_cases
  · rw [e]
  · rw [e, State.raise_fuses, ht]

@[simp] theorem State.rtcAbandon_now (s : State) : s.rtcAbandon.now = s.now := by
  obtain e | ⟨t, ht, e⟩ := s.rtcAbandon_cases
  · rw [e]
  · rw [e, State.raise_now, ht]

@[simp] theorem State.rtcAbandon_tmp (s : State) : s.rtcAbandon.tmp = s.tmp := by
  obtain e | ⟨t, ht, e⟩ := s.rtcAbandon_cases
  · rw [e]
  · rw [e, State.raise_tmp, ht]

@[simp] theorem State.rtcAbandon_flash (s : State) : s.rtcAbandon.flash = s.flash := by
  obtain e | ⟨t, ht, e⟩ := s.rtcAbandon_cases
  · rw [e]
  · rw [e, State.raise_flash, ht]

end Sys2Proof.Machine
end

section
/-!
What every command keeps. `Frame s t` collects what no operation of the device breaks between the state a command finds and
the state it leaves; one lemma per function of the model says that it keeps the frame, and `exec_framed` follows for every
command.
-/

namespace Sys2Proof.Machine
set_option Elab.async false
variable {s0 s t : State}

/-- Fuses of the same part, of which light-group fuses may have been blown since (R302). -/
def fusesGrow (f g : Fuses) : Prop := g = { f with lsg := g.lsg } ∧ f.lsg &&& ~~~ g.lsg = 0

theorem fusesGrow_refl (f : Fuses) : fusesGrow f f := ⟨rfl, by simp⟩

/-- Blowing light-group fuses. -/
theorem fusesGrow.blow {f g : Fuses} (h : fusesGrow f g) (new : BitVec 6) :
    fusesGrow f { g with lsg := g.lsg ||| new } := by
  obtain ⟨hg, hl⟩ := h
  have hb : f.lsg &&& ~~~ (g.lsg ||| new) = (f.lsg &&& ~~~ g.lsg) &&& ~~~ new := by
    ext i
    simp [Bool.and_assoc]
  exact ⟨by rw [hg], by simp [hb, hl]⟩

/-- What no operation of the device breaks, from the state a command finds to the state it leaves. -/
structure Frame (s t : State) : Prop where
  pending : t.pending = s.pending
  fuses : fusesGrow s.fuses t.fuses
  flash : s.ldr.flash = none → t.flash = s.flash
  flashWf : storeWf erasedAt s.flash.cells → storeWf erasedAt t.flash.cells
  regs : storeWf resetWord s.regs → storeWf resetWord t.regs
  spi : storeWf resetWord s.spi.regs → storeWf resetWord t.spi.regs
  drega : storeWf resetWord s.drega.regs → storeWf resetWord t.drega.regs
  gather : s.rcd.gather = none → t.rcd.gather = none

theorem Frame.refl (s : State) : Frame s s := ⟨rfl, fusesGrow_refl _, fun _ => rfl, id, id, id, id, id⟩

/-- A state that differs in other parts. -/
theorem Frame.update (h : Frame s0 s) {spi drega panelCaps spiOut now tickStart resetAt free core esc pwr acq met aux strm led
    str rcd gar sec tmp ring twin panel portA portB net kept ptp bk ldr} (hs : spi.regs = s.spi.regs := by rfl)
    (hd : drega.regs = s.drega.regs := by rfl) (hg : rcd.gather = s.rcd.gather := by rfl) :
    Frame s0 (State.mk s.pending s.fuses s.regs spi drega panelCaps spiOut now tickStart resetAt free core esc pwr acq met aux
      strm led str rcd gar sec tmp ring twin panel portA portB net kept ptp bk s.flash ldr) :=
  ⟨h.pending, h.fuses, h.flash, h.flashWf, h.regs, fun w => hs ▸ h.spi w, fun w => hd ▸ h.drega w,
    fun w => hg ▸ h.gather w⟩

theorem Frame.withRegs (h : Frame s0 s) {r} (hr : storeWf resetWord s.regs → storeWf resetWord r) :
    Frame s0 { s with regs := r } :=
  ⟨h.pending, h.fuses, h.flash, h.flashWf, fun w => hr (h.regs w), h.spi, h.drega, h.gather⟩

/-! ### Control flow -/

theorem Frame.ite {c : Prop} [Decidable c] (hs : Frame s0 s) (ht : Frame s0 t) : Frame s0 (if c then s else t) := by
  split <;> assumption

theorem Frame.ite1 {α} {c : Prop} [Decidable c] {x y : α × State} (hs : Frame s0 x.2) (ht : Frame s0 y.2) :
    Frame s0 (if c then x else y).2 := by
  split <;> assumption

theorem Frame.ite3 {α} {c : Prop} [Decidable c] {x y : State × α} (hs : Frame s0 x.1) (ht : Frame s0 y.1) :
    Frame s0 (if c then x else y).1 := by
  split <;> assumption

theorem Frame.of_eq {α} {x : α × State} {a : α} (e : x = (a, t)) (h : Frame s0 x.2) : Frame s0 t := by
  rw [e] at h
  exact h

theorem Frame.foldl {α : Type} {f : State → α → State} (h : Frame s0 s) (hf : ∀ u x, Frame s0 u → Frame s0 (f u x))
    {l : List α} : Frame s0 (l.foldl f s) := by
  induction l generalizing s with
  | nil => exact h
  | cons x l ih => exact ih (hf _ _ h)

theorem Frame.foldl3 {α β : Type} {f : State × β → α → State × β} {x : State × β} (h : Frame s0 x.1)
    (hf : ∀ u a, Frame s0 u.1 → Frame s0 (f u a).1) {l : List α} : Frame s0 (l.foldl f x).1 := by
  induction l generalizing x with
  | nil => exact h
  | cons a l ih => exact ih (hf _ _ h)

theorem Frame.iterate {f : State → State} (h : Frame s0 s) (hf : ∀ u, Frame s0 u → Frame s0 (f u)) {n : Nat} :
    Frame s0 (Nat.iterate f n s) := by
  induction n generalizing s with
  | zero => exact h
  | succ n ih => exact ih (hf _ h)

/-! ### Stores -/

theorem storeWf_filter {α : Type} {d : Nat → α} {m : List (Nat × α)} (h : storeWf d m) (p : Nat × α → Bool) :
    storeWf d (m.filter p) := ⟨h.1.filter _, fun x hx => h.2 x (List.mem_filter.1 hx).1⟩

theorem storeWf_foldl_storeSet {α β : Type} [DecidableEq α] {d : Nat → α} {k : β → Nat} {v : β → α}
    {m : List (Nat × α)} (h : storeWf d m) (l : List β) : storeWf d (l.foldl (fun m x => storeSet d m (k x) (v x)) m) := by
  induction l generalizing m with
  | nil => exact h
  | cons x l ih => exact ih (storeWf_storeSet h)

/-! ### The operations, in the order of the model -/

/-! #### Named operations over the state -/

theorem Frame.setWord (h : Frame s0 s) {a w} : Frame s0 (s.setWord a w) := h.withRegs storeWf_storeSet

theorem Frame.wr (h : Frame s0 s) {f v} : Frame s0 (s.wr f v) := h.withRegs fun w => putWords_wf w _ _ _

theorem Frame.wrB (h : Frame s0 s) {f b} : Frame s0 (s.wrB f b) := by
  unfold State.wrB
  exact .wr h

theorem Frame.wrS (h : Frame s0 s) {f v} : Frame s0 (s.wrS f v) := by
  unfold State.wrS
  exact .wr h

theorem Frame.count (h : Frame s0 s) {f n} : Frame s0 (s.count f n) := by
  unfold State.count
  exact .wr h

theorem Frame.wrap (h : Frame s0 s) {f} : Frame s0 (s.wrap f) := by
  unfold State.wrap
  exact .wr h

/-- The registers of an access path may change if they keep their form. -/
theorem Frame.setPathRegs (h : Frame s0 s) {p x} (hx : storeWf resetWord (s.path p).regs → storeWf resetWord x.regs) :
    Frame s0 (s.setPath p x) := by
  cases p
  · exact ⟨h.pending, h.fuses, h.flash, h.flashWf, h.regs, fun w => hx (h.spi w), h.drega, h.gather⟩
  · exact ⟨h.pending, h.fuses, h.flash, h.flashWf, h.regs, h.spi, fun w => hx (h.drega w), h.gather⟩

/-- All of an access path but its registers may change. -/
theorem Frame.setPath (h : Frame s0 s) {p x} (hx : x.regs = (s.path p).regs := by rfl) : Frame s0 (s.setPath p x) :=
  h.setPathRegs fun w => hx ▸ w

theorem Frame.wrP (h : Frame s0 s) {p f v} : Frame s0 (s.wrP p f v) := h.setPathRegs fun w => putWords_wf w _ _ _

theorem Frame.drawn (h : Frame s0 s) : Frame s0 s.drawn := by
  unfold State.drawn
  exact .update h

theorem Frame.irq (h : Frame s0 s) {f} : Frame s0 (s.irq f) := by
  unfold State.irq
  exact .wrB h

theorem Frame.alert (h : Frame s0 s) {f b} : Frame s0 (s.alert f b) := by
  unfold State.alert
  extract_lets t
  have ht : Frame s0 t := .wrB h
  exact .wrB (.ite (.irq ht) ht)

theorem Frame.setChip (h : Frame s0 s) {v} : Frame s0 (s.setChip v) := by
  unfold State.setChip
  extract_lets t
  have ht : Frame s0 t := .wr h
  exact .ite ht (.irq ht)

theorem Frame.until (h : Frame s0 s) {x0} : Frame s0 (s.until x0) := by
  unfold State.until
  exact .update h

theorem Frame.lastResort (h : Frame s0 s) {e} : Frame s0 (s.lastResort e) := by
  unfold State.lastResort
  extract_lets
  split
  · exact .count h
  · exact .wr (.wr (.foldl h fun _ _ h => .setWord h))

theorem Frame.setRcd (h : Frame s0 s) {r} (hr : r.gather = s.rcd.gather := by rfl) : Frame s0 (s.setRcd r) := by
  unfold State.setRcd
  exact .wr (.update h (hg := hr))

theorem Frame.suppress (h : Frame s0 s) {code} : Frame s0 (s.suppress code) := by
  unfold State.suppress
  exact .setRcd h

theorem Frame.raise (h : Frame s0 s) {code source payload} : Frame s0 (s.raise code source payload) := by
  unfold State.raise
  refine .ite h ?_
  split
  next e =>
    have hg : s.rcd.gather ≠ none := by simpa [Option.isSome_iff_ne_none] using e
    exact ⟨h.pending, h.fuses, h.flash, h.flashWf, h.regs, h.spi, h.drega, fun w => absurd (h.gather w) hg⟩
  · exact .ite (.ite (.lastResort h) (.count h)) (.ite (.count (.suppress h)) (.ite (.setRcd h) (.count (.suppress h))))

theorem Frame.raiseTogether (h : Frame s0 s) {es} : Frame s0 (s.raiseTogether es) := by
  unfold State.raiseTogether
  exact .foldl h fun _ _ h => .raise h

/-- A cycle's own work is done on a state that gathers the cycle's events; they are offered at its end (R242). -/
theorem Frame.sameCycle (h : Frame s0 s) {f} (hf : ∀ s1 u, Frame s1 u → Frame s1 (f u)) : Frame s0 (s.sameCycle f) := by
  unfold State.sameCycle
  refine .ite (hf _ _ h) (.raiseTogether ?_)
  have h1 : Frame { s0 with rcd := { s0.rcd with gather := some [] } } { s with rcd := { s.rcd with gather := some [] }
    } :=
    ⟨h.pending, h.fuses, h.flash, h.flashWf, h.regs, h.spi, h.drega, fun w => nomatch w⟩
  have h2 := hf _ _ h1
  exact ⟨h2.pending, h2.fuses, h2.flash, h2.flashWf, h2.regs, h2.spi, h2.drega, fun _ => rfl⟩

theorem Frame.raiseFront (h : Frame s0 s) {code source payload} : Frame s0 (s.raiseFront code source payload) := by
  unfold State.raiseFront
  extract_lets _ t1
  have ht1 : Frame s0 t1 := by
    unfold t1
    split
    · exact .count (.suppress (.setRcd h))
    · exact h
  exact .ite h (.ite (.ite (.lastResort h) (.count h)) (.setRcd ht1))

/-! #### Strata -/

theorem Frame.eccCorrected (h : Frame s0 s) : Frame s0 s.eccCorrected := by
  unfold State.eccCorrected
  exact .count (.count h)

theorem Frame.markBank (h : Frame s0 s) {f} : Frame s0 (s.markBank f) := by
  unfold State.markBank
  extract_lets _ _ _ _ _ t3 _ _ t6
  have ht3 : Frame s0 t3 := .wr (.wr (.wr (.update h)))
  have ht6 : Frame s0 t6 := .wr (.wr (.ite (.count ht3) ht3))
  exact .ite (.wr ht6) (.ite (.wr ht6) ht6)

theorem Frame.refreshTariff (h : Frame s0 s) : Frame s0 s.refreshTariff := by
  unfold State.refreshTariff
  extract_lets _ _ _ _ t3
  have ht3 : Frame s0 t3 := .wrB (.wrB (.wr (.wr h)))
  split
  · exact ht3
  · exact .wrS (.wr (.wr (.wr (.wrB (.wrB ht3)))))

theorem Frame.setTimeSrc (h : Frame s0 s) {v} : Frame s0 (s.setTimeSrc v) := by
  unfold State.setTimeSrc
  extract_lets t
  have ht : Frame s0 t := .wr h
  exact .ite ht (.irq ht)

theorem Frame.refreshHead (h : Frame s0 s) : Frame s0 s.refreshHead := by
  unfold State.refreshHead
  exact .wr (.wr h)

theorem Frame.refresh (h : Frame s0 s) : Frame s0 s.refresh := by
  unfold State.refresh
  exact .refreshTariff (.setTimeSrc (.foldl (.wr (.wr (.wr (.wr (.wr (.wr (.wr (.wr (.wr (.wr (.wr (.wr (.wr (.wr (.wrS
    (.wrB (.wr (.wr h)))))))))))))))))) fun _ _ h => .wr h))

theorem Frame.refreshAnchor (h : Frame s0 s) : Frame s0 s.refreshAnchor := by
  unfold State.refreshAnchor
  exact .wr (.wr h)

theorem Frame.refreshJournal (h : Frame s0 s) : Frame s0 s.refreshJournal := by
  unfold State.refreshJournal
  exact .wr (.wr h)

theorem Frame.setQueue (h : Frame s0 s) {ts} : Frame s0 (s.setQueue ts) := by
  unfold State.setQueue
  exact .update h

theorem Frame.enqueue (h : Frame s0 s) {ts} : Frame s0 (s.enqueue ts) := by
  unfold State.enqueue
  exact .update h

theorem Frame.maybeCompact (h : Frame s0 s) : Frame s0 s.maybeCompact := by
  unfold State.maybeCompact
  exact .ite (.wrB (.update h)) h

theorem Frame.commitTxn (h : Frame s0 s) {us x1} : Frame s0 (s.commitTxn us x1) := by
  unfold State.commitTxn
  exact .maybeCompact (.refreshJournal (.wrB (.wr (.wr (.wr (.update h))))))

/-! #### The ledger's processing -/

theorem Frame.raiseAll (h : Frame s0 s) {evs} : Frame s0 (s.raiseAll evs) := by
  unfold State.raiseAll
  exact .sameCycle h (fun _ _ h => .foldl h fun _ _ h => .raise (.ite (.wrB h) h))

theorem Frame.processTick (h : Frame s0 s) {bd kind act} : Frame s0 (s.processTick bd kind act) := by
  unfold State.processTick
  extract_lets _ _ _ _ _ _ _ _ _ _ _ _ _ t2 t3
  have ht2 : Frame s0 t2 := .update h
  have ht3 : Frame s0 t3 := .ite (.wr ht2) ht2
  exact .raiseAll (.ite ht3 (.wrB ht3))

/-! #### Links and panel requests -/

theorem Frame.ringSend (h : Frame s0 s) {port dest type payload} : Frame s0 (s.ringSend port dest type payload) := by
  unfold State.ringSend
  exact .update h

theorem Frame.twinSend (h : Frame s0 s) {type payload} : Frame s0 (s.twinSend type payload) := by
  unfold State.twinSend
  exact .update h

theorem Frame.setTwin (h : Frame s0 s) {v} : Frame s0 (s.setTwin v) := by
  unfold State.setTwin
  extract_lets t
  have ht : Frame s0 t := .wr h
  exact .ite ht (.irq ht)

theorem Frame.contribSend (h : Frame s0 s) {old} : Frame s0 (s.contribSend old) := by
  unfold State.contribSend
  exact .ite h (.ite (.ite h (.update h)) (.ite (.ringSend h) h))

theorem Frame.pairTick (h : Frame s0 s) {own peer} : Frame s0 (s.pairTick own peer) := by
  unfold State.pairTick
  exact .foldl h fun _ _ h => .ite (.count h) (.update h)

theorem Frame.matchTick (h : Frame s0 s) {k} : Frame s0 (s.matchTick k) := by
  unfold State.matchTick
  split
  · exact .ite h (.update (.pairTick h))
  · exact h

theorem Frame.deltaSend (h : Frame s0 s) {old} : Frame s0 (s.deltaSend old) := by
  unfold State.deltaSend
  exact .ite h (.matchTick (.update (.twinSend h)))

theorem Frame.panelRequest (h : Frame s0 s) {w} : Frame s0 (s.panelRequest w) := by
  unfold State.panelRequest
  exact .ite h (.wr (.wrB (.ite (.count h) h)))

theorem Frame.panelTick (h : Frame s0 s) : Frame s0 s.panelTick := by
  unfold State.panelTick
  exact .foldl h fun _ _ h => .ite (.panelRequest h) h

/-! #### Outcomes of the loader -/

theorem Frame.loadReport (h : Frame s0 s) {slot live result addr tested} : Frame s0 (s.loadReport slot live result addr
    tested) := by
  unfold State.loadReport
  extract_lets _ t1
  have ht1 : Frame s0 t1 := .wr (.wrB (.wr (.wr h)))
  exact .irq (.ite (.count ht1) ht1)

theorem Frame.loadRefuse (h : Frame s0 s) {slot live result addr tested} : Frame s0 (s.loadRefuse slot live result addr
    tested) := by
  unfold State.loadRefuse
  exact .raise (.loadReport h)

theorem Frame.liveEnd (h : Frame s0 s) {l result addr tested} : Frame s0 (s.liveEnd l result addr tested) := by
  unfold State.liveEnd
  exact .loadRefuse (.wr (.update h))

theorem Frame.loadFailed (h : Frame s0 s) : Frame s0 s.loadFailed := by
  unfold State.loadFailed
  exact .setChip (.wr (.update h))

theorem Frame.loadNext (h : Frame s0 s) : Frame s0 s.loadNext := by
  unfold State.loadNext
  extract_lets
  split
  · exact .loadFailed h
  · exact .wr (.update h)

theorem Frame.startRefuse (h : Frame s0 s) {slot result addr} : Frame s0 (s.startRefuse slot result addr) := by
  unfold State.startRefuse
  exact .loadNext (.loadRefuse h)

theorem Frame.loadAlarm (h : Frame s0 s) : Frame s0 s.loadAlarm := by
  unfold State.loadAlarm
  split
  · exact h
  · exact .ite (.liveEnd h) (.startRefuse h)

theorem Frame.loadAbandon (h : Frame s0 s) : Frame s0 s.loadAbandon := by
  unfold State.loadAbandon
  extract_lets
  split
  · exact h
  · exact .ite (.liveEnd h) (.loadRefuse (.update h))

theorem Frame.loadLocked (h : Frame s0 s) : Frame s0 s.loadLocked := by
  unfold State.loadLocked
  split
  · exact h
  · exact .ite (.liveEnd h) h

/-! #### The Flint lock -/

theorem Frame.refreshActive (h : Frame s0 s) : Frame s0 s.refreshActive := by
  unfold State.refreshActive
  exact .wr h

theorem Frame.refreshTamperAlert (h : Frame s0 s) : Frame s0 s.refreshTamperAlert := by
  unfold State.refreshTamperAlert
  exact .wrB (.alert h)

theorem Frame.setFlint (h : Frame s0 s) {v} : Frame s0 (s.setFlint v) := by
  unfold State.setFlint
  extract_lets _ _ t1
  have ht1 : Frame s0 t1 := .wrB (.wrB (.wr h))
  exact .ite ht1 (.irq ht1)

theorem Frame.dropAuthorisations (h : Frame s0 s) : Frame s0 s.dropAuthorisations := by
  unfold State.dropAuthorisations
  exact .update h

theorem Frame.staleNonces (h : Frame s0 s) : Frame s0 s.staleNonces := by
  unfold State.staleNonces
  exact .update h

theorem Frame.queueLock (h : Frame s0 s) : Frame s0 s.queueLock := by
  unfold State.queueLock
  exact .ite (.enqueue h) h

theorem Frame.engage (h : Frame s0 s) {src} : Frame s0 (s.engage src) := by
  unfold State.engage
  exact .ite h (.loadLocked (.queueLock (.raise (.dropAuthorisations (.staleNonces (.setFlint (.update h)))))))

theorem Frame.encSettle (h : Frame s0 s) : Frame s0 s.encSettle := by
  unfold State.encSettle
  exact .refreshActive (.update h)

theorem Frame.acknowledge (h : Frame s0 s) {mask lock} : Frame s0 (s.acknowledge mask lock) := by
  unfold State.acknowledge
  exact .ite (.update h) (.wr h)

theorem Frame.respond (h : Frame s0 s) {srcs i} : Frame s0 (s.respond srcs i) := by
  unfold State.respond
  extract_lets _ _ _ t1
  have ht1 : Frame s0 t1 := .refreshTamperAlert (.ite (.foldl h fun _ _ h => .raise h) h)
  exact .acknowledge (.ite (.engage ht1) ht1)

theorem Frame.setFlags (h : Frame s0 s) {srcs} : Frame s0 (s.setFlags srcs) := by
  unfold State.setFlags
  exact .wr (.wr (.wr h))

theorem Frame.detect (h : Frame s0 s) {srcs i} : Frame s0 (s.detect srcs i) := by
  unfold State.detect
  extract_lets _ t t1
  have ht : Frame s0 t := .setFlags h
  have ht1 : Frame s0 t1 := .count ht
  exact .ite h (.ite (.ite (.respond ht1) ht1) (.ite (.wrB ht) ht))

theorem Frame.unlockEffect (h : Frame s0 s) : Frame s0 s.unlockEffect := by
  unfold State.unlockEffect
  exact .detect (.refreshTamperAlert (.wr (.wr (.wr (.setFlint (.update h))))))

/-! #### Escalation -/

theorem Frame.escRecord (h : Frame s0 s) {level region block cell cause error} : Frame s0 (s.escRecord level region
    block cell cause error) := by
  unfold State.escRecord
  exact .raise (.wr (.wr h))

theorem Frame.escBlock (h : Frame s0 s) {region} : Frame s0 (s.escBlock region) := by
  unfold State.escBlock
  exact .count (.wr h)

theorem Frame.escRegion (h : Frame s0 s) {region} : Frame s0 (s.escRegion region) := by
  unfold State.escRegion
  exact .count (.wr h)

theorem Frame.endFreeze (h : Frame s0 s) : Frame s0 s.endFreeze := by
  unfold State.endFreeze
  extract_lets
  split
  · exact h
  · exact .wr (.wrB (.setRcd h))

theorem Frame.chipFreezeEvent (h : Frame s0 s) : Frame s0 s.chipFreezeEvent := by
  unfold State.chipFreezeEvent
  extract_lets _ t
  have ht : Frame s0 t := .endFreeze h
  exact .ite (.lastResort ht) (.raiseFront ht)

theorem Frame.freezeLedger (h : Frame s0 s) : Frame s0 s.freezeLedger := by
  unfold State.freezeLedger
  exact .wr (.update h)

theorem Frame.escFail (h : Frame s0 s) {region block cell error} : Frame s0 (s.escFail region block cell error) := by
  unfold State.escFail
  exact .escRecord (.escRecord h)

theorem Frame.regionFail (h : Frame s0 s) {region block cell error} : Frame s0 (s.regionFail region block cell error)
    := by
  unfold State.regionFail
  extract_lets _ _ _ _ t2 _ _ t5
  have ht2 : Frame s0 t2 := .update (.wr h)
  have ht5 : Frame s0 t5 := .alert (.freezeLedger (.setChip (.update ht2)))
  exact .ite (.ite (.escFail (.update ht2)) ht2) (.wrB (.update (.chipFreezeEvent (.loadAbandon (.escFail (.count (.ite
    (.twinSend ht5) ht5)))))))

theorem Frame.areaDies (h : Frame s0 s) {area} : Frame s0 (s.areaDies area) := by
  unfold State.areaDies
  split
  · exact .regionFail (.escRegion (.raise h))
  · exact .raise (.alert h)
  · exact .alert (.raise h)
  · exact .raise h

theorem Frame.audBankEntry (h : Frame s0 s) : Frame s0 s.audBankEntry := by
  unfold State.audBankEntry
  extract_lets
  split
  · exact h
  · exact .ite h (.enqueue h)

theorem Frame.bankFail (h : Frame s0 s) {f} : Frame s0 (s.bankFail f) := by
  unfold State.bankFail
  extract_lets _ _ t _ _ t2 _ t4
  have ht : Frame s0 t := .markBank h
  have ht2 : Frame s0 t2 := .raise (.ite (.endFreeze ht) ht)
  have ht4 : Frame s0 t4 := .ite (.audBankEntry (.update ht2)) ht2
  exact .ite h (.ite (.eccCorrected h) (.ite (.areaDies ht4) ht4))

theorem Frame.bankFails (h : Frame s0 s) {fs} : Frame s0 (s.bankFails fs) := by
  unfold State.bankFails
  exact .ite (.sameCycle h (fun _ _ h => .foldl h fun _ _ h => .bankFail h)) h

/-! #### Commits -/

theorem Frame.copyDone (h : Frame s0 s) : Frame s0 s.copyDone := by
  unfold State.copyDone
  extract_lets
  split
  · exact h
  · extract_lets _ t1
    have ht1 : Frame s0 t1 := .update h
    exact .maybeCompact (.refreshAnchor (.wrB (.ite (.count ht1) ht1)))

theorem Frame.snapDone (h : Frame s0 s) : Frame s0 s.snapDone := by
  unfold State.snapDone
  exact .iterate h fun _ h => .ite (.copyDone h) h

theorem Frame.compacted (h : Frame s0 s) : Frame s0 s.compacted := by
  unfold State.compacted
  extract_lets
  split
  · exact h
  · exact .maybeCompact (.refreshJournal (.wrap (.wrB (.wr (.update h)))))

theorem Frame.lgKeep (h : Frame s0 s) : Frame s0 s.lgKeep := by
  unfold State.lgKeep
  exact .update h

theorem Frame.tickLive (h : Frame s0 s) : Frame s0 s.tickLive := by
  unfold State.tickLive
  exact .panelTick (.deltaSend (.contribSend (.lgKeep (.irq (.wrap (.wrB (.refresh (.update h))))))))

theorem Frame.showLive (h : Frame s0 s) : Frame s0 s.showLive := by
  unfold State.showLive
  exact .lgKeep (.refresh (.update h))

theorem Frame.deferredUnlock (h : Frame s0 s) {us roles keys} : Frame s0 (s.deferredUnlock us roles keys) := by
  unfold State.deferredUnlock
  exact .unlockEffect (.showLive (.setQueue (.commitTxn (.setFlint h))))

theorem Frame.committed (h : Frame s0 s) {us a} : Frame s0 (s.committed us a) := by
  unfold State.committed
  extract_lets _ _ t2 _ _ _ t5
  have ht2 : Frame s0 t2 := .showLive h
  have ht5 : Frame s0 t5 := .acknowledge (.update (.ite (.setFlint ht2) ht2))
  split
  · exact .tickLive h
  · exact .refreshHead h
  · exact .showLive (.update h)
  · exact .ite (.lgKeep (.wrB (.wrB (.showLive (.update h))))) (.refreshHead h)
  · split
    · exact .deferredUnlock ht5
    · exact ht5
  · exact .showLive h
  · exact .showLive h

theorem Frame.commitHead (h : Frame s0 s) {us} : Frame s0 (s.commitHead us) := by
  unfold State.commitHead
  extract_lets
  split
  · exact h
  · exact .ite h (.committed (.commitTxn (.update h)))

theorem Frame.meetFault (h : Frame s0 s) : Frame s0 s.meetFault := by
  unfold State.meetFault
  split
  · exact h
  · exact .bankFail h

theorem Frame.drain (h : Frame s0 s) : Frame s0 s.drain := by
  unfold State.drain
  exact .iterate h fun _ h => .drawn (.commitHead (.meetFault (.snapDone h)))

theorem Frame.command (h : Frame s0 s) {kind f} : Frame s0 (s.command kind f).2 := by
  unfold State.command
  extract_lets t
  have ht : Frame s0 t := .meetFault (.snapDone (.drain h))
  exact .ite1 h (.ite1 (.drawn ht) (.drawn (.showLive (.commitTxn ht))))

/-! #### Access to Sealed registers -/

theorem Frame.disarm (h : Frame s0 s) {p cmd} : Frame s0 (s.disarm p cmd) := by
  unfold State.disarm
  exact .setPath h

theorem Frame.host (h : Frame s0 s) {f} (hf : ∀ s1 u, Frame s1 u → Frame s1 (f u).2) : Frame s0 (s.host f) := by
  unfold State.host
  exact .ite (hf _ _ h) h

theorem Frame.hostRead (h : Frame s0 s) {f} (hf : ∀ s1 u, Frame s1 u → Frame s1 (f u).2) : Frame s0 (s.hostRead f) := by
  unfold State.hostRead
  exact .ite (hf _ _ h) h

/-! #### The corrected timescale -/

theorem Frame.rateFrom (h : Frame s0 s) {epoch rate} : Frame s0 (s.rateFrom epoch rate) := by
  unfold State.rateFrom
  exact .wrS (.update h)

theorem Frame.rateTrim (h : Frame s0 s) {epoch} : Frame s0 (s.rateTrim epoch) := by
  unfold State.rateTrim
  exact .wrB (.rateFrom h)

/-! #### Epoch alignment -/

theorem Frame.setEpoch (h : Frame s0 s) {e} : Frame s0 (s.setEpoch e) := by
  unfold State.setEpoch
  exact .wr (.wr (.wr h))

theorem Frame.setBase (h : Frame s0 s) {b} : Frame s0 (s.setBase b) := by
  unfold State.setBase
  exact .wr h

theorem Frame.epochAlign (h : Frame s0 s) {b} : Frame s0 (s.epochAlign b) := by
  unfold State.epochAlign
  exact .wrB (.setBase h)

theorem Frame.alignPtp (h : Frame s0 s) : Frame s0 s.alignPtp := by
  unfold State.alignPtp
  exact .ite h (.epochAlign (.update h))

/-! #### Bedrock -/

theorem Frame.setRtc (h : Frame s0 s) {secs} : Frame s0 (s.setRtc secs) := by
  unfold State.setRtc
  exact .wr (.wr (.wr (.wr (.wr (.wr (.wr h))))))

theorem Frame.refreshRtcValid (h : Frame s0 s) : Frame s0 s.refreshRtcValid := by
  unfold State.refreshRtcValid
  exact .wrB h

theorem Frame.trimWindow (h : Frame s0 s) : Frame s0 s.trimWindow := by
  unfold State.trimWindow
  exact .update h

theorem Frame.rtcRelease (h : Frame s0 s) {p} : Frame s0 (s.rtcRelease p) := by
  unfold State.rtcRelease
  exact .setPath h

theorem Frame.rtcExpire (h : Frame s0 s) {p} : Frame s0 (s.rtcExpire p) := by
  unfold State.rtcExpire
  split
  · exact h
  · exact .rtcRelease (.until h)

theorem Frame.rtcRead (h : Frame s0 s) {p i} : Frame s0 (s.rtcRead p i).2 := by
  unfold State.rtcRead
  extract_lets
  refine .ite ?_ ?_
  · refine .rtcRelease ?_
    split
    · exact h
    · exact .setPath h
  · split
    · exact h
    · exact .setPath h

theorem Frame.endHalt (h : Frame s0 s) {secs} : Frame s0 (s.endHalt secs) := by
  unfold State.endHalt
  exact .wrB (.wrB (.setRtc (.update h)))

theorem Frame.rtcRefused (h : Frame s0 s) {path code} : Frame s0 (s.rtcRefused path code) := by
  unfold State.rtcRefused
  exact .raise (.wr h)

theorem Frame.rtcAbandon (h : Frame s0 s) : Frame s0 s.rtcAbandon := by
  unfold State.rtcAbandon
  exact .ite (.rtcRefused (.endHalt h)) h

theorem Frame.rtcHalt (h : Frame s0 s) {p} : Frame s0 (s.rtcHalt p) := by
  unfold State.rtcHalt
  exact .ite h (.wr (.wrB (.wrB (.wrB (.update h)))))

theorem Frame.rtcLoadBy (h : Frame s0 s) {p x} : Frame s0 (s.rtcLoadBy p x) := by
  unfold State.rtcLoadBy
  extract_lets _ _ test _ _ _ t
  have ht : Frame s0 t := .disarm h
  refine .ite (.disarm h) ?_
  clear_value test
  split
  · exact .rtcRefused (.endHalt ht)
  · extract_lets
    split
    next e => exact .rtcRefused (.endHalt (.of_eq e (.command ht)))
    next e =>
      extract_lets _ _ _ t4
      have ht4 : Frame s0 t4 := .raise (.refreshRtcValid (.update (.wr (.wrB (.endHalt (.of_eq e (.command ht)))))))
      exact .ite ht4 (.drawn ht4)

theorem Frame.wRtcCtrl (h : Frame s0 s) {p v} : Frame s0 (s.wRtcCtrl p v).2 := by
  unfold State.wRtcCtrl
  split
  · exact .ite h (.disarm h)
  · exact .ite (.rtcHalt h) (.rtcLoadBy h)

theorem Frame.wRtcField (h : Frame s0 s) {p i v} : Frame s0 (s.wRtcField p i v).2 := by
  unfold State.wRtcField
  extract_lets
  split
  · exact h
  · exact .ite1 h (.ite1 h (.update (.ite (.wr h) h)))

theorem Frame.alarm (h : Frame s0 s) {n} : Frame s0 (s.alarm n) := by
  unfold State.alarm
  extract_lets t t1
  have ht : Frame s0 t := .wr h
  have ht1 : Frame s0 t1 := .wr ht
  exact .ite (.ite (.wrB (.update ht1)) ht1) (.raise ht)

theorem Frame.alarms (h : Frame s0 s) : Frame s0 s.alarms := by
  unfold State.alarms
  extract_lets t
  have ht : Frame s0 t := .ite (.alarm h) h
  exact .ite (.alarm ht) ht

theorem Frame.batAlarms (h : Frame s0 s) : Frame s0 s.batAlarms := by
  unfold State.batAlarms
  exact .ite (.raise (.wrB (.ite (.raise (.wrB h)) h))) (.ite (.raise (.wrB h)) h)

theorem Frame.ptpSeed (h : Frame s0 s) : Frame s0 s.ptpSeed := by
  unfold State.ptpSeed
  exact .ite h (.update h)

theorem Frame.rtcTick (h : Frame s0 s) : Frame s0 s.rtcTick := by
  unfold State.rtcTick
  extract_lets t _ t2
  have ht : Frame s0 t := .update h
  have ht2 : Frame s0 t2 := .ite ht (.wr ht)
  exact .ite (.ite (.rtcRefused (.wrB (.endHalt ht2))) (.wr ht2)) (.alarms (.setRtc ht))

theorem Frame.rtcAuto (h : Frame s0 s) : Frame s0 s.rtcAuto := by
  unfold State.rtcAuto
  extract_lets _ t
  have ht : Frame s0 t := .wrS h
  exact .ite h (.ite ht (.refreshRtcValid (.wrB (.setRtc ht))))

theorem Frame.toBat (h : Frame s0 s) : Frame s0 s.toBat := by
  unfold State.toBat
  exact .ite h (.count (.wr h))

theorem Frame.toMain (h : Frame s0 s) : Frame s0 s.toMain := by
  unfold State.toMain
  extract_lets t
  have ht : Frame s0 t := .wr h
  exact .ite h (.ite (.wrB ht) ht)

theorem Frame.pwronEnd (h : Frame s0 s) : Frame s0 s.pwronEnd := by
  unfold State.pwronEnd
  exact .ite h (.wrB (.until h))

theorem Frame.bedrockReset (h : Frame s0 s) : Frame s0 s.bedrockReset := by
  unfold State.bedrockReset
  exact .refreshTamperAlert (.encSettle (.refreshRtcValid (.wr (.wr (.wr
    (.update (h.withRegs fun w => storeWf_filter w fun x => !inBk x.1)))))))

theorem Frame.vbat (h : Frame s0 s) {mv} : Frame s0 (s.vbat mv) := by
  unfold State.vbat
  extract_lets _ _ _ t3
  have ht3 : Frame s0 t3 := .wr (.update (.until h))
  exact .ite h (.ite (.ite ht3 (.raise (.wrB ht3))) (.ite (.wrB ht3) ht3))

theorem Frame.wBkCmd (h : Frame s0 s) {p v} : Frame s0 (s.wBkCmd p v).2 := by
  unfold State.wBkCmd
  split
  · exact h
  · exact .wr h
  · exact .wr h
  · refine .ite1 h ?_
    split
    next e => exact .wr (.of_eq e (.command h))
    next e => exact .refreshRtcValid (.wr (.wrB (.of_eq e (.command h))))

/-! #### The Ethernet ports' queues -/

theorem Frame.setClock (h : Frame s0 s) {ns} : Frame s0 (s.setClock ns) := by
  unfold State.setClock
  exact .update h

theorem Frame.refreshTimebase (h : Frame s0 s) : Frame s0 s.refreshTimebase := by
  unfold State.refreshTimebase
  exact .wrB h

theorem Frame.setPort (h : Frame s0 s) {p x} : Frame s0 (s.setPort p x) := by
  unfold State.setPort
  exact .foldl (.ite (.update h) (.update h)) fun _ _ h => .wr h

theorem Frame.netSend (h : Frame s0 s) {p f} : Frame s0 (s.netSend p f) := by
  unfold State.netSend
  exact .ite h (.ite (.count h) (.setPort h))

theorem Frame.udpSend (h : Frame s0 s) {p f mac dst sport dport withSum payload} : Frame s0 (s.udpSend p f mac dst
    sport dport withSum payload) := by
  unfold State.udpSend
  exact .drawn (.netSend h)

theorem Frame.dregaSend (h : Frame s0 s) {r payload} : Frame s0 (s.dregaSend r payload) := by
  unfold State.dregaSend
  exact .udpSend h

theorem Frame.hostDone (h : Frame s0 s) {p ws} : Frame s0 (s.hostDone p ws) := by
  unfold State.hostDone
  extract_lets _ _ t t1
  have ht : Frame s0 t := .setPath h
  have ht1 : Frame s0 t1 := .ite (.count ht) ht
  exact .ite (.irq ht1) ht1

theorem Frame.txDone (h : Frame s0 s) {p f status ts} : Frame s0 (s.txDone p f status ts) := by
  unfold State.txDone
  extract_lets t t1
  have ht : Frame s0 t := .ite (.count h) h
  have ht1 : Frame s0 t1 := .ite (.count ht) ht
  split
  · exact ht1
  · exact .hostDone ht1

theorem Frame.portFlush (h : Frame s0 s) {p} : Frame s0 (s.portFlush p) := by
  unfold State.portFlush
  exact .foldl (.setPort h) fun _ _ h => .txDone h

theorem Frame.portCut (h : Frame s0 s) {p} : Frame s0 (s.portCut p) := by
  unfold State.portCut
  extract_lets
  split
  · exact h
  · exact .txDone (.setPort h)

theorem Frame.txStep (h : Frame s0 s) {p n} : Frame s0 (s.txStep p n) := by
  induction n generalizing s with
  | zero => exact h
  | succ n ih =>
    unfold State.txStep
    split
    · exact h
    · extract_lets _ _ t
      have ht : Frame s0 t := .setPort h
      exact .ite (ih (.txDone ht)) (.ite (ih (.txDone ht)) (.setPort ht))

theorem Frame.txStart (h : Frame s0 s) {p} : Frame s0 (s.txStart p) := by
  unfold State.txStart
  exact .ite h (.txStep h)

theorem Frame.launchDue (h : Frame s0 s) {p x1} : Frame s0 (s.launchDue p x1) := by
  unfold State.launchDue
  exact .setPort (.setClock h)

theorem Frame.arpAsk (h : Frame s0 s) {p ip} : Frame s0 (s.arpAsk p ip) := by
  unfold State.arpAsk
  exact .netSend h

theorem Frame.arpResolve (h : Frame s0 s) {p ip} : Frame s0 (s.arpResolve p ip) := by
  unfold State.arpResolve
  exact .ite h (.arpAsk (.setPort h))

theorem Frame.pubQueue (h : Frame s0 s) {p w mac} : Frame s0 (s.pubQueue p w mac) := by
  unfold State.pubQueue
  extract_lets _ t
  have ht : Frame s0 t := .udpSend h
  exact .ite ht (.wrap ht)

theorem Frame.pubSend (h : Frame s0 s) {p w} : Frame s0 (s.pubSend p w) := by
  unfold State.pubSend
  extract_lets
  split
  · exact .pubQueue h
  · exact .count h

theorem Frame.arpAskAgain (h : Frame s0 s) {p ip tries} : Frame s0 (s.arpAskAgain p ip tries) := by
  unfold State.arpAskAgain
  exact .arpAsk (.setPort h)

theorem Frame.arpRefresh (h : Frame s0 s) {p ip} : Frame s0 (s.arpRefresh p ip) := by
  unfold State.arpRefresh
  split
  · exact h
  · exact .ite h (.arpAskAgain (.until h))

theorem Frame.arpRetry (h : Frame s0 s) {p ip} : Frame s0 (s.arpRetry p ip) := by
  unfold State.arpRetry
  split
  · exact h
  · extract_lets t
    have ht : Frame s0 t := .until h
    exact .ite h (.ite (.arpAskAgain ht) (.setPort ht))

theorem Frame.arpLearn (h : Frame s0 s) {p ip mac} : Frame s0 (s.arpLearn p ip mac) := by
  unfold State.arpLearn
  split
  · exact h
  · exact .setPort h

theorem Frame.arpPacket (h : Frame s0 s) {p a} : Frame s0 (s.arpPacket p a) := by
  unfold State.arpPacket
  extract_lets _ _ _ _ _ _ t1
  have ht1 : Frame s0 t1 := .arpLearn (.ite (.raise h) h)
  exact .ite h (.ite (.netSend ht1) ht1)

theorem Frame.portStop (h : Frame s0 s) {p} : Frame s0 (s.portStop p) := by
  unfold State.portStop
  exact .raise (.wrB (.portFlush h))

/-! #### The PTP port -/

theorem Frame.ptpLock (h : Frame s0 s) : Frame s0 s.ptpLock := by
  unfold State.ptpLock
  exact .alignPtp (.raise (.refreshTimebase (.irq (.wrB (.wrB (.update h))))))

theorem Frame.ptpUnlock (h : Frame s0 s) {cause} : Frame s0 (s.ptpUnlock cause) := by
  unfold State.ptpUnlock
  extract_lets _ t1
  have ht1 : Frame s0 t1 := .update h
  exact .ite ht1 (.raise (.refreshTimebase (.rateTrim (.irq (.wrB (.wrB ht1))))))

theorem Frame.refreshUtc (h : Frame s0 s) : Frame s0 s.refreshUtc := by
  unfold State.refreshUtc
  exact .wrB (.wrB (.wrS (.wrB h)))

theorem Frame.setLeap (h : Frame s0 s) : Frame s0 s.setLeap := by
  unfold State.setLeap
  extract_lets
  refine .ite ?_ (.update h)
  split
  · exact h
  · exact .update h

theorem Frame.setParent (h : Frame s0 s) {i cause} : Frame s0 (s.setParent i cause) := by
  unfold State.setParent
  exact .ite h (.setLeap (.refreshUtc (.wr (.update (.ptpUnlock h)))))

theorem Frame.setPtp (h : Frame s0 s) {v} : Frame s0 (s.setPtp v) := by
  unfold State.setPtp
  exact .wr h

theorem Frame.bmca (h : Frame s0 s) : Frame s0 s.bmca := by
  unfold State.bmca
  extract_lets
  split
  · exact h
  · exact .ite (.setPtp (.setParent h)) (.ite (.setPtp (.setParent h)) (.ite h (.update (.setPtp (.setParent h)))))

theorem Frame.ptpAlone (h : Frame s0 s) {cause} : Frame s0 (s.ptpAlone cause) := by
  unfold State.ptpAlone
  exact .setPtp (.update (.setParent (.ptpUnlock h)))

theorem Frame.ptpLeave (h : Frame s0 s) : Frame s0 s.ptpLeave := by
  unfold State.ptpLeave
  exact .update (.setParent (.ptpUnlock h))

theorem Frame.ptpMove (h : Frame s0 s) {toB} : Frame s0 (s.ptpMove toB) := by
  unfold State.ptpMove
  exact .setPtp (.wrB (.ptpLeave h))

theorem Frame.ptpStart (h : Frame s0 s) : Frame s0 s.ptpStart := by
  unfold State.ptpStart
  exact .refreshUtc (.setPtp (.wrB h))

theorem Frame.announceTimeout (h : Frame s0 s) : Frame s0 s.announceTimeout := by
  unfold State.announceTimeout
  extract_lets t
  have ht : Frame s0 t := .ptpAlone h
  refine .ite h ?_
  refine .ite (.ptpMove ht) ?_
  refine .ite ht ?_
  split
  · exact .bmca ht
  · exact .setPtp ht

theorem Frame.ptpHeardA (h : Frame s0 s) : Frame s0 s.ptpHeardA := by
  unfold State.ptpHeardA
  exact .update h

theorem Frame.ptpReturn (h : Frame s0 s) : Frame s0 s.ptpReturn := by
  unfold State.ptpReturn
  split
  · exact h
  · exact .ite (.ptpMove (.until h)) h

theorem Frame.ptpLinkLost (h : Frame s0 s) {p} : Frame s0 (s.ptpLinkLost p) := by
  unfold State.ptpLinkLost
  extract_lets t
  have ht : Frame s0 t := .ptpAlone h
  exact .ite h (.ite (.ptpMove ht) ht)

theorem Frame.ptpStep (h : Frame s0 s) {offset} : Frame s0 (s.ptpStep offset) := by
  unfold State.ptpStep
  exact .raise (.count (.setClock h))

theorem Frame.ptpTrim (h : Frame s0 s) : Frame s0 s.ptpTrim := by
  unfold State.ptpTrim
  exact .drawn (.update (.setClock h))

theorem Frame.ptpOffset (h : Frame s0 s) {offset} : Frame s0 (s.ptpOffset offset) := by
  unfold State.ptpOffset
  extract_lets _ t _ t1 _ _ _ _ t4
  have ht : Frame s0 t := .wrS h
  have ht1 : Frame s0 t1 := .ite (.ptpStep ht) (.ptpTrim ht)
  have ht4 : Frame s0 t4 := .update (.ite (.setPtp ht1) ht1)
  exact .ite (.ite (.ptpUnlock ht4) ht4) (.ite (.ptpLock ht4) ht4)

theorem Frame.ptpMsDiff (h : Frame s0 s) {d} : Frame s0 (s.ptpMsDiff d) := by
  unfold State.ptpMsDiff
  exact .ptpOffset (.update h)

theorem Frame.ptpSend (h : Frame s0 s) {type onestep follow msg} : Frame s0 (s.ptpSend type onestep follow msg) := by
  unfold State.ptpSend
  exact .ite (.udpSend h) (.netSend h)

theorem Frame.ptpEmit (h : Frame s0 s) {m} : Frame s0 (s.ptpEmit m) := by
  unfold State.ptpEmit
  extract_lets
  split
  · exact .ite h (.ptpSend (.update h))
  · exact .ite h (.ptpSend (.update h))
  · exact .ite h (.ptpSend (.update h))
  · exact .ite h (.ptpSend (.update h))

theorem Frame.ptpSent (h : Frame s0 s) {f ts} : Frame s0 (s.ptpSent f ts) := by
  unfold State.ptpSent
  extract_lets
  refine .ite (.ptpSend h) ?_
  refine .ite ?_ (.ite (.ptpSend h) h)
  split
  · exact .ite (.update h) h
  · exact h

theorem Frame.ptpAnnounce (h : Frame s0 s) {m} : Frame s0 (s.ptpAnnounce m) := by
  unfold State.ptpAnnounce
  extract_lets _ _ _ _ _ _ t1 _ t3
  have ht1 : Frame s0 t1 := .update h
  have ht3 : Frame s0 t3 := .refreshUtc (.update ht1)
  exact .bmca (.ite (.setLeap (.ite ht3 (.update ht3))) ht1)

theorem Frame.ptpReceive (h : Frame s0 s) {p udp m ts} : Frame s0 (s.ptpReceive p udp m ts) := by
  unfold State.ptpReceive
  extract_lets
  refine .ite h ?_
  refine .ite (.ite (.ptpHeardA h) h) ?_
  refine .ite (.ite h (.ite (.update h) (.ptpMsDiff h))) ?_
  refine .ite ?_ ?_
  · split
    · exact .ite (.ptpMsDiff (.update h)) h
    · exact h
  · refine .ite (.ite (.ptpSend h) h) ?_
    refine .ite ?_ ?_
    · split
      · exact .ite (.update h) h
      · exact h
    · refine .ite (.ite h (.ptpSend h)) ?_
      refine .ite ?_ ?_
      · split
        · exact .ite h (.ite (.update h) (.update h))
        · exact h
      · refine .ite ?_ (.ite (.ptpAnnounce h) h)
        split
        · exact .ite (.update h) h
        · exact h

/-! #### The Ethernet ports' commands -/

theorem Frame.setLink (h : Frame s0 s) {p up speed} : Frame s0 (s.setLink p up speed) := by
  unfold State.setLink
  extract_lets _ t t1 _ t3
  have ht : Frame s0 t := .wrB h
  have ht1 : Frame s0 t1 := .ite (.wr ht) ht
  have ht3 : Frame s0 t3 := .ite (.update ht1) ht1
  exact .ite (.raise ht3) (.ite (.ptpLinkLost (.raise (.count ht3))) ht3)

theorem Frame.phyPoll (h : Frame s0 s) {p reg1 reg5 reg10} : Frame s0 (s.phyPoll p reg1 reg5 reg10) := by
  unfold State.phyPoll
  exact .ite h (.setLink (.setPort (.ite (.count h) h)))

theorem Frame.wMdio (h : Frame s0 s) {p n v} : Frame s0 (s.wMdio p n v).2 := by
  unfold State.wMdio
  extract_lets _ t1
  have ht1 : Frame s0 t1 := .wr (.wr (.wr h))
  split
  · exact .ite1 h (.ite1 (.setPort (.wrB ht1)) ht1)
  · exact h

theorem Frame.mdioDone (h : Frame s0 s) {n data} : Frame s0 (s.mdioDone n data) := by
  unfold State.mdioDone
  extract_lets t
  have ht : Frame s0 t := .wrB h
  exact .ite h (.ite (.wr ht) ht)

theorem Frame.txComplete (h : Frame s0 s) {p e ts} : Frame s0 (s.txComplete p e ts) := by
  unfold State.txComplete
  extract_lets _ t
  have ht : Frame s0 t := .setPort h
  split
  · exact h
  · extract_lets _ _ t4
    have ht4 : Frame s0 t4 := .txDone (.setPort (.setClock ht))
    split
    · exact .txDone ht
    · split
      · exact .ptpSent ht4
      · exact ht4

theorem Frame.rxPut (h : Frame s0 s) {p q f} : Frame s0 (s.rxPut p q f) := by
  unfold State.rxPut
  extract_lets _ t
  have ht : Frame s0 t := .wrap (.setPort h)
  exact .ite (.count h) (.ite (.irq ht) ht)

theorem Frame.dregaRepeat (h : Frame s0 s) {r k} : Frame s0 (s.dregaRepeat r k) := by
  unfold State.dregaRepeat
  exact .dregaSend (.count h)

theorem Frame.dregaAnswer (h : Frame s0 s) {r type tag status body} : Frame s0 (s.dregaAnswer r type tag status body)
    := by
  unfold State.dregaAnswer
  exact .dregaSend (.wrap (.drawn (.update h)))

theorem Frame.dregaTake (h : Frame s0 s) {p f} : Frame s0 (s.dregaTake p f) := by
  unfold State.dregaTake
  exact .setPort h

theorem Frame.dregaFlush (h : Frame s0 s) {n} : Frame s0 (s.dregaFlush n) := by
  induction n generalizing s with
  | zero => exact h
  | succ n ih =>
    unfold State.dregaFlush
    split
    · exact h
    · extract_lets
      split
      · exact ih (.dregaRepeat (.dregaTake h))
      · exact .ite h (ih (.dregaAnswer (.dregaTake h)))

theorem Frame.dregaServe (h : Frame s0 s) {type named f} (hf : ∀ s1 x0 x1 x2 u, Frame s1 u → Frame s1 (f x0 x1 x2 u)) :
    Frame s0 (s.dregaServe type named f) := by
  unfold State.dregaServe
  extract_lets t
  have ht : Frame s0 t := .dregaFlush h
  split
  · exact ht
  · exact .ite ht (.dregaFlush (hf _ _ _ _ _ (.dregaTake ht)))

theorem Frame.dregaIn (h : Frame s0 s) {p e f} : Frame s0 (s.dregaIn p e f) := by
  unfold State.dregaIn
  exact .ite (.count h) (.dregaFlush (.rxPut (.update h)))

theorem Frame.keptExpiry (h : Frame s0 s) {r} : Frame s0 (s.keptExpiry r) := by
  unfold State.keptExpiry
  extract_lets
  split
  · exact h
  · exact .update (.until h)

theorem Frame.rxFilters (h : Frame s0 s) {p e f} : Frame s0 (s.rxFilters p e f) := by
  unfold State.rxFilters
  split
  · exact .rxPut h
  · exact .count h

theorem Frame.rxClassify (h : Frame s0 s) {p e f} : Frame s0 (s.rxClassify p e f) := by
  unfold State.rxClassify
  exact .ite (.ptpReceive (.wrap h)) (.ite (.count h) (.ite (.ptpReceive (.wrap h)) (.ite (.arpPacket (.wrap h)) (.ite
    (.dregaIn h) (.rxFilters h)))))

theorem Frame.rxFrame (h : Frame s0 s) {p bytes fcsOk ts} : Frame s0 (s.rxFrame p bytes fcsOk ts) := by
  unfold State.rxFrame
  extract_lets t
  have ht : Frame s0 t := .setClock h
  exact .ite h (.ite (.count ht) (.rxClassify ht))

theorem Frame.wHtxData (h : Frame s0 s) {p v} : Frame s0 (s.wHtxData p v).2 := by
  unfold State.wHtxData
  exact .ite (.setPath h) h

theorem Frame.wHtxCmd (h : Frame s0 s) {p v} : Frame s0 (s.wHtxCmd p v).2 := by
  unfold State.wHtxCmd
  extract_lets _ _ _ _ t1 _ _ t2
  have ht1 : Frame s0 t1 := .wrP (.wrP (.wrP (.wrP h)))
  have ht2 : Frame s0 t2 := .wrP (.setPath ht1)
  exact .ite1 ht1 (.ite1 ht2 (.drawn (.netSend (.wrP ht2))))

theorem Frame.htxDoneRead (h : Frame s0 s) {p} : Frame s0 (s.htxDoneRead p).2 := by
  unfold State.htxDoneRead
  exact .setPath h

theorem Frame.setHrx (h : Frame s0 s) {p n x} : Frame s0 (s.setHrx p n x) := by
  unfold State.setHrx
  refine .setPath h ?_
  split <;> rfl

theorem Frame.wHrxCmd (h : Frame s0 s) {p n v} : Frame s0 (s.wHrxCmd p n v).2 := by
  unfold State.wHrxCmd
  extract_lets _ t
  have ht : Frame s0 t := .wrP h
  refine .ite1 ht ?_
  split
  · exact .wrP (.wrP (.setHrx ht))
  · exact .wrP (.wrP (.wrP (.wrP (.setHrx (.setPort ht)))))

theorem Frame.hrxRead (h : Frame s0 s) {p n} : Frame s0 (s.hrxRead p n).2 := by
  unfold State.hrxRead
  exact .setHrx h

theorem Frame.nsWrap (h : Frame s0 s) : Frame s0 s.nsWrap := by
  unfold State.nsWrap
  exact .wrap (.update (.ite h (.until h)))

/-! #### The Nirair ring -/

theorem Frame.remember (h : Frame s0 s) {src q} : Frame s0 (s.remember src q) := by
  unfold State.remember
  exact .update h

theorem Frame.ringFault (h : Frame s0 s) {cause} : Frame s0 (s.ringFault cause) := by
  unfold State.ringFault
  exact .raise h

theorem Frame.ringForward (h : Frame s0 s) {port f} : Frame s0 (s.ringForward port f) := by
  unfold State.ringForward
  exact .update h

theorem Frame.ringCheck (h : Frame s0 s) {port bs} : Frame s0 (s.ringCheck port bs).2 := by
  unfold State.ringCheck
  refine .ite1 h ?_
  split
  · exact .count h
  · exact .ite1 h (.ite1 (.ringFault h) h)

theorem Frame.ringRx (h : Frame s0 s) {port bs fwd} : Frame s0 (s.ringRx port bs fwd).2 := by
  unfold State.ringRx
  split
  next e => exact .of_eq e (.ringCheck h)
  next e =>
    extract_lets _ _ t
    have ht : Frame s0 t := .ite (.ringForward (.of_eq e (.ringCheck h))) (.of_eq e (.ringCheck h))
    exact .ite1 ht (.remember (.ite (.count ht) ht))

theorem Frame.ringTake (h : Frame s0 s) {port type len bs g} (hf : ∀ s1 x0 u, Frame s1 u → Frame s1 (g x0 u)) : Frame
    s0 (s.ringTake port type len bs g) := by
  unfold State.ringTake
  refine .ite h ?_
  split
  next e => exact .ite (hf _ _ _ (.of_eq e (.ringRx h))) (.of_eq e (.ringRx h))
  next e => exact .of_eq e (.ringRx h)

theorem Frame.ringOut (h : Frame s0 s) {dest type payload} : Frame s0 (s.ringOut dest type payload) := by
  unfold State.ringOut
  exact .remember (.ringSend h)

theorem Frame.discoverTo (h : Frame s0 s) {mask} : Frame s0 (s.discoverTo mask) := by
  unfold State.discoverTo
  exact .foldl h fun _ _ h => .ringOut h

theorem Frame.ringSearch (h : Frame s0 s) : Frame s0 s.ringSearch := by
  unfold State.ringSearch
  extract_lets _ t1
  have ht1 : Frame s0 t1 := .wr (.update h)
  exact .ite (.discoverTo ht1) ht1

theorem Frame.ringReady (h : Frame s0 s) : Frame s0 s.ringReady := by
  unfold State.ringReady
  exact .ite (.ringSearch (.wr h)) h

theorem Frame.setPresent (h : Frame s0 s) {p uid} : Frame s0 (s.setPresent p uid) := by
  unfold State.setPresent
  extract_lets _ _ _ _ t3
  have ht3 : Frame s0 t3 := .update (.wr (.wr h))
  exact .ite ht3 (.raise ht3)

theorem Frame.setAbsent (h : Frame s0 s) {p} : Frame s0 (s.setAbsent p) := by
  unfold State.setAbsent
  exact .ite h (.raise (.update (.wr (.wr h))))

theorem Frame.onDiscover (h : Frame s0 s) {f} : Frame s0 (s.onDiscover f) := by
  unfold State.onDiscover
  extract_lets _ t1
  have ht1 : Frame s0 t1 := .update h
  exact .ite (.ite h (.ite ht1 (.ringFault (.wr ht1)))) (.ite (.ringOut h) h)

theorem Frame.memberHeard (h : Frame s0 s) {p} : Frame s0 (s.memberHeard p) := by
  unfold State.memberHeard
  exact .update h

theorem Frame.onJoin (h : Frame s0 s) {f} : Frame s0 (s.onJoin f) := by
  unfold State.onJoin
  extract_lets _ _ old t
  have ht : Frame s0 t := .ringOut (.memberHeard (.setPresent h))
  refine .ite h ?_
  refine .ite (.ringFault h) ?_
  split
  · exact .ite (.ringOut h) (.ringFault h)
  · clear_value old
    split
    · exact .ite ht (.raise ht)
    · exact ht

theorem Frame.onAdmit (h : Frame s0 s) {f} : Frame s0 (s.onAdmit f) := by
  unfold State.onAdmit
  exact .ite (.wr h) h

theorem Frame.discoverDue (h : Frame s0 s) : Frame s0 s.discoverDue := by
  unfold State.discoverDue
  exact .ite h (.ite (.discoverTo h) (.ite (.discoverTo h) h))

theorem Frame.searchEnd (h : Frame s0 s) : Frame s0 s.searchEnd := by
  unfold State.searchEnd
  extract_lets _ _ t1
  have ht1 : Frame s0 t1 := .foldl (.wr (.until h)) fun _ _ h => .setAbsent h
  exact .ite h (.ite ht1 (.wr ht1))

theorem Frame.joinAgain (h : Frame s0 s) : Frame s0 s.joinAgain := by
  unfold State.joinAgain
  exact .ite (.ringOut h) h

theorem Frame.memberTimeout (h : Frame s0 s) {p} : Frame s0 (s.memberTimeout p) := by
  unfold State.memberTimeout
  exact .ite (.setAbsent h) h

theorem Frame.faultEnd (h : Frame s0 s) : Frame s0 s.faultEnd := by
  unfold State.faultEnd
  exact .ite (.ringSearch (.until h)) h

theorem Frame.ringPortDown (h : Frame s0 s) {p} : Frame s0 (s.ringPortDown p) := by
  unfold State.ringPortDown
  extract_lets _ t1
  have ht1 : Frame s0 t1 := .update h
  exact .ite (.foldl ht1 fun _ _ h => .setAbsent h) ht1

theorem Frame.hopAsk (h : Frame s0 s) : Frame s0 s.hopAsk := by
  unfold State.hopAsk
  extract_lets t
  have ht : Frame s0 t := .ite (.ringSend (.ringSend h)) h
  exact .ite (.twinSend ht) ht

theorem Frame.hopTake (h : Frame s0 s) {l ringType twinType bs g} (hf : ∀ s1 x0 u, Frame s1 u → Frame s1 (g x0 u)) :
    Frame s0 (s.hopTake l ringType twinType bs g) := by
  unfold State.hopTake
  extract_lets
  refine .ite h ?_
  split
  · split
    · exact .count h
    · exact hf _ _ _ h
  · split
    next e => exact hf _ _ _ (.of_eq e (.ringCheck h))
    next e => exact .of_eq e (.ringCheck h)
  · split
    next e => exact hf _ _ _ (.of_eq e (.ringCheck h))
    next e => exact .of_eq e (.ringCheck h)

theorem Frame.onDelayReq (h : Frame s0 s) {l} : Frame s0 (s.onDelayReq l) := by
  unfold State.onDelayReq
  extract_lets
  split
  · exact .drawn (.ringSend h)
  · exact .drawn (.ringSend h)
  · exact .drawn (.twinSend h)

theorem Frame.onDelayResp (h : Frame s0 s) {l f trip} : Frame s0 (s.onDelayResp l f trip) := by
  unfold State.onDelayResp
  extract_lets
  split
  · exact .wr (.update h)
  · exact .wr (.update h)
  · exact .update h

theorem Frame.markerSend (h : Frame s0 s) : Frame s0 s.markerSend := by
  unfold State.markerSend
  extract_lets _ _ _ t2 _ t3 t4
  have ht2 : Frame s0 t2 := .update (.ite (.setEpoch h) h)
  have ht3 : Frame s0 t3 := .ringOut ht2
  have ht4 : Frame s0 t4 := .ite (.ite (.wr ht3) ht3) ht2
  exact .ite h (.drawn (.ite (.twinSend ht4) ht4))

theorem Frame.alignLost (h : Frame s0 s) {cause e} : Frame s0 (s.alignLost cause e) := by
  unfold State.alignLost
  exact .raise (.count (.update (.wrB (.wr h))))

theorem Frame.shiftEpoch (h : Frame s0 s) {n} : Frame s0 (s.shiftEpoch n) := by
  unfold State.shiftEpoch
  exact .update h

theorem Frame.steerTrim (h : Frame s0 s) {e} : Frame s0 (s.steerTrim e) := by
  unfold State.steerTrim
  extract_lets _ _ _ t2
  have ht2 : Frame s0 t2 := .update h
  exact .ite (.wr h) (.ite (.shiftEpoch (.wr ht2)) (.shiftEpoch (.wr ht2)))

theorem Frame.steerPhase (h : Frame s0 s) {e} : Frame s0 (s.steerPhase e) := by
  unfold State.steerPhase
  exact .ite (.shiftEpoch h) (.steerTrim h)

theorem Frame.alignStep (h : Frame s0 s) {second hops epoch e} : Frame s0 (s.alignStep second hops epoch e) := by
  unfold State.alignStep
  extract_lets _ _ _ t2 _ t4 _ _ _ _ _ _ t9 _ _ _ _ _ t14
  have ht2 : Frame s0 t2 := .update (.wr (.wrS h))
  have ht4 : Frame s0 t4 := .ite (.drawn (.update ht2)) ht2
  have ht9 : Frame s0 t9 := .update (.steerPhase ht4)
  have ht14 : Frame s0 t14 := .update (.steerTrim (.wr ht4))
  exact .ite (.ite (.wr (.update (.setBase ht4))) ht4) (.ite (.ite ht9 (.wrB (.wr (.update ht9)))) (.ite (.alignLost
    ht4) (.ite (.alignLost ht14) (.ite (.alignLost ht14) ht14))))

theorem Frame.noteMarker (h : Frame s0 s) {port f} : Frame s0 (s.noteMarker port f) := by
  unfold State.noteMarker
  extract_lets _ _ _ _ t1
  have ht1 : Frame s0 t1 := .update h
  exact .ite (.wrB (.update h)) (.ite (.raise (.wrB ht1)) ht1)

theorem Frame.untilEpoch (h : Frame s0 s) {e} : Frame s0 (s.untilEpoch e) := by
  unfold State.untilEpoch
  exact .until h

theorem Frame.onMarker (h : Frame s0 s) {port bs epoch lag} : Frame s0 (s.onMarker port bs epoch lag) := by
  unfold State.onMarker
  extract_lets
  refine .ite h ?_
  split
  next e => exact .of_eq e (.ringRx h)
  next e =>
    extract_lets t _ _ t2
    have ht : Frame s0 t := .noteMarker (.drawn (.of_eq e (.ringRx h)))
    have ht2 : Frame s0 t2 := .ite (.wr (.update ht)) ht
    exact .ite ht (.ite ht2 (.alignStep (.update (.untilEpoch ht2))))

theorem Frame.holdover (h : Frame s0 s) : Frame s0 s.holdover := by
  unfold State.holdover
  exact .ite (.wr (.until h)) h

theorem Frame.masterLost (h : Frame s0 s) : Frame s0 s.masterLost := by
  unfold State.masterLost
  exact .ite h (.update (.until h))

theorem Frame.takeContrib (h : Frame s0 s) {p c} : Frame s0 (s.takeContrib p c) := by
  unfold State.takeContrib
  extract_lets _ _ _ _ _ _ _ _ _ t1
  have ht1 : Frame s0 t1 := .update h
  exact .ite (.count (.update ht1)) (.update ht1)

theorem Frame.onContrib (h : Frame s0 s) {f} : Frame s0 (s.onContrib f) := by
  unfold State.onContrib
  extract_lets _ t
  have ht : Frame s0 t := .memberHeard h
  exact .ite h (.ringOut (.ite ht (.takeContrib ht)))

/-! #### The twin -/

theorem Frame.helloSend (h : Frame s0 s) : Frame s0 s.helloSend := by
  unfold State.helloSend
  exact .ite h (.twinSend h)

theorem Frame.twinReady (h : Frame s0 s) : Frame s0 s.twinReady := by
  unfold State.twinReady
  exact .ite (.helloSend (.wrB (.setTwin h))) h

theorem Frame.twinPair (h : Frame s0 s) : Frame s0 s.twinPair := by
  unfold State.twinPair
  exact .raise (.update (.wrB (.wrB (.count (.setTwin h)))))

theorem Frame.twinUnpair (h : Frame s0 s) {v} : Frame s0 (s.twinUnpair v) := by
  unfold State.twinUnpair
  exact .wrB (.update (.setTwin h))

theorem Frame.pairTests (h : Frame s0 s) {uid role pos site} : Frame s0 (s.pairTests uid role pos site) := by
  unfold State.pairTests
  extract_lets _ _ t
  have ht : Frame s0 t := .ite h (.twinUnpair h)
  exact .ite (.ite h (.raise (.twinUnpair h))) (.ite (.ite h (.raise (.twinUnpair h))) (.ite (.ite ht (.raise (.update
    ht))) (.ite h (.ite (.twinPair (.setTwin h)) (.wrB (.wr (.setTwin h)))))))

theorem Frame.twinTake (h : Frame s0 s) {type len bs g} (hf : ∀ s1 x0 u, Frame s1 u → Frame s1 (g x0 u)) : Frame s0
    (s.twinTake type len bs g) := by
  unfold State.twinTake
  refine .ite h ?_
  split
  · exact .count h
  · exact .ite (hf _ _ _ h) h

theorem Frame.onHello (h : Frame s0 s) {b} : Frame s0 (s.onHello b) := by
  unfold State.onHello
  extract_lets _ _ _ _ _ t4
  have ht4 : Frame s0 t4 := .wr (.wrB (.update (.ite h (.update h))))
  exact .ite ht4 (.pairTests ht4)

theorem Frame.onTwinMarker (h : Frame s0 s) {b epoch lag} : Frame s0 (s.onTwinMarker b epoch lag) := by
  unfold State.onTwinMarker
  extract_lets _ _ t1
  have ht1 : Frame s0 t1 := .alignStep (.untilEpoch (.ite (.wr h) h))
  exact .ite h (.ite (.twinPair ht1) ht1)

theorem Frame.onDelta (h : Frame s0 s) {b} : Frame s0 (s.onDelta b) := by
  unfold State.onDelta
  exact .ite h (.matchTick (.update h))

theorem Frame.onSole (h : Frame s0 s) : Frame s0 s.onSole := by
  unfold State.onSole
  exact .ite h (.raise (.wrB (.wrB h)))

theorem Frame.presenceLost (h : Frame s0 s) : Frame s0 s.presenceLost := by
  unfold State.presenceLost
  extract_lets _ _ _ t3
  have ht3 : Frame s0 t3 := .twinUnpair (.update (.wr (.wrB h)))
  exact .ite h (.raise (.ite (.wr ht3) ht3))

theorem Frame.windowBay (h : Frame s0 s) {b} : Frame s0 (s.windowBay b) := by
  unfold State.windowBay
  extract_lets _ _ _ _ _ _ _ _ t
  have ht : Frame s0 t := .wr (.wr h)
  exact .ite (.raise (.wr (.wr ht))) (.ite (.wr ht) ht)

theorem Frame.matchWaiting (h : Frame s0 s) : Frame s0 s.matchWaiting := by
  unfold State.matchWaiting
  exact .foldl h fun _ _ h => .matchTick h

theorem Frame.windowEnd (h : Frame s0 s) : Frame s0 s.windowEnd := by
  unfold State.windowEnd
  extract_lets _ t t1 t2 t3
  have ht : Frame s0 t := .count h
  have ht1 : Frame s0 t1 := .foldl ht fun _ _ h => .windowBay h
  have ht2 : Frame s0 t2 := .wrap ht1
  have ht3 : Frame s0 t3 := .wrB ht2
  exact .ite h (.matchWaiting (.update ht3))

/-! #### Sources of ledger time -/

theorem Frame.outageProcessing (h : Frame s0 s) : Frame s0 s.outageProcessing := by
  unfold State.outageProcessing
  extract_lets
  refine .ite h ?_
  split
  · exact .ite h (.ite (.update h) (.raiseAll (.wrB (.update h))))
  · exact h

/-! #### The recorder -/

theorem Frame.refreshRecs (h : Frame s0 s) : Frame s0 s.refreshRecs := by
  unfold State.refreshRecs
  extract_lets t
  have ht : Frame s0 t := .wr h
  split
  · exact .wr ht
  · exact .drawn (.wr ht)

/-- The record chosen next leaves the events that are being gathered. -/
theorem State.nextRec_gather {x : Record} {r : Recorder} (e : s.nextRec = some (x, r)) : r.gather = s.rcd.gather := by
  unfold State.nextRec at e
  dsimp only at e
  repeat' split at e
  all_goals cases e
  all_goals rfl

theorem Frame.recStart (h : Frame s0 s) : Frame s0 s.recStart := by
  unfold State.recStart
  refine .ite h ?_
  split
  · exact h
  next e =>
    have hg := State.nextRec_gather e
    refine .wrB (.setRcd h ?_)
    exact hg

theorem Frame.recEnd (h : Frame s0 s) : Frame s0 s.recEnd := by
  unfold State.recEnd
  extract_lets _ t1
  have ht1 : Frame s0 t1 := .wrB (.setRcd h)
  split
  · exact h
  · exact .ite ht1 (.irq (.refreshRecs (.setRcd (.update ht1))))

theorem Frame.recDone (h : Frame s0 s) {fails} : Frame s0 (s.recDone fails) := by
  unfold State.recDone
  exact .recEnd (.bankFails h)

theorem Frame.suppTimeout (h : Frame s0 s) : Frame s0 s.suppTimeout := by
  unfold State.suppTimeout
  extract_lets
  split
  · exact h
  · exact .setRcd (.until h)

theorem Frame.scanDone (h : Frame s0 s) : Frame s0 s.scanDone := by
  unfold State.scanDone
  refine .ite h ?_
  refine .sameCycle (.raiseFront (.refreshRecs (.wrB (.setRcd (.update h))))) fun s0 _ h => ?_
  extract_lets t
  have ht : Frame s0 t := .raise h
  exact .batAlarms (.ite (.raise (.update ht)) ht)

theorem Frame.periodEnd (h : Frame s0 s) : Frame s0 s.periodEnd := by
  unfold State.periodEnd
  exact .ite h (.setRcd h)

theorem Frame.rdResult (h : Frame s0 s) {v} : Frame s0 (s.rdResult v) := by
  unfold State.rdResult
  exact .wr h

theorem Frame.recFreeze (h : Frame s0 s) : Frame s0 s.recFreeze := by
  unfold State.recFreeze
  exact .ite (.rdResult h) (.ite (.rdResult h) (.ite (.rdResult h) (.ite (.rdResult h) (.rdResult (.wrB (.setRcd h))))))

theorem Frame.recRelease (h : Frame s0 s) : Frame s0 s.recRelease := by
  unfold State.recRelease
  exact .ite (.rdResult (.endFreeze h)) (.rdResult h)

theorem Frame.wRecRd (h : Frame s0 s) {_p v} : Frame s0 (s.wRecRd _p v).2 := by
  unfold State.wRecRd
  extract_lets t
  have ht : Frame s0 t := .ite (.recFreeze h) h
  exact .ite (.recRelease ht) ht

theorem Frame.freezeTimeout (h : Frame s0 s) : Frame s0 s.freezeTimeout := by
  unfold State.freezeTimeout
  split
  · exact h
  · exact .endFreeze (.until h)

theorem Frame.freeSlots (h : Frame s0 s) : Frame s0 s.freeSlots := by
  unfold State.freeSlots
  exact .wr (.wr (.foldl h fun _ _ h => .setWord h))

theorem Frame.recClear (h : Frame s0 s) {a slots} : Frame s0 (s.recClear a slots) := by
  unfold State.recClear
  extract_lets t
  have ht : Frame s0 t := .endFreeze (.recEnd h)
  split
  next e => exact .wr (.of_eq e (.command ht))
  next e =>
    extract_lets _ t2
    have ht2 : Frame s0 t2 := .setRcd (.of_eq e (.command ht))
    exact .wr (.refreshRecs (.ite (.freeSlots ht2) ht2))

theorem Frame.wRecCmd (h : Frame s0 s) {p v} : Frame s0 (s.wRecCmd p v).2 := by
  unfold State.wRecCmd
  extract_lets _ t
  have ht : Frame s0 t := .disarm h
  refine .ite1 ?_ h
  split
  · exact ht
  · exact .wr ht
  · exact .wr ht
  · exact .ite (.wr ht) (.ite (.wr ht) (.recClear ht))

theorem Frame.wRecSel (h : Frame s0 s) {p v} : Frame s0 (s.wRecSel p v).2 := by
  unfold State.wRecSel
  exact .setPath (.wrP (.wr h))

theorem Frame.wAudSel (h : Frame s0 s) {p v} : Frame s0 (s.wAudSel p v).2 := by
  unfold State.wAudSel
  exact .setPath (.wrP (.wr h))

theorem Frame.loadDone (h : Frame s0 s) {p log fails} : Frame s0 (s.loadDone p log fails) := by
  unfold State.loadDone
  extract_lets t
  have ht : Frame s0 t := .bankFails h
  refine .ite ht ?_
  split
  · split
    · exact ht
    · exact .setPath (.wrP ht)
  · split
    · exact ht
    · exact .setPath (.wrP ht)

theorem Frame.bufWord (h : Frame s0 s) {buf i status loading} : Frame s0 (s.bufWord buf i status loading).2 := by
  unfold State.bufWord
  split
  · exact h
  · exact .ite1 (.drawn h) h

theorem State.bufWord_path {p : Path} {buf i status loading} : (s.bufWord buf i status loading).2.path p = s.path p :=
    by
  unfold State.bufWord
  split
  · rfl
  · split <;> cases p <;> rfl

theorem Frame.recDataRead (h : Frame s0 s) {p} : Frame s0 (s.recDataRead p).2 := by
  unfold State.recDataRead
  exact .setPath (.bufWord h) (by rw [State.bufWord_path])

theorem Frame.audDataRead (h : Frame s0 s) {p} : Frame s0 (s.audDataRead p).2 := by
  unfold State.audDataRead
  exact .setPath (.ite1 (.wrP h) (.bufWord h))

theorem Frame.refill (h : Frame s0 s) {code} : Frame s0 (s.refill code) := by
  unfold State.refill
  exact .setRcd (.until h)

/-! #### Acquisition lanes -/

theorem Frame.setLane (h : Frame s0 s) {n l} : Frame s0 (s.setLane n l) := by
  unfold State.setLane
  exact .update h

theorem Frame.breakWindow (h : Frame s0 s) {n} : Frame s0 (s.breakWindow n) := by
  unfold State.breakWindow
  exact .update h

theorem Frame.refreshDegraded (h : Frame s0 s) : Frame s0 s.refreshDegraded := by
  unfold State.refreshDegraded
  exact .wrB h

theorem Frame.refreshLane (h : Frame s0 s) {n} : Frame s0 (s.refreshLane n) := by
  unfold State.refreshLane
  exact .wrB h

theorem Frame.refreshAcq (h : Frame s0 s) : Frame s0 s.refreshAcq := by
  unfold State.refreshAcq
  exact .refreshDegraded (.wr (.wr (.wr h)))

theorem Frame.setLaneState (h : Frame s0 s) {n v} : Frame s0 (s.setLaneState n v) := by
  unfold State.setLaneState
  exact .refreshLane (.wr h)

theorem Frame.laneInvalid (h : Frame s0 s) {n} : Frame s0 (s.laneInvalid n) := by
  unfold State.laneInvalid
  exact .setLaneState (.setLane h)

theorem Frame.laneCount (h : Frame s0 s) {n} : Frame s0 (s.laneCount n) := by
  unfold State.laneCount
  exact .breakWindow (.laneInvalid h)

theorem Frame.laneBegin (h : Frame s0 s) {n} : Frame s0 (s.laneBegin n) := by
  unfold State.laneBegin
  exact .laneInvalid (.setLane (.wrB (.wrB h)))

theorem Frame.laneStart (h : Frame s0 s) {n} : Frame s0 (s.laneStart n) := by
  unfold State.laneStart
  exact .breakWindow (.laneBegin h)

theorem Frame.laneStop (h : Frame s0 s) {n} : Frame s0 (s.laneStop n) := by
  unfold State.laneStop
  exact .setLaneState (.setLane h)

theorem Frame.laneCountEnd (h : Frame s0 s) {n} : Frame s0 (s.laneCountEnd n) := by
  unfold State.laneCountEnd
  exact .ite (.refreshAcq (.setLaneState h)) h

theorem Frame.wLaneCtrl (h : Frame s0 s) {p v} : Frame s0 (s.wLaneCtrl p v).2 := by
  unfold State.wLaneCtrl
  extract_lets _ t _ t1
  have ht : Frame s0 t := .wr h
  have ht1 : Frame s0 t1 := .wrB ht
  split
  · exact .ite1 ht (.ite1 (.wrB ht) (.ite ht1 (.refreshAcq (.laneStart ht1))))
  · exact h

theorem Frame.wMmCtrl (h : Frame s0 s) {x0 v} : Frame s0 (s.wMmCtrl x0 v).2 := by
  unfold State.wMmCtrl
  exact .ite1 h (.ite1 (.count h) (.wrB h))

theorem Frame.captureBoundary (h : Frame s0 s) : Frame s0 s.captureBoundary := by
  unfold State.captureBoundary
  exact .ite h (.wrB (.wrB (.wr (.update (.foldl h fun _ _ h => .wrS (.wrS h))))))

theorem Frame.sliceIsolated (h : Frame s0 s) {n fine} : Frame s0 (s.sliceIsolated n fine) := by
  unfold State.sliceIsolated
  exact .escRecord (.escBlock (.setLaneState (.ite (.wrB h) (.wrB h))))

theorem Frame.countSample (h : Frame s0 s) {win n vc fit} : Frame s0 (s.countSample win n vc fit) := by
  unfold State.countSample
  exact .update h

theorem Frame.laneSample (h : Frame s0 s) {e n conv} : Frame s0 (s.laneSample e n conv) := by
  unfold State.laneSample
  extract_lets _ _ _ _ _ _ _ _ _ t4 t5 t6 _ _ _ _ _ _ _ _ _ _ _ _ _ _ t8
  have ht4 : Frame s0 t4 := .count (.count (.setLane (.update h)))
  have ht5 : Frame s0 t5 := .ite (.sliceIsolated ht4) ht4
  have ht6 : Frame s0 t6 := .ite (.sliceIsolated ht5) ht5
  have ht8 : Frame s0 t8 := .setLane ht6
  exact .ite (.update (.setLane h)) (.ite (.setLane ht6) (.ite (.setLane ht6) (.ite (.count (.wrB ht8)) (.countSample
    ht8))))

theorem Frame.lanesSample (h : Frame s0 s) {conv} : Frame s0 (s.lanesSample conv) := by
  unfold State.lanesSample
  exact .refreshAcq (.foldl (.update (.setEpoch h)) fun _ _ h => .laneSample h)

/-! #### The calibrator -/

theorem Frame.unstage (h : Frame s0 s) {lane} : Frame s0 (s.unstage lane) := by
  unfold State.unstage
  exact .update h

theorem Frame.refreshProvisional (h : Frame s0 s) : Frame s0 s.refreshProvisional := by
  unfold State.refreshProvisional
  exact .foldl h fun _ _ h => .wrB h

theorem Frame.refreshIdle (h : Frame s0 s) {n} : Frame s0 (s.refreshIdle n) := by
  unfold State.refreshIdle
  exact .wrB h

theorem Frame.stageEnd (h : Frame s0 s) {result} : Frame s0 (s.stageEnd result) := by
  unfold State.stageEnd
  exact .wr (.wrB (.update (.foldl h fun _ _ h => .unstage h)))

theorem Frame.calWindowEnd (h : Frame s0 s) : Frame s0 s.calWindowEnd := by
  unfold State.calWindowEnd
  extract_lets _ _ _ t2
  have ht2 : Frame s0 t2 := .wr (.setEpoch (.update h))
  exact .ite h (.ite (.stageEnd ht2) ht2)

theorem Frame.notMeasured (h : Frame s0 s) {n} : Frame s0 (s.notMeasured n) := by
  unfold State.notMeasured
  exact .wr h

theorem Frame.acceptCand (h : Frame s0 s) {n c} : Frame s0 (s.acceptCand n c) := by
  unfold State.acceptCand
  extract_lets _ _ _ _ _ _ _ _ _ _ t3
  have ht3 : Frame s0 t3 := .wr (.wrap (.wr (.wr (.update h))))
  exact .refreshLane (.wrB (.ite (.wrB ht3) ht3))

theorem Frame.rejectCand (h : Frame s0 s) {n cause} : Frame s0 (s.rejectCand n cause).1 := by
  unfold State.rejectCand
  extract_lets _ _ _ t1
  have ht1 : Frame s0 t1 := .wr (.wr (.wr h))
  exact .ite3 (.refreshLane (.wrB ht1)) ht1

theorem Frame.evaluateLane (h : Frame s0 s) {n} : Frame s0 (s.evaluateLane n).1 := by
  unfold State.evaluateLane
  extract_lets _ _ t _ t1 _ _ t2 _ t4
  have ht : Frame s0 t := .ite (.drawn h) h
  have ht1 : Frame s0 t1 := .wr ht
  have ht2 : Frame s0 t2 := .wrB ht1
  have ht4 : Frame s0 t4 := .ite (.update ht2) ht2
  exact .ite3 (.wr (.notMeasured ht)) (.ite3 (.notMeasured ht1) (.refreshIdle (.ite3 (.acceptCand ht4) (.rejectCand
    ht4))))

theorem Frame.calEvaluated (h : Frame s0 s) : Frame s0 s.calEvaluated := by
  unfold State.calEvaluated
  extract_lets _ lanes _ t x t2
  have hx : Frame s0 x.1 := by
    refine .foldl3 (.update h) fun _ _ h => ?_
    exact .evaluateLane h
  have ht2 : Frame s0 t2 := .raiseTogether hx
  exact .ite h (.refreshProvisional (.refreshAcq (.wr (.update (.wr (.wr (.wr (.wr ht2))))))))

theorem Frame.calFull (h : Frame s0 s) : Frame s0 s.calFull := by
  unfold State.calFull
  extract_lets t
  have ht : Frame s0 t := .wrB h
  exact .ite (.ite (.setChip ht) ht) h

theorem Frame.calSwitchOver (h : Frame s0 s) : Frame s0 s.calSwitchOver := by
  unfold State.calSwitchOver
  extract_lets _ _ _ _ _ _ _ _ t _ t2
  have ht : Frame s0 t := .update h
  have ht2 : Frame s0 t2 := .irq (.wrap (.ite (.foldl ht fun _ _ h => .ite (.wrB h) h) ht))
  exact .ite h (.ite (.ite (.wr h) h) (.refreshProvisional (.calFull (.ite (.wr ht2) ht2))))

theorem Frame.calDiscard (h : Frame s0 s) {n} : Frame s0 (s.calDiscard n) := by
  unfold State.calDiscard
  extract_lets _ t
  have ht : Frame s0 t := .unstage (.update h)
  exact .ite h (.ite ht (.notMeasured (.wr (.wr ht))))

theorem Frame.calFineGain (h : Frame s0 s) {n} : Frame s0 (s.calFineGain n) := by
  unfold State.calFineGain
  exact .wrB (.update h)

theorem Frame.refCheck (h : Frame s0 s) {measured} : Frame s0 (s.refCheck measured) := by
  unfold State.refCheck
  extract_lets _ _ t1 _ _ _ _ _ _ t4
  have ht1 : Frame s0 t1 := .update h
  have ht4 : Frame s0 t4 := .update (.ite (.wrS ht1) (.drawn (.wr ht1)))
  exact .ite ht1 (.ite (.raise (.wrB (.wrB ht4))) (.ite (.wrB ht4) ht4))

theorem Frame.calScale (h : Frame s0 s) : Frame s0 s.calScale := by
  unfold State.calScale
  extract_lets
  split
  · exact h
  · exact .foldl (.update h) fun _ _ h => .ite (.wrB h) h

theorem Frame.calStart (h : Frame s0 s) : Frame s0 s.calStart := by
  unfold State.calStart
  exact .refreshProvisional (.setEpoch (.wr h))

theorem Frame.stageCommit (h : Frame s0 s) {roles keys} : Frame s0 (s.stageCommit roles keys) := by
  unfold State.stageCommit
  exact .ite (.wr (.foldl h fun _ _ h => .wr h)) (.ite (.wr (.command h)) (.wr (.wrB (.update (.ite (.command h)
    (.drawn (.command h)))))))

theorem Frame.wCalCmd (h : Frame s0 s) {p v} : Frame s0 (s.wCalCmd p v).2 := by
  unfold State.wCalCmd
  extract_lets cmd _ _ g t t1 res
  have ht : Frame s0 t := .ite (.disarm h) h
  have ht1 : Frame s0 t1 := .wr ht
  have hres {n} : Frame s0 (res n).2 := .wr ht1
  clear_value cmd g
  refine .ite1 ?_ ?_
  · split
    · exact .stageCommit (.wr ht)
    · exact .wr ht
    · exact ht
  · split
    · exact .wr ht
    · exact ht
    · exact ht
    · extract_lets y
      have hy : Frame s0 y.2 := .command ht1
      split
      · exact .ite1 hres (.wr (.wrB ht1))
      · exact .ite1 hres (.stageCommit ht1)
      · exact .ite1 hres (.stageEnd ht1)
      · exact .ite1 hres (.ite1 (.wr (.wrB hy)) (.wr hy))
      · exact ht1

theorem Frame.calAdvance (h : Frame s0 s) : Frame s0 s.calAdvance := by
  unfold State.calAdvance
  exact .ite (.wr h) (.wr (.wr h))

theorem Frame.calDataRead (h : Frame s0 s) : Frame s0 (s.calDataRead).2 := by
  unfold State.calDataRead
  exact .calAdvance h

theorem Frame.wCalData (h : Frame s0 s) {p v} : Frame s0 (s.wCalData p v).2 := by
  unfold State.wCalData
  extract_lets
  split
  · exact .ite1 h (.ite1 h (.calAdvance (.update h)))
  · exact h

/-! #### Bay metrology -/

theorem Frame.setBay (h : Frame s0 s) {b y} : Frame s0 (s.setBay b y) := by
  unfold State.setBay
  exact .update h

theorem Frame.rateUpdate (h : Frame s0 s) {epoch ns} : Frame s0 (s.rateUpdate epoch ns) := by
  unfold State.rateUpdate
  extract_lets meas
  clear_value meas
  split
  · exact .rateTrim h
  · exact .ite (.wrB (.rateFrom h)) (.drawn (.wrB (.rateFrom h)))

theorem Frame.setPulse (h : Frame s0 s) {k x} : Frame s0 (s.setPulse k x) := by
  unfold State.setPulse
  exact .update h

theorem Frame.pulseAdd (h : Frame s0 s) {k b prim sec T} : Frame s0 (s.pulseAdd k b prim sec T) := by
  unfold State.pulseAdd
  exact .ite h (.setPulse h)

theorem Frame.pulseStep (h : Frame s0 s) {k} : Frame s0 (s.pulseStep k) := by
  unfold State.pulseStep
  extract_lets _ _ _ _ _ _ _ t1
  have ht1 : Frame s0 t1 := .setPulse h
  exact .ite h (.wr (.ite (.wrB ht1) ht1))

theorem Frame.pulseStart (h : Frame s0 s) {k} : Frame s0 (s.pulseStart k) := by
  unfold State.pulseStart
  exact .ite h (.wrap (.wr (.setPulse h)))

theorem Frame.pulseEnd (h : Frame s0 s) {k} : Frame s0 (s.pulseEnd k) := by
  unfold State.pulseEnd
  exact .ite h (.setPulse h)

theorem Frame.pulseClear (h : Frame s0 s) {k} : Frame s0 (s.pulseClear k) := by
  unfold State.pulseClear
  exact .wr (.setPulse h)

theorem Frame.dropWindow (h : Frame s0 s) {b} : Frame s0 (s.dropWindow b) := by
  unfold State.dropWindow
  extract_lets
  split
  · exact h
  · exact .count (.setBay h)

theorem Frame.setTrack (h : Frame s0 s) {b v} : Frame s0 (s.setTrack b v) := by
  unfold State.setTrack
  extract_lets _ t t1 t2
  have ht : Frame s0 t := .wrB (.wr h)
  have ht1 : Frame s0 t1 := .ite (.dropWindow (.wrB ht)) ht
  have ht2 : Frame s0 t2 := .ite (.wr ht1) ht1
  exact .wr (.wr (.ite (.setBay ht2) ht2))

theorem Frame.trackStart (h : Frame s0 s) {b centre} : Frame s0 (s.trackStart b centre) := by
  unfold State.trackStart
  exact .setTrack (.setBay h)

theorem Frame.cutCycle (h : Frame s0 s) {b epoch v} : Frame s0 (s.cutCycle b epoch v) := by
  unfold State.cutCycle
  exact .ite h (.setBay h)

theorem Frame.direction (h : Frame s0 s) {b x T} : Frame s0 (s.direction b x T) := by
  unfold State.direction
  extract_lets t
  have ht : Frame s0 t := .foldl h fun _ _ h => .ite h (.wrB h)
  exact .ite ht (.ite (.setBay ht) (.ite (.setBay ht) (.raise (.wrB (.setBay ht)))))

theorem Frame.putB32 (h : Frame s0 s) {b fs vs} : Frame s0 (s.putB32 b fs vs) := by
  unfold State.putB32
  exact .foldl h fun _ _ h => .wr h

theorem Frame.tickValues (h : Frame s0 s) {b cs} : Frame s0 (s.tickValues b cs) := by
  unfold State.tickValues
  extract_lets _ _ _ _ _ _ _ _ t1
  have ht1 : Frame s0 t1 := .foldl (.foldl h fun _ _ h => .putB32 h) fun _ _ h => .wr h
  exact .wr (.ite (.wr ht1) ht1)

theorem Frame.bayTickNow (h : Frame s0 s) {b epoch} : Frame s0 (s.bayTickNow b epoch) := by
  unfold State.bayTickNow
  extract_lets _ _ _ t1
  have ht1 : Frame s0 t1 := .wrB (.setBay h)
  exact .ite (.wr ht1) (.wrap (.tickValues ht1))

theorem Frame.bayTickDue (h : Frame s0 s) {b} : Frame s0 (s.bayTickDue b) := by
  unfold State.bayTickDue
  extract_lets
  split
  · exact h
  · exact .ite h (.bayTickNow h)

theorem Frame.bayTick (h : Frame s0 s) {b epoch} : Frame s0 (s.bayTick b epoch) := by
  unfold State.bayTick
  extract_lets t
  have ht : Frame s0 t := by
    unfold t
    split
    · exact h
    · exact .bayTickNow h
  exact .bayTickDue (.setBay ht)

theorem Frame.addCycle (h : Frame s0 s) {b c} : Frame s0 (s.addCycle b c) := by
  unfold State.addCycle
  exact .setBay h

theorem Frame.cycleStatus (h : Frame s0 s) {b x quad} : Frame s0 (s.cycleStatus b x quad) := by
  unfold State.cycleStatus
  exact .wrB (.wrB (.wrB (.wrB (.ite h (.wr h)))))

theorem Frame.finishCycle (h : Frame s0 s) {b y c} : Frame s0 (s.finishCycle b y c) := by
  unfold State.finishCycle
  extract_lets _ _ _ _ _ _ t3 t4
  have ht3 : Frame s0 t3 := .count (.direction (.cycleStatus (.foldl (.ite h (.update h)) fun _ _ h => .pulseAdd h)))
  have ht4 : Frame s0 t4 := .ite (.wrB ht3) ht3
  exact .addCycle (.ite (.wrB ht4) ht4)

theorem Frame.queueJob (h : Frame s0 s) {j} : Frame s0 (s.queueJob j) := by
  unfold State.queueJob
  exact .ite (.count h) (.ite (.update h) (.ite (.update h) (.ite (.count h) (.update h))))

theorem Frame.windowCycle (h : Frame s0 s) {b y c lost was} : Frame s0 (s.windowCycle b y c lost was) := by
  unfold State.windowCycle
  extract_lets _ _ t1
  have ht1 : Frame s0 t1 := by
    unfold t1
    split
    · exact h
    · exact .ite (.dropWindow h) (.ite (.setBay h) (.ite (.setBay h) (.queueJob (.setBay h))))
  exact .ite (.setBay ht1) ht1

theorem Frame.zeroSumAdd (h : Frame s0 s) {b c} : Frame s0 (s.zeroSumAdd b c) := by
  unfold State.zeroSumAdd
  exact .ite h (.update h)

theorem Frame.cycleEnd (h : Frame s0 s) {b} : Frame s0 (s.cycleEnd b) := by
  unfold State.cycleEnd
  extract_lets _ _ _ _ _ fin
  have hfin {u x c out} (h : Frame s0 u) : Frame s0 (fin u x c out) := by
    exact .bayTickDue (.windowCycle (.ite (.finishCycle (.setBay (.ite (.drawn h) h)))
      (.setTrack (.finishCycle (.setBay (.ite (.drawn h) h))))))
  refine .ite h (.ite (hfin (.wrB (.count h))) ?_)
  split
  · exact h
  · exact hfin (.zeroSumAdd h)

theorem Frame.baySample (h : Frame s0 s) {b} : Frame s0 (s.baySample b) := by
  unfold State.baySample
  extract_lets
  refine .ite h ?_
  refine .ite (.wrB (.count h)) ?_
  refine .ite ?_ h
  split
  · exact .trackStart h
  · exact h

theorem Frame.outputSample (h : Frame s0 s) {conv} : Frame s0 (s.outputSample conv) := by
  unfold State.outputSample
  exact .foldl (.foldl (.lanesSample h) fun _ _ h => .baySample h) fun _ _ h => .pulseStep h

/-! #### Power quality -/

theorem Frame.reportEvent (h : Frame s0 s) {b kind e stop down aborted} : Frame s0 (s.reportEvent b kind e stop down
    aborted).1 := by
  unfold State.reportEvent
  extract_lets _ _ _ _ _ _ _ _ _ t5
  have ht5 : Frame s0 t5 := .setBay (.count (.wr (.wr (.wr (.wrB (.wrB (.wr h)))))))
  exact .ite3 ht5 ht5

theorem Frame.stepDip (h : Frame s0 s) {b rs stop since} : Frame s0 (s.stepDip b rs stop since).1 := by
  unfold State.stepDip
  extract_lets
  split
  · exact .ite3 (.setBay h) h
  · exact .ite3 (.reportEvent (.setBay h)) (.setBay h)

theorem Frame.stepSwell (h : Frame s0 s) {b rs stop since} : Frame s0 (s.stepSwell b rs stop since).1 := by
  unfold State.stepSwell
  extract_lets
  split
  · exact .ite3 (.setBay h) h
  · exact .ite3 (.reportEvent (.setBay h)) (.setBay h)

theorem Frame.halfStatus (h : Frame s0 s) {b rs} : Frame s0 (s.halfStatus b rs) := by
  unfold State.halfStatus
  exact .wrB (.wrB (.wrB (.wr (.wr h))))

theorem Frame.halfCycle (h : Frame s0 s) {b} : Frame s0 (s.halfCycle b) := by
  unfold State.halfCycle
  extract_lets _ _ _ t1
  have ht1 : Frame s0 t1 := .setBay h
  refine .ite h ?_
  refine .ite (.setBay h) ?_
  split
  · exact h
  · exact .ite ht1 (.halfStatus (.raiseTogether (.stepSwell (.stepDip ht1))))

theorem Frame.endEvents (h : Frame s0 s) {b down} : Frame s0 (s.endEvents b down).1 := by
  unfold State.endEvents
  extract_lets _ _ t d w
  have ht : Frame s0 t := .setBay h
  have hd : Frame s0 d.1 := by
    unfold d
    split
    · exact .reportEvent ht
    · exact ht
  have hw : Frame s0 w.1 := by
    unfold w
    split
    · exact .reportEvent hd
    · exact hd
  exact .wrB (.wrB (.wrB hw))

theorem Frame.closeEvents (h : Frame s0 s) {b down} : Frame s0 (s.closeEvents b down) := by
  unfold State.closeEvents
  exact .raiseTogether (.endEvents h)

theorem Frame.closeAllEvents (h : Frame s0 s) : Frame s0 s.closeAllEvents := by
  unfold State.closeAllEvents
  extract_lets x
  have hx : Frame s0 x.1 := by
    refine .foldl3 h fun _ _ h => ?_
    exact .endEvents h
  exact .raiseTogether hx

theorem Frame.testLimit {acc} (h : Frame s0 acc.1) {b x} : Frame s0 (State.testLimit b acc x).1 := by
  unfold State.testLimit
  exact .ite3 h (.ite3 (.wr h) (.ite3 (.wr h) h))

theorem Frame.testLimits (h : Frame s0 s) {b v} : Frame s0 (s.testLimits b v) := by
  unfold State.testLimits
  exact .raiseTogether (.foldl3 h fun _ _ h => .testLimit h)

theorem Frame.setQual (h : Frame s0 s) {b q} : Frame s0 (s.setQual b q) := by
  unfold State.setQual
  exact .update h

theorem Frame.histogram (h : Frame s0 s) {b v} : Frame s0 (s.histogram b v) := by
  unfold State.histogram
  exact .setQual h

theorem Frame.extremes (h : Frame s0 s) {b w} : Frame s0 (s.extremes b w) := by
  unfold State.extremes
  exact .setQual h

theorem Frame.closeInterval (h : Frame s0 s) {b upto ten short step} : Frame s0 (s.closeInterval b upto ten short step)
    := by
  unfold State.closeInterval
  extract_lets _ _ _ _ _ t _ _ t1 _ t3 _ t5
  have ht : Frame s0 t := .setBay h
  have ht1 : Frame s0 t1 := .putB32 ht
  have ht3 : Frame s0 t3 := .wrap (.wr (.wrB (.wrB (.wrB ht1))))
  have ht5 : Frame s0 t5 := .wrap (.wr (.wrB (.wrB (.wrB ht1))))
  exact .ite ht (.ite (.ite ht3 (.histogram ht3)) (.ite ht5 (.testLimits ht5)))

theorem Frame.closeDue (h : Frame s0 s) {b} : Frame s0 (s.closeDue b) := by
  unfold State.closeDue
  extract_lets
  split
  · exact h
  · exact .ite h (.closeInterval (.closeInterval (.setBay h)))

theorem Frame.tryTen (h : Frame s0 s) {b} : Frame s0 (s.tryTen b) := by
  unfold State.tryTen
  exact .foldl h fun _ _ h => .closeDue h

theorem Frame.closeAt (h : Frame s0 s) {b epoch step} : Frame s0 (s.closeAt b epoch step) := by
  unfold State.closeAt
  exact .tryTen (.setBay h)

theorem Frame.tenBoundary (h : Frame s0 s) {epoch} : Frame s0 (s.tenBoundary epoch) := by
  unfold State.tenBoundary
  extract_lets _ _ _ t1
  have ht1 : Frame s0 t1 := .update h
  exact .ite (.foldl ht1 fun _ _ h => .tryTen h) (.foldl ht1 fun _ _ h => .closeAt h)

theorem Frame.stepIntervals (h : Frame s0 s) : Frame s0 s.stepIntervals := by
  unfold State.stepIntervals
  exact .update (.foldl h fun _ _ h => .closeAt h)

theorem Frame.setAcc (h : Frame s0 s) {n j} : Frame s0 (s.setAcc n j) := by
  unfold State.setAcc
  exact .update h

theorem Frame.accTake (h : Frame s0 s) {n} : Frame s0 (s.accTake n) := by
  unfold State.accTake
  extract_lets
  refine .ite h ?_
  split
  · exact h
  · exact .setAcc (.update h)

theorem Frame.writeWindow (h : Frame s0 s) {j} : Frame s0 (s.writeWindow j) := by
  unfold State.writeWindow
  extract_lets _ _ _ _ _ _ _ _ _ _ _ _ _ t5 _ t7
  have ht5 : Frame s0 t5 := .wr (.wrB (.wrB (.wrB (.setBay (.putB32 (.putB32 (.putB32 h)))))))
  have ht7 : Frame s0 t7 := .wrap (.ite ht5 (.extremes ht5))
  exact .tryTen (.ite (.closeInterval ht7) ht7)

theorem Frame.accComplete (h : Frame s0 s) {n} : Frame s0 (s.accComplete n) := by
  unfold State.accComplete
  split
  · exact .accTake h
  · exact .accTake (.writeWindow (.setAcc h))

theorem Frame.noService (h : Frame s0 s) : Frame s0 s.noService := by
  unfold State.noService
  exact .foldl h fun _ _ h => .tryTen (.wrB h)

theorem Frame.accIsolate (h : Frame s0 s) : Frame s0 s.accIsolate := by
  unfold State.accIsolate
  exact .noService (.update h)

theorem Frame.accLose (h : Frame s0 s) {n} : Frame s0 (s.accLose n) := by
  unfold State.accLose
  split
  · exact h
  · exact .count (.setAcc h)

/-! #### The auxiliary block -/

theorem Frame.refreshExc (h : Frame s0 s) : Frame s0 s.refreshExc := by
  unfold State.refreshExc
  exact .wr (.wr h)

theorem Frame.setAx (h : Frame s0 s) {v} : Frame s0 (s.setAx v) := by
  unfold State.setAx
  exact .refreshExc (.wr h)

theorem Frame.scanTake (h : Frame s0 s) {at_} : Frame s0 (s.scanTake at_) := by
  unfold State.scanTake
  exact .setAx (.update h)

theorem Frame.scanTriggered (h : Frame s0 s) {at_} : Frame s0 (s.scanTriggered at_) := by
  unfold State.scanTriggered
  exact .ite (.scanTake h) (.ite (.ite (.count h) (.wrB h)) h)

theorem Frame.wAxTrig (h : Frame s0 s) {x0 v} : Frame s0 (s.wAxTrig x0 v).2 := by
  unfold State.wAxTrig
  exact .ite (.scanTriggered h) h

theorem Frame.periodicTrigger (h : Frame s0 s) : Frame s0 s.periodicTrigger := by
  unfold State.periodicTrigger
  extract_lets _ _ t2
  have ht2 : Frame s0 t2 := .update h
  exact .ite (.ite ht2 (.scanTriggered ht2)) h

theorem Frame.settleEnd (h : Frame s0 s) : Frame s0 s.settleEnd := by
  unfold State.settleEnd
  exact .ite (.setAx h) h

theorem Frame.chanDone (h : Frame s0 s) {late p r} : Frame s0 (s.chanDone late p r) := by
  unfold State.chanDone
  exact .update (.wrap (.wrB (.wrB (.wrB (.wrB (.ite h (.wrS h)))))))

theorem Frame.scanEnd (h : Frame s0 s) {last} : Frame s0 (s.scanEnd last) := by
  unfold State.scanEnd
  extract_lets t
  have ht : Frame s0 t := .wrap (.setAx h)
  exact .ite (.scanTake (.wrB ht)) ht

theorem Frame.axIsolate (h : Frame s0 s) : Frame s0 s.axIsolate := by
  unfold State.axIsolate
  exact .escRecord (.escBlock (.setAx (.wrB (.foldl (.update h) fun _ _ h => .wrB h))))

theorem Frame.axCapture (h : Frame s0 s) : Frame s0 s.axCapture := by
  unfold State.axCapture
  exact .wrap (.update (.foldl h fun _ _ h => .wrS (.wrS (.wrB (.wrB (.wrB (.wr (.wrS h))))))))

theorem Frame.axCaptureDue (h : Frame s0 s) : Frame s0 s.axCaptureDue := by
  unfold State.axCaptureDue
  exact .ite (.axCapture h) h

theorem Frame.scanComplete (h : Frame s0 s) {runs n} : Frame s0 (s.scanComplete runs n) := by
  unfold State.scanComplete
  extract_lets _ _ _ _ _ _ _ t2
  have ht2 : Frame s0 t2 := .update (.count (.count h))
  exact .ite (.axCaptureDue (.axIsolate ht2)) (.axCaptureDue (.scanEnd (.foldl ht2 fun _ _ h => .chanDone h)))

theorem Frame.axTick (h : Frame s0 s) {epoch} : Frame s0 (s.axTick epoch) := by
  unfold State.axTick
  extract_lets _ _ _ _ t1
  have ht1 : Frame s0 t1 := .update (.axCaptureDue h)
  exact .ite ht1 (.ite (.update ht1) (.axCapture ht1))

theorem Frame.axRestart (h : Frame s0 s) {n} : Frame s0 (s.axRestart n) := by
  unfold State.axRestart
  exact .update h

theorem Frame.fldLow (h : Frame s0 s) : Frame s0 s.fldLow := by
  unfold State.fldLow
  exact .ite h (.raise (.refreshExc (.count (.wrB (.wrB (.update h))))))

theorem Frame.fldOk (h : Frame s0 s) : Frame s0 s.fldOk := by
  unfold State.fldOk
  exact .ite h (.raise (.refreshExc (.wrB h)))

theorem Frame.excOpen (h : Frame s0 s) {k} : Frame s0 (s.excOpen k) := by
  unfold State.excOpen
  extract_lets _ _ _ t2
  have ht2 : Frame s0 t2 := .update (.wr h)
  exact .ite h (.ite ht2 (.raise (.wr ht2)))

theorem Frame.excClosed (h : Frame s0 s) {k} : Frame s0 (s.excClosed k) := by
  unfold State.excClosed
  exact .wr h

theorem Frame.axStop (h : Frame s0 s) : Frame s0 s.axStop := by
  unfold State.axStop
  exact .setAx (.wrB (.update (.axCaptureDue h)))

theorem Frame.axStart (h : Frame s0 s) : Frame s0 s.axStart := by
  unfold State.axStart
  exact .ite (.setAx (.update h)) h

theorem Frame.setInput (h : Frame s0 s) {k x} : Frame s0 (s.setInput k x) := by
  unfold State.setInput
  exact .update h

theorem Frame.countEdge (h : Frame s0 s) {k cycle} : Frame s0 (s.countEdge k cycle) := by
  unfold State.countEdge
  exact .setInput (.wrB (.wrap h))

theorem Frame.countQuad (h : Frame s0 s) {m dir cycle} : Frame s0 (s.countQuad m dir cycle) := by
  unfold State.countQuad
  extract_lets t
  have ht : Frame s0 t := .wrS h
  exact .ite (.setInput ht) ht

theorem Frame.pulseEdge (h : Frame s0 s) {k level partner both cycle held} : Frame s0 (s.pulseEdge k level partner both
    cycle held) := by
  unfold State.pulseEdge
  extract_lets _ _ t
  have ht : Frame s0 t := .wrB h
  exact .ite h (.ite (.ite (.count (.wrB ht)) (.countQuad ht)) (.ite (.ite (.countEdge ht) ht) h))

theorem Frame.noSignal (h : Frame s0 s) {k} : Frame s0 (s.noSignal k) := by
  unfold State.noSignal
  exact .ite h (.wrB (.wr (.setInput h)))

theorem Frame.inputTick (h : Frame s0 s) {ns k} : Frame s0 (s.inputTick ns k) := by
  unfold State.inputTick
  extract_lets _ _ t
  have ht : Frame s0 t := .wrS h
  refine .ite h ?_
  refine .ite (.setInput h) ?_
  refine .ite (.setInput (.wr ht)) ?_
  split
  · exact .ite (.setInput (.wrB ht)) (.setInput (.wrB (.wr ht)))
  · exact .setInput (.wrB ht)

theorem Frame.inputRestart (h : Frame s0 s) {k mode} : Frame s0 (s.inputRestart k mode) := by
  unfold State.inputRestart
  exact .setInput (.ite (.wr (.wr h)) h)

/-! #### Custody streams -/

theorem Frame.setStream (h : Frame s0 s) {n x} : Frame s0 (s.setStream n x) := by
  unfold State.setStream
  exact .update h

theorem Frame.psInputDone (h : Frame s0 s) {g n i dt r} : Frame s0 (s.psInputDone g n i dt r) := by
  unfold State.psInputDone
  extract_lets _ _ _ _ _ _ t2
  have ht2 : Frame s0 t2 := .wrB (.wrB (.wrB (.wr (.setStream h))))
  exact .ite (.count ht2) ht2

theorem Frame.psResults (h : Frame s0 s) {g n sec r} : Frame s0 (s.psResults g n sec r) := by
  unfold State.psResults
  extract_lets _ _ _ put _ _ _ _ t t1 t2 t3
  have hput {u f q} (h : Frame s0 u) : Frame s0 (put u f q) := .wr h
  have ht : Frame s0 t := hput (hput (hput (hput (hput h))))
  have ht1 : Frame s0 t1 := .ite ht (hput ht)
  have ht2 : Frame s0 t2 := .ite ht1 (hput ht1)
  have ht3 : Frame s0 t3 := hput ht2
  refine .ite (.wr (.wr (.wr ht2))) ?_
  split
  · exact hput (hput ht3)
  · exact .drawn (.wr (.drawn (.wr ht3)))

theorem Frame.psSettle (h : Frame s0 s) {n} : Frame s0 (s.psSettle n) := by
  unfold State.psSettle
  exact .setStream h

theorem Frame.psCompute (h : Frame s0 s) {n dt epoch} : Frame s0 (s.psCompute n dt epoch) := by
  unfold State.psCompute
  extract_lets _ _ _ _ _ _ _ _ _ _ _ _ _ _ _ _ _ _ _ _ _ _ _ _ _ _ _ t11 t12 t13
  have ht11 : Frame s0 t11 := .wrB (.wrB (.wr (.wrB (.wrB (.wrB (.wrB (.wrB (.psResults (.setStream (.update (.foldl
    (.update h) fun _ _ h => .ite (.psInputDone h) h)))))))))))
  have ht12 : Frame s0 t12 := .ite (.wrB ht11) ht11
  have ht13 : Frame s0 t13 := .ite (.wrB ht12) ht12
  exact .refreshDegraded (.psSettle (.wrap (.ite (.wrB ht13) ht13)))

theorem Frame.psLose (h : Frame s0 s) {n} : Frame s0 (s.psLose n) := by
  unfold State.psLose
  extract_lets
  split
  · exact h
  · exact .psSettle (.setStream h)

theorem Frame.streamTick (h : Frame s0 s) {n} : Frame s0 (s.streamTick n) := by
  unfold State.streamTick
  extract_lets t
  have ht : Frame s0 t := .axCaptureDue h
  split
  · exact ht
  · exact .ite (.psLose ht) (.ite (.psLose ht) (.psCompute ht))

theorem Frame.streamDue (h : Frame s0 s) {dt epoch n} : Frame s0 (s.streamDue dt epoch n) := by
  unfold State.streamDue
  exact .ite h (.setStream (.psLose h))

theorem Frame.streamStart (h : Frame s0 s) {n} : Frame s0 (s.streamStart n) := by
  unfold State.streamStart
  exact .ite (.wr (.setStream h)) h

theorem Frame.streamStop (h : Frame s0 s) {n} : Frame s0 (s.streamStop n) := by
  unfold State.streamStop
  exact .ite h (.wr (.streamTick h))

theorem Frame.streamHalt (h : Frame s0 s) {n} : Frame s0 (s.streamHalt n) := by
  unfold State.streamHalt
  exact .ite (.wr (.setStream h)) h

theorem Frame.streamReload (h : Frame s0 s) {regs n drop zero moved} : Frame s0 (s.streamReload regs n drop zero moved)
    := by
  unfold State.streamReload
  extract_lets _ t
  have ht : Frame s0 t := .setStream h
  exact .ite ht (.psSettle ht)

/-! #### The ledger's events and commands -/

theorem Frame.takeQuantum (h : Frame s0 s) : Frame s0 s.takeQuantum := by
  unfold State.takeQuantum
  extract_lets
  split
  · exact h
  · extract_lets t1
    have ht1 : Frame s0 t1 := .update h
    exact .ite ht1 (.ite (.count ht1) (.update (.ite (.count ht1) ht1)))

theorem Frame.lockRetry (h : Frame s0 s) : Frame s0 s.lockRetry := by
  unfold State.lockRetry
  exact .ite (.queueLock h) h

theorem Frame.foldClose (h : Frame s0 s) : Frame s0 s.foldClose := by
  unfold State.foldClose
  extract_lets
  refine .ite h ?_
  split
  · exact h
  · extract_lets _ _ _ t2
    have ht2 : Frame s0 t2 := .processTick (.update h)
    exact .audBankEntry (.lockRetry (.ite (.stepIntervals ht2) ht2))

theorem Frame.lockstep (h : Frame s0 s) : Frame s0 s.lockstep := by
  unfold State.lockstep
  extract_lets _ _ t1
  have ht1 : Frame s0 t1 := .update h
  exact .ite (.regionFail (.escRegion (.escBlock ht1))) (.ite (.escRecord (.escRegion (.escBlock ht1))) (.escRecord
    (.escBlock ht1)))

theorem Frame.commitNow (h : Frame s0 s) : Frame s0 s.commitNow := by
  unfold State.commitNow
  extract_lets t
  have ht : Frame s0 t := .meetFault h
  split
  · exact h
  · exact .ite (.drawn ht) (.drawn (.committed (.commitTxn (.update ht))))

theorem Frame.finalTxn (h : Frame s0 s) : Frame s0 s.finalTxn := by
  unfold State.finalTxn
  extract_lets _ t1
  have ht1 : Frame s0 t1 := .update h
  exact .ite h (.ite ht1 (.wrB (.iterate (.update (.foldl (.update ht1) fun _ _ h => .processTick h)) fun _ h =>
    .commitNow h)))

theorem Frame.billingCmd (h : Frame s0 s) {p} : Frame s0 (s.billingCmd p).2 := by
  unfold State.billingCmd
  extract_lets
  split
  · exact .wr (.update h)
  · exact .wr h
  · exact h

theorem Frame.acceptCmd (h : Frame s0 s) {p} : Frame s0 (s.acceptCmd p).2 := by
  unfold State.acceptCmd
  extract_lets g t
  have ht : Frame s0 t := .disarm h
  clear_value g
  split
  · exact ht
  · exact .wr ht
  · exact .wr ht
  · exact .ite1 (.wr ht) (.wr (.update ht))

theorem Frame.rejectCmd (h : Frame s0 s) {p} : Frame s0 (s.rejectCmd p).2 := by
  unfold State.rejectCmd
  split
  · exact h
  · exact .wr h
  · exact .wr h
  · exact .ite1 (.wr h) (.ite1 (.wr (.command h)) (.command h))

theorem Frame.wLedCmd (h : Frame s0 s) {p v} : Frame s0 (s.wLedCmd p v).2 := by
  unfold State.wLedCmd
  split
  · exact .billingCmd h
  · exact .acceptCmd h
  · exact .rejectCmd h
  · split
    · exact h
    · exact .wr h
    · exact h

theorem Frame.psvEnd (h : Frame s0 s) : Frame s0 s.psvEnd := by
  unfold State.psvEnd
  exact .update h

theorem Frame.psvOpenCmd (h : Frame s0 s) {p} : Frame s0 (s.psvOpenCmd p).2 := by
  unfold State.psvOpenCmd
  extract_lets
  split
  · exact h
  · exact .wr h
  · exact .wr h
  · exact .wr (.wr (.update h))

theorem Frame.psvCommitCmd (h : Frame s0 s) {p} : Frame s0 (s.psvCommitCmd p).2 := by
  unfold State.psvCommitCmd
  extract_lets _ g t
  have ht : Frame s0 t := .disarm h
  clear_value g
  split
  · exact ht
  · exact .wr ht
  · exact .wr ht
  · exact .ite1 (.wr ht) (.ite1 (.wr ht) (.ite1 (.wr (.psvEnd (.command ht))) (.wr (.command ht))))

theorem Frame.psvAbortCmd (h : Frame s0 s) {p} : Frame s0 (s.psvAbortCmd p).2 := by
  unfold State.psvAbortCmd
  split
  · exact .wr h
  · exact .ite1 (.wr h) (.wr (.psvEnd h))
  · exact h

theorem Frame.psvCancelCmd (h : Frame s0 s) {p} : Frame s0 (s.psvCancelCmd p).2 := by
  unfold State.psvCancelCmd
  extract_lets _ g t
  have ht : Frame s0 t := .disarm h
  clear_value g
  split
  · exact ht
  · exact .wr ht
  · exact .wr ht
  · exact .ite1 (.wr ht) (.wr (.command ht))

theorem Frame.wTarCmd (h : Frame s0 s) {p v} : Frame s0 (s.wTarCmd p v).2 := by
  unfold State.wTarCmd
  split
  · exact .psvOpenCmd h
  · exact .psvCommitCmd h
  · exact .psvAbortCmd h
  · exact .psvCancelCmd h
  · split
    · exact h
    · exact .wr h
    · exact h

theorem Frame.tarAdvance (h : Frame s0 s) : Frame s0 s.tarAdvance := by
  unfold State.tarAdvance
  exact .wr h

theorem Frame.tarCalRead (h : Frame s0 s) : Frame s0 (s.tarCalRead).2 := by
  unfold State.tarCalRead
  exact .tarAdvance h

theorem Frame.wTarCal (h : Frame s0 s) {p v} : Frame s0 (s.wTarCal p v).2 := by
  unfold State.wTarCal
  extract_lets
  split
  · exact .ite1 h (.tarAdvance (.update h))
  · exact h

theorem Frame.lpDataRead (h : Frame s0 s) : Frame s0 (s.lpDataRead).2 := by
  unfold State.lpDataRead
  extract_lets _ _ _ t1
  have ht1 : Frame s0 t1 := .update h
  exact .ite (.wrap ht1) ht1

theorem Frame.wLpSel (h : Frame s0 s) {x0 v} : Frame s0 (s.wLpSel x0 v).2 := by
  unfold State.wLpSel
  exact .wr (.update h)

theorem Frame.redoCopies (h : Frame s0 s) : Frame s0 s.redoCopies := by
  unfold State.redoCopies
  exact .update h

theorem Frame.refreshBanks (h : Frame s0 s) : Frame s0 s.refreshBanks := by
  unfold State.refreshBanks
  extract_lets _ _ _ _ _ t3 t4
  have ht3 : Frame s0 t3 := .wr (.wr (.wr (.wr (.wr h))))
  have ht4 : Frame s0 t4 := .ite (.alert ht3) ht3
  exact .ite (.alert ht4) ht4

theorem Frame.flintStart (h : Frame s0 s) : Frame s0 s.flintStart := by
  unfold State.flintStart
  exact .ite (.setFlint (.update h)) (.setFlint h)

theorem Frame.restore (h : Frame s0 s) {x} : Frame s0 (s.restore x) := by
  unfold State.restore
  exact .maybeCompact (.refreshJournal (.refreshAnchor (.refresh (.wr (.wr (.wr (.wr (.wr (.wr (.wr (.wr (.redoCopies
    (.update (.update h))))))))))))))

theorem Frame.recoveryFailed (h : Frame s0 s) : Frame s0 s.recoveryFailed := by
  unfold State.recoveryFailed
  extract_lets _ t1 t2
  have ht1 : Frame s0 t1 := .wr (.wr (.wr h))
  have ht2 : Frame s0 t2 := .ite (.setFlint ht1) (.setFlint ht1)
  exact .ite ht2 (.regionFail (.escRegion ht2))

theorem Frame.recovery (h : Frame s0 s) {fails} : Frame s0 (s.recovery fails) := by
  unfold State.recovery
  extract_lets
  refine .ite h ?_
  split
  · exact .recoveryFailed (.bankFails (.refreshBanks h))
  · exact .audBankEntry (.calScale (.flintStart (.bankFails (.refreshBanks (.update (.restore (.update h)))))))

/-! #### Nonces, tokens and sessions -/

theorem Frame.garnetQueue (h : Frame s0 s) {r} : Frame s0 (s.garnetQueue r) := by
  unfold State.garnetQueue
  exact .update h

theorem Frame.garnetDone (h : Frame s0 s) : Frame s0 s.garnetDone := by
  unfold State.garnetDone
  exact .update h

theorem Frame.sessionEnd (h : Frame s0 s) {p} : Frame s0 (s.sessionEnd p) := by
  unfold State.sessionEnd
  extract_lets _ t1 t2
  have ht1 : Frame s0 t1 := .setPath h
  have ht2 : Frame s0 t2 := .ite (.psvEnd ht1) ht1
  exact .ite h (.ite (.rtcAbandon ht2) ht2)

theorem Frame.sessionOpen (h : Frame s0 s) {p role key} : Frame s0 (s.sessionOpen p role key) := by
  unfold State.sessionOpen
  exact .raise (.setPath (.sessionEnd h))

theorem Frame.sessionDue (h : Frame s0 s) {p} : Frame s0 (s.sessionDue p) := by
  unfold State.sessionDue
  split
  · exact h
  · exact .sessionEnd (.until h)

theorem Frame.nonceRead (h : Frame s0 s) {p} : Frame s0 (s.nonceRead p).2 := by
  unfold State.nonceRead
  exact .drawn (.setPath h)

theorem Frame.nonceDue (h : Frame s0 s) {p} : Frame s0 (s.nonceDue p) := by
  unfold State.nonceDue
  extract_lets
  split
  · exact h
  · exact .setPath (.until h)

theorem Frame.tokenResult (h : Frame s0 s) {p r} : Frame s0 (s.tokenResult p r) := by
  unfold State.tokenResult
  extract_lets t
  have ht : Frame s0 t := .wrP h
  exact .ite (.irq ht) ht

theorem Frame.tokenRefuse (h : Frame s0 s) {p x1 r} : Frame s0 (s.tokenRefuse p x1 r) := by
  unfold State.tokenRefuse
  exact .raise (.tokenResult h)

theorem Frame.useNonce (h : Frame s0 s) {p x1} : Frame s0 (s.useNonce p x1) := by
  unfold State.useNonce
  exact .setPath h

theorem Frame.atOnceDone (h : Frame s0 s) {x0 roles keys deferred} : Frame s0 (s.atOnceDone x0 roles keys deferred) :=
    by
  unfold State.atOnceDone
  extract_lets _ t1
  have ht1 : Frame s0 t1 := .wr h
  exact .ite (.ite (.unlockEffect h) (.update h)) (.ite (.ite (.twinUnpair ht1) ht1) (.ite (.drawn h) h))

theorem Frame.unlockReady (h : Frame s0 s) {x0} : Frame s0 (s.unlockReady x0) := by
  unfold State.unlockReady
  extract_lets t
  have ht : Frame s0 t := .ite (.drain h) h
  exact .ite h (.ite (.setFlint ht) ht)

theorem Frame.completeDual (h : Frame s0 s) {p x1 d} : Frame s0 (s.completeDual p x1 d).2 := by
  unfold State.completeDual
  extract_lets _ _ _ _ r _ _ u1
  have hr : Frame s0 r.2 := .command (.unlockReady h)
  have hu1 : Frame s0 u1 := .update (.useNonce hr)
  exact .ite1 (.ite (.setFlint hr) hr) (.ite1 (.atOnceDone hu1) (.setPath hu1))

theorem Frame.dualLapse (h : Frame s0 s) : Frame s0 s.dualLapse := by
  unfold State.dualLapse
  extract_lets
  split
  · exact h
  · exact .raise (.update h)

theorem Frame.firstDual (h : Frame s0 s) {p x1} : Frame s0 (s.firstDual p x1).2 := by
  unfold State.firstDual
  exact .ite1 (.command h) (.update (.dualLapse (.useNonce (.command h))))

theorem Frame.acceptSession (h : Frame s0 s) {p x1} : Frame s0 (s.acceptSession p x1).2 := by
  unfold State.acceptSession
  exact .ite1 (.command h) (.sessionOpen (.useNonce (.command h)))

theorem Frame.acceptToken (h : Frame s0 s) {p x1} : Frame s0 (s.acceptToken p x1).2 := by
  unfold State.acceptToken
  refine .ite1 (.acceptSession h) ?_
  split
  · exact .completeDual h
  · exact .firstDual h

theorem Frame.tokenDone (h : Frame s0 s) : Frame s0 s.tokenDone := by
  unfold State.tokenDone
  extract_lets t
  have ht : Frame s0 t := .garnetDone h
  split
  · extract_lets r
    have hr : Frame s0 r.2 := .acceptToken ht
    split
    · exact .ite (.tokenResult hr) (.tokenRefuse hr)
    · exact .tokenRefuse ht
  · exact h

theorem Frame.wTokenData (h : Frame s0 s) {p v} : Frame s0 (s.wTokenData p v).2 := by
  unfold State.wTokenData
  exact .ite (.setPath h) h

theorem Frame.tokenSubmit (h : Frame s0 s) {p} : Frame s0 (s.tokenSubmit p) := by
  unfold State.tokenSubmit
  extract_lets _ _ t2
  have ht2 : Frame s0 t2 := .wrP (.setPath h)
  split
  · exact .ite (.tokenRefuse ht2) (.ite (.tokenRefuse (.count ht2)) (.garnetQueue ht2))
  · exact .tokenRefuse ht2

theorem Frame.wTokenCmd (h : Frame s0 s) {p v} : Frame s0 (s.wTokenCmd p v).2 := by
  unfold State.wTokenCmd
  extract_lets
  split
  · exact .tokenSubmit h
  · exact .sessionEnd (.setPath h)
  · exact h

theorem Frame.dualDue (h : Frame s0 s) : Frame s0 s.dualDue := by
  unfold State.dualDue
  split
  · exact h
  · exact .dualLapse (.until h)

theorem Frame.armedDue (h : Frame s0 s) {p} : Frame s0 (s.armedDue p) := by
  unfold State.armedDue
  extract_lets
  split
  · exact h
  · exact .setPath (.until h)

/-! #### Reads with an effect -/

theorem Frame.setCap (h : Frame s0 s) {p base c} : Frame s0 (s.setCap p base c) := by
  unfold State.setCap
  exact .setPath h

theorem Frame.capRead (h : Frame s0 s) {p base words k live} : Frame s0 (s.capRead p base words k live).2 := by
  unfold State.capRead
  split
  · exact .ite (.setCap h) h
  · exact h

theorem Frame.plainRead (h : Frame s0 s) {p a} : Frame s0 (s.plainRead p a).2 := by
  unfold State.plainRead
  exact .ite1 h (.setPath h)

theorem Frame.rdgRead (h : Frame s0 s) {p} : Frame s0 (s.rdgRead p).2 := by
  unfold State.rdgRead
  exact .setPath h

theorem Frame.effectRead (h : Frame s0 s) {p x} : Frame s0 (s.effectRead p x).2 := by
  unfold State.effectRead
  split
  · exact .nonceRead h
  · exact .capRead h
  · exact .recDataRead h
  · exact .audDataRead h
  · exact .rdgRead h
  · exact .lpDataRead h
  · exact .tarCalRead h
  · exact .calDataRead h
  · dsimp only
    exact .setCap (.htxDoneRead h)
  · exact .capRead h
  · exact .hrxRead h
  · exact .rtcRead h

theorem Frame.readWord (h : Frame s0 s) {p a} : Frame s0 (s.readWord p a).2 := by
  unfold State.readWord
  split
  · exact .effectRead h
  · exact .plainRead h

/-! #### Signed readings -/

theorem Frame.rdgResult (h : Frame s0 s) {p code} : Frame s0 (s.rdgResult p code) := by
  unfold State.rdgResult
  extract_lets t
  have ht : Frame s0 t := .wrP h
  exact .ite (.irq ht) ht

theorem Frame.rdgRefuse (h : Frame s0 s) {o code} : Frame s0 (s.rdgRefuse o code) := by
  unfold State.rdgRefuse
  split
  · exact .rdgResult h
  · exact .dregaFlush (.dregaAnswer h)
  · exact h
  · exact .ite (.count h) h

theorem Frame.rdgDeliver (h : Frame s0 s) {o frame} : Frame s0 (s.rdgDeliver o frame) := by
  unfold State.rdgDeliver
  split
  · exact .rdgResult (.wrP (.setPath h))
  · exact .dregaFlush (.dregaAnswer h)
  · exact h
  · exact .pubSend h

theorem Frame.rdgRequest (h : Frame s0 s) {o hmac reqNonce vs} : Frame s0 (s.rdgRequest o hmac reqNonce vs) := by
  unfold State.rdgRequest
  extract_lets
  split
  · exact .rdgRefuse (.ite (.count h) h)
  · exact .garnetQueue (.wrap h)

theorem Frame.wRdgCmd (h : Frame s0 s) {p v} : Frame s0 (s.wRdgCmd p v).2 := by
  unfold State.wRdgCmd
  extract_lets _ _ t1
  have ht1 : Frame s0 t1 := .wrP (.setPath h)
  exact .ite1 (.rdgRequest ht1) h

theorem Frame.signed (h : Frame s0 s) : Frame s0 s.signed := by
  unfold State.signed
  split
  · exact .rdgDeliver (.garnetDone (.wrap h))
  · exact h

theorem Frame.dregaReading (h : Frame s0 s) {src tag m} : Frame s0 (s.dregaReading src tag m) := by
  unfold State.dregaReading
  exact .ite (.dregaAnswer h) (.rdgRequest h)

theorem Frame.publish (h : Frame s0 s) {k} : Frame s0 (s.publish k) := by
  unfold State.publish
  exact .ite h (.rdgRequest (.arpResolve (.update h)))

theorem Frame.garnetRefuse (h : Frame s0 s) {x0} : Frame s0 (s.garnetRefuse x0) := by
  unfold State.garnetRefuse
  split
  · exact .tokenRefuse h
  · exact .rdgRefuse h

theorem Frame.garnetFlush (h : Frame s0 s) : Frame s0 s.garnetFlush := by
  unfold State.garnetFlush
  exact .raise (.foldl (.update h) fun _ _ h => .garnetRefuse h)

theorem Frame.garnetFault (h : Frame s0 s) {error} : Frame s0 (s.garnetFault error) := by
  unfold State.garnetFault
  extract_lets _ _ _ _ t3
  have ht3 : Frame s0 t3 := .garnetFlush (.escBlock (.update (.count h)))
  exact .ite h (.ite (.escRecord (.escRegion ht3)) (.escRecord ht3))

theorem Frame.garnetBack (h : Frame s0 s) : Frame s0 s.garnetBack := by
  unfold State.garnetBack
  exact .update h

theorem Frame.garnetWarned (h : Frame s0 s) : Frame s0 s.garnetWarned := by
  unfold State.garnetWarned
  exact .foldl (.update h) fun _ _ h => .garnetRefuse h

/-! #### Engine faults -/

theorem Frame.bindBay (h : Frame s0 s) {b m} : Frame s0 (s.bindBay b m) := by
  unfold State.bindBay
  exact .setBay (.wrB (.wr h))

theorem Frame.stopBay (h : Frame s0 s) {b} : Frame s0 (s.stopBay b) := by
  unfold State.stopBay
  exact .refreshDegraded (.wrB (.setTrack (.dropWindow (.closeEvents (.wrB (.wr (.update h)))))))

theorem Frame.unhostBay (h : Frame s0 s) {b} : Frame s0 (s.unhostBay b) := by
  unfold State.unhostBay
  exact .setTrack (.dropWindow (.closeEvents (.wrB (.wr h))))

theorem Frame.bindWaiting (h : Frame s0 s) : Frame s0 s.bindWaiting := by
  unfold State.bindWaiting
  refine .foldl h fun _ _ h => ?_
  extract_lets
  refine .ite ?_ h
  split
  · exact .setTrack (.setBay (.bindBay h))
  · exact h

theorem Frame.noteFault (h : Frame s0 s) {u} : Frame s0 (s.noteFault u) := by
  unfold State.noteFault
  exact .update h

theorem Frame.restart (h : Frame s0 s) {u} : Frame s0 (s.restart u) := by
  unfold State.restart
  exact .update h

theorem Frame.outOfService (h : Frame s0 s) {u} : Frame s0 (s.outOfService u) := by
  unfold State.outOfService
  exact .update h

theorem Frame.recordRestart (h : Frame s0 s) {u error} : Frame s0 (s.recordRestart u error) := by
  unfold State.recordRestart
  exact .escRecord h

theorem Frame.takeover (h : Frame s0 s) {u b error} : Frame s0 (s.takeover u b error) := by
  unfold State.takeover
  obtain ⟨r, blk, c⟩ := unitPlace u
  extract_lets t
  have ht : Frame s0 t := .escRegion h
  split
  next e =>
    split
    · exact .escRecord (.bindBay ht)
    · exact .escRecord (.stopBay ht)

theorem Frame.idleTwice (h : Frame s0 s) {u error} : Frame s0 (s.idleTwice u error) := by
  unfold State.idleTwice
  exact .drawn (.escRecord (.escRegion (.outOfService h)))

theorem Frame.engineFault (h : Frame s0 s) {u again error} : Frame s0 (s.engineFault u again error) := by
  unfold State.engineFault
  split
  · exact .ite (.takeover (.outOfService h)) (.recordRestart (.setBay (.restart h)))
  · exact .ite (.escRecord (.streamHalt (.outOfService h))) (.ite (.idleTwice h) (.recordRestart (.psLose (.restart
    h))))
  · exact .ite (.idleTwice h) (.recordRestart (.restart h))

theorem Frame.accFault (h : Frame s0 s) {a again error} : Frame s0 (s.accFault a again error) := by
  unfold State.accFault
  extract_lets t t1
  have ht : Frame s0 t := .accLose h
  have ht1 : Frame s0 t1 := .outOfService ht
  exact .ite (.escRecord (.ite (.noService ht1) ht1)) (.recordRestart (.restart ht))

theorem Frame.dregaLost (h : Frame s0 s) {p} : Frame s0 (s.dregaLost p) := by
  unfold State.dregaLost
  exact .update h

theorem Frame.netFault (h : Frame s0 s) {p again error} : Frame s0 (s.netFault p again error) := by
  unfold State.netFault
  exact .ite (.escRecord (.portStop (.dregaLost (.outOfService h)))) (.recordRestart (.restart (.portCut (.dregaLost
    h))))

theorem Frame.unitFault (h : Frame s0 s) {u k} : Frame s0 (s.unitFault u k) := by
  unfold State.unitFault
  extract_lets
  refine .ite h ?_
  refine .ite (.count h) ?_
  split
  · exact .garnetFault h
  · exact .accFault (.escBlock (.noteFault h))
  · exact .netFault (.escBlock (.noteFault h))
  · exact .engineFault (.escBlock (.noteFault h))
  · exact .engineFault (.escBlock (.noteFault h))

theorem Frame.restarted (h : Frame s0 s) {u} : Frame s0 (s.restarted u) := by
  unfold State.restarted
  extract_lets _ t1
  have ht1 : Frame s0 t1 := .update h
  split
  · exact .garnetBack h
  · exact .accTake ht1
  · exact ht1

theorem Frame.veinFault (h : Frame s0 s) {r} : Frame s0 (s.veinFault r) := by
  unfold State.veinFault
  exact .ite h (.drawn (.regionFail (.escRegion h)))

/-! #### Tamper detections and tests -/

theorem Frame.condBegin (h : Frame s0 s) {srcs} : Frame s0 (s.condBegin srcs) := by
  unfold State.condBegin
  exact .refreshActive (.update h)

theorem Frame.condEnd (h : Frame s0 s) {c} : Frame s0 (s.condEnd c) := by
  unfold State.condEnd
  exact .refreshActive (.update (.update h))

theorem Frame.flintAlarm (h : Frame s0 s) : Frame s0 s.flintAlarm := by
  unfold State.flintAlarm
  extract_lets _ _ _ _ t3 t4
  have ht3 : Frame s0 t3 := .setFlint (.update h)
  have ht4 : Frame s0 t4 := .ite ht3 (.dropAuthorisations (.staleNonces ht3))
  exact .loadLocked (.ite ht4 (.queueLock (.update ht4)))

theorem Frame.safeState (h : Frame s0 s) {machine} : Frame s0 (s.safeState machine) := by
  unfold State.safeState
  split
  · exact .flintAlarm h
  · exact .loadAlarm h
  · exact .drawn (.garnetFault h)
  · exact .ite (.ringSearch h) h
  · exact h

theorem Frame.fsmAlarm (h : Frame s0 s) {machine code} : Frame s0 (s.fsmAlarm machine code) := by
  unfold State.fsmAlarm
  extract_lets t
  have ht : Frame s0 t := .wr (.wr h)
  exact .ite h (.safeState (.ite ht (.setFlags (.count ht))))

theorem Frame.tamperDetection (h : Frame s0 s) {srcs enc machine code} : Frame s0 (s.tamperDetection srcs enc machine
    code) := by
  unfold State.tamperDetection
  extract_lets _ _ _ t2
  have ht2 : Frame s0 t2 := .condBegin (.encSettle (.update h))
  exact .detect (.ite (.fsmAlarm ht2) ht2)

theorem Frame.testWindow (h : Frame s0 s) {m periodic} : Frame s0 (s.testWindow m periodic) := by
  unfold State.testWindow
  extract_lets _ t1
  have ht1 : Frame s0 t1 := .update h
  exact .ite (.wr ht1) ht1

theorem Frame.testStart (h : Frame s0 s) {periodic} : Frame s0 (s.testStart periodic) := by
  unfold State.testStart
  exact .testWindow (.wrB (.wr (.update h)))

theorem Frame.flagGroup (h : Frame s0 s) {m} : Frame s0 (s.flagGroup m) := by
  unfold State.flagGroup
  exact .ite (.wr h) h

theorem Frame.testWindowEnd (h : Frame s0 s) {responded} : Frame s0 (s.testWindowEnd responded) := by
  unfold State.testWindowEnd
  split
  · exact h
  · extract_lets _ t _ _ t2
    have ht : Frame s0 t := .testWindow h
    have ht2 : Frame s0 t2 := .raise (.wr ht)
    exact .ite h (.ite (.detect ht) (.detect (.flagGroup (.ite (.count ht2) ht2))))

theorem Frame.crackSettle (h : Frame s0 s) : Frame s0 s.crackSettle := by
  unfold State.crackSettle
  exact .ite (.condEnd (.wr (.update h))) (.ite (.tamperDetection h) h)

theorem Frame.applyPending (h : Frame s0 s) : Frame s0 s.applyPending := by
  unfold State.applyPending
  exact .acknowledge (.ite h (.respond h))

theorem Frame.testComplete (h : Frame s0 s) : Frame s0 s.testComplete := by
  unfold State.testComplete
  extract_lets _ _ _ t3
  have ht3 : Frame s0 t3 := .count (.wr (.wrB (.update h)))
  split
  · exact h
  · exact .ite h (.ite ht3 (.twinReady (.ringReady (.crackSettle (.update (.applyPending ht3))))))

theorem Frame.testPeriodic (h : Frame s0 s) : Frame s0 s.testPeriodic := by
  unfold State.testPeriodic
  exact .ite (.testStart h) h

/-! #### The panel -/

theorem Frame.wPnlReq (h : Frame s0 s) {x0 v} : Frame s0 (s.wPnlReq x0 v).2 := by
  unfold State.wPnlReq
  exact .foldl h fun _ _ h => .ite (.panelRequest h) h

theorem Frame.setUpdate (h : Frame s0 s) {u} : Frame s0 (s.setUpdate u) := by
  unfold State.setUpdate
  extract_lets t _ t2
  have ht : Frame s0 t := by
    unfold t
    split
    · exact .wrB h
    · exact h
  have ht2 : Frame s0 t2 := .update ht
  split
  · exact .wr (.wrB (.wrB ht2))
  · exact .wrB ht2

theorem Frame.dropRequest (h : Frame s0 s) {w} : Frame s0 (s.dropRequest w) := by
  unfold State.dropRequest
  exact .wr (.wrB h)

theorem Frame.dropRequests (h : Frame s0 s) : Frame s0 s.dropRequests := by
  unfold State.dropRequests
  exact .foldl h fun _ _ h => .dropRequest h

theorem Frame.updateStart (h : Frame s0 s) : Frame s0 s.updateStart := by
  unfold State.updateStart
  refine .ite h ?_
  split
  · exact h
  · exact .setUpdate (.dropRequest (.update h))

theorem Frame.updateDone (h : Frame s0 s) : Frame s0 s.updateDone := by
  unfold State.updateDone
  split
  · exact h
  next w src _ =>
    obtain ⟨text, err⟩ := s.winText w src
    exact .ite (.raise (.wr (.wrap (.update (.setUpdate h))))) (.wr (.wrap (.update (.setUpdate h))))

theorem Frame.takeTiming (h : Frame s0 s) : Frame s0 s.takeTiming := by
  unfold State.takeTiming
  exact .wr (.update h)

theorem Frame.frameStart (h : Frame s0 s) : Frame s0 s.frameStart := by
  unfold State.frameStart
  extract_lets _ t
  have ht : Frame s0 t := .takeTiming h
  exact .ite h (.ite (.update ht) ht)

theorem Frame.vpnlLow (h : Frame s0 s) : Frame s0 s.vpnlLow := by
  unfold State.vpnlLow
  extract_lets t
  have ht : Frame s0 t := .wrB h
  exact .ite h (.raise (.ite ht (.wr ht)))

theorem Frame.vpnlOk (h : Frame s0 s) : Frame s0 s.vpnlOk := by
  unfold State.vpnlOk
  exact .ite h (.raise (.wrB h))

theorem Frame.panelWarned (h : Frame s0 s) : Frame s0 s.panelWarned := by
  unfold State.panelWarned
  exact .ite h (.wr (.dropRequests (.setUpdate h)))

theorem Frame.panelDrain (h : Frame s0 s) : Frame s0 s.panelDrain := by
  unfold State.panelDrain
  exact .dropRequests (.updateDone h)

theorem Frame.panelOff (h : Frame s0 s) : Frame s0 s.panelOff := by
  unfold State.panelOff
  extract_lets t
  have ht : Frame s0 t := .wrB h
  exact .ite ht (.wr ht)

theorem Frame.panelStart (h : Frame s0 s) : Frame s0 s.panelStart := by
  unfold State.panelStart
  exact .foldl (.takeTiming (.update h)) fun _ _ h => .panelRequest h

theorem Frame.panelReload (h : Frame s0 s) {old changed} : Frame s0 (s.panelReload old changed) := by
  unfold State.panelReload
  exact .ite h (.foldl (.update h) fun _ _ h => .panelRequest h)

theorem Frame.crackMeasure (h : Frame s0 s) {ohms} : Frame s0 (s.crackMeasure ohms) := by
  unfold State.crackMeasure
  extract_lets _ _ _ _ _ t3
  have ht3 : Frame s0 t3 := .wr (.wr (.update (.until h)))
  exact .ite h (.ite (.tamperDetection ht3) (.condEnd ht3))

/-! #### Power domains -/

theorem Frame.bayDrain (h : Frame s0 s) {b} : Frame s0 (s.bayDrain b) := by
  unfold State.bayDrain
  exact .cycleEnd (.cutCycle h)

theorem Frame.bayOff (h : Frame s0 s) {b} : Frame s0 (s.bayOff b) := by
  unfold State.bayOff
  exact .ite h (.setTrack (.dropWindow (.closeEvents h)))

theorem Frame.domainDrain (h : Frame s0 s) {d} : Frame s0 (s.domainDrain d) := by
  unfold State.domainDrain
  exact .ite (.refreshAcq (.foldl h fun _ _ h => .calDiscard (.laneStop h))) (.ite (.axStop h) (.ite (.foldl (.foldl h
    fun _ _ h => .bayDrain h) fun _ _ h => .bayOff h) (.ite (.foldl (.foldl (.foldl h fun _ _ h => .streamStop h) fun _
      _ h => .bayDrain h) fun _ _ h => .unhostBay h) (.ite (.accIsolate (.accComplete (.accComplete h))) (.ite
        (.setLink (.portFlush h)) (.ite (.setLink (.portFlush h)) (.ite (.panelOff (.panelDrain h)) h)))))))

theorem Frame.domainStart (h : Frame s0 s) {d} : Frame s0 (s.domainStart d) := by
  unfold State.domainStart
  exact .ite (.ite (.refreshAcq (.foldl h fun _ _ h => .ite (.ite (.laneBegin h) (.laneStart h)) h)) h) (.ite (.axStart
    h) (.ite (.ite (.bindWaiting (.foldl h fun _ _ h => .streamStart h)) h) (.ite (.panelStart h) h)))

theorem Frame.domainBit (h : Frame s0 s) {f d b} : Frame s0 (s.domainBit f d b) := by
  unfold State.domainBit
  exact .wr h

theorem Frame.domainDown (h : Frame s0 s) {d} : Frame s0 (s.domainDown d) := by
  unfold State.domainDown
  exact .domainBit (.update h)

theorem Frame.domainUp (h : Frame s0 s) {d} : Frame s0 (s.domainUp d) := by
  unfold State.domainUp
  exact .domainBit (.update h)

theorem Frame.domainEvent (h : Frame s0 s) {d on} : Frame s0 (s.domainEvent d on) := by
  unfold State.domainEvent
  exact .raise h

theorem Frame.drainDone (h : Frame s0 s) {d} : Frame s0 (s.drainDone d) := by
  unfold State.drainDone
  exact .ite h (.update (.domainDrain h))

theorem Frame.offDone (h : Frame s0 s) {d} : Frame s0 (s.offDone d) := by
  unfold State.offDone
  extract_lets _ _ _ _ t3
  have ht3 : Frame s0 t3 := .domainEvent (.domainBit (.domainBit (.update h)))
  exact .ite h (.ite (.domainUp (.domainBit ht3)) ht3)

theorem Frame.onDone (h : Frame s0 s) {d} : Frame s0 (s.onDone d) := by
  unfold State.onDone
  extract_lets _ _ _ _ t3
  have ht3 : Frame s0 t3 := .domainEvent (.domainStart (.domainBit (.domainBit (.update h))))
  exact .ite h (.ite (.domainDown (.domainBit (.update ht3))) ht3)

theorem Frame.domainDo (h : Frame s0 s) {d on image p} : Frame s0 (s.domainDo d on image p) := by
  unfold State.domainDo
  extract_lets _ _ t1 t2
  have ht1 : Frame s0 t1 := .ite h (.update h)
  have ht2 : Frame s0 t2 := .domainBit ht1
  split
  · exact ht1
  · exact .ite (.domainUp ht1) (.domainDown ht1)
  · exact .ite ht2 (.update ht2)
  · exact .domainBit (.update ht1)

theorem Frame.domainImage (h : Frame s0 s) {d on} : Frame s0 (s.domainImage d on) := by
  unfold State.domainImage
  exact .ite h (.domainDo h)

theorem Frame.pwrResult (h : Frame s0 s) {v} : Frame s0 (s.pwrResult v).2 := by
  unfold State.pwrResult
  exact .wr h

theorem Frame.domainCommand (h : Frame s0 s) {x n on} : Frame s0 (s.domainCommand x n on).2 := by
  unfold State.domainCommand
  extract_lets
  refine .ite1 (.pwrResult h) ?_
  refine .ite1 (.pwrResult h) ?_
  split
  · exact .pwrResult h
  · split
    next e => exact .pwrResult (.of_eq e (.command h))
    next e => exact .pwrResult (.domainDo (.of_eq e (.command h)))

theorem Frame.wPwrCmd (h : Frame s0 s) {p v} : Frame s0 (s.wPwrCmd p v).2 := by
  unfold State.wPwrCmd
  extract_lets cmd _ t
  have ht : Frame s0 t := .wr h
  split
  · clear_value cmd
    split
    · exact .domainCommand ht
    · exact .domainCommand ht
    · exact ht
  · exact .wr h
  · exact h

/-! #### Limits of an image -/

theorem Frame.withImage (h : Frame s0 s) {recs} : Frame s0 (s.withImage recs) :=
  h.withRegs fun w => storeWf_foldl_storeSet (storeWf_filter w _) _

/-! #### The configuration loader -/

theorem Frame.refreshSlots (h : Frame s0 s) : Frame s0 s.refreshSlots := by
  unfold State.refreshSlots
  exact .wr (.wr h)

theorem Frame.pllLock (h : Frame s0 s) : Frame s0 s.pllLock := by
  unfold State.pllLock
  extract_lets _ t1
  have ht1 : Frame s0 t1 := .update h
  refine .ite h ?_
  split
  · exact .loadFailed (.loadRefuse (.loadRefuse ht1))
  · exact .loadNext (.update (.refreshSlots (.wr (.wr (.wr ht1)))))

theorem Frame.readComplete (h : Frame s0 s) : Frame s0 s.readComplete := by
  unfold State.readComplete
  exact .ite (.wr h) h

theorem Frame.accepted (h : Frame s0 s) {l im kind} : Frame s0 (s.accepted l im kind) := by
  unfold State.accepted
  exact .raise (.wr (.wrB (.wrB (.wr (.loadReport (.wr (.update h)))))))

theorem Frame.candidateRefuse (h : Frame s0 s) {l result addr} : Frame s0 (s.candidateRefuse l result addr) := by
  unfold State.candidateRefuse
  exact .ite (.liveEnd h) (.startRefuse h)

theorem Frame.imageVerify (h : Frame s0 s) : Frame s0 s.imageVerify := by
  unfold State.imageVerify
  split
  · exact h
  · refine .ite h ?_
    split
    · exact .candidateRefuse h
    · extract_lets
      refine .ite (.accepted h) ?_
      split
      next e => exact .accepted (.of_eq e (.command h))
      next e => exact .candidateRefuse (.of_eq e (.command h))

theorem Frame.applyRegs (h : Frame s0 s) {im} : Frame s0 (s.applyRegs im) := by
  unfold State.applyRegs
  exact .encSettle (.update (.foldl (.withImage h) fun _ _ h => .wr (.wr h)))

theorem Frame.lsgFuse (h : Frame s0 s) : Frame s0 s.lsgFuse := by
  unfold State.lsgFuse
  extract_lets new
  refine .ite h ?_
  split
  next e => exact .of_eq e (.command h)
  next t e =>
    have ht : Frame s0 t := .of_eq e (.command h)
    have hblow : Frame s0 { t with fuses := { t.fuses with lsg := t.fuses.lsg ||| new } } :=
      ⟨ht.pending, ht.fuses.blow new, ht.flash, ht.flashWf, ht.regs, ht.spi, ht.drega, ht.gather⟩
    exact .refreshActive (.update hblow)

theorem Frame.lockFirst (h : Frame s0 s) : Frame s0 s.lockFirst := by
  unfold State.lockFirst
  exact .ite h (.queueLock (.update h))

theorem Frame.ledgerCfg (h : Frame s0 s) : Frame s0 s.ledgerCfg := by
  unfold State.ledgerCfg
  exact .ite h (.update h)

theorem Frame.imageApply (h : Frame s0 s) : Frame s0 s.imageApply := by
  unfold State.imageApply
  split
  · exact h
  · exact .ite h (.testStart (.ptpStart (.lockFirst (.refreshTamperAlert (.lsgFuse (.ledgerCfg (.setChip (.wr (.update
    (.applyRegs h))))))))))

theorem Frame.reloadLane (h : Frame s0 s) {old n} : Frame s0 (s.reloadLane old n) := by
  unfold State.reloadLane
  extract_lets _ _ t
  have ht : Frame s0 t := .ite (.calFineGain h) h
  exact .ite ht (.ite (.laneStop ht) (.ite ht (.ite (.laneStart ht) (.ite (.laneCount ht) ht))))

theorem Frame.reloadBay (h : Frame s0 s) {old b} : Frame s0 (s.reloadBay old b) := by
  unfold State.reloadBay
  exact .ite (.bayOff (.bayDrain h)) (.ite (.cutCycle (.setBay h)) h)

theorem Frame.reloadPulse (h : Frame s0 s) {old k} : Frame s0 (s.reloadPulse old k) := by
  unfold State.reloadPulse
  exact .ite (.pulseClear h) h

theorem Frame.reloadAux (h : Frame s0 s) {old} : Frame s0 (s.reloadAux old) := by
  unfold State.reloadAux
  exact .refreshExc (.foldl (.foldl h fun _ _ h => .ite (.axRestart h) h) fun _ _ h => .ite (.inputRestart h) h)

theorem Frame.reloadStream (h : Frame s0 s) {old n} : Frame s0 (s.reloadStream old n) := by
  unfold State.reloadStream
  extract_lets _ _ _ _ _ t
  have ht : Frame s0 t := .streamReload h
  exact .ite (.ite (.streamStart ht) ht) (.streamStop ht)

theorem Frame.reloadPort (h : Frame s0 s) {old p} : Frame s0 (s.reloadPort old p) := by
  unfold State.reloadPort
  exact .ite h (.setLink (.setPort (.portFlush h)))

theorem Frame.reloadPtp (h : Frame s0 s) {old} : Frame s0 (s.reloadPtp old) := by
  unfold State.reloadPtp
  extract_lets t _ _ t1
  have ht : Frame s0 t := .ite (.ptpUnlock h) h
  have ht1 : Frame s0 t1 := .ite (.ptpStart (.ptpLeave ht)) (.refreshUtc ht)
  exact .refreshTimebase (.ite (.setPtp ht1) ht1)

theorem Frame.reloadLinks (h : Frame s0 s) {old} : Frame s0 (s.reloadLinks old) := by
  unfold State.reloadLinks
  extract_lets t t1
  have ht : Frame s0 t := .ite h (.ite (.ite (.ringReady h) h) (.wr h))
  have ht1 : Frame s0 t1 := .ite ht (.setWord ht)
  exact .ite ht1 (.ite (.ite (.twinReady ht1) ht1) (.wrB (.setTwin ht1)))

theorem Frame.reloadPower (h : Frame s0 s) {old} : Frame s0 (s.reloadPower old) := by
  unfold State.reloadPower
  exact .foldl h fun _ _ h => .ite h (.domainImage h)

theorem Frame.liveApply (h : Frame s0 s) {im} : Frame s0 (s.liveApply im) := by
  unfold State.liveApply
  extract_lets _ _ _ _ t3
  have ht3 : Frame s0 t3 := .wr (.update (.applyRegs h))
  exact .reloadPower (.reloadLinks (.reloadPtp (.foldl (.panelReload (.crackSettle (.refreshTamperAlert (.lsgFuse
    (.foldl (.reloadAux (.foldl (.foldl (.refreshProvisional (.refreshAcq (.foldl (.ite ht3 (.rateTrim ht3)) fun _ _ h
      => .reloadLane h))) fun _ _ h => .reloadBay h) fun _ _ h => .reloadPulse h)) fun _ _ h => .reloadStream h)))))
        fun _ _ h => .reloadPort h)))

theorem Frame.takesEffect (h : Frame s0 s) : Frame s0 s.takesEffect := by
  unfold State.takesEffect
  split
  · exact .ite (.liveApply h) h
  · exact h

theorem Frame.liveLoad (h : Frame s0 s) {x reset} : Frame s0 (s.liveLoad x reset) := by
  unfold State.liveLoad
  exact .ite (.loadRefuse h) (.wr (.update h))

theorem Frame.wCfgCmd (h : Frame s0 s) {p v} : Frame s0 (s.wCfgCmd p v).2 := by
  unfold State.wCfgCmd
  extract_lets
  split
  · exact .ite (.liveLoad h) h
  · exact .loadRefuse h
  · exact h

theorem Frame.flResult (h : Frame s0 s) {r} : Frame s0 (s.flResult r).2 := by
  unfold State.flResult
  exact .wr h

theorem Frame.flashStart (h : Frame s0 s) {cmd} : Frame s0 (s.flashStart cmd).2 := by
  unfold State.flashStart
  exact .ite1 (.flResult h) (.ite1 (.flResult h) (.ite1 (.flResult h) (.wrB (.wrB (.wr (.update h))))))

theorem Frame.wFlCmd (h : Frame s0 s) {p v} : Frame s0 (s.wFlCmd p v).2 := by
  unfold State.wFlCmd
  extract_lets
  split
  · exact .ite1 (.flashStart h) h
  · exact .wr h
  · exact h

theorem Frame.setWords (h : Frame s0 s) {a ws} : Frame s0 (s.setWords a ws) := by
  unfold State.setWords
  exact .foldl h fun _ _ h => .setWord h

theorem flashPut_wf {m : List Host.Cell} (h : storeWf erasedAt m) (a : Nat) (bs : List Byte) :
    storeWf erasedAt (flashPut m a bs) := storeWf_foldl_storeSet h _

/-- The flash changes only where a command has found a flash job in progress (R391). -/
theorem Frame.flashEffect (h : Frame s0 s) {j failed} (hj : s0.ldr.flash ≠ none) : Frame s0 (s.flashEffect j failed) :=
    by
  unfold State.flashEffect
  extract_lets _ _ _ put
  have hput {bs} : Frame s0 (put bs) :=
    ⟨h.pending, h.fuses, fun e => absurd e hj, fun w => flashPut_wf (h.flashWf w) _ _, h.regs, h.spi, h.drega, h.gather⟩
  split
  · exact .setWords h
  · exact hput
  · exact hput

theorem Frame.flashDone : Frame s (s.flashDone failed) := by
  unfold State.flashDone
  split
  · exact .refl s
  next e =>
    extract_lets t
    have ht : Frame s t := .flashEffect (.refl s) (by simp [e])
    exact .irq (.refreshSlots (.wrB (.wrB (.wr (.update (.ite (.drawn ht) ht))))))

/-! #### Resets and the start -/

theorem Frame.flashCut (h : Frame s0 s) (hj : s0.ldr.flash = none → s.ldr.flash = none) : Frame s0 s.flashCut := by
  unfold State.flashCut
  split
  · exact h
  next e => exact .ite h (.drawn (.flashEffect h fun w => by simp [hj w] at e))

/-- A core reset leaves the flash unless a flash job was in progress; the paths and the recorder are empty after it. -/
theorem Frame.coreReset (h : Frame s0 s) {cause} (hj : s0.ldr.flash = none → s.ldr.flash = none) :
    Frame s0 (s.coreReset cause) := by
  unfold State.coreReset
  extract_lets _ t u
  have ht : Frame s0 t := .flashCut (.rtcAbandon h) (by rwa [State.rtcAbandon_ldr])
  have hu : Frame s0 u := ⟨ht.pending, ht.fuses, ht.flash, ht.flashWf, fun w => storeWf_filter (ht.regs w) _,
    fun _ => storeWf_nil, fun _ => storeWf_nil, fun _ => rfl⟩
  exact .refreshRtcValid (.refreshActive hu)

theorem Frame.release (h : Frame s0 s) {csc twn} : Frame s0 (s.release csc twn) := by
  unfold State.release
  exact .wrB (.wrB (.wrB (.wrB (.wrB (.wr (.update (.update h)))))))

theorem Frame.rstN : Frame s s.rstN := by
  unfold State.rstN
  exact .ite (.coreReset (.refl s) id) (.refl s)

theorem Frame.ownReset (h : Frame s0 s) {cause} (hj : s0.ldr.flash = none → s.ldr.flash = none) :
    Frame s0 (s.ownReset cause) := by
  unfold State.ownReset
  exact .release (.coreReset h hj)

theorem Frame.autoRestart : Frame s s.autoRestart := by
  unfold State.autoRestart
  exact .ite (.ownReset (.until (.refl s)) id) (.refl s)

theorem Frame.pathWarned (h : Frame s0 s) {p} : Frame s0 (s.pathWarned p) := by
  unfold State.pathWarned
  exact .setPath (.sessionEnd h)

theorem Frame.ledgerWarned (h : Frame s0 s) : Frame s0 s.ledgerWarned := by
  unfold State.ledgerWarned
  extract_lets _ t1 _ _ _ _ _ t5
  have ht1 : Frame s0 t1 := .ite (.count (.wrB (.update h))) h
  have ht5 : Frame s0 t5 := .wrB (.update (.ite ht1 (.setQueue ht1)))
  exact .ite (.wr (.wrB ht5)) ht5

theorem Frame.domainsWarned (h : Frame s0 s) : Frame s0 s.domainsWarned := by
  unfold State.domainsWarned
  extract_lets _ t1
  have ht1 : Frame s0 t1 := .wr (.update h)
  exact .ite (.domainDown ht1) ht1

theorem Frame.powerFail (h : Frame s0 s) : Frame s0 s.powerFail := by
  unfold State.powerFail
  exact .ite h (.domainsWarned (.loadAbandon (.panelWarned (.closeAllEvents (.rtcAbandon (.garnetWarned (.psvEnd
    (.update (.pathWarned (.pathWarned (.ledgerWarned (.endFreeze (.wrB (.wrB (.update h)))))))))))))))

theorem Frame.acquire (h : Frame s0 s) : Frame s0 s.acquire := by
  unfold State.acquire
  exact .ite h (.foldl (.calStart (.rateTrim (.update (.update (.wrB (.wr h)))))) fun _ _ h => .ite (.domainStart h) h)

/-! #### The whole-second boundary -/

theorem Frame.ledgerBoundary (h : Frame s0 s) {epoch ptp} : Frame s0 (s.ledgerBoundary epoch ptp) := by
  unfold State.ledgerBoundary
  exact .ite h (.count (.update h))

theorem Frame.ptpBoundary (h : Frame s0 s) {epoch x1} : Frame s0 (s.ptpBoundary epoch x1) := by
  unfold State.ptpBoundary
  exact .update (.wr (.wr (.wr h)))

theorem Frame.masterTick (h : Frame s0 s) : Frame s0 s.masterTick := by
  unfold State.masterTick
  exact .update (.ite (.drawn (.update h)) h)

theorem Frame.boundary (h : Frame s0 s) {ratio x1} : Frame s0 (s.boundary ratio x1) := by
  unfold State.boundary
  exact .ite h (.sameCycle h (fun _ _ h => .refreshDegraded (.helloSend (.masterTick (.tenBoundary (.refCheck (.foldl
    (.axTick (.foldl (.foldl (.ptpBoundary (.rateUpdate (.update (.ledgerBoundary (.update (.until (.ite (.setEpoch h)
      h))))))) fun _ _ h => .bayTick h) fun _ _ h => .inputTick h)) fun _ _ h => .streamDue h)))))))

/-! #### The register space and the host ports -/

theorem Frame.openWrite (h : Frame s0 s) {p a d k v} : Frame s0 (s.openWrite p a d k v) := by
  unfold State.openWrite
  exact .ite (.setPathRegs h storeWf_storeSet) (.setWord h)

theorem Frame.sealedWrite (h : Frame s0 s) {p a d v} : Frame s0 (s.sealedWrite p a d v).2 := by
  unfold State.sealedWrite
  split
  · exact .setWord h
  · exact h

theorem Frame.writer (h : Frame s0 s) {p v x2} : Frame s0 (s.writer p v x2).2 := by
  unfold State.writer
  split
  · exact .wLaneCtrl h
  · exact .wMmCtrl h
  · exact .wCalData h
  · exact .wCalCmd h
  · exact .wAxTrig h
  · exact .wLedCmd h
  · exact .wLpSel h
  · exact .wTarCal h
  · exact .wTarCmd h
  · exact .wRecRd h
  · exact .wRecSel h
  · exact .wRecCmd h
  · exact .wAudSel h
  · exact .wTokenData h
  · exact .wTokenCmd h
  · exact .wRdgCmd h
  · exact .wHtxData h
  · exact .wHtxCmd h
  · exact .wMdio h
  · exact .wHrxCmd h
  · exact .wBkCmd h
  · exact .wRtcField h
  · exact .wRtcCtrl h
  · exact .wCfgCmd h
  · exact .wFlCmd h
  · exact .wPwrCmd h
  · exact .wPnlReq h

theorem Frame.writeWord (h : Frame s0 s) {p a v} : Frame s0 (s.writeWord p a v).2 := by
  unfold State.writeWord
  refine .ite1 h ?_
  split
  · exact .writer h
  · split
    · exact h
    · split
      · exact .openWrite h
      · exact h
      · exact .sealedWrite h

theorem Frame.readWords (h : Frame s0 s) {p fixed a n} : Frame s0 (s.readWords p fixed a n).2 := by
  induction n generalizing s a with
  | zero => exact h
  | succ n ih => exact ih (.readWord h)

theorem Frame.writeWords (h : Frame s0 s) {p fixed a vs} : Frame s0 (s.writeWords p fixed a vs).2.2 := by
  induction vs generalizing s a with
  | nil => exact h
  | cons v vs ih =>
    unfold State.writeWords
    split
    next e => exact ih (.of_eq e (.writeWord h))
    next e => exact .of_eq e (.writeWord h)

theorem Frame.hostRespond (h : Frame s0 s) {bs} : Frame s0 (s.hostRespond bs) := by
  unfold State.hostRespond
  exact .update h

theorem Frame.hostLast (h : Frame s0 s) {status cmd applied} : Frame s0 (s.hostLast status cmd applied) := by
  unfold State.hostLast
  exact .wr (.wr (.wr h))

theorem Frame.hostReadFrame (h : Frame s0 s) {cmd addr words hcrc} : Frame s0 (s.hostReadFrame cmd addr words hcrc) :=
    by
  unfold State.hostReadFrame
  exact .ite h (.ite (.hostRespond (.count h)) (.ite (.hostRespond (.count h)) (.hostRespond (.readWords h))))

theorem Frame.hostApply (h : Frame s0 s) {cmd addr data} : Frame s0 (s.hostApply cmd addr data).2.2 := by
  unfold State.hostApply
  exact .hostLast (.writeWords h)

theorem Frame.writeResponse (h : Frame s0 s) {status applied} : Frame s0 (s.writeResponse status applied) := by
  unfold State.writeResponse
  exact .hostRespond h

theorem Frame.writeRejected (h : Frame s0 s) {cmd status} : Frame s0 (s.writeRejected cmd status) := by
  unfold State.writeRejected
  exact .writeResponse (.hostLast h)

theorem Frame.hostWriteFrame (h : Frame s0 s) {cmd addr words hcrc data dcrc} : Frame s0 (s.hostWriteFrame cmd addr
    words hcrc data dcrc) := by
  unfold State.hostWriteFrame
  exact .ite h (.ite (.hostRespond (.count h)) (.ite (.writeRejected (.count h)) (.ite (.writeRejected (.count h))
    (.writeResponse (.hostApply h)))))

theorem Frame.hostAbort (h : Frame s0 s) {stage} : Frame s0 (s.hostAbort stage) := by
  unfold State.hostAbort
  extract_lets _ t1
  have ht1 : Frame s0 t1 := .update (.count h)
  refine .ite h ?_
  split
  · exact ht1
  · exact .ite (.hostApply ht1) ht1
  · exact .ite (.readWords ht1) ht1

theorem Frame.regReadReq (h : Frame s0 s) {src tag m} : Frame s0 (s.regReadReq src tag m) := by
  unfold State.regReadReq
  exact .ite (.dregaAnswer h) (.ite (.dregaAnswer h) (.dregaAnswer (.readWords h)))

theorem Frame.regWriteReq (h : Frame s0 s) {src tag m} : Frame s0 (s.regWriteReq src tag m) := by
  unfold State.regWriteReq
  exact .ite (.dregaAnswer h) (.dregaAnswer (.writeWords h))

/-! ### The commands -/

/-- A next state of the command, if it has one, is in frame with the state it runs in. -/
def Framed (s : State) (o : Host.Outcome State Fault Refusal) : Prop := ∀ t, o = .next t → Frame s t

theorem Framed.next (h : Frame s t) : Framed s (.next t) := by
  rintro _ ⟨⟩
  exact h

theorem Framed.fault (f : Fault) : Framed s (.fault f) := by
  rintro _ ⟨⟩

theorem Framed.ite {c : Prop} [Decidable c] {x y : Host.Outcome State Fault Refusal} (hx : Framed s x) (hy : Framed s y) :
    Framed s (if c then x else y) := by
  split <;> assumption

/-- Every command, in the order of the instruction list. -/
theorem exec_framed (c : Instr) (s : State) : Framed s (exec c s) := by
  have h := Frame.refl s
  cases c with
  | powerGood _ _ => exact .next (.ite h (.release h))
  | rstNAssert => exact .next .rstN
  | brownout => exact .next (.coreReset h id)
  | powerFailWarning => exact .next (.powerFail h)
  | finalCutoff => exact .next (.finalTxn h)
  | warnReset => exact .next (.ite (.ownReset h id) h)
  | pllLock => exact .next (.pllLock h)
  | recoveryComplete _ => exact .next (.recovery h)
  | candidateReadComplete => exact .next (.readComplete h)
  | imageVerify => exact .next (.imageVerify h)
  | imageApply => exact .next (.imageApply h)
  | tamperTestWindowEnd _ => exact .next (.testWindowEnd h)
  | tamperTestComplete => exact .next (.testComplete h)
  | tamperTestPeriodic => exact .next (.testPeriodic h)
  | acquisitionStart => exact .next (.acquire h)
  | laneOutputSample _ => exact .ite (.next (.ite (.outputSample h) h)) (.fault _)
  | laneStartCountEnd _ => exact .next (.laneCountEnd h)
  | laneRestart _ _ => exact .next (.host h fun _ _ h => .wLaneCtrl h)
  | capture _ => exact .next (.host h fun _ _ h => .wMmCtrl h)
  | captureBoundary => exact .next (.captureBoundary h)
  | wholeSecondBoundary _ _ => exact .next (.boundary h)
  | streamTick _ => exact .next (.streamTick h)
  | epochAlign _ => exact .next (.epochAlign h)
  | cycleEnd _ => exact .next (.tryTen (.cycleEnd h))
  | halfCycleRms _ => exact .next (.halfCycle h)
  | accelJobComplete _ => exact .next (.accComplete h)
  | engineFault _ _ => exact .next (.unitFault h)
  | engineRestartDone _ => exact .next (.restarted h)
  | lockstepMismatch => exact .next (.lockstep h)
  | veinWatchdog _ => exact .next (.veinFault h)
  | autoRestart => exact .next .autoRestart
  | calWindowEnd => exact .next (.calWindowEnd h)
  | calEvaluationComplete => exact .next (.calEvaluated h)
  | calSwitchOver => exact .next (.calSwitchOver h)
  | stageOpen _ => exact .next (.host h fun _ _ h => .wCalCmd h)
  | stageCommit _ => exact .next (.host h fun _ _ h => .wCalCmd h)
  | stageAbort _ => exact .next (.host h fun _ _ h => .wCalCmd h)
  | rebase _ _ => exact .next (.host h fun _ _ h => .wCalCmd h)
  | calAccDataRead _ => exact .next (.hostRead h fun _ _ h => .calDataRead h)
  | calAccDataWrite _ _ => exact .next (.host h fun _ _ h => .wCalData h)
  | poPulseStart _ => exact .next (.pulseStart h)
  | poPulseEnd _ => exact .next (.pulseEnd h)
  | scanTrigger _ => exact .next (.host h fun _ _ h => .wAxTrig h)
  | periodicTrigger => exact .next (.periodicTrigger h)
  | scanSettleEnd => exact .next (.settleEnd h)
  | scanComplete conv =>
    refine .ite (.next h) ?_
    dsimp only
    split
    · exact .next (.scanComplete h)
    · exact .fault _
  | pulseEdge _ _ _ _ _ => exact .next (.pulseEdge h)
  | noSignal _ => exact .next (.noSignal h)
  | fldLow => exact .next (.fldLow h)
  | fldOk => exact .next (.fldOk h)
  | excOpen _ => exact .next (.excOpen h)
  | quantum => exact .next (.takeQuantum h)
  | foldWindowClose => exact .next (.foldClose h)
  | outageProcessing => exact .next (.outageProcessing h)
  | billingClose _ => exact .next (.host h fun _ _ h => .wLedCmd h)
  | acceptStep _ => exact .next (.host h fun _ _ h => .wLedCmd h)
  | rejectStep _ => exact .next (.host h fun _ _ h => .wLedCmd h)
  | psvOpen _ => exact .next (.host h fun _ _ h => .wTarCmd h)
  | psvCommit _ => exact .next (.host h fun _ _ h => .wTarCmd h)
  | psvAbort _ => exact .next (.host h fun _ _ h => .wTarCmd h)
  | psvCancel _ => exact .next (.host h fun _ _ h => .wTarCmd h)
  | tarCalDataRead _ => exact .next (.hostRead h fun _ _ h => .tarCalRead h)
  | tarCalDataWrite _ _ => exact .next (.host h fun _ _ h => .wTarCal h)
  | ledLpDataRead _ => exact .next (.hostRead h fun _ _ h => .lpDataRead h)
  | commitComplete _ _ => exact .next (.ite (.commitHead (.bankFails h)) h)
  | postCommitCopyDone _ => exact .next (.ite (.copyDone (.bankFails h)) h)
  | compactionComplete _ => exact .next (.ite (.ite (.bankFails h) (.compacted (.bankFails h))) h)
  | bucketRefill _ => exact .next (.refill h)
  | recordWriteStart => exact .next (.recStart h)
  | recordWriteDone _ => exact .next (.recDone h)
  | suppressedTimeout => exact .next (.suppTimeout h)
  | recorderPeriodEnd => exact .next (.periodEnd h)
  | recorderScanDone => exact .next (.scanDone h)
  | recSelLoad _ _ => exact .next (.host h fun _ _ h => .wRecSel h)
  | recLoadDone _ _ _ => exact .next (.loadDone h)
  | recDataRead _ => exact .next (.hostRead h fun _ _ h => .recDataRead h)
  | freeze _ => exact .next (.host h fun _ _ h => .wRecRd h)
  | release _ => exact .next (.host h fun _ _ h => .wRecRd h)
  | freezeTimeout => exact .next (.freezeTimeout h)
  | clear _ => exact .next (.host h fun _ _ h => .wRecCmd h)
  | clearSlots _ => exact .next (.host h fun _ _ h => .wRecCmd h)
  | audSelLoad _ _ => exact .next (.host h fun _ _ h => .wAudSel h)
  | audDataRead _ => exact .next (.hostRead h fun _ _ h => .audDataRead h)
  | nonceIssue _ => exact .next (.hostRead h fun _ _ h => .nonceRead h)
  | nonceLapse _ => exact .next (.nonceDue h)
  | tokenDataWrite _ _ => exact .next (.host h fun _ _ h => .wTokenData h)
  | submit _ => exact .next (.host h fun _ _ h => .wTokenCmd h)
  | tokenVerified => exact .next (.tokenDone h)
  | close _ => exact .next (.host h fun _ _ h => .wTokenCmd h)
  | sessionExpiry _ => exact .next (.sessionDue h)
  | dualExpired => exact .next (.dualDue h)
  | armedExpiry _ => exact .next (.armedDue h)
  | formEcdsa _ => exact .next (.host h fun _ _ h => .wRdgCmd h)
  | formHmac _ => exact .next (.host h fun _ _ h => .wRdgCmd h)
  | readingSigned => exact .next (.signed h)
  | rdgDataRead _ => exact .next (.hostRead h fun _ _ h => .rdgRead h)
  | tamperDetection _ _ _ => exact .next (.tamperDetection h)
  | phyPoll _ _ _ _ => exact .next (.phyPoll h)
  | mdioRead _ _ _ => exact .next (.host h fun _ _ h => .wMdio h)
  | mdioWrite _ _ _ _ => exact .next (.host h fun _ _ h => .wMdio h)
  | mdioDone _ _ => exact .next (.mdioDone h)
  | rxFrame _ _ _ _ => exact .next (.rxFrame h)
  | announceTimeout => exact .next (.announceTimeout h)
  | ptpPortReturn => exact .next (.ptpReturn h)
  | ptpMessageSend _ => exact .next (.ptpEmit h)
  | txStart _ => exact .next (.txStart h)
  | txComplete _ _ _ => exact .next (.txComplete h)
  | launchTime _ _ => exact .next (.launchDue h)
  | nsWrap => exact .next (.nsWrap h)
  | htxDataWrite _ _ => exact .next (.host h fun _ _ h => .wHtxData h)
  | htxGo _ _ => exact .next (.host h fun _ _ h => .wHtxCmd h)
  | htxDoneRead _ => exact .next (.hostRead h fun _ _ h => .effectRead h)
  | hrxPop _ _ _ => exact .next (.host h fun _ _ h => .wHrxCmd h)
  | hrxDataRead _ _ => exact .next (.hostRead h fun _ _ h => .hrxRead h)
  | regRead _ _ _ _ _ => exact .next (.dregaServe h fun _ _ _ _ _ h => .regReadReq h)
  | regWrite _ _ _ _ _ _ => exact .next (.dregaServe h fun _ _ _ _ _ h => .regWriteReq h)
  | reading _ _ _ _ _ => exact .next (.dregaServe h fun _ _ _ _ _ h => .dregaReading h)
  | dregaKeptExpiry _ => exact .next (.keptExpiry h)
  | published _ => exact .next (.publish h)
  | arpRefresh _ _ => exact .next (.arpRefresh h)
  | arpRetry _ _ => exact .next (.arpRetry h)
  | supplyToBat => exact .next (.toBat h)
  | supplyToMain => exact .next (.toMain h)
  | bedrockPor => exact .next (.bedrockReset h)
  | clrBkpLost _ => exact .next (.host h fun _ _ h => .wBkCmd h)
  | vbatMeasure _ => exact .next (.vbat h)
  | rtcSecond => exact .next (.ptpSeed (.rtcTick h))
  | pwronTimeout => exact .next (.pwronEnd h)
  | trimWindow => exact .next (.trimWindow h)
  | rtcShadowRead _ _ => exact .next (.hostRead h fun _ _ h => .rtcRead h)
  | rtcShadowRelease _ => exact .next (.rtcExpire h)
  | halt _ => exact .next (.host h fun _ _ h => .wRtcCtrl h)
  | rtcFieldWrite _ _ _ => exact .next (.host h fun _ _ h => .wRtcField h)
  | rtcLoad _ => exact .next (.host h fun _ _ h => .wRtcCtrl h)
  | rtcAutoSet => exact .next (.rtcAuto h)
  | discover _ => exact .next (.ringTake h fun _ _ _ h => .onDiscover h)
  | join _ _ _ _ => exact .next (.ringTake h fun _ _ _ h => .onJoin h)
  | admitFrame _ => exact .next (.ringTake h fun _ _ _ h => .onAdmit h)
  | marker _ _ _ => exact .next (.onMarker h)
  | delayReq _ _ => exact .next (.hopTake h fun _ _ _ h => .onDelayReq h)
  | delayResp _ _ _ _ => exact .next (.hopTake h fun _ _ _ h => .onDelayResp h)
  | contrib _ _ => exact .next (.ringTake h fun _ _ _ h => .onContrib h)
  | contribAck _ => exact .next (.ringTake h fun _ _ _ h => h)
  | discoverSend => exact .next (.discoverDue h)
  | searchEnd => exact .next (.searchEnd h)
  | joinRetry => exact .next (.joinAgain h)
  | memberAbsentTimeout _ => exact .next (.memberTimeout h)
  | markerSend => exact .next (.markerSend h)
  | hopDelayMeasure => exact .next (.hopAsk h)
  | holdover => exact .next (.holdover h)
  | ringFaultTimeout => exact .next (.faultEnd h)
  | masterTimeTimeout => exact .next (.masterLost h)
  | nirairPortDown _ => exact .next (.ringPortDown h)
  | hello _ _ _ _ _ _ => exact .next (.twinTake h fun _ _ _ h => .onHello h)
  | twinMarker _ _ _ => exact .next (.twinTake h fun _ _ _ h => .onTwinMarker h)
  | twinDelta _ _ _ => exact .next (.twinTake h fun _ _ _ h => .onDelta h)
  | sole _ => exact .next (.twinTake h fun _ _ _ h => .onSole h)
  | twinPresenceLost => exact .next (.presenceLost h)
  | twinWindowEnd => exact .next (.windowEnd h)
  | load _ => exact .next (.host h fun _ _ h => .wCfgCmd h)
  | loadReset _ => exact .next (.host h fun _ _ h => .wCfgCmd h)
  | configReset => exact .next (.ite (.ownReset h id) h)
  | loadTakesEffect => exact .next (.takesEffect h)
  | flashRead _ => exact .next (.host h fun _ _ h => .wFlCmd h)
  | flashProgram _ => exact .next (.host h fun _ _ h => .wFlCmd h)
  | flashErase _ => exact .next (.host h fun _ _ h => .wFlCmd h)
  | flashCmdDone _ => exact .next .flashDone
  | powerOn _ _ => exact .next (.host h fun _ _ h => .wPwrCmd h)
  | powerOff _ _ => exact .next (.host h fun _ _ h => .wPwrCmd h)
  | domainDrainDone _ => exact .next (.drainDone h)
  | domainOffDone _ => exact .next (.offDone h)
  | domainOnDone _ => exact .next (.onDone h)
  | panelReq _ _ => exact .next (.host h fun _ _ h => .wPnlReq h)
  | panelUpdateStart => exact .next (.updateStart h)
  | panelUpdateDone => exact .next (.ite (.updateStart (.updateDone h)) h)
  | panelFrameStart => exact .next (.frameStart h)
  | panelVpnlLow => exact .next (.vpnlLow h)
  | panelVpnlOk => exact .next (.vpnlOk h)
  | crackMeasure _ => exact .next (.crackMeasure h)
  | read _ _ _ => exact .next (.hostReadFrame h)
  | write _ _ _ _ _ => exact .next (.hostWriteFrame h)
  | readFixed _ _ _ => exact .next (.hostReadFrame h)
  | writeFixed _ _ _ _ _ => exact .next (.hostWriteFrame h)
  | frameAbandoned _ => exact .next (.hostAbort h)
  | registerWrite _ _ _ => exact .next (.host h fun _ _ h => .writeWord h)
  | tamperConditionEnd _ => exact .next (.condEnd h)
  | excOpenEnd _ => exact .next (.excClosed h)
  | nirairSymbolLock _ => exact .next (.update h
)

/-! ### The canonical form -/

theorem Frame.canonical (h : Frame s t) (hs : s.Canonical) : t.Canonical where
  regs := h.regs hs.regs
  spi := h.spi hs.spi
  drega := h.drega hs.drega
  flash := h.flashWf hs.flash
  gather := h.gather hs.gather

/-- Settles O3: every command keeps the frame, and the frame keeps the canonical form. -/
theorem stepKeepsCanonical : Obligations.StepKeepsCanonical := by
  intro s t hs ht
  unfold step at ht
  split at ht
  · cases ht
    exact ⟨hs.regs, hs.spi, hs.drega, hs.flash, hs.gather⟩
  next c rest _ =>
    have hq : State.Canonical { s with pending := rest } := ⟨hs.regs, hs.spi, hs.drega, hs.flash, hs.gather⟩
    exact (exec_framed c _ t ht).canonical hq

end Sys2Proof.Machine
end

section
/-!
The state after reset, the release of the core, the core resets (R14, R43, R382 to R387), and a host's write of one register
(R5, R8).
-/

namespace Sys2Proof.Machine
set_option Elab.async false
variable {s t : State}

/-! ### Reset and release -/

theorem State.reset_canonical : State.reset.Canonical := ⟨storeWf_nil, storeWf_nil, storeWf_nil, storeWf_nil, rfl⟩

/-- Settles O2: the fields compute, and a store without entries is canonical. -/
theorem resetState : Obligations.ResetState := by
  unfold Obligations.ResetState
  refine ⟨rfl, rfl, fun _ => rfl, ?_, ?_, ?_, ?_, ?_, ?_, ?_, ?_, ?_, rfl, rfl, rfl, rfl, State.reset_canonical⟩ <;> decide

section
variable {csc twn : Bool}

theorem State.release_keepsWords : s.keepsWords (s.release csc twn)
    [Adr.CFG_RESET, Adr.PWR_MON, Adr.CFG_STRAP, Adr.CSC_STATUS, Adr.TWN_STATUS] := by
  unfold State.release
  exact .wrB (.wrB (.wrB (.wrB (.wrB (.wr (.of_regs rfl))))))

@[simp] theorem State.release_core : (s.release csc twn).core = { s.core with running := true } := by
  simp [State.release]

@[simp] theorem State.release_bk : (s.release csc twn).bk = { s.bk with por := false } := by simp [State.release]

@[simp] theorem State.release_str : (s.release csc twn).str = s.str := by simp [State.release]

@[simp] theorem State.release_flash : (s.release csc twn).flash = s.flash := by simp [State.release]

@[simp] theorem State.release_led : (s.release csc twn).led = s.led := by simp [State.release]

@[simp] theorem State.release_spi : (s.release csc twn).spi = s.spi := by simp [State.release]

@[simp] theorem State.release_drega : (s.release csc twn).drega = s.drega := by simp [State.release]

@[simp] theorem State.release_rcd : (s.release csc twn).rcd = s.rcd := by simp [State.release]

@[simp] theorem State.release_sec : (s.release csc twn).sec = s.sec := by simp [State.release]

@[simp] theorem State.release_gar : (s.release csc twn).gar = s.gar := by simp [State.release]

@[simp] theorem State.release_pwr : (s.release csc twn).pwr = s.pwr := by simp [State.release]

@[simp] theorem State.release_fuses : (s.release csc twn).fuses = s.fuses := by simp [State.release]

@[simp] theorem State.release_now : (s.release csc twn).now = s.now := by simp [State.release]

@[simp] theorem State.release_tmp : (s.release csc twn).tmp = s.tmp := by simp [State.release]

/-- The cause that is latched: BKP_POR after a Bedrock power-on reset with the supply. -/
theorem State.release_rd_cause : (s.release csc twn).rd Fld.CFG_RESET_CAUSE =
    (if s.core.cause = 1 ∧ s.bk.por = true then 2 else s.core.cause % 16) := by
  have hw : Fld.CFG_RESET_CAUSE.width = 4 := rfl
  simp only [State.release]
  rw [State.rd_wrB_apart _ _ (by decide), State.rd_wrB_apart _ _ (by decide), State.rd_wrB_apart _ _ (by decide),
    State.rd_wrB_apart _ _ (by decide), State.rd_wrB_apart _ _ (by decide), State.rd_wr_same, hw]
  split <;> simp_all

theorem State.release_flag_cscStrap : (s.release csc twn).flag Fld.CFG_STRAP_CSC_ROLE = csc := by
  simp only [State.release]
  rw [State.flag_wrB_apart (by decide), State.flag_wrB_apart (by decide), State.flag_wrB_apart (by decide),
    State.flag_wrB_same _ _ _ rfl]

theorem State.release_flag_twnStrap : (s.release csc twn).flag Fld.CFG_STRAP_TWN_ROLE = twn := by
  simp only [State.release]
  rw [State.flag_wrB_apart (by decide), State.flag_wrB_apart (by decide), State.flag_wrB_same _ _ _ rfl]

theorem State.release_flag_vmainHigh : (s.release csc twn).flag Fld.PWR_MON_VMAIN_HIGH = true := by
  simp only [State.release]
  rw [State.flag_wrB_apart (by decide), State.flag_wrB_apart (by decide), State.flag_wrB_apart (by decide),
    State.flag_wrB_apart (by decide), State.flag_wrB_same _ _ _ rfl]

end

/-- Settles O4: POWER_GOOD in reset is `State.release`. -/
theorem powerGoodReleases : Obligations.PowerGoodReleases := by
  unfold Obligations.PowerGoodReleases
  intro s csc twn hr
  refine ⟨s.release csc twn, ?_, ?_⟩
  · change execPowerGood csc twn s = _
    simp [execPowerGood, hr]
  · exact ⟨State.release_core, State.release_rd_cause, State.release_flag_cscStrap, State.release_flag_twnStrap,
      State.release_flag_vmainHigh, State.release_bk, State.release_str, State.release_flash, State.release_led,
      State.release_spi, State.release_keepsWords⟩

/-! ### Core resets -/

/-- The words a reset of the device's own writes: two that follow the kept words, and those of the release. -/
def State.ownResetWords : List Nat :=
  [Adr.TMP_ACTIVE, Adr.SYS_TIME, Adr.CFG_RESET, Adr.PWR_MON, Adr.CFG_STRAP, Adr.CSC_STATUS, Adr.TWN_STATUS]

/-- A store without the entries whose key fails a test. -/
theorem storeGet_filter {α : Type} {d : Nat → α} {m : List (Nat × α)} {p : Nat → Bool} {a : Nat} :
    storeGet d (m.filter fun x => p x.1) a = if p a then storeGet d m a else d a := by
  unfold storeGet
  induction m with
  | nil => simp
  | cons x m ih =>
    obtain ⟨k, v⟩ := x
    by_cases hk : a = k
    · subst hk
      by_cases hp : p a = true
      · simp [hp]
      · simpa [hp] using ih
    · have hb : (a == k) = false := by simpa using hk
      by_cases hp : p k = true <;> simpa [hp, List.lookup_cons, hb] using ih

/-- A flash write that a reset cuts short changes the flash alone, and draws a free value. -/
theorem State.flashCut_cases (s : State) : s.flashCut = s ∨
    (∃ j, s.ldr.flash = some j ∧ j.cmd ≠ 1) ∧ ∃ c, s.flashCut = ({ s with flash := c } : State).drawn := by
  unfold State.flashCut
  split
  · exact .inl rfl
  next j e =>
    split
    · exact .inl rfl
    next hj =>
      refine .inr ⟨⟨j, e, hj⟩, ?_⟩
      unfold State.flashEffect
      split
      · contradiction
      · exact ⟨_, rfl⟩
      · exact ⟨_, rfl⟩

@[simp] theorem State.flashCut_regs (s : State) : s.flashCut.regs = s.regs := by
  obtain e | ⟨-, c, e⟩ := s.flashCut_cases
  · rw [e]
  · rw [e]; rfl

@[simp] theorem State.flashCut_bk (s : State) : s.flashCut.bk = s.bk := by
  obtain e | ⟨-, c, e⟩ := s.flashCut_cases
  · rw [e]
  · rw [e]; rfl

@[simp] theorem State.flashCut_fuses (s : State) : s.flashCut.fuses = s.fuses := by
  obtain e | ⟨-, c, e⟩ := s.flashCut_cases
  · rw [e]
  · rw [e]; rfl

@[simp] theorem State.flashCut_now (s : State) : s.flashCut.now = s.now := by
  obtain e | ⟨-, c, e⟩ := s.flashCut_cases
  · rw [e]
  · rw [e]; rfl

@[simp] theorem State.flashCut_tmp (s : State) : s.flashCut.tmp = s.tmp := by
  obtain e | ⟨-, c, e⟩ := s.flashCut_cases
  · rw [e]
  · rw [e]; rfl

/-- The flash stays unless a write is in progress. -/
theorem State.flashCut_flash (h : ∀ j, s.ldr.flash = some j → j.cmd = 1) : s.flashCut.flash = s.flash := by
  obtain e | ⟨⟨j, hj, hc⟩, -⟩ := s.flashCut_cases
  · rw [e]
  · exact absurd (h j hj) hc

@[simp] theorem State.coreReset_core (s : State) (cause : Nat) : (s.coreReset cause).core = { cause } := by
  simp [State.coreReset, State.refreshActive, State.refreshRtcValid]

/-- The words of a core reset: those that are kept, and two that follow the kept ones. -/
theorem State.coreReset_word {a cause : Nat} (ha : a ∉ [Adr.TMP_ACTIVE, Adr.SYS_TIME]) :
    (s.coreReset cause).word a = if keptWord a then s.rtcAbandon.word a else resetWord a := by
  unfold State.coreReset
  extract_lets _ u t
  have ht : t.keepsWords t.refreshActive.refreshRtcValid [Adr.TMP_ACTIVE, Adr.SYS_TIME] := by
    unfold State.refreshActive State.refreshRtcValid
    exact .wrB (.wr (.of_regs rfl))
  rw [ht a ha]
  unfold State.word
  rw [storeGet_filter, State.flashCut_regs]

theorem State.coreReset_lost (s : State) (cause : Nat) :
    s.coreLost (s.coreReset cause) [Adr.TMP_ACTIVE, Adr.SYS_TIME] := by
  refine ⟨fun a ha hw => by rw [State.coreReset_word hw, ha]; rfl, fun hh => ⟨fun a ha => ?_, ?_, ?_⟩, ?_⟩
  · have hw : a ∉ [Adr.TMP_ACTIVE, Adr.SYS_TIME] := by
      rintro hm
      simp only [List.mem_cons, List.not_mem_nil, or_false] at hm
      obtain rfl | rfl := hm <;> exact absurd ha (by decide)
    rw [State.coreReset_word hw, if_pos ha]
    simp [State.rtcAbandon, hh]
  · simp [State.coreReset, State.refreshActive, State.refreshRtcValid, State.rtcAbandon, hh]
  · simp [State.coreReset, State.refreshActive, State.refreshRtcValid, State.rtcAbandon, hh]
  · simp +contextual [State.coreReset, State.refreshActive, State.refreshRtcValid, State.flashCut_flash]

theorem State.coreLost.release {csc twn : Bool} (h : s.coreLost t [Adr.TMP_ACTIVE, Adr.SYS_TIME]) :
    s.coreLost (t.release csc twn) State.ownResetWords := by
  obtain ⟨hw, hk, hled, hspi, hdrega, hrcd, hsec, hgar, hpwr, hstr, hfuses, hnow, hcond, hflash⟩ := h
  have hsub {a : Nat} (ha : a ∉ State.ownResetWords) : a ∉ [Adr.TMP_ACTIVE, Adr.SYS_TIME] ∧
      a ∉ [Adr.CFG_RESET, Adr.PWR_MON, Adr.CFG_STRAP, Adr.CSC_STATUS, Adr.TWN_STATUS] := by
    simp only [State.ownResetWords, List.mem_cons, List.not_mem_nil, or_false, not_or] at ha ⊢
    tauto
  have hkept {a : Nat} (ha : keptWord a = true) :
      a ∉ [Adr.CFG_RESET, Adr.PWR_MON, Adr.CFG_STRAP, Adr.CSC_STATUS, Adr.TWN_STATUS] := by
    intro hm
    simp only [List.mem_cons, List.not_mem_nil, or_false] at hm
    obtain rfl | rfl | rfl | rfl | rfl := hm <;> exact absurd ha (by decide)
  refine ⟨fun a ha hm => ?_, fun hh => ⟨fun a ha => ?_, ?_, ?_⟩, ?_⟩
  · rw [State.release_keepsWords a (hsub hm).2, hw a ha (hsub hm).1]
  · rw [State.release_keepsWords a (hkept ha), (hk hh).1 a ha]
  · rw [State.release_bk, ← (hk hh).2.1]
  · rw [State.release_bk, ← (hk hh).2.2]
  · rw [State.release_led, State.release_spi, State.release_drega, State.release_rcd, State.release_sec, State.release_gar,
      State.release_pwr, State.release_str, State.release_fuses, State.release_now, State.release_tmp, State.release_flash]
    exact ⟨hled, hspi, hdrega, hrcd, hsec, hgar, hpwr, hstr, hfuses, hnow, hcond, hflash⟩

/-- A reset of the device's own (R43, R385, R403), of a cause other than POWER: what it loses, and the straps as they were. -/
theorem State.ownReset_spec (s : State) {cause : Nat} (h1 : cause ≠ 1) (h16 : cause < 16) :
    (s.ownReset cause).core = { cause, running := true } ∧ (s.ownReset cause).rd Fld.CFG_RESET_CAUSE = cause ∧
    (s.ownReset cause).flag Fld.CFG_STRAP_CSC_ROLE = s.flag Fld.CFG_STRAP_CSC_ROLE ∧
    (s.ownReset cause).flag Fld.CFG_STRAP_TWN_ROLE = s.flag Fld.CFG_STRAP_TWN_ROLE ∧
    s.coreLost (s.ownReset cause) State.ownResetWords := by
  refine ⟨?_, ?_, State.release_flag_cscStrap, State.release_flag_twnStrap, (s.coreReset_lost cause).release⟩
  · simp [State.ownReset]
  · simp [State.ownReset, State.release_rd_cause, h1, Nat.mod_eq_of_lt h16]

/-- Settles O5. That a reset of the device's own keeps the straps is the model's choice (notes/assumptions/92.md), and so is
where a write of Strata or of the flash is cut (notes/assumptions/74.md, 112.md). -/
theorem resets : Obligations.Resets := by
  unfold Obligations.Resets
  refine ⟨⟨fun s => ?brownout, fun s hr => ?pin⟩,
    fun s => ⟨fun hr hc ha => ?freeze, fun hw => ?warn, fun hd => ?config⟩⟩
  case brownout => exact ⟨s.coreReset 1, rfl, s.coreReset_core 1, s.coreReset_lost 1⟩
  case pin =>
    refine ⟨s.coreReset 3, ?_, s.coreReset_core 3, s.coreReset_lost 3⟩
    change execRstNAssert s = _
    simp [execRstNAssert, State.rstN, hr]
  case freeze =>
    refine ⟨_, ?_, State.ownReset_spec (s.until _) (by decide) (by decide)⟩
    change execAutoRestart s = _
    simp [execAutoRestart, State.autoRestart, hr, hc, ha]
  case warn =>
    refine ⟨_, ?_, s.ownReset_spec (by decide) (by decide)⟩
    change execWarnReset s = _
    simp [execWarnReset, hw]
  case config =>
    refine ⟨_, ?_, s.ownReset_spec (by decide) (by decide)⟩
    change execConfigReset s = _
    simp [execConfigReset, hd]

/-! ### Accesses of a host -/

theorem State.host_of_running {f : State → WStatus × State} (h : s.core.running = true) : s.host f = (f s).2 := by
  simp [State.host, h]

/-- Without a session a Sealed write meets that first. -/
theorem State.gate_of_no_session {p : Path} {roles : Nat} {lock : Bool} (h : s.session p = none) :
    s.gate p roles lock = .noSession := by
  simp [State.gate, h]

/-! A write of a register of the part that has no writer of its own goes by the register's class. -/

section
variable {p : Path} {a k : Nat} {v : Word} {d : RegDef} (ha : s.absent a = false) (hs : (regShape a).isSome = true)
  (hw : writerAt a = none) (hd : findReg a = some (d, k))
include ha hs hw hd

theorem State.writeWord_open (hc : d.cls = .open_) : s.writeWord p a v = (.ok, s.openWrite p a d k v) := by
  simp [State.writeWord, ha, Option.isSome_iff_ne_none.1 hs, hw, hd, hc]

theorem State.writeWord_image (hc : d.cls = .image) : s.writeWord p a v = (.refused, s) := by
  simp [State.writeWord, ha, Option.isSome_iff_ne_none.1 hs, hw, hd, hc]

theorem State.writeWord_sealed (hc : d.cls = .sealed) : s.writeWord p a v = s.sealedWrite p a d v := by
  simp [State.writeWord, ha, Option.isSome_iff_ne_none.1 hs, hw, hd, hc]

end

/-- Settles O55: each clause is one case of the register's class. -/
theorem registerWrites : Obligations.RegisterWrites := by
  unfold Obligations.RegisterWrites
  intro s p a v d k hr ha hs hw hd
  have hx : exec (.registerWrite p a v) s = .next (s.writeWord p a.toNat v).2 :=
    congrArg Host.Outcome.next (State.host_of_running hr)
  rw [hx]
  refine ⟨fun hc hh => ?_, fun hc => ?_, fun hc hn => ?_⟩
  · have ho : s.openWrite p a.toNat d k v = s.setWord a.toNat (openBits d k (s.word a.toNat) v) := by
      simp [State.openWrite, hh]
    rw [State.writeWord_open ha hs hw hd hc]
    refine ⟨_, congrArg Host.Outcome.next ho, State.word_setWord_same .., State.regsOnly.setWord (.refl s),
      State.keepsWords.setWord (.of_regs rfl) ?_⟩
    exact List.mem_singleton.2 rfl
  · rw [State.writeWord_image ha hs hw hd hc]
  · rw [State.writeWord_sealed ha hs hw hd hc]
    simp [State.sealedWrite, State.gate_of_no_session hn]

end Sys2Proof.Machine
end

section
/-!
Transactions that a command makes inside its own step (R464): what its commit can rely on after the waiting copies and a bank
failure on the way, and the image and TSEQ it leaves; the commands of LED_CMD (R209, R213).
-/

namespace Sys2Proof.Machine
set_option Elab.async false
variable {s t u : State}

/-! ### The registers that follow a commit -/

theorem State.regsOnly.led (h : s.regsOnly t) : t.led = s.led := by rw [h]

theorem State.regsOnly.str (h : s.regsOnly t) : t.str = s.str := by rw [h]

theorem State.regsOnly.wrS {f v} (h : s.regsOnly t) : s.regsOnly (t.wrS f v) := h.wr

theorem State.regsOnly.ite {c : Prop} [Decidable c] (ht : s.regsOnly t) (hu : s.regsOnly u) :
    s.regsOnly (if c then t else u) := by
  split <;> assumption

theorem State.regsOnly.foldl {α : Type} {f : State → α → State} (h : s.regsOnly t)
    (hf : ∀ u x, s.regsOnly u → s.regsOnly (f u x)) {l : List α} : s.regsOnly (l.foldl f t) := by
  induction l generalizing t with
  | nil => exact h
  | cons x l ih => exact ih (hf _ _ h)

theorem State.regsOnly.setTimeSrc {v} (h : s.regsOnly t) : s.regsOnly (t.setTimeSrc v) := by
  unfold State.setTimeSrc
  exact .ite h.wr (.wrB h.wr)

theorem State.regsOnly.refreshTariff (h : s.regsOnly t) : s.regsOnly t.refreshTariff := by
  unfold State.refreshTariff
  extract_lets
  split
  · exact .wrB (.wrB (.wr (.wr h)))
  · exact .wrS (.wr (.wr (.wr (.wrB (.wrB (.wrB (.wrB (.wr (.wr h)))))))))

theorem State.refresh_regsOnly (s : State) : s.regsOnly s.refresh := by
  unfold State.refresh
  exact .refreshTariff (.setTimeSrc (.foldl (.wr (.wr (.wr (.wr (.wr (.wr (.wr (.wr (.wr (.wr (.wr (.wr (.wr (.wr (.wrS
    (.wrB (.wr (.wr (.refl s))))))))))))))))))) fun _ _ h => .wr h))

@[simp] theorem State.showLive_com (s : State) : s.showLive.led.com = s.led.com := by
  unfold State.showLive State.lgKeep
  dsimp only
  rw [(State.refresh_regsOnly _).led]

@[simp] theorem State.showLive_str (s : State) : s.showLive.str = s.str := (State.refresh_regsOnly _).str

/-! ### A commit -/

@[simp] theorem State.maybeCompact_com (s : State) : s.maybeCompact.led.com = s.led.com := by
  unfold State.maybeCompact
  split <;> rfl

@[simp] theorem State.maybeCompact_tseq (s : State) : s.maybeCompact.str.tseq = s.str.tseq := by
  unfold State.maybeCompact
  split <;> rfl

/-- A commit makes its entries the committed image. -/
theorem State.commitTxn_com (s : State) (us : Nat) (t : Txn) :
    (s.commitTxn us t).led.com = applyTxn s.led.com (t.number (s.str.tseq + 1)) := by
  simp [State.commitTxn, State.refreshJournal, Strata.place]

/-- A commit takes the next TSEQ. -/
theorem State.commitTxn_tseq (s : State) (us : Nat) (t : Txn) : (s.commitTxn us t).str.tseq = s.str.tseq + 1 := by
  simp [State.commitTxn, State.refreshJournal, Strata.place, Strata.commit]

/-- The image after a transaction of one Audit Trail entry and a change of the state: only the state differs. -/
theorem applyTxn_audit_state {b : Build} {l : Ledger} (hb : b.entries = []) (kind : Nat) (roles keys : BitVec 8)
    (detail : List Byte) (f : LedState → LedState) (k : Nat) (act : TxnAct) (q : BitVec 32) :
    applyTxn l ((((b.audit kind roles keys detail).st f).txn k act).number q) =
      { l with st := f (b.audit kind roles keys detail).img.st } := by
  simp [applyTxn, Txn.number, Build.txn, Build.st, Build.audit, Build.add, hb, supersede, sameTarget, withTseq, applyEntry]

theorem Build.audit_aseq (b : Build) (kind : Nat) (roles keys : BitVec 8) (detail : List Byte) :
    (b.audit kind roles keys detail).img.st.aseq = b.img.st.aseq + 1 := rfl

/-! ### What a command's commit relies on -/

/-- The committed image, the last TSEQ, and what lets the ledger work but for its banks, are as before. -/
structure LedgerKept (s t : State) : Prop where
  com : t.led.com = s.led.com
  recovered : t.led.recovered = s.led.recovered
  frozen : t.led.frozen = s.led.frozen
  tseq : t.str.tseq = s.str.tseq
  chip : t.chip = s.chip

theorem LedgerKept.refl (s : State) : LedgerKept s s := ⟨rfl, rfl, rfl, rfl, rfl⟩

theorem LedgerKept.trans (h : LedgerKept s t) (k : LedgerKept t u) : LedgerKept s u :=
  ⟨k.com.trans h.com, k.recovered.trans h.recovered, k.frozen.trans h.frozen, k.tseq.trans h.tseq, k.chip.trans h.chip⟩

theorem LedgerKept.wr (h : LedgerKept s t) {f : Field} {v : Nat} (hf : f.apart Fld.SYS_STATUS_STATE = true := by decide) :
    LedgerKept s (t.wr f v) :=
  ⟨h.com, h.recovered, h.frozen, h.tseq, (State.rd_wr_apart _ _ hf).trans h.chip⟩

theorem LedgerKept.wrB (h : LedgerKept s t) {f : Field} {b : Bool}
    (hf : f.apart Fld.SYS_STATUS_STATE = true := by decide) : LedgerKept s (t.wrB f b) := h.wr hf

theorem LedgerKept.count (h : LedgerKept s t) {f : Field} {n : Nat}
    (hf : f.apart Fld.SYS_STATUS_STATE = true := by decide) : LedgerKept s (t.count f n) := h.wr hf

theorem LedgerKept.ite {c : Prop} [Decidable c] (ht : LedgerKept s t) (hu : LedgerKept s u) :
    LedgerKept s (if c then t else u) := by
  split <;> assumption

theorem LedgerKept.raise (h : LedgerKept s t) {code source : Nat} {payload : List Byte} :
    LedgerKept s (t.raise code source payload) where
  com := by rw [State.raise_led, h.com]
  recovered := by rw [State.raise_led, h.recovered]
  frozen := by rw [State.raise_led, h.frozen]
  tseq := by rw [State.raise_str, h.tseq]
  chip := (State.rd_raise _ (by decide) _ _ _).trans h.chip

theorem LedgerKept.maybeCompact (h : LedgerKept s t) : LedgerKept s t.maybeCompact := by
  unfold State.maybeCompact
  refine .ite (.wrB ?_) h
  exact ⟨h.com, h.recovered, h.frozen, h.tseq, h.chip⟩

/-- With the ledger's area alive, the ledger works as before. -/
theorem LedgerKept.ledgerOk (h : LedgerKept s t) (hs : s.ledgerOk = true) (ht : areaDead t.str 0 = false) :
    t.ledgerOk = true := by
  unfold State.ledgerOk at hs ⊢
  rw [h.recovered, h.frozen, h.chip, ht]
  simp only [Bool.and_eq_true] at hs ⊢
  tauto

/-! ### Post-commit copies -/

theorem copyHome_tseq (uid : BitVec 64) (st : Strata) (e : LEntry) : (copyHome uid st e).tseq = st.tseq := by
  cases e with
  | audit p v =>
    unfold copyHome
    dsimp only
    split <;> rfl
  | _ => rfl

theorem copyHome_failed (uid : BitVec 64) (st : Strata) (e : LEntry) : (copyHome uid st e).failed = st.failed := by
  cases e with
  | audit p v =>
    unfold copyHome
    dsimp only
    split <;> rfl
  | _ => rfl

theorem State.maybeCompact_failed (s : State) : s.maybeCompact.str.failed = s.str.failed := by
  unfold State.maybeCompact
  split <;> rfl

theorem LedgerKept.copyDone (h : LedgerKept s t) : LedgerKept s t.copyDone := by
  unfold State.copyDone
  split
  · exact h
  next c cs _ =>
    have hu : LedgerKept s { t with
        str := copyHome t.fuses.uid t.str c.entry, led := { t.led with copies := cs } } :=
      ⟨h.com, h.recovered, h.frozen, (copyHome_tseq _ _ _).trans h.tseq, h.chip⟩
    exact .maybeCompact (.wr (.wr (.wrB (.ite (.count hu) hu))))

theorem State.copyDone_failed (s : State) : s.copyDone.str.failed = s.str.failed := by
  unfold State.copyDone
  split
  · rfl
  next c cs _ =>
    extract_lets _ _ u v
    have hv : v.str.failed = s.str.failed := by
      unfold v
      split <;> exact copyHome_failed _ _ _
    rw [State.maybeCompact_failed]
    exact hv

/-- What an iterated step keeps. -/
theorem LedgerKept.iterate {f : State → State} (hf : ∀ u, LedgerKept u (f u) ∧ (f u).str.failed = u.str.failed)
    (n : Nat) :
    LedgerKept s (Nat.iterate f n s) ∧ (Nat.iterate f n s).str.failed = s.str.failed := by
  induction n generalizing s with
  | zero => exact ⟨.refl s, rfl⟩
  | succ n ih =>
    obtain ⟨h1, e1⟩ := hf s
    obtain ⟨h2, e2⟩ := ih (s := f s)
    exact ⟨h1.trans h2, e2.trans e1⟩

theorem State.snapDone_kept (s : State) : LedgerKept s s.snapDone ∧ s.snapDone.str.failed = s.str.failed := by
  unfold State.snapDone
  refine LedgerKept.iterate (fun u => ?_) _
  split
  · exact ⟨.copyDone (.refl u), u.copyDone_failed⟩
  · exact ⟨.refl u, rfl⟩

/-! ### A bank failure on the way -/

theorem copyFailed_congr {a b : Strata} (h : a.failed = b.failed) (area copy : Nat) :
    copyFailed a area copy = copyFailed b area copy := by
  unfold copyFailed
  rw [h]

theorem State.twoCopies.alive (h : s.twoCopies) : areaDead s.str 0 = false := by simp [areaDead, h.1]

theorem markPartner_tseq (st : Strata) (b : Nat) : (markPartner st b).tseq = st.tseq := by
  unfold markPartner
  split
  · rfl
  · split <;> rfl

theorem markPartner_failed (st : Strata) (b : Nat) : (markPartner st b).failed = st.failed := by
  unfold markPartner
  split
  · rfl
  · split <;> rfl

/-- The banks that have failed, with one more. -/
def Strata.withFailed (st : Strata) (b : Fin 16) : Strata :=
  { st with failed := if b ∈ st.failed then st.failed else st.failed ++ [b] }

/-- Beside Strata, a failure of a bank marks registers alone. -/
theorem State.markBank_str (s : State) (f : BankFail) :
    (s.markBank f).str = markPartner (s.str.withFailed f.bank) f.bank.val := by
  unfold State.markBank
  extract_lets _ _ _ t2 _ t3 _ _ t6
  have h3 : State.regsOnly t2 t3 := .wr (.wr (.wr (.refl _)))
  have h6 : State.regsOnly t2 t6 := .wr (.wr (.ite (.wr h3) h3))
  exact State.regsOnly.str (s := t2) (.ite (.wr h6) (.ite (.wr h6) h6))

theorem LedgerKept.markBank (h : LedgerKept s t) {f : BankFail} : LedgerKept s (t.markBank f) := by
  unfold State.markBank
  extract_lets _ _ _ t2 _ t3 _ _ t6
  have h2 : LedgerKept s t2 := ⟨h.com, h.recovered, h.frozen, (markPartner_tseq _ _).trans h.tseq, h.chip⟩
  have h3 : LedgerKept s t3 := .wr (.wr (.wr h2))
  have h6 : LedgerKept s t6 := .wr (.wr (.ite (.count h3) h3))
  exact .ite (.wr h6) (.ite (.wr h6) h6)

/-- A failure of a bank leaves the other copies. -/
theorem copyFailed_withFailed {st : Strata} {b : Fin 16} {area copy : Nat} (hb : areaOf b.val ≠ (area, copy)) :
    copyFailed (st.withFailed b) area copy = copyFailed st area copy := by
  unfold copyFailed Strata.withFailed
  split
  · rfl
  · simp [List.any_append, hb]

/-- One bank of the ledger's area fails: the other copy carries on. -/
theorem State.markBank_alive (h : s.twoCopies) (i : Fin 2) (c : BitVec 4) :
    areaDead (s.markBank { bank := Fin.ofNat 16 i.val, cause := c }).str 0 = false := by
  obtain ⟨h0, h1⟩ := h
  rw [State.markBank_str]
  unfold areaDead
  rw [copyFailed_congr (markPartner_failed _ _), copyFailed_congr (markPartner_failed _ _)]
  obtain rfl | rfl : i = 0 ∨ i = 1 := by omega
  · exact Bool.and_eq_false_iff.2 (.inr ((copyFailed_withFailed (by decide : areaOf 0 ≠ (0, 1))).trans h1))
  · exact Bool.and_eq_false_iff.2 (.inl ((copyFailed_withFailed (by decide : areaOf 1 ≠ (0, 0))).trans h0))

/-- A new failure in the ledger's area that leaves it alive is marked and raised, and nothing else follows. -/
theorem State.bankFail_of_alive {f : BankFail} (ha : (areaOf f.bank.val).1 = 0) (hf : f.bank ∉ s.str.failed)
    (hc : f.cause ≠ 0) (hm : areaDead (s.markBank f).str 0 = false) :
    s.bankFail f = (s.markBank f).raise evStrataBankFail f.bank.val (beBytes 1 f.cause.toNat) := by
  unfold State.bankFail
  rw [if_neg hf, if_neg hc]
  simp [ha, hm]

theorem State.bankFail_kept (h : s.twoCopies) (i : Fin 2) (c : BitVec 4) :
    LedgerKept s (s.bankFail { bank := Fin.ofNat 16 i.val, cause := c }) ∧
      areaDead (s.bankFail { bank := Fin.ofNat 16 i.val, cause := c }).str 0 = false := by
  have ha : (areaOf (Fin.ofNat 16 i.val).val).1 = 0 := by revert i; decide
  have hm := s.markBank_alive h i c
  by_cases hf : Fin.ofNat 16 i.val ∈ s.str.failed
  · have e : s.bankFail { bank := Fin.ofNat 16 i.val, cause := c } = s := if_pos hf
    rw [e]
    exact ⟨.refl s, h.alive⟩
  by_cases hc : c = 0
  · have e : s.bankFail { bank := Fin.ofNat 16 i.val, cause := c } = s.eccCorrected := (if_neg hf).trans (if_pos hc)
    rw [e]
    exact ⟨.count (.count (.refl s)), h.alive⟩
  · rw [State.bankFail_of_alive ha hf hc hm, State.raise_str]
    exact ⟨.raise (.markBank (.refl s)), hm⟩

/-- Whatever bank of the ledger's area fails during a commit, the ledger goes on (R237, R464). -/
theorem State.meetFault_kept (h : s.twoCopies) : LedgerKept s s.meetFault ∧ areaDead s.meetFault.str 0 = false := by
  unfold State.meetFault
  split
  · exact ⟨.refl s, h.alive⟩
  · exact State.bankFail_kept h _ _

/-- A command of a ledger that can commit does: on a state whose committed image and TSEQ are those of before. -/
theorem State.command_of_canCommit (h : s.canCommit) (kind : Nat) (f : Build → Build) : ∃ u, LedgerKept s u ∧
    s.command kind f = (true, ((u.commitTxn u.freeUs ((f (u.newBuild u.led.com)).txn kind .command)).showLive).drawn) := by
  obtain ⟨hok, ⟨h0, h1⟩, hwarn, hq⟩ := h
  obtain ⟨hk, hf⟩ := s.snapDone_kept
  have h2 : s.snapDone.twoCopies := ⟨(copyFailed_congr hf 0 0).trans h0, (copyFailed_congr hf 0 1).trans h1⟩
  obtain ⟨hm, ha⟩ := State.meetFault_kept h2
  have hu : LedgerKept s s.snapDone.meetFault := hk.trans hm
  have hd : s.drain = s := by simp [State.drain, hq]
  refine ⟨_, hu, ?_⟩
  simp [State.command, hok, hwarn, hd, hu.ledgerOk hok ha]

/-- A command's transaction of one Audit Trail entry and a change of the state: the next ASEQ, the next TSEQ, and nothing else
of the image. -/
theorem State.command_audit_state (h : s.canCommit) (k kind : Nat) (roles keys : BitVec 8) (detail : Build → List Byte)
    (g : LedState → LedState) :
    ∃ st t, s.command k (fun b => (b.audit kind roles keys (detail b)).st g) = (true, t) ∧
      t.led.com = { s.led.com with st := g st } ∧ st.aseq = s.led.com.st.aseq + 1 ∧ t.str.tseq = s.str.tseq + 1 := by
  obtain ⟨u, hu, hc⟩ := s.command_of_canCommit h k fun b => (b.audit kind roles keys (detail b)).st g
  refine ⟨((u.newBuild u.led.com).audit kind roles keys (detail (u.newBuild u.led.com))).img.st, _, hc, ?_, ?_, ?_⟩
  · change (State.showLive _).led.com = _
    rw [State.showLive_com, State.commitTxn_com, applyTxn_audit_state rfl, hu.com]
  · rw [Build.audit_aseq]
    change u.led.com.st.aseq + 1 = _
    rw [hu.com]
  · change (State.showLive _).str.tseq = _
    rw [State.showLive_str, State.commitTxn_tseq, hu.tseq]

/-! ### LED_CMD (R209, R213) -/

section
variable {p : Path}

theorem State.billingCmd_pass {x : Session} (h : s.gate p (roleSupplier + roleReceiver) false = .pass x) :
    s.billingCmd p = (.ok, { s with led := { s.led with
      billReq := true, billRoles := x.role, billKeys := keysOne x.key } }.wr Fld.LED_CMD_RESULT 1) := by
  simp [State.billingCmd, h]

theorem State.disarm_regs (p : Path) (cmd : Nat) : (s.disarm p cmd).regs = s.regs := by simp [State.disarm]

theorem State.disarm_str (p : Path) (cmd : Nat) : (s.disarm p cmd).str = s.str := by simp [State.disarm]

theorem State.disarm_armed (p : Path) (cmd : Nat) :
    ((s.disarm p cmd).path p).armed = (s.path p).armed.filter (fun a => a.cmd ≠ cmd) := by simp [State.disarm]

theorem State.acceptCmd_pass {a : Armed} (h : s.gateDual p 0x0021 (beBytes 4 (s.rd Fld.LED_STEP_STEP)) = .pass a)
    (hs : s.flag Fld.LED_STATUS_STEP_HELD = true) :
    s.acceptCmd p = (.ok, { s.disarm p 0x0021 with led := { s.led with
      stepReq := some (a.roles, a.keys) } }.wr Fld.LED_CMD_RESULT 1) := by
  have hl : (s.disarm p 0x0021).led = s.led := by simp [State.disarm]
  simp [State.acceptCmd, h, hs, hl]

/-- A rejected step: the transaction with its Audit Trail entry commits. -/
theorem State.rejectCmd_pass {x : Session} (h : s.gate p (roleSupplier + roleReceiver) true = .pass x)
    (hs : s.flag Fld.LED_STATUS_STEP_HELD = true) (hc : s.canCommit) : ∃ (t : State) (st : LedState),
    (s.rejectCmd p).2 = t.wr Fld.LED_CMD_RESULT 1 ∧ t.led.com = { s.led.com with st := st } ∧
      st.stepHeld = none ∧ st.aseq = s.led.com.st.aseq + 1 ∧ t.str.tseq = s.str.tseq + 1 := by
  obtain ⟨st, t, hcmd, hcom, haseq, htseq⟩ := s.command_audit_state hc 0x06 0x0A x.role (keysOne x.key)
    (fun b => beBytes 4 (ofSigned 32 (b.img.st.stepHeld.getD 0)))
    fun st => { st with rejected := st.stepHeld.map fun _ => st.stepMs, stepHeld := none }
  refine ⟨t, _, ?_, hcom, rfl, haseq, htseq⟩
  simp [State.rejectCmd, h, hs, hcmd]

/-- Settles O12: LED_CMD's three commands, and the gate of a path without a session. -/
theorem ledgerCommands : Obligations.LedgerCommands := by
  unfold Obligations.LedgerCommands
  intro s p hr
  have hbill : exec (.billingClose p) s = .next (s.billingCmd p).2 := congrArg Host.Outcome.next (State.host_of_running hr)
  have haccept : exec (.acceptStep p) s = .next (s.acceptCmd p).2 := congrArg Host.Outcome.next (State.host_of_running hr)
  have hreject : exec (.rejectStep p) s = .next (s.rejectCmd p).2 := congrArg Host.Outcome.next (State.host_of_running hr)
  refine ⟨fun x hx => ?bill, fun a ha hs => ?accept, fun x hx hs hc => ?reject, fun hn => ?none⟩
  case bill =>
    refine ⟨_, hbill, ?_⟩
    rw [State.billingCmd_pass hx]
    exact ⟨State.rd_wr_same .., rfl, .wr (.of_regs rfl), rfl⟩
  case accept =>
    refine ⟨_, haccept, ?_⟩
    rw [State.acceptCmd_pass ha hs]
    exact ⟨State.rd_wr_same .., rfl, State.disarm_armed p 0x0021, .wr (.of_regs (State.disarm_regs p _)),
      State.disarm_str p _⟩
  case reject =>
    obtain ⟨t, st, ht, hcom, hheld, haseq, htseq⟩ := State.rejectCmd_pass hx hs hc
    refine ⟨_, hreject, ?_⟩
    rw [ht]
    refine ⟨State.rd_wr_same .., ?_, ?_, ?_, htseq⟩ <;> simp [hcom, hheld, haseq]
  case none =>
    rw [hbill]
    simp [State.billingCmd, State.gate_of_no_session hn]

end

end Sys2Proof.Machine
end

section
/-!
What metering, ports and records leave alone. `Spares s t` collects the parts of the state and the fields that no such work
touches; one lemma per function says that it spares them, and the statements about faults and the boundary read them across it.
-/

namespace Sys2Proof.Machine
set_option Elab.async false
variable {s0 s t : State}

/-! ### The parts and fields that are spared -/

/-- The parts of the state beside registers that metering, ports and records do not touch. -/
def State.sparedParts (s : State) : Core × LedWork × Strata × FlashDev × Esc × Garnet :=
  (s.core, s.led, s.str, s.flash, s.esc, s.gar)

/-- The register fields that metering, ports and records do not touch. -/
def sparedFields : List Field :=
  [Fld.SYS_STATUS_STATE, Fld.SYS_ALERT_FROZEN, Fld.SYS_ESC_STATUS_FAIL, Fld.SYS_OPSEC_OPSEC, Fld.SEC_GARNET_FAULT,
    Fld.PTP_EPOCH_CAP_EPOCH, Fld.PTP_EPOCH_CAP_SEC, Fld.PTP_EPOCH_CAP_NS] ++ (List.range 16).map engField

theorem engField_spared {b : Nat} (hb : b < 16) : engField b ∈ sparedFields :=
  List.mem_append_right _ (List.mem_map_of_mem (List.mem_range.2 hb))

/-- A field that shares no bit with a spared one. -/
def Field.clear (f : Field) : Bool := sparedFields.all f.apart

/-- A field of the blocks AQ to LG, or of the network below the PTP clock's registers. -/
def Field.inBlocks (f : Field) : Bool :=
  (decide (0x100000 ≤ f.addr) && decide (f.addr + 4 * f.words ≤ 0x600000)) ||
    (decide (0x700000 ≤ f.addr) && decide (f.addr + 4 * f.words ≤ 0x702020))

theorem spared_outside_blocks : ∀ g ∈ sparedFields, g.addr + 4 * g.words ≤ 0x100000 ∨
    (0x600000 ≤ g.addr ∧ g.addr + 4 * g.words ≤ 0x700000) ∨ 0x702020 ≤ g.addr := by decide

theorem Field.clear_of_inBlocks {f : Field} (h : f.inBlocks = true) : f.clear = true := by
  refine List.all_eq_true.2 fun g hg => ?_
  have ho := spared_outside_blocks g hg
  simp only [Field.inBlocks, Field.apart, Bool.or_eq_true, Bool.and_eq_true, decide_eq_true_eq] at *
  omega

theorem spared_intakeFree : ∀ g ∈ sparedFields, g.intakeFree = true := by decide

/-- The spared parts and fields are as before. -/
structure Spares (s t : State) : Prop where
  parts : t.sparedParts = s.sparedParts
  rd : ∀ g ∈ sparedFields, t.rd g = s.rd g

theorem Spares.refl (s : State) : Spares s s := ⟨rfl, fun _ _ => rfl⟩

theorem Spares.trans {u : State} (h : Spares s t) (k : Spares t u) : Spares s u :=
  ⟨k.parts.trans h.parts, fun g hg => (k.rd g hg).trans (h.rd g hg)⟩

theorem Spares.core (h : Spares s t) : t.core = s.core := congrArg (·.1) h.parts
theorem Spares.led (h : Spares s t) : t.led = s.led := congrArg (·.2.1) h.parts
theorem Spares.str (h : Spares s t) : t.str = s.str := congrArg (·.2.2.1) h.parts
theorem Spares.flash (h : Spares s t) : t.flash = s.flash := congrArg (·.2.2.2.1) h.parts
theorem Spares.esc (h : Spares s t) : t.esc = s.esc := congrArg (·.2.2.2.2.1) h.parts
theorem Spares.gar (h : Spares s t) : t.gar = s.gar := congrArg (·.2.2.2.2.2) h.parts

/-- A state that differs in other parts. -/
theorem Spares.update (h : Spares s0 s) {pending fuses spi drega panelCaps spiOut now tickStart resetAt free pwr acq met aux
    strm rcd sec tmp ring twin panel portA portB net kept ptp bk ldr} :
    Spares s0 (State.mk pending fuses s.regs spi drega panelCaps spiOut now tickStart resetAt free s.core s.esc pwr acq met
      aux strm s.led s.str rcd s.gar sec tmp ring twin panel portA portB net kept ptp bk s.flash ldr) :=
  ⟨h.parts, h.rd⟩

/-! ### Control flow -/

theorem Spares.ite {c : Prop} [Decidable c] (hs : Spares s0 s) (ht : Spares s0 t) : Spares s0 (if c then s else t) := by
  split <;> assumption

theorem Spares.ite3 {α} {c : Prop} [Decidable c] {x y : State × α} (hs : Spares s0 x.1) (ht : Spares s0 y.1) :
    Spares s0 (if c then x else y).1 := by
  split <;> assumption

theorem Spares.foldl {α : Type} {f : State → α → State} {l : List α} (h : Spares s0 s)
    (hf : ∀ u, ∀ x ∈ l, Spares s0 u → Spares s0 (f u x)) : Spares s0 (l.foldl f s) := by
  induction l generalizing s with
  | nil => exact h
  | cons x l ih => exact ih (hf _ x (by simp) h) fun u y hy => hf u y (by simp [hy])

theorem Spares.foldl3 {α β : Type} {f : State × β → α → State × β} {x : State × β} {l : List α} (h : Spares s0 x.1)
    (hf : ∀ u a, Spares s0 u.1 → Spares s0 (f u a).1) : Spares s0 (l.foldl f x).1 := by
  induction l generalizing x with
  | nil => exact h
  | cons a l ih => exact ih (hf _ _ h)

/-! ### Registers -/

theorem Spares.wr (h : Spares s0 s) {f : Field} {v} (hf : f.clear = true := by decide) : Spares s0 (s.wr f v) :=
  ⟨h.parts, fun g hg => (s.rd_wr_apart v (List.all_eq_true.1 hf g hg)).trans (h.rd g hg)⟩

theorem Spares.wrB (h : Spares s0 s) {f : Field} {b} (hf : f.clear = true := by decide) : Spares s0 (s.wrB f b) := h.wr hf

theorem Spares.wrS (h : Spares s0 s) {f : Field} {v} (hf : f.clear = true := by decide) : Spares s0 (s.wrS f v) := h.wr hf

theorem Spares.count (h : Spares s0 s) {f : Field} {n} (hf : f.clear = true := by decide) : Spares s0 (s.count f n) := h.wr hf

theorem Spares.wrap (h : Spares s0 s) {f : Field} (hf : f.clear = true := by decide) : Spares s0 (s.wrap f) := h.wr hf

theorem Spares.irq (h : Spares s0 s) {f : Field} (hf : f.clear = true := by decide) : Spares s0 (s.irq f) := h.wr hf

/-- The fields of a repeated window are clear when those of each index are. -/
theorem clear_of_lt {F : Nat → Field} {n b : Nat} (hb : b < n) (hF : ∀ i < n, (F i).inBlocks = true := by decide) :
    (F b).clear = true := Field.clear_of_inBlocks (hF b hb)

section
variable {F : Nat → Field} {n b : Nat} (hb : b < n) (h : Spares s0 s)
include hb h

theorem Spares.wrAt {v} (hF : ∀ i < n, (F i).inBlocks = true := by decide) : Spares s0 (s.wr (F b) v) :=
  h.wr (clear_of_lt hb hF)

theorem Spares.wrBAt {v} (hF : ∀ i < n, (F i).inBlocks = true := by decide) : Spares s0 (s.wrB (F b) v) :=
  h.wrB (clear_of_lt hb hF)

theorem Spares.wrSAt {v} (hF : ∀ i < n, (F i).inBlocks = true := by decide) : Spares s0 (s.wrS (F b) v) :=
  h.wrS (clear_of_lt hb hF)

theorem Spares.countAt {v} (hF : ∀ i < n, (F i).inBlocks = true := by decide) : Spares s0 (s.count (F b) v) :=
  h.count (clear_of_lt hb hF)

theorem Spares.wrapAt (hF : ∀ i < n, (F i).inBlocks = true := by decide) : Spares s0 (s.wrap (F b)) :=
  h.wrap (clear_of_lt hb hF)

end

/-! ### The intake -/

theorem State.raise_sparedParts (s : State) (c n : Nat) (l : List Byte) : (s.raise c n l).sparedParts = s.sparedParts := by
  simp [State.sparedParts]

theorem Spares.raise (h : Spares s0 s) {code source payload} : Spares s0 (s.raise code source payload) :=
  ⟨(s.raise_sparedParts _ _ _).trans h.parts, fun g hg =>
    (s.rd_raise (spared_intakeFree g hg) _ _ _).trans (h.rd g hg)⟩

theorem Spares.raiseTogether (h : Spares s0 s) {es} : Spares s0 (s.raiseTogether es) := by
  unfold State.raiseTogether
  exact .foldl h fun _ _ _ h => .raise h

theorem Spares.lastResort (h : Spares s0 s) {e} : Spares s0 (s.lastResort e) :=
  ⟨(by simp [State.sparedParts] : (s.lastResort e).sparedParts = s.sparedParts).trans h.parts, fun g hg =>
    (s.rd_lastResort (spared_intakeFree g hg) e).trans (h.rd g hg)⟩

theorem Spares.setRcd (h : Spares s0 s) {r} : Spares s0 (s.setRcd r) := by
  unfold State.setRcd
  exact .wr (.update h)

theorem Spares.suppress (h : Spares s0 s) {code} : Spares s0 (s.suppress code) := by
  unfold State.suppress
  exact .setRcd h

theorem Spares.raiseFront (h : Spares s0 s) {code source payload} : Spares s0 (s.raiseFront code source payload) := by
  unfold State.raiseFront
  extract_lets _ t
  have ht : Spares s0 t := by
    unfold t
    split
    · exact .count (.suppress (.setRcd h))
    · exact h
  exact .ite h (.ite (.ite (.lastResort h) (.count h)) (.setRcd ht))

/-- A cycle's work is done on the state but for its recorder, and its events are raised at the end (R242). -/
theorem State.sameCycle_spares (s : State) (f : State → State) :
    ∃ r, Spares (f { s with rcd := r }) (s.sameCycle f) := by
  unfold State.sameCycle
  split
  · exact ⟨s.rcd, .refl _⟩
  · exact ⟨_, .raiseTogether (.update (.refl _))⟩

theorem Spares.drawn (h : Spares s0 s) : Spares s0 s.drawn := by
  unfold State.drawn
  exact .update h

/-! ### Records of errors and a freeze -/

theorem Spares.escRecord (h : Spares s0 s) {level region block cell cause error} :
    Spares s0 (s.escRecord level region block cell cause error) := by
  unfold State.escRecord
  exact .raise (.wr (.wr h))

theorem Spares.escBlock (h : Spares s0 s) {region} : Spares s0 (s.escBlock region) := by
  unfold State.escBlock
  exact .count (.wr h)

theorem Spares.escRegion (h : Spares s0 s) {region} : Spares s0 (s.escRegion region) := by
  unfold State.escRegion
  exact .count (.wr h)

theorem Spares.escFail (h : Spares s0 s) {region block cell error} : Spares s0 (s.escFail region block cell error) := by
  unfold State.escFail
  exact .escRecord (.escRecord h)

theorem Spares.endFreeze (h : Spares s0 s) : Spares s0 s.endFreeze := by
  unfold State.endFreeze
  extract_lets
  split
  · exact h
  · exact .wr (.wrB (.setRcd h))

theorem Spares.chipFreezeEvent (h : Spares s0 s) : Spares s0 s.chipFreezeEvent := by
  unfold State.chipFreezeEvent
  exact .ite (.lastResort (.endFreeze h)) (.raiseFront (.endFreeze h))

theorem Spares.loadReport (h : Spares s0 s) {slot live result addr tested} :
    Spares s0 (s.loadReport slot live result addr tested) := by
  unfold State.loadReport
  extract_lets _ t
  have ht : Spares s0 t := .wr (.wrB (.wr (.wr h)))
  exact .irq (.ite (.count ht) ht)

theorem Spares.loadAbandon (h : Spares s0 s) : Spares s0 s.loadAbandon := by
  unfold State.loadAbandon State.liveEnd State.loadRefuse
  split
  · exact h
  · exact .ite (.raise (.loadReport (.wr (.update h)))) (.raise (.loadReport (.update h)))

/-! ### Bays -/

theorem Spares.setBay (h : Spares s0 s) {b y} : Spares s0 (s.setBay b y) := by
  unfold State.setBay
  exact .update h

theorem Spares.refreshDegraded (h : Spares s0 s) : Spares s0 s.refreshDegraded := by
  unfold State.refreshDegraded
  exact .wrB h

section
variable {b : Nat} (hb : b < 16)
include hb

theorem Spares.dropWindow (h : Spares s0 s) : Spares s0 (s.dropWindow b) := by
  unfold State.dropWindow
  split
  · exact h
  · exact .countAt hb (.setBay h)

theorem Spares.setTrack (h : Spares s0 s) {v} : Spares s0 (s.setTrack b v) := by
  unfold State.setTrack
  extract_lets _ t1 t2 t3
  have h1 : Spares s0 t1 := .wrBAt hb (.wrAt hb h)
  have h2 : Spares s0 t2 := .ite (.dropWindow hb (.wrBAt hb h1)) h1
  have h3 : Spares s0 t3 := .ite (.wrAt hb h2) h2
  exact .wr (.wr (.ite (.setBay h3) h3))

theorem Spares.reportEvent (h : Spares s0 s) {kind e stop down aborted} :
    Spares s0 (s.reportEvent b kind e stop down aborted).1 := by
  unfold State.reportEvent
  extract_lets _ _ t1 t2 t3 t4 _ _ _ t5
  have h4 : Spares s0 t4 := .wrAt hb (.wrAt hb (.wrAt hb (.wrBAt hb (.wrBAt hb (.wrAt hb h)))))
  have h5 : Spares s0 t5 := by
    refine .setBay (.count h4 ?_)
    split <;> exact clear_of_lt hb
  exact .ite3 h5 h5

theorem Spares.endEvents (h : Spares s0 s) {down} : Spares s0 (s.endEvents b down).1 := by
  unfold State.endEvents
  extract_lets _ _ t d w
  have hd : Spares s0 d.1 := by
    unfold d
    split
    · exact .reportEvent hb (.setBay h)
    · exact .setBay h
  have hw : Spares s0 w.1 := by
    unfold w
    split
    · exact .reportEvent hb hd
    · exact hd
  exact .wrBAt hb (.wrBAt hb (.wrBAt hb hw))

theorem Spares.closeEvents (h : Spares s0 s) {down} : Spares s0 (s.closeEvents b down) := by
  unfold State.closeEvents
  exact .raiseTogether (.endEvents hb h)

/-! ### Tick values -/

theorem Spares.putB32 (h : Spares s0 s) {fs : List (Nat → Field)} (hfs : ∀ f ∈ fs, ∀ i < 16, (f i).inBlocks = true) {vs} :
    Spares s0 (s.putB32 b fs vs) := by
  unfold State.putB32
  exact .foldl h fun _ _ hx h => .wr h (Field.clear_of_inBlocks (hfs _ (List.of_mem_zip hx).1 b hb))

theorem Spares.tickValues (h : Spares s0 s) {cs} : Spares s0 (s.tickValues b cs) := by
  have ht : ∀ fs ∈ tickFields, ∀ f ∈ fs, ∀ i < 16, (f i).inBlocks = true := by decide
  have hp : ∀ x ∈ [Fld.BAY_PF_A_PF, Fld.BAY_PF_B_PF, Fld.BAY_PF_C_PF, Fld.BAY_PF_T_PF].zipIdx, ∀ i < 16,
    (x.1 i).inBlocks = true := by decide
  unfold State.tickValues
  extract_lets _ _ _ _ _ _ t1 _ t2 _ _ t3
  have h1 : Spares s0 t1 := .foldl h fun _ _ hx h => .putB32 hb h (ht _ (List.of_mem_zip hx).1)
  have h2 : Spares s0 t2 := .foldl h1 fun _ x hx h => .wr h (Field.clear_of_inBlocks (hp x hx b hb))
  exact .wrAt hb (.ite (.wrAt hb h2) h2)

theorem Spares.bayTickNow (h : Spares s0 s) {epoch} : Spares s0 (s.bayTickNow b epoch) := by
  unfold State.bayTickNow
  extract_lets _ _ _ t
  have ht : Spares s0 t := .wrBAt hb (.setBay h)
  exact .ite (.wrAt hb ht) (.wrapAt hb (.tickValues hb ht))

theorem Spares.bayTickDue (h : Spares s0 s) : Spares s0 (s.bayTickDue b) := by
  unfold State.bayTickDue
  extract_lets
  split
  · exact h
  · exact .ite h (.bayTickNow hb h)

theorem Spares.bayTick (h : Spares s0 s) {epoch} : Spares s0 (s.bayTick b epoch) := by
  unfold State.bayTick
  extract_lets t
  have ht : Spares s0 t := by
    unfold t
    split
    · exact h
    · exact .bayTickNow hb h
  exact .bayTickDue hb (.setBay ht)

/-! ### Intervals of a bay -/

theorem Spares.testLimits (h : Spares s0 s) {v} : Spares s0 (s.testLimits b v) := by
  unfold State.testLimits
  refine .raiseTogether (.foldl3 h fun u x hu => ?_)
  unfold State.testLimit
  exact .ite3 hu (.ite3 (.wrAt hb hu) (.ite3 (.wrAt hb hu) hu))

omit hb in
theorem Spares.histogram (h : Spares s0 s) {v} : Spares s0 (s.histogram b v) := by
  unfold State.histogram State.setQual
  exact .update h

theorem Spares.closeInterval (h : Spares s0 s) {upto ten short step} :
    Spares s0 (s.closeInterval b upto ten short step) := by
  have ha : ∀ f ∈ (if ten then a10Fields else a3Fields), ∀ i < 16, (f i).inBlocks = true := by cases ten <;> decide
  unfold State.closeInterval
  extract_lets _ _ _ _ _ t _ _ t1 _ t3 _ t5
  have ht : Spares s0 t := .setBay h
  have h1 : Spares s0 t1 := .putB32 hb ht ha
  have h3 : Spares s0 t3 := .wrapAt hb (.wrAt hb (.wrBAt hb (.wrBAt hb (.wrBAt hb h1))))
  have h5 : Spares s0 t5 := .wrapAt hb (.wrAt hb (.wrBAt hb (.wrBAt hb (.wrBAt hb h1))))
  exact .ite ht (.ite (.ite h3 (.histogram h3)) (.ite h5 (.testLimits hb h5)))

theorem Spares.tryTen (h : Spares s0 s) : Spares s0 (s.tryTen b) := by
  unfold State.tryTen
  refine .foldl h fun u _ _ hu => ?_
  unfold State.closeDue
  split
  · exact hu
  · exact .ite hu (.closeInterval hb (.closeInterval hb (.setBay hu)))

theorem Spares.closeAt (h : Spares s0 s) {epoch step} : Spares s0 (s.closeAt b epoch step) := by
  unfold State.closeAt
  exact .tryTen hb (.setBay h)

end

theorem Spares.tenBoundary (h : Spares s0 s) {epoch} : Spares s0 (s.tenBoundary epoch) := by
  unfold State.tenBoundary
  extract_lets _ _ _ t
  have ht : Spares s0 t := .update h
  exact .ite (.foldl ht fun _ _ hx h => .tryTen (List.mem_range.1 hx) h)
    (.foldl ht fun _ _ hx h => .closeAt (List.mem_range.1 hx) h)

/-! ### Inputs, the auxiliary block and the streams -/

theorem Spares.setInput (h : Spares s0 s) {k x} : Spares s0 (s.setInput k x) := by
  unfold State.setInput
  exact .update h

theorem Spares.inputTick {k : Nat} (hk : k < 8) (h : Spares s0 s) {ns} : Spares s0 (s.inputTick ns k) := by
  unfold State.inputTick
  extract_lets _ _ t
  have ht : Spares s0 t := .wrSAt hk h
  refine .ite h (.ite (.setInput h) (.ite (.setInput (.wrAt hk ht)) ?_))
  split
  · exact .ite (.setInput (.wrBAt hk ht)) (.setInput (.wrBAt hk (.wrAt hk ht)))
  · exact .setInput (.wrBAt hk ht)

theorem Spares.axCapture (h : Spares s0 s) : Spares s0 s.axCapture := by
  unfold State.axCapture
  refine .wrap (.update (.foldl h fun u n hx hu => ?_))
  have hn : n < 34 := List.mem_range.1 hx
  exact .wrSAt hn (.wrSAt hn (.wrBAt hn (.wrBAt hn (.wrBAt hn (.wrAt hn (.wrSAt hn hu))))))

theorem Spares.axTick (h : Spares s0 s) {epoch} : Spares s0 (s.axTick epoch) := by
  unfold State.axTick
  extract_lets t _ _ _ t1
  have ht : Spares s0 t := .ite (.axCapture h) h
  have h1 : Spares s0 t1 := .update ht
  exact .ite h1 (.ite (.update h1) (.axCapture h1))

theorem Spares.setStream (h : Spares s0 s) {n x} : Spares s0 (s.setStream n x) := by
  unfold State.setStream
  exact .update h

theorem Spares.psLose (h : Spares s0 s) {n} : Spares s0 (s.psLose n) := by
  unfold State.psLose State.psSettle
  extract_lets
  split
  · exact h
  · exact .setStream (.setStream h)

theorem Spares.streamDue (h : Spares s0 s) {dt epoch n} : Spares s0 (s.streamDue dt epoch n) := by
  unfold State.streamDue
  exact .ite h (.setStream (.psLose h))

/-! ### References, the ring's master and the twin -/

theorem Spares.rateUpdate (h : Spares s0 s) {epoch ns} : Spares s0 (s.rateUpdate epoch ns) := by
  have hfrom (r : Int) : Spares s0 (s.rateFrom epoch r) := by
    unfold State.rateFrom
    exact .wrS (.update h)
  unfold State.rateUpdate
  extract_lets meas
  clear_value meas
  split
  · exact .wrB (hfrom _)
  · exact .ite (.wrB (hfrom _)) (.drawn (.wrB (hfrom _)))

theorem Spares.refCheck (h : Spares s0 s) {measured} : Spares s0 (s.refCheck measured) := by
  unfold State.refCheck
  extract_lets _ _ t1 _ _ _ _ _ _ t2
  have h1 : Spares s0 t1 := .update h
  have h2 : Spares s0 t2 := .update (.ite (.wrS h1) (.drawn (.wr h1)))
  exact .ite h1 (.ite (.raise (.wrB (.wrB h2))) (.ite (.wrB h2) h2))

theorem Spares.masterTick (h : Spares s0 s) : Spares s0 s.masterTick := by
  unfold State.masterTick
  exact .update (.ite (.drawn (.update h)) h)

theorem Spares.twinSend (h : Spares s0 s) {type payload} : Spares s0 (s.twinSend type payload) := by
  unfold State.twinSend
  exact .update h

theorem Spares.helloSend (h : Spares s0 s) : Spares s0 s.helloSend := by
  unfold State.helloSend
  exact .ite h (.twinSend h)

end Sys2Proof.Machine
end

section
/-!
The whole-second boundary (R33, R34, R35, R326) and the alignment of the tick.
-/

namespace Sys2Proof.Machine
set_option Elab.async false
variable {s0 s t : State}

/-! ### The parts of a boundary -/

/-- The epoch counter and the time stand at the boundary. -/
def State.tickTime (s : State) : State :=
  let e := s.nextBoundary
  let t := if s.epoch < e then s.setEpoch e else s
  let t := t.until (t.tickStart + (e - s.core.tickEpoch) / 1024)
  { t with tickStart := t.now }

/-- The tick that begins at an epoch. -/
def State.beginTick (s : State) (e : Nat) : State :=
  { s with core := { s.core with tickEpoch := e, ticks := s.core.ticks + 1 } }

@[simp] theorem State.beginTick_led (s : State) (e : Nat) : (s.beginTick e).led = s.led := rfl
@[simp] theorem State.beginTick_str (s : State) (e : Nat) : (s.beginTick e).str = s.str := rfl
@[simp] theorem State.beginTick_flash (s : State) (e : Nat) : (s.beginTick e).flash = s.flash := rfl
@[simp] theorem State.beginTick_rd (s : State) (e : Nat) (g : Field) : (s.beginTick e).rd g = s.rd g := rfl

/-- What the blocks, the references, the ring and the twin do at a boundary. -/
def State.tickWork (s : State) (ns : Real) (e : Nat) (ratio : Word) : State :=
  let s := (List.range 16).foldl (fun s b => s.bayTick b e) s
  let s := (List.range 8).foldl (fun s k => s.inputTick ns k) s
  let s := s.axTick e
  let s := (List.range 4).foldl (fun s n => s.streamDue ns e n) s
  ((((s.refCheck ratio).tenBoundary e).masterTick).helloSend).refreshDegraded

/-- What a boundary records: the tick that ends goes to the ledger, the next one begins, and the PTP clock is captured. -/
def State.tickTurn (s : State) (e : Nat) (x : PtpTime) : State :=
  (((s.ledgerBoundary e (ptpNs x)).beginTick e).rateUpdate e (ptpNs x)).ptpBoundary e x

/-- The length of the tick that ends, in ns. -/
def State.tickNs (s : State) : Real :=
  ((s.nextBoundary - s.core.tickEpoch : Nat) : Real) * epochNs (s.rdS Fld.MT_XREF_RATE)

theorem State.boundary_eq {ratio : Word} {x : PtpTime} (hr : s.flag Fld.AQ_STATUS_RUN = true) :
    s.boundary ratio x =
      s.sameCycle fun s => (s.tickTime.tickTurn s.nextBoundary x).tickWork s.tickNs s.nextBoundary ratio := by
  unfold State.boundary
  exact if_neg (by simp [hr])

theorem State.tickTime_spares (s : State) : Spares s s.tickTime := by
  have hu (n : Nat) : Spares s ((if s.epoch < s.nextBoundary then s.setEpoch s.nextBoundary else s).until n) := by
    unfold State.until State.setEpoch
    exact .update (.ite (.wr (.wr (.wr (.refl s)))) (.refl s))
  exact .update (hu _)

theorem State.tickWork_spares (s : State) (ns : Real) (e : Nat) (ratio : Word) : Spares s (s.tickWork ns e ratio) := by
  unfold State.tickWork
  exact .refreshDegraded (.helloSend (.masterTick (.tenBoundary (.refCheck (.foldl (.axTick (.foldl (.foldl (.refl s)
    fun _ _ hb h => .bayTick (List.mem_range.1 hb) h) fun _ _ hk h => .inputTick (List.mem_range.1 hk) h))
    fun _ _ _ h => .streamDue h)))))

/-! ### What a boundary records -/

theorem Spares.chip (h : Spares s t) : t.chip = s.chip := h.rd Fld.SYS_STATUS_STATE (by decide)

theorem Spares.ledgerOk (h : Spares s t) : t.ledgerOk = s.ledgerOk := by
  unfold State.ledgerOk
  rw [h.led, h.str, h.chip]

@[simp] theorem State.ledgerBoundary_core (s : State) (e p : Nat) : (s.ledgerBoundary e p).core = s.core := by
  unfold State.ledgerBoundary
  split <;> rfl

@[simp] theorem State.ledgerBoundary_str (s : State) (e p : Nat) : (s.ledgerBoundary e p).str = s.str := by
  unfold State.ledgerBoundary
  split <;> rfl

@[simp] theorem State.ledgerBoundary_flash (s : State) (e p : Nat) : (s.ledgerBoundary e p).flash = s.flash := by
  unfold State.ledgerBoundary
  split <;> rfl

@[simp] theorem State.ledgerBoundary_com (s : State) (e p : Nat) : (s.ledgerBoundary e p).led.com = s.led.com := by
  unfold State.ledgerBoundary
  split <;> rfl

/-- A ledger that does not work takes no note of the boundary. -/
theorem State.ledgerBoundary_off {e p : Nat} (h : s.ledgerOk = false) : s.ledgerBoundary e p = s := by
  simp [State.ledgerBoundary, h]

/-- A ledger that works notes the boundary and counts an operating second (R33, R35). -/
theorem State.ledgerBoundary_on {e p : Nat} (h : s.ledgerOk = true) :
    (s.ledgerBoundary e p).led.bounds.length = s.led.bounds.length + 1 ∧
      (s.ledgerBoundary e p).rd Fld.SYS_OPSEC_OPSEC = min (s.rd Fld.SYS_OPSEC_OPSEC + 1) (2 ^ 40 - 1) := by
  unfold State.ledgerBoundary
  rw [h]
  exact ⟨List.length_append, State.rd_count_same ..⟩

theorem State.rd_of_regs (h : t.regs = s.regs) (g : Field) : t.rd g = s.rd g := by
  unfold State.rd State.word
  rw [h]

/-- The registers of the capture (R326). -/
theorem State.ptpBoundary_regs (s : State) (e : Nat) (x : PtpTime) : (s.ptpBoundary e x).regs =
    (((s.wr Fld.PTP_EPOCH_CAP_EPOCH e).wr Fld.PTP_EPOCH_CAP_SEC x.sec.toNat).wr Fld.PTP_EPOCH_CAP_NS x.ns.toNat).regs := rfl

theorem State.ptpBoundary_sec (s : State) (e : Nat) (x : PtpTime) :
    (s.ptpBoundary e x).rd Fld.PTP_EPOCH_CAP_SEC = x.sec.toNat := by
  rw [State.rd_of_regs (s.ptpBoundary_regs e x), State.rd_wr_apart _ _ (by decide), State.rd_wr_same]
  exact Nat.mod_eq_of_lt x.sec.isLt

theorem State.ptpBoundary_ns (s : State) (e : Nat) (x : PtpTime) :
    (s.ptpBoundary e x).rd Fld.PTP_EPOCH_CAP_NS = x.ns.toNat := by
  rw [State.rd_of_regs (s.ptpBoundary_regs e x), State.rd_wr_same]
  exact Nat.mod_eq_of_lt x.ns.isLt

theorem State.ptpBoundary_epoch (s : State) (e : Nat) (x : PtpTime) :
    (s.ptpBoundary e x).rd Fld.PTP_EPOCH_CAP_EPOCH = e % 2 ^ 32 := by
  rw [State.rd_of_regs (s.ptpBoundary_regs e x), State.rd_wr_apart _ _ (by decide), State.rd_wr_apart _ _ (by decide),
    State.rd_wr_same, Fld.PTP_EPOCH_CAP_EPOCH]

theorem State.ptpBoundary_opsec (s : State) (e : Nat) (x : PtpTime) :
    (s.ptpBoundary e x).rd Fld.SYS_OPSEC_OPSEC = s.rd Fld.SYS_OPSEC_OPSEC := by
  rw [State.rd_of_regs (s.ptpBoundary_regs e x), State.rd_wr_apart _ _ (by decide), State.rd_wr_apart _ _ (by decide),
    State.rd_wr_apart _ _ (by decide)]

@[simp] theorem State.ptpBoundary_core (s : State) (e : Nat) (x : PtpTime) : (s.ptpBoundary e x).core = s.core := rfl
@[simp] theorem State.ptpBoundary_led (s : State) (e : Nat) (x : PtpTime) : (s.ptpBoundary e x).led = s.led := rfl
@[simp] theorem State.ptpBoundary_str (s : State) (e : Nat) (x : PtpTime) : (s.ptpBoundary e x).str = s.str := rfl
@[simp] theorem State.ptpBoundary_flash (s : State) (e : Nat) (x : PtpTime) : (s.ptpBoundary e x).flash = s.flash := rfl

/-- Beside work that spares it, a boundary is the ledger's share, the tick that begins, and the capture of the PTP clock. -/
theorem State.boundary_spares {ratio : Word} {x : PtpTime} (hr : s.flag Fld.AQ_STATUS_RUN = true) :
    ∃ u v, Spares s u ∧ Spares ((u.ledgerBoundary s.nextBoundary (ptpNs x)).beginTick s.nextBoundary) v ∧
      Spares (v.ptpBoundary s.nextBoundary x) (s.boundary ratio x) := by
  rw [State.boundary_eq hr]
  obtain ⟨r, h⟩ := s.sameCycle_spares
    fun s => (s.tickTime.tickTurn s.nextBoundary x).tickWork s.tickNs s.nextBoundary ratio
  have hu : Spares s ({ s with rcd := r } : State).tickTime := .trans (.update (.refl s)) (State.tickTime_spares _)
  exact ⟨_, _, hu, .rateUpdate (.refl _), .trans (State.tickWork_spares _ _ _ _) h⟩

theorem exec_wholeSecondBoundary (s : State) (ratio : Word) (x : PtpTime) :
    exec (.wholeSecondBoundary ratio x) s = .next (s.boundary ratio x) := rfl

/-! ### A new alignment base -/

theorem State.epochAlign_onlyWords (s : State) (b : Nat) :
    s.onlyWords (s.epochAlign b) [Adr.SYS_EPOCH_SEC, Adr.SYS_EPOCH_SEC + 4, Adr.SYS_TIME] := by
  have hbase : s.keepsWords (s.setBase b) [Adr.SYS_EPOCH_SEC, Adr.SYS_EPOCH_SEC + 4, Adr.SYS_TIME] := fun a ha => by
    obtain ⟨h0, h4, -⟩ : a ≠ 0x70 ∧ a ≠ 0x74 ∧ a ≠ 0x84 := by simpa [Adr.SYS_EPOCH_SEC, Adr.SYS_TIME] using ha
    exact (storeGet_storeSet_other h4).trans (storeGet_storeSet_other h0)
  exact ⟨rfl, .wrB hbase⟩

/-- Settles O36 by `State.boundary_spares`. The clock is captured at every boundary (notes/assumptions/116.md). -/
theorem boundaryBeginsTick : Obligations.BoundaryBeginsTick := by
  unfold Obligations.BoundaryBeginsTick
  refine ⟨fun s ratio x hr => ?_, fun s b => ⟨s.epochAlign b.toNat, rfl, ?_, ?_, s.epochAlign_onlyWords _⟩⟩
  case refine_1 =>
    obtain ⟨u, v, hu, hv, ht⟩ := State.boundary_spares (ratio := ratio) (x := x) hr
    have hcore : (s.boundary ratio x).core = { s.core with tickEpoch := s.nextBoundary, ticks := s.core.ticks + 1 } := by
      rw [ht.core, State.ptpBoundary_core, hv.core, State.beginTick, State.ledgerBoundary_core, hu.core]
    have hled : (s.boundary ratio x).led = (u.ledgerBoundary s.nextBoundary (ptpNs x)).led := by
      rw [ht.led, State.ptpBoundary_led, hv.led, State.beginTick_led]
    have hopsec : (s.boundary ratio x).rd Fld.SYS_OPSEC_OPSEC =
        (u.ledgerBoundary s.nextBoundary (ptpNs x)).rd Fld.SYS_OPSEC_OPSEC := by
      rw [ht.rd _ (by decide), State.ptpBoundary_opsec, hv.rd _ (by decide), State.beginTick_rd]
    refine ⟨_, exec_wholeSecondBoundary s ratio x, ?_, ?_, ?_, ?_, ?_, fun hok => ⟨?_, ?_⟩, fun hoff => ?_, ?_, ?_, ?_⟩
    · rw [hcore]
    · rw [hcore]
    · rw [ht.rd _ (by decide), State.ptpBoundary_sec]
    · rw [ht.rd _ (by decide), State.ptpBoundary_ns]
    · rw [ht.rd _ (by decide), State.ptpBoundary_epoch]
    · rw [hled, (State.ledgerBoundary_on (hu.ledgerOk.trans hok)).1, hu.led]
    · rw [hopsec, (State.ledgerBoundary_on (hu.ledgerOk.trans hok)).2, hu.rd _ (by decide)]
    · rw [hled, State.ledgerBoundary_off (hu.ledgerOk.trans hoff), hu.led]
    · rw [hled, State.ledgerBoundary_com, hu.led]
    · rw [ht.str, State.ptpBoundary_str, hv.str, State.beginTick_str, State.ledgerBoundary_str, hu.str]
    · rw [ht.flash, State.ptpBoundary_flash, hv.flash, State.beginTick_flash, State.ledgerBoundary_flash, hu.flash]
  · unfold State.epochAlign State.base
    rw [State.rd_wrB_apart _ _ (by decide), State.setBase, State.rd_wr_same]
    exact Nat.mod_eq_of_lt b.isLt
  · exact State.flag_wrB_same _ _ _ rfl

end Sys2Proof.Machine
end

section
/-!
Containment of errors (R39, R43, R461): the record at each level, the freeze of the device at a region failure, lockstep
mismatches (R195), and the Vein watchdog.
-/

namespace Sys2Proof.Machine
set_option Elab.async false
variable {s t : State}

/-! ### Counts and records -/

/-- A field apart from what a record writes: its own registers, the recorder and Bedrock. -/
def Field.recordFree (g : Field) : Bool :=
  g.intakeFree && (Fld.SYS_ESC_LAST_ALL.apart g && Fld.SYS_ESC_LAST_T_OPSEC.apart g)

theorem State.rd_escRecord (s : State) {g : Field} (hg : g.recordFree = true) (level region block cell cause error : Nat) :
    (s.escRecord level region block cell cause error).rd g = s.rd g := by
  simp only [Field.recordFree, Bool.and_eq_true] at hg
  obtain ⟨hi, hl, ht⟩ := hg
  unfold State.escRecord
  rw [State.rd_raise _ hi, State.rd_wr_apart _ _ ht, State.rd_wr_apart _ _ hl]

theorem State.flag_escRecord (s : State) {g : Field} (hg : g.recordFree = true) (level region block cell cause error : Nat) :
    (s.escRecord level region block cell cause error).flag g = s.flag g := by
  unfold State.flag
  rw [State.rd_escRecord s hg]

/-- SYS_ESC_LAST holds the record (R461). -/
theorem State.escRecord_last (s : State) (level region block cell cause error : Nat) :
    (s.escRecord level region block cell cause error).rd Fld.SYS_ESC_LAST_ALL =
      (level * 2 ^ 30 + region * 2 ^ 28 + block * 2 ^ 22 + cell * 2 ^ 16 + cause * 2 ^ 8 + error) % 2 ^ 32 := by
  unfold State.escRecord
  rw [State.rd_raise _ (by decide), State.rd_wr_apart _ _ (by decide), State.rd_wr_same]
  rfl

@[simp] theorem State.escRecord_led (s : State) (level region block cell cause error : Nat) :
    (s.escRecord level region block cell cause error).led = s.led := (Spares.refl s).escRecord.led

@[simp] theorem State.escRecord_esc (s : State) (level region block cell cause error : Nat) :
    (s.escRecord level region block cell cause error).esc = s.esc := (Spares.refl s).escRecord.esc

@[simp] theorem State.escBlock_led (s : State) (region : Nat) : (s.escBlock region).led = s.led := rfl

@[simp] theorem State.escRegion_led (s : State) (region : Nat) : (s.escRegion region).led = s.led := rfl

theorem State.escBlock_count (s : State) (region : Nat) :
    (s.escBlock region).rd Fld.SYS_ESC_COUNT_BLOCK = min (s.rd Fld.SYS_ESC_COUNT_BLOCK + 1) 255 := by
  unfold State.escBlock
  rw [State.rd_count_same, State.rd_wr_apart _ _ (by decide)]
  rfl

theorem State.escRegion_count (s : State) (region : Nat) :
    (s.escRegion region).rd Fld.SYS_ESC_COUNT_REGION = min (s.rd Fld.SYS_ESC_COUNT_REGION + 1) 255 := by
  unfold State.escRegion
  rw [State.rd_count_same, State.rd_wr_apart _ _ (by decide)]
  rfl

/-- Counting at block level leaves the count at region level alone. -/
theorem State.escBlock_countRegion (s : State) (region : Nat) :
    (s.escBlock region).rd Fld.SYS_ESC_COUNT_REGION = s.rd Fld.SYS_ESC_COUNT_REGION := by
  unfold State.escBlock
  rw [State.rd_count_apart _ _ (by decide), State.rd_wr_apart _ _ (by decide)]

/-! ### The chip state and an alert -/

theorem State.setChip_chip (s : State) (v : Nat) : (s.setChip v).chip = v % 2 ^ 4 := by
  unfold State.setChip State.chip State.irq
  dsimp only
  split
  · exact State.rd_wr_same ..
  · rw [State.rd_wrB_apart _ _ (by decide)]
    exact State.rd_wr_same ..

theorem State.rd_setChip_apart {g : Field} (v : Nat) (hs : Fld.SYS_STATUS_STATE.apart g = true)
    (hi : Fld.SYS_IRQ_STAT_STATE.apart g = true) : (s.setChip v).rd g = s.rd g := by
  unfold State.setChip State.irq
  dsimp only
  split
  · exact State.rd_wr_apart _ _ hs
  · rw [State.rd_wrB_apart _ _ hi, State.rd_wr_apart _ _ hs]

theorem State.rd_alert_apart {f g : Field} (b : Bool) (hf : f.apart g = true) (hi : Fld.SYS_IRQ_STAT_ALERT.apart g = true)
    (hs : Fld.SYS_STATUS_ALERT.apart g = true) : (s.alert f b).rd g = s.rd g := by
  unfold State.alert State.irq
  dsimp only
  rw [State.rd_wrB_apart _ _ hs]
  split
  · rw [State.rd_wrB_apart _ _ hi, State.rd_wrB_apart _ _ hf]
  · exact State.rd_wrB_apart _ _ hf

/-- An alert reads as it was set. -/
theorem State.flag_alert_same {f : Field} (b : Bool) (hw : f.width = 1) (hi : Fld.SYS_IRQ_STAT_ALERT.apart f = true)
    (hs : Fld.SYS_STATUS_ALERT.apart f = true) : (s.alert f b).flag f = b := by
  unfold State.alert State.irq
  dsimp only
  rw [State.flag_wrB_apart hs]
  split
  · rw [State.flag_wrB_apart hi, State.flag_wrB_same _ _ _ hw]
  · exact State.flag_wrB_same _ _ _ hw

/-! ### A region failure -/

/-- The state in which a region failure's records and events are made: FAIL set, the device and its ledger frozen, ALERT_N
asserted (R43). -/
def State.failHalt (s : State) (region : Nat) (e : Esc) : State :=
  ((({ s.wr Fld.SYS_ESC_STATUS_FAIL (s.rd Fld.SYS_ESC_STATUS_FAIL ||| 2 ^ region) with esc := e }).setChip
    chipFrozen).freezeLedger).alert Fld.SYS_ALERT_FROZEN true

theorem State.rd_failHalt (s : State) (region : Nat) (e : Esc) {g : Field} (ha : Fld.SYS_ALERT_FROZEN.apart g = true)
    (hi : Fld.SYS_IRQ_STAT_ALERT.apart g = true) (hs : Fld.SYS_STATUS_ALERT.apart g = true)
    (hl : Fld.LED_STATUS_STATE.apart g = true) : (s.failHalt region e).rd g =
      (({ s.wr Fld.SYS_ESC_STATUS_FAIL (s.rd Fld.SYS_ESC_STATUS_FAIL ||| 2 ^ region) with esc := e } : State).setChip
        chipFrozen).rd g := by
  unfold State.failHalt State.freezeLedger
  rw [State.rd_alert_apart _ ha hi hs]
  dsimp only
  rw [State.rd_wr_apart _ _ hl]
  rfl

theorem State.failHalt_chip (s : State) (region : Nat) (e : Esc) : (s.failHalt region e).chip = chipFrozen := by
  rw [State.chip, State.rd_failHalt _ _ _ (by decide) (by decide) (by decide) (by decide)]
  exact State.setChip_chip ..

theorem State.failHalt_fail (s : State) (region : Nat) (e : Esc) : (s.failHalt region e).rd Fld.SYS_ESC_STATUS_FAIL =
    (s.rd Fld.SYS_ESC_STATUS_FAIL ||| 2 ^ region) % 2 ^ 4 := by
  rw [State.rd_failHalt _ _ _ (by decide) (by decide) (by decide) (by decide),
    State.rd_setChip_apart _ (by decide) (by decide)]
  exact State.rd_wr_same ..

theorem State.failHalt_alert (s : State) (region : Nat) (e : Esc) :
    (s.failHalt region e).flag Fld.SYS_ALERT_FROZEN = true :=
  State.flag_alert_same _ rfl (by decide) (by decide)

theorem State.failHalt_led (s : State) (region : Nat) (e : Esc) :
    (s.failHalt region e).led.frozen = true ∧ (s.failHalt region e).led.quanta = [] := by
  unfold State.failHalt State.freezeLedger
  rw [State.alert_led]
  exact ⟨rfl, rfl⟩

/-- The first region failure halts the device, and what follows spares that (R43). -/
theorem State.regionFail_halts (h : s.chip ≠ chipFrozen) (region block cell error : Nat) :
    ∃ e e' v b, Spares (s.failHalt region e) v ∧
      s.regionFail region block cell error = ({ v with esc := e' } : State).wrB Fld.SYS_STATUS_RESTART_PENDING b := by
  unfold State.regionFail
  extract_lets _ _ _ _ u _ _ v1
  have hv : Spares (s.failHalt region _) v1 := .refl _
  split
  · contradiction
  · exact ⟨_, _, _, _, .chipFreezeEvent (.loadAbandon (.escFail (.count (.ite (.twinSend hv) hv)))), rfl⟩

/-- A first region failure freezes the device and its ledger and asserts ALERT_N (R43). -/
theorem State.regionFail_frozen (h : s.chip ≠ chipFrozen) (region block cell error : Nat) :
    (s.regionFail region block cell error).chip = chipFrozen ∧
    (s.regionFail region block cell error).led.frozen = true ∧ (s.regionFail region block cell error).led.quanta = [] ∧
    (s.regionFail region block cell error).rd Fld.SYS_ESC_STATUS_FAIL =
      (s.rd Fld.SYS_ESC_STATUS_FAIL ||| 2 ^ region) % 2 ^ 4 ∧
    (s.regionFail region block cell error).flag Fld.SYS_ALERT_FROZEN = true := by
  obtain ⟨e, e', v, b, hv, ht⟩ := State.regionFail_halts h region block cell error
  have hrd {g : Field} (hg : g ∈ sparedFields) (ha : Fld.SYS_STATUS_RESTART_PENDING.apart g = true) :
      (s.regionFail region block cell error).rd g = (s.failHalt region e).rd g := by
    rw [ht, State.rd_wrB_apart _ _ ha]
    exact hv.rd g hg
  have hled : (s.regionFail region block cell error).led = (s.failHalt region e).led := by
    rw [ht]
    exact hv.led
  refine ⟨?_, ?_, ?_, ?_, ?_⟩
  · rw [State.chip, hrd (by decide) (by decide)]
    exact State.failHalt_chip s region e
  · rw [hled, (s.failHalt_led region e).1]
  · rw [hled, (s.failHalt_led region e).2]
  · rw [hrd (by decide) (by decide), State.failHalt_fail]
  · rw [State.flag, hrd (by decide) (by decide)]
    exact State.failHalt_alert s region e

/-! ### Lockstep mismatches -/

theorem exec_lockstepMismatch (s : State) : exec .lockstepMismatch s = .next s.lockstep := rfl

/-- The mismatches the ledger keeps. -/
def State.noteMismatches (s : State) (l : List Nat) : State := { s with led := { s.led with mismatches := l } }

@[simp] theorem State.noteMismatches_rd (s : State) (l : List Nat) (g : Field) : (s.noteMismatches l).rd g = s.rd g := rfl

theorem State.noteMismatches_chip (s : State) (l : List Nat) : (s.noteMismatches l).chip = s.chip := rfl

/-- A first mismatch is contained in its block. -/
theorem State.lockstep_first (h : s.led.mismatches = []) :
    s.lockstep = ((s.noteMismatches [s.now]).escBlock 2).escRecord 1 2 0 0 0x08 0x08 := by
  unfold State.lockstep
  simp only [h, List.filter_nil]
  rfl

/-- A second one within a second is contained in its region. -/
theorem State.lockstep_second {a : Nat} (h : s.led.mismatches = [a]) (ha : s.now ≤ a + 1000) :
    s.lockstep = (((s.noteMismatches [a, s.now]).escBlock 2).escRegion 2).escRecord 2 2 0 0 0x08 0x08 := by
  have hr : s.led.mismatches.filter (fun t => s.now ≤ t + 10000) = [a] := by
    have ha' : s.now ≤ a + 10000 := by omega
    simp [h, ha']
  unfold State.lockstep
  rw [hr]
  simp only [List.length_singleton, List.any_cons, ha]
  rfl

/-- A third one within ten seconds fails the region. -/
theorem State.lockstep_third {a b : Nat} (h : s.led.mismatches = [a, b]) (ha : s.now ≤ a + 10000) (hb : s.now ≤ b + 10000) :
    s.lockstep = (((s.noteMismatches [a, b, s.now]).escBlock 2).escRegion 2).regionFail 2 0 0 0x08 := by
  have hr : s.led.mismatches.filter (fun t => s.now ≤ t + 10000) = [a, b] := by simp [h, ha, hb]
  unfold State.lockstep
  rw [hr]
  rfl

/-- Settles O18: each clause is one case of `State.lockstep`, the third by `State.regionFail_frozen`. -/
theorem lockstepMismatches : Obligations.LockstepMismatches := by
  unfold Obligations.LockstepMismatches
  intro s
  refine ⟨fun h => ⟨_, exec_lockstepMismatch s, ?first⟩, fun a h ha => ⟨_, exec_lockstepMismatch s, ?second⟩,
    fun a b h ha hb hc => ⟨_, exec_lockstepMismatch s, ?third⟩⟩
  case first =>
    rw [State.lockstep_first h]
    refine ⟨?_, ?_, ?_⟩
    · rw [State.escRecord_led, State.escBlock_led, State.noteMismatches]
    · exact ((Spares.refl (s.noteMismatches [s.now])).escBlock.escRecord).chip
    · rw [State.rd_escRecord _ (by decide), State.escBlock_count, State.noteMismatches_rd]
  case second =>
    rw [State.lockstep_second h ha]
    refine ⟨?_, ?_, ?_⟩
    · rw [State.escRecord_led, State.escRegion_led, State.escBlock_led, State.noteMismatches]
    · exact ((Spares.refl (s.noteMismatches [a, s.now])).escBlock.escRegion.escRecord).chip
    · rw [State.rd_escRecord _ (by decide), State.escRegion_count, State.escBlock_countRegion,
        State.noteMismatches_rd]
  case third =>
    rw [State.lockstep_third h ha hb]
    have hchip := ((Spares.refl (s.noteMismatches [a, b, s.now])).escBlock (region := 2)).escRegion (region := 2) |>.chip
    obtain ⟨hfrozen, hled, hquanta, -, halert⟩ := State.regionFail_frozen (hchip.trans_ne hc) 2 0 0 0x08
    exact ⟨hfrozen, hled, hquanta, halert⟩

end Sys2Proof.Machine
end

section
/-!
Ports, the Drega and Garnet: a flush and a stop spare what `Spares` collects (R285, R331).
-/

namespace Sys2Proof.Machine
set_option Elab.async false
variable {s0 s t : State}

/-! ### Access paths -/

theorem Spares.setPath (h : Spares s0 s) {p x} : Spares s0 (s.setPath p x) := by
  cases p <;> exact .update h

theorem Spares.wrP (h : Spares s0 s) {p f v} : Spares s0 (s.wrP p f v) := .setPath h

theorem Spares.hostDone (h : Spares s0 s) {p ws} : Spares s0 (s.hostDone p ws) := by
  unfold State.hostDone
  extract_lets _ _ t u
  have ht : Spares s0 t := .setPath h
  have hu : Spares s0 u := .ite (.count ht) ht
  exact .ite (.irq hu) hu

/-! ### Ports -/

theorem Spares.setPort (h : Spares s0 s) {p x} : Spares s0 (s.setPort p x) := by
  have hf : ∀ p : Fin 2, ∀ q < 8, (Fld.NET_TXQ_STAT_IN_FLIGHT p q).inBlocks = true := by decide
  unfold State.setPort
  exact .foldl (.ite (.update h) (.update h)) fun _ _ hq h => .wr h (clear_of_lt (List.mem_range.1 hq) (hf p))

theorem Spares.txAborted (h : Spares s0 s) {p f} : Spares s0 (s.txDone p f txAborted noTime) := by
  unfold State.txDone
  extract_lets t u
  have hu : Spares s0 u := h
  split
  · exact hu
  · exact .hostDone hu

theorem Spares.portStop (h : Spares s0 s) {p} : Spares s0 (s.portStop p) := by
  have hf : ∀ p, (stoppedFld p).inBlocks = true := by decide
  unfold State.portStop State.portFlush
  exact .raise (.wrB (.foldl (.setPort h) fun _ _ _ h => .txAborted h) (Field.clear_of_inBlocks (hf p)))

theorem Spares.netSend (h : Spares s0 s) {p : Fin 2} {f} (hq : f.queue < 8) : Spares s0 (s.netSend p f) := by
  have hd : ∀ p : Fin 2, ∀ q < 8, (Fld.NET_TXQ_STAT_DROP p q).inBlocks = true := by decide
  unfold State.netSend
  exact .ite h (.ite (.count h (clear_of_lt hq (hd p))) (.setPort h))

/-! ### The Drega -/

theorem Spares.dregaSend (h : Spares s0 s) {r payload} : Spares s0 (s.dregaSend r payload) := by
  unfold State.dregaSend State.udpSend
  exact .drawn (.netSend h (show 3 < 8 by decide))

theorem Spares.dregaAnswer (h : Spares s0 s) {r type tag status body} :
    Spares s0 (s.dregaAnswer r type tag status body) := by
  unfold State.dregaAnswer
  exact .dregaSend (.wrap (.drawn (.update h)))

theorem Spares.dregaRepeat (h : Spares s0 s) {r k} : Spares s0 (s.dregaRepeat r k) := by
  unfold State.dregaRepeat
  exact .dregaSend (.count h)

theorem Spares.dregaTake (h : Spares s0 s) {p f} : Spares s0 (s.dregaTake p f) := by
  unfold State.dregaTake
  exact .setPort h

theorem Spares.dregaFlush (h : Spares s0 s) {n} : Spares s0 (s.dregaFlush n) := by
  induction n generalizing s with
  | zero => exact h
  | succ n ih =>
    unfold State.dregaFlush
    split
    · exact h
    · extract_lets
      split
      · exact ih (.dregaRepeat (.dregaTake h))
      · exact .ite h (ih (.dregaAnswer (.dregaTake h)))

/-! ### Garnet -/

theorem Spares.tokenRefuse (h : Spares s0 s) {p x r} : Spares s0 (s.tokenRefuse p x r) := by
  unfold State.tokenRefuse State.tokenResult
  exact .raise (.ite (.irq (.wrP h)) (.wrP h))

theorem Spares.rdgRefuse (h : Spares s0 s) {o code} : Spares s0 (s.rdgRefuse o code) := by
  unfold State.rdgRefuse State.rdgResult
  cases o with
  | host p => exact .ite (.irq (.wrP h)) (.wrP h)
  | drega src tag => exact .dregaFlush (.dregaAnswer h)
  | lost => exact h
  | publish k lt => exact .ite (.count h) h

/-- Garnet with nothing in hand. -/
def State.garnetIdle (s : State) : State := { s with gar := { s.gar with serving := none, verify := [], sign := [] } }

@[simp] theorem State.garnetIdle_rd (s : State) (g : Field) : s.garnetIdle.rd g = s.rd g := rfl

/-- A flush refuses what Garnet has in hand. -/
theorem State.garnetFlush_spares (s : State) : Spares s.garnetIdle s.garnetFlush := by
  unfold State.garnetFlush
  refine .raise (.foldl (.refl _) fun u r _ hu => ?_)
  cases r with
  | token p x => exact .tokenRefuse hu
  | sign o f => exact .rdgRefuse hu

end Sys2Proof.Machine
end

section
/-!
Faults of units (R39, R41, R42, R123, R180, R285, R331): block level, region level, and the Vein watchdog.
-/

namespace Sys2Proof.Machine
set_option Elab.async false
variable {s t : State} {u : FaultUnit} {k : FaultKind}

/-! ### What a unit's fault does -/

theorem exec_engineFault (s : State) (u : FaultUnit) (k : FaultKind) : exec (.engineFault u k) s = .next (s.unitFault u k) :=
  rfl

theorem State.unitFault_corrected (h : s.unitIn u = true) :
    s.unitFault u .corrected = s.count Fld.SYS_ESC_COUNT_CORRECTED := by
  simp [State.unitFault, h]

/-- The state in which a fault of an engine of region MT is contained: noted and counted at block level. -/
def State.faulted (s : State) (u : FaultUnit) : State := (s.noteFault u).escBlock 1

theorem State.unitFault_bayEngine {n : Fin 16} (hk : k ≠ .corrected) (h : s.unitIn (.bayEngine n) = true) :
    s.unitFault (.bayEngine n) k = (s.faulted (.bayEngine n)).engineFault (.bayEngine n) (s.faultedBefore (.bayEngine n))
      (errorOf k) := by
  simp [State.unitFault, h, hk, State.faulted]

theorem State.unitFault_procEngine {m : Fin 4} (hk : k ≠ .corrected) (h : s.unitIn (.procEngine m) = true) :
    s.unitFault (.procEngine m) k = (s.faulted (.procEngine m)).engineFault (.procEngine m)
      (s.faultedBefore (.procEngine m)) (errorOf k) := by
  simp [State.unitFault, h, hk, State.faulted]

theorem State.unitFault_netEngine {n : Fin 2} (hk : k ≠ .corrected) (h : s.unitIn (.netEngine n) = true) :
    s.unitFault (.netEngine n) k = ((s.noteFault (.netEngine n)).escBlock 3).netFault n (s.faultedBefore (.netEngine n))
      (errorOf k) := by
  simp [State.unitFault, h, hk]

theorem State.unitFault_garnet (hk : k ≠ .corrected) (h : s.unitIn .garnet = true) :
    s.unitFault .garnet k = s.garnetFault (errorOf k) := by
  simp [State.unitFault, h, hk]

/-! ### Noting and counting a fault -/

/-- A field apart from the counts of contained errors. -/
def Field.escFree (g : Field) : Bool :=
  [Fld.SYS_ESC_STATUS_BLOCK, Fld.SYS_ESC_STATUS_REGION, Fld.SYS_ESC_COUNT_BLOCK, Fld.SYS_ESC_COUNT_REGION].all (·.apart g)

theorem State.rd_escBlock (s : State) {g : Field} (hg : g.escFree = true) (r : Nat) : (s.escBlock r).rd g = s.rd g := by
  obtain ⟨hs, -, hc, -⟩ : Fld.SYS_ESC_STATUS_BLOCK.apart g = true ∧ Fld.SYS_ESC_STATUS_REGION.apart g = true ∧
    Fld.SYS_ESC_COUNT_BLOCK.apart g = true ∧ Fld.SYS_ESC_COUNT_REGION.apart g = true := by
      simpa [Field.escFree] using hg
  unfold State.escBlock
  rw [State.rd_count_apart _ _ hc, State.rd_wr_apart _ _ hs]

theorem State.rd_escRegion (s : State) {g : Field} (hg : g.escFree = true) (r : Nat) : (s.escRegion r).rd g = s.rd g := by
  obtain ⟨-, hs, -, hc⟩ : Fld.SYS_ESC_STATUS_BLOCK.apart g = true ∧ Fld.SYS_ESC_STATUS_REGION.apart g = true ∧
    Fld.SYS_ESC_COUNT_BLOCK.apart g = true ∧ Fld.SYS_ESC_COUNT_REGION.apart g = true := by
      simpa [Field.escFree] using hg
  unfold State.escRegion
  rw [State.rd_count_apart _ _ hc, State.rd_wr_apart _ _ hs]

theorem State.rd_faulted (s : State) (u : FaultUnit) {g : Field} (hg : g.escFree = true) : (s.faulted u).rd g = s.rd g := by
  unfold State.faulted
  rw [State.rd_escBlock _ hg]
  rfl

@[simp] theorem State.faulted_led (s : State) (u : FaultUnit) : (s.faulted u).led = s.led := by
  unfold State.faulted
  rw [State.escBlock_led, State.noteFault]

@[simp] theorem State.escBlock_met (s : State) (r : Nat) : (s.escBlock r).met = s.met := rfl

@[simp] theorem State.faulted_met (s : State) (u : FaultUnit) : (s.faulted u).met = s.met := by
  unfold State.faulted
  rw [State.escBlock_met, State.noteFault]


/-! ### The engine of a bay and the standby engine -/

theorem engField_escFree (b : Nat) : (engField b).escFree = true := by
  have hlow (f : Field) (hf : f.addr + 4 * f.words ≤ 0x40) : f.apart (engField b) = true := by
    simp only [Field.apart, Bool.or_eq_true, decide_eq_true_eq]
    exact .inl (.inr (hf.trans (Nat.le_add_right _ _)))
  simp [Field.escFree, hlow, Field.words, Fld.SYS_ESC_STATUS_BLOCK, Fld.SYS_ESC_STATUS_REGION, Fld.SYS_ESC_COUNT_BLOCK,
    Fld.SYS_ESC_COUNT_REGION]

section
variable (hr : ∀ g : Field, g.escFree = true → t.rd g = s.rd g)
include hr

/-- Which bay an engine meters follows from SYS_ENG_MAP. -/
theorem State.bayOf_congr (u : FaultUnit) : t.bayOf u = s.bayOf u := by
  unfold State.bayOf
  refine List.find?_congr fun b _ => ?_
  cases u <;> simp [State.meteredBy, hr _ (engField_escFree b)]

/-- Which standby engine is free follows from registers apart from the counts, the domains and the engines out of service. -/
theorem State.standby_congr (hp : t.pwr = s.pwr) (hf : t.fuses = s.fuses)
    (hd : ∀ m, FaultUnit.procEngine m ∈ t.esc.down ↔ FaultUnit.procEngine m ∈ s.esc.down) : t.standby = s.standby := by
  unfold State.standby
  refine List.find?_congr fun m _ => ?_
  have hc : t.esc.down.contains (.procEngine (Fin.ofNat 4 m)) = s.esc.down.contains (.procEngine (Fin.ofNat 4 m)) :=
    Bool.eq_iff_iff.2 (by simpa using hd _)
  simp only [State.standbyFree, State.domOn, hr _ (engField_escFree _), hr Fld.SYS_ESC_CTRL_STANDBY_PE (by decide),
    hr Fld.PWR_ON_ON (by decide), hp, hf, hc]

end

theorem State.faulted_bayOf (s : State) (u v : FaultUnit) : (s.faulted u).bayOf v = s.bayOf v :=
  State.bayOf_congr (fun _ hg => State.rd_faulted s u hg) v

theorem State.bayOf_lt {b : Nat} (h : s.bayOf u = some b) : b < 16 :=
  List.mem_range.1 (List.mem_of_find?_eq_some h)

theorem State.standby_lt {m : Nat} (h : s.standby = some m) : m < 4 :=
  List.mem_range.1 (List.mem_of_find?_eq_some h)

theorem State.bay_setBay_same {b : Nat} {y : Bay} (h : b < s.met.bays.length) : (s.setBay b y).bay b = y := by
  simp [State.bay, State.setBay, h]

/-! ### The first fault of a bay's engine -/

theorem State.engineFault_first {b error : Nat} (h : s.bayOf u = some b) :
    s.engineFault u false error =
      ((s.restart u).setBay b { s.bay b with credit := true }).recordRestart u error := by
  simp [State.engineFault, h]

theorem State.recordRestart_spares (s : State) (u : FaultUnit) (error : Nat) : Spares s (s.recordRestart u error) := by
  unfold State.recordRestart
  exact .escRecord (.refl s)

@[simp] theorem State.escRecord_met (s : State) (level region block cell cause error : Nat) :
    (s.escRecord level region block cell cause error).met = s.met := by
  unfold State.escRecord
  rw [State.raise_met, State.wr_met, State.wr_met]

theorem State.recordRestart_met (s : State) (u : FaultUnit) (error : Nat) : (s.recordRestart u error).met = s.met :=
  State.escRecord_met ..

/-! ### The second fault of a bay's engine -/

/-- The state in which region MT contains an engine's second fault: the engine is out of service. -/
def State.retired (s : State) (u : FaultUnit) : State := ((s.faulted u).outOfService u).escRegion 1

@[simp] theorem State.outOfService_rd (s : State) (u : FaultUnit) (g : Field) : (s.outOfService u).rd g = s.rd g := rfl

theorem State.rd_retired (s : State) (u : FaultUnit) {g : Field} (hg : g.escFree = true) : (s.retired u).rd g = s.rd g := by
  unfold State.retired
  rw [State.rd_escRegion _ hg, State.outOfService_rd, State.rd_faulted s u hg]

theorem State.retired_down (s : State) (u : FaultUnit) : (s.retired u).esc.down = u :: s.esc.down := by
  unfold State.retired State.faulted
  rw [((Spares.refl _).escRegion).esc, State.outOfService, ((Spares.refl _).escBlock).esc, State.noteFault]

@[simp] theorem State.retired_led (s : State) (u : FaultUnit) : (s.retired u).led = s.led := by
  unfold State.retired State.faulted
  rw [State.escRegion_led, State.outOfService, State.escBlock_led, State.noteFault]

theorem State.retired_pwr (s : State) (u : FaultUnit) : (s.retired u).pwr = s.pwr := by
  simp [State.retired, State.escRegion, State.count, State.outOfService, State.faulted, State.escBlock, State.noteFault]

theorem State.retired_fuses (s : State) (u : FaultUnit) : (s.retired u).fuses = s.fuses := by
  simp [State.retired, State.escRegion, State.count, State.outOfService, State.faulted, State.escBlock, State.noteFault]

/-- The free standby engine is the same when a bay engine goes out of service. -/
theorem State.retired_standby (s : State) (n : Fin 16) : (s.retired (.bayEngine n)).standby = s.standby := by
  refine State.standby_congr (fun g hg => State.rd_retired s _ hg) (s.retired_pwr _) (s.retired_fuses _) fun m => ?_
  simp [State.retired_down]

theorem State.engineFault_takeover {b m error : Nat} {u : FaultUnit} (h : s.bayOf u = some b) (hm : (s.retired u).standby = some m) :
    ∃ r blk c, (s.faulted u).engineFault u true error = ((s.retired u).bindBay b m).escRecord 2 r blk c 0x06 error := by
  have hb := (s.faulted_bayOf u u).trans h
  refine ⟨(unitPlace u).1, (unitPlace u).2.1, (unitPlace u).2.2, ?_⟩
  unfold State.retired at hm
  simp [State.engineFault, hb, State.takeover, hm, State.retired]

theorem State.engineFault_stops {b error : Nat} {u : FaultUnit} (h : s.bayOf u = some b) (hm : (s.retired u).standby = none) :
    ∃ r blk c, (s.faulted u).engineFault u true error = ((s.retired u).stopBay b).escRecord 2 r blk c 0x07 error := by
  have hb := (s.faulted_bayOf u u).trans h
  refine ⟨(unitPlace u).1, (unitPlace u).2.1, (unitPlace u).2.2, ?_⟩
  unfold State.retired at hm
  simp [State.engineFault, hb, State.takeover, hm, State.retired]

/-! ### A bay that moves and a bay that stops -/

theorem State.bindBay_eng {b m : Nat} (hb : b < 16) (hm : m < 4) : (s.bindBay b m).rd (engField b) = 8 + m := by
  have ha : ∀ i < 16, (Fld.BAY_STATUS_STANDBY i).apart (engField i) = true := by decide
  have hrd : (s.bindBay b m).rd (engField b) =
      ((s.wr (engField b) (8 + m)).wrB (Fld.BAY_STATUS_STANDBY b) true).rd (engField b) := rfl
  rw [hrd, State.rd_wrB_apart _ _ (ha b hb), State.rd_wr_same]
  exact Nat.mod_eq_of_lt (by simp [engField]; omega)

theorem State.bindBay_standby (s : State) (b m : Nat) : (s.bindBay b m).flag (Fld.BAY_STATUS_STANDBY b) = true :=
  State.flag_wrB_same _ _ _ rfl

@[simp] theorem State.bindBay_esc (s : State) (b m : Nat) : (s.bindBay b m).esc = s.esc := rfl
@[simp] theorem State.bindBay_led (s : State) (b m : Nat) : (s.bindBay b m).led = s.led := rfl

/-- Losing the window in progress touches BAY_HSKIP alone. -/
theorem State.rd_dropWindow (s : State) {b : Nat} {g : Field} (hg : (Fld.BAY_HSKIP_INVALID b).apart g = true) :
    (s.dropWindow b).rd g = s.rd g := by
  unfold State.dropWindow
  split
  · rfl
  · exact State.rd_count_apart _ _ hg

/-- A bay's TRACK after a change. -/
theorem State.setTrack_track {b v : Nat} (hb : b < 16) (hv : v < 8) : (s.setTrack b v).track b = v := by
  have ha : ∀ i < 16, [Fld.BAY_STATUS_FREQ_VALID i, Fld.BAY_QUAL_UNLOCK_SEEN i, Fld.BAY_HSKIP_INVALID i, Fld.BAY_FREQ_FREQ i,
    Fld.MT_STATUS_FREE_RUN, Fld.MT_STATUS_LOCKED].all (·.apart (Fld.BAY_STATUS_TRACK i)) = true := by decide
  obtain ⟨hvalid, hseen, hskip, hfreq, hfree, hlocked⟩ : (Fld.BAY_STATUS_FREQ_VALID b).apart (Fld.BAY_STATUS_TRACK b) = true ∧
    (Fld.BAY_QUAL_UNLOCK_SEEN b).apart (Fld.BAY_STATUS_TRACK b) = true ∧
    (Fld.BAY_HSKIP_INVALID b).apart (Fld.BAY_STATUS_TRACK b) = true ∧
    (Fld.BAY_FREQ_FREQ b).apart (Fld.BAY_STATUS_TRACK b) = true ∧
    Fld.MT_STATUS_FREE_RUN.apart (Fld.BAY_STATUS_TRACK b) = true ∧
    Fld.MT_STATUS_LOCKED.apart (Fld.BAY_STATUS_TRACK b) = true := by simpa using ha b hb
  unfold State.setTrack State.track
  extract_lets _ t1 t2 t3 _ t4
  have h1 : t1.rd (Fld.BAY_STATUS_TRACK b) = v := by
    unfold t1
    rw [State.rd_wrB_apart _ _ hvalid, State.rd_wr_same]
    exact Nat.mod_eq_of_lt hv
  have h2 : t2.rd (Fld.BAY_STATUS_TRACK b) = v := by
    unfold t2
    split
    · rw [State.rd_dropWindow _ hskip, State.rd_wrB_apart _ _ hseen, h1]
    · exact h1
  have h3 : t3.rd (Fld.BAY_STATUS_TRACK b) = v := by
    unfold t3
    split
    · rw [State.rd_wr_apart _ _ hfreq, h2]
    · exact h2
  have h4 : t4.rd (Fld.BAY_STATUS_TRACK b) = v := by
    unfold t4
    split
    · exact h3
    · exact h3
  rw [State.rd_wr_apart _ _ hlocked, State.rd_wr_apart _ _ hfree, h4]

/-- A degraded bay degrades the device (R42). -/
theorem State.refreshDegraded_bay {b : Nat} (hb : b < 16) (h : s.flag (Fld.BAY_STATUS_DEGRADED b) = true) :
    s.refreshDegraded.flag Fld.SYS_STATUS_DEGRADED = true := by
  unfold State.refreshDegraded
  have hany : (List.range 16).any (fun n => s.flag (Fld.BAY_STATUS_DEGRADED n)) = true :=
    List.any_eq_true.2 ⟨b, List.mem_range.2 hb, h⟩
  rw [State.flag_wrB_same _ _ _ rfl, hany, Bool.or_true, Bool.true_or]

/-- A bay that stops has no engine, its TRACK reads STOPPED, and it and the device read DEGRADED (R42, R104). -/
theorem State.stopBay_stopped {b : Nat} (hb : b < 16) : (s.stopBay b).rd (engField b) = 0xE ∧
    (s.stopBay b).track b = trkStopped ∧ (s.stopBay b).flag (Fld.BAY_STATUS_DEGRADED b) = true ∧
    (s.stopBay b).flag Fld.SYS_STATUS_DEGRADED = true ∧ (s.stopBay b).led = s.led ∧
    (s.stopBay b).esc.down = s.esc.down := by
  have ha : ∀ i < 16, (Fld.BAY_STATUS_STANDBY i).apart (engField i) = true ∧
    (Fld.BAY_STATUS_DEGRADED i).apart (Fld.BAY_STATUS_TRACK i) = true ∧
    Fld.SYS_STATUS_DEGRADED.apart (Fld.BAY_STATUS_TRACK i) = true ∧
    Fld.SYS_STATUS_DEGRADED.apart (Fld.BAY_STATUS_DEGRADED i) = true := by decide
  obtain ⟨hstandby, htrack, htrack', hdeg⟩ := ha b hb
  unfold State.stopBay
  extract_lets _ _ t1 t2
  have h1 : t1.rd (engField b) = 0xE := by
    unfold t1
    rw [State.rd_wrB_apart _ _ hstandby, State.rd_wr_same]
    rfl
  have hs : Spares t1 (t2.wrB (Fld.BAY_STATUS_DEGRADED b) true).refreshDegraded :=
    .refreshDegraded (.wrBAt hb (.setTrack hb (.dropWindow hb (.closeEvents hb (.refl t1)))))
  have hd : (t2.wrB (Fld.BAY_STATUS_DEGRADED b) true).flag (Fld.BAY_STATUS_DEGRADED b) = true :=
    State.flag_wrB_same _ _ _ rfl
  refine ⟨?_, ?_, ?_, ?_, ?_, ?_⟩
  · rw [hs.rd _ (engField_spared hb), h1]
  · unfold State.refreshDegraded State.track
    rw [State.rd_wrB_apart _ _ htrack', State.rd_wrB_apart _ _ htrack]
    exact State.setTrack_track hb (by decide)
  · unfold State.refreshDegraded
    rw [State.flag_wrB_apart hdeg, hd]
  · exact State.refreshDegraded_bay hb hd
  · rw [hs.led]
    rfl
  · rw [hs.esc]
    rfl

end Sys2Proof.Machine
end

section
/-!
Faults of process engines, network engines and Garnet, the end of a restart, and the Vein watchdog; what the statement says
of each (R39, R41, R42, R180, R285, R331).
-/

namespace Sys2Proof.Machine
set_option Elab.async false
variable {s t : State} {u : FaultUnit} {k : FaultKind}

/-! ### A process engine that carries a stream -/

/-- The second fault of a process engine that meters no bay and carries a stream that runs (R180). -/
theorem State.engineFault_stream {m : Fin 4} {error : Nat} (h : s.bayOf (.procEngine m) = none)
    (hr : s.rd (Fld.MT_PS_STATUS_STATE m.val) = psRun) : ∃ r blk c, s.engineFault (.procEngine m) true error =
      ((s.outOfService (.procEngine m)).streamHalt m.val).escRecord 1 r blk c 0x0F error := by
  refine ⟨1, 4, m.val, ?_⟩
  simp [State.engineFault, h, hr, unitPlace]

/-- A stream that runs is stopped. -/
theorem State.streamHalt_run {n : Nat} (h : s.rd (Fld.MT_PS_STATUS_STATE n) = psRun) :
    s.streamHalt n = (s.setStream n { s.stream n with due := none }).wr (Fld.MT_PS_STATUS_STATE n) psStopped :=
  if_pos h

/-! ### A network engine -/

theorem State.regsOnly.port (h : s.regsOnly t) (p : Fin 2) : t.port p = s.port p := by rw [h]; rfl

theorem State.port_raise (s : State) (c n : Nat) (l : List Byte) (p : Fin 2) : (s.raise c n l).port p = s.port p := by
  simp [State.port]

theorem State.port_hostDone (s : State) (q : Path) (ws : List Word) (p : Fin 2) : (s.hostDone q ws).port p = s.port p := by
  unfold State.hostDone
  extract_lets _ full t u
  have hu : t.regsOnly u := .ite (.wr (.refl t)) (.refl t)
  have ht : t.port p = s.port p := by simp [State.port, t]
  have hv : t.regsOnly (if q = .spi then u.irq Fld.SYS_IRQ_STAT_HTX else u) := .ite hu.wrB hu
  rw [hv.port, ht]

theorem State.port_txAborted (s : State) (q : Fin 2) (f : TxFrame) (p : Fin 2) :
    (s.txDone q f txAborted noTime).port p = s.port p := by
  unfold State.txDone
  extract_lets _ u
  have hu : u = s := rfl
  split
  · rfl
  · rw [State.port_hostDone, hu]

theorem State.port_setPort (s : State) (p : Fin 2) (x : Port) : (s.setPort p x).port p = x := by
  unfold State.setPort
  extract_lets t
  rw [(State.regsOnly.foldl (.refl t) fun _ _ h => .wr h).port]
  unfold t State.port
  split
  · rfl
  · rfl

/-- A port that stops has no frame left. -/
theorem State.port_portStop (s : State) (p : Fin 2) :
    (s.portStop p).port p = { s.port p with tx := [], sending := none, rx := [] } := by
  have hf (l : List TxFrame) (u : State) : (l.foldl (fun s f => s.txDone p f txAborted noTime) u).port p = u.port p := by
    induction l generalizing u with
    | nil => rfl
    | cons f l ih => rw [List.foldl_cons, ih, State.port_txAborted]
  unfold State.portStop State.portFlush
  rw [State.port_raise, (State.regsOnly.wrB (.refl _)).port, hf, State.port_setPort]

theorem State.portStop_flag (s : State) (p : Fin 2) : (s.portStop p).flag (stoppedFld p) = true := by
  have hi : ∀ p, (stoppedFld p).intakeFree = true ∧ (stoppedFld p).width = 1 := by decide
  unfold State.portStop State.flag
  rw [State.rd_raise _ (hi p).1]
  exact State.flag_wrB_same _ _ _ (hi p).2

theorem State.port_escRecord (s : State) (level region block cell cause error : Nat) (p : Fin 2) :
    (s.escRecord level region block cell cause error).port p = s.port p := by
  unfold State.escRecord
  rw [State.port_raise, ((State.regsOnly.refl s).wr.wr).port]

/-! ### Garnet -/

/-- The state in which Garnet's first fault is contained: it restarts, and the fault is counted. -/
def State.garnetRestart (s : State) : State :=
  ({ s.count Fld.SEC_GARNET_FAULT with gar := { s.gar with
    restarting := true, stopped := false, lastFault := some s.now } } : State).escBlock 2

theorem State.garnetRestart_gar (s : State) :
    s.garnetRestart.gar = { s.gar with restarting := true, stopped := false, lastFault := some s.now } :=
  (Spares.refl _).escBlock.gar

theorem State.rd_garnetRestart (s : State) {g : Field} (hg : g.escFree = true) :
    s.garnetRestart.rd g = (s.count Fld.SEC_GARNET_FAULT).rd g := by
  unfold State.garnetRestart
  rw [State.rd_escBlock _ hg]
  exact State.rd_of_regs rfl g

theorem State.garnetFault_first (hs : s.gar.stopped = false) (hl : s.gar.lastFault = none) (error : Nat) :
    s.garnetFault error = s.garnetRestart.garnetFlush.escRecord 1 2 1 0 0x05 error := by
  simp [State.garnetFault, State.garnetRestart, hs, hl]

/-- After its first fault Garnet restarts with nothing in hand, and the chip state is as before (R285). -/
theorem State.garnetFault_restarts (hs : s.gar.stopped = false) (hl : s.gar.lastFault = none) (error : Nat) :
    (s.garnetFault error).gar = { s.gar with
      restarting := true, stopped := false, lastFault := some s.now, serving := none, verify := [], sign := [] } ∧
    (s.garnetFault error).rd Fld.SEC_GARNET_FAULT = min (s.rd Fld.SEC_GARNET_FAULT + 1) 0xFF ∧
    (s.garnetFault error).chip = s.chip := by
  have hp := (s.garnetRestart.garnetFlush_spares).escRecord (level := 1) (region := 2) (block := 1) (cell := 0)
    (cause := 0x05) (error := error)
  rw [← State.garnetFault_first hs hl] at hp
  refine ⟨?_, ?_, ?_⟩
  · rw [hp.gar, State.garnetIdle, State.garnetRestart_gar]
  · rw [hp.rd _ (by decide), State.garnetIdle_rd, State.rd_garnetRestart _ (by decide),
      State.rd_count_same]
    rfl
  · rw [hp.chip, State.chip, State.garnetIdle_rd, State.rd_garnetRestart _ (by decide),
      State.rd_count_apart _ _ (by decide)]
    rfl

/-! ### The end of a restart -/

theorem Garnet.next_restarting (g : Garnet) : g.next.restarting = g.restarting := by
  unfold Garnet.next
  split
  · rfl
  · split <;> rfl

theorem State.accTake_kept (s : State) (a : Fin 2) :
    (s.accTake a).esc = s.esc ∧ (s.accTake a).regs = s.regs ∧ (s.accTake a).led = s.led := by
  unfold State.accTake
  split
  · exact ⟨rfl, rfl, rfl⟩
  · split <;> exact ⟨rfl, rfl, rfl⟩

/-- The units that still restart when one is done. -/
def State.noRestart (s : State) (u : FaultUnit) : State :=
  { s with esc := { s.esc with restarting := s.esc.restarting.filter fun x => x ≠ u } }

/-- A unit but Garnet is no longer restarting; an accelerator may take a job. -/
theorem State.restarted_kept (hu : u ≠ .garnet) : (s.restarted u).esc = (s.noRestart u).esc ∧
    (s.restarted u).regs = s.regs ∧ (s.restarted u).led = s.led := by
  cases u with
  | garnet => contradiction
  | accel a => exact State.accTake_kept (s.noRestart (.accel a)) a
  | bayEngine n => exact ⟨rfl, rfl, rfl⟩
  | procEngine m => exact ⟨rfl, rfl, rfl⟩
  | netEngine p => exact ⟨rfl, rfl, rfl⟩

/-! ### The Vein watchdog -/

/-- FAIL after a region failure names the region. -/
theorem failBit (x : Nat) {n : Nat} (hn : n < 4) : (x ||| 2 ^ n) % 2 ^ 4 / 2 ^ n % 2 = 1 := by
  have h : ((x ||| 2 ^ n) % 2 ^ 4).testBit n = true := by
    rw [Nat.testBit_mod_two_pow]
    simp [hn]
  simpa [Nat.testBit_eq_decide_div_mod_eq] using h

theorem regionNo_lt (r : Region) : regionNo r < 4 := by cases r <;> decide

/-- A transfer that is not completed fails its region (R39). -/
theorem State.veinFault_running (h : s.core.running = true) (r : Region) : ∃ block cell,
    s.veinFault r = ((s.escRegion (regionNo r)).regionFail (regionNo r) block cell 0x09).drawn := by
  refine ⟨s.openWord % 64, s.openWord / 64 % 64, ?_⟩
  simp [State.veinFault, h]

/-! ### The statement -/

/-- The registers of a bay that a record leaves. -/
theorem bay_recordFree : ∀ b < 16, (engField b).recordFree = true ∧ (Fld.BAY_STATUS_STANDBY b).recordFree = true ∧
    (Fld.BAY_STATUS_TRACK b).recordFree = true ∧ (Fld.BAY_STATUS_DEGRADED b).recordFree = true := by decide

section
variable {n : Fin 16} {b : Nat} (hk : k ≠ .corrected) (hu : s.unitIn (.bayEngine n) = true)
  (hb : s.bayOf (.bayEngine n) = some b)
include hk hu hb

/-- A bay engine's first fault restarts it (R39). -/
theorem State.bayEngine_first (hl : s.met.bays.length = 16) (hf : s.faultedBefore (.bayEngine n) = false) :
    .bayEngine n ∈ (s.unitFault (.bayEngine n) k).esc.restarting ∧ ((s.unitFault (.bayEngine n) k).bay b).credit = true ∧
      (s.unitFault (.bayEngine n) k).rd Fld.SYS_ESC_LAST_ALL =
        0x50000500 + n.val / 4 * 2 ^ 22 + n.val % 4 * 2 ^ 16 + errorOf k := by
  have hlen : b < ((s.faulted (.bayEngine n)).restart (.bayEngine n)).met.bays.length := by
    rw [State.restart, State.faulted_met, hl]
    exact State.bayOf_lt hb
  have he : errorOf k < 4 := by cases k <;> decide
  rw [State.unitFault_bayEngine hk hu, hf, State.engineFault_first ((s.faulted_bayOf _ _).trans hb)]
  refine ⟨?_, ?_, ?_⟩
  · rw [(State.recordRestart_spares _ _ _).esc]
    exact List.mem_cons_self
  · rw [State.bay, State.recordRestart_met]
    exact congrArg Bay.credit (State.bay_setBay_same hlen)
  · unfold State.recordRestart unitPlace
    rw [State.escRecord_last]
    omega

/-- A bay engine's second fault within 10 s moves its bay to the free standby engine (R41). -/
theorem State.bayEngine_moves {m : Nat} (hf : s.faultedBefore (.bayEngine n) = true) (hm : s.standby = some m) :
    .bayEngine n ∈ (s.unitFault (.bayEngine n) k).esc.down ∧ (s.unitFault (.bayEngine n) k).rd (engField b) = 8 + m ∧
      (s.unitFault (.bayEngine n) k).flag (Fld.BAY_STATUS_STANDBY b) = true ∧
      (s.unitFault (.bayEngine n) k).led = s.led := by
  have hlt := State.bayOf_lt hb
  obtain ⟨heng, hstandby, -, -⟩ := bay_recordFree b hlt
  obtain ⟨r, blk, c, ht⟩ := State.engineFault_takeover (error := errorOf k) hb ((s.retired_standby n).trans hm)
  rw [State.unitFault_bayEngine hk hu, hf, ht]
  refine ⟨?_, ?_, ?_, ?_⟩
  · rw [State.escRecord_esc, State.bindBay_esc, State.retired_down]
    exact List.mem_cons_self
  · rw [State.rd_escRecord _ heng, State.bindBay_eng hlt (State.standby_lt hm)]
  · rw [State.flag_escRecord _ hstandby, State.bindBay_standby]
  · rw [State.escRecord_led, State.bindBay_led, State.retired_led]

/-- With no standby engine free its bay stops (R42). -/
theorem State.bayEngine_stops (hf : s.faultedBefore (.bayEngine n) = true) (hm : s.standby = none) :
    .bayEngine n ∈ (s.unitFault (.bayEngine n) k).esc.down ∧ (s.unitFault (.bayEngine n) k).rd (engField b) = 0xE ∧
      (s.unitFault (.bayEngine n) k).track b = trkStopped ∧
      (s.unitFault (.bayEngine n) k).flag (Fld.BAY_STATUS_DEGRADED b) = true ∧
      (s.unitFault (.bayEngine n) k).flag Fld.SYS_STATUS_DEGRADED = true ∧
      (s.unitFault (.bayEngine n) k).led = s.led := by
  have hlt := State.bayOf_lt hb
  obtain ⟨heng, -, htrack, hdegraded⟩ := bay_recordFree b hlt
  obtain ⟨r, blk, c, ht⟩ := State.engineFault_stops (error := errorOf k) hb ((s.retired_standby n).trans hm)
  obtain ⟨seng, strack, sdegraded, sdevice, sled, sdown⟩ := State.stopBay_stopped (s := s.retired (.bayEngine n)) hlt
  rw [State.unitFault_bayEngine hk hu, hf, ht]
  refine ⟨?_, ?_, ?_, ?_, ?_, ?_⟩
  · rw [State.escRecord_esc, sdown, State.retired_down]
    exact List.mem_cons_self
  · rw [State.rd_escRecord _ heng, seng]
  · rw [State.track, State.rd_escRecord _ htrack]
    exact strack
  · rw [State.flag_escRecord _ hdegraded, sdegraded]
  · rw [State.flag_escRecord _ (by decide), sdevice]
  · rw [State.escRecord_led, sled, State.retired_led]

end

/-- The second fault of a process engine that carries a stream stops the stream (R180). -/
theorem State.procEngine_stops {m : Fin 4} (hk : k ≠ .corrected) (hu : s.unitIn (.procEngine m) = true)
    (hb : s.bayOf (.procEngine m) = none) (hf : s.faultedBefore (.procEngine m) = true)
    (hr : s.rd (Fld.MT_PS_STATUS_STATE m.val) = psRun) :
    (s.unitFault (.procEngine m) k).rd (Fld.MT_PS_STATUS_STATE m.val) = psStopped ∧
      .procEngine m ∈ (s.unitFault (.procEngine m) k).esc.down ∧ (s.unitFault (.procEngine m) k).led = s.led := by
  have hfree : ∀ m : Fin 4, (Fld.MT_PS_STATUS_STATE m.val).escFree = true ∧
    (Fld.MT_PS_STATUS_STATE m.val).recordFree = true := by decide
  obtain ⟨hesc, hrecord⟩ := hfree m
  have hrun : (s.faulted (.procEngine m)).rd (Fld.MT_PS_STATUS_STATE m.val) = psRun := (State.rd_faulted s _ hesc).trans hr
  obtain ⟨r, blk, c, ht⟩ := State.engineFault_stream (error := errorOf k) ((s.faulted_bayOf _ _).trans hb) hrun
  rw [State.unitFault_procEngine hk hu, hf, ht, State.streamHalt_run ((State.outOfService_rd _ _ _).trans hrun)]
  refine ⟨?_, ?_, ?_⟩
  · rw [State.rd_escRecord _ hrecord, State.rd_wr_same]
    rfl
  · rw [State.escRecord_esc]
    exact List.mem_cons_self
  · rw [State.escRecord_led, State.wr_led, State.setStream, State.outOfService, State.faulted_led]

/-- The second fault of a network engine stops its port (R331). -/
theorem State.netEngine_stops {n : Fin 2} (hk : k ≠ .corrected) (hu : s.unitIn (.netEngine n) = true)
    (hf : s.faultedBefore (.netEngine n) = true) :
    (s.unitFault (.netEngine n) k).flag (stoppedFld n) = true ∧ ((s.unitFault (.netEngine n) k).port n).tx = [] ∧
      ((s.unitFault (.netEngine n) k).port n).sending = none ∧ ((s.unitFault (.netEngine n) k).port n).rx = [] ∧
      (s.unitFault (.netEngine n) k).led = s.led := by
  have hfree : ∀ n, (stoppedFld n).recordFree = true := by decide
  have ht : s.unitFault (.netEngine n) k = (((((s.noteFault (.netEngine n)).escBlock 3).outOfService (.netEngine n)).dregaLost
      n).portStop n).escRecord 1 3 n.val 0 0x0E (errorOf k) := by
    rw [State.unitFault_netEngine hk hu, hf, State.netFault, if_pos rfl]
  rw [ht, State.flag_escRecord _ (hfree n), State.port_escRecord, State.port_portStop]
  refine ⟨State.portStop_flag .., rfl, rfl, rfl, ?_⟩
  rw [State.escRecord_led, (Spares.refl _).portStop.led, State.dregaLost, State.outOfService, State.escBlock_led,
    State.noteFault]

/-- A transfer that is not completed freezes the device (R39, R43). -/
theorem State.veinFault_frozen (h : s.core.running = true) (hc : s.chip ≠ chipFrozen) (r : Region) :
    (s.veinFault r).chip = chipFrozen ∧ (s.veinFault r).led.frozen = true ∧ (s.veinFault r).led.quanta = [] ∧
      (s.veinFault r).rd Fld.SYS_ESC_STATUS_FAIL / 2 ^ regionNo r % 2 = 1 ∧
      (s.veinFault r).flag Fld.SYS_ALERT_FROZEN = true := by
  have hchip : (s.escRegion (regionNo r)).chip = s.chip := (Spares.refl s).escRegion.chip
  obtain ⟨block, cell, ht⟩ := State.veinFault_running h r
  obtain ⟨hfrozen, hled, hquanta, hfail, halert⟩ := State.regionFail_frozen (hchip.trans_ne hc) (regionNo r) block cell 0x09
  rw [ht]
  refine ⟨hfrozen, hled, hquanta, ?_, halert⟩
  rw [State.drawn_rd, hfail]
  exact failBit _ (regionNo_lt r)

/-- Settles O42: one lemma above for each kind of unit. -/
theorem faultsContained : Obligations.FaultsContained := by
  unfold Obligations.FaultsContained
  intro s k
  refine ⟨fun u hu => ⟨_, exec_engineFault s u _, ?corrected⟩, fun n b hk hu hb hl => ⟨fun hf => ?first, fun m hf hm => ?moves,
    fun hf hm => ?stops⟩, fun m hk hu hb hf hr => ?stream, fun n hk hu hf => ?port, fun hk hu hs hl => ?garnet,
    fun u hu => ?restarted, ?garnetBack, fun r hr hc => ?vein⟩
  case corrected =>
    rw [State.unitFault_corrected hu]
    exact ⟨State.rd_count_same .., rfl, .wr (.of_regs rfl)⟩
  case first => exact ⟨_, exec_engineFault .., State.bayEngine_first hk hu hb hl hf⟩
  case moves => exact ⟨_, exec_engineFault .., State.bayEngine_moves hk hu hb hf hm⟩
  case stops => exact ⟨_, exec_engineFault .., State.bayEngine_stops hk hu hb hf hm⟩
  case stream => exact ⟨_, exec_engineFault .., State.procEngine_stops hk hu hb hf hr⟩
  case port => exact ⟨_, exec_engineFault .., State.netEngine_stops hk hu hf⟩
  case garnet =>
    obtain ⟨hgar, hcount, hchip⟩ := State.garnetFault_restarts hs hl (errorOf k)
    refine ⟨_, exec_engineFault .., ?_⟩
    rw [State.unitFault_garnet hk hu, hgar]
    exact ⟨rfl, rfl, rfl, rfl, rfl, hcount, hchip⟩
  case restarted =>
    obtain ⟨hesc, hregs, hled⟩ := State.restarted_kept hu
    refine ⟨s.restarted u, rfl, ?_, ?_, hregs, hled⟩
    · rw [hesc]
      simp [State.noRestart]
    · rw [hesc, State.noRestart]
  case garnetBack => exact ⟨s.garnetBack, rfl, Garnet.next_restarting _, rfl, rfl⟩
  case vein => exact ⟨s.veinFault r, rfl, State.veinFault_frozen hr hc r⟩

end Sys2Proof.Machine
end

section
/-!
The acquisition lanes (R50, R62, R64, R65, R69, R70): a lane's state and its registers, the end of a start
count, a host's restart, the capture of the trackers, and an output sample as the work of each lane beside the others.
-/

namespace Sys2Proof.Machine
variable {s0 s t : State} {n m v : Nat}

/-! ### Fields and words -/

theorem Field.apart_of_below {f g : Field} (h : f.addr + 4 * f.words ≤ g.addr) : f.apart g = true := by
  simp [Field.apart, h]

theorem Field.apart_of_above {f g : Field} (h : g.addr + 4 * g.words ≤ f.addr) : f.apart g = true := by
  simp [Field.apart, h]

/-- Fields of different words share no bit. -/
theorem Field.apart_of_ne {f g : Field} (hf : f.words = 1) (hg : g.words = 1)
    (h : f.addr + 4 ≤ g.addr ∨ g.addr + 4 ≤ f.addr) : f.apart g = true := by
  obtain h | h := h
  · exact Field.apart_of_below (by omega)
  · exact Field.apart_of_above (by omega)

/-- A field none of whose words has changed reads as before. -/
theorem State.keepsWords.rd {l : List Nat} {g : Field} (h : s.keepsWords t l)
    (hg : ∀ a ∈ l, a < g.addr ∨ g.addr + 4 * g.words ≤ a) : t.rd g = s.rd g := by
  have hw : wordsAt t.word g.addr g.words = wordsAt s.word g.addr g.words :=
    wordsAt_congr fun b hlow hhigh => h b fun hb => by
      have := hg b hb
      omega
  rw [State.rd, hw, State.rd]

/-- Work outside the register store keeps its words. -/
theorem State.keepsWords.sameRegs {l : List Nat} (h : s0.keepsWords s l) (hr : t.regs = s.regs) : s0.keepsWords t l :=
  fun a ha => (congrArg (storeGet resetWord · a) hr).trans (h a ha)

theorem State.regsOnly.acq (h : s.regsOnly t) : t.acq = s.acq := by rw [h]

theorem State.regsOnly.flash (h : s.regsOnly t) : t.flash = s.flash := by rw [h]

theorem State.lane_of_acq (h : t.acq = s.acq) (n : Nat) : t.lane n = s.lane n := by
  rw [State.lane, h, State.lane]

/-! ### The working state of a lane -/

theorem State.lane_setLane_same (h : n < s.acq.lanes.length) (l : Lane) : (s.setLane n l).lane n = l := by
  simp [State.lane, State.setLane, h]

theorem State.lane_setLane_ne (h : n ≠ m) (l : Lane) : (s.setLane m l).lane n = s.lane n := by
  simp [State.lane, State.setLane, List.getElem?_set_ne h.symm]

@[simp] theorem State.length_setLane (s : State) (m : Nat) (l : Lane) :
    (s.setLane m l).acq.lanes.length = s.acq.lanes.length := List.length_set

@[simp] theorem State.setLane_flag (s : State) (m : Nat) (l : Lane) (g : Field) : (s.setLane m l).flag g = s.flag g := rfl
@[simp] theorem State.breakWindow_flag (s : State) (m : Nat) (g : Field) : (s.breakWindow m).flag g = s.flag g := rfl
@[simp] theorem State.breakWindow_lane (s : State) (m n : Nat) : (s.breakWindow m).lane n = s.lane n := rfl
@[simp] theorem State.breakWindow_laneState (s : State) (m n : Nat) : (s.breakWindow m).laneState n = s.laneState n := rfl

/-! ### The state of a lane in its registers -/

/-- The fields of AQ_LANE_STAT that a lane's work writes. -/
def laneStatFields (n : Nat) : List Field :=
  [Fld.AQ_LANE_STAT_STATE n, Fld.AQ_LANE_STAT_DEGRADED n, Fld.AQ_LANE_STAT_COARSE_ISO n, Fld.AQ_LANE_STAT_FINE_ISO n,
    Fld.AQ_LANE_STAT_CLIP n, Fld.AQ_LANE_STAT_CLIP_CNT n]

theorem laneStatFields_word {f : Field} (hf : f ∈ laneStatFields n) : f.addr = Adr.AQ_LANE_STAT n ∧ f.words = 1 := by
  simp only [laneStatFields, List.mem_cons, List.not_mem_nil, or_false] at hf
  obtain rfl | rfl | rfl | rfl | rfl | rfl := hf <;> refine ⟨rfl, ?_⟩ <;>
    simp [Field.words, Fld.AQ_LANE_STAT_STATE, Fld.AQ_LANE_STAT_DEGRADED, Fld.AQ_LANE_STAT_COARSE_ISO,
      Fld.AQ_LANE_STAT_FINE_ISO, Fld.AQ_LANE_STAT_CLIP, Fld.AQ_LANE_STAT_CLIP_CNT]

theorem laneState_words (n : Nat) : (Fld.AQ_LANE_STAT_STATE n).words = 1 := (laneStatFields_word (.head _)).2

/-- The state of a lane lies in block AQ. -/
theorem laneState_within (hn : n < 76) : 0x100000 ≤ (Fld.AQ_LANE_STAT_STATE n).addr ∧
    (Fld.AQ_LANE_STAT_STATE n).addr + 4 * (Fld.AQ_LANE_STAT_STATE n).words ≤ 0x200000 := by
  rw [laneState_words]
  change 0x100000 ≤ 0x100300 + 4 * n ∧ 0x100300 + 4 * n + 4 * 1 ≤ 0x200000
  omega

theorem State.keepsWords.wrLane {l : List Nat} {f : Field} (h : s0.keepsWords s l) (hl : Adr.AQ_LANE_STAT n ∈ l)
    (hf : f ∈ laneStatFields n := by simp [laneStatFields]) : s0.keepsWords (s.wr f v) l := by
  obtain ⟨haddr, hwords⟩ := laneStatFields_word hf
  exact h.wr hwords (haddr ▸ hl)

theorem State.setLaneState_regsOnly : s.regsOnly (s.setLaneState n v) := .wrB (.wr (.refl s))

theorem State.keepsWords.setLaneState {l : List Nat} (h : s0.keepsWords s l) (hl : Adr.AQ_LANE_STAT n ∈ l) :
    s0.keepsWords (s.setLaneState n v) l :=
  .wrLane (.wrLane h hl) hl

theorem State.setLaneState_same : (s.setLaneState n v).laneState n = v % 8 := by
  have ha : (Fld.AQ_LANE_STAT_DEGRADED n).apart (Fld.AQ_LANE_STAT_STATE n) = true := by
    simp [Field.apart, Field.words, Fld.AQ_LANE_STAT_DEGRADED, Fld.AQ_LANE_STAT_STATE]
  unfold State.setLaneState State.refreshLane State.laneState
  rw [State.rd_wrB_apart _ _ ha, State.rd_wr_same]
  rfl

/-- A lane's state and what follows it leave the isolation of its slices. -/
theorem State.flag_setLaneState {g : Field} (hg : g ∈ [Fld.AQ_LANE_STAT_COARSE_ISO n, Fld.AQ_LANE_STAT_FINE_ISO n]) :
    (s.setLaneState n v).flag g = s.flag g := by
  have ha : (Fld.AQ_LANE_STAT_STATE n).apart g = true ∧ (Fld.AQ_LANE_STAT_DEGRADED n).apart g = true := by
    simp only [List.mem_cons, List.not_mem_nil, or_false] at hg
    obtain rfl | rfl := hg <;>
      simp [Field.apart, Field.words, Fld.AQ_LANE_STAT_STATE, Fld.AQ_LANE_STAT_DEGRADED, Fld.AQ_LANE_STAT_COARSE_ISO,
        Fld.AQ_LANE_STAT_FINE_ISO]
  unfold State.setLaneState State.refreshLane
  rw [State.flag_wrB_apart ha.2, State.flag, State.rd_wr_apart _ _ ha.1, State.flag]

/-! ### The counts that follow the lanes -/

theorem State.refreshAcq_regsOnly : s.regsOnly s.refreshAcq := .wrB (.wr (.wr (.wr (.refl s))))

theorem State.keepsWords.refreshAcq {l : List Nat} (h : s0.keepsWords s l) (ha : Adr.AQ_STATUS ∈ l)
    (hs : Adr.SYS_STATUS ∈ l) : s0.keepsWords s.refreshAcq l :=
  .wrB (.wr (.wr (.wr h rfl ha) rfl ha) rfl ha) rfl hs

/-- The counts lie below the lanes' registers. -/
theorem State.rd_refreshAcq {g : Field} (hg : Adr.AQ_STATUS < g.addr) : s.refreshAcq.rd g = s.rd g := by
  have hk : s.keepsWords s.refreshAcq [Adr.AQ_STATUS, Adr.SYS_STATUS] := .refreshAcq (.of_regs rfl) (by simp) (by simp)
  have hl : ∀ a ∈ [Adr.AQ_STATUS, Adr.SYS_STATUS], a ≤ Adr.AQ_STATUS := by decide
  exact hk.rd fun a ha => .inl (lt_of_le_of_lt (hl a ha) hg)

theorem laneStat_above (n : Nat) : Adr.AQ_STATUS < Adr.AQ_LANE_STAT n := by
  unfold Adr.AQ_STATUS Adr.AQ_LANE_STAT
  omega

theorem State.laneState_refreshAcq : s.refreshAcq.laneState n = s.laneState n := State.rd_refreshAcq (laneStat_above n)

theorem State.lane_refreshAcq : s.refreshAcq.lane n = s.lane n := State.lane_of_acq State.refreshAcq_regsOnly.acq n

/-! ### The end of the start count (R64) -/

theorem exec_laneStartCountEnd (s : State) (n : Fin 76) : exec (.laneStartCountEnd n) s = .next (s.laneCountEnd n.val) := rfl

/-- The state of a lane whose start count has ended: one slice may still be isolated. -/
def State.countedState (s : State) (n : Nat) : Nat :=
  if s.flag (Fld.AQ_LANE_STAT_COARSE_ISO n) || s.flag (Fld.AQ_LANE_STAT_FINE_ISO n) then laneSingle else laneRunning

theorem State.countedState_lt (s : State) (n : Nat) : s.countedState n < 8 := by
  unfold State.countedState
  split <;> decide

theorem State.laneCountEnd_ended (hs : s.laneState n = laneStarting) (hc : (s.lane n).count = 0) :
    s.laneCountEnd n = (s.setLaneState n (s.countedState n)).refreshAcq := by
  simp [State.laneCountEnd, State.countedState, hs, hc]

/-- The end of a start count puts the lane into service and changes its status and the counts alone. -/
theorem State.laneCountEnd_spec (hs : s.laneState n = laneStarting) (hc : (s.lane n).count = 0) :
    (s.laneCountEnd n).laneState n = s.countedState n ∧
      s.onlyWords (s.laneCountEnd n) [Adr.AQ_LANE_STAT n, Adr.AQ_STATUS, Adr.SYS_STATUS] := by
  rw [State.laneCountEnd_ended hs hc]
  refine ⟨?_, ?_, .refreshAcq (.setLaneState (.of_regs rfl) (by simp)) (by simp) (by simp)⟩
  · rw [State.laneState_refreshAcq, State.setLaneState_same, Nat.mod_eq_of_lt (s.countedState_lt n)]
  · exact State.regsOnly.wrB (.wr (.wr (.wr State.setLaneState_regsOnly)))

/-! ### The restart of a lane (R65) -/

/-- A lane whose coarse slice is in service counts its 40 INVALID samples in STARTING. -/
theorem State.laneInvalid_starting (hn : n < s.acq.lanes.length) (hi : s.flag (Fld.AQ_LANE_STAT_COARSE_ISO n) = false) :
    (s.laneInvalid n).laneState n = laneStarting ∧ ((s.laneInvalid n).lane n).count = 40 := by
  unfold State.laneInvalid
  extract_lets _ t
  have hf : t.flag (Fld.AQ_LANE_STAT_COARSE_ISO n) = false := hi
  rw [hf, State.lane_of_acq State.setLaneState_regsOnly.acq, State.setLaneState_same, State.lane_setLane_same hn]
  exact ⟨rfl, rfl⟩

theorem State.flag_laneInvalid {g : Field} (hg : g ∈ [Fld.AQ_LANE_STAT_COARSE_ISO n, Fld.AQ_LANE_STAT_FINE_ISO n]) :
    (s.laneInvalid n).flag g = s.flag g := State.flag_setLaneState hg

/-- Both slices of a lane in service. -/
def State.inService (s : State) (n : Nat) : State :=
  (s.wrB (Fld.AQ_LANE_STAT_COARSE_ISO n) false).wrB (Fld.AQ_LANE_STAT_FINE_ISO n) false

theorem State.flag_inService {g : Field} (hg : g ∈ [Fld.AQ_LANE_STAT_COARSE_ISO n, Fld.AQ_LANE_STAT_FINE_ISO n]) :
    (s.inService n).flag g = false := by
  have ha : (Fld.AQ_LANE_STAT_FINE_ISO n).apart (Fld.AQ_LANE_STAT_COARSE_ISO n) = true := by
    simp [Field.apart, Field.words, Fld.AQ_LANE_STAT_COARSE_ISO, Fld.AQ_LANE_STAT_FINE_ISO]
  simp only [List.mem_cons, List.not_mem_nil, or_false] at hg
  unfold State.inService
  obtain rfl | rfl := hg
  · rw [State.flag_wrB_apart ha]
    exact State.flag_wrB_same _ _ _ rfl
  · exact State.flag_wrB_same _ _ _ rfl

/-- A restart: the slices in service, discards forgotten, the count started, and the window in progress broken. -/
theorem State.laneStart_eq (s : State) (n : Nat) :
    ∃ l, s.laneStart n = (((s.inService n).setLane n l).laneInvalid n).breakWindow n := by
  unfold State.laneStart State.laneBegin
  exact ⟨_, rfl⟩

theorem State.keepsWords.laneInvalid {l : List Nat} (h : s0.keepsWords s l) (hl : Adr.AQ_LANE_STAT n ∈ l) :
    s0.keepsWords (s.laneInvalid n) l := by
  unfold State.laneInvalid
  exact .setLaneState (.sameRegs h rfl) hl

theorem State.keepsWords.laneStart {l : List Nat} (h : s0.keepsWords s l) (hl : Adr.AQ_LANE_STAT n ∈ l) :
    s0.keepsWords (s.laneStart n) l := by
  have hin : s0.keepsWords (s.inService n) l := .wrLane (.wrLane h hl) hl
  obtain ⟨x, hx⟩ := s.laneStart_eq n
  have hk : s0.keepsWords ((s.inService n).setLane n x) l := hin.sameRegs rfl
  rw [hx]
  exact (hk.laneInvalid hl).sameRegs rfl

/-- A restarted lane is STARTING with both slices in service and 40 samples to count. -/
theorem State.laneStart_spec (hn : n < s.acq.lanes.length) :
    (s.laneStart n).laneState n = laneStarting ∧ ((s.laneStart n).lane n).count = 40 ∧
      (s.laneStart n).flag (Fld.AQ_LANE_STAT_COARSE_ISO n) = false ∧
      (s.laneStart n).flag (Fld.AQ_LANE_STAT_FINE_ISO n) = false := by
  obtain ⟨l, hl⟩ := s.laneStart_eq n
  have hflag {g : Field} (hg : g ∈ [Fld.AQ_LANE_STAT_COARSE_ISO n, Fld.AQ_LANE_STAT_FINE_ISO n]) :
      (((s.inService n).setLane n l).laneInvalid n).flag g = false := by
    rw [State.flag_laneInvalid hg, State.setLane_flag, State.flag_inService hg]
  have hlen : n < ((s.inService n).setLane n l).acq.lanes.length := by
    rw [State.length_setLane]
    exact hn
  have hcoarse : ((s.inService n).setLane n l).flag (Fld.AQ_LANE_STAT_COARSE_ISO n) = false := by
    rw [State.setLane_flag, State.flag_inService (by simp)]
  obtain ⟨hstate, hcount⟩ := State.laneInvalid_starting hlen hcoarse
  simp only [hl, State.breakWindow_laneState, State.breakWindow_lane, State.breakWindow_flag]
  exact ⟨hstate, hcount, hflag (by simp), hflag (by simp)⟩

/-- AQ_LANE_CTRL after an accepted restart: the lane's index, and no refusal. -/
def State.laneCtrl (s : State) (n : Nat) : State :=
  (s.wr Fld.AQ_LANE_CTRL_LANE n).wrB Fld.AQ_LANE_CTRL_REFUSED false

theorem State.laneCtrl_laneState (s : State) (k n : Nat) : (s.laneCtrl k).laneState n = s.laneState n := by
  have hn : 0x10000C ≤ (Fld.AQ_LANE_STAT_STATE n).addr := le_add_right (by decide)
  unfold State.laneCtrl State.laneState
  rw [State.rd_wrB_apart _ _ (Field.apart_of_below (f := Fld.AQ_LANE_CTRL_REFUSED) hn),
    State.rd_wr_apart _ _ (Field.apart_of_below (f := Fld.AQ_LANE_CTRL_LANE) hn)]

/-- A host's restart of a lane that is on. -/
def State.hostRestart (s : State) (n : Nat) : State := ((s.laneCtrl n).laneStart n).refreshAcq

/-- A write of AQ_LANE_CTRL with RESTART set, by a role that may, starts a lane that is on. -/
theorem State.wLaneCtrl_restart {p : Path} {v : Word} {x : Session}
    (hx : s.gate p (roleOperator ||| roleService) false = .pass x) (hv : v.msb = true) (hn : bitsOf v.toNat 0 7 = n)
    (hp : s.lanePresent n = true) (he : s.flag (Fld.AQ_LANE_CFG_ENABLE n) = true) (hd : s.domOn (laneDomain n) = true)
    (ho : s.laneState n ≠ laneOff) : (s.wLaneCtrl p v).2 = s.hostRestart n := by
  have hen : (s.wr Fld.AQ_LANE_CTRL_LANE n).flag (Fld.AQ_LANE_CFG_ENABLE n) = true := by
    have ha : 0x10000C ≤ (Fld.AQ_LANE_CFG_ENABLE n).addr := le_add_right (by decide)
    rw [State.flag, State.rd_wr_apart _ _ (Field.apart_of_below (f := Fld.AQ_LANE_CTRL_LANE) ha)]
    exact he
  have hpr : (s.wr Fld.AQ_LANE_CTRL_LANE n).lanePresent n = true := hp
  have hdom : (s.wr Fld.AQ_LANE_CTRL_LANE n).domOn (laneDomain n) = true := by
    rw [State.domOn, State.rd_wr_apart _ _ (by decide)]
    exact hd
  have hstate : (s.laneCtrl n).laneState n ≠ laneOff := (s.laneCtrl_laneState n n).trans_ne ho
  unfold State.laneCtrl at hstate
  unfold State.hostRestart State.laneCtrl
  simp [State.wLaneCtrl, hx, hv, hn, hpr, hen, hdom, hstate]

/-- The word of LANE_RESTART holds the lane's index beside RESTART. -/
theorem restartWord_fields (n : BitVec 7) : (0x80000000#32 ||| n.setWidth 32).msb = true ∧
    bitsOf (0x80000000#32 ||| n.setWidth 32).toNat 0 7 = n.toNat := by
  revert n
  decide

theorem State.laneCtrl_refused (s : State) (n : Nat) : (s.laneCtrl n).flag Fld.AQ_LANE_CTRL_REFUSED = false :=
  State.flag_wrB_same _ _ _ rfl

/-- A restart of a lane leaves the register of the command. -/
theorem State.laneStart_refused (s : State) (n : Nat) :
    (s.laneStart n).flag Fld.AQ_LANE_CTRL_REFUSED = s.flag Fld.AQ_LANE_CTRL_REFUSED := by
  have hk : s.keepsWords (s.laneStart n) [Adr.AQ_LANE_STAT n] := .laneStart (.of_regs rfl) (by simp)
  have hn : 0x10000C ≤ Adr.AQ_LANE_STAT n := le_add_right (by decide)
  unfold State.flag
  rw [hk.rd fun a ha => .inr (List.mem_singleton.1 ha ▸ hn)]

theorem State.flag_refreshAcq {g : Field} (hg : Adr.AQ_STATUS < g.addr) : s.refreshAcq.flag g = s.flag g := by
  unfold State.flag
  rw [State.rd_refreshAcq hg]

/-- What an accepted restart makes of its lane, and the words it may change. -/
theorem State.hostRestart_spec (hn : n < s.acq.lanes.length) :
    (s.hostRestart n).laneState n = laneStarting ∧ ((s.hostRestart n).lane n).count = 40 ∧
      (s.hostRestart n).flag (Fld.AQ_LANE_STAT_COARSE_ISO n) = false ∧
      (s.hostRestart n).flag (Fld.AQ_LANE_STAT_FINE_ISO n) = false ∧
      (s.hostRestart n).flag Fld.AQ_LANE_CTRL_REFUSED = false ∧
      s.keepsWords (s.hostRestart n) [Adr.AQ_LANE_CTRL, Adr.AQ_LANE_STAT n, Adr.AQ_STATUS, Adr.SYS_STATUS] := by
  obtain ⟨hstate, hcount, hcoarse, hfine⟩ := State.laneStart_spec (s := s.laneCtrl n) hn
  have hctrl : s.keepsWords (s.laneCtrl n) [Adr.AQ_LANE_CTRL, Adr.AQ_LANE_STAT n, Adr.AQ_STATUS, Adr.SYS_STATUS] :=
    .wrB (.wr (.of_regs rfl) rfl (.head _)) rfl (.head _)
  unfold State.hostRestart
  refine ⟨?_, ?_, ?_, ?_, ?_, .refreshAcq (.laneStart hctrl (by simp)) (by simp) (by simp)⟩
  · rw [State.laneState_refreshAcq, hstate]
  · rw [State.lane_refreshAcq, hcount]
  · rw [State.flag_refreshAcq (laneStat_above n), hcoarse]
  · rw [State.flag_refreshAcq (laneStat_above n), hfine]
  · rw [State.flag_refreshAcq (by decide), State.laneStart_refused, State.laneCtrl_refused]

/-! ### The capture of the trackers (R70) -/

/-- A request for a capture that can be taken. -/
theorem State.wMmCtrl_capture {p : Path} (hb : s.flag Fld.AQ_MM_STAT_BUSY = false) (hc : s.acq.captureAt = none) :
    (s.wMmCtrl p 1).2 = s.wrB Fld.AQ_MM_STAT_BUSY true := by
  simp [State.wMmCtrl, hb, hc]

/-- A lane's tracker in its registers; a tracker that has taken no sample stands at its ends (R69). -/
def State.showTrack (s : State) (n : Nat) : State :=
  let x := (s.lane n).track.getD (-2147483648, 2147483647)
  (s.wrS (Fld.AQ_MM_MAX_MAX n) x.1).wrS (Fld.AQ_MM_MIN_MIN n) x.2

/-- The trackers start again from a capture at an epoch. -/
def State.clearTracks (s : State) (e : Nat) : State :=
  { s with acq := { s.acq with
    captureAt := some e
    lanes := s.acq.lanes.map fun (l : Lane) => { l with track := none } } }

theorem State.clearTracks_track (s : State) (e n : Nat) : ((s.clearTracks e).lane n).track = none := by
  unfold State.lane State.clearTracks
  rw [List.getD_eq_getElem?_getD, List.getElem?_map]
  cases s.acq.lanes[n]? <;> rfl

theorem State.clearTracks_rd (s : State) (e : Nat) (g : Field) : (s.clearTracks e).rd g = s.rd g := rfl

theorem State.captureBoundary_taken (hb : s.flag Fld.AQ_MM_STAT_BUSY = true) (hr : s.flag Fld.AQ_STATUS_RUN = true) :
    s.captureBoundary = (((((List.range 76).foldl State.showTrack s).clearTracks s.nextSample).wr Fld.AQ_MM_EPOCH_EPOCH
      s.nextSample).wrB Fld.AQ_MM_STAT_BUSY false).wrB Fld.AQ_MM_STAT_VALID true := by
  unfold State.captureBoundary
  exact if_neg (by simp [hb, hr])

/-- The registers of a tracker hold the ends of its interval. -/
def State.showsTrack (s : State) (n : Nat) (x : Int × Int) : Prop :=
  s.rd (Fld.AQ_MM_MAX_MAX n) = ofSigned 32 x.1 ∧ s.rd (Fld.AQ_MM_MIN_MIN n) = ofSigned 32 x.2

theorem mmMax_words (n : Nat) : (Fld.AQ_MM_MAX_MAX n).words = 1 := by simp [Field.words, Fld.AQ_MM_MAX_MAX]

theorem mmMin_words (n : Nat) : (Fld.AQ_MM_MIN_MIN n).words = 1 := by simp [Field.words, Fld.AQ_MM_MIN_MIN]

theorem mmMax_apart (h : n ≠ m) : (Fld.AQ_MM_MAX_MAX m).apart (Fld.AQ_MM_MAX_MAX n) = true :=
  Field.apart_of_ne (mmMax_words m) (mmMax_words n) (by simp only [Fld.AQ_MM_MAX_MAX]; omega)

theorem mmMin_apart (h : n ≠ m) : (Fld.AQ_MM_MIN_MIN m).apart (Fld.AQ_MM_MIN_MIN n) = true :=
  Field.apart_of_ne (mmMin_words m) (mmMin_words n) (by simp only [Fld.AQ_MM_MIN_MIN]; omega)

theorem mmMax_apart_mmMin (hm : m < 76) : (Fld.AQ_MM_MAX_MAX m).apart (Fld.AQ_MM_MIN_MIN n) = true :=
  Field.apart_of_ne (mmMax_words m) (mmMin_words n) (by simp only [Fld.AQ_MM_MAX_MAX, Fld.AQ_MM_MIN_MIN]; omega)

theorem mmMin_apart_mmMax (hn : n < 76) : (Fld.AQ_MM_MIN_MIN m).apart (Fld.AQ_MM_MAX_MAX n) = true :=
  Field.apart_of_ne (mmMin_words m) (mmMax_words n) (by simp only [Fld.AQ_MM_MAX_MAX, Fld.AQ_MM_MIN_MIN]; omega)

theorem ofSigned_lt (w : Nat) (x : Int) : ofSigned w x < 2 ^ w := by
  have h0 : (0 : Int) < 2 ^ w := by positivity
  unfold ofSigned
  rw [Int.toNat_lt (Int.emod_nonneg x h0.ne')]
  exact_mod_cast Int.emod_lt_of_pos x h0

theorem State.showTrack_shows (hn : n < 76) :
    (s.showTrack n).showsTrack n ((s.lane n).track.getD (-2147483648, 2147483647)) := by
  unfold State.showTrack State.showsTrack State.wrS
  rw [State.rd_wr_apart _ _ (mmMin_apart_mmMax hn), State.rd_wr_same, State.rd_wr_same]
  exact ⟨Nat.mod_eq_of_lt (ofSigned_lt 32 _), Nat.mod_eq_of_lt (ofSigned_lt 32 _)⟩

/-- Another lane's tracker leaves the registers of this one. -/
theorem State.showsTrack.showTrack {x : Int × Int} (h : s.showsTrack n x) (hn : n < 76) (hm : m < 76) (hne : n ≠ m) :
    (s.showTrack m).showsTrack n x := by
  obtain ⟨hmax, hmin⟩ := h
  unfold State.showTrack State.showsTrack State.wrS
  rw [State.rd_wr_apart _ _ (mmMin_apart_mmMax hn), State.rd_wr_apart _ _ (mmMax_apart hne),
    State.rd_wr_apart _ _ (mmMin_apart hne), State.rd_wr_apart _ _ (mmMax_apart_mmMin hm)]
  exact ⟨hmax, hmin⟩

/-- The trackers of the first lanes in their registers. -/
theorem State.showTracks_spec (s : State) {k : Nat} (hk : k ≤ 76) :
    s.regsOnly ((List.range k).foldl State.showTrack s) ∧ ∀ n < k,
      ((List.range k).foldl State.showTrack s).showsTrack n ((s.lane n).track.getD (-2147483648, 2147483647)) := by
  induction k with
  | zero => exact ⟨.refl s, fun n hn => absurd hn n.not_lt_zero⟩
  | succ k ih =>
    obtain ⟨hregs, hshown⟩ := ih (by omega)
    rw [List.range_succ, List.foldl_append, List.foldl_cons, List.foldl_nil]
    refine ⟨.wrS (.wrS hregs), fun n hn => ?_⟩
    obtain hlt | rfl := Nat.lt_succ_iff_lt_or_eq.1 hn
    · exact (hshown n hlt).showTrack (by omega) (by omega) hlt.ne
    · rw [← State.lane_of_acq hregs.acq]
      exact State.showTrack_shows (by omega)

/-- A capture is taken at its boundary: the trackers show in their registers and start again, the epoch is noted, and BUSY
gives way to VALID. -/
theorem State.captureBoundary_spec (hb : s.flag Fld.AQ_MM_STAT_BUSY = true) (hr : s.flag Fld.AQ_STATUS_RUN = true) :
    s.captureBoundary.flag Fld.AQ_MM_STAT_BUSY = false ∧ s.captureBoundary.flag Fld.AQ_MM_STAT_VALID = true ∧
      s.captureBoundary.rd Fld.AQ_MM_EPOCH_EPOCH = s.nextSample % 2 ^ 64 ∧
      (∀ n < 76, s.captureBoundary.showsTrack n ((s.lane n).track.getD (-2147483648, 2147483647))) ∧
      (∀ n, (s.captureBoundary.lane n).track = none) ∧ s.captureBoundary.str = s.str := by
  obtain ⟨hregs, hshown⟩ := s.showTracks_spec le_rfl
  have hmax : ∀ n, 0x100020 ≤ (Fld.AQ_MM_MAX_MAX n).addr := fun n => le_add_right (by decide)
  have hmin : ∀ n, 0x100020 ≤ (Fld.AQ_MM_MIN_MIN n).addr := fun n => le_add_right (by decide)
  have hrd {g : Field} (hg : 0x100020 ≤ g.addr) :
      s.captureBoundary.rd g = ((List.range 76).foldl State.showTrack s).rd g := by
    rw [State.captureBoundary_taken hb hr,
      State.rd_wrB_apart _ _ (Field.apart_of_below (f := Fld.AQ_MM_STAT_VALID) (le_trans (by decide) hg)),
      State.rd_wrB_apart _ _ (Field.apart_of_below (f := Fld.AQ_MM_STAT_BUSY) (le_trans (by decide) hg)),
      State.rd_wr_apart _ _ (Field.apart_of_below (f := Fld.AQ_MM_EPOCH_EPOCH) (le_trans (by decide) hg)),
      State.clearTracks_rd]
  refine ⟨?_, ?_, ?_, fun n hn => ?_, fun n => ?_, ?_⟩
  · rw [State.captureBoundary_taken hb hr, State.flag_wrB_apart (by decide), State.flag_wrB_same _ _ _ rfl]
  · rw [State.captureBoundary_taken hb hr, State.flag_wrB_same _ _ _ rfl]
  · rw [State.captureBoundary_taken hb hr, State.rd_wrB_apart _ _ (by decide), State.rd_wrB_apart _ _ (by decide),
      State.rd_wr_same]
    rfl
  · unfold State.showsTrack
    rw [hrd (hmax n), hrd (hmin n)]
    exact hshown n hn
  · rw [State.captureBoundary_taken hb hr, State.lane_of_acq (State.wrB_acq ..), State.lane_of_acq (State.wrB_acq ..),
      State.lane_of_acq (State.wr_acq ..), State.clearTracks_track]
  · rw [State.captureBoundary_taken hb hr, State.wrB_str, State.wrB_str, State.wr_str, State.clearTracks, hregs.str]

/-! ### The work of lanes -/

/-- What the work of the lanes in `p` leaves: Strata, the flash, the epoch of the sample, the set in force, and every other
lane. -/
structure LaneWork (p : Nat → Prop) (s t : State) : Prop where
  str : t.str = s.str
  flash : t.flash = s.flash
  sampleAt : t.acq.sampleAt = s.acq.sampleAt
  act : t.acq.act = s.acq.act
  length : t.acq.lanes.length = s.acq.lanes.length
  lane : ∀ n, ¬ p n → t.lane n = s.lane n
  state : ∀ n < 76, ¬ p n → t.laneState n = s.laneState n

section
variable {p : Nat → Prop}

theorem LaneWork.refl (s : State) : LaneWork p s s := ⟨rfl, rfl, rfl, rfl, rfl, fun _ _ => rfl, fun _ _ _ => rfl⟩

theorem LaneWork.ite {c : Prop} [Decidable c] (hs : LaneWork p s0 s) (ht : LaneWork p s0 t) :
    LaneWork p s0 (if c then s else t) := by
  split <;> assumption

theorem LaneWork.foldl {α : Type} {f : State → α → State} {l : List α} (h : LaneWork p s0 s)
    (hf : ∀ u, ∀ x ∈ l, LaneWork p s0 u → LaneWork p s0 (f u x)) : LaneWork p s0 (l.foldl f s) := by
  induction l generalizing s with
  | nil => exact h
  | cons x l ih => exact ih (hf _ x (by simp) h) fun u y hy => hf u y (by simp [hy])

/-- The statistics are free. -/
theorem LaneWork.stats (h : LaneWork p s0 s) {x} : LaneWork p s0 { s with acq := { s.acq with stats := x } } :=
  ⟨h.str, h.flash, h.sampleAt, h.act, h.length, h.lane, h.state⟩

theorem LaneWork.countSample (h : LaneWork p s0 s) {win n vc fit} : LaneWork p s0 (s.countSample win n vc fit) := h.stats

/-- The discard counts of a lane, and the fields of its status that its work writes. -/
def laneFields (n : Nat) : List Field :=
  Fld.AQ_LANE_DISC_COARSE n :: Fld.AQ_LANE_DISC_FINE n :: laneStatFields n

/-- The registers of one lane are not those of another. -/
theorem laneFields_apart {f : Field} (hf : f ∈ laneFields m) (hn : n < 76) (hne : n ≠ m) :
    f.apart (Fld.AQ_LANE_STAT_STATE n) = true := by
  have hw : f.words = 1 ∧ (f.addr = Adr.AQ_LANE_STAT m ∨ f.addr = Adr.AQ_LANE_DISC m) := by
    simp only [laneFields, List.mem_cons] at hf
    obtain rfl | rfl | hf := hf
    · exact ⟨by simp [Field.words, Fld.AQ_LANE_DISC_COARSE], .inr rfl⟩
    · exact ⟨by simp [Field.words, Fld.AQ_LANE_DISC_FINE], .inr rfl⟩
    · obtain ⟨haddr, hwords⟩ := laneStatFields_word hf
      exact ⟨hwords, .inl haddr⟩
  obtain ⟨hwords, haddr⟩ := hw
  refine Field.apart_of_ne hwords (laneState_words n) ?_
  simp only [Fld.AQ_LANE_STAT_STATE, Adr.AQ_LANE_STAT, Adr.AQ_LANE_DISC] at *
  omega

section
variable (hm : p m) (h : LaneWork p s0 s)
include hm h

theorem LaneWork.wr {f : Field} {x} (hf : f ∈ laneFields m := by simp [laneFields, laneStatFields]) :
    LaneWork p s0 (s.wr f x) where
  str := h.str
  flash := h.flash
  sampleAt := h.sampleAt
  act := h.act
  length := h.length
  lane := h.lane
  state n hn hp :=
    (s.rd_wr_apart x (laneFields_apart hf hn fun e : n = m => hp (e ▸ hm))).trans (h.state n hn hp)

theorem LaneWork.setLane {l} : LaneWork p s0 (s.setLane m l) where
  str := h.str
  flash := h.flash
  sampleAt := h.sampleAt
  act := h.act
  length := (s.length_setLane m l).trans h.length
  lane n hp := (State.lane_setLane_ne (fun e : n = m => hp (e ▸ hm)) l).trans (h.lane n hp)
  state := h.state

theorem LaneWork.setLaneState : LaneWork p s0 (s.setLaneState m v) := .wr hm (.wr hm h)

end

/-- The registers of the lanes are not those of errors, the recorder and Bedrock. -/
theorem laneState_errorFree (hn : n < 76) : (Fld.AQ_LANE_STAT_STATE n).escFree = true ∧
    (Fld.AQ_LANE_STAT_STATE n).recordFree = true := by
  obtain ⟨hlow, hhigh⟩ := laneState_within hn
  have hcounts : ∀ f ∈ [Fld.SYS_ESC_STATUS_BLOCK, Fld.SYS_ESC_STATUS_REGION, Fld.SYS_ESC_COUNT_BLOCK,
    Fld.SYS_ESC_COUNT_REGION], f.addr + 4 * f.words ≤ 0x100000 := by decide
  have hintake : (Fld.AQ_LANE_STAT_STATE n).intakeFree = true := by
    rw [Field.intakeFree, decide_eq_true (hhigh.trans (by decide)), Bool.true_or]
  have hlast : Fld.SYS_ESC_LAST_ALL.apart (Fld.AQ_LANE_STAT_STATE n) = true :=
    Field.apart_of_below (le_trans (by decide) hlow)
  have htime : Fld.SYS_ESC_LAST_T_OPSEC.apart (Fld.AQ_LANE_STAT_STATE n) = true :=
    Field.apart_of_below (le_trans (by decide) hlow)
  unfold Field.escFree Field.recordFree
  rw [hintake, hlast, htime]
  exact ⟨List.all_eq_true.2 fun f hf => Field.apart_of_below ((hcounts f hf).trans hlow), rfl⟩

theorem LaneWork.escBlock (h : LaneWork p s0 s) {r : Nat} : LaneWork p s0 (s.escBlock r) where
  str := h.str
  flash := h.flash
  sampleAt := h.sampleAt
  act := h.act
  length := h.length
  lane := h.lane
  state n hn hp := (s.rd_escBlock (laneState_errorFree hn).1 r).trans (h.state n hn hp)

theorem State.escRecord_acq (s : State) (level region block cell cause error : Nat) :
    (s.escRecord level region block cell cause error).acq = s.acq := by
  unfold State.escRecord
  rw [State.raise_acq, State.wr_acq, State.wr_acq]

theorem LaneWork.escRecord (h : LaneWork p s0 s) {level region block cell cause error : Nat} :
    LaneWork p s0 (s.escRecord level region block cell cause error) where
  str := (Spares.refl s).escRecord.str.trans h.str
  flash := (Spares.refl s).escRecord.flash.trans h.flash
  sampleAt := by rw [State.escRecord_acq, h.sampleAt]
  act := by rw [State.escRecord_acq, h.act]
  length := by rw [State.escRecord_acq, h.length]
  lane n hp := (State.lane_of_acq (s.escRecord_acq ..) n).trans (h.lane n hp)
  state n hn hp := (s.rd_escRecord (laneState_errorFree hn).2 ..).trans (h.state n hn hp)

theorem LaneWork.sliceIsolated (hm : p m) (h : LaneWork p s0 s) {fine} : LaneWork p s0 (s.sliceIsolated m fine) := by
  unfold State.sliceIsolated
  exact .escRecord (.escBlock (.setLaneState hm (.ite (.wr hm h) (.wr hm h))))

/-- A lane's output sample is its own work. -/
theorem LaneWork.laneSample (hm : p m) (h : LaneWork p s0 s) {e conv} : LaneWork p s0 (s.laneSample e m conv) := by
  unfold State.laneSample
  extract_lets _ _ _ _ _ _ _ _ _ t4 t5 t6 _ _ _ _ _ _ _ _ _ _ _ _ _ _ t8
  have h4 : LaneWork p s0 t4 := .wr hm (.wr hm (.setLane hm h.stats))
  have h5 : LaneWork p s0 t5 := .ite (.sliceIsolated hm h4) h4
  have h6 : LaneWork p s0 t6 := .ite (.sliceIsolated hm h5) h5
  have h8 : LaneWork p s0 t8 := .setLane hm h6
  exact .ite (.stats (.setLane hm h)) (.ite (.setLane hm h6) (.ite (.setLane hm h6) (.ite (.wr hm (.wr hm h8))
    (.countSample h8))))

end

/-! ### The output sample of a lane that is OFF (R62) -/

theorem Lane.deliver_out (l : Lane) {x : Sample} (hx : x.out = true) :
    ((l.deliver x).samples.head?.map (·.out)) = some true ∧ (l.deliver x).track = l.track := by
  simp [Lane.deliver, hx, sampleKeep]

/-- A lane that is OFF delivers its sample marked OUT, and its tracker does not take it. -/
theorem State.laneSample_off (hs : s.laneState n = laneOff) (hn : n < s.acq.lanes.length) (e : Nat) (conv : List LaneConv) :
    (((s.laneSample e n conv).lane n).samples.head?.map (·.out)) = some true ∧
      ((s.laneSample e n conv).lane n).track = (s.lane n).track := by
  have ht : (s.laneSample e n conv).lane n = (s.lane n).deliver { centre := (e : Int) - 608, out := true } := by
    simp only [State.laneSample, hs]
    exact State.lane_setLane_same hn _
  rw [ht]
  exact Lane.deliver_out _ rfl

/-! ### An output sample of all lanes (R50) -/

/-- The output sample of one lane, of those whose conversions are numbered. -/
def State.laneTurn (e : Nat) (s : State) (x : List LaneConv × Nat) : State := s.laneSample e x.2 x.1

/-- The turn of lane `n` stands between turns of other lanes. -/
theorem zipIdx_split (conv : List (List LaneConv)) (h : n < conv.length) : ∃ l1 c l2, conv.zipIdx = l1 ++ (c, n) :: l2 ∧
    ∀ x ∈ l1 ++ l2, x.2 ≠ n := by
  have hsplit : conv = conv.take n ++ conv[n] :: conv.drop (n + 1) := by simp
  refine ⟨(conv.take n).zipIdx, conv[n], (conv.drop (n + 1)).zipIdx (n + 1), ?_, fun x hx => ?_⟩
  · calc conv.zipIdx = (conv.take n ++ conv[n] :: conv.drop (n + 1)).zipIdx := congrArg List.zipIdx hsplit
      _ = _ := by rw [List.zipIdx_append, List.zipIdx_cons, List.length_take_of_le h.le, Nat.zero_add]
  · obtain hx | hx := List.mem_append.1 hx
    · have hlt := (List.mem_zipIdx hx).2.1
      rw [List.length_take_of_le h.le] at hlt
      omega
    · have hle := (List.mem_zipIdx hx).1
      omega

theorem State.laneTurns_work (s : State) (conv : List (List LaneConv)) (e : Nat) :
    LaneWork (fun _ => True) s (conv.zipIdx.foldl (State.laneTurn e) s) :=
  .foldl (.refl s) fun _ _ _ h => .laneSample trivial h

/-- After all lanes' turns a lane that was OFF has delivered a sample marked OUT. -/
theorem State.laneTurns_off {conv : List (List LaneConv)} (hn : n < 76) (hc : conv.length = 76)
    (hl : s.acq.lanes.length = 76) (hs : s.laneState n = laneOff) (e : Nat) :
    (((conv.zipIdx.foldl (State.laneTurn e) s).lane n).samples.head?.map (·.out)) = some true ∧
      ((conv.zipIdx.foldl (State.laneTurn e) s).lane n).track = (s.lane n).track := by
  obtain ⟨l1, c, l2, hsplit, hother⟩ := zipIdx_split conv (hc ▸ hn)
  have hturns (u : State) (l : List (List LaneConv × Nat)) (hsub : l ⊆ l1 ++ l2) :
      LaneWork (· ≠ n) u (l.foldl (State.laneTurn e) u) :=
    .foldl (.refl u) fun _ x hx h => .laneSample (p := (· ≠ n)) (hother x (hsub hx)) h
  have hbefore := hturns s l1 (List.subset_append_left ..)
  rw [hsplit, List.foldl_append, List.foldl_cons]
  generalize l1.foldl (State.laneTurn e) s = u at hbefore ⊢
  have hafter := hturns (u.laneTurn e (c, n)) l2 (List.subset_append_right ..)
  have hoff : u.laneState n = laneOff := (hbefore.state n hn (by simp)).trans hs
  have hlen : n < u.acq.lanes.length := by rw [hbefore.length, hl]; exact hn
  rw [hafter.lane n (by simp), ← hbefore.lane n (by simp)]
  exact State.laneSample_off hoff hlen e c

/-- A sample is that of an epoch. -/
def State.noteSample (s : State) (e : Nat) : State := { s with acq := { s.acq with sampleAt := some e } }

@[simp] theorem State.noteSample_rd (s : State) (e : Nat) (g : Field) : (s.noteSample e).rd g = s.rd g := rfl
@[simp] theorem State.noteSample_str (s : State) (e : Nat) : (s.noteSample e).str = s.str := rfl
@[simp] theorem State.noteSample_flash (s : State) (e : Nat) : (s.noteSample e).flash = s.flash := rfl

theorem State.noteSample_acq (s : State) (e : Nat) : (s.noteSample e).acq = { s.acq with sampleAt := some e } := rfl

/-- The epoch counter, and the epoch of the last sample, at the next sample. -/
def State.sampleTime (s : State) : State := (s.setEpoch (max s.epoch s.nextSample)).noteSample s.nextSample

theorem State.lanesSample_eq (s : State) (conv : List (List LaneConv)) :
    s.lanesSample conv = (conv.zipIdx.foldl (State.laneTurn s.nextSample) s.sampleTime).refreshAcq := rfl

theorem State.setEpoch_regsOnly {e : Nat} : s.regsOnly (s.setEpoch e) := .wr (.wr (.wr (.refl s)))

theorem State.sampleTime_acq (s : State) : s.sampleTime.acq = { s.acq with sampleAt := some s.nextSample } := by
  rw [State.sampleTime, State.noteSample_acq, State.setEpoch_regsOnly.acq]

theorem State.sampleTime_str (s : State) : s.sampleTime.str = s.str := by
  rw [State.sampleTime, State.noteSample_str, State.setEpoch_regsOnly.str]

theorem State.sampleTime_flash (s : State) : s.sampleTime.flash = s.flash := by
  rw [State.sampleTime, State.noteSample_flash, State.setEpoch_regsOnly.flash]

/-- The epoch counter lies below the lanes' registers, and the window's above them. -/
theorem State.sampleTime_laneState (s : State) (hn : n < 76) : s.sampleTime.laneState n = s.laneState n := by
  obtain ⟨hlow, hhigh⟩ := laneState_within hn
  have hwindow : ∀ f ∈ [Fld.CAL_WINDOW_WINDOW, Fld.CAL_WINDOW_POS], f.apart (Fld.AQ_LANE_STAT_STATE n) = true := by
    have hf : ∀ f ∈ [Fld.CAL_WINDOW_WINDOW, Fld.CAL_WINDOW_POS], 0x200000 ≤ f.addr := by decide
    exact fun f h => Field.apart_of_above (hhigh.trans (hf f h))
  have hepoch : Fld.SYS_EPOCH_EPOCH.apart (Fld.AQ_LANE_STAT_STATE n) = true :=
    Field.apart_of_below (le_trans (by decide) hlow)
  unfold State.sampleTime State.setEpoch State.laneState
  rw [State.noteSample_rd, State.rd_wr_apart _ _ (hwindow _ (by simp)), State.rd_wr_apart _ _ (hwindow _ (by simp)),
    State.rd_wr_apart _ _ hepoch]

/-! ### The bays and the pulse outputs at a sample -/

/-- Nothing but registers and metering differs. -/
def State.metersOnly (s t : State) : Prop := t = { s with regs := t.regs, met := t.met }

theorem State.metersOnly.refl (s : State) : s.metersOnly s := rfl

theorem State.metersOnly.update (h : s0.metersOnly s) {r x} : s0.metersOnly { s with regs := r, met := x } := by
  change ({ s with regs := r, met := x } : State) = { s0 with regs := r, met := x }
  rw [h]

theorem State.metersOnly.wr (h : s0.metersOnly s) {f x} : s0.metersOnly (s.wr f x) := h.update

theorem State.metersOnly.setBay (h : s0.metersOnly s) {b y} : s0.metersOnly (s.setBay b y) := h.update

theorem State.metersOnly.setPulse (h : s0.metersOnly s) {k y} : s0.metersOnly (s.setPulse k y) := h.update

theorem State.metersOnly.ite {c : Prop} [Decidable c] (hs : s0.metersOnly s) (ht : s0.metersOnly t) :
    s0.metersOnly (if c then s else t) := by
  split <;> assumption

theorem State.metersOnly.foldl {α : Type} {f : State → α → State} {l : List α} (h : s0.metersOnly s)
    (hf : ∀ u x, s0.metersOnly u → s0.metersOnly (f u x)) : s0.metersOnly (l.foldl f s) := by
  induction l generalizing s with
  | nil => exact h
  | cons x l ih => exact ih (hf _ x h)

theorem State.metersOnly.dropWindow (h : s0.metersOnly s) {b} : s0.metersOnly (s.dropWindow b) := by
  unfold State.dropWindow
  split
  · exact h
  · exact .wr (.setBay h)

theorem State.metersOnly.setTrack (h : s0.metersOnly s) {b x} : s0.metersOnly (s.setTrack b x) := by
  unfold State.setTrack
  extract_lets _ t1 t2 t3
  have h1 : s0.metersOnly t1 := .wr (.wr h)
  have h2 : s0.metersOnly t2 := .ite (.dropWindow (.wr h1)) h1
  have h3 : s0.metersOnly t3 := .ite (.wr h2) h2
  exact .wr (.wr (.ite (.setBay h3) h3))

theorem State.metersOnly.baySample (h : s0.metersOnly s) {b} : s0.metersOnly (s.baySample b) := by
  unfold State.baySample
  extract_lets
  refine .ite h (.ite (.wr (.wr h)) (.ite ?_ h))
  split
  · exact .setTrack (.setBay h)
  · exact h

theorem State.metersOnly.pulseStep (h : s0.metersOnly s) {k} : s0.metersOnly (s.pulseStep k) := by
  unfold State.pulseStep
  extract_lets _ _ _ _ _ _ _ t
  have ht : s0.metersOnly t := .setPulse h
  exact .ite h (.wr (.ite (.wr ht) ht))

theorem State.outputSample_metersOnly (s : State) (conv : List (List LaneConv)) :
    (s.lanesSample conv).metersOnly (s.outputSample conv) := by
  unfold State.outputSample
  exact .foldl (.foldl (.refl _) fun _ _ h => .baySample h) fun _ _ h => .pulseStep h

theorem State.metersOnly.str (h : s.metersOnly t) : t.str = s.str := by rw [h]

theorem State.metersOnly.flash (h : s.metersOnly t) : t.flash = s.flash := by rw [h]

theorem State.metersOnly.acq (h : s.metersOnly t) : t.acq = s.acq := by rw [h]

/-! ### The statement -/

/-- Beside registers and metering, an output sample is the turns of the lanes. -/
theorem State.outputSample_kept (s : State) (conv : List (List LaneConv)) :
    (s.outputSample conv).acq = (conv.zipIdx.foldl (State.laneTurn s.nextSample) s.sampleTime).acq ∧
      (s.outputSample conv).str = s.str ∧ (s.outputSample conv).flash = s.flash := by
  have hm := s.outputSample_metersOnly conv
  have hw := s.sampleTime.laneTurns_work conv s.nextSample
  rw [State.lanesSample_eq] at hm
  refine ⟨?_, ?_, ?_⟩
  · rw [hm.acq, State.refreshAcq_regsOnly.acq]
  · rw [hm.str, State.refreshAcq_regsOnly.str, hw.str, State.sampleTime_str]
  · rw [hm.flash, State.refreshAcq_regsOnly.flash, hw.flash, State.sampleTime_flash]

/-- An output sample of all lanes, as R50 and R62 say. -/
theorem State.outputSample_spec {conv : List (List LaneConv)} (hc : conv.length = 76) :
    (s.outputSample conv).acq.sampleAt = some s.nextSample ∧ (s.outputSample conv).acq.act = s.acq.act ∧
      (s.acq.lanes.length = 76 → ∀ n, n < 76 → s.laneState n = laneOff →
        (((s.outputSample conv).lane n).samples.head?.map (·.out)) = some true ∧
          ((s.outputSample conv).lane n).track = (s.lane n).track) ∧
      (s.outputSample conv).str = s.str ∧ (s.outputSample conv).flash = s.flash := by
  obtain ⟨hacq, hstr, hflash⟩ := s.outputSample_kept conv
  have hw := s.sampleTime.laneTurns_work conv s.nextSample
  refine ⟨?_, ?_, fun hl n hn hs => ?_, hstr, hflash⟩
  · rw [hacq, hw.sampleAt, State.sampleTime_acq]
  · rw [hacq, hw.act, State.sampleTime_acq]
  · have hlanes : s.sampleTime.acq.lanes = s.acq.lanes := by rw [State.sampleTime_acq]
    have hlane : s.sampleTime.lane n = s.lane n := by rw [State.lane, hlanes, State.lane]
    have hlen : s.sampleTime.acq.lanes.length = 76 := by rw [hlanes, hl]
    obtain ⟨hout, htrack⟩ := State.laneTurns_off hn hc hlen ((s.sampleTime_laneState hn).trans hs) s.nextSample
    rw [State.lane_of_acq hacq]
    exact ⟨hout, htrack.trans (congrArg Lane.track hlane)⟩

theorem exec_laneOutputSample {conv : List (List LaneConv)} (hc : conv.length = 76) (hl : ∀ c ∈ conv, c.length = 32)
    (hr : s.core.running = true) (hq : s.flag Fld.AQ_STATUS_RUN = true) :
    exec (.laneOutputSample conv) s = .next (s.outputSample conv) := by
  change execLaneOutputSample conv s = _
  simpa [execLaneOutputSample, hc, hr, hq] using hl

theorem exec_laneOutputSample_illFormed {conv : List (List LaneConv)} (hc : conv.length ≠ 76) :
    exec (.laneOutputSample conv) s = .fault .illFormed := by
  change execLaneOutputSample conv s = _
  simp [execLaneOutputSample, hc]

/-- Settles O33: one lemma above for each command. That conversions of another number of lanes are ill-formed is the model's
choice (notes/assumptions/9.md). -/
theorem laneCommands : Obligations.LaneCommands := by
  unfold Obligations.LaneCommands
  intro s p conv
  refine ⟨fun hc hl hr hq => ?sample, fun hc => ?shape, fun n hs hc => ?startEnd,
    fun n x hr hx hp hl he hd ho => ?restart, fun hr hb hc => ?capture, fun hb hq => ?boundary⟩
  case sample => exact ⟨_, exec_laneOutputSample hc hl hr hq, State.outputSample_spec hc⟩
  case shape => exact exec_laneOutputSample_illFormed hc
  case startEnd => exact ⟨_, exec_laneStartCountEnd s n, State.laneCountEnd_spec hs hc⟩
  case restart =>
    obtain ⟨hmsb, hindex⟩ := restartWord_fields n
    have hn : n.toNat < s.acq.lanes.length := by
      simp only [State.lanePresent, Bool.and_eq_true, decide_eq_true_eq] at hp
      rw [hl]
      exact hp.1
    refine ⟨_, congrArg Host.Outcome.next (State.host_of_running hr), ?_⟩
    rw [State.wLaneCtrl_restart hx hmsb hindex hp he hd ho]
    exact State.hostRestart_spec hn
  case capture =>
    refine ⟨_, congrArg Host.Outcome.next (State.host_of_running hr), ?_⟩
    rw [State.wMmCtrl_capture hb hc]
    exact ⟨State.flag_wrB_same _ _ _ rfl, State.regsOnly.wrB (.refl s), .wrB (.of_regs rfl)⟩
  case boundary =>
    obtain ⟨hbusy, hvalid, hepoch, hshown, hcleared, hstr⟩ := State.captureBoundary_spec hb hq
    refine ⟨s.captureBoundary, rfl, hbusy, hvalid, hepoch, fun n a b hn ht => ?_, hcleared, hstr⟩
    have hx := hshown n hn
    rw [ht] at hx
    exact hx

end Sys2Proof.Machine
end

section
/-!
The calibrator's pipeline (R75, R76, R80, R85, R94 to R96): what the host's staging session leaves when it ends, a window's end,
an evaluation as work that leaves the sets in force alone, and the switch-over as what it takes from the staged sets.
-/

namespace Sys2Proof.Machine
variable {s0 s t u : State} {n : Nat}

/-! ### Words and fields -/

/-- A write of a field of two words leaves every other word alone. -/
theorem State.keepsWords.wrPair {l : List Nat} {f : Field} {v : Nat} (h : s0.keepsWords s l) (hf : f.words = 2 := by decide)
    (hl : f.addr ∈ l ∧ f.addr + 4 ∈ l := by decide) : s0.keepsWords (s.wr f v) l := fun a ha => by
  rw [← h a ha]
  unfold State.wr State.word
  rw [hf]
  exact (storeGet_storeSet_other (ne_of_mem_of_not_mem hl.2 ha).symm).trans
    (storeGet_storeSet_other (ne_of_mem_of_not_mem hl.1 ha).symm)

theorem State.flag_wr_apart {f g : Field} {v : Nat} (h : f.apart g = true) : (s.wr f v).flag g = s.flag g := by
  unfold State.flag
  rw [State.rd_wr_apart _ _ h]

theorem State.rd_foldl {α : Type} {f : State → α → State} {g : Field} {l : List α}
    (hf : ∀ u, ∀ x ∈ l, (f u x).rd g = u.rd g) : (l.foldl f s).rd g = s.rd g := by
  induction l generalizing s with
  | nil => rfl
  | cons x l ih => exact (ih fun u y hy => hf u y (.tail _ hy)).trans (hf s x (.head _))

theorem State.regsOnly.trans (h : s.regsOnly t) (k : t.regsOnly u) : s.regsOnly u := by
  rw [State.regsOnly, k, h]

theorem State.regsOnly.setChip (h : s.regsOnly t) {v} : s.regsOnly (t.setChip v) := by
  unfold State.setChip
  exact .ite h.wr (.wrB h.wr)

/-! ### The status of the bays (R91) -/

theorem State.refreshProvisional_regsOnly (s : State) : s.regsOnly s.refreshProvisional := by
  unfold State.refreshProvisional
  exact .foldl (.refl s) fun _ _ h => .wrB h

/-- The status of the bays lies apart from the registers of the calibrator. -/
theorem State.rd_refreshProvisional {g : Field} (hg : g.addr + 4 * g.words ≤ 0x300000 := by decide) :
    s.refreshProvisional.rd g = s.rd g := by
  unfold State.refreshProvisional
  refine State.rd_foldl fun u b _ => State.rd_wrB_apart _ _ (Field.apart_of_above (hg.trans ?_))
  simp only [Fld.BAY_STATUS_PROVISIONAL]
  omega

/-! ### The end of a staging session (R94) -/

/-- Nothing but the staged set differs. -/
def State.stagedOnly (s t : State) : Prop := ∃ c, t = { s with acq := { s.acq with staged := c } }

theorem State.unstages_stagedOnly (s : State) (l : List Nat) : s.stagedOnly (l.foldl State.unstage s) := by
  induction l generalizing s with
  | nil => exact ⟨s.acq.staged, rfl⟩
  | cons n l ih =>
    obtain ⟨c, h⟩ := ih (s.unstage n)
    exact ⟨c, h⟩

/-- A staging session that has ended: its lanes are forgotten, what is in force is as before, and RESULT tells why. -/
structure State.StageEnded (s t : State) (result : Nat) : Prop where
  stage : t.flag Fld.CAL_STATUS_HOST_STAGE = false
  result : t.rd Fld.CAL_CMD_RESULT = result % 16
  written : t.acq.written = []
  gcWritten : t.acq.gcWritten = []
  act : t.acq.act = s.acq.act
  led : t.led = s.led
  words : s.keepsWords t [Adr.CAL_CMD, Adr.CAL_STATUS]

theorem State.stageEnd_ended (s : State) (result : Nat) : s.StageEnded (s.stageEnd result) result := by
  obtain ⟨c, h⟩ := s.unstages_stagedOnly s.acq.written
  unfold State.stageEnd
  rw [h]
  refine ⟨?_, State.rd_wr_same .., rfl, rfl, rfl, rfl, .wr (.wrB (.of_regs rfl))⟩
  rw [State.flag_wr_apart (by decide), State.flag_wrB_same _ _ _ rfl]

/-! ### The end of a window (R75, R76) -/

theorem State.keepsWords.setEpoch {l : List Nat} (h : s0.keepsWords s l) {e : Nat}
    (hl : Adr.SYS_EPOCH ∈ l ∧ Adr.SYS_EPOCH + 4 ∈ l := by decide) (hw : Adr.CAL_WINDOW ∈ l := by decide) :
    s0.keepsWords (s.setEpoch e) l :=
  .wr (.wr (.wrPair h rfl hl) rfl hw) rfl hw

theorem State.rd_setEpoch_window (s : State) (e : Nat) :
    (s.setEpoch e).rd Fld.CAL_WINDOW_WINDOW = s.acq.window % 256 := by
  unfold State.setEpoch
  rw [State.rd_wr_apart _ _ (by decide), State.rd_wr_same]
  rfl

theorem State.rd_setEpoch_calStatus (s : State) (e : Nat) {g : Field} (hg : g.addr = Adr.CAL_STATUS)
    (hw : g.words = 1) : (s.setEpoch e).rd g = s.rd g := by
  have ha : g.addr + 4 * g.words ≤ 0x200004 := by
    rw [hg, hw]
    decide
  have he : 0x70 ≤ g.addr := by
    rw [hg]
    decide
  unfold State.setEpoch
  rw [State.rd_wr_apart _ _ (Field.apart_of_above (f := Fld.CAL_WINDOW_POS) ha),
    State.rd_wr_apart _ _ (Field.apart_of_above (f := Fld.CAL_WINDOW_WINDOW) ha),
    State.rd_wr_apart _ _ (Field.apart_of_below (f := Fld.SYS_EPOCH_EPOCH) he)]

/-- A window that has ended: its evaluation begins against the values in force, and the next window collects. -/
structure State.WindowEnded (s t : State) : Prop where
  pipe : t.pipe = pipeEvaluate
  window : t.acq.window = s.acq.window + 1
  evaluating : t.acq.evaluating = s.acq.window
  atEnd : t.acq.atEnd = s.acq.act
  shown : t.rd Fld.CAL_WINDOW_WINDOW = (s.acq.window + 1) % 256
  act : t.acq.act = s.acq.act
  words : s.keepsWords t [Adr.SYS_EPOCH, Adr.SYS_EPOCH + 4, Adr.CAL_WINDOW, Adr.CAL_STATUS]

/-- A window's end aborts a staging session that is open (R94). -/
theorem State.calWindowEnd_ended (hp : s.pipe ≠ pipeOff) : ∃ t, s.WindowEnded t ∧
    s.calWindowEnd = if s.flag Fld.CAL_STATUS_HOST_STAGE then t.stageEnd 5 else t := by
  unfold State.calWindowEnd
  extract_lets k _ a b
  rw [if_neg hp]
  have hstage : b.flag Fld.CAL_STATUS_HOST_STAGE = s.flag Fld.CAL_STATUS_HOST_STAGE := by
    rw [State.flag, State.rd_wr_apart _ _ (by decide), State.rd_setEpoch_calStatus _ _ rfl rfl]
    rfl
  rw [hstage]
  have ha : s.keepsWords a [Adr.SYS_EPOCH, Adr.SYS_EPOCH + 4, Adr.CAL_WINDOW, Adr.CAL_STATUS] := .of_regs rfl
  refine ⟨b, ⟨State.rd_wr_same .., rfl, rfl, rfl, ?_, rfl, ha.setEpoch.wr⟩, rfl⟩
  rw [State.rd_wr_apart _ _ (by decide), State.rd_setEpoch_window]

/-! ### An evaluation (R76, R80 to R84) -/

/-- What an evaluation does not touch: the set in force, the tick it completes in, the ledger and Strata. -/
structure EvalWork (s t : State) : Prop where
  act : t.acq.act = s.acq.act
  stagedTick : t.acq.stagedTick = s.acq.stagedTick
  led : t.led = s.led
  str : t.str = s.str

theorem EvalWork.refl (s : State) : EvalWork s s := ⟨rfl, rfl, rfl, rfl⟩

theorem EvalWork.regs (h : EvalWork s0 s) (ht : s.regsOnly t) : EvalWork s0 t := by
  rw [ht]
  exact ⟨h.act, h.stagedTick, h.led, h.str⟩

theorem EvalWork.wr (h : EvalWork s0 s) {f v} : EvalWork s0 (s.wr f v) := h.regs (.wr (.refl s))

theorem EvalWork.wrB (h : EvalWork s0 s) {f b} : EvalWork s0 (s.wrB f b) := h.wr

theorem EvalWork.drawn (h : EvalWork s0 s) : EvalWork s0 s.drawn := ⟨h.act, h.stagedTick, h.led, h.str⟩

/-- A change of the acquisition's working state beside the set in force and the tick of the evaluation. -/
theorem EvalWork.update (h : EvalWork s0 s) {a : Acq} (ha : a.act = s.acq.act := by rfl)
    (ht : a.stagedTick = s.acq.stagedTick := by rfl) : EvalWork s0 { s with acq := a } :=
  ⟨ha.trans h.act, ht.trans h.stagedTick, h.led, h.str⟩

theorem EvalWork.ite {c : Prop} [Decidable c] (hs : EvalWork s0 s) (ht : EvalWork s0 t) :
    EvalWork s0 (if c then s else t) := by
  split <;> assumption

theorem EvalWork.ite3 {α} {c : Prop} [Decidable c] {x y : State × α} (hs : EvalWork s0 x.1) (ht : EvalWork s0 y.1) :
    EvalWork s0 (if c then x else y).1 := by
  split <;> assumption

theorem EvalWork.foldl3 {α β : Type} {f : State × β → α → State × β} {x : State × β} {l : List α} (h : EvalWork s0 x.1)
    (hf : ∀ u a, EvalWork s0 u.1 → EvalWork s0 (f u a).1) : EvalWork s0 (l.foldl f x).1 := by
  induction l generalizing x with
  | nil => exact h
  | cons a l ih => exact ih (hf _ _ h)

theorem EvalWork.raiseTogether (h : EvalWork s0 s) {es} : EvalWork s0 (s.raiseTogether es) := by
  have hs : Spares s (s.raiseTogether es) := .raiseTogether (.refl s)
  exact ⟨by rw [State.raiseTogether_acq, h.act], by rw [State.raiseTogether_acq, h.stagedTick], hs.led.trans h.led,
    hs.str.trans h.str⟩

theorem EvalWork.notMeasured (h : EvalWork s0 s) : EvalWork s0 (s.notMeasured n) := h.wr

theorem EvalWork.refreshLane (h : EvalWork s0 s) : EvalWork s0 (s.refreshLane n) := h.wrB

theorem EvalWork.acceptCand (h : EvalWork s0 s) {c} : EvalWork s0 (s.acceptCand n c) := by
  unfold State.acceptCand
  extract_lets _ _ _ _ _ _ _ _ _ _ t
  have ht : EvalWork s0 t := .wr (.wr (.wr (.wr (.update h))))
  exact .refreshLane (.wrB (.ite (.wrB ht) ht))

theorem EvalWork.rejectCand (h : EvalWork s0 s) {cause} : EvalWork s0 (s.rejectCand n cause).1 := by
  unfold State.rejectCand
  extract_lets _ _ _ t
  have ht : EvalWork s0 t := .wr (.wr (.wr h))
  exact .ite3 (.refreshLane (.wrB ht)) ht

theorem EvalWork.evaluateLane (h : EvalWork s0 s) : EvalWork s0 (s.evaluateLane n).1 := by
  unfold State.evaluateLane
  extract_lets _ _ t _ t1 _ _ t2 _ t3
  have ht : EvalWork s0 t := .ite (.drawn h) h
  have ht2 : EvalWork s0 t2 := .wrB (.wr ht)
  have ht3 : EvalWork s0 t3 := .ite (.update ht2) ht2
  exact .ite3 (.wr (.notMeasured ht)) (.ite3 (.notMeasured (.wr ht)) (.wrB (.ite3 (.acceptCand ht3) (.rejectCand ht3))))

/-- An evaluation is complete: the lanes that passed wait for the switch-over, and the sets in force are as before. -/
structure State.Evaluated (s t : State) : Prop where
  pipe : t.pipe = if t.acq.accepted.isEmpty then pipeCollect else pipeStaged
  shown : t.rd Fld.CAL_RESULT_WINDOW = s.acq.evaluating % 256
  stagedTick : t.acq.stagedTick = s.core.ticks
  act : t.acq.act = s.acq.act
  str : t.str = s.str
  led : t.led = s.led

/-- The registers of the calibrator lie above the counts of the lanes and below the bays. -/
theorem State.rd_refreshed {g : Field} (hl : Adr.AQ_STATUS < g.addr := by decide)
    (hh : g.addr + 4 * g.words ≤ 0x300000 := by decide) : s.refreshAcq.refreshProvisional.rd g = s.rd g :=
  (State.rd_refreshProvisional hh).trans (State.rd_refreshAcq hl)

theorem State.calEvaluated_evaluated (hp : s.pipe = pipeEvaluate) : s.Evaluated s.calEvaluated := by
  unfold State.calEvaluated
  extract_lets k lanes _ t x t1 result t2 t3 _ t4 t5
  rw [if_neg (not_not_intro hp)]
  have hx : EvalWork t x.1 := .foldl3 (.refl t) fun _ _ h => .evaluateLane h
  have h5 : EvalWork t t5 := .wr (.update (.wr (.wr (.wr (.wr (.raiseTogether hx))))))
  have hpipe : t5.pipe = if t4.acq.accepted.isEmpty then pipeCollect else pipeStaged := by
    refine (State.rd_wr_same ..).trans ?_
    split <;> rfl
  have hshown : t3.rd Fld.CAL_RESULT_WINDOW = k % 256 := State.rd_wr_same ..
  have hr : t5.regsOnly t5.refreshAcq.refreshProvisional :=
    State.refreshAcq_regsOnly.trans (State.refreshProvisional_regsOnly _)
  have h : EvalWork t t5.refreshAcq.refreshProvisional := h5.regs hr
  refine ⟨?_, ?_, h.stagedTick, h.act, h.str, h.led⟩
  · rw [State.pipe, State.rd_refreshed, ← State.pipe, hpipe, hr.acq]
    rfl
  · rw [State.rd_refreshed, State.rd_wr_apart _ _ (by decide)]
    exact hshown

/-! ### The switch-over (R85, R86, R95, R96) -/

theorem coefAt_takeLane (c d : CalSet) (m n : Nat) : coefAt (c.takeLane d m) n = if n = m then coefAt d n else coefAt c n := by
  split
  next h =>
    subst h
    exact storeGet_storeSet_same
  next h => exact storeGet_storeSet_other h

/-- What lanes take is what the other copy holds of them; the other lanes keep theirs. -/
theorem coefAt_takeLanes (c d : CalSet) (l : List Nat) (n : Nat) :
    coefAt (l.foldl (fun m n => m.takeLane d n) c) n = if n ∈ l then coefAt d n else coefAt c n := by
  induction l generalizing c with
  | nil => rfl
  | cons m l ih =>
    rw [List.foldl_cons, ih, coefAt_takeLane]
    by_cases hl : n ∈ l
    · simp [hl]
    · simp [hl, List.mem_cons]

/-- Whether the boundary that began the tick in progress lies after the last evaluation (R76). -/
def State.evalDue (s : State) : Bool := s.pipe = pipeStaged && s.acq.stagedTick < s.core.ticks

/-- Whether that boundary lies after the last commit (R95). -/
abbrev State.commitDue (s : State) : Prop := s.acq.commitTick < s.core.ticks

/-- The lanes accepted, and those committed, that a switch-over takes, and the baseline of a commit that changes scale. -/
def State.dueAccepted (s : State) : List Nat := if s.evalDue then s.acq.accepted else []
def State.dueCommitted (s : State) : List Nat := if s.commitDue then s.acq.committed else []
def State.dueBase (s : State) : Option Word := if s.commitDue then s.acq.newBase else none

/-- What a switch-over puts in force, and what it leaves. -/
structure State.SwitchedOver (s t : State) : Prop where
  pipe : t.pipe = if s.evalDue then pipeCollect else s.pipe
  count : t.rd Fld.CAL_STATUS_SWITCH_CNT = (s.rd Fld.CAL_STATUS_SWITCH_CNT + 1) % 2 ^ 16
  accepted : t.acq.accepted = if s.evalDue then [] else s.acq.accepted
  committed : t.acq.committed = if s.commitDue then [] else s.acq.committed
  newBase : t.acq.newBase = if s.commitDue then none else s.acq.newBase
  base : t.acq.base = if s.dueBase.isSome then s.dueBase else s.acq.base
  prev : t.acq.prev = s.acq.act
  switchAt : t.acq.switchAt = s.core.tickEpoch
  act : ∀ n, coefAt t.acq.act n = if n ∈ s.dueCommitted then coefAt s.acq.commitSet n else
    if n ∈ s.dueAccepted then coefAt s.acq.staged n else coefAt s.acq.act n
  exempt : ∀ n ∈ s.dueCommitted, n ∉ s.dueAccepted → n ∈ t.acq.exempt
  led : t.led = s.led
  str : t.str = s.str

theorem State.calFull_regsOnly (s : State) : s.regsOnly s.calFull := by
  unfold State.calFull
  extract_lets t
  have ht : s.regsOnly t := .wrB (.refl s)
  exact .ite (.ite (.setChip ht) ht) (.refl s)

/-- The chip state, and its interrupt cause, lie apart from the registers of the calibrator. -/
theorem State.rd_calFull {g : Field} (hf : Fld.CAL_STATUS_FULL.apart g = true := by decide)
    (hg : Adr.SYS_IRQ_STAT + 4 ≤ g.addr := by decide) : s.calFull.rd g = s.rd g := by
  have hs : Fld.SYS_STATUS_STATE.apart g = true := Field.apart_of_below (le_trans (by decide) hg)
  have hi : Fld.SYS_IRQ_STAT_STATE.apart g = true := Field.apart_of_below hg
  unfold State.calFull
  extract_lets t
  have ht : t.rd g = s.rd g := State.rd_wrB_apart _ _ hf
  split
  · split
    · exact (State.rd_setChip_apart _ hs hi).trans ht
    · exact ht
  · rfl

/-- The registers of a switch-over: SWITCH_CNT, its interrupt cause, PIPE where an evaluation was due, and the state FULL. -/
def State.switchShown (s : State) (due : Bool) : State :=
  let t := (s.wrap Fld.CAL_STATUS_SWITCH_CNT).irq Fld.SYS_IRQ_STAT_CAL
  (if due then t.wr Fld.CAL_STATUS_PIPE pipeCollect else t).calFull.refreshProvisional

theorem State.switchShown_regsOnly (s : State) (due : Bool) : s.regsOnly (s.switchShown due) := by
  unfold State.switchShown
  extract_lets t
  have ht : s.regsOnly t := .wrB (.wr (.refl s))
  exact State.regsOnly.trans (.ite (.wr ht) ht) ((State.calFull_regsOnly _).trans (State.refreshProvisional_regsOnly _))

theorem State.switchShown_pipe (s : State) (due : Bool) :
    (s.switchShown due).pipe = if due then pipeCollect else s.pipe := by
  unfold State.switchShown State.pipe State.irq State.wrap
  dsimp only
  rw [State.rd_refreshProvisional, State.rd_calFull]
  split
  · exact State.rd_wr_same ..
  · rw [State.rd_wrB_apart _ _ (by decide), State.rd_wr_apart _ _ (by decide)]

theorem State.switchShown_count (s : State) (due : Bool) :
    (s.switchShown due).rd Fld.CAL_STATUS_SWITCH_CNT = (s.rd Fld.CAL_STATUS_SWITCH_CNT + 1) % 2 ^ 16 := by
  have ht : ((s.wrap Fld.CAL_STATUS_SWITCH_CNT).irq Fld.SYS_IRQ_STAT_CAL).rd Fld.CAL_STATUS_SWITCH_CNT =
      (s.rd Fld.CAL_STATUS_SWITCH_CNT + 1) % 2 ^ 16 := by
    rw [State.rd_irq_apart _ (by decide), State.rd_wrap_same, Fld.CAL_STATUS_SWITCH_CNT]
  unfold State.switchShown
  dsimp only
  rw [State.rd_refreshProvisional, State.rd_calFull]
  split
  · rw [State.rd_wr_apart _ _ (by decide), ht]
  · exact ht

/-- A commit that changes scale makes the scale of every lane present valid (R95). -/
def State.scaleShown (s : State) : State :=
  (List.range 76).foldl (fun s n => if s.lanePresent n then s.wrB (Fld.CAL_LANE_STAT_SCALE_VALID n) true else s) s

theorem State.scaleShown_regsOnly (s : State) : s.regsOnly s.scaleShown := by
  unfold State.scaleShown
  exact .foldl (.refl s) fun _ _ h => .ite (.wrB h) h

/-- The lanes' status lies above CAL_STATUS. -/
theorem State.rd_scaleShown {g : Field} (hg : g.addr + 4 * g.words ≤ 0x200100 := by decide) :
    s.scaleShown.rd g = s.rd g := by
  unfold State.scaleShown
  refine State.rd_foldl fun u n _ => ?_
  split
  · exact State.rd_wrB_apart _ _ (Field.apart_of_above (hg.trans (Nat.le_add_right ..)))
  · rfl

/-- A switch-over that has something to take, of a device that is not FROZEN. -/
theorem State.calSwitchOver_switched (hf : s.chip ≠ chipFrozen) (h : s.dueAccepted ≠ [] ∨ s.dueCommitted ≠ []) :
    s.SwitchedOver s.calSwitchOver := by
  unfold State.calSwitchOver
  extract_lets due _ mine host newBase a _ _ t t1
  have hmine : mine = s.dueAccepted := rfl
  have hhost : host = s.dueCommitted := rfl
  have hsome : ¬(mine.isEmpty && host.isEmpty && newBase.isNone) = true := by
    rw [hmine, hhost]
    simp only [Bool.and_eq_true, List.isEmpty_iff]
    tauto
  rw [if_neg hf, if_neg hsome]
  change s.SwitchedOver (t1.switchShown due)
  have ht1 : t1 = if newBase.isSome then t.scaleShown else t := rfl
  have hregs : t.regsOnly (t1.switchShown due) := by
    refine State.regsOnly.trans ?_ (State.switchShown_regsOnly t1 due)
    rw [ht1]
    exact .ite t.scaleShown_regsOnly (.refl t)
  have hrd {g : Field} (hg : g.addr + 4 * g.words ≤ 0x200100) : t1.rd g = s.rd g := by
    rw [ht1]
    split
    · exact State.rd_scaleShown hg
    · rfl
  have hacq : (t1.switchShown due).acq = t.acq := hregs.acq
  exact {
    pipe := by
      rw [State.switchShown_pipe, State.pipe, hrd (by decide)]
      rfl
    count := by rw [State.switchShown_count, hrd (by decide)]
    accepted := congrArg Acq.accepted hacq
    committed := congrArg Acq.committed hacq
    newBase := congrArg Acq.newBase hacq
    base := congrArg Acq.base hacq
    prev := congrArg Acq.prev hacq
    switchAt := congrArg Acq.switchAt hacq
    act n := by
      have hact : (t1.switchShown due).acq.act = host.foldl (fun m n => m.takeLane a.commitSet n)
          (mine.foldl (fun m n => m.takeLane a.staged n) a.act) := congrArg Acq.act hacq
      rw [hact, coefAt_takeLanes, coefAt_takeLanes, hmine, hhost]
    exempt n hn hm := by
      have hexempt : (t1.switchShown due).acq.exempt = a.exempt.filter (· ∉ mine) ++ host.filter (· ∉ a.exempt) :=
        congrArg Acq.exempt hacq
      rw [hexempt, hmine, hhost]
      simp only [List.mem_append, List.mem_filter, decide_eq_true_eq]
      tauto
    led := hregs.led
    str := hregs.str }

/-- Without an evaluation that is due and without a commit that is due, a switch-over does nothing. -/
theorem State.calSwitchOver_notDue (he : s.evalDue = false) (hc : s.dueCommitted = []) (hb : s.dueBase = none) :
    s.calSwitchOver = s := by
  unfold State.calSwitchOver
  extract_lets due _ mine host newBase
  have hmine : mine = [] := if_neg (ne_true_of_eq_false he)
  have hhost : host = [] := hc
  have hbase : newBase = none := hb
  have hdue : due = false := he
  simp [hmine, hhost, hbase, hdue]

/-! ### The statement -/

/-- Settles O34: `State.calWindowEnd_ended`, `State.calEvaluated_evaluated` and `State.calSwitchOver_switched`. -/
theorem calibratorPipeline : Obligations.CalibratorPipeline := by
  unfold Obligations.CalibratorPipeline
  refine ⟨fun s hp hs => ?window, fun s hp hs => ?staging, fun s hp => ?evaluated, fun s hp ht ha hc hb hf => ?switch,
    fun s hp hc ht hf => ?committed, fun s hp ht hc hb => ?notDue⟩
  case window =>
    obtain ⟨t, h, ht⟩ := State.calWindowEnd_ended hp
    rw [hs] at ht
    exact ⟨t, congrArg Host.Outcome.next ht, h.pipe, h.window, h.evaluating, h.atEnd, h.shown, h.act, h.words⟩
  case staging =>
    obtain ⟨t, h, ht⟩ := State.calWindowEnd_ended hp
    have hend := t.stageEnd_ended 5
    rw [hs] at ht
    exact ⟨t.stageEnd 5, congrArg Host.Outcome.next ht, hend.stage, hend.result, hend.written, hend.act.trans h.act⟩
  case evaluated =>
    have h := State.calEvaluated_evaluated hp
    exact ⟨s.calEvaluated, rfl, h.pipe, h.shown, h.stagedTick, h.act, h.str, h.led⟩
  case switch =>
    have hdue : s.evalDue = true := by simp [State.evalDue, hp, ht]
    have hmine : s.dueAccepted = s.acq.accepted := if_pos hdue
    have hhost : s.dueCommitted = [] := by rw [State.dueCommitted, hc, ite_self]
    have h := State.calSwitchOver_switched hf (.inl (hmine ▸ ha))
    refine ⟨s.calSwitchOver, rfl, ?_, ?_, h.prev, h.switchAt, h.count, fun n => ?_, h.led, h.str⟩
    · rw [h.pipe, if_pos hdue]
    · rw [h.accepted, if_pos hdue]
    · rw [h.act, hhost, if_neg List.not_mem_nil, hmine]
  case committed =>
    have hdue : s.evalDue = false := by simp [State.evalDue, hp, pipeCollect, pipeStaged]
    have hmine : s.dueAccepted = [] := if_neg (ne_true_of_eq_false hdue)
    have hhost : s.dueCommitted = s.acq.committed := if_pos ht
    have hbase : s.dueBase = s.acq.newBase := if_pos ht
    have h := State.calSwitchOver_switched hf (.inr (hhost ▸ hc))
    refine ⟨s.calSwitchOver, rfl, ?_, ?_, ?_, ?_, h.switchAt, fun n => ?_, fun n hn => ?_, h.led, h.str⟩
    · rw [h.pipe, hdue]
      exact hp
    · rw [h.committed, if_pos ht]
    · rw [h.newBase, if_pos ht]
    · rw [h.base, hbase]
    · rw [h.act, hhost, hmine, if_neg (List.not_mem_nil (a := n))]
    · exact h.exempt n (hhost ▸ hn) (hmine ▸ List.not_mem_nil)
  case notDue =>
    have hdue : s.evalDue = false := by simp [State.evalDue, ht]
    have hhost : s.dueCommitted = [] := by rw [State.dueCommitted, hc, ite_self]
    have hbase : s.dueBase = none := by rw [State.dueBase, hb, ite_self]
    exact congrArg Host.Outcome.next (State.calSwitchOver_notDue hdue hhost hbase)

end Sys2Proof.Machine
end

section
/-!
The staging session (R94, R95), REBASE (R84) and the calibrator's data register: what a command's transaction leaves beside the
ledger and the state it commits; the writes of CAL_CMD, each as its effect; a commit as what it stages for the switch-over.
-/

namespace Sys2Proof.Machine
variable {s t u : State} {p : Path} {n : Nat}

/-! ### What a command's transaction leaves -/

/-- The acquisition region and the access paths are as before. -/
structure Beside (s t : State) : Prop where
  acq : t.acq = s.acq
  path : ∀ p, t.path p = s.path p

theorem Beside.refl (s : State) : Beside s s := ⟨rfl, fun _ => rfl⟩

theorem Beside.trans (h : Beside s t) (k : Beside t u) : Beside s u :=
  ⟨k.acq.trans h.acq, fun p => (k.path p).trans (h.path p)⟩

theorem Beside.of_parts (ha : t.acq = s.acq := by rfl) (hs : t.spi = s.spi := by rfl) (hd : t.drega = s.drega := by rfl) :
    Beside s t :=
  ⟨ha, fun p => match p with
    | .spi => hs
    | .drega => hd⟩

theorem Beside.regs (h : Beside s t) (hu : t.regsOnly u) : Beside s u := by
  rw [hu]
  exact h.trans .of_parts

theorem Beside.wr (h : Beside s t) {f v} : Beside s (t.wr f v) := h.regs (.wr (.refl t))

theorem Beside.wrB (h : Beside s t) {f b} : Beside s (t.wrB f b) := h.wr

theorem Beside.count (h : Beside s t) {f n} : Beside s (t.count f n) := h.wr

theorem Beside.ite {c : Prop} [Decidable c] (ht : Beside s t) (hu : Beside s u) : Beside s (if c then t else u) := by
  split <;> assumption

theorem Beside.maybeCompact (h : Beside s t) : Beside s t.maybeCompact := by
  unfold State.maybeCompact
  exact .ite (.wrB (h.trans .of_parts)) h

theorem Beside.copyDone (h : Beside s t) : Beside s t.copyDone := by
  unfold State.copyDone
  split
  · exact h
  next c cs _ =>
    have hu : Beside s { t with str := copyHome t.fuses.uid t.str c.entry, led := { t.led with copies := cs } } :=
      h.trans .of_parts
    exact .maybeCompact (.wr (.wr (.wrB (.ite (.count hu) hu))))

theorem Beside.iterate {f : State → State} (h : Beside s t) (hf : ∀ u, Beside s u → Beside s (f u)) (n : Nat) :
    Beside s (Nat.iterate f n t) := by
  induction n generalizing t with
  | zero => exact h
  | succ n ih => exact ih (hf t h)

theorem Beside.snapDone (h : Beside s t) : Beside s t.snapDone := by
  unfold State.snapDone
  exact .iterate h (fun _ hu => .ite (.copyDone hu) hu) _

theorem Beside.markBank (h : Beside s t) {f : BankFail} : Beside s (t.markBank f) := by
  unfold State.markBank
  extract_lets _ _ _ t2 _ t3 _ _ t6
  have h3 : Beside s t3 := .wr (.wr (.wr (h.trans .of_parts)))
  have h6 : Beside s t6 := .wr (.wr (.ite (.count h3) h3))
  exact .ite (.wr h6) (.ite (.wr h6) h6)

theorem Beside.raise (h : Beside s t) {code source payload} : Beside s (t.raise code source payload) :=
  h.trans (.of_parts (by simp) (by simp) (by simp))

/-- A failure of one bank of the ledger's area while both work reaches no further than the ledger (R237). -/
theorem Beside.bankFail (h : s.twoCopies) (i : Fin 2) (c : BitVec 4) :
    Beside s (s.bankFail { bank := Fin.ofNat 16 i.val, cause := c }) := by
  have ha : (areaOf (Fin.ofNat 16 i.val).val).1 = 0 := by revert i; decide
  by_cases hf : Fin.ofNat 16 i.val ∈ s.str.failed
  · rw [State.bankFail, if_pos hf]
    exact .refl s
  by_cases hc : c = 0
  · rw [State.bankFail, if_neg hf, if_pos hc]
    exact .count (.count (.refl s))
  · rw [State.bankFail_of_alive ha hf hc (s.markBank_alive h i c)]
    exact .raise (.markBank (.refl s))

theorem Beside.meetFault (h : s.twoCopies) : Beside s s.meetFault := by
  unfold State.meetFault
  split
  · exact .refl s
  · exact .bankFail h _ _

theorem Beside.commitTxn (h : Beside s t) {us x} : Beside s (t.commitTxn us x) := by
  unfold State.commitTxn
  exact .maybeCompact (.wr (.wr (.wrB (.wr (.wr (.wr (h.trans .of_parts)))))))

theorem Beside.showLive (h : Beside s t) : Beside s t.showLive := by
  have hr : Beside t { t with led := { t.led with live := t.led.com } }.refresh := .regs .of_parts (State.refresh_regsOnly _)
  exact h.trans (hr.trans .of_parts)

theorem Beside.command (h : s.canCommit) (kind : Nat) (f : Build → Build) : Beside s (s.command kind f).2 := by
  obtain ⟨-, ⟨h0, h1⟩, -, hq⟩ := h
  obtain ⟨-, hf⟩ := s.snapDone_kept
  have h2 : s.snapDone.twoCopies := ⟨(copyFailed_congr hf 0 0).trans h0, (copyFailed_congr hf 0 1).trans h1⟩
  have hd : s.drain = s := by simp [State.drain, hq]
  have hu : Beside s s.snapDone.meetFault := .trans (.snapDone (.refl s)) (.meetFault h2)
  unfold State.command
  rw [hd]
  split
  · exact .refl s
  extract_lets w _
  split
  · exact hu.trans .of_parts
  · exact .trans (.showLive (.commitTxn hu)) .of_parts

/-! ### The state a command's transaction commits -/

/-- The last entry of a transaction states the state its build has come to. -/
theorem applyTxn_txn_st (l : Ledger) (b : Build) (kind : Nat) (act : TxnAct) (q : BitVec 32) :
    (applyTxn l ((b.txn kind act).number q)).st = b.img.st := by
  simp [applyTxn, Txn.number, Build.txn, Build.add, withTseq, applyEntry]

/-- A command's transaction of a number of Audit Trail entries advances ASEQ by that number (R261). -/
theorem State.command_aseq (h : s.canCommit) (kind : Nat) {f : Build → Build} {k : BitVec 32}
    (hf : ∀ b, (f b).img.st.aseq = b.img.st.aseq + k) :
    (s.command kind f).1 = true ∧ (s.command kind f).2.led.com.st.aseq = s.led.com.st.aseq + k := by
  obtain ⟨u, hu, hc⟩ := s.command_of_canCommit h kind f
  rw [hc]
  refine ⟨rfl, ?_⟩
  rw [State.drawn_led, State.showLive_com, State.commitTxn_com, applyTxn_txn_st, hf, ← hu.com]
  rfl

theorem State.canCommit.wr (h : s.canCommit) {f : Field} {v : Nat}
    (hf : f.apart Fld.SYS_STATUS_STATE = true := by decide) : (s.wr f v).canCommit := by
  obtain ⟨hok, htwo, hrest⟩ := h
  exact ⟨(LedgerKept.wr (.refl s) hf).ledgerOk hok htwo.alive, htwo, hrest⟩

theorem State.canCommit.disarm (h : s.canCommit) (cmd : Nat) : (s.disarm p cmd).canCommit := by
  cases p <;> exact h

/-! ### The gate of a write that uses up an authorisation -/

theorem State.disarm_session (s : State) (p : Path) (cmd : Nat) : (s.disarm p cmd).session p = s.session p := by
  cases p <;> rfl

theorem State.disarm_gate (s : State) (p : Path) (cmd roles : Nat) (lock : Bool) :
    (s.disarm p cmd).gate p roles lock = s.gate p roles lock := by
  have hl : (s.disarm p cmd).locked = s.locked := by
    unfold State.locked State.flag
    rw [State.rd_of_regs (State.disarm_regs p cmd)]
  unfold State.gate
  rw [State.disarm_session, hl]

/-- No authorisation of a command is armed on a path that has none (R276). -/
theorem State.armedFor_disarmed {cmd : Nat} {x : List Byte}
    (h : (t.path p).armed = (s.path p).armed.filter fun a => a.cmd ≠ cmd) : t.armedFor p cmd x = none := by
  unfold State.armedFor
  rw [h, List.find?_eq_none]
  intro a ha
  have hne : a.cmd ≠ cmd := by simpa using (List.mem_filter.1 ha).2
  simp [hne]

/-! ### The tests of a commit (R95) -/

theorem bitsOf_bitsOf {v w l k : Nat} (h : l + k ≤ w) : bitsOf (bitsOf v 0 w) l k = bitsOf v l k := by
  obtain ⟨e, rfl⟩ := Nat.exists_eq_add_of_le h
  unfold bitsOf
  rw [pow_zero, Nat.div_one, pow_add, pow_add, mul_assoc, Nat.mod_mul_right_div_self, Nat.mod_mul_right_mod]

/-- A larger fine gain only widens the limits of the coefficients. -/
theorem rangeCause_mono {g k : Nat} {c : Cand} (hg : g ≤ k) (h : rangeCause g c = 0) : rangeCause k c = 0 := by
  unfold rangeCause at h ⊢
  split at h
  · exact absurd h (by decide)
  next h1 =>
  split at h
  · exact absurd h (by decide)
  next h2 =>
  split at h
  · exact absurd h (by decide)
  next h3 =>
  split at h
  · exact absurd h (by decide)
  next h4 =>
  rw [if_neg h1, if_neg h2, if_neg h3, if_neg ?_]
  · exact h
  · have hk : 2048 * g ≤ 2048 * k := Nat.mul_le_mul_left _ hg
    simp only [Bool.or_eq_true, Bool.and_eq_true, decide_eq_true_eq] at h4 ⊢
    rintro (hc | ⟨hr, hf⟩)
    · exact h4 (.inl hc)
    · exact h4 (.inr ⟨hr, hk.trans_lt hf⟩)

theorem State.commitCause_passes (ha : t.acq = s.acq) (hg : s.fineGain n ≤ t.fineGain n)
    (hv : t.flag (Fld.CAL_LANE_STAT_SCALE_VALID n) = s.flag (Fld.CAL_LANE_STAT_SCALE_VALID n))
    (h : s.commitCause n = 0) : t.commitCause n = 0 := by
  simp only [State.commitCause, State.inForce, ha, hv, ne_eq, ite_not] at h ⊢
  split at h
  next hr =>
    rw [if_pos (rangeCause_mono hg hr)]
    exact h
  next hr => exact absurd h hr

/-- CAL_CMD with its lane cleared sets no setting of a lane's fine gain: a number that is no lane's may give CAL_CMD itself as
the word of its setting. -/
theorem State.flag_laneCleared (h : (s.wr Fld.CAL_CMD_LANE 0).flag (Fld.AQ_LANE_CFG_FINE_GAIN n) = true) :
    s.flag (Fld.AQ_LANE_CFG_FINE_GAIN n) = true := by
  have hw : (Fld.AQ_LANE_CFG_FINE_GAIN n).words = 1 := by simp [Field.words, Fld.AQ_LANE_CFG_FINE_GAIN]
  by_cases haddr : (Fld.AQ_LANE_CFG_FINE_GAIN n).addr = Adr.CAL_CMD
  · have hrd (u : State) : u.rd (Fld.AQ_LANE_CFG_FINE_GAIN n) = bitsOf (u.rd Fld.CAL_CMD_LANE) 4 1 := by
      unfold State.rd
      rw [hw, haddr]
      exact (bitsOf_bitsOf (by decide : 4 + 1 ≤ 7)).symm
    have h0 : (s.wr Fld.CAL_CMD_LANE 0).rd (Fld.AQ_LANE_CFG_FINE_GAIN n) = 0 := by
      rw [hrd, State.rd_wr_same]
      rfl
    simp [State.flag, h0] at h
  · have ha : Fld.CAL_CMD_LANE.apart (Fld.AQ_LANE_CFG_FINE_GAIN n) = true := by
      refine Field.apart_of_ne rfl hw ?_
      simp only [Fld.AQ_LANE_CFG_FINE_GAIN, Fld.CAL_CMD_LANE, Adr.CAL_CMD] at haddr ⊢
      omega
    rwa [State.flag_wr_apart ha] at h

theorem State.fineGain_laneCleared (s : State) (n : Nat) : s.fineGain n ≤ (s.wr Fld.CAL_CMD_LANE 0).fineGain n := by
  unfold State.fineGain
  by_cases h : (s.wr Fld.CAL_CMD_LANE 0).flag (Fld.AQ_LANE_CFG_FINE_GAIN n) = true
  · rw [if_pos h, if_pos (State.flag_laneCleared h)]
  · rw [if_neg h]
    exact Nat.div_le_div_left (by split <;> decide) Nat.one_pos

/-- The status of the lanes lies above CAL_CMD. -/
theorem calCmd_below_laneStat {f g : Field} (hf : f.addr = Adr.CAL_CMD := by rfl) (hw : f.words = 1 := by decide)
    (hg : Adr.CAL_LANE_STAT 0 ≤ g.addr) : f.apart g = true := by
  refine Field.apart_of_below (le_trans ?_ hg)
  rw [hf, hw]
  decide

/-- The state in which CAL_CMD's command of a commit is carried out: its authorisation used up, its lane shown. -/
def State.commitTaken (s : State) (p : Path) : State := (s.disarm p 0x0040).wr Fld.CAL_CMD_LANE 0

theorem State.commitTaken_acq (s : State) (p : Path) : (s.commitTaken p).acq = s.acq := by
  cases p <;> rfl

theorem State.commitTaken_armed (s : State) (p : Path) :
    ((s.commitTaken p).path p).armed = (s.path p).armed.filter fun a => a.cmd ≠ 0x0040 := by
  cases p <;> rfl

theorem State.commitTaken_commitCause (h : s.commitCause n = 0) : (s.commitTaken p).commitCause n = 0 := by
  have hrd (g : Field) : (s.commitTaken p).rd g = (s.wr Fld.CAL_CMD_LANE 0).rd g := by
    cases p <;> rfl
  refine State.commitCause_passes (s.commitTaken_acq p) ?_ ?_ h
  · have hgain : (s.commitTaken p).fineGain n = (s.wr Fld.CAL_CMD_LANE 0).fineGain n := by
      cases p <;> rfl
    rw [hgain]
    exact s.fineGain_laneCleared n
  · rw [State.flag, hrd, ← State.flag, State.flag_wr_apart (calCmd_below_laneStat (hg := Nat.le_add_right ..))]

/-! ### A commit (R95) -/

/-- The lanes whose gc a commit changes. -/
def State.scaledLanes (s : State) : List Nat :=
  s.acq.written.filter fun n => (coefAt s.acq.staged n).gc ≠ (s.inForce n).gc

/-- A committed staging session: its lanes wait for the switch-over with the values staged, what is in force is as before, and
the ledger holds an Audit Trail entry, with a second one where the scale changes. -/
structure State.StageCommitted (s t : State) : Prop where
  stage : t.flag Fld.CAL_STATUS_HOST_STAGE = false
  result : t.rd Fld.CAL_CMD_RESULT = 1
  lanes : ∀ n ∈ s.acq.written, n ∈ t.acq.committed
  values : ∀ n ∈ s.acq.written, coefAt t.acq.commitSet n = coefAt s.acq.staged n
  act : t.acq.act = s.acq.act
  newBase : s.scaledLanes ≠ [] → t.acq.newBase = some (s.acq.tickRatio.getD (BitVec.ofNat 32 s.openWord))
  tickRatio : s.scaledLanes ≠ [] → t.acq.tickRatio = t.acq.newBase
  aseq : t.led.com.st.aseq = s.led.com.st.aseq + if s.scaledLanes.isEmpty then 1 else 2

theorem State.stageCommit_committed (hc : s.canCommit) (hw : ∀ n ∈ s.acq.written, s.commitCause n = 0)
    (roles keys : BitVec 8) : s.StageCommitted (s.stageCommit roles keys) ∧
      ∀ p, (s.stageCommit roles keys).path p = s.path p := by
  unfold State.stageCommit
  extract_lets a bad scaled base gcs x u all _ t
  have hbad : bad = [] := List.filter_eq_nil_iff.2 fun n hn => by simp [hw n hn]
  have hscaled : scaled = s.scaledLanes := rfl
  have hx : x.1 = true ∧ x.2.led.com.st.aseq = s.led.com.st.aseq + if scaled.isEmpty then 1 else 2 :=
    State.command_aseq hc _ fun b => by
      dsimp only
      split
      · rfl
      · exact add_assoc (b.img.st.aseq) 1 1
  obtain ⟨hdone, haseq⟩ := hx
  have hx2 : Beside s x.2 := .command hc _ _
  have hu : Beside s u := .ite hx2 (hx2.trans .of_parts)
  have hled : u.led = x.2.led := by
    unfold u
    split <;> rfl
  rw [hbad, hdone]
  have hchanges (h : s.scaledLanes ≠ []) : ¬scaled.isEmpty = true := by simpa [hscaled] using h
  have hact : u.acq.act = s.acq.act := by rw [hu.acq]
  have hall : ∀ n ∈ s.acq.written, n ∈ all := fun n hn => by
    by_cases h : n ∈ u.acq.committed
    · exact List.mem_append_left _ h
    · exact List.mem_append_right _ (List.mem_filter.2 ⟨hn, decide_eq_true h⟩)
  change s.StageCommitted ((t.wrB Fld.CAL_STATUS_HOST_STAGE false).wr Fld.CAL_CMD_RESULT 1) ∧ _
  refine ⟨?_, hu.path⟩
  exact {
    stage := by rw [State.flag_wr_apart (by decide), State.flag_wrB_same _ _ _ rfl]
    result := State.rd_wr_same ..
    lanes := hall
    values n hn := (coefAt_takeLanes u.acq.commitSet a.staged a.written n).trans (if_pos hn)
    act := hact
    newBase h := if_neg (hchanges h)
    tickRatio h := (if_neg (hchanges h)).trans (if_neg (hchanges h)).symm
    aseq := (congrArg (·.com.st.aseq) hled).trans haseq }

/-- The commit of a session through CAL_CMD, which uses up the authorisation on its path. -/
theorem State.commitTaken_committed (p : Path) (hc : s.canCommit) (hw : ∀ n ∈ s.acq.written, s.commitCause n = 0)
    (roles keys : BitVec 8) : s.StageCommitted ((s.commitTaken p).stageCommit roles keys) ∧
      (((s.commitTaken p).stageCommit roles keys).path p).armed = (s.path p).armed.filter fun a => a.cmd ≠ 0x0040 := by
  have hc' : (s.commitTaken p).canCommit := (hc.disarm 0x0040).wr
  have hw' : ∀ n ∈ (s.commitTaken p).acq.written, (s.commitTaken p).commitCause n = 0 := fun n hn =>
    State.commitTaken_commitCause (hw n (s.commitTaken_acq p ▸ hn))
  obtain ⟨h, hpath⟩ := State.stageCommit_committed hc' hw' roles keys
  refine ⟨?_, by rw [hpath, State.commitTaken_armed]⟩
  cases p <;> exact ⟨h.stage, h.result, h.lanes, h.values, h.act, h.newBase, h.tickRatio, h.aseq⟩

/-! ### The writes of CAL_CMD (R84, R94, R95) -/

/-- The Audit Trail entry of a REBASE of a lane (R84). -/
def rebaseBuild (x : Session) (n : Nat) : Build → Build := fun b => b.audit 0x03 x.role (keysOne x.key) (beBytes 1 n)

section
variable {v : Word} {x : Session} (hx : s.gate p roleService true = .pass x) (hl : bitsOf v.toNat 0 7 = n)
include hx hl

theorem State.wCalCmd_open (hv : bitsOf v.toNat 28 4 = 1) (hp : s.pipe = pipeCollect)
    (hw : s.rd Fld.CAL_WINDOW_POS ≤ 12681216) (hs : s.flag Fld.CAL_STATUS_HOST_STAGE = false) :
    (s.wCalCmd p v).2 = ((s.wr Fld.CAL_CMD_LANE n).wrB Fld.CAL_STATUS_HOST_STAGE true).wr Fld.CAL_CMD_RESULT 1 := by
  have hp' : (s.wr Fld.CAL_CMD_LANE n).pipe = pipeCollect := (State.rd_wr_apart _ _ (by decide)).trans hp
  have hw' : ¬16777216 - (s.wr Fld.CAL_CMD_LANE n).rd Fld.CAL_WINDOW_POS < 4096000 := by
    rw [State.rd_wr_apart _ _ (by decide)]
    omega
  have hs' : (s.wr Fld.CAL_CMD_LANE n).flag Fld.CAL_STATUS_HOST_STAGE = false := by
    rw [State.flag_wr_apart (by decide), hs]
  simp [State.wCalCmd, hv, hl, hx, hp', hs', hw']

theorem State.wCalCmd_abort (hv : bitsOf v.toNat 28 4 = 3) (hs : s.flag Fld.CAL_STATUS_HOST_STAGE = true) :
    (s.wCalCmd p v).2 = (s.wr Fld.CAL_CMD_LANE n).stageEnd 1 := by
  have hs' : (s.wr Fld.CAL_CMD_LANE n).flag Fld.CAL_STATUS_HOST_STAGE = true := by
    rw [State.flag_wr_apart (by decide), hs]
  simp [State.wCalCmd, hv, hl, hx, hs']

/-- REBASE commits an Audit Trail entry of its lane and marks the lane. -/
theorem State.wCalCmd_rebase (hv : bitsOf v.toNat 28 4 = 4) (hp : s.lanePresent n = true) (hc : s.canCommit) :
    ∃ t : State, (s.wCalCmd p v).2 = (t.wrB (Fld.CAL_LANE_STAT_REBASE_PEND n) true).wr Fld.CAL_CMD_RESULT 1 ∧
      t.acq = s.acq ∧ t.led.com.st.aseq = s.led.com.st.aseq + 1 := by
  have hp' : (s.wr Fld.CAL_CMD_LANE n).lanePresent n = true := hp
  have hc' : (s.wr Fld.CAL_CMD_LANE n).canCommit := hc.wr
  obtain ⟨hdone, haseq⟩ := State.command_aseq hc' 0x06 (f := rebaseBuild x n) (k := 1) fun _ => rfl
  have hacq := (Beside.command hc' 0x06 (rebaseBuild x n)).acq
  unfold rebaseBuild at hdone haseq hacq
  refine ⟨_, ?_, hacq, haseq⟩
  simp [State.wCalCmd, hv, hl, hx, hp', hdone]

end

theorem State.commitTaken_stage (s : State) (p : Path) :
    (s.commitTaken p).flag Fld.CAL_STATUS_HOST_STAGE = s.flag Fld.CAL_STATUS_HOST_STAGE := by
  unfold State.commitTaken State.flag
  rw [State.rd_wr_apart _ _ (by decide), State.rd_of_regs (State.disarm_regs p _)]

/-- A commit of values whose scale has not been written needs the session's role alone. -/
theorem State.wCalCmd_commit {x : Session} (hx : s.gate p roleService true = .pass x)
    (hs : s.flag Fld.CAL_STATUS_HOST_STAGE = true) (hg : s.acq.gcWritten = []) :
    (s.wCalCmd p 0x20000000).2 = (s.commitTaken p).stageCommit x.role (keysOne x.key) := by
  have hs' : (s.commitTaken p).flag Fld.CAL_STATUS_HOST_STAGE = true := (s.commitTaken_stage p).trans hs
  have hx' : (s.disarm p 0x0040).gate p roleService true = .pass x := (State.disarm_gate ..).trans hx
  unfold State.commitTaken at hs' ⊢
  simp [State.wCalCmd, show bitsOf 536870912 28 4 = 2 by decide, show bitsOf 536870912 0 7 = 0 by decide, hx', hs', hg]

/-- A commit of a written scale takes the armed authorisation of SCALE_COMMIT (R277). -/
theorem State.wCalCmd_scaleCommit {a : Armed} (ha : s.gateDual p 0x0040 s.scaleTarget = .pass a)
    (hs : s.flag Fld.CAL_STATUS_HOST_STAGE = true) (hg : s.acq.gcWritten ≠ []) :
    (s.wCalCmd p 0x20000000).2 = (s.commitTaken p).stageCommit a.roles a.keys := by
  unfold State.commitTaken
  simp [State.wCalCmd, show bitsOf 536870912 28 4 = 2 by decide, show bitsOf 536870912 0 7 = 0 by decide, ha, hs, hg]

/-- The word of REBASE holds the lane's index beside the command. -/
theorem rebaseWord_fields (n : BitVec 7) : bitsOf (0x40000000#32 ||| n.setWidth 32).toNat 28 4 = 4 ∧
    bitsOf (0x40000000#32 ||| n.setWidth 32).toNat 0 7 = n.toNat := by
  revert n
  decide

/-! ### The data register (R92, R94) -/

theorem State.calAdvance_regsOnly (s : State) : s.regsOnly s.calAdvance := by
  unfold State.calAdvance
  exact .ite (.wr (.refl s)) (.wr (.wr (.refl s)))

theorem State.keepsWords.ite {l : List Nat} {c : Prop} [Decidable c] (ht : s.keepsWords t l) (hu : s.keepsWords u l) :
    s.keepsWords (if c then t else u) l := by
  split <;> assumption

theorem State.keepsWords.calAdvance {l : List Nat} (h : s.keepsWords t l) (hl : Adr.CAL_ACC_SEL ∈ l := by decide) :
    s.keepsWords t.calAdvance l := by
  unfold State.calAdvance
  have h0 (v : Nat) : s.keepsWords (t.wr Fld.CAL_ACC_SEL_WORD v) l := .wr h rfl hl
  exact .ite (h0 _) (.wr (h0 0) rfl hl)

/-- A word written into the staged set in a staging session marks its lane as written. -/
theorem State.wCalData_staged {x : Session} {v : Word} (hx : s.gate p roleService true = .pass x)
    (hs : s.flag Fld.CAL_STATUS_HOST_STAGE = true) (hset : s.flag Fld.CAL_ACC_SEL_SET = true)
    (hr : calInRange s.calSel = true) (hp : s.lanePresent (calLane s.calSel) = true) :
    ∃ a : Acq, (s.wCalData p v).2 = ({ s with acq := a } : State).calAdvance ∧
      a.staged = calPut s.acq.staged s.calSel v.toNat ∧ calLane s.calSel ∈ a.written ∧ a.act = s.acq.act := by
  unfold State.wCalData
  extract_lets sel n a add u
  have hn : n ∈ add a.written := by
    unfold add
    split
    · assumption
    · exact List.mem_append_right _ (List.mem_singleton_self n)
  have haccess : ¬(!s.flag Fld.CAL_STATUS_HOST_STAGE || !s.flag Fld.CAL_ACC_SEL_SET || !calInRange sel) = true := by
    simp [hs, hset, sel, hr]
  have hpresent : ¬(!s.lanePresent n) = true := by simp [n, sel, hp]
  refine ⟨u.acq, ?_, rfl, hn, rfl⟩
  rw [hx]
  exact congrArg Prod.snd ((if_neg haccess).trans (if_neg hpresent))

/-! ### The statement -/

theorem exec_calAccDataRead (s : State) (p : Path) (h : s.core.running = true) :
    exec (.calAccDataRead p) s = .next s.calAdvance :=
  congrArg Host.Outcome.next (if_pos h)

/-- Settles O35: one lemma above for each command. That the tick in progress keeps the ratio a commit has taken is the model's
reading (notes/assumptions/45.md). -/
theorem stagingSession : Obligations.StagingSession := by
  unfold Obligations.StagingSession
  intro s p hr
  have hhost {f : State → WStatus × State} : Host.Outcome.next (s.host f) = (Host.Outcome.next (f s).2 :
      Host.Outcome State Fault Refusal) := congrArg Host.Outcome.next (State.host_of_running hr)
  refine ⟨fun x hx hp hw hs => ?opened, fun x hx hs => ?abort, fun x hx hs hg hw hc => ?commit,
    fun a ha hs hg hw hn hc => ?scale, fun x n hx hp hc => ?rebase, exec_calAccDataRead s p hr,
    fun x v hx hs hset hrange hp => ?data⟩
  case opened =>
    refine ⟨_, hhost, ?_⟩
    rw [State.wCalCmd_open hx (n := 0) (by decide) (by decide) hp hw hs]
    refine ⟨?_, State.rd_wr_same .., State.regsOnly.wr (.wrB (.wr (.refl s))), .wr (.wrB (.wr (.of_regs rfl)))⟩
    rw [State.flag_wr_apart (by decide), State.flag_wrB_same _ _ _ rfl]
  case abort =>
    refine ⟨_, hhost, ?_⟩
    rw [State.wCalCmd_abort hx (n := 0) (by decide) (by decide) hs]
    have h := (s.wr Fld.CAL_CMD_LANE 0).stageEnd_ended 1
    have hk : s.keepsWords (s.wr Fld.CAL_CMD_LANE 0) [Adr.CAL_CMD, Adr.CAL_STATUS] := .wr (.of_regs rfl)
    exact ⟨h.stage, h.result, h.written, h.gcWritten, h.act, h.led, fun a ha => (h.words a ha).trans (hk a ha)⟩
  case commit =>
    obtain ⟨h, -⟩ := s.commitTaken_committed p hc (fun n hn => (hw n hn).1) x.role (keysOne x.key)
    have hscale : s.scaledLanes = [] := List.filter_eq_nil_iff.2 fun n hn => by simp [(hw n hn).2]
    refine ⟨_, hhost, ?_⟩
    rw [State.wCalCmd_commit hx hs hg]
    refine ⟨h.stage, h.result, fun n hn => ⟨h.lanes n hn, h.values n hn⟩, h.act, ?_⟩
    rw [h.aseq, hscale]
    rfl
  case scale =>
    obtain ⟨h, harmed⟩ := s.commitTaken_committed p hc hw a.roles a.keys
    have hscale : s.scaledLanes ≠ [] := by
      obtain ⟨n, hn, hne⟩ := hn
      exact List.ne_nil_of_mem (List.mem_filter.2 ⟨hn, decide_eq_true hne⟩)
    refine ⟨_, hhost, ?_⟩
    rw [State.wCalCmd_scaleCommit ha hs hg]
    refine ⟨h.stage, h.result, h.lanes, ?_, h.act, fun r hratio => ?_, h.tickRatio hscale, ?_, ?_⟩
    · rw [h.newBase hscale]
      rfl
    · rw [h.newBase hscale, hratio]
      rfl
    · rw [h.aseq, if_neg (by simpa using hscale)]
    · exact State.armedFor_disarmed harmed
  case rebase =>
    obtain ⟨hcmd, hlane⟩ := rebaseWord_fields n
    obtain ⟨t, ht, hacq, haseq⟩ := State.wCalCmd_rebase (p := p) hx hlane hcmd hp hc
    refine ⟨_, hhost, ?_⟩
    rw [ht]
    refine ⟨?_, State.rd_wr_same .., hacq, haseq⟩
    have ha : Fld.CAL_CMD_RESULT.apart (Fld.CAL_LANE_STAT_REBASE_PEND n.toNat) = true :=
      calCmd_below_laneStat (hg := Nat.le_add_right ..)
    rw [State.flag_wr_apart ha, State.flag_wrB_same _ _ _ rfl]
  case data =>
    obtain ⟨a, ha, hstaged, hwritten, hact⟩ := State.wCalData_staged (v := v) hx hs hset hrange hp
    refine ⟨_, hhost, ?_⟩
    rw [ha]
    have hacq : ({ s with acq := a } : State).calAdvance.acq = a := (State.calAdvance_regsOnly _).acq
    rw [hacq]
    exact ⟨hstaged, hwritten, hact, .calAdvance (.of_regs rfl)⟩

end Sys2Proof.Machine
end

section
/-!
The end of a cycle (R103, R113): what its energies, status and window spare, and the quantum it posts.
-/

namespace Sys2Proof.Machine
variable {s0 s t : State} {b : Nat}

/-! ### A posted quantum -/

/-- The state with a quantum added to those posted. -/
def State.post (s : State) (k : Quantum) : State := { s with led := { s.led with posted := s.led.posted ++ [k] } }

theorem Spares.post (h : Spares s t) (k : Quantum) : Spares (s.post k) (t.post k) where
  parts := by simp [State.sparedParts, State.post, h.core, h.led, h.str, h.flash, h.esc, h.gar]
  rd := h.rd

/-! ### What a completed cycle spares -/

theorem Spares.setPulse (h : Spares s0 s) {k x} : Spares s0 (s.setPulse k x) := by
  unfold State.setPulse
  exact .update h

theorem Spares.pulseAdd (h : Spares s0 s) {k b prim sec T} : Spares s0 (s.pulseAdd k b prim sec T) := by
  unfold State.pulseAdd
  exact .ite h (.setPulse h)

theorem Spares.addCycle (h : Spares s0 s) {c} : Spares s0 (s.addCycle b c) := by
  unfold State.addCycle
  exact .setBay h

theorem Spares.zeroSumAdd (h : Spares s0 s) {c} : Spares s0 (s.zeroSumAdd b c) := by
  unfold State.zeroSumAdd
  exact .ite h (.update h)

/-- The direction bits of the elements lie in the blocks. -/
theorem elementDir_inBlocks (p : Nat) : ∀ i < 16, ([Fld.BAY_STATUS_DIR_A, Fld.BAY_STATUS_DIR_B,
    Fld.BAY_STATUS_DIR_C].getD p Fld.BAY_STATUS_DIR_A i).inBlocks = true := by
  match p with
  | 0 => decide
  | 1 => decide
  | 2 => decide
  | _ + 3 => exact fun i hi => (by decide : ∀ i < 16, (Fld.BAY_STATUS_DIR_A i).inBlocks = true) i hi

section
variable (hb : b < 16) (h : Spares s0 s)
include hb h

theorem Spares.direction {x T} : Spares s0 (s.direction b x T) := by
  unfold State.direction
  extract_lets t _ _
  have ht : Spares s0 t := .foldl h fun _ p _ h => .ite h (.wrB h (clear_of_lt hb (elementDir_inBlocks p)))
  exact .ite ht (.ite (.setBay ht) (.ite (.setBay ht) (.raise (.wrBAt hb (.setBay ht)))))

theorem Spares.cycleStatus {x quad} : Spares s0 (s.cycleStatus b x quad) := by
  unfold State.cycleStatus
  exact .wrBAt hb (.wrBAt hb (.wrBAt hb (.wrBAt hb (.ite h (.wrAt hb h)))))

theorem Spares.queueJob {j : HarmJob} (hj : j.bay = b) : Spares s0 (s.queueJob j) := by
  subst hj
  unfold State.queueJob
  exact .ite (.countAt hb h) (.ite (.update h) (.ite (.update h) (.ite (.countAt hb h) (.update h))))

theorem Spares.windowCycle {y c lost was} : Spares s0 (s.windowCycle b y c lost was) := by
  unfold State.windowCycle
  extract_lets _ _ t
  have ht : Spares s0 t := by
    unfold t
    split
    · exact h
    · exact .ite (.dropWindow hb h) (.ite (.setBay h) (.ite (.setBay h) (.queueJob hb (.setBay h) rfl)))
  exact .ite (.setBay ht) ht

end

/-! ### The quantum of a cycle -/

/-- A complete cycle posts its quantum, and spares what is spared (R113). -/
theorem State.finishCycle_posts (hb : b < 16) (hf : s.led.frozen = false) (y : Bay) (c : Cycle) : ∃ k : Quantum,
    k.owner = b ∧ k.endEpoch = c.stop.floor.toNat ∧ Spares (s.post k) (s.finishCycle b y c) := by
  unfold State.finishCycle
  extract_lets _ _ k _ t1 t2 t3 t4 t5
  have h1 : t1 = s.post k := if_neg (by simp [hf])
  have h2 : Spares (s.post k) t2 := .foldl (h1 ▸ .refl t1) fun _ _ _ h => .pulseAdd h
  have h3 : Spares (s.post k) t3 := .countAt hb (.direction hb (.cycleStatus hb h2))
  have h4 : Spares (s.post k) t4 := .ite (.wrBAt hb h3) h3
  exact ⟨k, rfl, rfl, .addCycle (.ite (.wrBAt hb h4) h4)⟩

/-- What follows once the cycle that ends is known, whether measured or credited: `x` is the tracking from here on, `out` for
how many cycles each channel has been OUT. -/
def State.cycleDone (s : State) (b : Nat) (y : Bay) (was : Nat) (restarting : Bool) (x : Bay × Nat) (c : Cycle)
    (out : List Nat) : State :=
  let s := if y.prev.isNone then s.drawn else s
  let s := s.setBay b { x.1 with prev := some c, outFor := out, credit := restarting }
  let lost := (s.elements b).any fun p => s.elementLost b y p
  let s := s.finishCycle b y c
  let s := if x.2 = s.track b then s else s.setTrack b x.2
  (s.windowCycle b y c lost was).bayTickDue b

theorem State.cycleDone_posts (hb : b < 16) (hf : s.led.frozen = false) {y was restarting x c out} : ∃ k : Quantum,
    k.owner = b ∧ k.endEpoch = c.stop.floor.toNat ∧ Spares (s.post k) (s.cycleDone b y was restarting x c out) := by
  unfold State.cycleDone
  extract_lets _ _ t2 _ t3 t4
  have h2 : Spares s t2 := .setBay (.ite (.drawn (.refl s)) (.refl s))
  obtain ⟨k, howner, hend, h3⟩ := t2.finishCycle_posts hb (h2.led ▸ hf) y c
  have h3 : Spares (s.post k) t3 := (h2.post k).trans h3
  have h4 : Spares (s.post k) t4 := .ite h3 (.setTrack hb h3)
  exact ⟨k, howner, hend, .bayTickDue hb (.windowCycle hb h4)⟩

/-- The test of a bay that tracks. -/
theorem State.track_on (ht : s.track b = trkFree ∨ s.track b = trkLocked) :
    ¬(decide (s.track b ≠ trkFree) && decide (s.track b ≠ trkLocked)) = true := by
  obtain h | h := ht <;> simp [h]

/-- The cycle that ends is credited, or measured from its points (R40, R103). -/
theorem State.cycleEnd_done (ht : s.track b = trkFree ∨ s.track b = trkLocked)
    (hc : (s.bay b).credit = true ∨ (s.points b (s.bay b).start (s.bay b).T).isSome = true) (hb : b < 16) :
    ∃ u was restarting x c out, Spares s u ∧ c.stop = s.later (s.bay b).start (s.bay b).T ∧
      s.cycleEnd b = u.cycleDone b (s.bay b) was restarting x c out := by
  unfold State.cycleEnd
  extract_lets y was stop restarting prev fin n c
  rw [if_neg (State.track_on ht)]
  by_cases hcredit : y.credit = true
  · rw [if_pos hcredit]
    exact ⟨_, was, restarting, _, c, y.outFor, .wrBAt hb (.countAt hb (.refl s)), rfl, rfl⟩
  · obtain ⟨pts, hpts⟩ := Option.isSome_iff_exists.1 (hc.resolve_left hcredit)
    rw [if_neg hcredit, hpts]
    exact ⟨_, was, restarting, _, s.cycleOf b y prev stop pts, outAfter y pts, .zeroSumAdd (.refl s), rfl, rfl⟩

/-- A cycle's end posts its quantum (R103, R113). -/
theorem State.cycleEnd_posts (hb : b < 16) (ht : s.track b = trkFree ∨ s.track b = trkLocked) (hf : s.led.frozen = false)
    (hc : (s.bay b).credit = true ∨ (s.points b (s.bay b).start (s.bay b).T).isSome = true) : ∃ k : Quantum,
    k.owner = b ∧ k.endEpoch = (s.later (s.bay b).start (s.bay b).T).floor.toNat ∧ Spares (s.post k) (s.cycleEnd b) := by
  obtain ⟨u, was, restarting, x, c, out, hu, hstop, hdone⟩ := State.cycleEnd_done ht hc hb
  obtain ⟨k, howner, hend, hk⟩ := u.cycleDone_posts hb (hu.led ▸ hf)
  exact ⟨k, howner, hstop ▸ hend, hdone ▸ (hu.post k).trans hk⟩

/-! ### A half-cycle value -/

/-- A half-cycle value of a bay that has never locked starts no dip or swell: it is counted (R134, R135). -/
theorem State.halfCycle_counts (ht : s.track b = trkFree ∨ s.track b = trkLocked) (hh : 0 < (s.bay b).half)
    (hn : 2 * (s.bay b).n ≤ (s.bay b).half + 1) (hl : (s.bay b).everLocked = false)
    (hg : (s.halfGrid b (s.bay b)).isSome = true) :
    s.halfCycle b = s.setBay b { s.bay b with half := (s.bay b).half + 1 } := by
  have hmax : max (s.bay b).half (2 * (s.bay b).n - 1) = (s.bay b).half := by omega
  obtain ⟨g, hg⟩ := Option.isSome_iff_exists.1 hg
  unfold State.halfCycle
  extract_lets _ _ y u udin
  have hy : y = s.bay b := by
    unfold y
    rw [hmax]
  clear_value y
  subst hy
  have hnever : (!(s.bay b).everLocked || decide (udin = 0)) = true := by simp [hl]
  rw [if_neg (State.track_on ht), if_neg hh.ne', hg]
  exact if_pos hnever

end Sys2Proof.Machine
end

section
/-!
The end of an accelerator's job and of a stream's computation (R122, R129, R169): what each leaves of the ledger, of the
accelerators' jobs and of one field, and the count it shows.
-/

namespace Sys2Proof.Machine
variable {s0 s t : State} {b : Nat} {g : Field} {fs : List (Nat → Field)}

/-! ### The ledger, the jobs and one field -/

/-- The jobs that wait and those in service. -/
def State.jobs (s : State) : List HarmJob × Option HarmJob × Option HarmJob := (s.met.queue, s.met.sa0, s.met.sa1)

/-- The ledger, Strata, the jobs of the accelerators and a field are as before. -/
structure Leaves (g : Field) (s t : State) : Prop where
  led : t.led = s.led
  str : t.str = s.str
  jobs : t.jobs = s.jobs
  rd : t.rd g = s.rd g

theorem Leaves.refl (g : Field) (s : State) : Leaves g s s := ⟨rfl, rfl, rfl, rfl⟩

theorem Leaves.trans {u : State} (h : Leaves g s t) (k : Leaves g t u) : Leaves g s u :=
  ⟨k.led.trans h.led, k.str.trans h.str, k.jobs.trans h.jobs, k.rd.trans h.rd⟩

theorem Leaves.flag (h : Leaves g s t) : t.flag g = s.flag g := by rw [State.flag, h.rd, State.flag]

theorem Leaves.post (h : Leaves g s t) (k : Quantum) : Leaves g (s.post k) (t.post k) where
  led := by simp [State.post, h.led]
  str := h.str
  jobs := h.jobs
  rd := h.rd

/-- A state that differs in other parts. -/
theorem Leaves.update (h : Leaves g s0 s) {pending fuses spi drega panelCaps spiOut now tickStart resetAt free core esc pwr acq
    aux strm rcd gar sec tmp ring twin panel portA portB net kept ptp bk flash ldr} :
    Leaves g s0 (State.mk pending fuses s.regs spi drega panelCaps spiOut now tickStart resetAt free core esc pwr acq s.met
      aux strm s.led s.str rcd gar sec tmp ring twin panel portA portB net kept ptp bk flash ldr) :=
  ⟨h.led, h.str, h.jobs, h.rd⟩

theorem Leaves.ite {c : Prop} [Decidable c] (hs : Leaves g s0 s) (ht : Leaves g s0 t) :
    Leaves g s0 (if c then s else t) := by
  split <;> assumption

theorem Leaves.ite3 {α} {c : Prop} [Decidable c] {x y : State × α} (hs : Leaves g s0 x.1) (ht : Leaves g s0 y.1) :
    Leaves g s0 (if c then x else y).1 := by
  split <;> assumption

theorem Leaves.foldl {α : Type} {f : State → α → State} {l : List α} (h : Leaves g s0 s)
    (hf : ∀ u, ∀ x ∈ l, Leaves g s0 u → Leaves g s0 (f u x)) : Leaves g s0 (l.foldl f s) := by
  induction l generalizing s with
  | nil => exact h
  | cons x l ih => exact ih (hf _ x (by simp) h) fun u y hy => hf u y (by simp [hy])

theorem Leaves.foldl3 {α β : Type} {f : State × β → α → State × β} {x : State × β} {l : List α} (h : Leaves g s0 x.1)
    (hf : ∀ u a, Leaves g s0 u.1 → Leaves g s0 (f u a).1) : Leaves g s0 (l.foldl f x).1 := by
  induction l generalizing x with
  | nil => exact h
  | cons a l ih => exact ih (hf _ _ h)

theorem Leaves.wr (h : Leaves g s0 s) {f : Field} {v} (hf : f.apart g = true) : Leaves g s0 (s.wr f v) :=
  ⟨h.led, h.str, h.jobs, (s.rd_wr_apart v hf).trans h.rd⟩

theorem Leaves.setBay (h : Leaves g s0 s) {y} : Leaves g s0 (s.setBay b y) := ⟨h.led, h.str, h.jobs, h.rd⟩

theorem Leaves.raiseTogether (h : Leaves g s0 s) (hg : g.intakeFree = true) {es} : Leaves g s0 (s.raiseTogether es) where
  led := (s.raiseTogether_led es).trans h.led
  str := (s.raiseTogether_str es).trans h.str
  jobs := (by simp [State.jobs] : (s.raiseTogether es).jobs = s.jobs).trans h.jobs
  rd := (s.rd_raiseTogether hg es).trans h.rd

/-- Values stored in fields apart from the one that is left. -/
theorem Leaves.putB32 (h : Leaves g s0 s) (hfs : ∀ f ∈ fs, (f b).apart g = true) {vs} : Leaves g s0 (s.putB32 b fs vs) := by
  unfold State.putB32
  exact .foldl h fun _ _ hx h => .wr h (hfs _ (List.of_mem_zip hx).1)

/-- Fields of a repeated window are apart where those of each index are. -/
theorem apart_of_lt {G : Nat → Field} {n : Nat} (hb : b < n)
    (h : ∀ f ∈ fs, ∀ i < n, (f i).apart (G i) = true := by decide) : ∀ f ∈ fs, (f b).apart (G b) = true :=
  fun f hf => h f hf b hb

/-! ### The intervals of a bay -/

/-- The fields of a bay that a window's status and the close of an interval write. -/
def intervalFields : List (Nat → Field) :=
  [Fld.BAY_HSTAT_FLAGGED, Fld.BAY_HSTAT_HMAX_LIMITED, Fld.BAY_HSTAT_HMAX, Fld.BAY_HSTAT_LIMIT, Fld.BAY_A3_STAT_FLAG,
    Fld.BAY_A3_STAT_SHORT, Fld.BAY_A3_STAT_TIME_STEP, Fld.BAY_A3_STAT_WINDOWS, Fld.BAY_A3_STAT_SEQ, Fld.BAY_A10_STAT_FLAG,
    Fld.BAY_A10_STAT_SHORT, Fld.BAY_A10_STAT_TIME_STEP, Fld.BAY_A10_STAT_WINDOWS, Fld.BAY_A10_STAT_SEQ] ++
  (a3Fields ++ a10Fields)

/-- A field apart from those that intervals write, and from the recorder's. -/
structure OffIntervals (b : Nat) (g : Field) : Prop where
  intake : g.intakeFree = true
  apart : ∀ f ∈ intervalFields, (f b).apart g = true

theorem hseq_offIntervals (hb : b < 16) : OffIntervals b (Fld.BAY_HSEQ_SEQ b) where
  intake := (by decide : ∀ i < 16, (Fld.BAY_HSEQ_SEQ i).intakeFree = true) b hb
  apart := apart_of_lt hb

theorem hvalid_offIntervals (hb : b < 16) : OffIntervals b (Fld.BAY_HSTAT_HVALID b) where
  intake := (by decide : ∀ i < 16, (Fld.BAY_HSTAT_HVALID i).intakeFree = true) b hb
  apart := apart_of_lt hb

theorem Leaves.setQual (h : Leaves g s0 s) {q} : Leaves g s0 (s.setQual b q) := ⟨h.led, h.str, h.jobs, h.rd⟩

section
variable (hg : OffIntervals b g) (h : Leaves g s0 s)
include hg h

theorem Leaves.wrInterval {f : Nat → Field} {v} (hf : f ∈ intervalFields := by simp [intervalFields]) :
    Leaves g s0 (s.wr (f b) v) := h.wr (hg.apart f hf)

theorem Leaves.testLimits {v} : Leaves g s0 (s.testLimits b v) := by
  unfold State.testLimits
  refine .raiseTogether (.foldl3 h fun u x hu => ?_) hg.intake
  unfold State.testLimit
  exact .ite3 hu (.ite3 (.wrInterval hg hu) (.ite3 (.wrInterval hg hu) hu))

theorem Leaves.closeInterval {upto ten short step} : Leaves g s0 (s.closeInterval b upto ten short step) := by
  have ha : ∀ f ∈ (if ten then a10Fields else a3Fields), (f b).apart g = true := fun f hf => hg.apart f <| by
    refine List.mem_append_right _ (List.mem_append.2 ?_)
    cases ten
    · exact .inl hf
    · exact .inr hf
  unfold State.closeInterval
  extract_lets _ _ _ _ _ t _ _ t1 _ t3 _ t5
  have ht : Leaves g s0 t := .setBay h
  have h1 : Leaves g s0 t1 := .putB32 ht ha
  have h3 : Leaves g s0 t3 := .wrInterval hg (.wrInterval hg (.wrInterval hg (.wrInterval hg (.wrInterval hg h1))))
  have h5 : Leaves g s0 t5 := .wrInterval hg (.wrInterval hg (.wrInterval hg (.wrInterval hg (.wrInterval hg h1))))
  exact .ite ht (.ite (.ite h3 (.setQual h3)) (.ite h5 (.testLimits hg h5)))

theorem Leaves.tryTen : Leaves g s0 (s.tryTen b) := by
  unfold State.tryTen
  refine .foldl h fun u _ _ hu => ?_
  unfold State.closeDue
  split
  · exact hu
  · exact .ite hu (.closeInterval hg (.closeInterval hg (.setBay hu)))

end

/-! ### A window's results -/

/-- A window's results are written together: HVALID reads 1 and HSEQ counts (R129). -/
structure WindowWritten (b : Nat) (s t : State) : Prop where
  led : t.led = s.led
  str : t.str = s.str
  jobs : t.jobs = s.jobs
  seq : t.rd (Fld.BAY_HSEQ_SEQ b) = (s.rd (Fld.BAY_HSEQ_SEQ b) + 1) % 2 ^ 32
  valid : t.flag (Fld.BAY_HSTAT_HVALID b) = true

/-- The results come first, then the status with HVALID, then HSEQ and the intervals that close. -/
theorem State.writeWindow_written {j : HarmJob} (hj : j.bay < 16) : WindowWritten j.bay s (s.writeWindow j) := by
  unfold State.writeWindow
  extract_lets b x stop start fl t1 t2 t3 words w y t4 t5 t6 t7 t8 t9
  have hseq : OffIntervals b (Fld.BAY_HSEQ_SEQ b) := hseq_offIntervals hj
  have hvalid : OffIntervals b (Fld.BAY_HSTAT_HVALID b) := hvalid_offIntervals hj
  have h4 : Leaves (Fld.BAY_HSEQ_SEQ b) s t4 :=
    .setBay (.putB32 (.putB32 (.putB32 (.refl _ s) (apart_of_lt hj)) (apart_of_lt hj)) (apart_of_lt hj))
  have hstatus {g : Field} (hg : OffIntervals b g) : Leaves g (t4.wrB (Fld.BAY_HSTAT_HVALID b) true) t7 := by
    have h6 : Leaves g (t4.wrB (Fld.BAY_HSTAT_HVALID b) true) t6 :=
      .wrInterval hg (.wrInterval hg (.wrInterval hg (.refl g _)))
    exact .ite h6 (.setQual h6)
  have hclose {g : Field} (hg : OffIntervals b g) : Leaves g t8 (t9.tryTen b) :=
    .tryTen hg (.ite (.closeInterval hg (.refl g t8)) (.refl g t8))
  have happ : ∀ i < 16, (Fld.BAY_HSTAT_HVALID i).apart (Fld.BAY_HSEQ_SEQ i) = true ∧
    (Fld.BAY_HSEQ_SEQ i).apart (Fld.BAY_HSTAT_HVALID i) = true := by decide
  obtain ⟨hvs, hsv⟩ := happ b hj
  have h7 : Leaves (Fld.BAY_HSEQ_SEQ b) s t7 := (h4.wr hvs).trans (hstatus hseq)
  have hend := hclose hseq
  have hv : Leaves (Fld.BAY_HSTAT_HVALID b) (t4.wrB (Fld.BAY_HSTAT_HVALID b) true) (t9.tryTen b) :=
    ((hstatus hvalid).wr hsv).trans (hclose hvalid)
  exact ⟨hend.led.trans h7.led, hend.str.trans h7.str, hend.jobs.trans h7.jobs,
    by rw [hend.rd, State.rd_wrap_same, h7.rd]; rfl, by rw [hv.flag, State.flag_wrB_same _ _ _ rfl]⟩

/-! ### An accelerator's job -/

theorem State.accTake_str (s : State) (a : Fin 2) : (s.accTake a).str = s.str := by
  unfold State.accTake
  split
  · rfl
  · split <;> rfl

/-- With no job waiting a free accelerator takes none. -/
theorem State.accTake_none {a : Fin 2} (hq : s.met.queue = []) : s.accTake a = s := by
  unfold State.accTake
  rw [hq, ite_self]

theorem State.accJob_of_jobs (h : t.jobs = s.jobs) (a : Fin 2) : t.accJob a = s.accJob a := by
  obtain ⟨-, h0, h1⟩ : _ ∧ _ ∧ _ := by simpa [State.jobs] using h
  rw [State.accJob, h0, h1, State.accJob]

theorem State.accJob_setAcc_same (s : State) (a : Fin 2) (j : Option HarmJob) : (s.setAcc a j).accJob a = j := by
  unfold State.accJob State.setAcc
  split <;> rfl

theorem State.setAcc_queue (s : State) (a : Fin 2) (j : Option HarmJob) : (s.setAcc a j).met.queue = s.met.queue := by
  unfold State.setAcc
  dsimp only
  split <;> rfl

/-- A completed job's results are written, and with no job waiting its accelerator is free (R122, R129). -/
theorem State.accComplete_written {a : Fin 2} {j : HarmJob} (hj : s.accJob a = some j) (hb : j.bay < 16) :
    (s.accComplete a).rd (Fld.BAY_HSEQ_SEQ j.bay) = (s.rd (Fld.BAY_HSEQ_SEQ j.bay) + 1) % 2 ^ 32 ∧
      (s.accComplete a).flag (Fld.BAY_HSTAT_HVALID j.bay) = true ∧
      (s.met.queue = [] → (s.accComplete a).accJob a = none) ∧ (s.accComplete a).led = s.led ∧
      (s.accComplete a).str = s.str := by
  have hw := (s.setAcc a none).writeWindow_written hb
  have hdone : s.accComplete a = ((s.setAcc a none).writeWindow j).accTake a := by rw [State.accComplete, hj]
  obtain ⟨-, hregs, hled⟩ := ((s.setAcc a none).writeWindow j).accTake_kept a
  rw [hdone, State.flag, State.rd_of_regs hregs, State.rd_of_regs hregs, hled, State.accTake_str]
  refine ⟨hw.seq, hw.valid, fun hq => ?_, hw.led, hw.str⟩
  have hqueue : ((s.setAcc a none).writeWindow j).met.queue = [] :=
    (congrArg (·.1) hw.jobs).trans ((s.setAcc_queue a none).trans hq)
  rw [State.accTake_none hqueue, State.accJob_of_jobs hw.jobs, State.accJob_setAcc_same]

/-! ### A stream's computation -/

/-- Nothing but registers and the auxiliary block differs. -/
def State.scannerOnly (s t : State) : Prop := t = { s with regs := t.regs, aux := t.aux }

theorem State.scannerOnly.refl (s : State) : s.scannerOnly s := rfl

theorem State.scannerOnly.update (h : s0.scannerOnly s) {r x} : s0.scannerOnly { s with regs := r, aux := x } := by
  change ({ s with regs := r, aux := x } : State) = { s0 with regs := r, aux := x }
  rw [h]

theorem State.scannerOnly.wr (h : s0.scannerOnly s) {f v} : s0.scannerOnly (s.wr f v) := h.update

theorem State.scannerOnly.foldl {α : Type} {f : State → α → State} {l : List α} (h : s0.scannerOnly s)
    (hf : ∀ u x, s0.scannerOnly u → s0.scannerOnly (f u x)) : s0.scannerOnly (l.foldl f s) := by
  induction l generalizing s with
  | nil => exact h
  | cons x l ih => exact ih (hf _ x h)

theorem State.axCaptureDue_scannerOnly (s : State) : s.scannerOnly s.axCaptureDue := by
  unfold State.axCaptureDue
  split
  · unfold State.axCapture
    exact .wr (.update (.foldl (.refl s) fun _ _ h => .wr (.wr (.wr (.wr (.wr (.wr (.wr h))))))))
  · exact .refl s

theorem State.scannerOnly.strm (h : s.scannerOnly t) : t.strm = s.strm := by rw [h]

theorem State.scannerOnly.esc (h : s.scannerOnly t) : t.esc = s.esc := by rw [h]

/-- The registers of a capture lie below those of metering. -/
theorem Leaves.wrScan {F : Nat → Field} {n : Nat} (h : Leaves g s0 s) {v} (hg : 0x300000 ≤ g.addr) (hb : b < n)
    (hF : ∀ i < n, (F i).addr + 4 * (F i).words ≤ 0x300000 := by decide) : Leaves g s0 (s.wr (F b) v) :=
  h.wr (Field.apart_of_below ((hF b hb).trans hg))

theorem Leaves.axCaptureDue (h : Leaves g s0 s) (hg : 0x300000 ≤ g.addr) : Leaves g s0 s.axCaptureDue := by
  unfold State.axCaptureDue State.axCapture
  refine .ite (.wr (.update (.foldl h fun u n hx hu => ?_)) (Field.apart_of_below (le_trans (by decide) hg))) h
  have hn : n < 34 := List.mem_range.1 hx
  exact .wrScan (.wrScan (.wrScan (.wrScan (.wrScan (.wrScan (.wrScan hu hg hn) hg hn) hg hn) hg hn) hg hn) hg hn) hg hn

theorem Leaves.setStream (h : Leaves g s0 s) {n x} : Leaves g s0 (s.setStream n x) := by
  unfold State.setStream
  exact .update h

section
variable {n : Nat} (hn : n < 4) (h : Leaves (Fld.MT_PS_SEQ_SEQ n) s0 s)
include hn h

theorem Leaves.wrStream {F : Nat → Field} {v}
    (hF : ∀ i < 4, (F i).apart (Fld.MT_PS_SEQ_SEQ i) = true := by decide) :
    Leaves (Fld.MT_PS_SEQ_SEQ n) s0 (s.wr (F n) v) := h.wr (hF n hn)

theorem Leaves.wrInput {F : Nat → Nat → Field} {v i : Nat} (hi : i < 5)
    (hF : ∀ i < 4, ∀ k < 5, (F i k).apart (Fld.MT_PS_SEQ_SEQ i) = true := by decide) :
    Leaves (Fld.MT_PS_SEQ_SEQ n) s0 (s.wr (F n i) v) := h.wr (hF n hn i hi)

theorem Leaves.psInputDone {r : State} {i dt x} (hi : i < 5) :
    Leaves (Fld.MT_PS_SEQ_SEQ n) s0 (s.psInputDone r n i dt x) := by
  unfold State.psInputDone
  extract_lets _ _ _ _ t1 t2 t3
  have h3 : Leaves (Fld.MT_PS_SEQ_SEQ n) s0 t3 :=
    .wrInput hn (.wrInput hn (.wrInput hn (.wrInput hn (.setStream h) hi) hi) hi) hi
  exact .ite (.wrInput hn h3 hi) h3

theorem Leaves.psResults {r : State} {sec x} : Leaves (Fld.MT_PS_SEQ_SEQ n) s0 (s.psResults r n sec x) := by
  unfold State.psResults
  extract_lets _ _ _ put t1 t2 t3 t4 t5 t6 t7 t8 t9
  have h5 : Leaves (Fld.MT_PS_SEQ_SEQ n) s0 t5 :=
    .wrStream hn (.wrStream hn (.wrStream hn (.wrStream hn (.wrStream hn h))))
  have h6 : Leaves (Fld.MT_PS_SEQ_SEQ n) s0 t6 := .ite h5 (.wrStream hn h5)
  have h7 : Leaves (Fld.MT_PS_SEQ_SEQ n) s0 t7 := .ite h6 (.wrStream hn h6)
  have h8 : Leaves (Fld.MT_PS_SEQ_SEQ n) s0 t8 := .wrStream hn h7
  refine .ite (.wrStream hn (.wrStream hn (.wrStream hn h7))) ?_
  split
  · exact .wrStream hn (.wrStream hn h8)
  · exact .update (.wrStream hn (.update (.wrStream hn h8)))

omit hn in
theorem Leaves.psSettle : Leaves (Fld.MT_PS_SEQ_SEQ n) s0 (s.psSettle n) := by
  unfold State.psSettle
  exact .setStream h

theorem Leaves.refreshDegraded : Leaves (Fld.MT_PS_SEQ_SEQ n) s0 s.refreshDegraded := by
  unfold State.refreshDegraded
  exact h.wr ((by decide : ∀ i < 4, Fld.SYS_STATUS_DEGRADED.apart (Fld.MT_PS_SEQ_SEQ i) = true) n hn)

end

/-- A stream's computation posts its quantum, and SEQ counts (R169, R178). -/
theorem State.psCompute_posts {n : Nat} (hn : n < 4) (dt : Sys2Proof.Real) (e : Nat) : ∃ k : Quantum, k.owner = 16 + n ∧
    k.endEpoch = e - 1 ∧ (s.psCompute n dt e).led = (s.post k).led ∧ (s.psCompute n dt e).str = s.str ∧
    (s.psCompute n dt e).rd (Fld.MT_PS_SEQ_SEQ n) = (s.rd (Fld.MT_PS_SEQ_SEQ n) + 1) % 2 ^ 32 := by
  unfold State.psCompute
  extract_lets _ _ _ _ _ _ _ _ _ _ _ _ _ t _ _ k _ t1 _ _ t2 t3 t4 t5 t6 t7 t8 t9 t10 t11
  have ht : Leaves (Fld.MT_PS_SEQ_SEQ n) s t := .foldl (.update (.refl _ s)) fun _ _ hi h =>
    .ite (.psInputDone hn h (List.mem_range.1 hi)) h
  have h1 : Leaves (Fld.MT_PS_SEQ_SEQ n) (s.post k) t1 := ht.post k
  have h3 : Leaves (Fld.MT_PS_SEQ_SEQ n) (s.post k) t3 := .psResults hn (.setStream h1)
  have h8 : Leaves (Fld.MT_PS_SEQ_SEQ n) (s.post k) t8 := .wrStream hn (.wrStream hn (.wrStream hn (.wrStream hn
    (.wrStream hn (.wrStream hn (.wrStream hn (.wrStream hn h3)))))))
  have h9 : Leaves (Fld.MT_PS_SEQ_SEQ n) (s.post k) t9 := .ite (.wrStream hn h8) h8
  have h10 : Leaves (Fld.MT_PS_SEQ_SEQ n) (s.post k) t10 := .ite (.wrStream hn h9) h9
  have h11 : Leaves (Fld.MT_PS_SEQ_SEQ n) (s.post k) t11 := .ite (.wrStream hn h10) h10
  have hend : Leaves (Fld.MT_PS_SEQ_SEQ n) (t11.wrap (Fld.MT_PS_SEQ_SEQ n))
      ((t11.wrap (Fld.MT_PS_SEQ_SEQ n)).psSettle n).refreshDegraded := .refreshDegraded hn (.psSettle (.refl _ _))
  exact ⟨k, rfl, rfl, hend.led.trans h11.led, hend.str.trans h11.str,
    by rw [hend.rd, State.rd_wrap_same, h11.rd]; rfl⟩

/-- The tick of a stream in RUN whose engine is in service posts its quantum (R169). -/
theorem State.streamTick_posts {n : Fin 4} {dt : Sys2Proof.Real} {e : Nat} (hd : (s.stream n.val).due = some (dt, e))
    (hr : s.rd (Fld.MT_PS_STATUS_STATE n.val) = psRun) (he : s.esc.restarting.contains (.procEngine n) = false) :
    ∃ k : Quantum, k.owner = 16 + n.val ∧ k.endEpoch = e - 1 ∧ (s.streamTick n).led = (s.post k).led ∧
      (s.streamTick n).str = s.str ∧
      (s.streamTick n).rd (Fld.MT_PS_SEQ_SEQ n.val) = (s.rd (Fld.MT_PS_SEQ_SEQ n.val) + 1) % 2 ^ 32 := by
  have hseq := (Leaves.refl (Fld.MT_PS_SEQ_SEQ n.val) s).axCaptureDue (by simp [Fld.MT_PS_SEQ_SEQ]; omega)
  have hstate := (Leaves.refl (Fld.MT_PS_STATUS_STATE n.val) s).axCaptureDue (by simp [Fld.MT_PS_STATUS_STATE]; omega)
  have hdue : (s.axCaptureDue.stream n.val).due = some (dt, e) := by
    rw [State.stream, s.axCaptureDue_scannerOnly.strm, ← State.stream, hd]
  have hesc : s.axCaptureDue.esc = s.esc := s.axCaptureDue_scannerOnly.esc
  have hrun : s.streamTick n = s.axCaptureDue.psCompute n.val dt e := by
    unfold State.streamTick
    dsimp only
    rw [hdue]
    dsimp only
    rw [hstate.rd, hr, hesc, he]
    rfl
  obtain ⟨k, howner, hend, hled, hstr, hrd⟩ := s.axCaptureDue.psCompute_posts n.isLt dt e
  rw [hrun, hled, hstr, hrd, hseq.rd, hseq.str]
  exact ⟨k, howner, hend, by simp [State.post, hseq.led], rfl, rfl⟩

end Sys2Proof.Machine
end

section
/-!
The obligations of metering (R103, R113, R117, R122, R134, R169): the results and quanta of a bay, a window and a stream; the
pulse outputs.
-/

namespace Sys2Proof.Machine
variable {s : State} {k : Nat}

/-! ### What the commands run -/

theorem exec_cycleEnd (s : State) (b : Fin 16) : exec (.cycleEnd b) s = .next ((s.cycleEnd b.val).tryTen b.val) := rfl

theorem exec_halfCycleRms (s : State) (b : Fin 16) : exec (.halfCycleRms b) s = .next (s.halfCycle b.val) := rfl

theorem exec_accelJobComplete (s : State) (a : Fin 2) : exec (.accelJobComplete a) s = .next (s.accComplete a) := rfl

theorem exec_streamTick (s : State) (n : Fin 4) : exec (.streamTick n) s = .next (s.streamTick n) := rfl

theorem exec_poPulseStart (s : State) (k : Fin 16) : exec (.poPulseStart k) s = .next (s.pulseStart k.val) := rfl

theorem exec_poPulseEnd (s : State) (k : Fin 16) : exec (.poPulseEnd k) s = .next (s.pulseEnd k.val) := rfl

/-- Settles O37: one lemma above for each kind of measurement. -/
theorem measurementsPosted : Obligations.MeasurementsPosted := by
  unfold Obligations.MeasurementsPosted
  refine ⟨fun s b ht hf hc => ?cycle, fun s b g ht hlen hh hn hl hg => ?half, fun s a j hj hb => ?window,
    fun s n dt e hd hr he => ?stream⟩
  case cycle =>
    obtain ⟨k, howner, hend, hk⟩ := State.cycleEnd_posts b.isLt ht hf hc
    have hk : Spares (s.post k) ((s.cycleEnd b.val).tryTen b.val) := hk.tryTen b.isLt
    refine ⟨_, k, exec_cycleEnd s b, ?_, howner, hend, ?_, hk.str⟩
    · rw [hk.led, State.post]
    · rw [hk.led, State.post]
  case half =>
    refine ⟨_, exec_halfCycleRms s b, ?_⟩
    rw [State.halfCycle_counts ht hh hn hl (Option.isSome_iff_exists.2 ⟨g, hg⟩),
      State.bay_setBay_same (b.isLt.trans_eq hlen.symm)]
    exact ⟨rfl, rfl, rfl⟩
  case window => exact ⟨_, exec_accelJobComplete s a, State.accComplete_written hj hb⟩
  case stream =>
    obtain ⟨k, howner, hend, hled, hstr, hseq⟩ := State.streamTick_posts hd hr he
    exact ⟨_, k, exec_streamTick s n, by rw [hled, State.post], howner, hend, hseq, hstr⟩

/-! ### Pulses -/

theorem State.pulse_setPulse_same {x : Pulse} (h : k < s.met.pulses.length) : (s.setPulse k x).pulse k = x := by
  simp [State.pulse, State.setPulse, h]

/-- A pulse of an enabled output with a backlog starts, where none is in progress and no gap runs (R117). -/
theorem State.pulseStart_starts (he : s.flag (Fld.MT_PO_CFG_ENABLE k) = true) (ho : (s.pulse k).on = false)
    (hg : (s.pulse k).endedAt = none) (hb : s.rd (Fld.MT_PO_STAT_BACKLOG k) ≠ 0) :
    s.pulseStart k = ((s.setPulse k { s.pulse k with on := true, startedAt := s.lastSample }).wr (Fld.MT_PO_STAT_BACKLOG k)
      (s.rd (Fld.MT_PO_STAT_BACKLOG k) - 1)).wrap (Fld.MT_PO_STAT_COUNT k) := by
  unfold State.pulseStart
  exact if_neg (by simp [he, ho, hg, hb])

theorem State.pulseEnd_ends (ho : (s.pulse k).on = true) : s.pulseEnd k = s.setPulse k { s.pulse k with
    on := false, endedAt := some ((s.pulse k).startedAt + 32 * s.rd (Fld.MT_PO_CFG_WIDTH k)) } := by
  unfold State.pulseEnd
  exact if_neg (by simp [ho])

theorem pulseStatus_words (k : Nat) : (Fld.MT_PO_STAT_BACKLOG k).words = 1 ∧ (Fld.MT_PO_STAT_COUNT k).words = 1 := by
  simp [Field.words, Fld.MT_PO_STAT_BACKLOG, Fld.MT_PO_STAT_COUNT]

theorem pulseBacklog_apart_count (k : Nat) : (Fld.MT_PO_STAT_BACKLOG k).apart (Fld.MT_PO_STAT_COUNT k) = true ∧
    (Fld.MT_PO_STAT_COUNT k).apart (Fld.MT_PO_STAT_BACKLOG k) = true := by
  simp [Field.apart, Field.words, Fld.MT_PO_STAT_BACKLOG, Fld.MT_PO_STAT_COUNT]

/-- A pulse that starts leaves the backlog and is counted, in the output's status alone (R117). -/
theorem State.pulseStart_started (he : s.flag (Fld.MT_PO_CFG_ENABLE k) = true) (ho : (s.pulse k).on = false)
    (hg : (s.pulse k).endedAt = none) (hb : s.rd (Fld.MT_PO_STAT_BACKLOG k) ≠ 0) (hk : k < s.met.pulses.length) :
    ((s.pulseStart k).pulse k).on = true ∧
      (s.pulseStart k).rd (Fld.MT_PO_STAT_BACKLOG k) + 1 = s.rd (Fld.MT_PO_STAT_BACKLOG k) ∧
      (s.pulseStart k).rd (Fld.MT_PO_STAT_COUNT k) = (s.rd (Fld.MT_PO_STAT_COUNT k) + 1) % 2 ^ 16 ∧
      s.keepsWords (s.pulseStart k) [Adr.MT_PO_STAT k] ∧ (s.pulseStart k).led = s.led := by
  obtain ⟨hbc, hcb⟩ := pulseBacklog_apart_count k
  obtain ⟨hback, hcount⟩ := pulseStatus_words k
  have hlt : s.rd (Fld.MT_PO_STAT_BACKLOG k) - 1 < 2 ^ (Fld.MT_PO_STAT_BACKLOG k).width :=
    lt_of_le_of_lt (Nat.sub_le ..) (s.rd_lt _)
  rw [State.pulseStart_starts he ho hg hb]
  refine ⟨congrArg Pulse.on (State.pulse_setPulse_same hk), ?_, ?_, ?_, rfl⟩
  · rw [State.wrap, State.rd_wr_apart _ _ hcb, State.rd_wr_same, Nat.mod_eq_of_lt hlt]
    omega
  · rw [State.rd_wrap_same, State.rd_wr_apart _ _ hbc]
    rfl
  · exact .wr (.wr (.of_regs rfl) hback (List.mem_singleton.2 rfl)) hcount (List.mem_singleton.2 rfl)

/-- Settles O38: the start and the end of a pulse as the updates they are. -/
theorem pulseOutputs : Obligations.PulseOutputs := by
  unfold Obligations.PulseOutputs
  refine fun s k => ⟨fun he ho hg hb hlen => ?start, fun ho hlen => ?ends⟩
  case start => exact ⟨_, exec_poPulseStart s k, State.pulseStart_started he ho hg hb (k.isLt.trans_eq hlen.symm)⟩
  case ends =>
    refine ⟨_, exec_poPulseEnd s k, ?_⟩
    rw [State.pulseEnd_ends ho, State.pulse_setPulse_same (k.isLt.trans_eq hlen.symm)]
    exact ⟨rfl, rfl, rfl, rfl⟩

end Sys2Proof.Machine
end

section
/-!
The field supply and the excitation sources (R154, R158), and what the state of the auxiliary scanner and the sources that
follow it leave of the registers.
-/

namespace Sys2Proof.Machine
variable {s0 s t : State} {k : Nat}

/-! ### Fields -/

theorem State.flag_congr {g : Field} (h : t.rd g = s.rd g) : t.flag g = s.flag g := by rw [State.flag, h, State.flag]

theorem State.flag_raise {g : Field} (hg : g.intakeFree = true) (code source : Nat) (payload : List Byte) :
    (s.raise code source payload).flag g = s.flag g := State.flag_congr (s.rd_raise hg code source payload)

/-- A source's bit is clear after it has been masked out. -/
theorem maskedBit (x : Nat) (hk : k < 4) : (x &&& (15 - 2 ^ k)) % 2 ^ 4 / 2 ^ k % 2 = 0 := by
  have hmask : (15 - 2 ^ k).testBit k = false := by
    revert k
    decide
  have h : ((x &&& (15 - 2 ^ k)) % 2 ^ 4).testBit k = false := by
    rw [Nat.testBit_mod_two_pow, Nat.testBit_and, hmask, Bool.and_false, Bool.and_false]
  simpa [Nat.testBit_eq_decide_div_mod_eq] using h

/-! ### The sources that source current (R154) -/

theorem State.refreshExc_regsOnly (s : State) : s.regsOnly s.refreshExc := .wr (.wr (.refl s))

theorem State.keepsWords.refreshExc {l : List Nat} (h : s0.keepsWords s l) (hl : Adr.AX_EXC_STAT ∈ l := by decide) :
    s0.keepsWords s.refreshExc l := .wr (.wr h rfl hl) rfl hl

/-- The sources in service lie in AX_EXC_STAT. -/
theorem State.rd_refreshExc {g : Field} (hon : Fld.AX_EXC_STAT_ON.apart g = true)
    (hopen : Fld.AX_EXC_STAT_OPEN.apart g = true) : s.refreshExc.rd g = s.rd g := by
  unfold State.refreshExc
  rw [State.rd_wr_apart _ _ hopen, State.rd_wr_apart _ _ hon]

/-- While VFLD is low no source sources current (R158). -/
theorem State.refreshExc_low (h : s.flag Fld.AX_STATUS_FLD_LOW = true) : s.refreshExc.rd Fld.AX_EXC_STAT_ON = 0 := by
  unfold State.refreshExc
  rw [State.rd_wr_apart _ _ (by decide), State.rd_wr_same]
  simp [h]

/-! ### The field supply (R158) -/

/-- The fall of VFLD as the registers note it. -/
def State.fallNoted (s : State) : State :=
  ((({ s with aux := { s.aux with touched := s.aux.touched || s.axBusy, lowSeen := true } }).wrB Fld.AX_STATUS_FLD_LOW
    true).wrB Fld.AX_FLD_LOW_SEEN true).count Fld.AX_FLD_LOW_CNT

theorem State.fldLow_falls (hr : s.core.running = true) (hl : s.flag Fld.AX_STATUS_FLD_LOW = false) :
    s.fldLow = s.fallNoted.refreshExc.raise evFldLow 0xFF (beBytes 2 (s.fallNoted.rd Fld.AX_FLD_LOW_CNT)) := by
  unfold State.fldLow
  exact if_neg (by simp [hr, hl])

theorem State.fldOk_recovers (hl : s.flag Fld.AX_STATUS_FLD_LOW = true) :
    s.fldOk = (s.wrB Fld.AX_STATUS_FLD_LOW false).refreshExc.raise evFldOk 0xFF (beBytes 2 (s.rd Fld.AX_FLD_LOW_CNT)) := by
  unfold State.fldOk
  exact if_neg (by simp [hl])

theorem State.fallNoted_low (s : State) : s.fallNoted.flag Fld.AX_STATUS_FLD_LOW = true := by
  unfold State.fallNoted State.count
  rw [State.flag_wr_apart (by decide), State.flag_wrB_apart (by decide), State.flag_wrB_same _ _ _ rfl]

theorem State.fallNoted_seen (s : State) : s.fallNoted.flag Fld.AX_FLD_LOW_SEEN = true := by
  unfold State.fallNoted State.count
  rw [State.flag_wr_apart (by decide), State.flag_wrB_same _ _ _ rfl]

theorem State.fallNoted_count (s : State) :
    s.fallNoted.rd Fld.AX_FLD_LOW_CNT = min (s.rd Fld.AX_FLD_LOW_CNT + 1) 0xFFFF := by
  unfold State.fallNoted
  rw [State.rd_count_same, State.rd_wrB_apart _ _ (by decide), State.rd_wrB_apart _ _ (by decide)]
  rfl

/-! ### Compliance of a source (R154) -/

/-- A source out of compliance, before OPEN_SEEN shows it. -/
def State.openNoted (s : State) (k : Nat) : State :=
  { s.wr Fld.AX_EXC_STAT_OPEN (s.rd Fld.AX_EXC_STAT_OPEN ||| 2 ^ k) with
    aux := { s.aux with openSeen := s.aux.openSeen ||| 2 ^ k } }

theorem State.openNoted_rd (s : State) (k : Nat) (g : Field) :
    (s.openNoted k).rd g = (s.wr Fld.AX_EXC_STAT_OPEN (s.rd Fld.AX_EXC_STAT_OPEN ||| 2 ^ k)).rd g := rfl

theorem State.excOpen_again (hon : s.rd Fld.AX_EXC_STAT_ON / 2 ^ k % 2 = 1)
    (hs : s.rd Fld.AX_EXC_STAT_OPEN_SEEN / 2 ^ k % 2 = 1) : s.excOpen k = s.openNoted k := by
  unfold State.excOpen
  rw [if_neg (by omega)]
  exact if_pos hs

theorem State.excOpen_first (hon : s.rd Fld.AX_EXC_STAT_ON / 2 ^ k % 2 = 1)
    (hs : ¬ s.rd Fld.AX_EXC_STAT_OPEN_SEEN / 2 ^ k % 2 = 1) :
    s.excOpen k = ((s.openNoted k).wr Fld.AX_EXC_STAT_OPEN_SEEN (s.rd Fld.AX_EXC_STAT_OPEN_SEEN ||| 2 ^ k)).raise
      evExcOpen k [] := by
  unfold State.excOpen
  rw [if_neg (by omega)]
  exact if_neg hs

/-- A source out of compliance shows in OPEN and in OPEN_SEEN, whether OPEN_SEEN showed it before or not. -/
theorem State.excOpen_shows (hk : k < 4) (hon : s.rd Fld.AX_EXC_STAT_ON / 2 ^ k % 2 = 1) :
    (s.excOpen k).rd Fld.AX_EXC_STAT_OPEN / 2 ^ k % 2 = 1 ∧ (s.excOpen k).rd Fld.AX_EXC_STAT_OPEN_SEEN / 2 ^ k % 2 = 1 ∧
      (s.excOpen k).rd Fld.AX_EXC_STAT_ON = s.rd Fld.AX_EXC_STAT_ON := by
  have hopen : (s.openNoted k).rd Fld.AX_EXC_STAT_OPEN / 2 ^ k % 2 = 1 := by
    rw [State.openNoted_rd, State.rd_wr_same]
    exact failBit _ hk
  have hseen : (s.openNoted k).rd Fld.AX_EXC_STAT_OPEN_SEEN = s.rd Fld.AX_EXC_STAT_OPEN_SEEN := s.rd_wr_apart _ rfl
  have hsource : (s.openNoted k).rd Fld.AX_EXC_STAT_ON = s.rd Fld.AX_EXC_STAT_ON := s.rd_wr_apart _ rfl
  by_cases hs : s.rd Fld.AX_EXC_STAT_OPEN_SEEN / 2 ^ k % 2 = 1
  · rw [State.excOpen_again hon hs, hseen, hsource]
    exact ⟨hopen, hs, rfl⟩
  · rw [State.excOpen_first hon hs, State.rd_raise _ rfl, State.rd_raise _ rfl, State.rd_raise _ rfl,
      State.rd_wr_apart _ _ rfl, State.rd_wr_same, State.rd_wr_apart _ _ rfl, hsource]
    exact ⟨hopen, failBit _ hk, rfl⟩

/-! ### The statement -/

/-- Settles O41: the fall and the return of VFLD as the updates they are; `State.excOpen_shows`. -/
theorem fieldSupply : Obligations.FieldSupply := by
  unfold Obligations.FieldSupply
  refine ⟨fun s hr hl => ⟨s.fldLow, rfl, ?falls⟩, fun s hl => ⟨s.fldOk, rfl, ?returns⟩,
    fun s k hon => ⟨s.excOpen k.val, rfl, State.excOpen_shows k.isLt hon⟩, fun s k => ⟨s.excClosed k.val, rfl, ?closed⟩⟩
  case falls =>
    rw [State.fldLow_falls hr hl, State.flag_raise rfl, State.flag_raise rfl, State.rd_raise _ rfl, State.rd_raise _ rfl,
      State.flag_congr (State.rd_refreshExc rfl rfl), State.flag_congr (State.rd_refreshExc rfl rfl),
      State.rd_refreshExc rfl rfl, State.raise_led]
    exact ⟨s.fallNoted_low, s.fallNoted_seen, s.fallNoted_count, State.refreshExc_low s.fallNoted_low,
      (State.refreshExc_regsOnly _).led⟩
  case returns =>
    rw [State.fldOk_recovers hl, State.axState, State.flag_raise rfl, State.rd_raise _ rfl, State.rd_raise _ rfl,
      State.flag_congr (State.rd_refreshExc rfl rfl), State.rd_refreshExc rfl rfl, State.rd_refreshExc rfl rfl,
      State.flag_wrB_same _ _ _ rfl, State.rd_wrB_apart _ _ rfl, State.rd_wrB_apart _ _ rfl, State.raise_led]
    exact ⟨rfl, rfl, rfl, (State.refreshExc_regsOnly _).led⟩
  case closed =>
    refine ⟨?_, State.regsOnly.wr (.refl s), State.keepsWords.wr (.of_regs rfl)⟩
    rw [State.excClosed, State.rd_wr_same]
    exact maskedBit _ k.isLt

end Sys2Proof.Machine
end

section
/-!
The pulse inputs (R155 to R157, R159): an accepted edge of an input that counts edges, an accepted change of a quadrature pair,
and an input whose gate has passed without an edge.
-/

namespace Sys2Proof.Machine
variable {s0 s t : State} {k m : Nat}

/-! ### The registers of an input -/

/-- The fields an input's work writes lie in words of their own: the count, the frequency and the status. -/
theorem pulseInput_words (k : Nat) : (Fld.AX_PI_CNT_CNT k).words = 1 ∧ (Fld.AX_PI_FREQ_FREQ k).words = 1 ∧
    (Fld.AX_PI_STAT_LEVEL k).words = 1 ∧ (Fld.AX_PI_STAT_NO_SIGNAL k).words = 1 := by
  simp [Field.words, Fld.AX_PI_CNT_CNT, Fld.AX_PI_FREQ_FREQ, Fld.AX_PI_STAT_LEVEL, Fld.AX_PI_STAT_NO_SIGNAL]

/-- The level of an input, whose pair's count may stand in another window. -/
theorem pulseLevel_apart (k m : Nat) : (Fld.AX_PI_STAT_LEVEL k).apart (Fld.AX_PI_CNT_CNT m) = true ∧
    (Fld.AX_PI_STAT_LEVEL k).apart (Fld.AX_PI_STAT_QERR m) = true ∧
    (Fld.AX_PI_STAT_LEVEL k).apart (Fld.AX_PI_CFG_EDGE k) = true := by
  simp [Field.apart, Field.words, Fld.AX_PI_STAT_LEVEL, Fld.AX_PI_CNT_CNT, Fld.AX_PI_STAT_QERR, Fld.AX_PI_CFG_EDGE]
  omega

theorem pulseInput_apart (k : Nat) : (Fld.AX_PI_CNT_CNT k).apart (Fld.AX_PI_STAT_LEVEL k) = true ∧
    (Fld.AX_PI_STAT_NO_SIGNAL k).apart (Fld.AX_PI_STAT_LEVEL k) = true ∧
    (Fld.AX_PI_STAT_NO_SIGNAL k).apart (Fld.AX_PI_CNT_CNT k) = true ∧
    (Fld.AX_PI_STAT_NO_SIGNAL k).apart (Fld.AX_PI_FREQ_FREQ k) = true ∧
    (Fld.AX_PI_STAT_QERR k).apart (Fld.AX_PI_CNT_CNT k) = true := by
  simp [Field.apart, Field.words, Fld.AX_PI_STAT_LEVEL, Fld.AX_PI_CNT_CNT, Fld.AX_PI_STAT_NO_SIGNAL, Fld.AX_PI_FREQ_FREQ,
    Fld.AX_PI_STAT_QERR]
  omega

theorem State.input_setInput_same {x : PulseIn} (h : k < s.aux.inputs.length) : (s.setInput k x).input k = x := by
  simp [State.input, State.setInput, h]

/-! ### A level that holds (R155) -/

/-- An input of a block with power whose level has held for its time. -/
structure State.EdgeAccepted (s : State) (k held : Nat) : Prop where
  powered : s.axState ≠ axOff
  supplied : s.flag Fld.AX_STATUS_FLD_LOW = false
  holds : s.edgeHold k ≤ held

section
variable {level partner both : Bool} {cycle held : Nat}

theorem State.pulseEdge_short (h : held < s.edgeHold k) : s.pulseEdge k level partner both cycle held = s := by
  unfold State.pulseEdge
  exact if_pos (by simp [h])

theorem State.EdgeAccepted.guard (h : s.EdgeAccepted k held) : (decide (s.axState = axOff) ||
    s.flag Fld.AX_STATUS_FLD_LOW || decide (held < s.edgeHold k)) = false := by
  simp [h.powered, h.supplied, h.holds]

/-- An accepted edge of an input in EDGES shows its level and is counted if it is of the kind the input counts. -/
theorem State.pulseEdge_edges (h : s.EdgeAccepted k held) (hm : s.flag (Fld.AX_PI_CFG_MODE (k - k % 2)) = false)
    (he : s.flag (Fld.AX_PI_CFG_ENABLE k) = true) : s.pulseEdge k level partner both cycle held =
      if (s.wrB (Fld.AX_PI_STAT_LEVEL k) level).edgeCounts k level then
        (s.wrB (Fld.AX_PI_STAT_LEVEL k) level).countEdge k cycle
      else s.wrB (Fld.AX_PI_STAT_LEVEL k) level := by
  unfold State.pulseEdge
  simp [h.guard, hm, he]

/-- An accepted change of one input of a quadrature pair is a transition of the pair. -/
theorem State.pulseEdge_quad (h : s.EdgeAccepted k held) (hm : s.flag (Fld.AX_PI_CFG_MODE (k - k % 2)) = true)
    (he : s.flag (Fld.AX_PI_CFG_ENABLE (k - k % 2)) = true) : s.pulseEdge k level partner false cycle held =
      (s.wrB (Fld.AX_PI_STAT_LEVEL k) level).countQuad (k - k % 2)
        (if (level != partner) = decide (k % 2 = 0) then 1 else -1) cycle := by
  have hdir : (level != partner) = decide (k % 2 = 0) ↔ (¬ level = partner ↔ k % 2 = 0) := by
    cases level <;> cases partner <;> simp
  unfold State.pulseEdge
  simp [h.guard, hm, he, hdir]

/-- An accepted change of both inputs of a quadrature pair is counted as an error. -/
theorem State.pulseEdge_double (h : s.EdgeAccepted k held) (hm : s.flag (Fld.AX_PI_CFG_MODE (k - k % 2)) = true)
    (he : s.flag (Fld.AX_PI_CFG_ENABLE (k - k % 2)) = true) : s.pulseEdge k level partner true cycle held =
      ((s.wrB (Fld.AX_PI_STAT_LEVEL k) level).wrB (Fld.AX_PI_STAT_LEVEL (k - k % 2 + (1 - k % 2))) partner).count
        (Fld.AX_PI_STAT_QERR (k - k % 2)) := by
  unfold State.pulseEdge
  simp [h.guard, hm, he]

end

/-! ### A counted edge (R156, R157) -/

/-- A counted edge is seen in the count and in NO_SIGNAL alone; the rest is the input's working state. -/
theorem State.countEdge_regs (s : State) (k cycle : Nat) :
    (s.countEdge k cycle).regs = ((s.wrap (Fld.AX_PI_CNT_CNT k)).wrB (Fld.AX_PI_STAT_NO_SIGNAL k) false).regs := rfl

theorem State.countEdge_rd (s : State) (k cycle : Nat) (g : Field) :
    (s.countEdge k cycle).rd g = ((s.wrap (Fld.AX_PI_CNT_CNT k)).wrB (Fld.AX_PI_STAT_NO_SIGNAL k) false).rd g := rfl

theorem State.countEdge_count (s : State) (k cycle : Nat) :
    (s.countEdge k cycle).rd (Fld.AX_PI_CNT_CNT k) = (s.rd (Fld.AX_PI_CNT_CNT k) + 1) % 2 ^ 32 := by
  obtain ⟨-, -, hcount, -, -⟩ := pulseInput_apart k
  rw [State.countEdge_rd, State.rd_wrB_apart _ _ hcount, State.rd_wrap_same]
  rfl

theorem State.countEdge_level (s : State) (k cycle : Nat) :
    (s.countEdge k cycle).flag (Fld.AX_PI_STAT_LEVEL k) = s.flag (Fld.AX_PI_STAT_LEVEL k) := by
  obtain ⟨hcount, hsignal, -, -, -⟩ := pulseInput_apart k
  refine State.flag_congr ?_
  rw [State.countEdge_rd, State.rd_wrB_apart _ _ hsignal, State.wrap, State.rd_wr_apart _ _ hcount]

theorem State.keepsWords.countEdge {l : List Nat} {cycle : Nat} (h : s0.keepsWords s l) (hc : Adr.AX_PI_CNT k ∈ l)
    (hs : Adr.AX_PI_STAT k ∈ l) : s0.keepsWords (s.countEdge k cycle) l := by
  obtain ⟨hcount, -, -, hsignal⟩ := pulseInput_words k
  have hk : s0.keepsWords ((s.wrap (Fld.AX_PI_CNT_CNT k)).wrB (Fld.AX_PI_STAT_NO_SIGNAL k) false) l :=
    .wrB (.wr h hcount hc) hsignal hs
  exact hk.sameRegs (s.countEdge_regs k cycle)

/-- The edges an input counts are configured apart from its level. -/
theorem State.edgeCounts_wrB_level (s : State) (k : Nat) (b level : Bool) :
    (s.wrB (Fld.AX_PI_STAT_LEVEL k) b).edgeCounts k level = s.edgeCounts k level := by
  obtain ⟨-, -, hedge⟩ := pulseLevel_apart k k
  unfold State.edgeCounts
  rw [State.rd_wrB_apart _ _ hedge]

section
variable {level partner both : Bool} {cycle held : Nat}

/-- An accepted edge of an input in EDGES: its level shows, a counted edge adds 1, and no other word changes. -/
theorem State.pulseEdge_counted (h : s.EdgeAccepted k held) (hm : s.flag (Fld.AX_PI_CFG_MODE (k - k % 2)) = false)
    (he : s.flag (Fld.AX_PI_CFG_ENABLE k) = true) :
    (s.pulseEdge k level partner both cycle held).flag (Fld.AX_PI_STAT_LEVEL k) = level ∧
      (s.pulseEdge k level partner both cycle held).rd (Fld.AX_PI_CNT_CNT k) =
        (if s.edgeCounts k level then (s.rd (Fld.AX_PI_CNT_CNT k) + 1) % 2 ^ 32 else s.rd (Fld.AX_PI_CNT_CNT k)) ∧
      s.keepsWords (s.pulseEdge k level partner both cycle held) [Adr.AX_PI_CNT k, Adr.AX_PI_STAT k] := by
  obtain ⟨-, -, hlevel, -⟩ := pulseInput_words k
  have hshown : (s.wrB (Fld.AX_PI_STAT_LEVEL k) level).flag (Fld.AX_PI_STAT_LEVEL k) = level := State.flag_wrB_same _ _ _ rfl
  have hcount : (s.wrB (Fld.AX_PI_STAT_LEVEL k) level).rd (Fld.AX_PI_CNT_CNT k) = s.rd (Fld.AX_PI_CNT_CNT k) :=
    State.rd_wrB_apart _ _ (pulseLevel_apart k k).1
  have hwords : s.keepsWords (s.wrB (Fld.AX_PI_STAT_LEVEL k) level) [Adr.AX_PI_CNT k, Adr.AX_PI_STAT k] :=
    .wrB (.of_regs rfl) hlevel (.tail _ (.head _))
  rw [State.pulseEdge_edges h hm he, State.edgeCounts_wrB_level]
  by_cases hc : s.edgeCounts k level = true
  · rw [if_pos hc, if_pos hc, State.countEdge_level, State.countEdge_count, hcount]
    exact ⟨hshown, rfl, .countEdge hwords (.head _) (.tail _ (.head _))⟩
  · rw [if_neg hc, if_neg hc]
    exact ⟨hshown, hcount, hwords⟩

/-! ### A quadrature pair (R156) -/

/-- A transition adds its direction to the pair's count. -/
theorem State.countQuad_count (s : State) (m : Nat) (dir : Int) (cycle : Nat) :
    (s.countQuad m dir cycle).rd (Fld.AX_PI_CNT_CNT m) = ofSigned 32 (s.rdS (Fld.AX_PI_CNT_CNT m) + dir) := by
  have h : (s.countQuad m dir cycle).rd (Fld.AX_PI_CNT_CNT m) =
      (s.wrS (Fld.AX_PI_CNT_CNT m) (s.rdS (Fld.AX_PI_CNT_CNT m) + dir)).rd (Fld.AX_PI_CNT_CNT m) := by
    unfold State.countQuad
    dsimp only
    split <;> rfl
  rw [h, State.wrS, State.rd_wr_same]
  exact Nat.mod_eq_of_lt (ofSigned_lt 32 _)

theorem State.pulseEdge_transition (h : s.EdgeAccepted k held) (hm : s.flag (Fld.AX_PI_CFG_MODE (k - k % 2)) = true)
    (he : s.flag (Fld.AX_PI_CFG_ENABLE (k - k % 2)) = true) :
    (s.pulseEdge k level partner false cycle held).rd (Fld.AX_PI_CNT_CNT (k - k % 2)) =
      ofSigned 32 (s.rdS (Fld.AX_PI_CNT_CNT (k - k % 2)) +
        (if (level != partner) = decide (k % 2 = 0) then 1 else -1)) := by
  rw [State.pulseEdge_quad h hm he, State.countQuad_count, State.rdS,
    State.rd_wrB_apart _ _ (pulseLevel_apart k _).1, State.rdS]

theorem State.pulseEdge_error (h : s.EdgeAccepted k held) (hm : s.flag (Fld.AX_PI_CFG_MODE (k - k % 2)) = true)
    (he : s.flag (Fld.AX_PI_CFG_ENABLE (k - k % 2)) = true) :
    (s.pulseEdge k level partner true cycle held).rd (Fld.AX_PI_STAT_QERR (k - k % 2)) =
        min (s.rd (Fld.AX_PI_STAT_QERR (k - k % 2)) + 1) 0xFFFF ∧
      (s.pulseEdge k level partner true cycle held).rd (Fld.AX_PI_CNT_CNT (k - k % 2)) =
        s.rd (Fld.AX_PI_CNT_CNT (k - k % 2)) := by
  obtain ⟨-, -, -, -, herror⟩ := pulseInput_apart (k - k % 2)
  obtain ⟨hcount, hqerr, -⟩ := pulseLevel_apart k (k - k % 2)
  obtain ⟨hcount', hqerr', -⟩ := pulseLevel_apart (k - k % 2 + (1 - k % 2)) (k - k % 2)
  rw [State.pulseEdge_double h hm he, State.rd_count_same, State.rd_count_apart _ _ herror,
    State.rd_wrB_apart _ _ hqerr', State.rd_wrB_apart _ _ hqerr, State.rd_wrB_apart _ _ hcount',
    State.rd_wrB_apart _ _ hcount]
  exact ⟨rfl, rfl⟩

end

/-! ### A gate that passes without an edge (R157, R159) -/

theorem State.noSignal_idle (h : s.axState = axOff ∨ s.gateOver k = false) : s.noSignal k = s := by
  unfold State.noSignal
  exact if_pos (by obtain h | h := h <;> simp [h])

theorem State.noSignal_ends (he : s.flag (Fld.AX_PI_CFG_ENABLE k) = true) (hm : s.flag (Fld.AX_PI_CFG_MODE k) = false)
    (ha : s.axState ≠ axOff) (hg : s.gateOver k = true) : s.noSignal k =
      ((s.setInput k { s.input k with prev := none }).wr (Fld.AX_PI_FREQ_FREQ k) 0).wrB (Fld.AX_PI_STAT_NO_SIGNAL k) true := by
  unfold State.noSignal
  exact if_neg (by simp [he, hm, ha, hg])

/-- The frequency reads 0, NO_SIGNAL is set, the gate waits for its first edge, and no other word changes. -/
theorem State.noSignal_shown (he : s.flag (Fld.AX_PI_CFG_ENABLE k) = true) (hm : s.flag (Fld.AX_PI_CFG_MODE k) = false)
    (ha : s.axState ≠ axOff) (hg : s.gateOver k = true) (hk : k < s.aux.inputs.length) :
    (s.noSignal k).rd (Fld.AX_PI_FREQ_FREQ k) = 0 ∧ (s.noSignal k).flag (Fld.AX_PI_STAT_NO_SIGNAL k) = true ∧
      ((s.noSignal k).input k).prev = none ∧ s.keepsWords (s.noSignal k) [Adr.AX_PI_FREQ k, Adr.AX_PI_STAT k] := by
  obtain ⟨-, -, -, hfreq, -⟩ := pulseInput_apart k
  obtain ⟨-, hfreqWord, -, hsignalWord⟩ := pulseInput_words k
  rw [State.noSignal_ends he hm ha hg]
  refine ⟨?_, State.flag_wrB_same _ _ _ rfl, congrArg PulseIn.prev (State.input_setInput_same hk),
    .wrB (.wr (.of_regs rfl) hfreqWord (.head _)) hsignalWord (.tail _ (.head _))⟩
  rw [State.rd_wrB_apart _ _ hfreq, State.rd_wr_same, Nat.zero_mod]

/-! ### The statement -/

/-- Settles O40: one lemma above for each kind of input, by what has been accepted. -/
theorem pulseInputs : Obligations.PulseInputs := by
  unfold Obligations.PulseInputs
  intro s k m
  refine ⟨fun level partner both cycle held hshort => congrArg Host.Outcome.next (State.pulseEdge_short hshort),
    fun level partner both cycle held ha hl hh => ?accepted, fun he hm ha hg hlen => ?gate,
    fun h => congrArg Host.Outcome.next (State.noSignal_idle h)⟩
  case accepted =>
    have h : s.EdgeAccepted k.val held := ⟨ha, hl, hh⟩
    refine ⟨fun hm he => ⟨_, rfl, State.pulseEdge_counted h hm he⟩, fun hm he hb => ?_, fun hm he hb => ?_⟩
    · subst hb
      exact ⟨_, rfl, State.pulseEdge_transition h hm he⟩
    · subst hb
      exact ⟨_, rfl, State.pulseEdge_error h hm he⟩
  case gate => exact ⟨_, rfl, State.noSignal_shown he hm ha hg (k.isLt.trans_eq hlen.symm)⟩

end Sys2Proof.Machine
end

section
/-!
The triggers and the settling of a scan (R147, R150 to R152): a trigger that is taken, one that waits or is counted, and the
end of the settling.
-/

namespace Sys2Proof.Machine
variable {s0 s t : State} {v : Nat}

/-! ### The scanner's state -/

theorem State.setAx_regsOnly (s : State) (v : Nat) : s.regsOnly (s.setAx v) :=
  State.regsOnly.trans (State.regsOnly.wr (.refl s)) (State.refreshExc_regsOnly _)

@[simp] theorem State.setAx_aux (s : State) (v : Nat) : (s.setAx v).aux = s.aux := rfl

theorem State.keepsWords.setAx {l : List Nat} (h : s0.keepsWords s l) (hs : Adr.AX_STATUS ∈ l := by decide)
    (he : Adr.AX_EXC_STAT ∈ l := by decide) : s0.keepsWords (s.setAx v) l := by
  unfold State.setAx
  exact .refreshExc (.wr h rfl hs) he

theorem State.axState_setAx (hv : v < 8) : (s.setAx v).axState = v := by
  unfold State.setAx State.axState
  rw [State.rd_refreshExc rfl rfl, State.rd_wr_same]
  exact Nat.mod_eq_of_lt hv

/-- The other fields of AX_STATUS stay. -/
theorem State.rd_setAx {g : Field} (hs : Fld.AX_STATUS_STATE.apart g = true) (hon : Fld.AX_EXC_STAT_ON.apart g = true)
    (hopen : Fld.AX_EXC_STAT_OPEN.apart g = true) : (s.setAx v).rd g = s.rd g := by
  unfold State.setAx
  rw [State.rd_refreshExc hon hopen, State.rd_wr_apart _ _ hs]

theorem State.axBusy_idle (h : s.axState = axIdle) : s.axBusy = false := by
  simp [State.axBusy, h, axIdle, axSettle, axScan]

theorem State.not_idle_of_axBusy (h : s.axBusy = true) : s.axState ≠ axIdle := fun hi => by
  rw [State.axBusy_idle hi] at h
  exact absurd h Bool.false_ne_true

/-! ### A trigger that is taken (R147, R150, R151) -/

/-- The state a scan begins in. -/
def State.firstState (s : State) : Nat := if s.scanSettle = 0 then axScan else axSettle

theorem State.firstState_lt (s : State) : s.firstState < 8 := by
  unfold State.firstState
  split <;> decide

/-- A scan as the trigger that is taken notes it. -/
def State.takeNoted (s : State) (n : Nat) : State :=
  { s with aux := { s.aux with
    takenAt := n, settle := s.scanSettle, plan := s.scanPlan, excOn := s.excMask true
    touched := s.flag Fld.AX_STATUS_FLD_LOW } }

theorem State.scanTake_eq (s : State) (n : Nat) : s.scanTake n = (s.takeNoted n).setAx s.firstState := rfl

/-- A trigger that is taken starts the scan of the channels selected, with its settling where it has one. -/
theorem State.scanTake_taken (s : State) (n : Nat) : ((s.scanTake n).axState = s.firstState ∧
    (s.scanTake n).aux.plan = s.scanPlan ∧ s.keepsWords (s.scanTake n) [Adr.AX_STATUS, Adr.AX_EXC_STAT]) ∧
      (s.scanTake n).aux.takenAt = n := by
  rw [State.scanTake_eq, State.axState_setAx s.firstState_lt, State.setAx_aux]
  exact ⟨⟨rfl, rfl, .setAx (.of_regs rfl)⟩, rfl⟩

theorem State.scanTriggered_idle (h : s.axState = axIdle) (n : Nat) : s.scanTriggered n = s.scanTake n := by
  unfold State.scanTriggered
  exact if_pos h

theorem exec_scanTrigger (p : Path) (h : s.core.running = true) :
    exec (.scanTrigger p) s = .next (s.scanTriggered (s.epoch + 1)) :=
  congrArg Host.Outcome.next (State.host_of_running h)

/-- The state in which a periodic trigger arrives. -/
def State.periodNoted (s : State) : State := { s with aux := { s.aux with periodAt := some s.nextPeriodic } }

theorem State.periodicTrigger_idle (ht : s.rd Fld.AX_SCAN_CFG_TRIG = 1) (h : s.axState = axIdle) :
    s.periodicTrigger = s.periodNoted.scanTake s.nextPeriodic := by
  have hbusy : s.periodNoted.axBusy = false := State.axBusy_idle h
  unfold State.periodicTrigger
  rw [if_pos ht, ← State.scanTriggered_idle (s := s.periodNoted) h]
  exact if_neg fun hboth => Bool.false_ne_true (hbusy.symm.trans (Bool.and_eq_true_iff.1 hboth).1)

/-- A periodic trigger is timed at the next boundary or at a multiple of its period after the last one (R151). -/
theorem State.nextPeriodic_timed (s : State) : s.nextPeriodic = s.nextBoundary ∨
    (s.nextPeriodic - s.core.tickEpoch) % (1024 * max 1 (s.rd Fld.AX_SCAN_CFG_PERIOD)) = 0 := by
  refine (min_choice _ _).symm.imp id fun h => ?_
  rw [State.nextPeriodic, h, Nat.add_sub_cancel_left, Nat.mul_mod_left]

/-! ### A trigger during a scan (R152) -/

theorem State.scanTriggered_waits (hb : s.axBusy = true) (hp : s.flag Fld.AX_STATUS_PENDING = false) (n : Nat) :
    s.scanTriggered n = s.wrB Fld.AX_STATUS_PENDING true := by
  unfold State.scanTriggered
  rw [if_neg (State.not_idle_of_axBusy hb), if_pos hb, if_neg (by simp [hp])]

theorem State.scanTriggered_counted (hb : s.axBusy = true) (hp : s.flag Fld.AX_STATUS_PENDING = true) (n : Nat) :
    s.scanTriggered n = s.count Fld.AX_TRIG_OVERRUN_COUNT := by
  unfold State.scanTriggered
  rw [if_neg (State.not_idle_of_axBusy hb), if_pos hb, if_pos hp]

/-- The settling ends in the scan's conversions (R150). -/
theorem State.settleEnd_scans (h : s.axState = axSettle) : s.settleEnd = s.setAx axScan := by
  unfold State.settleEnd
  exact if_pos h

end Sys2Proof.Machine
end

section
/-!
The completion of a scan (R146, R149, R150, R153): what a channel's run shows, what a tick capture leaves, and a slice that is
isolated.
-/

namespace Sys2Proof.Machine
variable {s0 s t : State} {n m : Nat}

/-! ### The fields a completed scan is read by -/

/-- The state of the scanner, in AX_STATUS. -/
def scannerFields : List Field := [Fld.AX_STATUS_STATE, Fld.AX_STATUS_PENDING, Fld.AX_STATUS_SCAN_CNT]

/-- What a scan shows of a channel. -/
def shownFields (n : Nat) : List Field :=
  [Fld.AX_LAST_VALUE n, Fld.AX_LSTAT_VALID n, Fld.AX_LSTAT_OVER n, Fld.AX_LSTAT_FAULT n]

def scanFields (n : Nat) : List Field := scannerFields ++ shownFields n

theorem scannerField_scan {g : Field} (hg : g ∈ scannerFields) (n : Nat) : g ∈ scanFields n := List.mem_append_left _ hg

theorem shownField_scan {g : Field} (hg : g ∈ shownFields n) : g ∈ scanFields n := List.mem_append_right _ hg

/-- Their words: AX_STATUS, and a channel's value and status. -/
theorem scanField_word {g : Field} (hg : g ∈ scanFields n) : g.words = 1 ∧
    (g.addr = 0x102000 ∨ g.addr = 0x102104 + 0x20 * n ∨ g.addr = 0x102108 + 0x20 * n) := by
  simp only [scanFields, scannerFields, shownFields, List.cons_append, List.nil_append, List.mem_cons, List.not_mem_nil,
    or_false] at hg
  obtain rfl | rfl | rfl | rfl | rfl | rfl | rfl := hg <;>
    simp [Field.words, Fld.AX_STATUS_STATE, Fld.AX_STATUS_PENDING, Fld.AX_STATUS_SCAN_CNT, Fld.AX_LAST_VALUE,
      Fld.AX_LSTAT_VALID, Fld.AX_LSTAT_OVER, Fld.AX_LSTAT_FAULT]

/-- A channel's value and status lie above the scanner's registers. -/
theorem shownField_above {g : Field} (hg : g ∈ shownFields n) : 0x102104 ≤ g.addr := by
  simp only [shownFields, List.mem_cons, List.not_mem_nil, or_false] at hg
  obtain rfl | rfl | rfl | rfl := hg <;>
    simp [Fld.AX_LAST_VALUE, Fld.AX_LSTAT_VALID, Fld.AX_LSTAT_OVER, Fld.AX_LSTAT_FAULT] <;> omega

theorem scannerField_below : ∀ g ∈ scannerFields, g.addr + 4 * g.words ≤ 0x102104 := by decide

/-- A record of an error leaves them. -/
theorem scanField_recordFree (hn : n < 34) : ∀ g ∈ scanFields n, g.recordFree = true ∧ g.escFree = true := by
  revert n
  decide

/-! ### A tick capture (R153) -/

/-- What a tick capture writes of a channel. -/
def captureFields (n : Nat) : List Field :=
  [Fld.AX_ACC_SUM_SUM n, Fld.AX_ACC_CNT_CNT n, Fld.AX_ACC_CNT_OVER_SEEN n, Fld.AX_ACC_CNT_FAULT_SEEN n,
    Fld.AX_ACC_CNT_FLD_SEEN n, Fld.AX_MM_MAX_MAX n, Fld.AX_MM_MIN_MIN n]

theorem captureField_within {f : Field} (hf : f ∈ captureFields n) :
    0x10210C + 0x20 * n ≤ f.addr ∧ f.addr + 4 * f.words ≤ 0x102120 + 0x20 * n := by
  simp only [captureFields, List.mem_cons, List.not_mem_nil, or_false] at hf
  obtain rfl | rfl | rfl | rfl | rfl | rfl | rfl := hf <;>
    simp [Field.words, Fld.AX_ACC_SUM_SUM, Fld.AX_ACC_CNT_CNT, Fld.AX_ACC_CNT_OVER_SEEN, Fld.AX_ACC_CNT_FAULT_SEEN,
      Fld.AX_ACC_CNT_FLD_SEEN, Fld.AX_MM_MAX_MAX, Fld.AX_MM_MIN_MIN] <;> omega

theorem captureField_apart {f g : Field} (hf : f ∈ captureFields m) (hg : g ∈ scanFields n) : f.apart g = true := by
  obtain ⟨hlow, hhigh⟩ := captureField_within hf
  obtain ⟨hword, haddr⟩ := scanField_word hg
  simp only [Field.apart, hword, Bool.or_eq_true, decide_eq_true_eq]
  omega

theorem State.regsOnly.aux (h : s.regsOnly t) : t.aux = s.aux := by rw [h]

theorem Leaves.wrCapture {f g : Field} (h : Leaves g s0 s) (hg : g ∈ scanFields n) {v} (m : Nat)
    (hf : f ∈ captureFields m := by simp [captureFields]) : Leaves g s0 (s.wr f v) := h.wr (captureField_apart hf hg)

/-- A capture leaves the state of the scanner and what a scan has shown. -/
theorem Leaves.axCaptureScan {g : Field} (h : Leaves g s0 s) (hg : g ∈ scanFields n) : Leaves g s0 s.axCaptureDue := by
  obtain ⟨hword, haddr⟩ := scanField_word hg
  have hseq : Fld.AX_TICK_SEQ_SEQ.apart g = true := Field.apart_of_ne rfl hword (by
    simp only [Fld.AX_TICK_SEQ_SEQ]
    omega)
  unfold State.axCaptureDue State.axCapture
  refine .ite (.wr (.update (.foldl h fun u m _ hu => ?_)) hseq) h
  exact .wrCapture (.wrCapture (.wrCapture (.wrCapture (.wrCapture (.wrCapture (.wrCapture hu hg m) hg m) hg m) hg m) hg m)
    hg m) hg m

theorem State.foldl_aux {α : Type} {f : State → α → State} (hf : ∀ u x, (f u x).aux = u.aux) (l : List α) (s : State) :
    (l.foldl f s).aux = s.aux := by
  induction l generalizing s with
  | nil => rfl
  | cons x l ih => exact (ih (f s x)).trans (hf s x)

/-- A capture that has been made waits no more; the rest of the scanner stays. -/
theorem State.captured_isolated (t : State) (f : Field) :
    (({ t with aux := { t.aux with capDue := none } } : State).wrap f).aux.isolated = t.aux.isolated := rfl

theorem State.axCaptureDue_isolated (s : State) : s.axCaptureDue.aux.isolated = s.aux.isolated := by
  unfold State.axCaptureDue State.axCapture
  split
  · refine (State.captured_isolated _ _).trans (congrArg Aux.isolated (State.foldl_aux (fun u m => ?_) _ s))
    simp only [State.wrS_aux, State.wrB_aux, State.wr_aux]
  · rfl

/-! ### What a channel's run shows (R146, R149) -/

/-- What a scan writes of a channel. -/
def channelFields (n : Nat) : List Field :=
  [Fld.AX_LAST_VALUE n, Fld.AX_LSTAT_OVER n, Fld.AX_LSTAT_FAULT n, Fld.AX_LSTAT_FLD n, Fld.AX_LSTAT_VALID n,
    Fld.AX_LSTAT_SEQ n]

theorem channelFields_apart (n : Nat) : (channelFields n).Pairwise fun f g => g.apart f = true := by
  simp [channelFields, Field.apart, Field.words, Fld.AX_LAST_VALUE, Fld.AX_LSTAT_OVER, Fld.AX_LSTAT_FAULT,
    Fld.AX_LSTAT_FLD, Fld.AX_LSTAT_VALID, Fld.AX_LSTAT_SEQ]
  omega

/-- The channels lie above AX_STATUS. -/
theorem channelField_apart {f g : Field} (hf : f ∈ channelFields m) (hg : g.addr + 4 * g.words ≤ 0x102104) :
    f.apart g = true := by
  refine Field.apart_of_above (hg.trans ?_)
  simp only [channelFields, List.mem_cons, List.not_mem_nil, or_false] at hf
  obtain rfl | rfl | rfl | rfl | rfl | rfl := hf <;>
    simp [Fld.AX_LAST_VALUE, Fld.AX_LSTAT_OVER, Fld.AX_LSTAT_FAULT, Fld.AX_LSTAT_FLD, Fld.AX_LSTAT_VALID,
      Fld.AX_LSTAT_SEQ] <;> omega

theorem Leaves.wrChannel {f g : Field} (h : Leaves g s0 s) (hg : g.addr + 4 * g.words ≤ 0x102104) {v} (m : Nat)
    (hf : f ∈ channelFields m := by simp [channelFields]) : Leaves g s0 (s.wr f v) := h.wr (channelField_apart hf hg)

/-- A channel's run leaves the state of the scanner. -/
theorem Leaves.chanDone {g : Field} (h : Leaves g s0 s) (hg : g.addr + 4 * g.words ≤ 0x102104) {late p r} :
    Leaves g s0 (s.chanDone late p r) := by
  unfold State.chanDone
  extract_lets n _ t1 t2 t3 t4
  have h1 : Leaves g s0 t1 := .ite h (.wrChannel h hg n)
  have h2 : Leaves g s0 t2 := .wrChannel (.wrChannel h1 hg n) hg n
  have h3 : Leaves g s0 t3 := .wrChannel (.wrChannel h2 hg n) hg n
  have h4 : Leaves g s0 t4 := .wrChannel h3 hg n
  exact .update h4

section
variable (s) (p : AuxChan) (r : ChanRun)

/-- The registers after a channel's run of four values or more. -/
def State.chanShown : State :=
  (((((s.wrS (Fld.AX_LAST_VALUE p.chan) (s.scanMean p.gain r.vals)).wrB (Fld.AX_LSTAT_OVER p.chan) r.rail).wrB
    (Fld.AX_LSTAT_FAULT p.chan) (r.vals.length < p.osr)).wrB (Fld.AX_LSTAT_FLD p.chan) s.aux.touched).wrB
    (Fld.AX_LSTAT_VALID p.chan) true).wrap (Fld.AX_LSTAT_SEQ p.chan)

variable {r} in
theorem State.chanDone_rd (h : 4 ≤ r.vals.length) (late : Bool) (g : Field) :
    (s.chanDone late p r).rd g = (s.chanShown p r).rd g := by
  unfold State.chanDone State.chanShown
  dsimp only
  rw [if_neg (Nat.not_lt.2 h)]
  rfl

/-- The value is the mean of the run's, OVER its rail, FAULT whether conversions are missing. -/
theorem State.chanShown_shows :
    (s.chanShown p r).rd (Fld.AX_LAST_VALUE p.chan) = ofSigned 32 (s.scanMean p.gain r.vals) ∧
      (s.chanShown p r).flag (Fld.AX_LSTAT_VALID p.chan) = true ∧
      (s.chanShown p r).flag (Fld.AX_LSTAT_OVER p.chan) = r.rail ∧
      (s.chanShown p r).flag (Fld.AX_LSTAT_FAULT p.chan) = decide (r.vals.length < p.osr) := by
  have hapart := channelFields_apart p.chan
  simp only [channelFields, List.pairwise_cons, List.forall_mem_cons] at hapart
  unfold State.chanShown State.wrap State.wrS
  simp only [hapart, State.rd_wr_apart, State.rd_wrB_apart, State.rd_wr_same, State.flag_wr_apart, State.flag_wrB_apart]
  exact ⟨Nat.mod_eq_of_lt (ofSigned_lt 32 _), State.flag_wrB_same _ _ _ rfl, State.flag_wrB_same _ _ _ rfl,
    State.flag_wrB_same _ _ _ rfl⟩

end

/-! ### The end of a scan (R149, R150, R152) -/

/-- The state in which a scan of these runs ends: its discards are counted and noted. -/
def State.scanCounted (s : State) (runs : List (AuxChan × ChanRun)) (n : Nat) : State :=
  let bad := runs.flatMap fun r => r.2.residue
  let c := (s.count Fld.AX_DISCARD_GAIN ((runs.map fun r => r.2.gain).sum)).count Fld.AX_DISCARD_RESIDUE bad.length
  { c with aux := { s.aux with
    discards := (s.aux.discards ++ bad).filter fun e => s.aux.takenAt + s.aux.settle + n < e + secondEpochs
    lastGain := runs.getLast?.elim s.aux.lastGain fun r => some r.1.gain } }

theorem Leaves.scanCounted {g : Field} (hg : g ∈ scanFields m) (runs : List (AuxChan × ChanRun)) :
    Leaves g s (s.scanCounted runs n) := by
  obtain ⟨hword, haddr⟩ := scanField_word hg
  have hdiscard : ∀ f ∈ [Fld.AX_DISCARD_GAIN, Fld.AX_DISCARD_RESIDUE], f.words = 1 ∧ f.addr = 0x102014 := by decide
  have hapart {f : Field} (hf : f ∈ [Fld.AX_DISCARD_GAIN, Fld.AX_DISCARD_RESIDUE]) : f.apart g = true := by
    obtain ⟨hfword, hfaddr⟩ := hdiscard f hf
    exact Field.apart_of_ne hfword hword (by omega)
  exact .update (.wr (.wr (.refl g s) (hapart (.head _))) (hapart (.tail _ (.head _))))

/-- Whether the scan's last hold edge lies before a boundary whose capture waits for it (R150). -/
def State.scanLate (s : State) (n : Nat) : Bool := s.aux.capDue.any fun e => decide (s.aux.takenAt + s.aux.settle + n < e)

section
variable {runs : List (AuxChan × ChanRun)}

theorem State.scanComplete_ends (h : tooMany (s.aux.discards ++ runs.flatMap fun r => r.2.residue) = false) :
    s.scanComplete runs n = ((runs.foldl (fun u r => u.chanDone (s.scanLate n) r.1 r.2) (s.scanCounted runs n)).scanEnd
      (s.aux.takenAt + s.aux.settle + n)).axCaptureDue := by
  unfold State.scanComplete
  exact if_neg (by simp [h])

theorem State.scanComplete_isolates (h : tooMany (s.aux.discards ++ runs.flatMap fun r => r.2.residue) = true) :
    s.scanComplete runs n = (s.scanCounted runs n).axIsolate.axCaptureDue := by
  unfold State.scanComplete
  exact if_pos h

end

/-- The scanner's state and the sources lie below the channels. -/
theorem Leaves.setAx {g : Field} (h : Leaves g s0 s) (hg : 0x102104 ≤ g.addr) {v} : Leaves g s0 (s.setAx v) := by
  have hbelow : ∀ f ∈ [Fld.AX_STATUS_STATE, Fld.AX_EXC_STAT_ON, Fld.AX_EXC_STAT_OPEN], f.addr + 4 * f.words ≤ 0x102104 := by
    decide
  have hapart {f : Field} (hf : f ∈ [Fld.AX_STATUS_STATE, Fld.AX_EXC_STAT_ON, Fld.AX_EXC_STAT_OPEN]) : f.apart g = true :=
    Field.apart_of_below ((hbelow f hf).trans hg)
  unfold State.setAx State.refreshExc
  exact .wr (.wr (.wr h (hapart (.head _))) (hapart (.tail _ (.head _)))) (hapart (.tail _ (.tail _ (.head _))))

/-- A scan without a trigger that waits leaves the scanner idle, and is counted. -/
theorem State.scanEnd_frees (h : s.flag Fld.AX_STATUS_PENDING = false) (last : Nat) :
    s.scanEnd last = (s.setAx axIdle).wrap Fld.AX_STATUS_SCAN_CNT := by
  have hp : ((s.setAx axIdle).wrap Fld.AX_STATUS_SCAN_CNT).flag Fld.AX_STATUS_PENDING = false := by
    unfold State.wrap
    rw [State.flag_wr_apart rfl, State.flag_congr (State.rd_setAx rfl rfl rfl), h]
  unfold State.scanEnd
  exact if_neg (by simp [hp])

/-- What a completed scan of one channel leaves: the scanner idle, the scan counted, the channel's value and status. -/
theorem State.scanComplete_shown {c : AuxChan} {r : ChanRun} (hv : 4 ≤ r.vals.length)
    (hd : tooMany (s.aux.discards ++ r.residue) = false) (hp : s.flag Fld.AX_STATUS_PENDING = false) :
    (s.scanComplete [(c, r)] n).axState = axIdle ∧
      (s.scanComplete [(c, r)] n).rd (Fld.AX_LAST_VALUE c.chan) = ofSigned 32 (s.scanMean c.gain r.vals) ∧
      (s.scanComplete [(c, r)] n).flag (Fld.AX_LSTAT_VALID c.chan) = true ∧
      (s.scanComplete [(c, r)] n).flag (Fld.AX_LSTAT_OVER c.chan) = r.rail ∧
      (s.scanComplete [(c, r)] n).flag (Fld.AX_LSTAT_FAULT c.chan) = decide (r.vals.length < c.osr) ∧
      (s.scanComplete [(c, r)] n).rd Fld.AX_STATUS_SCAN_CNT = (s.rd Fld.AX_STATUS_SCAN_CNT + 1) % 2 ^ 16 ∧
      (s.scanComplete [(c, r)] n).led = s.led ∧ (s.scanComplete [(c, r)] n).str = s.str := by
  let u := (s.scanCounted [(c, r)] n).chanDone (s.scanLate n) c r
  let e := (u.setAx axIdle).wrap Fld.AX_STATUS_SCAN_CNT
  have hstatus {g : Field} (hg : g ∈ scannerFields) : Leaves g s u :=
    .chanDone (.scanCounted (scannerField_scan hg 0) _) (scannerField_below g hg)
  have hfree : u.flag Fld.AX_STATUS_PENDING = false := (hstatus (.tail _ (.head _))).flag.trans hp
  have hends : s.scanComplete [(c, r)] n = e.axCaptureDue := by
    rw [State.scanComplete_ends (by simpa using hd)]
    exact congrArg State.axCaptureDue (State.scanEnd_frees hfree _)
  have hcapture {g : Field} (hg : g ∈ scanFields c.chan) : Leaves g e e.axCaptureDue := .axCaptureScan (.refl g e) hg
  have hend {g : Field} (hg : g ∈ shownFields c.chan) : Leaves g u e :=
    .wr (.setAx (.refl g u) (shownField_above hg)) (Field.apart_of_below (le_trans (by decide) (shownField_above hg)))
  have hchannel {g : Field} (hg : g ∈ shownFields c.chan) :
      e.axCaptureDue.rd g = ((s.scanCounted [(c, r)] n).chanShown c r).rd g := by
    rw [(hcapture (shownField_scan hg)).rd, (hend hg).rd, State.chanDone_rd _ _ hv]
  obtain ⟨hvalue, hvalid, hover, hfault⟩ := (s.scanCounted [(c, r)] n).chanShown_shows c r
  rw [hends]
  refine ⟨?idle, ?value, ?valid, ?rail, ?fault, ?count, ?led, ?str⟩
  case idle =>
    rw [State.axState, (hcapture (.head _)).rd]
    exact (State.rd_wr_apart _ _ rfl).trans (State.axState_setAx (by decide))
  case value => exact (hchannel (.head _)).trans hvalue
  case valid => exact (State.flag_congr (hchannel (.tail _ (.head _)))).trans hvalid
  case rail => exact (State.flag_congr (hchannel (.tail _ (.tail _ (.head _))))).trans hover
  case fault => exact (State.flag_congr (hchannel (.tail _ (.tail _ (.tail _ (.head _)))))).trans hfault
  case count =>
    rw [(hcapture (.tail _ (.tail _ (.head _)))).rd, State.rd_wrap_same, State.rd_setAx rfl rfl rfl,
      (hstatus (.tail _ (.tail _ (.head _)))).rd]
    rfl
  case led => exact (hcapture (.head _)).led.trans ((hend (.head _)).led.trans (hstatus (.head _)).led)
  case str => exact (hcapture (.head _)).str.trans ((hend (.head _)).str.trans (hstatus (.head _)).str)

/-! ### A slice that is isolated (R149) -/

/-- The channels of a slice that is isolated keep their values with FAULT. -/
def State.faultChannels (s : State) (k : Nat) : State :=
  (List.range k).foldl (fun s n => s.wrB (Fld.AX_LSTAT_FAULT n) true) s

theorem State.faultChannels_succ (s : State) (k : Nat) :
    s.faultChannels (k + 1) = (s.faultChannels k).wrB (Fld.AX_LSTAT_FAULT k) true := by
  simp [State.faultChannels, List.range_succ]

theorem State.faultChannels_regsOnly (s : State) (k : Nat) : s.regsOnly (s.faultChannels k) := by
  unfold State.faultChannels
  exact .foldl (.refl s) fun _ _ h => .wrB h

theorem channelFault_apart (h : n ≠ m) : (Fld.AX_LSTAT_FAULT m).apart (Fld.AX_LSTAT_FAULT n) = true := by
  simp [Field.apart, Field.words, Fld.AX_LSTAT_FAULT]
  omega

theorem State.faultChannels_flag (s : State) {k : Nat} (hn : n < k) :
    (s.faultChannels k).flag (Fld.AX_LSTAT_FAULT n) = true := by
  induction k with
  | zero => exact absurd hn (Nat.not_lt_zero n)
  | succ k ih =>
    rw [State.faultChannels_succ]
    obtain rfl | hne := eq_or_ne n k
    · exact State.flag_wrB_same _ _ _ rfl
    · rw [State.flag_wrB_apart (channelFault_apart hne)]
      exact ih (Nat.lt_of_le_of_ne (Nat.lt_succ_iff.1 hn) hne)

/-- The scanner of a slice that is isolated, before the error is counted and recorded. -/
def State.scannerIsolated (s : State) : State :=
  ((({ s with aux := { s.aux with isolated := true, lastGain := none } } : State).faultChannels 34).wrB
    Fld.AX_STATUS_PENDING false).setAx axIsolated

theorem State.axIsolate_eq (s : State) :
    s.axIsolate = (s.scannerIsolated.escBlock 0).escRecord 1 0 20 0 0x04 0x04 := rfl

theorem State.scannerIsolated_state (s : State) : s.scannerIsolated.axState = axIsolated := State.axState_setAx (by decide)

theorem State.scannerIsolated_pending (s : State) : s.scannerIsolated.flag Fld.AX_STATUS_PENDING = false := by
  unfold State.scannerIsolated
  rw [State.flag_congr (State.rd_setAx rfl rfl rfl), State.flag_wrB_same _ _ _ rfl]

theorem State.scannerIsolated_fault (s : State) (hn : n < 34) :
    s.scannerIsolated.flag (Fld.AX_LSTAT_FAULT n) = true := by
  have hhigh : 0x102104 ≤ (Fld.AX_LSTAT_FAULT n).addr := shownField_above (n := n) (by simp [shownFields])
  unfold State.scannerIsolated
  rw [((Leaves.refl _ _).setAx hhigh).flag, State.flag_wrB_apart (Field.apart_of_below (le_trans (by decide) hhigh)),
    State.faultChannels_flag _ hn]

/-- The record of the error leaves what the scanner shows. -/
theorem State.rd_axIsolate {g : Field} (hn : n < 34) (hg : g ∈ scanFields n) : s.axIsolate.rd g = s.scannerIsolated.rd g := by
  obtain ⟨hrecord, hesc⟩ := scanField_recordFree hn g hg
  rw [State.axIsolate_eq, State.rd_escRecord _ hrecord, State.rd_escBlock _ hesc]

theorem State.escRecord_aux (s : State) (level region block cell cause error : Nat) :
    (s.escRecord level region block cell cause error).aux = s.aux := by
  unfold State.escRecord
  rw [State.raise_aux, State.wr_aux, State.wr_aux]

theorem State.axIsolate_isolated (s : State) : s.axIsolate.aux.isolated = true := by
  rw [State.axIsolate_eq, State.escRecord_aux, State.escBlock, State.count_aux, State.wr_aux, State.scannerIsolated,
    State.setAx_aux, State.wrB_aux, (State.faultChannels_regsOnly _ _).aux]

theorem State.axIsolate_led (s : State) : s.axIsolate.led = s.led := by
  rw [State.axIsolate_eq, State.escRecord_led, State.escBlock_led, State.scannerIsolated, (State.setAx_regsOnly _ _).led,
    State.wrB_led, (State.faultChannels_regsOnly _ _).led]

/-- More than 64 discards within one second isolate the slice. -/
theorem State.scanComplete_isolated {runs : List (AuxChan × ChanRun)}
    (h : tooMany (s.aux.discards ++ runs.flatMap fun r => r.2.residue) = true) :
    (s.scanComplete runs n).axState = axIsolated ∧ (s.scanComplete runs n).aux.isolated = true ∧
      (s.scanComplete runs n).flag Fld.AX_STATUS_PENDING = false ∧
      (∀ m, m < 34 → (s.scanComplete runs n).flag (Fld.AX_LSTAT_FAULT m) = true) ∧ (s.scanComplete runs n).led = s.led := by
  have hrd {g : Field} {m : Nat} (hm : m < 34) (hg : g ∈ scanFields m) :
      (s.scanCounted runs n).axIsolate.axCaptureDue.rd g = (s.scanCounted runs n).scannerIsolated.rd g :=
    ((Leaves.refl g _).axCaptureScan hg).rd.trans (State.rd_axIsolate hm hg)
  rw [State.scanComplete_isolates h]
  refine ⟨?state, ?isolated, ?pending, fun m hm => ?fault, ?led⟩
  case state => exact (hrd (by decide : 0 < 34) (.head _)).trans (State.scannerIsolated_state _)
  case isolated => rw [State.axCaptureDue_isolated, State.axIsolate_isolated]
  case pending =>
    exact (State.flag_congr (hrd (by decide : 0 < 34) (.tail _ (.head _)))).trans (State.scannerIsolated_pending _)
  case fault =>
    have hg : Fld.AX_LSTAT_FAULT m ∈ shownFields m := .tail _ (.tail _ (.tail _ (.head _)))
    exact (State.flag_congr (hrd hm (shownField_scan hg))).trans (State.scannerIsolated_fault _ hm)
  case led =>
    have hcapture := (Leaves.refl _ (s.scanCounted runs n).axIsolate).axCaptureScan (scannerField_scan (.head _) 0)
    rw [hcapture.led, State.axIsolate_led]
    rfl

/-! ### SCAN_COMPLETE -/

section
variable {conv : List AuxConv}

/-- The conversions with the epochs of their hold edges (R150). -/
def State.scanCodes (s : State) (conv : List AuxConv) : List (Nat × AuxConv) :=
  conv.zipIdx.map fun x => (s.aux.takenAt + 1 + s.aux.settle + x.2, x.1)

/-- SCAN_COMPLETE ends the scan its conversions match. -/
theorem exec_scanComplete (ha : s.axState = axScan) : exec (.scanComplete conv) s =
    (s.scanRuns s.aux.plan s.aux.lastGain (s.scanCodes conv)).elim (.fault .illFormed) fun runs =>
      .next (s.scanComplete runs conv.length) := by
  change execScanComplete conv s = _
  unfold execScanComplete
  rw [if_neg (not_not.2 ha)]
  dsimp only
  split
  next runs hr =>
    have hruns : s.scanRuns s.aux.plan s.aux.lastGain (s.scanCodes conv) = some runs := hr
    rw [hruns, Option.elim_some]
  next hr =>
    have hnone : s.scanRuns s.aux.plan s.aux.lastGain (s.scanCodes conv) = none := hr
    rw [hnone, Option.elim_none]

theorem exec_scanComplete_runs {runs : List (AuxChan × ChanRun)} (ha : s.axState = axScan)
    (hr : s.scanRuns s.aux.plan s.aux.lastGain (s.scanCodes conv) = some runs) :
    exec (.scanComplete conv) s = .next (s.scanComplete runs conv.length) := by
  rw [exec_scanComplete ha, hr, Option.elim_some]

theorem exec_scanComplete_illFormed (ha : s.axState = axScan)
    (hr : s.scanRuns s.aux.plan s.aux.lastGain (s.scanCodes conv) = none) :
    exec (.scanComplete conv) s = .fault .illFormed := by
  rw [exec_scanComplete ha, hr, Option.elim_none]

end

/-! ### The statement -/

/-- Settles O39: one lemma above for each command. That conversions which do not match the scan are ill-formed is the model's
choice (notes/assumptions/9.md). -/
theorem auxScan : Obligations.AuxScan := by
  unfold Obligations.AuxScan
  intro s p taken
  refine ⟨fun hr hi => ?trigger, fun ht hi => ?periodic, fun hr hb hp => ?waits, fun hr hb hp => ?counted,
    fun ha => ?settled, fun conv ha => ⟨?shape, ?completed, ?isolated⟩⟩
  case trigger =>
    refine ⟨_, exec_scanTrigger p hr, ?_⟩
    rw [State.scanTriggered_idle hi]
    exact s.scanTake_taken _
  case periodic =>
    obtain ⟨htaken, hat⟩ := s.periodNoted.scanTake_taken s.nextPeriodic
    refine ⟨s.periodicTrigger, rfl, ?_⟩
    rw [State.periodicTrigger_idle ht hi, hat]
    exact ⟨htaken, s.nextPeriodic_timed⟩
  case waits =>
    refine ⟨_, exec_scanTrigger p hr, ?_⟩
    rw [State.scanTriggered_waits hb hp]
    exact ⟨State.flag_wrB_same _ _ _ rfl, State.regsOnly.wrB (.refl s), .wrB (.of_regs rfl)⟩
  case counted =>
    refine ⟨_, exec_scanTrigger p hr, ?_⟩
    rw [State.scanTriggered_counted hb hp, State.rd_count_same]
  case settled =>
    refine ⟨s.settleEnd, rfl, ?_⟩
    rw [State.settleEnd_scans ha]
    exact ⟨State.axState_setAx (by decide), s.setAx_regsOnly axScan, .setAx (.of_regs rfl)⟩
  case shape => exact exec_scanComplete_illFormed ha
  case completed =>
    exact fun c r _ hr hv hd hp => ⟨_, exec_scanComplete_runs ha hr, State.scanComplete_shown hv hd hp⟩
  case isolated => exact fun rs hr hd => ⟨_, exec_scanComplete_runs ha hr, State.scanComplete_isolated hd⟩

end Sys2Proof.Machine
end

section
/-!
The passive calendar (R198, R201): its write sequence, and the transactions that make a calendar pending and remove it; the
reads that move on (R198, R207).
-/

namespace Sys2Proof.Machine
variable {s t : State} {p : Path}

/-! ### Reads that move on (R198, R207) -/

theorem State.hostRead_of_running {f : State → Word × State} (h : s.core.running = true) : s.hostRead f = (f s).2 := by
  simp [State.hostRead, h]

theorem State.tarAdvance_regsOnly (s : State) : s.regsOnly s.tarAdvance := .wr (.refl s)

theorem State.keepsWords.tarAdvance {l : List Nat} (h : s.keepsWords t l) (hl : Adr.TAR_CAL_SEL ∈ l := by decide) :
    s.keepsWords t.tarAdvance l := .wr h rfl hl

/-- WORD follows 352 with 0; a WORD beyond the calendar's last word counts on in its nine bits (notes/assumptions/46.md). -/
theorem State.tarAdvance_word (s : State) : s.tarAdvance.rd Fld.TAR_CAL_SEL_WORD =
    if s.rd Fld.TAR_CAL_SEL_WORD = 352 then 0 else (s.rd Fld.TAR_CAL_SEL_WORD + 1) % 512 := by
  unfold State.tarAdvance
  rw [State.rd_wr_same]
  split <;> rfl

/-- The state after a read of LED_LP_DATA: the next word of the entry. -/
def State.lpCounted (s : State) : State := { s with led := { s.led with lpReads := (s.led.lpReads + 1) % 16 } }

/-- The sixteenth read of an entry moves to the next older one. -/
theorem State.lpDataRead_state (s : State) : s.lpDataRead.2 =
    if s.led.lpReads = 15 then s.lpCounted.wrap Fld.LED_LP_SEL_AGE else s.lpCounted := rfl

/-- Settles O14. The advance of WORD is R201's; what a WORD of 353 to 511 does is the model's choice
(notes/assumptions/46.md). -/
theorem indexedReads : Obligations.IndexedReads := by
  unfold Obligations.IndexedReads
  intro s p hr
  have hread {f : State → Word × State} : Host.Outcome.next (s.hostRead f) = (Host.Outcome.next (f s).2 :
      Host.Outcome State Fault Refusal) := congrArg Host.Outcome.next (State.hostRead_of_running hr)
  refine ⟨⟨s.tarAdvance, hread, ⟨s.tarAdvance_regsOnly, .tarAdvance (.of_regs rfl)⟩, s.tarAdvance_word⟩,
    _, hread, ?_⟩
  have hk : s.keepsWords s.lpCounted [Adr.LED_LP_SEL] := .of_regs rfl
  rw [State.lpDataRead_state]
  split
  · exact ⟨rfl, State.rd_wrap_same .., .wr hk, rfl⟩
  · exact ⟨rfl, rfl, hk, rfl⟩

/-! ### A calendar in a transaction -/

/-- A transaction of one Audit Trail entry, a calendar in the passive slot and a change of the state: the image differs in the
passive calendar and the state. -/
theorem applyTxn_audit_calendar {b : Build} {l : Ledger} (hb : b.entries = []) (kind : Nat) (roles keys : BitVec 8)
    (detail : List Byte) (c : Option Calendar) (f : LedState → LedState) (k : Nat) (act : TxnAct) (q : BitVec 32) :
    applyTxn l (((((b.audit kind roles keys detail).add (.calendar 1 c)).st f).txn k act).number q) =
      { l with psv := c, st := f (b.audit kind roles keys detail).img.st } := by
  simp [applyTxn, Txn.number, Build.txn, Build.st, Build.audit, Build.add, hb, supersede, sameTarget, withTseq, applyEntry]

/-- A command's transaction of a calendar in the passive slot: the next TSEQ, and beside the state nothing but the passive
calendar of the image. -/
theorem State.command_audit_calendar (h : s.canCommit) (k kind : Nat) (roles keys : BitVec 8) (detail : List Byte)
    (c : Option Calendar) (g : LedState → LedState) :
    ∃ st t, s.command k (fun b => ((b.audit kind roles keys detail).add (.calendar 1 c)).st g) = (true, t) ∧
      t.led.com = { s.led.com with psv := c, st := st } ∧ t.str.tseq = s.str.tseq + 1 := by
  obtain ⟨u, hu, hc⟩ := s.command_of_canCommit h k fun b => ((b.audit kind roles keys detail).add (.calendar 1 c)).st g
  refine ⟨g ((u.newBuild u.led.com).audit kind roles keys detail).img.st, _, hc, ?_, ?_⟩
  · rw [State.drawn_led, State.showLive_com, State.commitTxn_com, applyTxn_audit_calendar rfl, hu.com]
  · rw [State.drawn_str, State.showLive_str, State.commitTxn_tseq, hu.tseq]

/-! ### TAR_CMD and TAR_CAL_DATA (R201) -/

section
variable {x : Session}

/-- The state after OPEN: an empty buffer. -/
def State.psvOpened (s : State) (p : Path) : State :=
  { s with led := { s.led with psvOpen := some p, psvBuf := List.replicate 353 0 } }

theorem State.psvOpenCmd_pass (h : s.gate p (roleSupplier + roleReceiver) true = .pass x) :
    s.psvOpenCmd p = (.ok, ((s.psvOpened p).wr Fld.TAR_CAL_SEL_WORD 0).wr Fld.TAR_CMD_RESULT 1) := by
  unfold State.psvOpenCmd
  rw [h]
  rfl

theorem State.psvAbortCmd_pass (h : s.gate p (roleSupplier + roleReceiver) false = .pass x)
    (ho : s.led.psvOpen.isSome = true) : s.psvAbortCmd p = (.ok, s.psvEnd.wr Fld.TAR_CMD_RESULT 1) := by
  simp [State.psvAbortCmd, h, Option.isSome_iff_ne_none.1 ho]

/-- The state with a word of the write buffer replaced. -/
def State.psvPut (s : State) (w : Nat) (v : Word) : State :=
  { s with led := { s.led with psvBuf := s.led.psvBuf.set w v } }

theorem State.wTarCal_pass {v : Word} (h : s.gate p (roleSupplier + roleReceiver) false = .pass x)
    (ho : s.led.psvOpen.isSome = true) (hs : s.flag Fld.TAR_CAL_SEL_SLOT = true) :
    s.wTarCal p v = (.ok, (s.psvPut (s.rd Fld.TAR_CAL_SEL_WORD) v).tarAdvance) := by
  simp [State.wTarCal, State.psvPut, h, Option.isSome_iff_ne_none.1 ho, hs]

end

section
variable {a : Armed} (hc : s.canCommit)
include hc

/-- A committed calendar: it is pending, and the sequence has ended. -/
theorem State.psvCommitCmd_pass (h : s.gateDual p 0x0030
      (wordBytes (s.led.psvBuf.getD 0 0) ++ wordBytes (s.led.psvBuf.getD 352 0)) = .pass a)
    (ho : s.led.psvOpen.isSome = true) (hb : calendarOk s.led.psvBuf = true) : ∃ (t : State) (st : LedState),
    (s.psvCommitCmd p).2 = t.psvEnd.wr Fld.TAR_CMD_RESULT 1 ∧
      t.led.com = { s.led.com with psv := some s.led.psvBuf, st := st } ∧ t.str.tseq = s.str.tseq + 1 := by
  have hled : (s.disarm p 0x0030).led = s.led := by simp [State.disarm]
  obtain ⟨st, t, hcmd, hcom, htseq⟩ := State.command_audit_calendar (hc.disarm (p := p) 0x0030) 0x04 0x04 a.roles a.keys
    (beBytes 4 (calId s.led.psvBuf) ++ beBytes 8 (calActTime s.led.psvBuf)) (some s.led.psvBuf)
    fun st => { st with
      late := st.valid && calActTime s.led.psvBuf ≤ (s.disarm p 0x0030).ledNowMs / 1000
      lateAt := (s.disarm p 0x0030).ledNowMs / 1000 }
  rw [hled] at hcom
  rw [State.disarm_str] at htseq
  refine ⟨t, st, ?_, hcom, htseq⟩
  have hn : s.led.psvOpen.isNone = false := Option.isNone_eq_false_iff.2 ho
  simp only [State.psvCommitCmd, h, hn, hb, hcmd, Bool.not_true, Bool.false_eq_true, if_false, if_true]

/-- A cancelled calendar is not pending any more. -/
theorem State.psvCancelCmd_pass {c : Calendar} (hn : s.nextImage.psv = some c)
    (h : s.gateDual p 0x0031 (beBytes 4 (calId c)) = .pass a) : ∃ (t : State) (st : LedState),
    (s.psvCancelCmd p).2 = t.wr Fld.TAR_CMD_RESULT 1 ∧ t.led.com = { s.led.com with psv := none, st := st } := by
  have hled : (s.disarm p 0x0031).led = s.led := by simp [State.disarm]
  obtain ⟨st, t, hcmd, hcom, -⟩ := State.command_audit_calendar (hc.disarm (p := p) 0x0031) 0x06 0x05 a.roles a.keys
    (beBytes 4 (calId c)) none fun st => { st with late := false }
  rw [hled] at hcom
  refine ⟨t, st, ?_, hcom⟩
  simp [State.psvCancelCmd, hn, h, hcmd]

end

/-- Settles O13: one lemma above for each command. -/
theorem calendarSequence : Obligations.CalendarSequence := by
  unfold Obligations.CalendarSequence
  intro s p hr
  have hhost {f : State → WStatus × State} : Host.Outcome.next (s.host f) = (Host.Outcome.next (f s).2 :
      Host.Outcome State Fault Refusal) := congrArg Host.Outcome.next (State.host_of_running hr)
  have hopen : exec (.psvOpen p) s = .next (s.psvOpenCmd p).2 := hhost
  have hcommit : exec (.psvCommit p) s = .next (s.psvCommitCmd p).2 := hhost
  have habort : exec (.psvAbort p) s = .next (s.psvAbortCmd p).2 := hhost
  have hcancel : exec (.psvCancel p) s = .next (s.psvCancelCmd p).2 := hhost
  refine ⟨fun x hx => ?opened, fun x v hx ho hs => ?written, fun a ha ho hb hc => ?committed, fun x hx ho => ?aborted,
    fun a c hn ha hc => ?cancelled⟩
  case opened =>
    refine ⟨_, hopen, ?_⟩
    rw [State.psvOpenCmd_pass hx]
    refine ⟨rfl, State.rd_wr_same .., ?_, .wr (.wr (.of_regs rfl))⟩
    rw [State.rd_wr_apart _ _ (by decide), State.rd_wr_same]
    rfl
  case written =>
    refine ⟨_, hhost, ?_⟩
    rw [State.wTarCal_pass hx ho hs]
    exact ⟨rfl, .tarAdvance (.of_regs rfl)⟩
  case committed =>
    obtain ⟨t, st, ht, hcom, htseq⟩ := State.psvCommitCmd_pass hc ha ho hb
    have hend : (t.psvEnd.wr Fld.TAR_CMD_RESULT 1).led.com = t.led.com := rfl
    refine ⟨_, hcommit, ?_⟩
    rw [ht, hend, hcom]
    exact ⟨rfl, rfl, rfl, State.rd_wr_same .., htseq⟩
  case aborted =>
    refine ⟨_, habort, ?_⟩
    rw [State.psvAbortCmd_pass hx ho]
    exact ⟨rfl, State.rd_wr_same .., .wr (.of_regs rfl)⟩
  case cancelled =>
    obtain ⟨t, st, ht, hcom⟩ := State.psvCancelCmd_pass hc hn ha
    refine ⟨_, hcancel, ?_⟩
    rw [ht, State.wr_led, hcom]
    exact ⟨rfl, rfl, State.rd_wr_same ..⟩

end Sys2Proof.Machine
end

section
/-!
Transactions that wait (R193, R216, R464): their numbers, the ones a tick and an outage put behind them, and the quanta that
reach the ledger (R43, R192, R215).
-/

namespace Sys2Proof.Machine
variable {s s0 t : State}

/-! ### Numbers of waiting transactions (R464) -/

/-- A seal does not depend on the one before it. -/
theorem sealSnap_crc (r : SnapRec) (c : Word) : sealSnap { r with crc := c } = sealSnap r := by
  have h : snapBytes { r with crc := c } = snapBytes r := by
    unfold snapBytes
    rfl
  unfold sealSnap
  rw [h]

theorem sealScale_crc (r : ScaleRec) (c : Word) : sealScale { r with crc := c } = sealScale r := by
  have h : scaleBytes { r with crc := c } = scaleBytes r := by
    unfold scaleBytes
    rfl
  unfold sealScale
  rw [h]

/-- The last TSEQ given to an entry is the one it carries. -/
theorem withTseq_withTseq (p q : BitVec 32) (e : LEntry) : withTseq q (withTseq p e) = withTseq q e := by
  cases e with
  | snapshot i v => exact congrArg (LEntry.snapshot i) (sealSnap_crc { v with tseq := q } _)
  | scale v => exact congrArg LEntry.scale (sealScale_crc { v with tseq := q } _)
  | _ => rfl

theorem Txn.number_number (x : Txn) (p q : BitVec 32) : (x.number p).number q = x.number q := by
  simp [Txn.number, withTseq_withTseq]

theorem State.renumber_eq_mapIdx (s : State) (ts : List Txn) :
    s.renumber ts = ts.mapIdx fun i x => x.number (s.str.tseq + 1 + BitVec.ofNat 32 i) := by
  rw [List.mapIdx_eq_zipIdx_map]
  rfl

@[simp] theorem State.renumber_length (s : State) (ts : List Txn) : (s.renumber ts).length = ts.length := by
  simp [State.renumber]

theorem State.renumber_prefix (s : State) (ts us : List Txn) : s.renumber ts <+: s.renumber (ts ++ us) := by
  rw [State.renumber_eq_mapIdx, State.renumber_eq_mapIdx, List.mapIdx_append]
  exact List.prefix_append ..

/-- Transactions that have their numbers keep them as others join. -/
theorem State.renumber_renumber_append (s : State) (ts us : List Txn) :
    s.renumber (s.renumber ts ++ us) = s.renumber (ts ++ us) := by
  simp only [State.renumber_eq_mapIdx, List.mapIdx_append, List.mapIdx_mapIdx, List.length_mapIdx, Function.comp_def,
    Txn.number_number]

/-! ### The transactions of a tick (R193, R463) -/

theorem State.tickInstants_ne_nil (s : State) (c : LedCfg) (series : Option (Nat × Bool)) (last : Nat) (b : Build)
    (xs : List Instant) : s.tickInstants c series last b xs ≠ [] := by
  unfold State.tickInstants
  extract_lets whole r
  split <;> simp

/-- Every tick makes a transaction. -/
theorem State.tickBuilds_ne_nil (s : State) (img : Ledger) (bd : Boundary) (ks : List Quantum) (site : List SiteDelta)
    (missing : Bool) : s.tickBuilds img bd ks site missing ≠ [] := by
  unfold State.tickBuilds
  extract_lets old new cmd _ b1 b2 b3 st run one
  have hrun (b : Build) (last : Nat) (stepped : Bool) (x : List Instant) : run b last stepped x ≠ [] :=
    s.tickInstants_ne_nil _ _ _ _ _
  have hone (b : Build) (last t : Nat) (x : List Instant) : one b last t x ≠ [] := hrun _ _ _ _
  clear_value run one
  split
  case h_1 => exact List.cons_ne_nil _ _
  case h_2 => exact List.cons_ne_nil _ _
  case h_3 => exact hone _ _ _ _
  case h_4 => exact hone _ _ _ _
  case h_5 => exact hrun _ _ _ _
  case h_6 =>
    extract_lets
    split
    · exact hrun _ _ _ _
    · exact hone _ _ _ _
  case h_7 => exact hone _ _ _ _

theorem txnsOf_ne_nil {kind : Nat} {act : Bool → TxnAct} {bs : List Build} (h : bs ≠ []) : txnsOf kind act bs ≠ [] := by
  match bs with
  | [_] => simp [txnsOf]
  | _ :: _ :: _ => simp [txnsOf]

theorem Spares.sameCycle (h : Spares s0 s) {f : State → State} (hf : ∀ u, Spares s0 u → Spares s0 (f u)) :
    Spares s0 (s.sameCycle f) := by
  obtain ⟨r, hr⟩ := s.sameCycle_spares f
  exact (hf _ (.update h)).trans hr

/-- The events of builds reach the intake and TAR_STATUS alone. -/
theorem Spares.raiseAll (h : Spares s0 s) {evs} : Spares s0 (s.raiseAll evs) := by
  unfold State.raiseAll
  exact .sameCycle h fun _ hu => .foldl hu fun _ _ _ hv => .raise (.ite (.wrB hv) hv)

/-- A tick the ledger has processed: its quanta are taken, and transactions wait behind those that waited before. Nothing has
committed. -/
structure TickTaken (s t : State) (bd : Boundary) : Prop where
  bounds : t.led.bounds = s.led.bounds
  closedEpoch : t.led.closedEpoch = bd.epoch
  com : t.led.com = s.led.com
  live : t.led.live = s.led.live
  quanta : t.led.quanta = s.led.quanta.filter fun k => !(k.endEpoch < bd.epoch)
  str : t.str = s.str
  flash : t.flash = s.flash
  queue : ∃ x, x ≠ [] ∧ t.led.queue = s.renumber (s.led.queue ++ x)

section
variable {bd : Boundary}

theorem TickTaken.spares {u : State} (h : TickTaken s t bd) (k : Spares t u) : TickTaken s u bd := by
  obtain ⟨hb, he, hc, hl, hq, hs, hf, hx⟩ := h
  refine ⟨?_, ?_, ?_, ?_, ?_, k.str.trans hs, k.flash.trans hf, ?_⟩ <;> rw [k.led] <;> assumption

theorem State.processTick_taken (s : State) (bd : Boundary) (kind : Nat) (act : Bool → TxnAct) :
    TickTaken s (s.processTick bd kind act) bd := by
  unfold State.processTick
  extract_lets mine rest img0 img out img' expected seen missing bs c _ _ t t1 t2
  have ht : TickTaken s t bd := by
    refine ⟨rfl, rfl, rfl, rfl, rfl, rfl, rfl, txnsOf 0x03 .outage out ++ txnsOf kind act bs, ?_, ?_⟩
    · exact List.append_ne_nil_of_right_ne_nil _ (txnsOf_ne_nil (s.tickBuilds_ne_nil _ _ _ _ _))
    · rw [← List.append_assoc]
  have h1 : Spares t t1 := .ite (.wr (.refl t)) (.refl t)
  exact ht.spares (.raiseAll (.ite h1 (.wrB h1)))

/-- A transaction of another kind joins the queue. -/
theorem TickTaken.enqueue (h : TickTaken s t bd) (ts : List Txn) : TickTaken s (t.enqueue ts) bd := by
  obtain ⟨x, hx, hq⟩ := h.queue
  refine ⟨h.bounds, h.closedEpoch, h.com, h.live, h.quanta, h.str, h.flash, x ++ ts, by simp [hx], ?_⟩
  have hn : t.renumber = s.renumber := by
    unfold State.renumber
    rw [h.str]
  change t.renumber (t.led.queue ++ ts) = _
  rw [hq, hn, State.renumber_renumber_append, List.append_assoc]

theorem TickTaken.lockRetry (h : TickTaken s t bd) : TickTaken s t.lockRetry bd := by
  unfold State.lockRetry State.queueLock
  split
  · split
    · exact h.enqueue _
    · exact h
  · exact h

theorem TickTaken.audBankEntry (h : TickTaken s t bd) : TickTaken s t.audBankEntry bd := by
  unfold State.audBankEntry
  extract_lets due
  split
  · exact h
  · split
    · exact h
    · exact h.enqueue _

end

/-- The intervals of a bay that a step closes are no part of the ledger. -/
theorem Spares.stepIntervals (h : Spares s0 s) : Spares s0 s.stepIntervals := by
  unfold State.stepIntervals
  exact .update (.foldl h fun _ _ hb hu => .closeAt (List.mem_range.1 hb) hu)

/-- The fold window of the oldest boundary closes (R192, R193). -/
theorem State.foldClose_taken {b : Boundary} {bs : List Boundary} (hok : s.ledgerOk = true) (hw : s.core.warned = false)
    (hb : s.led.bounds = b :: bs) :
    ∃ bd, bd.epoch = b.epoch ∧ TickTaken { s with led := { s.led with bounds := bs } } s.foldClose bd := by
  unfold State.foldClose
  rw [if_neg (by simp [hok, hw])]
  split
  case h_1 e => simp [e] at hb
  next e =>
  obtain ⟨rfl, rfl⟩ := List.cons.inj (hb.symm.trans e)
  extract_lets _ u bd cut v
  have hv : TickTaken u v bd := u.processTick_taken ..
  refine ⟨bd, rfl, .audBankEntry (.lockRetry ?_)⟩
  split
  · exact hv.spares (.stepIntervals (.refl v))
  · exact hv

/-! ### The outage processing of a start (R216) -/

theorem timeUntaken_lastClosed (l : Ledger) : (timeUntaken l).st.lastClosed = l.st.lastClosed := by
  unfold timeUntaken
  extract_lets st
  split <;> rfl

/-- The outage processing of a start: its transactions wait behind those that waited before, or it has none. -/
theorem State.outageProcessing_taken {a src ms : Nat} (hok : s.ledgerOk = true) (hw : s.core.warned = false)
    (ha : s.led.outageFrom = some a) (hsrc : s.sourceNow = (src, some ms)) (hms : s.nextImage.st.lastClosed < ms / 1000) :
    s.outageProcessing.led.outageFrom = none ∧
      (s.outageProcessing.led.queue = s.led.queue ∨ s.renumber s.led.queue <+: s.outageProcessing.led.queue) ∧
      s.outageProcessing.led.com = s.led.com ∧ s.outageProcessing.str = s.str ∧ s.outageProcessing.flash = s.flash := by
  unfold State.outageProcessing
  rw [if_neg (by simp [hok, hw])]
  split
  case h_2 e => exact absurd hsrc (e _ _ _ ha)
  next e =>
  cases hsrc.symm.trans e
  extract_lets n img r bs _ t
  have himg : img.st.lastClosed = s.nextImage.st.lastClosed := by
    unfold img
    split
    · rfl
    · exact timeUntaken_lastClosed _
  have hn : ¬(img.st.lastClosed ≠ 0 && n ≤ img.st.lastClosed) = true := by
    simp only [himg, n, Bool.and_eq_true, decide_eq_true_eq]
    omega
  rw [if_neg hn]
  split
  · exact ⟨rfl, .inl rfl, rfl, rfl, rfl⟩
  · have ht : Spares t ((t.wrB Fld.STR_STATUS_OUTAGE_PROC true).raiseAll (buildEvents bs)) := .raiseAll (.wrB (.refl t))
    rw [ht.led, ht.str, ht.flash]
    exact ⟨rfl, .inr (s.renumber_prefix ..), rfl, rfl, rfl⟩

theorem State.outageProcessing_none (h : s.led.outageFrom = none) : s.outageProcessing = s := by
  simp [State.outageProcessing, h]

/-! ### Posted quanta (R43, R192, R215) -/

/-- The head of the posted quanta has left them. -/
def State.unposted (s : State) (ks : List Quantum) : State := { s with led := { s.led with posted := ks } }

/-- A quantum waits for its tick. -/
def State.holdQuantum (s : State) (k : Quantum) : State :=
  { s with led := { s.led with quanta := s.led.quanta ++ [k] } }

section
variable {k : Quantum} {ks : List Quantum} (hp : s.led.posted = k :: ks)
include hp

theorem State.takeQuantum_frozen (hf : s.led.frozen = true) : s.takeQuantum = s.unposted ks := by
  simp [State.takeQuantum, State.unposted, hp, hf]

theorem State.takeQuantum_lost (hf : s.led.frozen = false) (hc : s.led.cutOffDone = true) :
    s.takeQuantum = (s.unposted ks).count Fld.LED_LATE_LOST := by
  simp [State.takeQuantum, State.unposted, hp, hf, hc]

theorem State.takeQuantum_late (hf : s.led.frozen = false) (hc : s.led.cutOffDone = false)
    (hl : k.endEpoch < s.led.closedEpoch) :
    s.takeQuantum = ((s.unposted ks).count Fld.LED_LATE_LATE).holdQuantum k := by
  simp [State.takeQuantum, State.unposted, State.holdQuantum, hp, hf, hc, hl]

theorem State.takeQuantum_in_time (hf : s.led.frozen = false) (hc : s.led.cutOffDone = false)
    (hl : ¬k.endEpoch < s.led.closedEpoch) : s.takeQuantum = (s.unposted ks).holdQuantum k := by
  simp [State.takeQuantum, State.unposted, State.holdQuantum, hp, hf, hc, hl]

end

/-! ### The statement -/

/-- Settles O11: one lemma above for each way a quantum goes, the fold window, and the outage processing. -/
theorem quantaReachTheLedger : Obligations.QuantaReachTheLedger := by
  unfold Obligations.QuantaReachTheLedger
  have hquantum (s : State) : exec .quantum s = .next s.takeQuantum := rfl
  refine ⟨fun s k ks hp => ⟨fun hf hc => ?taken, fun hf => ?frozen, fun hf hc => ?lost⟩,
    fun s b bs hok hw hb => ?window, fun s a src ms hok hw ha hsrc hms => ?outage, fun s h => ?none⟩
  case taken =>
    refine ⟨_, hquantum s, ?_⟩
    by_cases hl : k.endEpoch < s.led.closedEpoch
    · rw [State.takeQuantum_late hp hf hc hl, if_pos hl]
      exact ⟨rfl, State.rd_count_same .., .wr (.of_regs rfl), rfl, rfl⟩
    · rw [State.takeQuantum_in_time hp hf hc hl, if_neg hl]
      exact ⟨rfl, rfl, .of_regs rfl, rfl, rfl⟩
  case frozen =>
    rw [hquantum, State.takeQuantum_frozen hp hf]
    rfl
  case lost =>
    refine ⟨_, hquantum s, ?_⟩
    rw [State.takeQuantum_lost hp hf hc]
    exact ⟨rfl, State.rd_count_same .., .wr (.of_regs rfl), rfl⟩
  case window =>
    obtain ⟨bd, hbd, h⟩ := State.foldClose_taken hok hw hb
    obtain ⟨x, hx, hq⟩ := h.queue
    refine ⟨_, rfl, h.bounds, h.closedEpoch.trans hbd, ?_, ?_, h.com, h.live, hbd ▸ h.quanta, h.str, h.flash⟩
    · rw [hq]
      exact s.renumber_prefix ..
    · rw [hq, State.renumber_length, List.length_append]
      exact Nat.lt_add_of_pos_right (List.length_pos_of_ne_nil hx)
  case outage => exact ⟨_, rfl, State.outageProcessing_taken hok hw ha hsrc hms⟩
  case none => exact congrArg Host.Outcome.next (State.outageProcessing_none h)

end Sys2Proof.Machine
end

section
/-!
Strata and its controller (R220 to R238): what a change of an area's copies leaves of the copy that is read, the start of a
compaction, and the registers of the controller that what follows a commit leaves alone.
-/

namespace Sys2Proof.Machine
set_option Elab.async false
variable {s0 s t u : State}

/-! ### The copy of an area that is read -/

/-- What a change of the copies keeps of each, it keeps of the one that is read. -/
theorem Strata.side_each_keeps {α : Type} {f : StrataCopy → StrataCopy} (p : StrataCopy → α) (h : ∀ c, p (f c) = p c)
    (st : Strata) (area b : Nat) : p ((st.each area f).side b) = p (st.side b) := by
  have hf : copyFailed (st.each area f) b 0 = copyFailed st b 0 := rfl
  unfold Strata.side
  rw [hf]
  unfold Strata.each
  dsimp only
  split <;> split <;> simp [h]

theorem areaDead_congr {a b : Strata} (h : a.failed = b.failed) (area : Nat) : areaDead a area = areaDead b area := by
  unfold areaDead
  rw [copyFailed_congr h, copyFailed_congr h]

@[simp] theorem Strata.openBase_journal (st : Strata) : st.openBase.journal = st.journal :=
  Strata.side_each_keeps StrataCopy.journal (fun c => by split <;> rfl) st 0 0

/-- Compaction writes the base that is not current (R232). -/
@[simp] theorem Strata.openBase_current (st : Strata) : st.openBase.current = st.current :=
  Strata.side_each_keeps (fun c => if st.curB then c.baseB else c.baseA) (fun c => by split <;> rfl) st 0 0

/-! ### The start of a compaction (R232) -/

/-- A compaction has begun. -/
def State.compactBegun (s : State) : State :=
  ({ s with str := s.str.openBase, led := { s.led with compacting := some (s.str.tseq, s.led.com) } } : State).wrB
    Fld.STR_STATUS_COMPACTING true

theorem State.maybeCompact_cases (s : State) :
    s.maybeCompact = s ∨ s.led.compacting = none ∧ s.maybeCompact = s.compactBegun := by
  unfold State.maybeCompact
  split
  next h =>
    simp only [Bool.and_eq_true] at h
    obtain ⟨⟨⟨⟨hnone, -⟩, -⟩, -⟩, -⟩ := h
    exact .inr ⟨Option.isNone_iff_eq_none.1 hnone, rfl⟩
  · exact .inl rfl

@[simp] theorem State.maybeCompact_journal (s : State) : s.maybeCompact.str.journal = s.str.journal := by
  obtain h | ⟨-, h⟩ := s.maybeCompact_cases <;> rw [h]
  exact s.str.openBase_journal

@[simp] theorem State.maybeCompact_current (s : State) : s.maybeCompact.str.current = s.str.current := by
  obtain h | ⟨-, h⟩ := s.maybeCompact_cases <;> rw [h]
  exact s.str.openBase_current

@[simp] theorem State.maybeCompact_queue (s : State) : s.maybeCompact.led.queue = s.led.queue := by
  obtain h | ⟨-, h⟩ := s.maybeCompact_cases <;> rw [h]
  rfl

@[simp] theorem State.maybeCompact_copies (s : State) : s.maybeCompact.led.copies = s.led.copies := by
  obtain h | ⟨-, h⟩ := s.maybeCompact_cases <;> rw [h]
  rfl

@[simp] theorem State.maybeCompact_flash (s : State) : s.maybeCompact.flash = s.flash := by
  obtain h | ⟨-, h⟩ := s.maybeCompact_cases <;> rw [h]
  rfl

@[simp] theorem State.maybeCompact_sec (s : State) : s.maybeCompact.sec = s.sec := by
  obtain h | ⟨-, h⟩ := s.maybeCompact_cases <;> rw [h]
  rfl

theorem State.rd_maybeCompact (s : State) {g : Field} (hg : Fld.STR_STATUS_COMPACTING.apart g = true) :
    s.maybeCompact.rd g = s.rd g := by
  obtain h | ⟨-, h⟩ := s.maybeCompact_cases <;> rw [h]
  exact State.rd_wrB_apart _ _ hg

/-! ### Registers of the controller -/

/-- Fields of the controller and of its errors that the work below is read by. -/
def controllerFields : List Field :=
  [Fld.STR_TSEQ_TSEQ, Fld.STR_RECOVERY_RESULT, Fld.STR_BANKS_LAST_BANK, Fld.STR_BANKS_LAST_CAUSE,
    Fld.SYS_ESC_COUNT_CORRECTED]

/-- A field that shares no bit with one of them. -/
def Field.offController (f : Field) : Bool := controllerFields.all f.apart

theorem controller_intakeFree : ∀ g ∈ controllerFields, g.intakeFree = true := by decide

/-- The committed image, the transactions and the copies that wait, Strata, the flash, an UNLOCK that waits, and the
controller's fields are as before. -/
structure Stands (s t : State) : Prop where
  com : t.led.com = s.led.com
  queue : t.led.queue = s.led.queue
  copies : t.led.copies = s.led.copies
  str : t.str = s.str
  flash : t.flash = s.flash
  deferred : t.sec.unlockDeferred = s.sec.unlockDeferred
  rd : ∀ g ∈ controllerFields, t.rd g = s.rd g

theorem Stands.refl (s : State) : Stands s s := ⟨rfl, rfl, rfl, rfl, rfl, rfl, fun _ _ => rfl⟩

theorem Stands.trans (h : Stands s t) (k : Stands t u) : Stands s u :=
  ⟨k.com.trans h.com, k.queue.trans h.queue, k.copies.trans h.copies, k.str.trans h.str, k.flash.trans h.flash,
    k.deferred.trans h.deferred, fun g hg => (k.rd g hg).trans (h.rd g hg)⟩

/-- A state that differs in other parts. -/
theorem Stands.update (h : Stands s0 s) {pending fuses spi drega panelCaps spiOut now tickStart resetAt free core esc pwr acq
    met aux strm led rcd gar sec tmp ring twin panel portA portB net kept ptp bk ldr} (hc : led.com = s.led.com := by rfl)
    (hq : led.queue = s.led.queue := by rfl) (hp : led.copies = s.led.copies := by rfl)
    (hd : sec.unlockDeferred = s.sec.unlockDeferred := by rfl) :
    Stands s0 (State.mk pending fuses s.regs spi drega panelCaps spiOut now tickStart resetAt free core esc pwr acq met aux
      strm led s.str rcd gar sec tmp ring twin panel portA portB net kept ptp bk s.flash ldr) :=
  ⟨hc.trans h.com, hq.trans h.queue, hp.trans h.copies, h.str, h.flash, hd.trans h.deferred, h.rd⟩

theorem Stands.ite {c : Prop} [Decidable c] (hs : Stands s0 s) (ht : Stands s0 t) : Stands s0 (if c then s else t) := by
  split <;> assumption

theorem Stands.foldl {α : Type} {f : State → α → State} {l : List α} (h : Stands s0 s)
    (hf : ∀ u, ∀ x ∈ l, Stands s0 u → Stands s0 (f u x)) : Stands s0 (l.foldl f s) := by
  induction l generalizing s with
  | nil => exact h
  | cons x l ih => exact ih (hf _ x (by simp) h) fun u y hy => hf u y (by simp [hy])

theorem Stands.wr (h : Stands s0 s) {f : Field} {v} (hf : f.offController = true := by decide) : Stands s0 (s.wr f v) :=
  ⟨h.com, h.queue, h.copies, h.str, h.flash, h.deferred, fun g hg =>
    (s.rd_wr_apart v (List.all_eq_true.1 hf g hg)).trans (h.rd g hg)⟩

theorem Stands.wrB (h : Stands s0 s) {f : Field} {b} (hf : f.offController = true := by decide) : Stands s0 (s.wrB f b) :=
  h.wr hf

theorem Stands.wrS (h : Stands s0 s) {f : Field} {v} (hf : f.offController = true := by decide) : Stands s0 (s.wrS f v) :=
  h.wr hf

theorem Stands.count (h : Stands s0 s) {f : Field} {n} (hf : f.offController = true := by decide) :
    Stands s0 (s.count f n) := h.wr hf

theorem Stands.wrap (h : Stands s0 s) {f : Field} (hf : f.offController = true := by decide) : Stands s0 (s.wrap f) := h.wr hf

theorem Stands.irq (h : Stands s0 s) {f : Field} (hf : f.offController = true := by decide) : Stands s0 (s.irq f) := h.wr hf

/-- A field of a repeated window, each of which is off the controller's. -/
theorem Stands.wrAt (h : Stands s0 s) {F : Nat → Field} {n k v : Nat} (hk : k < n)
    (hF : ∀ i < n, (F i).offController = true := by decide) : Stands s0 (s.wr (F k) v) := h.wr (hF k hk)

/-- What changes the registers of the recorder and of Bedrock alone, and no part but the recorder. -/
theorem Stands.intake (h : Stands s0 s) (hl : t.led = s.led) (hs : t.str = s.str) (hf : t.flash = s.flash)
    (hc : t.sec = s.sec) (hr : ∀ g : Field, g.intakeFree = true → t.rd g = s.rd g) : Stands s0 t :=
  ⟨hl ▸ h.com, hl ▸ h.queue, hl ▸ h.copies, hs.trans h.str, hf.trans h.flash, hc ▸ h.deferred, fun g hg =>
    (hr g (controller_intakeFree g hg)).trans (h.rd g hg)⟩

theorem Stands.setRcd (h : Stands s0 s) {r} : Stands s0 (s.setRcd r) :=
  h.intake rfl rfl rfl rfl fun _ hg => s.rd_setRcd hg r

theorem Stands.raise (h : Stands s0 s) {code source payload} : Stands s0 (s.raise code source payload) :=
  h.intake (by simp) (by simp) (by simp) (by simp) fun _ hg => s.rd_raise hg _ _ _

theorem Stands.raiseTogether (h : Stands s0 s) {es} : Stands s0 (s.raiseTogether es) :=
  h.intake (by simp) (by simp) (by simp) (by simp) fun _ hg => s.rd_raiseTogether hg _

theorem Stands.lastResort (h : Stands s0 s) {e} : Stands s0 (s.lastResort e) :=
  h.intake (by simp) (by simp) (by simp) (by simp) fun _ hg => s.rd_lastResort hg e

theorem Stands.endFreeze (h : Stands s0 s) : Stands s0 s.endFreeze := by
  unfold State.endFreeze
  extract_lets
  split
  · exact h
  · exact .wr (.wrB (.setRcd h))

/-! ### The registers that follow a commit -/

theorem Stands.refreshTariff (h : Stands s0 s) : Stands s0 s.refreshTariff := by
  unfold State.refreshTariff
  extract_lets _ _ _ _ t
  have ht : Stands s0 t := .wrB (.wrB (.wr (.wr h)))
  split
  · exact ht
  · exact .wrS (.wr (.wr (.wr (.wrB (.wrB ht)))))

theorem Stands.setTimeSrc (h : Stands s0 s) {v} : Stands s0 (s.setTimeSrc v) := by
  unfold State.setTimeSrc
  exact .ite (.wr h) (.irq (.wr h))

theorem Stands.refreshHead (h : Stands s0 s) : Stands s0 s.refreshHead := by
  unfold State.refreshHead
  exact .wr (.wr h)

theorem Stands.refresh (h : Stands s0 s) : Stands s0 s.refresh := by
  unfold State.refresh
  exact .refreshTariff (.setTimeSrc (.foldl (.wr (.wr (.wr (.wr (.wr (.wr (.wr (.wr (.wr (.wr (.wr (.wr (.wr (.wr (.wrS
    (.wrB (.wr (.wr h)))))))))))))))))) fun _ _ hk hu => .wrAt hu (List.mem_range.1 hk)))

theorem Stands.lgKeep (h : Stands s0 s) : Stands s0 s.lgKeep := by
  unfold State.lgKeep
  exact .update h

theorem Stands.showLive (h : Stands s0 s) : Stands s0 s.showLive := by
  unfold State.showLive
  exact .lgKeep (.refresh (.update h))

theorem Stands.contribSend (h : Stands s0 s) {old} : Stands s0 (s.contribSend old) := by
  unfold State.contribSend State.ringSend
  exact .ite h (.ite (.ite h (.update h)) (.ite (.update h) h))

theorem Stands.twinSend (h : Stands s0 s) {type payload} : Stands s0 (s.twinSend type payload) := by
  unfold State.twinSend
  exact .update h

theorem Stands.pairTick (h : Stands s0 s) {own peer} : Stands s0 (s.pairTick own peer) := by
  unfold State.pairTick
  exact .foldl h fun _ _ _ hu => .ite (.count hu) (.update hu)

theorem Stands.matchTick (h : Stands s0 s) {k} : Stands s0 (s.matchTick k) := by
  unfold State.matchTick
  split
  · exact .ite h (.update (.pairTick h))
  · exact h

theorem Stands.deltaSend (h : Stands s0 s) {old} : Stands s0 (s.deltaSend old) := by
  unfold State.deltaSend
  exact .ite h (.matchTick (.update (.twinSend h)))

theorem Stands.panelRequest (h : Stands s0 s) {w} (hw : w < 8) : Stands s0 (s.panelRequest w) := by
  unfold State.panelRequest
  exact .ite h (.wr (.wrAt (.ite (.wrAt h hw) h) hw))

theorem Stands.panelTick (h : Stands s0 s) : Stands s0 s.panelTick := by
  unfold State.panelTick
  exact .foldl h fun _ _ hw hu => .ite (.panelRequest hu (List.mem_range.1 hw)) hu

/-- A tick's commit shows (R194). -/
theorem Stands.tickLive (h : Stands s0 s) : Stands s0 s.tickLive := by
  unfold State.tickLive
  exact .panelTick (.deltaSend (.contribSend (.lgKeep (.irq (.wrap (.wrB (.refresh (.update h))))))))

theorem Stands.setFlint (h : Stands s0 s) {v} : Stands s0 (s.setFlint v) := by
  unfold State.setFlint
  extract_lets _ _ t
  have ht : Stands s0 t := .wrB (.wrB (.wr h))
  exact .ite ht (.irq ht)

theorem Stands.acknowledge (h : Stands s0 s) {mask lock} : Stands s0 (s.acknowledge mask lock) := by
  unfold State.acknowledge
  exact .ite (.update h) (.wr h)

/-- What follows the commit of a transaction: but for an UNLOCK that follows LOCK_ENGAGE at once, nothing more commits. -/
theorem State.committed_stands {us : Nat} {a : TxnAct} (h : a = .lockEngage → s.sec.unlockDeferred = none) :
    Stands s (s.committed us a) := by
  have hs := Stands.refl s
  unfold State.committed
  extract_lets _ _ s2 _ _ _ s5
  have h2 : Stands s s2 := .showLive hs
  have h5 : Stands s s5 := .acknowledge (.update (.ite (.setFlint h2) h2))
  split
  · exact .tickLive hs
  · exact .refreshHead hs
  · exact .showLive (.update hs)
  · exact .ite (.lgKeep (.wrB (.wrB (.showLive (.update hs))))) (.refreshHead hs)
  · split
    next e => simp [h5.deferred, h rfl] at e
    next => exact h5
  · exact .showLive hs
  · exact .showLive hs

end Sys2Proof.Machine
end

section
/-!
COMMIT_COMPLETE (R226, R227, R464): a transaction in the journal, its entries in the committed image, the base as before.
-/

namespace Sys2Proof.Machine
set_option Elab.async false
variable {s t : State}

/-! ### A transaction in the journal -/

/-- A transaction is placed under the next TSEQ, with a commit record that agrees with it (R226, R464). -/
theorem Strata.place_spec (st : Strata) (x : Txn) :
    (st.place x).tseq = st.tseq + 1 ∧ (st.place x).txn = x.number (st.tseq + 1) ∧ (st.place x).passes = true := by
  simp [Strata.place, JTxn.passes]

theorem Strata.commit_failed (st : Strata) (j : JTxn) : (st.commit j).failed = st.failed := rfl

theorem Strata.commit_journal {st : Strata} (h : areaDead st 0 = false) (j : JTxn) :
    (st.commit j).journal = st.journal ++ [j] :=
  congrArg StrataCopy.journal (Strata.side_each st 0 (fun c => c.append j) h)

/-- A commit leaves the bases. -/
theorem Strata.commit_current (st : Strata) (j : JTxn) : (st.commit j).current = st.current :=
  Strata.side_each_keeps (f := fun c => c.append j) (fun c => if st.curB then c.baseB else c.baseA) (fun _ => rfl) st 0 0

/-! ### A commit -/

/-- A commit puts its transaction at the end of the journal. -/
theorem State.commitTxn_journal (h : areaDead s.str 0 = false) (us : Nat) (x : Txn) :
    (s.commitTxn us x).str.journal = s.str.journal ++ [s.str.place x] := by
  simp [State.commitTxn, State.refreshJournal, Strata.commit_journal h]

theorem State.commitTxn_current (s : State) (us : Nat) (x : Txn) : (s.commitTxn us x).str.current = s.str.current := by
  simp [State.commitTxn, State.refreshJournal, Strata.commit_current]

theorem State.commitTxn_failed (s : State) (us : Nat) (x : Txn) : (s.commitTxn us x).str.failed = s.str.failed := by
  simp [State.commitTxn, State.refreshJournal, State.maybeCompact_failed, Strata.commit_failed]

@[simp] theorem State.commitTxn_queue (s : State) (us : Nat) (x : Txn) : (s.commitTxn us x).led.queue = s.led.queue := by
  simp [State.commitTxn, State.refreshJournal]

@[simp] theorem State.commitTxn_flash (s : State) (us : Nat) (x : Txn) : (s.commitTxn us x).flash = s.flash := by
  simp [State.commitTxn, State.refreshJournal]

@[simp] theorem State.commitTxn_sec (s : State) (us : Nat) (x : Txn) : (s.commitTxn us x).sec = s.sec := by
  simp [State.commitTxn, State.refreshJournal]

/-- Fields that STR_TSEQ, STR_COMMIT, STR_STATUS and STR_JOURNAL leave. -/
theorem State.rd_commitTxn (s : State) (us : Nat) (x : Txn) {g : Field}
    (hg : ∀ f ∈ [Fld.STR_TSEQ_TSEQ, Fld.STR_COMMIT_LAST, Fld.STR_COMMIT_MAX, Fld.STR_STATUS_SNAP_PENDING,
      Fld.STR_JOURNAL_USED, Fld.STR_JOURNAL_HIGH, Fld.STR_STATUS_COMPACTING], f.apart g = true := by decide) :
    (s.commitTxn us x).rd g = s.rd g := by
  unfold State.commitTxn State.refreshJournal
  dsimp only
  rw [State.rd_maybeCompact _ (hg _ (by simp)), State.rd_wr_apart _ _ (hg _ (by simp)),
    State.rd_wr_apart _ _ (hg _ (by simp)), State.rd_wrB_apart _ _ (hg _ (by simp)),
    State.rd_wr_apart _ _ (hg _ (by simp)), State.rd_wr_apart _ _ (hg _ (by simp)),
    State.rd_wr_apart _ _ (hg _ (by simp))]
  rfl

/-- STR_TSEQ shows the TSEQ of the commit. -/
theorem State.commitTxn_tseqField (s : State) (us : Nat) (x : Txn) :
    (s.commitTxn us x).rd Fld.STR_TSEQ_TSEQ = (s.str.tseq + 1).toNat := by
  unfold State.commitTxn State.refreshJournal
  dsimp only
  rw [State.rd_maybeCompact _ (by decide), State.rd_wr_apart _ _ (by decide), State.rd_wr_apart _ _ (by decide),
    State.rd_wrB_apart _ _ (by decide), State.rd_wr_apart _ _ (by decide), State.rd_wr_apart _ _ (by decide),
    State.rd_wr_same]
  exact Nat.mod_eq_of_lt (s.str.tseq + 1).isLt

/-! ### The transaction at the head -/

/-- The state with other transactions waiting. -/
def State.withQueue (s : State) (xs : List Txn) : State := { s with led := { s.led with queue := xs } }

theorem State.commitHead_eq {x : Txn} {xs : List Txn} (hq : s.led.queue = x :: xs) (ha : areaDead s.str 0 = false)
    (hs : snapPending s.led.copies = false) (us : Nat) :
    s.commitHead us = ((s.withQueue xs).commitTxn us x).committed us x.act := by
  simp [State.commitHead, State.withQueue, hq, ha, hs]

/-- What follows a commit at the head leaves the commit. -/
theorem State.commitHead_stands {x : Txn} {xs : List Txn} (hq : s.led.queue = x :: xs) (ha : areaDead s.str 0 = false)
    (hs : snapPending s.led.copies = false) (hl : x.act = .lockEngage → s.sec.unlockDeferred = none) (us : Nat) :
    Stands ((s.withQueue xs).commitTxn us x) (s.commitHead us) := by
  rw [State.commitHead_eq hq ha hs]
  exact State.committed_stands fun h => by simpa [State.withQueue] using hl h

/-- Without a failure of a bank, nothing comes before the commit or copy. -/
theorem State.bankFails_nil (s : State) : s.bankFails [] = s := by
  unfold State.bankFails State.sameCycle
  split
  · split
    · rfl
    next h =>
      have hg : s.rcd.gather = none := by simpa using h
      change ({ s with rcd := { s.rcd with gather := none } } : State).raiseTogether [] = s
      rw [← hg]
      rfl
  · rfl

theorem exec_commitComplete (hr : s.core.running = true) (us : BitVec 16) (fails : List BankFail) :
    exec (.commitComplete us fails) s = .next ((s.bankFails fails).commitHead us.toNat) :=
  congrArg Host.Outcome.next (if_pos hr)

/-- Settles O15: the transaction is placed in the journal and committed, and what follows the commit leaves both. -/
theorem commitTakesNextTseq : Obligations.CommitTakesNextTseq := by
  unfold Obligations.CommitTakesNextTseq
  intro s us x xs hr hq ha hs hl
  have h := State.commitHead_stands hq ha hs hl us.toNat
  obtain ⟨hplace, htxn, hpass⟩ := s.str.place_spec x
  have hcur : (s.commitHead us.toNat).str.current = s.str.current := by
    rw [h.str]
    exact State.commitTxn_current _ _ _
  refine ⟨_, s.str.place x, by rw [exec_commitComplete hr, s.bankFails_nil], ?_, ?_, hplace, ?_, hpass, ?_, ?_, ?_,
    congrArg (Option.map BaseImage.img) hcur, ?_⟩
  · rw [h.str, State.commitTxn_tseq]
    rfl
  · rw [h.str]
    exact State.commitTxn_journal (s := s.withQueue xs) ha _ _
  · rw [htxn]
    rfl
  · rw [h.com, State.commitTxn_com, htxn]
    rfl
  · rw [h.queue, State.commitTxn_queue]
    rfl
  · rw [h.rd _ (by decide), State.commitTxn_tseqField]
    rfl
  · rw [h.flash, State.commitTxn_flash]
    rfl

end Sys2Proof.Machine
end

section
/-!
Post-commit copies (R228), compaction (R232, R233), and a bank that fails during a commit (R222, R237).
-/

namespace Sys2Proof.Machine
set_option Elab.async false
variable {s t : State}

/-! ### A post-commit copy (R228) -/

/-- The oldest copy has reached its home. -/
def State.copied (s : State) (c : CopyJob) (cs : List CopyJob) : State :=
  { s with str := copyHome s.fuses.uid s.str c.entry, led := { s.led with copies := cs } }

/-- Beside registers, a copy that reaches its home changes its area alone; then a compaction may begin. -/
theorem State.copyDone_eq {c : CopyJob} {cs : List CopyJob} (h : s.led.copies = c :: cs) :
    ∃ u, (s.copied c cs).regsOnly u ∧ s.copyDone = u.maybeCompact := by
  unfold State.copyDone
  split
  next e => simp [h] at e
  next e =>
    obtain ⟨rfl, rfl⟩ := List.cons.inj (h.symm.trans e)
    exact ⟨_, .wr (.wr (.wrB (.ite (.wr (.refl _)) (.refl _)))), rfl⟩

/-- Strata and its work as a copy and the compaction that may begin after it leave them. -/
theorem State.copyDone_spec {c : CopyJob} {cs : List CopyJob} (h : s.led.copies = c :: cs) :
    s.copyDone.led.copies = cs ∧
    s.copyDone.str = (if s.led.compacting = none ∧ s.copyDone.led.compacting ≠ none then
      (copyHome s.fuses.uid s.str c.entry).openBase else copyHome s.fuses.uid s.str c.entry) ∧
    s.copyDone.led.com = s.led.com ∧ s.copyDone.led.queue = s.led.queue := by
  obtain ⟨u, hu, e⟩ := State.copyDone_eq h
  rw [e]
  refine ⟨by simp [hu.led, State.copied], ?_, by simp [hu.led, State.copied], by simp [hu.led, State.copied]⟩
  have hnone : u.led.compacting = s.led.compacting := by
    rw [hu.led]
    rfl
  obtain e | ⟨hn, e⟩ := u.maybeCompact_cases <;> rw [e]
  · rw [if_neg fun ⟨h0, h1⟩ => h1 (hnone.trans h0)]
    exact hu.str
  · rw [if_pos ⟨hnone.symm.trans hn, Option.some_ne_none _⟩]
    exact congrArg Strata.openBase hu.str

theorem exec_postCommitCopyDone (hr : s.core.running = true) :
    exec (.postCommitCopyDone []) s = .next s.copyDone := by
  have h : exec (.postCommitCopyDone []) s = .next (s.bankFails []).copyDone := congrArg Host.Outcome.next (if_pos hr)
  rw [h, s.bankFails_nil]

/-! ### The end of a compaction (R232, R233) -/

/-- Strata with a new base in every copy in use. -/
def Strata.rebased (st : Strata) (q : BitVec 32) (img : Ledger) : Strata :=
  { (st.each 0 fun c => c.rebase st.curB q img) with curB := !st.curB }

/-- A compaction has ended. -/
def State.compactEnded (s : State) (q : BitVec 32) (img : Ledger) : State :=
  { s with str := s.str.rebased q img, led := { s.led with compacting := none } }

/-- Beside registers, the end of a compaction changes the ledger's area alone; then the next may begin. -/
theorem State.compacted_eq {q : BitVec 32} {img : Ledger} (h : s.led.compacting = some (q, img)) :
    ∃ u, (s.compactEnded q img).regsOnly u ∧ s.compacted = u.maybeCompact := by
  unfold State.compacted
  split
  next e => simp [h] at e
  next e =>
    obtain ⟨rfl, rfl⟩ := Prod.mk.inj (Option.some.inj (h.symm.trans e))
    exact ⟨_, .wr (.wr (.wr (.wrB (.wr (.refl _))))), rfl⟩

section
variable {st : Strata} (h : areaDead st 0 = false) (q : BitVec 32) (img : Ledger)
include h

theorem Strata.rebased_side : (st.rebased q img).side 0 = (st.side 0).rebase st.curB q img :=
  Strata.side_each st 0 (fun c => c.rebase st.curB q img) h

/-- The new base is the current one. -/
theorem Strata.rebased_current : (st.rebased q img).current = some (newBase q img) := by
  unfold Strata.current
  rw [Strata.rebased_side h]
  unfold Strata.rebased StrataCopy.rebase
  cases st.curB <;> rfl

/-- The transactions the new base covers have left the journal. -/
theorem Strata.rebased_journal : (st.rebased q img).journal = st.journal.filter fun j => (q - j.tseq).msb := by
  unfold Strata.journal
  rw [Strata.rebased_side h]
  unfold StrataCopy.rebase
  cases st.curB <;> rfl

end

theorem State.compacted_spec {q : BitVec 32} {img : Ledger} (ha : areaDead s.str 0 = false)
    (h : s.led.compacting = some (q, img)) :
    s.compacted.str.base = some img ∧ s.compacted.str.baseSeq = q ∧
    s.compacted.str.journal = (s.str.journal.filter fun j => (q - j.tseq).msb) ∧ s.compacted.str.tseq = s.str.tseq ∧
    s.compacted.led.com = s.led.com := by
  obtain ⟨u, hu, e⟩ := State.compacted_eq h
  have hstr : u.str = s.str.rebased q img := hu.str
  have hcur : s.compacted.str.current = some (newBase q img) := by
    rw [e, State.maybeCompact_current, hstr, Strata.rebased_current ha]
  refine ⟨by rw [Strata.base, hcur]; rfl, by rw [Strata.baseSeq, hcur]; rfl, ?_, ?_, ?_⟩
  · rw [e, State.maybeCompact_journal, hstr, Strata.rebased_journal ha]
  · rw [e, State.maybeCompact_tseq, hstr]
    rfl
  · rw [e, State.maybeCompact_com, hu.led]
    rfl

theorem exec_compactionComplete (hr : s.core.running = true) (ha : areaDead s.str 0 = false)
    (hs : snapPending s.led.copies = false) : exec (.compactionComplete []) s = .next s.compacted := by
  have h : exec (.compactionComplete []) s = .next
      (if areaDead (s.bankFails []).str 0 || snapPending (s.bankFails []).led.copies then s.bankFails []
        else (s.bankFails []).compacted) := congrArg Host.Outcome.next (if_pos hr)
  rw [h, s.bankFails_nil, ha, hs]
  rfl

/-! ### A bank that fails (R222, R237) -/

/-- The events of a cycle reach the intake after its work, which finds and leaves the recorder as the cycle needs it. -/
theorem State.sameCycle_eq (s : State) (f : State → State) : ∃ r r' es,
    s.sameCycle f = ({ f { s with rcd := r } with rcd := r' } : State).raiseTogether es := by
  unfold State.sameCycle
  split
  · exact ⟨s.rcd, (f s).rcd, [], rfl⟩
  · exact ⟨_, _, _, rfl⟩

theorem State.bankFails_eq (hr : s.core.running = true) (fs : List BankFail) : ∃ r,
    Stands (fs.foldl State.bankFail { s with rcd := r }) (s.bankFails fs) := by
  obtain ⟨r, r', es, e⟩ := s.sameCycle_eq fun s => fs.foldl State.bankFail s
  have h : s.bankFails fs = s.sameCycle fun s => fs.foldl State.bankFail s := if_pos hr
  rw [h, e]
  exact ⟨r, .raiseTogether (.update (.refl _))⟩

/-- One failed bank kills no area. -/
theorem areaDead_of_single {st : Strata} {b : Fin 16} (h : st.failed = [b]) (area : Nat) : areaDead st area = false := by
  unfold areaDead copyFailed
  rw [h]
  simp only [List.any_cons, List.any_nil, Bool.or_false, Bool.and_eq_false_iff, decide_eq_false_iff_not]
  by_cases h0 : areaOf b.val = (area, 0)
  · exact .inr (by simp [h0])
  · exact .inl h0

/-- A failure of a bank that is not one of the Audit Trail's, and leaves its area alive, is marked and raised (R237, R255). -/
theorem State.bankFail_marked {f : BankFail} (hf : f.bank ∉ s.str.failed) (hc : f.cause ≠ 0)
    (h4 : (areaOf f.bank.val).1 ≠ 4) (ha : areaDead (s.markBank f).str (areaOf f.bank.val).1 = false) :
    Stands (s.markBank f) (s.bankFail f) := by
  unfold State.bankFail
  extract_lets a dead m u now v _ w
  have hu : Stands m u := .ite (.endFreeze (.refl m)) (.refl m)
  have hnow : now = false := by
    unfold now
    rw [hu.str]
    exact ha
  have h4' : ¬(a = 4 && !now) = true := by simp [show a ≠ 4 from h4]
  have hw : w = v := if_neg h4'
  rw [if_neg hf, if_neg hc, hnow, hw]
  exact .raise hu

/-- A failed bank as its mark and STR_BANKS show it. -/
def State.bankNoted (s : State) (f : BankFail) : State :=
  let t : State := { s with str := markPartner (s.str.withFailed f.bank) f.bank.val }
  ((t.wr Fld.STR_BANKS_FAILED (t.rd Fld.STR_BANKS_FAILED ||| 2 ^ f.bank.val)).wr Fld.STR_BANKS_LAST_BANK f.bank.val).wr
    Fld.STR_BANKS_LAST_CAUSE f.cause.toNat

theorem State.bankNoted_failed (s : State) (f : BankFail) :
    (s.bankNoted f).str.failed = (s.str.withFailed f.bank).failed := markPartner_failed _ _

theorem State.bankNoted_tseq (s : State) (f : BankFail) : (s.bankNoted f).str.tseq = s.str.tseq := markPartner_tseq _ _

theorem State.bankNoted_last (s : State) (f : BankFail) : (s.bankNoted f).rd Fld.STR_BANKS_LAST_BANK = f.bank.val ∧
    (s.bankNoted f).rd Fld.STR_BANKS_LAST_CAUSE = f.cause.toNat :=
  ⟨(State.rd_wr_apart _ _ (by decide)).trans ((State.rd_wr_same ..).trans (Nat.mod_eq_of_lt f.bank.isLt)),
    (State.rd_wr_same ..).trans (Nat.mod_eq_of_lt f.cause.isLt)⟩

/-- The rest of what marks a failure shows it in counts and modes. -/
theorem State.markBank_stands (s : State) (f : BankFail) : Stands (s.bankNoted f) (s.markBank f) := by
  unfold State.markBank
  extract_lets _ _ _ _ _ t t1 _ t3
  have h1 : Stands t t1 := .ite (.count (.refl t)) (.refl t)
  have h3 : Stands t t3 := .wr (.wr h1)
  exact .ite (.wr h3) (.ite (.wr h3) h3)

/-! ### A bank that fails during a commit -/

/-- A transaction that waits alone commits: what is left of the copies, and of the controller's fields. -/
theorem State.commitHead_alone {x : Txn} (hq : s.led.queue = [x]) (hx : x.act = .tick false)
    (ha : areaDead s.str 0 = false) (hs : snapPending s.led.copies = false) (us : Nat) :
    (s.commitHead us).str.failed = s.str.failed ∧ (s.commitHead us).str.tseq = s.str.tseq + 1 ∧
      ∀ g ∈ controllerFields, g ≠ Fld.STR_TSEQ_TSEQ → (s.commitHead us).rd g = s.rd g := by
  have h := State.commitHead_stands hq ha hs (by simp [hx]) us
  have hoff : ∀ g ∈ controllerFields, g ≠ Fld.STR_TSEQ_TSEQ → ∀ f ∈ [Fld.STR_TSEQ_TSEQ, Fld.STR_COMMIT_LAST,
      Fld.STR_COMMIT_MAX, Fld.STR_STATUS_SNAP_PENDING, Fld.STR_JOURNAL_USED, Fld.STR_JOURNAL_HIGH,
      Fld.STR_STATUS_COMPACTING], f.apart g = true := by decide
  refine ⟨?_, ?_, fun g hg hne => ?_⟩
  · rw [h.str, State.commitTxn_failed]
    rfl
  · rw [h.str, State.commitTxn_tseq]
    rfl
  · rw [h.rd g hg, State.rd_commitTxn _ _ _ (hoff g hg hne)]
    rfl

section
variable {x : Txn} {f : BankFail} (hr : s.core.running = true) (hq : s.led.queue = [x]) (hx : x.act = .tick false)
  (hn : s.str.failed = []) (hs : snapPending s.led.copies = false) (us : BitVec 16)
include hr hq hx hn hs

/-- The failed bank is dropped and the transaction commits in what is left (R237). -/
theorem State.commit_dropsBank (hc : f.cause ≠ 0) (hb : f.bank.val < 14) :
    ∃ t, exec (.commitComplete us [f]) s = .next t ∧ t.str.failed = [f.bank] ∧ t.str.tseq = s.str.tseq + 1 ∧
      t.rd Fld.STR_BANKS_LAST_BANK = f.bank.val ∧ t.rd Fld.STR_BANKS_LAST_CAUSE = f.cause.toNat := by
  obtain ⟨r, h⟩ := State.bankFails_eq hr [f]
  have hm := State.markBank_stands { s with rcd := r } f
  have hfail : (State.markBank { s with rcd := r } f).str.failed = [f.bank] := by
    rw [hm.str, State.bankNoted_failed]
    simp [Strata.withFailed, hn]
  have h4 : (areaOf f.bank.val).1 ≠ 4 := by
    unfold areaOf
    split_ifs <;> simp
  have hmark : Stands (State.markBank { s with rcd := r } f) (s.bankFails [f]) :=
    (State.bankFail_marked (by simp [hn]) hc h4 (areaDead_of_single hfail _)).trans h
  have hk := hm.trans hmark
  have hfail' : (s.bankFails [f]).str.failed = [f.bank] := (congrArg Strata.failed hmark.str).trans hfail
  obtain ⟨hf, ht, hrd⟩ := State.commitHead_alone (hk.queue.trans hq) hx (areaDead_of_single hfail' 0)
    (by rw [hk.copies]; exact hs) us.toNat
  obtain ⟨hbank, hcause⟩ := State.bankNoted_last { s with rcd := r } f
  refine ⟨_, exec_commitComplete hr us [f], hf.trans hfail', ?_, ?_, ?_⟩
  · rw [ht, hk.str, State.bankNoted_tseq]
  · rw [hrd _ (by decide) (by decide), hk.rd _ (by decide), hbank]
  · rw [hrd _ (by decide) (by decide), hk.rd _ (by decide), hcause]

/-- A corrected error is counted and drops nothing (R222). -/
theorem State.commit_correctsError (hc : f.cause = 0) :
    ∃ t, exec (.commitComplete us [f]) s = .next t ∧ t.str.failed = [] ∧ t.str.tseq = s.str.tseq + 1 ∧
      t.rd Fld.SYS_ESC_COUNT_CORRECTED = min (s.rd Fld.SYS_ESC_COUNT_CORRECTED + 1) 255 := by
  obtain ⟨r, h⟩ := State.bankFails_eq hr [f]
  have he : [f].foldl State.bankFail { s with rcd := r } = State.eccCorrected { s with rcd := r } := by
    simp [State.bankFail, hn, hc]
  rw [he] at h
  have hfail : (s.bankFails [f]).str.failed = [] := (congrArg Strata.failed h.str).trans hn
  obtain ⟨hf, ht, hrd⟩ := State.commitHead_alone (h.queue.trans hq) hx (by simp [areaDead, copyFailed, hfail])
    (by rw [h.copies]; exact hs) us.toNat
  refine ⟨_, exec_commitComplete hr us [f], hf.trans hfail, ?_, ?_⟩
  · rw [ht, h.str]
    rfl
  · rw [hrd _ (by decide) (by decide), h.rd _ (by decide), State.eccCorrected, State.rd_count_same,
      State.rd_count_apart _ _ (by decide)]
    rfl

end

/-- Settles O16: the copy and the compaction by what each leaves but for registers, the failures by the bank that is marked
before the commit. -/
theorem copiesAndBanks : Obligations.CopiesAndBanks := by
  unfold Obligations.CopiesAndBanks
  exact ⟨fun s hr => ⟨fun c cs h => ⟨_, exec_postCommitCopyDone hr, State.copyDone_spec h⟩,
      fun q img ha hs h => ⟨_, exec_compactionComplete hr ha hs, State.compacted_spec ha h⟩⟩,
    fun s us f x hr hq hx hn hs => ⟨State.commit_dropsBank hr hq hx hn hs us,
      State.commit_correctsError hr hq hx hn hs us⟩⟩

end Sys2Proof.Machine
end

section
/-!
A recovery without a base or a copy of the ledger's area (R236): the device and its ledger freeze, and STR_RECOVERY says so.
-/

namespace Sys2Proof.Machine
set_option Elab.async false
variable {s0 s t : State}

/-! ### What a region failure leaves of the controller's fields (R43) -/

theorem Stands.setChip (h : Stands s0 s) {v} : Stands s0 (s.setChip v) := by
  unfold State.setChip
  exact .ite (.wr h) (.irq (.wr h))

theorem Stands.alert (h : Stands s0 s) {f b} (hf : f.offController = true := by decide) : Stands s0 (s.alert f b) := by
  unfold State.alert
  exact .wrB (.ite (.irq (.wrB h hf)) (.wrB h hf))

theorem Stands.escRecord (h : Stands s0 s) {level region block cell cause error} :
    Stands s0 (s.escRecord level region block cell cause error) := by
  unfold State.escRecord
  exact .raise (.wr (.wr h))

theorem Stands.escFail (h : Stands s0 s) {region block cell error} : Stands s0 (s.escFail region block cell error) := by
  unfold State.escFail
  exact .escRecord (.escRecord h)

theorem Stands.escRegion (h : Stands s0 s) {region} : Stands s0 (s.escRegion region) := by
  unfold State.escRegion
  exact .count (.wr h)

theorem Stands.loadRefuse (h : Stands s0 s) {slot live result addr tested} :
    Stands s0 (s.loadRefuse slot live result addr tested) := by
  unfold State.loadRefuse State.loadReport
  extract_lets _ t
  have ht : Stands s0 t := .wr (.wrB (.wr (.wr h)))
  exact .raise (.irq (.ite (.count ht) ht))

theorem Stands.loadAbandon (h : Stands s0 s) : Stands s0 s.loadAbandon := by
  unfold State.loadAbandon State.liveEnd
  split
  · exact h
  · exact .ite (.loadRefuse (.wr (.update h))) (.loadRefuse (.update h))

theorem Stands.suppress (h : Stands s0 s) {code} : Stands s0 (s.suppress code) := by
  unfold State.suppress
  exact .setRcd h

theorem Stands.raiseFront (h : Stands s0 s) {code source payload} : Stands s0 (s.raiseFront code source payload) := by
  unfold State.raiseFront
  extract_lets _ t
  have ht : Stands s0 t := by
    unfold t
    split
    · exact .count (.suppress (.setRcd h))
    · exact h
  exact .ite h (.ite (.ite (.lastResort h) (.count h)) (.setRcd ht))

theorem Stands.chipFreezeEvent (h : Stands s0 s) : Stands s0 s.chipFreezeEvent := by
  unfold State.chipFreezeEvent
  exact .ite (.lastResort (.endFreeze h)) (.raiseFront (.endFreeze h))

theorem State.rd_freezeLedger (s : State) {g : Field} (hg : g ∈ controllerFields) : s.freezeLedger.rd g = s.rd g :=
  State.rd_wr_apart _ _ (List.all_eq_true.1 (by decide : Fld.LED_STATUS_STATE.offController = true) g hg)

/-- A region failure leaves the controller's fields. -/
theorem State.rd_regionFail (s : State) (region block cell error : Nat) {g : Field} (hg : g ∈ controllerFields) :
    (s.regionFail region block cell error).rd g = s.rd g := by
  unfold State.regionFail
  extract_lets _ _ _ _ u _ v w w1 _ _ x
  have hu : Stands s u := .update (.wr (.refl s))
  have hv : Stands s v := .setChip (.update hu)
  have hw : Stands v.freezeLedger w := .alert (.refl _)
  have hx : Stands v.freezeLedger x :=
    .chipFreezeEvent (.loadAbandon (.escFail (.count (.ite (.twinSend hw) hw))))
  split
  · exact (Stands.ite (.escFail (.update hu)) hu).rd g hg
  · exact ((Stands.wrB (.update hx)).rd g hg).trans ((v.rd_freezeLedger hg).trans (hv.rd g hg))

/-! ### A frozen device has a frozen ledger (R43) -/

/-- While the device is FROZEN, its ledger is frozen. -/
def State.ledgerFrozen (s : State) : Prop := s.chip = chipFrozen → s.led.frozen = true

theorem LedgerKept.ledgerFrozen (k : LedgerKept s t) (h : s.ledgerFrozen) : t.ledgerFrozen := fun hc =>
  k.frozen.trans (h (k.chip.symm.trans hc))

/-- A region failure of a device that is FROZEN leaves the ledger. -/
theorem State.regionFail_led (h : s.chip = chipFrozen) (region block cell error : Nat) :
    (s.regionFail region block cell error).led = s.led := by
  unfold State.regionFail
  extract_lets
  rw [if_pos h]
  split
  · exact (Spares.refl _).escFail.led
  · rfl

/-- After a region failure the ledger is frozen. -/
theorem State.regionFail_ledgerFrozen (h : s.ledgerFrozen) (region block cell error : Nat) :
    (s.regionFail region block cell error).led.frozen = true := by
  by_cases hc : s.chip = chipFrozen
  · rw [State.regionFail_led hc]
    exact h hc
  · exact (State.regionFail_frozen hc region block cell error).2.1

theorem LedgerKept.escRegion (h : LedgerKept s t) {region} : LedgerKept s (t.escRegion region) := by
  unfold State.escRegion
  exact .count (.wr h)

/-- A failure in the ledger's area is known already, or counted as corrected, or marked and raised, which may kill the area. -/
theorem State.bankFail_ledgerArea (s : State) {f : BankFail} (ha : (areaOf f.bank.val).1 = 0) :
    ∃ u, LedgerKept s u ∧ (s.bankFail f = u ∨ s.bankFail f = u.areaDies 0) := by
  unfold State.bankFail
  extract_lets a dead m u now v _ w
  have hm : LedgerKept s m := .markBank (.refl s)
  have hu : u = m := if_neg (by simp [a, ha])
  have hw : w = v := if_neg (by simp [a, ha])
  have hv : LedgerKept s v := by
    unfold v
    rw [hu]
    exact .raise hm
  split
  · exact ⟨s, .refl s, .inl rfl⟩
  · split
    · exact ⟨_, .count (.count (.refl s)), .inl rfl⟩
    · rw [hw, show a = 0 from ha]
      split
      · exact ⟨v, hv, .inr rfl⟩
      · exact ⟨v, hv, .inl rfl⟩

theorem State.bankFail_ledgerFrozen (h : s.ledgerFrozen) {f : BankFail} (ha : (areaOf f.bank.val).1 = 0) :
    (s.bankFail f).ledgerFrozen := by
  obtain ⟨u, hu, e | e⟩ := s.bankFail_ledgerArea ha <;> rw [e]
  · exact hu.ledgerFrozen h
  · exact fun _ => State.regionFail_ledgerFrozen (LedgerKept.ledgerFrozen (.escRegion (.raise hu)) h) _ _ _ _

theorem State.bankFails_ledgerFrozen (h : s.ledgerFrozen) {fs : List BankFail}
    (hfs : ∀ f ∈ fs, (areaOf f.bank.val).1 = 0) : (s.bankFails fs).ledgerFrozen := by
  have hfold : ∀ u : State, u.ledgerFrozen → (fs.foldl State.bankFail u).ledgerFrozen := by
    induction fs with
    | nil => exact fun _ hu => hu
    | cons f fs ih => exact fun u hu => ih (fun g hg => hfs g (.tail _ hg)) _ (State.bankFail_ledgerFrozen hu (hfs f (.head _)))
  unfold State.bankFails
  split
  · obtain ⟨r, hr⟩ := s.sameCycle_spares fun s => fs.foldl State.bankFail s
    intro hc
    rw [hr.led]
    exact hfold _ h (hr.chip.symm.trans hc)
  · exact h

/-! ### The end of a recovery that fails (R236) -/

theorem Spares.setFlint (h : Spares s0 s) {v} : Spares s0 (s.setFlint v) := by
  unfold State.setFlint
  extract_lets _ _ t
  have ht : Spares s0 t := .wrB (.wrB (.wr h))
  exact .ite ht (.irq ht)

theorem Spares.alert (h : Spares s0 s) {f b} (hf : f.clear = true := by decide) : Spares s0 (s.alert f b) := by
  unfold State.alert
  exact .wrB (.ite (.irq (.wrB h hf)) (.wrB h hf))

theorem Spares.refreshBanks (h : Spares s0 s) : Spares s0 s.refreshBanks := by
  unfold State.refreshBanks
  extract_lets _ _ _ _ _ t3 t4
  have h3 : Spares s0 t3 := .wr (.wr (.wr (.wr (.wr h))))
  have h4 : Spares s0 t4 := .ite (.alert h3) h3
  exact .ite (.alert h4) h4

theorem Spares.ledgerFrozen (k : Spares s t) (h : s.ledgerFrozen) : t.ledgerFrozen := fun hc => by
  rw [k.led]
  exact h (k.chip.symm.trans hc)

/-- The registers in which a failed recovery ends; the Bedrock lock bit is enforced. -/
def State.recoveryEnded (s : State) : State :=
  let s := ((s.wr Fld.STR_STATUS_STATE 4).wr Fld.STR_RECOVERY_RESULT 4).wr Fld.LED_STATUS_STATE 3
  if s.bk.lock then s.setFlint flEngaging else s.setFlint flUnlocked

theorem State.recoveryEnded_spares (s : State) : Spares s s.recoveryEnded := by
  unfold State.recoveryEnded
  have h : Spares s (((s.wr Fld.STR_STATUS_STATE 4).wr Fld.STR_RECOVERY_RESULT 4).wr Fld.LED_STATUS_STATE 3) :=
    .wr (.wr (.wr (.refl s)))
  exact .ite (.setFlint h) (.setFlint h)

theorem State.recoveryEnded_result (s : State) : s.recoveryEnded.rd Fld.STR_RECOVERY_RESULT = 4 := by
  unfold State.recoveryEnded
  extract_lets t
  have h : Stands ((s.wr Fld.STR_STATUS_STATE 4).wr Fld.STR_RECOVERY_RESULT 4) t := .wr (.refl _)
  rw [(Stands.ite (.setFlint h) (.setFlint h)).rd _ (by decide)]
  exact State.rd_wr_same ..

theorem State.recoveryFailed_eq (s : State) : s.recoveryFailed =
    if s.recoveryEnded.chip = chipFrozen then s.recoveryEnded else (s.recoveryEnded.escRegion 2).regionFail 2 2 0 0x10 := rfl

theorem State.recoveryFailed_spec (s : State) : s.recoveryFailed.chip = chipFrozen ∧
    s.recoveryFailed.rd Fld.STR_RECOVERY_RESULT = 4 ∧ (s.ledgerFrozen → s.recoveryFailed.led.frozen = true) := by
  rw [State.recoveryFailed_eq]
  split
  next hc => exact ⟨hc, s.recoveryEnded_result, fun h => s.recoveryEnded_spares.ledgerFrozen h hc⟩
  next hc =>
    have hc' : (s.recoveryEnded.escRegion 2).chip ≠ chipFrozen := by
      rw [(Spares.refl s.recoveryEnded).escRegion.chip]
      exact hc
    obtain ⟨hchip, hfrozen, -⟩ := State.regionFail_frozen hc' 2 2 0 0x10
    refine ⟨hchip, ?_, fun _ => hfrozen⟩
    rw [State.rd_regionFail _ _ _ _ _ (by decide), (Stands.refl s.recoveryEnded).escRegion.rd _ (by decide),
      s.recoveryEnded_result]

/-! ### The headers (R234 step 1, R238) -/

/-- A header that fails drops a bank of the ledger's area. -/
theorem State.headerFails_spec (s : State) : ∀ f ∈ s.headerFails, (areaOf f.bank.val).1 = 0 ∧ f.cause ≠ 0 := by
  intro f hf
  obtain ⟨c, hc, e⟩ := List.mem_filterMap.1 hf
  split at e
  · cases e
    have hc' : c < 2 := List.mem_range.1 hc
    interval_cases c <;> decide
  · cases e

/-- Whether recovery may run. -/
def State.recoverable (s : State) : Prop := s.core.running = true ∧ s.core.pll = true ∧ s.rd Fld.STR_STATUS_STATE = 1

theorem State.recovery_none (h : s.recoverable) (hb : s.baseFound s.headerFails = none) :
    s.recovery [] = (s.refreshBanks.bankFails s.headerFails).recoveryFailed := by
  obtain ⟨hr, hp, hs⟩ := h
  simp [State.recovery, hr, hp, hs, hb]

/-- With no base or no copy left the device is FROZEN with its ledger (R236). -/
theorem State.recovery_freezes (h : s.recoverable) (hb : s.baseFound s.headerFails = none) :
    (s.recovery []).chip = chipFrozen ∧ (s.recovery []).rd Fld.STR_RECOVERY_RESULT = 4 ∧
      (s.chip ≠ chipFrozen → (s.recovery []).led.frozen = true) := by
  rw [State.recovery_none h hb]
  obtain ⟨hchip, hresult, hfrozen⟩ := (s.refreshBanks.bankFails s.headerFails).recoveryFailed_spec
  refine ⟨hchip, hresult, fun hc => hfrozen (State.bankFails_ledgerFrozen ?_ fun f hf => (s.headerFails_spec f hf).1)⟩
  exact (Spares.refl s).refreshBanks.ledgerFrozen fun e => absurd e hc

end Sys2Proof.Machine
end

section
/-!
A recovery that finds a base (R234, R293): the ledger is replayed on it, the copies in use take its journal, the banks whose
headers fail drop out, and Flint takes the lock from its two records.
-/

namespace Sys2Proof.Machine
set_option Elab.async false
variable {s0 s t u : State}

/-! ### The journals of both copies -/

/-- The journal in each copy, in use or not. -/
def Strata.journals (st : Strata) : List JTxn × List JTxn := (st.copy0.journal, st.copy1.journal)

theorem Strata.each_journals {f : StrataCopy → StrataCopy} (h : ∀ c, (f c).journal = c.journal) (st : Strata) (area : Nat) :
    (st.each area f).journals = st.journals := by
  unfold Strata.journals Strata.each
  dsimp only
  congr 1 <;> split <;> simp [h]

/-- The journal that is read follows from those of the copies and from the banks that have failed. -/
theorem Strata.journal_congr {a b : Strata} (hj : a.journals = b.journals) (hf : a.failed = b.failed) :
    a.journal = b.journal := by
  obtain ⟨h0, h1⟩ := Prod.mk.inj hj
  unfold Strata.journal Strata.side
  rw [copyFailed_congr hf]
  split
  · exact h1
  · exact h0

theorem copyHome_journals (uid : BitVec 64) (st : Strata) (e : LEntry) : (copyHome uid st e).journals = st.journals := by
  cases e with
  | audit p v =>
    unfold copyHome
    dsimp only
    split
    · rfl
    · exact st.each_journals (f := fun c => { c with aud := atPos c.aud p v }) (fun _ => rfl) 4
  | loadProfile p v => exact st.each_journals (by intro; rfl) 2
  | snapshot p v => exact st.each_journals (by intro; rfl) 1
  | scale v => exact st.each_journals (by intro; rfl) 0
  | _ => rfl

theorem markPartner_journals (st : Strata) (b : Nat) : (markPartner st b).journals = st.journals := by
  unfold markPartner Strata.journals
  split
  · dsimp only
    split <;> rfl
  · split
    · dsimp only
      split <;> rfl
    · rfl

/-- What replaying the ledger's own transactions keeps of Strata. -/
def Strata.recoveryPart (st : Strata) : (List JTxn × List JTxn) × BitVec 32 × List (Fin 16) :=
  (st.journals, st.tseq, st.failed)

theorem copyHomes_part (uid : BitVec 64) (es : List LEntry) (st : Strata) :
    (es.foldl (copyHome uid) st).recoveryPart = st.recoveryPart := by
  induction es generalizing st with
  | nil => rfl
  | cons e es ih =>
    rw [List.foldl_cons, ih, Strata.recoveryPart, copyHome_journals, copyHome_tseq, copyHome_failed]
    rfl

theorem State.maybeCompact_part (s : State) : s.maybeCompact.str.recoveryPart = s.str.recoveryPart := by
  obtain h | ⟨-, h⟩ := s.maybeCompact_cases <;> rw [h]
  have hj : s.str.openBase.journals = s.str.journals :=
    Strata.each_journals (fun c => by split <;> rfl) s.str 0
  exact congrArg (·, s.str.tseq, s.str.failed) hj

/-! ### The restored ledger (R234) -/

/-- The transactions accepted are the journal of every copy in use. -/
theorem Strata.recovered_journal {st : Strata} (h : areaDead st 0 = false) (x : Bool × BaseImage) (acc : List JTxn) :
    (st.recovered x acc).journal = acc := by
  have hside : (st.recovered x acc).side 0 = (st.side 0).repair x acc :=
    Strata.side_each st 0 (fun c => c.repair x acc) h
  unfold Strata.journal
  rw [hside]
  unfold StrataCopy.repair
  dsimp only
  split <;> rfl

theorem Strata.recoveryResult_lt (st : Strata) (x : Bool × BaseImage) (acc : List JTxn) :
    st.recoveryResult x acc < 2 ^ 8 := by
  unfold Strata.recoveryResult
  split_ifs <;> decide

/-- The image that a base and the transactions accepted after it give. -/
def replayed (x : Bool × BaseImage) (acc : List JTxn) : Ledger := acc.foldl (fun l j => applyTxn l j.txn) x.2.img

/-- The restored image differs in the state's intervals alone. -/
theorem restoredImage_keeps (img : Ledger) : (restoredImage img).slots = img.slots ∧ (restoredImage img).act = img.act ∧
    (restoredImage img).psv = img.psv ∧ (restoredImage img).st.lockFlag = img.st.lockFlag := ⟨rfl, rfl, rfl, rfl⟩

/-- What recovery has restored. -/
structure Restored (s : State) (x : Bool × BaseImage) (t : State) : Prop where
  com : t.led.com = restoredImage (replayed x (s.str.accepted x.2))
  live : t.led.live = t.led.com
  recovered : t.led.recovered = true
  part : t.str.recoveryPart = (s.str.recovered x (s.str.accepted x.2)).recoveryPart
  lock : t.bk = s.bk
  core : t.core = s.core
  result : t.rd Fld.STR_RECOVERY_RESULT = s.str.recoveryResult x (s.str.accepted x.2)

theorem Restored.maybeCompact {x : Bool × BaseImage} (h : Restored s x t) : Restored s x t.maybeCompact where
  com := (State.maybeCompact_com t).trans h.com
  live := by
    obtain e | ⟨-, e⟩ := t.maybeCompact_cases <;> rw [e]
    · exact h.live
    · exact h.live
  recovered := (LedgerKept.maybeCompact (.refl t)).recovered.trans h.recovered
  part := t.maybeCompact_part.trans h.part
  lock := by
    obtain e | ⟨-, e⟩ := t.maybeCompact_cases <;> rw [e]
    · exact h.lock
    · exact h.lock
  core := by
    obtain e | ⟨-, e⟩ := t.maybeCompact_cases <;> rw [e]
    · exact h.core
    · exact h.core
  result := (t.rd_maybeCompact (by decide)).trans h.result

/-- Registers that are not of the controller. -/
theorem Restored.shown {x : Bool × BaseImage} (h : Restored s x t) (hu : t.regsOnly u) (k : Stands t u) : Restored s x u where
  com := k.com.trans h.com
  live := by
    rw [hu]
    exact h.live
  recovered := by
    rw [hu]
    exact h.recovered
  part := by
    rw [k.str]
    exact h.part
  lock := by
    rw [hu]
    exact h.lock
  core := by
    rw [hu]
    exact h.core
  result := (k.rd _ (by decide)).trans h.result

theorem State.restore_restored (s : State) (x : Bool × BaseImage) : Restored s x (s.restore x) := by
  unfold State.restore
  extract_lets acc result _ img st _ s1 _ s2 s3 s4 s5 s6 s7
  have hstr : s2.redoCopies.str.recoveryPart = s1.str.recoveryPart := copyHomes_part _ _ _
  let w := s4.wr Fld.STR_RECOVERY_RESULT result
  have hw : Restored s x w := ⟨rfl, rfl, rfl, hstr, rfl, rfl,
    (State.rd_wr_same ..).trans (Nat.mod_eq_of_lt (s.str.recoveryResult_lt x acc))⟩
  have h7 : w.regsOnly s7 := .wr (.wr (.wr (.wr (.refl w))))
  have k7 : Stands w s7 := .wr (.wr (.wr (.wr (.refl w))))
  have h8 : s7.regsOnly s7.refresh.refreshAnchor.refreshJournal :=
    .wr (.wr (.wr (.wr s7.refresh_regsOnly)))
  have k8 : Stands s7 s7.refresh.refreshAnchor.refreshJournal :=
    .wr (.wr (.wr (.wr (.refresh (.refl s7)))))
  exact ((hw.shown h7 k7).shown h8 k8).maybeCompact

/-! ### The banks that drop out (R234 step 1, R237) -/

/-- The ledger, the journals and the last TSEQ, Bedrock, and RESULT of STR_RECOVERY are as before. -/
structure BanksSettled (s t : State) : Prop where
  led : t.led = s.led
  journals : t.str.journals = s.str.journals
  tseq : t.str.tseq = s.str.tseq
  lock : t.bk = s.bk
  result : t.rd Fld.STR_RECOVERY_RESULT = s.rd Fld.STR_RECOVERY_RESULT

theorem BanksSettled.refl (s : State) : BanksSettled s s := ⟨rfl, rfl, rfl, rfl, rfl⟩

theorem BanksSettled.trans (h : BanksSettled s t) (k : BanksSettled t u) : BanksSettled s u :=
  ⟨k.led.trans h.led, k.journals.trans h.journals, k.tseq.trans h.tseq, k.lock.trans h.lock, k.result.trans h.result⟩

/-- Registers that are not of the controller. -/
theorem BanksSettled.of_regs (h : s.regsOnly t) (k : Stands s t) : BanksSettled s t :=
  ⟨h.led, congrArg Strata.journals k.str, congrArg Strata.tseq k.str, by rw [h], k.rd _ (by decide)⟩

theorem BanksSettled.raise (s : State) (code source : Nat) (payload : List Byte) :
    BanksSettled s (s.raise code source payload) :=
  ⟨by simp, by simp, by simp, by simp, s.rd_raise (by decide) _ _ _⟩

theorem BanksSettled.withRcd (s : State) (r : Recorder) : BanksSettled s { s with rcd := r } := ⟨rfl, rfl, rfl, rfl, rfl⟩

theorem BanksSettled.raiseTogether (s : State) (es : List Offer) : BanksSettled s (s.raiseTogether es) :=
  ⟨by simp, by simp, by simp, by simp, s.rd_raiseTogether (by decide) es⟩

theorem State.bankNoted_settled (s : State) (f : BankFail) : BanksSettled s (s.bankNoted f) :=
  ⟨rfl, markPartner_journals _ _, markPartner_tseq _ _, rfl, (State.rd_wr_apart _ _ (by decide)).trans
    ((State.rd_wr_apart _ _ (by decide)).trans (State.rd_wr_apart _ _ (by decide)))⟩

theorem State.markBank_settled (s : State) (f : BankFail) : BanksSettled s (s.markBank f) := by
  refine s.bankNoted_settled f |>.trans (.of_regs ?_ (s.markBank_stands f))
  unfold State.markBank
  extract_lets _ _ _ _ _ t t1 _ t3
  have h1 : t.regsOnly t1 := .ite (.wr (.refl t)) (.refl t)
  have h3 : t.regsOnly t3 := .wr (.wr h1)
  exact .ite (.wr h3) (.ite (.wr h3) h3)

/-- Failed banks, with those of a list of failures. -/
def dropBanks (l : List (Fin 16)) (fs : List BankFail) : List (Fin 16) :=
  fs.foldl (fun l f => if f.bank ∈ l then l else l ++ [f.bank]) l

theorem dropBanks_cons (l : List (Fin 16)) (f : BankFail) (fs : List BankFail) :
    dropBanks l (f :: fs) = dropBanks (if f.bank ∈ l then l else l ++ [f.bank]) fs := rfl

theorem subset_dropBanks (l : List (Fin 16)) (fs : List BankFail) : l ⊆ dropBanks l fs := by
  induction fs generalizing l with
  | nil => exact List.Subset.refl l
  | cons f fs ih =>
    rw [dropBanks_cons]
    refine List.Subset.trans ?_ (ih _)
    split
    · exact List.Subset.refl l
    · exact List.subset_append_left l _

/-- An area that lives without some banks lives with them. -/
theorem areaDead_of_subset {a b : Strata} (h : a.failed ⊆ b.failed) {area : Nat} (hb : areaDead b area = false) :
    areaDead a area = false := by
  have hc (copy : Nat) : copyFailed a area copy = true → copyFailed b area copy = true := by
    unfold copyFailed
    simp only [List.any_eq_true]
    exact fun ⟨x, hx, e⟩ => ⟨x, h hx, e⟩
  refine Bool.eq_false_of_not_eq_true fun ha => ?_
  obtain ⟨h0, h1⟩ := Bool.and_eq_true_iff.1 ha
  rw [areaDead, hc 0 h0, hc 1 h1] at hb
  cases hb

/-- Strata at recovery differs in the banks that have failed. -/
theorem State.strFound_eq (s : State) {fs : List BankFail} (h : ∀ f ∈ fs, f.cause ≠ 0) :
    s.strFound fs = { s.str with failed := dropBanks s.str.failed fs } := by
  have hfold : ∀ st : Strata, fs.foldl (fun (st : Strata) (f : BankFail) =>
      if f.cause = 0 || f.bank ∈ st.failed then st else { st with failed := st.failed ++ [f.bank] }) st =
        { st with failed := dropBanks st.failed fs } := by
    induction fs with
    | nil => exact fun _ => rfl
    | cons f fs ih =>
      intro st
      rw [List.foldl_cons, decide_eq_false (h f (.head _)), Bool.false_or, ih fun g hg => h g (.tail _ hg), dropBanks_cons]
      by_cases hm : f.bank ∈ st.failed <;> simp [hm]
  exact hfold s.str

/-- A failure that leaves the ledger's area alive drops its bank (R237). -/
theorem State.bankFail_settled {f : BankFail} (ha : (areaOf f.bank.val).1 = 0) (hc : f.cause ≠ 0)
    (hl : areaDead (s.str.withFailed f.bank) 0 = false) :
    BanksSettled s (s.bankFail f) ∧ (s.bankFail f).str.failed = (s.str.withFailed f.bank).failed := by
  by_cases hf : f.bank ∈ s.str.failed
  · have e : s.bankFail f = s := if_pos hf
    rw [e]
    exact ⟨.refl s, (if_pos hf).symm⟩
  · have hm : (s.markBank f).str.failed = (s.str.withFailed f.bank).failed := by
      rw [State.markBank_str, markPartner_failed]
    rw [State.bankFail_of_alive ha hf hc ((areaDead_congr hm 0).trans hl), State.raise_str]
    exact ⟨s.markBank_settled f |>.trans (.raise ..), hm⟩

theorem State.bankFail_foldl_settled {fs : List BankFail} (hfs : ∀ f ∈ fs, (areaOf f.bank.val).1 = 0 ∧ f.cause ≠ 0)
    (hl : areaDead { s.str with failed := dropBanks s.str.failed fs } 0 = false) :
    BanksSettled s (fs.foldl State.bankFail s) ∧
      (fs.foldl State.bankFail s).str.failed = dropBanks s.str.failed fs := by
  induction fs generalizing s with
  | nil => exact ⟨.refl s, rfl⟩
  | cons f fs ih =>
    obtain ⟨ha, hc⟩ := hfs f (.head _)
    obtain ⟨hs, hf⟩ := State.bankFail_settled (s := s) ha hc (areaDead_of_subset (subset_dropBanks _ fs) hl)
    have hf' : dropBanks (s.bankFail f).str.failed fs = dropBanks s.str.failed (f :: fs) := by
      rw [hf]
      rfl
    have hl' : areaDead { (s.bankFail f).str with failed := dropBanks (s.bankFail f).str.failed fs } 0 = false := by
      rw [hf']
      exact (areaDead_congr rfl 0).trans hl
    obtain ⟨hs', hfs'⟩ := ih (fun g hg => hfs g (.tail _ hg)) hl'
    exact ⟨hs.trans hs', hfs'.trans hf'⟩

/-- Failures that leave the ledger's area alive drop their banks. -/
theorem State.bankFails_settled (hr : s.core.running = true) {fs : List BankFail}
    (hfs : ∀ f ∈ fs, (areaOf f.bank.val).1 = 0 ∧ f.cause ≠ 0)
    (hl : areaDead { s.str with failed := dropBanks s.str.failed fs } 0 = false) :
    BanksSettled s (s.bankFails fs) ∧ (s.bankFails fs).str.failed = dropBanks s.str.failed fs := by
  obtain ⟨r, r', es, e⟩ := s.sameCycle_eq fun s => fs.foldl State.bankFail s
  have h : s.bankFails fs = s.sameCycle fun s => fs.foldl State.bankFail s := if_pos hr
  obtain ⟨hs, hf⟩ := State.bankFail_foldl_settled (s := { s with rcd := r }) hfs hl
  rw [h, e]
  exact ⟨((BanksSettled.withRcd s r).trans hs).trans ((BanksSettled.withRcd _ r').trans (.raiseTogether _ es)),
    (congrArg Strata.failed (State.raiseTogether_str _ es)).trans hf⟩

/-! ### The lock, the scale and the Audit Trail's entry -/

theorem State.setFlint_locked (s : State) (v : Nat) : (s.setFlint v).locked = decide (v ≠ flUnlocked) := by
  unfold State.setFlint State.locked State.irq
  dsimp only
  split
  · exact State.flag_wrB_same _ _ _ rfl
  · rw [State.flag_wrB_apart (by decide)]
    exact State.flag_wrB_same _ _ _ rfl

theorem State.regsOnly.setFlint (h : s.regsOnly t) {v} : s.regsOnly (t.setFlint v) := by
  unfold State.setFlint
  extract_lets _ _ u
  have hu : s.regsOnly u := .wrB (.wrB (.wr h))
  exact .ite hu (.wr hu)

/-- The lock of either record is in force (R293). -/
theorem State.flintStart_locked (s : State) : s.flintStart.locked = (s.led.com.st.lockFlag || s.bk.lock) := by
  unfold State.flintStart
  split
  next h => rw [State.setFlint_locked, h, Bool.true_or, decide_eq_true (by decide)]
  next h =>
    rw [State.setFlint_locked, Bool.eq_false_of_not_eq_true h]
    cases s.bk.lock <;> decide

theorem State.flintStart_led (s : State) : s.flintStart.led = s.led := by
  unfold State.flintStart
  split
  · exact (State.regsOnly.refl _).setFlint.led
  · exact (State.regsOnly.refl _).setFlint.led

theorem Stands.flintStart (h : Stands s0 s) : Stands s0 s.flintStart := by
  unfold State.flintStart
  exact .ite (.setFlint (.update h)) (.setFlint h)

theorem scaleValid_fields : ∀ n < 76, (Fld.CAL_LANE_STAT_SCALE_VALID n).offController = true ∧
    (Fld.CAL_LANE_STAT_SCALE_VALID n).apart Fld.SYS_STATUS_LOCKED = true := by decide

theorem Stands.calScale (h : Stands s0 s) : Stands s0 s.calScale := by
  unfold State.calScale
  split
  · exact h
  · exact .foldl (.update h) fun u n hn hu =>
      .ite (.wrB hu (scaleValid_fields n (List.mem_range.1 hn)).1) hu

/-- A scale record that loads leaves the ledger and the lock. -/
theorem State.calScale_kept (s : State) : s.calScale.led = s.led ∧ s.calScale.locked = s.locked := by
  unfold State.calScale
  split
  · exact ⟨rfl, rfl⟩
  next r _ =>
    extract_lets _ _ t
    have ht : t.regsOnly ((List.range 76).foldl (fun s n => if s.lanePresent n then
        s.wrB (Fld.CAL_LANE_STAT_SCALE_VALID n) true else s) t) :=
      .foldl (.refl t) fun _ _ hu => .ite (.wr hu) hu
    refine ⟨ht.led, ?_⟩
    unfold State.locked State.flag
    refine congrArg (decide <| · ≠ 0) (State.rd_foldl fun u n hn => ?_)
    split
    · exact State.rd_wrB_apart _ _ (scaleValid_fields n (List.mem_range.1 hn)).2
    · rfl

theorem State.withQueue_rd (s : State) (q : List Txn) (g : Field) : (s.withQueue q).rd g = s.rd g := rfl

theorem State.withQueue_locked (s : State) (q : List Txn) : (s.withQueue q).locked = s.locked := by
  unfold State.locked State.flag
  rw [State.withQueue_rd]

theorem State.audBankEntry_eq (s : State) : ∃ q, s.audBankEntry = s.withQueue q := by
  unfold State.audBankEntry
  extract_lets
  split
  · exact ⟨s.led.queue, rfl⟩
  · split
    · exact ⟨s.led.queue, rfl⟩
    · exact ⟨_, rfl⟩

/-! ### The end of recovery -/

/-- The base and its journal are restored from the copies in use. -/
def State.replay (s : State) (x : Bool × BaseImage) : State :=
  ({ s with str := s.strFound s.headerFails } : State).restore x

/-- The state with the banks marked failed at earlier starts; those whose headers fail are to drop out yet. -/
def State.knownBanks (s : State) (l : List (Fin 16)) : State := { s with str := { s.str with failed := l } }

theorem State.recovery_some {x : Bool × BaseImage} (h : s.recoverable) (hb : s.baseFound s.headerFails = some x) :
    s.recovery [] = (((((s.replay x).knownBanks s.str.failed).refreshBanks.bankFails
      s.headerFails).flintStart).calScale).audBankEntry := by
  obtain ⟨hr, hp, hs⟩ := h
  simp [State.recovery, State.replay, State.knownBanks, hr, hp, hs, hb]

/-- With a base the ledger's area is alive. -/
theorem State.baseFound_alive {x : Bool × BaseImage} {fs : List BankFail} (hb : s.baseFound fs = some x) :
    areaDead (s.strFound fs) 0 = false := by
  unfold State.baseFound at hb
  dsimp only at hb
  split at hb
  · cases hb
  next h => exact Bool.eq_false_of_not_eq_true h

theorem State.regsOnly.alert (h : s.regsOnly t) {f b} : s.regsOnly (t.alert f b) := by
  unfold State.alert
  exact .wrB (.ite (.wr (.wrB h)) (.wrB h))

theorem State.refreshBanks_settled (s : State) : BanksSettled s s.refreshBanks ∧ s.refreshBanks.core = s.core ∧
    s.refreshBanks.str.failed = s.str.failed := by
  have hregs : s.regsOnly s.refreshBanks := by
    unfold State.refreshBanks
    extract_lets _ _ _ _ _ t3 t4
    have h3 : s.regsOnly t3 := .wr (.wr (.wr (.wr (.wr (.refl s)))))
    have h4 : s.regsOnly t4 := .ite (.alert h3) h3
    exact .ite (.alert h4) h4
  have hstands : Stands s s.refreshBanks := by
    unfold State.refreshBanks
    extract_lets _ _ _ _ _ t3 t4
    have h3 : Stands s t3 := .wr (.wr (.wr (.wr (.wr (.refl s)))))
    have h4 : Stands s t4 := .ite (.alert h3) h3
    exact .ite (.alert h4) h4
  exact ⟨.of_regs hregs hstands, by rw [hregs], by rw [hregs.str]⟩

/-- The banks whose headers fail drop out of the replayed ledger. -/
theorem State.replay_drops {x : Bool × BaseImage} (hr : s.core.running = true) (hb : s.baseFound s.headerFails = some x) :
    BanksSettled (s.replay x) (((s.replay x).knownBanks s.str.failed).refreshBanks.bankFails s.headerFails) ∧
    (((s.replay x).knownBanks s.str.failed).refreshBanks.bankFails s.headerFails).str.failed =
      (s.strFound s.headerFails).failed := by
  have hfound := s.strFound_eq fun f hf => (s.headerFails_spec f hf).2
  have hrest := State.restore_restored { s with str := s.strFound s.headerFails } x
  have hknown : BanksSettled (s.replay x) ((s.replay x).knownBanks s.str.failed) := ⟨rfl, rfl, rfl, rfl, rfl⟩
  obtain ⟨hbanks, hcore, hfail⟩ := ((s.replay x).knownBanks s.str.failed).refreshBanks_settled
  have hdrop : dropBanks ((s.replay x).knownBanks s.str.failed).refreshBanks.str.failed s.headerFails =
      (s.strFound s.headerFails).failed := by
    rw [hfail, hfound]
    rfl
  obtain ⟨hs, hf⟩ := State.bankFails_settled (s := ((s.replay x).knownBanks s.str.failed).refreshBanks)
    (by
      rw [hcore]
      exact (congrArg Core.running hrest.core).trans hr)
    s.headerFails_spec ((areaDead_congr hdrop 0).trans (State.baseFound_alive hb))
  exact ⟨(hknown.trans hbanks).trans hs, hf.trans hdrop⟩

/-- What a recovery that finds a base restores and shows (R234, R293). -/
theorem State.recovery_restores {x : Bool × BaseImage} (h : s.recoverable) (hb : s.baseFound s.headerFails = some x) :
    let acc := (s.strFound s.headerFails).accepted x.2
    (s.recovery []).led.recovered = true ∧ (s.recovery []).led.com = restoredImage (replayed x acc) ∧
      (s.recovery []).led.live = (s.recovery []).led.com ∧ (s.recovery []).str.journal = acc ∧
      (s.recovery []).str.tseq = lastSeq x.2 acc ∧
      (s.recovery []).rd Fld.STR_RECOVERY_RESULT = (s.strFound s.headerFails).recoveryResult x acc ∧
      (s.recovery []).locked = ((replayed x acc).st.lockFlag || s.bk.lock) := by
  intro acc
  have hrest : Restored { s with str := s.strFound s.headerFails } x (s.replay x) := State.restore_restored _ x
  obtain ⟨hv, hfail⟩ := State.replay_drops h.1 hb
  rw [State.recovery_some h hb]
  generalize ((s.replay x).knownBanks s.str.failed).refreshBanks.bankFails s.headerFails = v at hv hfail ⊢
  obtain ⟨hled, hlocked⟩ := v.flintStart.calScale_kept
  have hled' : v.flintStart.calScale.led = (s.replay x).led := hled.trans (v.flintStart_led.trans hv.led)
  have hk : Stands v v.flintStart.calScale := .calScale (.flintStart (.refl v))
  obtain ⟨hjournals, htseq, -⟩ := Prod.mk.inj hrest.part |>.imp_right Prod.mk.inj
  obtain ⟨q, hq⟩ := v.flintStart.calScale.audBankEntry_eq
  rw [hq]
  refine ⟨?_, ?_, ?_, ?_, ?_, ?_, ?_⟩
  · exact (congrArg LedWork.recovered hled').trans hrest.recovered
  · exact (congrArg LedWork.com hled').trans hrest.com
  · exact (congrArg LedWork.live hled').trans (hrest.live.trans (congrArg LedWork.com hled').symm)
  · calc v.flintStart.calScale.str.journal
      _ = v.str.journal := congrArg Strata.journal hk.str
      _ = ((s.strFound s.headerFails).recovered x acc).journal :=
        Strata.journal_congr (hv.journals.trans hjournals) hfail
      _ = acc := Strata.recovered_journal (State.baseFound_alive hb) x acc
  · exact (congrArg Strata.tseq hk.str).trans (hv.tseq.trans htseq)
  · rw [State.withQueue_rd, hk.rd _ (by decide), hv.result, hrest.result]
  · have hcom : v.led.com = restoredImage (replayed x acc) := (congrArg LedWork.com hv.led).trans hrest.com
    have hlock : v.bk.lock = s.bk.lock := congrArg Bedrock.lock (hv.lock.trans hrest.lock)
    obtain ⟨-, -, -, hflag⟩ := restoredImage_keeps (replayed x acc)
    rw [State.withQueue_locked, hlocked, State.flintStart_locked, hcom, hlock, hflag]

/-- Settles O17: with a base the ledger is restored and the lock of either record taken, without one the device freezes. -/
theorem recoveryReplays : Obligations.RecoveryReplays := by
  unfold Obligations.RecoveryReplays
  intro s hr hp hs
  have hexec : exec (.recoveryComplete []) s = .next (s.recovery []) := rfl
  refine ⟨fun x hb => ?_, fun hb => ⟨_, hexec, State.recovery_freezes ⟨hr, hp, hs⟩ hb⟩⟩
  obtain ⟨hrec, hcom, hlive, hjournal, htseq, hresult, hlocked⟩ := State.recovery_restores ⟨hr, hp, hs⟩ hb
  obtain ⟨hslots, hact, hpsv, -⟩ := restoredImage_keeps (replayed x ((s.strFound s.headerFails).accepted x.2))
  rw [← hcom] at hslots hact hpsv
  exact ⟨_, hexec, hrec, hslots, hact, hpsv, hlive, hjournal, htseq, hresult, by rw [hlocked, Bool.or_eq_true]; rfl⟩

end Sys2Proof.Machine
end

section
/-!
The clocks of the event intake (R241, R244, R249) and the start scan of the Quality Recorder (R245, R252): what the events
that are offered to a recorder that works leave of its queue and of some fields, and the ring as the scan leaves its copies.
-/

namespace Sys2Proof.Machine
variable {s0 s t : State}

/-! ### Replacing the recorder's state -/

@[simp] theorem State.setRcd_rcd (s : State) (r : Recorder) : (s.setRcd r).rcd = r := rfl

theorem State.keepsWords.setRcd {l : List Nat} (h : s.keepsWords t l) {r : Recorder}
    (hl : Adr.REC_STATUS ∈ l := by decide) : s.keepsWords (t.setRcd r) l := by
  unfold State.setRcd
  exact .wr (h.sameRegs rfl) rfl hl

/-- A field apart from REC_STATUS.QUEUE. -/
theorem State.rd_setRcd_apart (s : State) (r : Recorder) {g : Field}
    (hg : Fld.REC_STATUS_QUEUE.apart g = true := by decide) : (s.setRcd r).rd g = s.rd g := State.rd_wr_apart _ _ hg

/-! ### What offered events leave -/

/-- Fields of the recorder and of Bedrock that no event reaches while the recorder is not dead. -/
def recorderFields : List Field := [Fld.REC_STATUS_MODE, Fld.REC_STATUS_READY, Fld.BK_LR_STAT_OCCUPIED]

/-- A field that shares no bit with one of them. -/
def Field.offRecorder (f : Field) : Bool := recorderFields.all f.apart

/-- The recorder is not dead, the events that waited wait in front, the scan is where it was, and the fields above are as
before. -/
structure IntakeGrows (s t : State) : Prop where
  alive : t.recDead = false
  queue : s.rcd.queue <+: t.rcd.queue
  scanned : t.rcd.scanned = s.rcd.scanned
  rd : ∀ g ∈ recorderFields, t.rd g = s.rd g

theorem IntakeGrows.refl (h : s.recDead = false) : IntakeGrows s s := ⟨h, List.prefix_refl _, rfl, fun _ _ => rfl⟩

theorem IntakeGrows.flag (h : IntakeGrows s t) {g : Field} (hg : g ∈ recorderFields := by decide) :
    t.flag g = s.flag g := by
  rw [State.flag, h.rd g hg, State.flag]

/-- A state of the same registers and the same queue. -/
theorem IntakeGrows.update (h : IntakeGrows s0 s) (hr : t.regs = s.regs := by rfl)
    (hq : t.rcd.queue = s.rcd.queue := by rfl) (hs : t.rcd.scanned = s.rcd.scanned := by rfl) : IntakeGrows s0 t where
  alive := by rw [State.recDead, State.rd_of_regs hr]; exact h.alive
  queue := hq ▸ h.queue
  scanned := hs.trans h.scanned
  rd g hg := (State.rd_of_regs hr g).trans (h.rd g hg)

theorem IntakeGrows.ite {c : Prop} [Decidable c] (hs : IntakeGrows s0 s) (ht : IntakeGrows s0 t) :
    IntakeGrows s0 (if c then s else t) := by
  split <;> assumption

theorem IntakeGrows.foldl {α : Type} {f : State → α → State} {l : List α} (h : IntakeGrows s0 s)
    (hf : ∀ u, ∀ x ∈ l, IntakeGrows s0 u → IntakeGrows s0 (f u x)) : IntakeGrows s0 (l.foldl f s) := by
  induction l generalizing s with
  | nil => exact h
  | cons x l ih => exact ih (hf _ x (by simp) h) fun u y hy => hf u y (by simp [hy])

theorem IntakeGrows.wr (h : IntakeGrows s0 s) {f : Field} {v} (hf : f.offRecorder = true := by decide) :
    IntakeGrows s0 (s.wr f v) := by
  have hrd : ∀ g ∈ recorderFields, (s.wr f v).rd g = s.rd g := fun g hg => s.rd_wr_apart v (List.all_eq_true.1 hf g hg)
  refine ⟨?_, h.queue, h.scanned, fun g hg => (hrd g hg).trans (h.rd g hg)⟩
  rw [State.recDead, hrd _ (by decide)]
  exact h.alive

theorem IntakeGrows.wrB (h : IntakeGrows s0 s) {f : Field} {b} (hf : f.offRecorder = true := by decide) :
    IntakeGrows s0 (s.wrB f b) := h.wr hf

theorem IntakeGrows.count (h : IntakeGrows s0 s) {f : Field} {n} (hf : f.offRecorder = true := by decide) :
    IntakeGrows s0 (s.count f n) := h.wr hf

theorem IntakeGrows.setRcd (h : IntakeGrows s0 s) {r : Recorder} (hq : s.rcd.queue <+: r.queue)
    (hs : r.scanned = s.rcd.scanned := by rfl) : IntakeGrows s0 (s.setRcd r) := by
  have hu : IntakeGrows s0 { s with rcd := r } :=
    ⟨h.alive, h.queue.trans hq, hs.trans h.scanned, h.rd⟩
  exact hu.wr (f := Fld.REC_STATUS_QUEUE)

theorem IntakeGrows.suppress (h : IntakeGrows s0 s) {code} : IntakeGrows s0 (s.suppress code) := by
  unfold State.suppress
  exact .setRcd h (List.prefix_refl _)

/-- An event joins the queue at its end, or is counted (R241). -/
theorem IntakeGrows.raise (h : IntakeGrows s0 s) {code source payload} : IntakeGrows s0 (s.raise code source payload) := by
  have hd : ¬s.recDead = true := by simp [h.alive]
  unfold State.raise
  rw [if_neg hd]
  have hcounted {f : Field} (hf : f.offRecorder = true) : IntakeGrows s0 ((s.suppress code).count f) := .count (.suppress h) hf
  exact .ite h (.ite h.update (.ite (hcounted (by decide)) (.ite (.setRcd h (List.prefix_append ..)) (hcounted (by decide)))))

theorem IntakeGrows.raiseTogether (h : IntakeGrows s0 s) {es} : IntakeGrows s0 (s.raiseTogether es) := by
  unfold State.raiseTogether
  exact .foldl h fun _ _ _ hu => .raise hu

theorem IntakeGrows.sameCycle (h : IntakeGrows s0 s) {f : State → State}
    (hf : ∀ u, IntakeGrows s0 u → IntakeGrows s0 (f u)) : IntakeGrows s0 (s.sameCycle f) := by
  have hg : IntakeGrows s0 (f { s with rcd := { s.rcd with gather := some [] } }) := hf _ h.update
  exact .ite (hf s h) (.raiseTogether hg.update)

theorem IntakeGrows.batAlarms (h : IntakeGrows s0 s) : IntakeGrows s0 s.batAlarms := by
  unfold State.batAlarms
  exact .ite (.raise (.wrB (.ite (.raise (.wrB h)) h))) (.ite (.raise (.wrB h)) h)

/-! ### The start scan (R245, R252) -/

theorem Spares.refreshRecs (h : Spares s0 s) : Spares s0 s.refreshRecs := by
  unfold State.refreshRecs
  extract_lets t
  have ht : Spares s0 t := .wr h
  split
  · exact .wr ht
  · exact .drawn (.wr ht)

theorem State.rd_refreshRecs (s : State) {g : Field} (hn : Fld.REC_NEWEST_RSEQ.apart g = true := by decide)
    (ho : Fld.REC_OLDEST_RSEQ.apart g = true := by decide) : s.refreshRecs.rd g = s.rd g := by
  unfold State.refreshRecs
  dsimp only
  split
  · rw [State.rd_wr_apart _ _ ho, State.rd_wr_apart _ _ hn]
  · rw [State.drawn_rd, State.rd_wr_apart _ _ ho, State.rd_wr_apart _ _ hn]

@[simp] theorem State.refreshRecs_rcd (s : State) : s.refreshRecs.rcd = s.rcd := by
  unfold State.refreshRecs
  dsimp only
  split <;> rfl

theorem Spares.batAlarms (h : Spares s0 s) : Spares s0 s.batAlarms := by
  unfold State.batAlarms
  exact .ite (.raise (.wrB (.ite (.raise (.wrB h)) h))) (.ite (.raise (.wrB h)) h)

/-- An exempt event goes ahead of the queue where there is room (R243). -/
theorem State.raiseFront_room (hc : s.rcd.closed = false) (hr : s.core.running = true) (hd : s.recDead = false)
    (hq : s.rcd.queue.length < 64) (code source : Nat) (payload : List Byte) :
    (s.raiseFront code source payload).recDead = false ∧
      (s.raiseFront code source payload).rcd.queue = s.stamp code source payload :: s.rcd.queue ∧
      (s.raiseFront code source payload).rcd.scanned = s.rcd.scanned ∧
      (s.raiseFront code source payload).flag Fld.REC_STATUS_READY = s.flag Fld.REC_STATUS_READY := by
  have hnone : s.rcd.queue[63]? = none := List.getElem?_eq_none (by omega)
  have e : s.raiseFront code source payload =
      s.setRcd { s.rcd with queue := s.stamp code source payload :: s.rcd.queue } := by
    simp [State.raiseFront, hc, hr, hd, hnone]
  rw [e]
  refine ⟨?_, rfl, rfl, ?_⟩
  · rw [State.recDead, State.rd_setRcd_apart]
    exact hd
  · rw [State.flag, State.rd_setRcd_apart, State.flag]

/-- The record ring with the same records in every copy in use. -/
def Strata.putRecs (st : Strata) (rs : List (Nat × Record)) : Strata := st.each 3 fun c => { c with recs := rs }

/-- The records put in every copy in use are those a read finds (R252). -/
theorem Strata.putRecs_recs (st : Strata) (rs : List (Nat × Record)) (h : areaDead st 3 = false) :
    (st.putRecs rs).recs = rs := by
  have hside : ((st.putRecs rs).side 3).recs = rs := by rw [Strata.putRecs, Strata.side_each _ _ _ h]
  have hfail (k : Nat) : copyFailed (st.putRecs rs) 3 k = copyFailed st 3 k := rfl
  unfold Strata.recs Strata.items
  dsimp only
  rw [hside, hfail, hfail]
  split
  · rfl
  next hboth =>
    obtain ⟨-, h1⟩ : copyFailed st 3 0 = false ∧ copyFailed st 3 1 = false := by simpa using hboth
    have hcopy : (st.putRecs rs).copy1.recs = rs := by simp [Strata.putRecs, Strata.each, h1]
    have hnil : rs.filter (fun x => (rs.lookup x.1).isNone) = [] := List.filter_eq_nil_iff.2 fun x hx hl => by
      simpa using List.lookup_eq_none_iff.1 (Option.isNone_iff_eq_none.1 hl) x hx
    rw [hcopy, hnil, List.append_nil]

/-- The scan writes back what it reads, so that it reads the same afterwards (R252). -/
theorem Strata.putRecs_self (st : Strata) : (st.putRecs st.recs).recs = st.recs := by
  by_cases h : areaDead st 3 = true
  · obtain ⟨h0, h1⟩ := Bool.and_eq_true_iff.1 h
    simp [Strata.putRecs, Strata.each, h0, h1]
  · exact st.putRecs_recs _ (Bool.not_eq_true _ ▸ h)

/-- The registers after the scan: READY, and the newest and the oldest record. -/
def State.scanShown (s : State) (r : Recorder) : State :=
  ((({ s with str := s.str.putRecs s.str.recs } : State).setRcd r).wrB Fld.REC_STATUS_READY true).refreshRecs

/-- What a start itself raises, behind POWER_UP: the cause of the reset, BKP_LOST, the alarms missed without power. -/
def State.startEvents (s : State) : State :=
  let s := s.raise 0xD3 0xFF (beBytes 1 (s.rd Fld.CFG_RESET_CAUSE))
  let s := if s.bk.bkpLostDue && s.flag Fld.BK_STATUS_BKP_LOST then
      ({ s with bk := { s.bk with bkpLostDue := false } }).raise evBkpLost 0xFF []
    else s
  s.batAlarms

theorem IntakeGrows.startEvents (h : IntakeGrows s0 s) : IntakeGrows s0 s.startEvents := by
  unfold State.startEvents
  exact .batAlarms (.ite (.raise (.update (.raise h))) (.raise h))

theorem Spares.startEvents (h : Spares s0 s) : Spares s0 s.startEvents := by
  unfold State.startEvents
  exact .batAlarms (.ite (.raise (.update (.raise h))) (.raise h))

theorem State.scanDone_eq (hn : s.rcd.scanned = false) (hr : s.core.running = true) (hl : s.led.recovered = true) :
    ∃ r l, s.scanDone = ((s.scanShown r).raiseFront evPowerUp 0xFF l).sameCycle State.startEvents ∧
      r.scanned = true ∧ r.queue = s.rcd.queue ∧ r.closed = s.rcd.closed := by
  unfold State.scanDone
  rw [if_neg (by simp [hn, hr, hl])]
  exact ⟨_, _, rfl, rfl, rfl, rfl⟩

/-- The scan's registers: the recorder works, and is ready. -/
theorem State.scanShown_ready (hd : s.recDead = false) (r : Recorder) : (s.scanShown r).rcd = r ∧
    (s.scanShown r).recDead = false ∧ (s.scanShown r).flag Fld.REC_STATUS_READY = true := by
  unfold State.scanShown
  refine ⟨State.refreshRecs_rcd _, ?_, ?_⟩
  · rw [State.recDead, State.rd_refreshRecs, State.rd_wrB_apart _ _ (by decide), State.rd_setRcd_apart]
    exact hd
  · rw [State.flag, State.rd_refreshRecs]
    exact State.flag_wrB_same _ _ _ rfl

theorem State.scanShown_spares (s : State) (r : Recorder) :
    Spares { s with str := s.str.putRecs s.str.recs } (s.scanShown r) := by
  unfold State.scanShown
  exact .refreshRecs (.wrB (.setRcd (.refl _)))

/-- The scan ends with POWER_UP at the head of the queue; what the start raises after it joins the queue behind. -/
theorem State.scanDone_powerUp (hn : s.rcd.scanned = false) (hr : s.core.running = true) (hl : s.led.recovered = true)
    (hc : s.rcd.closed = false) (hd : s.recDead = false) (hq : s.rcd.queue.length < 64) :
    s.scanDone.rcd.scanned = true ∧ s.scanDone.flag Fld.REC_STATUS_READY = true ∧
      s.scanDone.rcd.queue.head?.map (·.code) = some evPowerUp ∧ s.scanDone.str = s.str.putRecs s.str.recs ∧
      s.scanDone.led = s.led := by
  obtain ⟨r, l, e, hscan, hqueue, hclosed⟩ := State.scanDone_eq hn hr hl
  obtain ⟨hrcd, hdead, hready⟩ := State.scanShown_ready hd r
  have hs := s.scanShown_spares r
  obtain ⟨hdead', hqueue', hscan', hready'⟩ := State.raiseFront_room (s := s.scanShown r) (by rw [hrcd, hclosed, hc])
    (by rw [hs.core, hr]) hdead (by rw [hrcd, hqueue]; exact hq) evPowerUp 0xFF l
  have hev : Spares { s with str := s.str.putRecs s.str.recs } s.scanDone := by
    rw [e]
    exact .sameCycle (.raiseFront hs) fun _ hu => .startEvents hu
  have hgrow : IntakeGrows ((s.scanShown r).raiseFront evPowerUp 0xFF l) s.scanDone := by
    rw [e]
    exact .sameCycle (.refl hdead') fun _ hu => .startEvents hu
  refine ⟨?_, hgrow.flag.trans (hready'.trans hready), ?_, hev.str, hev.led⟩
  · rw [hgrow.scanned, hscan', hrcd, hscan]
  · obtain ⟨later, hlater⟩ := hgrow.queue
    rw [← hlater, hqueue']
    rfl

/-! ### The clocks of the intake (R241, R244, R249) -/

/-- At a multiple of PERIOD the values of the period become records. -/
theorem State.periodEnd_due (h : s.opsec % s.recPeriod = 0) (hs : s.opsec ≠ s.rcd.periodStart) : ∃ rs, s.periodEnd =
    s.setRcd { s.rcd with
      periodic := s.rcd.periodic ++ rs, bays := [], periodStart := s.opsec, shortPeriod := false } := by
  unfold State.periodEnd
  rw [if_neg (by simp [h, hs])]
  exact ⟨_, rfl⟩

theorem State.periodEnd_within (h : s.opsec % s.recPeriod ≠ 0) : s.periodEnd = s := if_pos (by simp [h])

theorem State.suppTimeout_due {x : Nat × Nat} (h : s.rcd.suppFirst = some x) :
    s.suppTimeout = (s.until (x.2 + 60000)).setRcd { s.rcd with dueByTime := true } := by
  simp [State.suppTimeout, h]

/-- Settles O25: each clock as the update it makes, the scan by `State.scanDone_powerUp`. -/
theorem recorderTimers : Obligations.RecorderTimers := by
  unfold Obligations.RecorderTimers
  refine ⟨⟨fun s code => ⟨s.refill code.toNat, rfl, ?refill⟩, fun s x h => ⟨s.suppTimeout, rfl, ?supp⟩,
    fun s h hs => ⟨s.periodEnd, rfl, ?period⟩, fun s h => congrArg Host.Outcome.next (State.periodEnd_within h)⟩,
    fun s hn hr hl hc hd hq => ⟨s.scanDone, rfl, ?scan⟩⟩
  case refill =>
    exact ⟨storeGet_storeSet_same, fun k hk => storeGet_storeSet_other hk, rfl, rfl, .setRcd (.of_regs rfl)⟩
  case supp =>
    rw [State.suppTimeout_due h]
    exact ⟨rfl, rfl, .setRcd (.of_regs rfl)⟩
  case period =>
    obtain ⟨rs, e⟩ := State.periodEnd_due h hs
    rw [e]
    exact ⟨List.prefix_append .., rfl, rfl, rfl, rfl, rfl⟩
  case scan =>
    obtain ⟨hscan, hready, hhead, hstr, hled⟩ := State.scanDone_powerUp hn hr hl hc hd (hq.trans (by decide))
    exact ⟨hscan, hready, hhead, hstr ▸ s.str.putRecs_self, hstr, hled⟩

end Sys2Proof.Machine
end

section
/-!
The freeze of the Quality Recorder (R255), and a clear (R258): what its transaction leaves of the recorder and of Bedrock's
last-resort slots.
-/

namespace Sys2Proof.Machine
variable {s0 s t : State} {p : Path}

/-! ### The freeze (R255) -/

theorem exec_freeze (hr : s.core.running = true) : exec (.freeze p) s = .next s.recFreeze :=
  congrArg Host.Outcome.next (State.host_of_running hr)

theorem exec_release (hr : s.core.running = true) : exec (.release p) s = .next s.recRelease :=
  congrArg Host.Outcome.next (State.host_of_running hr)

/-- Every cause of a refusal is away: the freeze begins. -/
theorem State.recFreeze_begin (hm : s.flag Fld.REC_CFG_READ_MODE = true) (hs : s.rcd.freezeStart = none)
    (he : s.rcd.freezeEnd = none) (hq : s.rcd.emptySince = true) (hd : s.recDead = false) : s.recFreeze =
      ((s.setRcd { s.rcd with freezeStart := some s.now }).wrB Fld.REC_STATUS_FROZEN true).rdResult 1 := by
  simp [State.recFreeze, hm, hs, he, hq, hd]

/-- A freeze that ends marks the events it held back (R255). -/
theorem State.endFreeze_frozen {b : Nat} (h : s.rcd.freezeStart = some b) : ∃ r : Recorder,
    s.endFreeze = ((s.setRcd r).wrB Fld.REC_STATUS_FROZEN false).wr Fld.REC_RD_FROZEN_S 0 ∧ r.freezeStart = none ∧
      r.freezeEnd = some s.now ∧ r.queue = s.rcd.queue.map fun e => { e with held := true } := by
  unfold State.endFreeze
  rw [h]
  exact ⟨_, rfl, rfl, rfl, rfl⟩

theorem State.endFreeze_thaws {b : Nat} (h : s.rcd.freezeStart = some b) : s.endFreeze.rcd.freezeStart = none ∧
    s.endFreeze.rcd.freezeEnd = some s.now ∧ s.endFreeze.now = s.now ∧
    s.endFreeze.flag Fld.REC_STATUS_FROZEN = false ∧ s.endFreeze.rcd.queue.all (·.held) = true ∧
    s.endFreeze.rcd.queue.length = s.rcd.queue.length := by
  obtain ⟨r, e, hstart, hend, hqueue⟩ := State.endFreeze_frozen h
  rw [e]
  refine ⟨hstart, hend, rfl, ?_, ?_, ?_⟩
  · rw [State.flag_wr_apart (by decide)]
    exact State.flag_wrB_same _ _ _ rfl
  · rw [State.wr_rcd, State.wrB_rcd, State.setRcd_rcd, hqueue]
    simp
  · rw [State.wr_rcd, State.wrB_rcd, State.setRcd_rcd, hqueue, List.length_map]

theorem State.recRelease_frozen {b : Nat} (h : s.rcd.freezeStart = some b) : s.recRelease = s.endFreeze.rdResult 1 := by
  simp [State.recRelease, h]

theorem State.freezeTimeout_frozen {b : Nat} (h : s.rcd.freezeStart = some b) :
    s.freezeTimeout = (s.until (b + 10000)).endFreeze := by
  simp [State.freezeTimeout, h]

/-! ### What a command's transaction leaves of the recorder -/

theorem IntakeGrows.trans {u : State} (h : IntakeGrows s t) (k : IntakeGrows t u) : IntakeGrows s u :=
  ⟨k.alive, h.queue.trans k.queue, k.scanned.trans h.scanned, fun g hg => (k.rd g hg).trans (h.rd g hg)⟩

theorem IntakeGrows.wrS (h : IntakeGrows s0 s) {f : Field} {v} (hf : f.offRecorder = true := by decide) :
    IntakeGrows s0 (s.wrS f v) := h.wr hf

theorem IntakeGrows.wrAt (h : IntakeGrows s0 s) {F : Nat → Field} {n k v : Nat} (hk : k < n)
    (hF : ∀ i < n, (F i).offRecorder = true := by decide) : IntakeGrows s0 (s.wr (F k) v) := h.wr (hF k hk)

theorem IntakeGrows.refreshTariff (h : IntakeGrows s0 s) : IntakeGrows s0 s.refreshTariff := by
  unfold State.refreshTariff
  extract_lets _ _ _ _ t
  have ht : IntakeGrows s0 t := .wrB (.wrB (.wr (.wr h)))
  split
  · exact ht
  · exact .wrS (.wr (.wr (.wr (.wrB (.wrB ht)))))

theorem IntakeGrows.setTimeSrc (h : IntakeGrows s0 s) {v} : IntakeGrows s0 (s.setTimeSrc v) := by
  unfold State.setTimeSrc
  exact .ite (.wr h) (.wrB (.wr h))

theorem IntakeGrows.refresh (h : IntakeGrows s0 s) : IntakeGrows s0 s.refresh := by
  unfold State.refresh
  exact .refreshTariff (.setTimeSrc (.foldl (.wr (.wr (.wr (.wr (.wr (.wr (.wr (.wr (.wr (.wr (.wr (.wr (.wr (.wr (.wrS
    (.wrB (.wr (.wr h)))))))))))))))))) fun _ _ hk hu => .wrAt hu (List.mem_range.1 hk)))

/-- The registers that follow a commit are not those of the recorder and of the slots. -/
theorem IntakeGrows.showLive (h : IntakeGrows s0 s) : IntakeGrows s0 s.showLive := by
  have hl : IntakeGrows s0 { s with led := { s.led with live := s.led.com } } := h.update
  exact hl.refresh.update

theorem IntakeGrows.maybeCompact (h : IntakeGrows s0 s) : IntakeGrows s0 s.maybeCompact := by
  unfold State.maybeCompact
  exact .ite (.wrB (.update h)) h

theorem IntakeGrows.commitTxn (h : IntakeGrows s0 s) {us x} : IntakeGrows s0 (s.commitTxn us x) := by
  unfold State.commitTxn State.refreshJournal
  exact .maybeCompact (.wr (.wr (.wrB (.wr (.wr (.wr (.update h)))))))

theorem IntakeGrows.copyDone (h : IntakeGrows s0 s) : IntakeGrows s0 s.copyDone := by
  unfold State.copyDone
  split
  · exact h
  next c cs _ =>
    have hu : IntakeGrows s0 { s with str := copyHome s.fuses.uid s.str c.entry, led := { s.led with copies := cs } } :=
      h.update
    exact .maybeCompact (.wr (.wr (.wrB (.ite (.count hu) hu))))

theorem IntakeGrows.snapDone (h : IntakeGrows s0 s) : IntakeGrows s0 s.snapDone := by
  unfold State.snapDone
  generalize s.led.copies.length = n
  induction n generalizing s with
  | zero => exact h
  | succ n ih => exact ih (.ite (.copyDone h) h)

/-- The fields of a bank that fails are the recorder's only for a bank of the recorder. -/
theorem IntakeGrows.markBank (h : IntakeGrows s0 s) {f : BankFail} (ha : (areaOf f.bank.val).1 = 0) :
    IntakeGrows s0 (s.markBank f) := by
  unfold State.markBank
  extract_lets _ _ a t2 _ t3 _ _ t6
  have h3 : IntakeGrows s0 t3 := .wr (.wr (.wr (.update h)))
  have h6 : IntakeGrows s0 t6 := .wr (.wr (.ite (.count h3) h3))
  have h0 : ¬a = 3 := fun h => absurd (ha.symm.trans h) (by decide)
  rw [if_neg h0]
  exact .ite (.wr h6) h6

/-- A failure of one bank of the ledger's area while both work is marked and raised (R237). -/
theorem IntakeGrows.bankFail (hd : s.recDead = false) (h : s.twoCopies) (i : Fin 2) (c : BitVec 4) :
    IntakeGrows s (s.bankFail { bank := Fin.ofNat 16 i.val, cause := c }) := by
  have ha : (areaOf (Fin.ofNat 16 i.val).val).1 = 0 := by revert i; decide
  by_cases hf : Fin.ofNat 16 i.val ∈ s.str.failed
  · rw [State.bankFail, if_pos hf]
    exact .refl hd
  by_cases hc : c = 0
  · rw [State.bankFail, if_neg hf, if_pos hc]
    exact .count (.count (.refl hd))
  · rw [State.bankFail_of_alive ha hf hc (s.markBank_alive h i c)]
    exact .raise (.markBank (.refl hd) ha)

theorem IntakeGrows.meetFault (h : IntakeGrows s0 s) (h2 : s.twoCopies) : IntakeGrows s0 s.meetFault := by
  unfold State.meetFault
  split
  · exact h
  · exact h.trans (.bankFail h.alive h2 _ _)

theorem IntakeGrows.command (hd : s.recDead = false) (h : s.canCommit) (kind : Nat) (f : Build → Build) :
    IntakeGrows s (s.command kind f).2 := by
  obtain ⟨-, ⟨h0, h1⟩, -, hq⟩ := h
  obtain ⟨-, hf⟩ := s.snapDone_kept
  have h2 : s.snapDone.twoCopies := ⟨(copyFailed_congr hf 0 0).trans h0, (copyFailed_congr hf 0 1).trans h1⟩
  have hdrain : s.drain = s := by simp [State.drain, hq]
  have hu : IntakeGrows s s.snapDone.meetFault := .meetFault (.snapDone (.refl hd)) h2
  unfold State.command
  rw [hdrain]
  split
  · exact .refl hd
  extract_lets w _
  split
  · exact .update hu
  · exact .update (.showLive (.commitTxn hu))

/-! ### The clear (R258) -/

/-- A clear the gate lets pass, while none is in progress and neither log is dead. -/
theorem State.wRecCmd_pass {a : Armed} {v : Word} {slots : Bool} (hv : bitsOf v.toNat 28 4 = if slots then 2 else 1)
    (hg : s.gateDual p 0x0050 [] = .pass a) (hd : s.recDead = false) (ha : areaDead s.str 4 = false)
    (hn : s.rcd.clear = none) : (s.wRecCmd p v).2 = (s.disarm p 0x0050).recClear a slots := by
  cases slots <;> simp [State.wRecCmd, hv, hg, hd, ha, hn]

/-- An accepted clear: its transaction commits with the newest RSEQ, then the clear is due and the slots are freed. -/
theorem State.recClear_commits (hc : s.canCommit) (hd : s.recDead = false) (hw : s.rcd.writing = none)
    (hf : s.rcd.freezeStart = none) (a : Armed) (slots : Bool) : ∃ t r, IntakeGrows s t ∧
      t.led.com.st.recThrough = s.rcd.newest ∧ t.led.com.st.aseq = s.led.com.st.aseq + 1 ∧
      r.clear = some { through := s.rcd.newest, slots } ∧ s.recClear a slots =
        (if slots then (t.setRcd r).freeSlots else t.setRcd r).refreshRecs.wr Fld.REC_CMD_RESULT 1 := by
  have hs : s.recEnd.endFreeze = s := by simp [State.recEnd, State.endFreeze, hw, hf]
  obtain ⟨st, t, hcmd, hcom, haseq, -⟩ := s.command_audit_state hc 0x06 0x0B a.roles a.keys
    (fun _ => beBytes 4 s.rcd.newest.toNat ++ beBytes 1 (if slots then 1 else 0))
    fun st => { st with recThrough := s.rcd.newest, recCleared := some slots }
  have hg := IntakeGrows.command hd hc 0x06 fun b =>
    (b.audit 0x0B a.roles a.keys (beBytes 4 s.rcd.newest.toNat ++ beBytes 1 (if slots then 1 else 0))).st fun st =>
      { st with recThrough := s.rcd.newest, recCleared := some slots }
  rw [hcmd] at hg
  refine ⟨t, { t.rcd with
    clear := some { through := s.rcd.newest, slots }, bays := [], periodStart := t.opsec, shortPeriod := true },
    hg, by rw [hcom], by rw [hcom]; exact haseq, rfl, ?_⟩
  unfold State.recClear
  dsimp only
  rw [hs, hcmd]

/-- The slots are freed in registers alone. -/
theorem State.freeSlots_regsOnly (s : State) : s.regsOnly s.freeSlots := by
  unfold State.freeSlots
  exact .wr (.wr (.foldl (.refl s) fun _ _ h => .setWord h))

theorem State.freeSlots_occupied (s : State) : s.freeSlots.rd Fld.BK_LR_STAT_OCCUPIED = 0 := by
  unfold State.freeSlots
  rw [State.rd_wr_apart _ _ (by decide)]
  exact State.rd_wr_same ..

theorem State.regsOnly.rcd (h : s.regsOnly t) : t.rcd = s.rcd := by rw [h]

/-- CLEAR keeps the last-resort slots. -/
theorem State.recClear_keeps_slots (hc : s.canCommit) (hd : s.recDead = false) (hw : s.rcd.writing = none)
    (hf : s.rcd.freezeStart = none) (a : Armed) : (s.recClear a false).rd Fld.REC_CMD_RESULT = 1 ∧
      (s.recClear a false).rcd.clear = some { through := s.rcd.newest, slots := false } ∧
      (s.recClear a false).led.com.st.recThrough = s.rcd.newest ∧
      (s.recClear a false).led.com.st.aseq = s.led.com.st.aseq + 1 ∧
      (s.recClear a false).rd Fld.BK_LR_STAT_OCCUPIED = s.rd Fld.BK_LR_STAT_OCCUPIED := by
  obtain ⟨t, r, hg, hthrough, haseq, hclear, e⟩ := State.recClear_commits hc hd hw hf a false
  have hled : (t.setRcd r).refreshRecs.led = t.led := (Spares.refl t).setRcd.refreshRecs.led
  rw [e, if_neg Bool.false_ne_true]
  refine ⟨State.rd_wr_same .., ?_, ?_, ?_, ?_⟩
  · rw [State.wr_rcd, State.refreshRecs_rcd]
    exact hclear
  · rw [State.wr_led, hled, hthrough]
  · rw [State.wr_led, hled, haseq]
  · rw [State.rd_wr_apart _ _ (by decide), State.rd_refreshRecs, State.rd_setRcd_apart]
    exact hg.rd _ (by decide)

/-- CLEAR_SLOTS frees them. -/
theorem State.recClear_frees_slots (hc : s.canCommit) (hd : s.recDead = false) (hw : s.rcd.writing = none)
    (hf : s.rcd.freezeStart = none) (a : Armed) : (s.recClear a true).rd Fld.REC_CMD_RESULT = 1 ∧
      (s.recClear a true).rd Fld.BK_LR_STAT_OCCUPIED = 0 ∧
      (s.recClear a true).rcd.clear = some { through := s.rcd.newest, slots := true } := by
  obtain ⟨t, r, -, -, -, hclear, e⟩ := State.recClear_commits hc hd hw hf a true
  rw [e, if_pos rfl]
  refine ⟨State.rd_wr_same .., ?_, ?_⟩
  · rw [State.rd_wr_apart _ _ (by decide), State.rd_refreshRecs]
    exact State.freeSlots_occupied _
  · rw [State.wr_rcd, State.refreshRecs_rcd, (State.freeSlots_regsOnly _).rcd]
    exact hclear

/-- Settles O26: the freeze and its ends as the updates they are, the clears by `State.recClear_commits`. -/
theorem recorderFreezeAndClear : Obligations.RecorderFreezeAndClear := by
  unfold Obligations.RecorderFreezeAndClear
  refine ⟨fun s p hr => ⟨fun hm hs he hq hd => ⟨_, exec_freeze hr, ?freeze⟩,
    fun b hb => ⟨⟨_, exec_release hr, ?release⟩, s.freezeTimeout, rfl, ?timeout⟩⟩,
    fun s p a hr hg hd ha hn hw hf hc => ?clear⟩
  case freeze =>
    rw [State.recFreeze_begin hm hs he hq hd]
    refine ⟨rfl, ?_, State.rd_wr_same .., .wr (.wrB (.setRcd (.of_regs rfl)))⟩
    exact (State.flag_wr_apart (by decide)).trans (State.flag_wrB_same _ _ _ rfl)
  case release =>
    obtain ⟨hstart, hend, -, hflag, hheld, hlength⟩ := State.endFreeze_thaws hb
    rw [State.recRelease_frozen hb]
    exact ⟨hstart, hend, (State.flag_wr_apart (by decide)).trans hflag, State.rd_wr_same .., hheld, hlength⟩
  case timeout =>
    obtain ⟨hstart, -, hnow, hflag, hheld, -⟩ := State.endFreeze_thaws (s := s.until (b + 10000)) hb
    rw [State.freezeTimeout_frozen hb]
    exact ⟨hstart, hnow, hflag, hheld⟩
  case clear =>
    have hregs := s.disarm_regs p 0x0050
    have hrcd : (s.disarm p 0x0050).rcd = s.rcd := by simp [State.disarm]
    have hled : (s.disarm p 0x0050).led = s.led := by simp [State.disarm]
    have hd' : (s.disarm p 0x0050).recDead = false := by
      rw [State.recDead, State.rd_of_regs hregs]
      exact hd
    have hkeeps := State.recClear_keeps_slots (hc.disarm _) hd' (by rw [hrcd, hw]) (by rw [hrcd, hf]) a
    have hfrees := State.recClear_frees_slots (hc.disarm _) hd' (by rw [hrcd, hw]) (by rw [hrcd, hf]) a
    rw [hrcd, hled, State.rd_of_regs hregs] at hkeeps
    rw [hrcd] at hfrees
    have hclear {v : Word} {slots : Bool} (hv : bitsOf v.toNat 28 4 = if slots then 2 else 1) :
        s.host (fun s => s.wRecCmd p v) = (s.disarm p 0x0050).recClear a slots :=
      (State.host_of_running hr).trans (State.wRecCmd_pass hv hg hd ha hn)
    exact ⟨⟨_, congrArg Host.Outcome.next (hclear (slots := false) (by decide)), hkeeps⟩,
      _, congrArg Host.Outcome.next (hclear (slots := true) (by decide)), hfrees⟩

end Sys2Proof.Machine
end

section
/-!
The loads of a record and of an Audit Trail entry into a path's buffer, and the reads of the buffers (R253, R259).
-/

namespace Sys2Proof.Machine
variable {s t : State} {p : Path}

/-! ### A path's registers and the rest of the path -/

/-- A path-local field reads as it was written while other parts of the path change. -/
theorem State.rdP_setPath_wrP (s : State) (p : Path) (f : Field) (v : Nat) {x : PathSt}
    (h : x.regs = ((s.wrP p f v).path p).regs := by rfl) : ((s.wrP p f v).setPath p x).rdP p f = v % 2 ^ f.width := by
  rw [← s.rdP_wrP_same p f v]
  simp [State.rdP, h]

/-! ### What a load finds -/

/-- A record of the ring that is held is found under its sequence number (R253). -/
theorem State.recFind_held {q : BitVec 32} {r : Record} (hr : s.str.recs.lookup (q.toNat % 2048) = some r)
    (hq : r.rseq = q) (hh : s.recHeld r = true) (hd : s.recDead = false) :
    s.recFind q = (bufOk, bytesWords (recordBytes r)) := by
  simp [State.recFind, hr, hq, hh, hd]

theorem State.recFind_gone {q : BitVec 32} (hr : s.str.recs.lookup (q.toNat % 2048) = none) :
    s.recFind q = (bufGone, List.replicate 64 0) := by
  simp [State.recFind, hr]

/-- A load that found a status and words has them in the path's buffer. -/
def State.recGiven (s : State) (p : Path) (status : Nat) (ws : List Word) : State :=
  (s.wrP p Fld.REC_RD_STATUS status).setPath p
    { (s.wrP p Fld.REC_RD_STATUS status).path p with recLoad := none, recBuf := ws, recIdx := 0 }

def State.audGiven (s : State) (p : Path) (status : Nat) (ws : List Word) : State :=
  (s.wrP p Fld.AUD_STATUS_STATUS status).setPath p
    { (s.wrP p Fld.AUD_STATUS_STATUS status).path p with audLoad := none, audBuf := ws, audIdx := 0 }

section
variable {status : Nat} (hv : status < 4) (s : State) (p : Path) (ws : List Word)
include hv

theorem State.recGiven_holds : ((s.recGiven p status ws).path p).recBuf = ws ∧
    ((s.recGiven p status ws).path p).recLoad = none ∧ (s.recGiven p status ws).rdP p Fld.REC_RD_STATUS = status ∧
    (s.recGiven p status ws).str = s.str ∧ (s.recGiven p status ws).regs = s.regs := by
  have hstatus : (s.recGiven p status ws).rdP p Fld.REC_RD_STATUS = status :=
    (s.rdP_setPath_wrP p Fld.REC_RD_STATUS status).trans (Nat.mod_eq_of_lt hv)
  refine ⟨?_, ?_, hstatus, ?_, ?_⟩ <;> simp [State.recGiven]

theorem State.audGiven_holds : (s.audGiven p status ws).rdP p Fld.AUD_STATUS_STATUS = status ∧
    ((s.audGiven p status ws).path p).audBuf = ws ∧ (s.audGiven p status ws).str = s.str ∧
    (s.audGiven p status ws).regs = s.regs := by
  have hstatus : (s.audGiven p status ws).rdP p Fld.AUD_STATUS_STATUS = status :=
    (s.rdP_setPath_wrP p Fld.AUD_STATUS_STATUS status).trans (Nat.mod_eq_of_lt hv)
  refine ⟨hstatus, ?_, ?_, ?_⟩ <;> simp [State.audGiven]

end

theorem exec_recLoadDone_recorder {q : BitVec 32} {status : Nat} {ws : List Word} (hq : (s.path p).recLoad = some q)
    (hl : s.led.recovered = true) (hf : s.recFind q = (status, ws)) :
    exec (.recLoadDone p .recorder []) s = .next (s.recGiven p status ws) := by
  refine congrArg Host.Outcome.next ?_
  simp [State.loadDone, State.bankFails_nil, State.recGiven, hq, hl, hf]

/-- An Audit Trail entry that is held is given, else GONE (R259). -/
theorem exec_recLoadDone_audit {q : BitVec 32} (hq : (s.path p).audLoad = some q) (ha : areaDead s.str 4 = false)
    (hl : s.led.recovered = true) : exec (.recLoadDone p .audit []) s = .next
      ((s.audFind q).elim (s.audGiven p bufGone (List.replicate 16 0)) fun e =>
        s.audGiven p bufOk (bytesWords (audEntryBytes e))) := by
  refine congrArg Host.Outcome.next ?_
  cases hf : s.audFind q <;> simp [State.loadDone, State.bankFails_nil, State.audGiven, hq, hl, ha, hf]

/-! ### Selecting and reading -/

/-- Selecting a record starts its load (R253). -/
theorem State.wRecSel_loads (s : State) (p : Path) (q : Word) : ((s.wRecSel p q).2.path p).recLoad = some q ∧
    ((s.wRecSel p q).2.path p).recBuf = [] ∧ (s.wRecSel p q).2.rdP p Fld.REC_RD_STATUS = bufLoading ∧
    (s.wRecSel p q).2.rcd = s.rcd ∧ (s.wRecSel p q).2.str = s.str := by
  have hstatus : (s.wRecSel p q).2.rdP p Fld.REC_RD_STATUS = bufLoading :=
    State.rdP_setPath_wrP (s.wr Fld.REC_SEL_RSEQ q.toNat) p Fld.REC_RD_STATUS bufLoading
  refine ⟨?_, ?_, hstatus, ?_, ?_⟩ <;> simp [State.wRecSel]

theorem State.wAudSel_loads (s : State) (p : Path) (q : Word) : ((s.wAudSel p q).2.path p).audLoad = some q ∧
    ((s.wAudSel p q).2.path p).audIdx = 0 ∧ (s.wAudSel p q).2.rdP p Fld.AUD_STATUS_STATUS = bufLoading ∧
    (s.wAudSel p q).2.str = s.str := by
  have hstatus : (s.wAudSel p q).2.rdP p Fld.AUD_STATUS_STATUS = bufLoading :=
    State.rdP_setPath_wrP (s.wr Fld.AUD_SEL_ASEQ q.toNat) p Fld.AUD_STATUS_STATUS bufLoading
  refine ⟨?_, ?_, hstatus, ?_⟩ <;> simp [State.wAudSel]

/-- A word of the buffer is read without effect. -/
theorem State.bufWord_held {buf : List Word} {i : Nat} {w : Word} (h : buf[i]? = some w) (status : Nat) (loading : Bool) :
    s.bufWord buf i status loading = (w, s) := by
  simp [State.bufWord, h]

theorem State.recDataRead_held {w : Word} (h : (s.path p).recBuf[(s.path p).recIdx]? = some w) :
    (s.recDataRead p).2 = s.setPath p { s.path p with recIdx := ((s.path p).recIdx + 1) % 64 } := by
  simp [State.recDataRead, State.bufWord_held h]

theorem State.audDataRead_held {w : Word} (ha : areaDead s.str 4 = false)
    (h : (s.path p).audBuf[(s.path p).audIdx]? = some w) :
    (s.audDataRead p).2 = s.setPath p { s.path p with audIdx := ((s.path p).audIdx + 1) % 16 } := by
  simp [State.audDataRead, ha, State.bufWord_held h]

/-- Settles O27: one lemma above for each command. -/
theorem logBuffers : Obligations.LogBuffers := by
  unfold Obligations.LogBuffers
  intro s p
  refine ⟨fun q hr => ⟨_, congrArg Host.Outcome.next (State.host_of_running hr), s.wRecSel_loads p q⟩,
    fun q hr => ⟨_, congrArg Host.Outcome.next (State.host_of_running hr), s.wAudSel_loads p q⟩,
    fun q r hq hr he hh hd hl => ⟨_, exec_recLoadDone_recorder hq hl (State.recFind_held hr he hh hd), ?record⟩,
    fun q hq hr hl => ⟨_, exec_recLoadDone_recorder hq hl (State.recFind_gone hr), ?recordGone⟩,
    fun q e hq ha he hl => ⟨_, exec_recLoadDone_audit hq ha hl, ?entry⟩,
    fun q hq ha he hl => ⟨_, exec_recLoadDone_audit hq ha hl, ?entryGone⟩,
    fun w hr hw => congrArg Host.Outcome.next ((State.hostRead_of_running hr).trans (State.recDataRead_held hw)),
    fun w hr ha hw => congrArg Host.Outcome.next ((State.hostRead_of_running hr).trans (State.audDataRead_held ha hw))⟩
  case record => exact State.recGiven_holds (by decide) ..
  case recordGone =>
    obtain ⟨hbuf, -, hstatus, hstr, hregs⟩ :=
      State.recGiven_holds (by decide : bufGone < 4) s p (List.replicate 64 0)
    exact ⟨hstatus, hbuf, hstr, hregs⟩
  case entry =>
    rw [he, Option.elim_some]
    exact State.audGiven_holds (by decide) ..
  case entryGone =>
    rw [he, Option.elim_none]
    exact State.audGiven_holds (by decide) ..

end Sys2Proof.Machine
end

section
/-!
Nonces, sessions and authorisations (R270, R274, R276): what ending a session leaves of its path, of the other path and of the
ledger; the lapses; SEC_TOKEN_DATA and SUBMIT (R272).
-/

namespace Sys2Proof.Machine
variable {s t : State} {p q : Path}

/-! ### The access paths -/

theorem State.path_congr (hs : t.spi = s.spi) (hd : t.drega = s.drega) (p : Path) : t.path p = s.path p :=
  match p with
  | .spi => hs
  | .drega => hd

theorem State.rdP_congr {f : Field} (h : (t.path p).regs = (s.path p).regs) : t.rdP p f = s.rdP p f := by
  rw [State.rdP, h, State.rdP]

theorem State.path_setPath_other (s : State) (x : PathSt) (h : q ≠ p) : (s.setPath p x).path q = s.path q :=
  match p, q with
  | .spi, .drega => rfl
  | .drega, .spi => rfl
  | .spi, .spi => absurd rfl h
  | .drega, .drega => absurd rfl h

/-- A write of a path-local field changes nothing of a path but its registers. -/
theorem State.wrP_path (s : State) (p : Path) (f : Field) (v : Nat) (q : Path) :
    (s.wrP p f v).path q = { s.path q with regs := ((s.wrP p f v).path q).regs } := by
  cases p <;> cases q <;> rfl

@[simp] theorem State.until_path (s : State) (n : Nat) (p : Path) : (s.until n).path p = s.path p :=
  State.path_congr rfl rfl p

@[simp] theorem State.drawn_path (s : State) (p : Path) : s.drawn.path p = s.path p := State.path_congr rfl rfl p

@[simp] theorem State.raise_path (s : State) (code source : Nat) (payload : List Byte) (p : Path) :
    (s.raise code source payload).path p = s.path p := State.path_congr (by simp) (by simp) p

theorem State.rtcAbandon_parts (s : State) : s.rtcAbandon.led = s.led ∧ s.rtcAbandon.str = s.str ∧
    ∀ p, s.rtcAbandon.path p = s.path p := by
  obtain e | ⟨t, ht, e⟩ := s.rtcAbandon_cases
  · rw [e]
    exact ⟨rfl, rfl, fun _ => rfl⟩
  · rw [e]
    refine ⟨?_, ?_, fun p => ?_⟩
    · rw [State.raise_led, ht]
    · rw [State.raise_str, ht]
    · rw [State.raise_path, ht]
      exact State.path_congr rfl rfl p

/-! ### The end of a session (R274) -/

/-- A path without a session: the rest of the path, the other path, the clock, Strata and the committed image are as before. -/
structure SessionEnded (p : Path) (s t : State) : Prop where
  here : t.path p = { s.path p with session := none }
  elsewhere : ∀ q, q ≠ p → t.path q = s.path q
  now : t.now = s.now
  str : t.str = s.str
  com : t.led.com = s.led.com

theorem SessionEnded.ite {c : Prop} [Decidable c] {u : State} (ht : SessionEnded p s t) (hu : SessionEnded p s u) :
    SessionEnded p s (if c then t else u) := by
  split <;> assumption

theorem SessionEnded.psvEnd (h : SessionEnded p s t) : SessionEnded p s t.psvEnd :=
  ⟨(State.path_congr rfl rfl p).trans h.here, fun q hq => (State.path_congr rfl rfl q).trans (h.elsewhere q hq), h.now, h.str,
    h.com⟩

theorem SessionEnded.rtcAbandon (h : SessionEnded p s t) : SessionEnded p s t.rtcAbandon := by
  obtain ⟨hled, hstr, hpath⟩ := t.rtcAbandon_parts
  exact ⟨(hpath p).trans h.here, fun q hq => (hpath q).trans (h.elsewhere q hq), t.rtcAbandon_now.trans h.now,
    hstr.trans h.str, (congrArg (·.com) hled).trans h.com⟩

theorem State.sessionEnd_ended (s : State) (p : Path) : SessionEnded p s (s.sessionEnd p) := by
  unfold State.sessionEnd
  split
  next hnone =>
    have he : s.path p = { s.path p with session := none } := by rw [← Option.isNone_iff_eq_none.1 hnone]
    exact ⟨he, fun _ _ => rfl, rfl, rfl, rfl⟩
  next =>
    have h : SessionEnded p s (s.setPath p { s.path p with session := none }) :=
      ⟨State.path_setPath .., fun _ hq => State.path_setPath_other s _ hq, by simp, by simp, by simp⟩
    have hpsv := h.psvEnd.ite (c := (s.setPath p { s.path p with session := none }).led.psvOpen = some p) h
    exact hpsv.rtcAbandon.ite hpsv

/-- A calendar sequence of the path ends with the session that opened it (R201). -/
theorem State.sessionEnd_psvOpen {x : Session} (h : (s.path p).session = some x) : (s.sessionEnd p).led.psvOpen ≠ some p := by
  have hsome : ¬(s.path p).session.isNone := by simp [h]
  have hpsv (u : State) : (if u.led.psvOpen = some p then u.psvEnd else u).led.psvOpen ≠ some p := by
    split
    · simp [State.psvEnd]
    · assumption
  unfold State.sessionEnd
  rw [if_neg hsome]
  extract_lets _ u v
  have hv : v.led.psvOpen ≠ some p := hpsv u
  split
  · rw [v.rtcAbandon_parts.1]
    exact hv
  · exact hv

theorem State.sessionDue_open {x : Session} (h : (s.path p).session = some x) :
    s.sessionDue p = (s.until (x.opened + 300000)).sessionEnd p := by
  simp [State.sessionDue, h]

/-- The state after CLOSE: the token words are dropped, then the session ends. -/
def State.closed (s : State) (p : Path) : State := (s.setPath p { s.path p with token := [] }).sessionEnd p

theorem exec_close (hr : s.core.running = true) : exec (.close p) s = .next (s.closed p) :=
  congrArg Host.Outcome.next (State.host_of_running hr)

theorem State.closed_path (s : State) (p : Path) :
    (s.closed p).path p = { s.path p with token := [], session := none } := by
  have h := (State.sessionEnd_ended (s.setPath p { s.path p with token := [] }) p).here
  rw [State.path_setPath] at h
  exact h

theorem State.closed_elsewhere (s : State) (h : q ≠ p) : (s.closed p).path q = s.path q :=
  ((State.sessionEnd_ended _ p).elsewhere q h).trans (State.path_setPath_other s _ h)

theorem State.closed_str (s : State) (p : Path) : (s.closed p).str = s.str :=
  (State.sessionEnd_ended _ p).str.trans (State.setPath_str ..)

theorem State.session_of_none (h : (s.path p).session = none) : s.session p = none := by
  rw [State.session, h]
  rfl

/-! ### Nonces (R270) -/

theorem exec_nonceIssue (hr : s.core.running = true) : exec (.nonceIssue p) s = .next (s.nonceRead p).2 :=
  congrArg Host.Outcome.next (State.hostRead_of_running hr)

/-- The nonces after one more is issued: of those within 300 s and the new one, the last four. -/
def State.noncesIssued (s : State) (p : Path) : List (BitVec 128 × Nat) :=
  let kept := ((s.path p).nonces.filter fun n => s.now < n.2 + 300000) ++ [(Config.nonce s.free, s.now)]
  kept.drop (kept.length - 4)

theorem State.nonceRead_nonces (s : State) (p : Path) : ((s.nonceRead p).2.path p).nonces = s.noncesIssued p := by
  simp [State.nonceRead, State.noncesIssued]

theorem State.noncesIssued_length (s : State) (p : Path) : (s.noncesIssued p).length ≤ 4 := by
  simp only [State.noncesIssued, List.length_drop]
  omega

/-- The nonce just issued is among them. -/
theorem State.mem_noncesIssued (s : State) (p : Path) : (Config.nonce s.free, s.now) ∈ s.noncesIssued p := by
  unfold State.noncesIssued
  extract_lets kept
  have hlen : kept.length - 4 ≤ ((s.path p).nonces.filter fun n => s.now < n.2 + 300000).length := by
    simp only [kept, List.length_append, List.length_singleton]
    omega
  rw [List.drop_append_of_le_length hlen]
  exact List.mem_append_right _ (List.mem_singleton_self _)

theorem State.nonceRead_live (s : State) (p : Path) : (s.nonceRead p).2.nonceLive p (Config.nonce s.free) = true := by
  have hnow : (s.nonceRead p).2.now = s.now := by simp [State.nonceRead]
  rw [State.nonceLive, State.nonceRead_nonces, hnow]
  exact List.any_eq_true.2 ⟨_, s.mem_noncesIssued p, by simp⟩

theorem State.nonceDue_oldest {n : BitVec 128 × Nat} {ns : List (BitVec 128 × Nat)} (h : (s.path p).nonces = n :: ns) :
    s.nonceDue p = (s.until (n.2 + 300000)).setPath p { s.path p with nonces := ns } := by
  simp [State.nonceDue, h]

/-! ### Authorisations (R276) -/

theorem State.dualDue_pending {d : Dual} (h : s.sec.dual = some d) :
    s.dualDue = ({ s.until (d.at_ + 300000) with sec := { s.sec with dual := none } } : State).raise evDualExpired 0xFF
      (beBytes 2 d.cmd ++ beBytes 1 d.key) := by
  simp [State.dualDue, State.dualLapse, h]

theorem State.armedDue_single {a : Armed} (h : (s.path p).armed = [a]) :
    s.armedDue p = (s.until (a.firstAt + 300000)).setPath p { s.path p with armed := [] } := by
  simp [State.armedDue, h]

/-- Settles O28: each clause is the update that ends what its clause names. -/
theorem noncesAndAuthority : Obligations.NoncesAndAuthority := by
  unfold Obligations.NoncesAndAuthority
  refine ⟨fun s p => ⟨fun hr => ⟨_, exec_nonceIssue hr, ?issued⟩, fun n ns hn => ⟨s.nonceDue p, rfl, ?lapsed⟩⟩,
    fun s p => ⟨fun hr => ⟨_, exec_close hr, ?closed⟩, fun x hx => ⟨s.sessionDue p, rfl, ?expired⟩,
      fun d hd => ⟨s.dualDue, rfl, ?dual⟩, fun a ha => ⟨s.armedDue p, rfl, ?armed⟩⟩⟩
  case issued =>
    refine ⟨s.nonceRead_live p, ?_, ?_, ?_, ?_, ?_⟩
    · rw [State.nonceRead_nonces]
      exact s.noncesIssued_length p
    · exact congrArg (· + 1) (State.setPath_free ..)
    all_goals simp [State.nonceRead]
  case lapsed =>
    rw [State.nonceDue_oldest hn]
    simp [State.until]
  case closed =>
    have hpath := s.closed_path p
    have hsession : ((s.closed p).path p).session = none := by rw [hpath]
    exact ⟨hsession, by rw [hpath], State.session_of_none hsession, s.closed_str p⟩
  case expired =>
    have h := (s.until (x.opened + 300000)).sessionEnd_ended p
    rw [State.sessionDue_open hx]
    exact ⟨by rw [h.here], h.now, State.sessionEnd_psvOpen ((congrArg (·.session) (s.until_path ..)).trans hx), h.str⟩
  case dual =>
    rw [State.dualDue_pending hd]
    simp [State.until]
  case armed =>
    rw [State.armedDue_single ha]
    simp [State.until]

/-! ### Writing a token (R272) -/

theorem exec_tokenDataWrite {d : Word} (hr : s.core.running = true) :
    exec (.tokenDataWrite p d) s = .next (s.wTokenData p d).2 := congrArg Host.Outcome.next (State.host_of_running hr)

theorem exec_submit (hr : s.core.running = true) : exec (.submit p) s = .next (s.tokenSubmit p) :=
  congrArg Host.Outcome.next (State.host_of_running hr)

/-- The state in which SUBMIT tests a token: its words are taken, and RESULT reads pending. -/
def State.tokenTaken (s : State) (p : Path) : State :=
  (s.setPath p { s.path p with token := [] }).wrP p Fld.SEC_TOKEN_CMD_RESULT 0

theorem State.tokenTaken_token (s : State) (p : Path) : ((s.tokenTaken p).path p).token = [] := by
  rw [State.tokenTaken, State.wrP_path, State.path_setPath]

/-- The tests at SUBMIT are those of the state before. -/
theorem State.testEarly_tokenTaken (s : State) (p : Path) (k : Token) : (s.tokenTaken p).testEarly p k = s.testEarly p k := by
  cases p <;> rfl

/-- The state in which Garnet serves a request. -/
def State.serve (s : State) (r : GarnetReq) : State := { s with gar := { s.gar with serving := some r } }

@[simp] theorem State.serve_path (s : State) (r : GarnetReq) (p : Path) : (s.serve r).path p = s.path p :=
  State.path_congr rfl rfl p

theorem State.serve_rdP (s : State) (r : GarnetReq) (p : Path) (f : Field) : (s.serve r).rdP p f = s.rdP p f :=
  State.rdP_congr (by rw [State.serve_path])

/-- An idle Garnet serves a request at once (R284). -/
theorem State.garnetQueue_idle (h : s.gar.serving = none) (hv : s.gar.verify = []) (hs : s.gar.sign = []) (r : GarnetReq) :
    s.garnetQueue r = s.serve r := by
  cases r <;> simp [State.garnetQueue, Garnet.next, State.serve, h, hv, hs]

/-- A token that passes the tests made at SUBMIT is served by an idle Garnet. -/
theorem State.tokenSubmit_idle (he : s.testEarly p (s.path p).token = 0) (hg : s.garnetShut = false)
    (h : s.gar.serving = none) (hv : s.gar.verify = []) (hs : s.gar.sign = []) :
    s.tokenSubmit p = (s.tokenTaken p).serve (.token p (s.path p).token) := by
  have hgar : (s.tokenTaken p).gar = s.gar := by simp [State.tokenTaken]
  have hshut : (s.tokenTaken p).garnetShut = false := by simpa [State.garnetShut, State.tokenTaken] using hg
  have hfull : (s.tokenTaken p).garnetFull = false := by simp [State.garnetFull, hgar, h]
  have hqueue := State.garnetQueue_idle (s := s.tokenTaken p) (by rw [hgar, h]) (by rw [hgar, hv]) (by rw [hgar, hs])
    (.token p (s.path p).token)
  unfold State.tokenSubmit
  extract_lets k _ u
  have hu : u = s.tokenTaken p := rfl
  rw [hu, State.testEarly_tokenTaken, he]
  simp [k, hshut, hfull, hqueue]

/-- Settles O29: the two cases of a write of SEC_TOKEN_DATA, and SUBMIT by `State.tokenSubmit_idle`. -/
theorem tokenSubmitted : Obligations.TokenSubmitted := by
  unfold Obligations.TokenSubmitted
  intro s p d hr
  refine ⟨fun hl => ?taken, fun hl => ?ignored, fun he hg h hv hs => ⟨_, exec_submit hr, ?submitted⟩⟩
  case taken =>
    rw [exec_tokenDataWrite hr]
    simp [State.wTokenData, hl]
  case ignored =>
    rw [exec_tokenDataWrite hr]
    simp [State.wTokenData, Nat.not_lt.2 hl]
  case submitted =>
    rw [State.tokenSubmit_idle he hg h hv hs]
    refine ⟨?_, ?_, ?_, ?_, ?_⟩
    · simp [State.serve, State.tokenTaken]
    · rw [State.serve_path, State.tokenTaken_token]
    · rw [State.serve_rdP]
      exact State.rdP_wrP_same ..
    all_goals simp [State.serve, State.tokenTaken]

end Sys2Proof.Machine
end

section
/-!
The tokens Garnet has verified (R273, R274): what a SESSION token commits and opens, and what a refused token leaves.
-/

namespace Sys2Proof.Machine
variable {s t : State} {p q : Path} {k : Token}

/-! ### The clock stands still during a command's transaction -/

theorem State.regsOnly.now (h : s.regsOnly t) : t.now = s.now := by rw [h]

theorem State.maybeCompact_now (s : State) : s.maybeCompact.now = s.now := by
  unfold State.maybeCompact
  split <;> rfl

theorem State.copyDone_now (s : State) : s.copyDone.now = s.now := by
  unfold State.copyDone
  split
  · rfl
  next c cs _ =>
    extract_lets _ _ u v
    have hv : v.now = s.now := by
      unfold v
      split <;> rfl
    exact (State.maybeCompact_now _).trans hv

theorem iterate_now {f : State → State} (hf : ∀ u, (f u).now = u.now) (n : Nat) (s : State) :
    (Nat.iterate f n s).now = s.now := by
  induction n generalizing s with
  | zero => rfl
  | succ n ih => exact (ih (f s)).trans (hf s)

theorem State.snapDone_now (s : State) : s.snapDone.now = s.now := by
  refine iterate_now (fun u => ?_) _ s
  split
  · exact u.copyDone_now
  · rfl

theorem State.markBank_now (s : State) (f : BankFail) : (s.markBank f).now = s.now := by
  unfold State.markBank
  extract_lets _ _ _ t2 _ t3 _ _ t6
  have h3 : State.regsOnly t2 t3 := .wr (.wr (.wr (.refl _)))
  have h6 : State.regsOnly t2 t6 := .wr (.wr (.ite (.wr h3) h3))
  exact State.regsOnly.now (s := t2) (.ite (.wr h6) (.ite (.wr h6) h6))

theorem State.bankFail_now (h : s.twoCopies) (i : Fin 2) (c : BitVec 4) :
    (s.bankFail { bank := Fin.ofNat 16 i.val, cause := c }).now = s.now := by
  have ha : (areaOf (Fin.ofNat 16 i.val).val).1 = 0 := by revert i; decide
  by_cases hf : Fin.ofNat 16 i.val ∈ s.str.failed
  · rw [State.bankFail, if_pos hf]
  by_cases hc : c = 0
  · rw [State.bankFail, if_neg hf, if_pos hc]
    rfl
  · rw [State.bankFail_of_alive ha hf hc (s.markBank_alive h i c), State.raise_now, State.markBank_now]

theorem State.meetFault_now (h : s.twoCopies) : s.meetFault.now = s.now := by
  unfold State.meetFault
  split
  · rfl
  · exact State.bankFail_now h _ _

theorem State.commitTxn_now (s : State) (us : Nat) (x : Txn) : (s.commitTxn us x).now = s.now :=
  State.maybeCompact_now _

theorem State.showLive_now (s : State) : s.showLive.now = s.now :=
  (State.refresh_regsOnly { s with led := { s.led with live := s.led.com } }).now

theorem State.command_now (h : s.canCommit) (kind : Nat) (f : Build → Build) : (s.command kind f).2.now = s.now := by
  obtain ⟨-, ⟨h0, h1⟩, -, hq⟩ := h
  obtain ⟨-, hf⟩ := s.snapDone_kept
  have h2 : s.snapDone.twoCopies := ⟨(copyFailed_congr hf 0 0).trans h0, (copyFailed_congr hf 0 1).trans h1⟩
  have hd : s.drain = s := by simp [State.drain, hq]
  have hu : s.snapDone.meetFault.now = s.now := (State.meetFault_now h2).trans s.snapDone_now
  unfold State.command
  rw [hd]
  split
  · rfl
  extract_lets w _
  split
  · exact hu
  · exact (State.showLive_now _).trans ((State.commitTxn_now ..).trans hu)

/-! ### The transaction of a SESSION token (R273) -/

/-- What a SESSION token adds to its transaction: the counter of its key, and the entry SESSION of a role that has one. -/
def sessionBuild (p : Path) (k : Token) (b : Build) : Build :=
  if tokRole k &&& (roleSupplier + roleReceiver + roleService) ≠ 0 then
    (b.counter k).audit 0x10 (BitVec.ofNat 8 (tokRole k)) (keysOne (tokKey k)) (beBytes 1 (pathNo p))
  else b.counter k

theorem State.acceptSession_eq (s : State) (p : Path) (k : Token) : s.acceptSession p k =
    if !(s.command 0x06 (sessionBuild p k)).1 then (false, (s.command 0x06 (sessionBuild p k)).2)
    else (true, ((s.command 0x06 (sessionBuild p k)).2.useNonce p k).sessionOpen p (tokRole k) (tokKey k)) := rfl

theorem sessionBuild_authCnt (p : Path) (k : Token) (b : Build) :
    storeGet (fun _ => 0) (sessionBuild p k b).img.st.authCnt (tokKey k) = BitVec.ofNat 32 (tokCounter k) := by
  unfold sessionBuild
  split <;> exact storeGet_storeSet_same

theorem applyTxn_sessionBuild_slots {b : Build} (hb : b.entries = []) (p : Path) (k : Token) (l : Ledger) (kind : Nat)
    (act : TxnAct) (v : BitVec 32) : (applyTxn l (((sessionBuild p k b).txn kind act).number v)).slots = l.slots := by
  unfold sessionBuild
  split <;> simp [applyTxn, Txn.number, Build.txn, Build.st, Build.counter, Build.audit, Build.add, hb, supersede, sameTarget,
    withTseq, applyEntry]

theorem State.command_sessionBuild (h : s.canCommit) (p : Path) (k : Token) :
    ∃ t, s.command 0x06 (sessionBuild p k) = (true, t) ∧ t.led.com.slots = s.led.com.slots ∧
      storeGet (fun _ => 0) t.led.com.st.authCnt (tokKey k) = BitVec.ofNat 32 (tokCounter k) := by
  obtain ⟨u, hu, hc⟩ := s.command_of_canCommit h 0x06 (sessionBuild p k)
  refine ⟨_, hc, ?_, ?_⟩
  · rw [State.drawn_led, State.showLive_com, State.commitTxn_com, applyTxn_sessionBuild_slots rfl, hu.com]
  · rw [State.drawn_led, State.showLive_com, State.commitTxn_com, applyTxn_txn_st, sessionBuild_authCnt]

/-! ### The opening of a session (R274) -/

/-- The session a token opens. -/
def State.sessionOf (s : State) (k : Token) : Session :=
  { role := BitVec.ofNat 8 (tokRole k), key := tokKey k, opened := s.now }

theorem State.sessionOpen_path (s : State) (p : Path) (role key : Nat) : (s.sessionOpen p role key).path p =
    { s.path p with session := some { role := BitVec.ofNat 8 role, key, opened := s.now } } := by
  have h := s.sessionEnd_ended p
  unfold State.sessionOpen
  dsimp only
  rw [State.raise_path, State.path_setPath, h.here, h.now]

theorem State.sessionOpen_elsewhere (s : State) (h : q ≠ p) (role key : Nat) :
    (s.sessionOpen p role key).path q = s.path q := by
  unfold State.sessionOpen
  dsimp only
  rw [State.raise_path, State.path_setPath_other _ _ h, (s.sessionEnd_ended p).elsewhere q h]

theorem State.sessionOpen_com (s : State) (p : Path) (role key : Nat) :
    (s.sessionOpen p role key).led.com = s.led.com := by
  unfold State.sessionOpen
  dsimp only
  rw [State.raise_led, State.setPath_led, (s.sessionEnd_ended p).com]

/-- What an accepted SESSION token does: its session is open on its path in place of any other, its nonce is used up, and its
counter is committed. -/
structure SessionTaken (p : Path) (k : Token) (s t : State) : Prop where
  here : t.path p = { s.path p with
    session := some (s.sessionOf k), nonces := (s.path p).nonces.filter fun n => n.1 ≠ tokNonce k }
  elsewhere : ∀ q, q ≠ p → t.path q = s.path q
  slots : t.led.com.slots = s.led.com.slots
  counter : storeGet (fun _ => 0) t.led.com.st.authCnt (tokKey k) = BitVec.ofNat 32 (tokCounter k)

theorem State.acceptSession_taken (h : s.canCommit) (p : Path) (k : Token) :
    ∃ t, s.acceptSession p k = (true, t) ∧ SessionTaken p k s t := by
  obtain ⟨u, hu, hslots, hcounter⟩ := State.command_sessionBuild h p k
  have hpath : ∀ q, u.path q = s.path q := by
    have hb := (Beside.command h 0x06 (sessionBuild p k)).path
    rwa [hu] at hb
  have hnow : u.now = s.now := by
    have hn := State.command_now h 0x06 (sessionBuild p k)
    rwa [hu] at hn
  have haccept : s.acceptSession p k = (true, (u.useNonce p k).sessionOpen p (tokRole k) (tokKey k)) := by
    rw [State.acceptSession_eq, hu]
    rfl
  refine ⟨_, haccept, ?_, fun q hq => ?_, ?_, ?_⟩
  · rw [State.sessionOpen_path, State.useNonce, State.path_setPath, State.setPath_now, hpath, hnow]
    rfl
  · rw [State.sessionOpen_elsewhere _ hq, State.useNonce, State.path_setPath_other _ _ hq, hpath]
  · rw [State.sessionOpen_com, State.useNonce, State.setPath_led, hslots]
  · rw [State.sessionOpen_com, State.useNonce, State.setPath_led, hcounter]

/-! ### RESULT of a SUBMIT -/

theorem State.tokenResult_path (s : State) (p : Path) (r : Nat) (q : Path) :
    (s.tokenResult p r).path q = (s.wrP p Fld.SEC_TOKEN_CMD_RESULT r).path q := by
  unfold State.tokenResult
  dsimp only
  split
  · exact State.irq_path ..
  · rfl

theorem State.tokenResult_rdP (s : State) (p : Path) (r : Nat) :
    (s.tokenResult p r).rdP p Fld.SEC_TOKEN_CMD_RESULT = r % 16 :=
  (State.rdP_congr (congrArg (·.regs) (s.tokenResult_path p r p))).trans (State.rdP_wrP_same ..)

/-- Beside registers, nothing of a path changes. -/
theorem State.tokenResult_kept (s : State) (p : Path) (r : Nat) (q : Path) :
    (s.tokenResult p r).path q = { s.path q with regs := ((s.tokenResult p r).path q).regs } := by
  rw [State.tokenResult_path, ← State.wrP_path]

theorem State.tokenResult_parts (s : State) (p : Path) (r : Nat) : (s.tokenResult p r).led = s.led ∧
    (s.tokenResult p r).sec = s.sec ∧ (s.tokenResult p r).str = s.str := by
  unfold State.tokenResult
  dsimp only
  split <;> simp

/-! ### The token in service -/

theorem State.garnetDone_testLate (s : State) (p : Path) (k : Token) : s.garnetDone.testLate p k = s.testLate p k := rfl

section
variable (hk : s.gar.serving = some (.token p k))
include hk

theorem State.tokenDone_refused (ht : s.testLate p k ≠ 0) : s.tokenDone = s.garnetDone.tokenRefuse p k (s.testLate p k) := by
  unfold State.tokenDone
  rw [hk]
  dsimp only
  rw [State.garnetDone_testLate]
  split
  next h => exact absurd h ht
  next => rfl

theorem State.tokenDone_session (ht : s.testLate p k = 0) (hs : tokCmd k = cmdSession) (hc : s.canCommit) :
    ∃ t, s.tokenDone = t.tokenResult p 1 ∧ SessionTaken p k s.garnetDone t := by
  have hcd : s.garnetDone.canCommit := hc
  obtain ⟨t, haccept, htaken⟩ := State.acceptSession_taken hcd p k
  refine ⟨t, ?_, htaken⟩
  unfold State.tokenDone
  rw [hk]
  dsimp only
  rw [State.garnetDone_testLate, ht]
  simp [State.acceptToken, hs, haccept]

end

theorem State.tokenRefuse_path (s : State) (p : Path) (k : Token) (r : Nat) (q : Path) :
    (s.tokenRefuse p k r).path q = (s.tokenResult p r).path q := State.raise_path ..

theorem State.tokenRefuse_parts (s : State) (p : Path) (k : Token) (r : Nat) : (s.tokenRefuse p k r).led = s.led ∧
    (s.tokenRefuse p k r).sec = s.sec ∧ (s.tokenRefuse p k r).str = s.str := by
  unfold State.tokenRefuse
  rw [State.raise_led, State.raise_sec, State.raise_str]
  exact s.tokenResult_parts p r

/-- A nonce that no outstanding one equals is not outstanding. -/
theorem State.nonceLive_of_used {v : BitVec 128} (h : ∀ n ∈ (s.path p).nonces, n.1 ≠ v) : s.nonceLive p v = false := by
  refine List.any_eq_false.2 fun n hn => ?_
  simp [h n hn]

/-- Settles O30: a SESSION token by `State.tokenDone_session`, a refused one by `State.tokenDone_refused`. -/
theorem tokenVerified : Obligations.TokenVerified := by
  unfold Obligations.TokenVerified
  refine ⟨fun s p k hk ht hs hc _ => ?accepted, fun s p k hk ht => ⟨s.tokenDone, rfl, ?refused⟩⟩
  case accepted =>
    obtain ⟨t, hdone, htaken⟩ := State.tokenDone_session hk ht hs hc
    have hpath := t.tokenResult_kept p 1 p
    have hled := (t.tokenResult_parts p 1).1
    rw [htaken.here] at hpath
    refine ⟨_, s.sessionOf k, congrArg Host.Outcome.next hdone, ?_, rfl, rfl, rfl, State.nonceLive_of_used ?_,
      t.tokenResult_rdP p 1, ?_, ?_⟩
    · rw [hpath]
      rfl
    · rw [hpath]
      simp
    · rw [hled, htaken.counter]
    · rw [hled, htaken.slots]
      rfl
  case refused =>
    have hpath := s.garnetDone.tokenRefuse_path p k (s.testLate p k) p
    obtain ⟨hled, hsec, hstr⟩ := s.garnetDone.tokenRefuse_parts p k (s.testLate p k)
    have hkept := s.garnetDone.tokenResult_kept p (s.testLate p k) p
    rw [State.tokenDone_refused hk ht]
    refine ⟨(State.rdP_congr (congrArg (·.regs) hpath)).trans (State.tokenResult_rdP ..), ?_, ?_, ?_, hsec, hled, hstr⟩
    all_goals
      rw [hpath, hkept]
      cases p <;> rfl

end Sys2Proof.Machine
end

section
/-!
What leaves every session as it is: the events of the intake, the ports and the Drega, Garnet's refusals (R285), the ends of
voltage events (R137), the panel and the loader, the power domains, and the engagement of the lock (R274, R295).
-/

namespace Sys2Proof.Machine
variable {s0 s t : State} {p q : Path}

/-- Both paths hold the sessions they held. -/
def SameSessions (s t : State) : Prop := ∀ p, (t.path p).session = (s.path p).session

theorem SameSessions.refl (s : State) : SameSessions s s := fun _ => rfl

/-- A state whose paths hold the same sessions. -/
theorem SameSessions.update (h : SameSessions s0 s) (hs : t.spi.session = s.spi.session := by rfl)
    (hd : t.drega.session = s.drega.session := by rfl) : SameSessions s0 t
  | .spi => hs.trans (h .spi)
  | .drega => hd.trans (h .drega)

theorem SameSessions.ite {c : Prop} [Decidable c] (hs : SameSessions s0 s) (ht : SameSessions s0 t) :
    SameSessions s0 (if c then s else t) := by
  split <;> assumption

theorem SameSessions.foldl {α : Type} {f : State → α → State} (h : SameSessions s0 s)
    (hf : ∀ u x, SameSessions s0 u → SameSessions s0 (f u x)) {l : List α} : SameSessions s0 (l.foldl f s) := by
  induction l generalizing s with
  | nil => exact h
  | cons x l ih => exact ih (hf _ _ h)

theorem SameSessions.foldlFst {α β : Type} {f : State × β → α → State × β} {x : State × β} (h : SameSessions s0 x.1)
    (hf : ∀ u a, SameSessions s0 u.1 → SameSessions s0 (f u a).1) {l : List α} : SameSessions s0 (l.foldl f x).1 := by
  induction l generalizing x with
  | nil => exact h
  | cons a l ih => exact ih (hf _ _ h)

/-! ### Registers and events -/

theorem SameSessions.wr (h : SameSessions s0 s) {f v} : SameSessions s0 (s.wr f v) := h.update

theorem SameSessions.wrB (h : SameSessions s0 s) {f b} : SameSessions s0 (s.wrB f b) := h.update

theorem SameSessions.irq (h : SameSessions s0 s) {f} : SameSessions s0 (s.irq f) := h.update

theorem SameSessions.count (h : SameSessions s0 s) {f n} : SameSessions s0 (s.count f n) := h.update

theorem SameSessions.wrap (h : SameSessions s0 s) {f} : SameSessions s0 (s.wrap f) := h.update

theorem SameSessions.drawn (h : SameSessions s0 s) : SameSessions s0 s.drawn := h.update

theorem SameSessions.wrP (h : SameSessions s0 s) {p f v} : SameSessions s0 (s.wrP p f v) := by
  cases p <;> exact h.update

theorem SameSessions.raise (h : SameSessions s0 s) {code source payload} :
    SameSessions s0 (s.raise code source payload) := fun p => by
  rw [State.raise_path, h p]

theorem SameSessions.raiseTogether (h : SameSessions s0 s) {es} : SameSessions s0 (s.raiseTogether es) :=
  .foldl h fun _ _ hu => .raise hu

/-! ### Ports and the Drega -/

theorem SameSessions.setPort (h : SameSessions s0 s) {n x} : SameSessions s0 (s.setPort n x) := by
  unfold State.setPort
  exact .foldl (.ite h.update h.update) fun _ _ hu => .wr hu

theorem SameSessions.netSend (h : SameSessions s0 s) {n f} : SameSessions s0 (s.netSend n f) := by
  unfold State.netSend
  exact .ite h (.ite (.count h) (.setPort h))

theorem SameSessions.dregaSend (h : SameSessions s0 s) {r payload} : SameSessions s0 (s.dregaSend r payload) := by
  unfold State.dregaSend State.udpSend
  exact .drawn (.netSend h)

theorem SameSessions.dregaAnswer (h : SameSessions s0 s) {r type tag status body} :
    SameSessions s0 (s.dregaAnswer r type tag status body) := by
  unfold State.dregaAnswer
  exact .dregaSend (.wrap (.drawn h.update))

theorem SameSessions.dregaRepeat (h : SameSessions s0 s) {r k} : SameSessions s0 (s.dregaRepeat r k) := by
  unfold State.dregaRepeat
  exact .dregaSend (.count h)

theorem SameSessions.dregaTake (h : SameSessions s0 s) {n f} : SameSessions s0 (s.dregaTake n f) := by
  unfold State.dregaTake
  exact .setPort h

theorem SameSessions.dregaFlush (h : SameSessions s0 s) {n} : SameSessions s0 (s.dregaFlush n) := by
  induction n generalizing s with
  | zero => exact h
  | succ n ih =>
    unfold State.dregaFlush
    split
    · exact h
    · extract_lets
      split
      · exact ih (.dregaRepeat (.dregaTake h))
      · exact .ite h (ih (.dregaAnswer (.dregaTake h)))

/-! ### Garnet -/

theorem SameSessions.tokenResult (h : SameSessions s0 s) {p r} : SameSessions s0 (s.tokenResult p r) := by
  unfold State.tokenResult
  exact .ite (.irq (.wrP h)) (.wrP h)

theorem SameSessions.tokenRefuse (h : SameSessions s0 s) {p k r} : SameSessions s0 (s.tokenRefuse p k r) := by
  unfold State.tokenRefuse
  exact .raise (.tokenResult h)

theorem SameSessions.rdgRefuse (h : SameSessions s0 s) {o code} : SameSessions s0 (s.rdgRefuse o code) := by
  unfold State.rdgRefuse State.rdgResult
  cases o with
  | host p => exact .ite (.irq (.wrP h)) (.wrP h)
  | drega src tag => exact .dregaFlush (.dregaAnswer h)
  | lost => exact h
  | publish k lt => exact .ite (.count h) h

theorem SameSessions.garnetRefuse (h : SameSessions s0 s) {r} : SameSessions s0 (s.garnetRefuse r) := by
  cases r with
  | token p k => exact .tokenRefuse h
  | sign o f => exact .rdgRefuse h

theorem SameSessions.garnetWarned (h : SameSessions s0 s) : SameSessions s0 s.garnetWarned := by
  unfold State.garnetWarned
  exact .foldl h.update fun _ _ hu => .garnetRefuse hu

/-! ### Bedrock, bays, the panel, the loader and the power domains -/

theorem SameSessions.rtcAbandon (h : SameSessions s0 s) : SameSessions s0 s.rtcAbandon := fun p => by
  rw [s.rtcAbandon_parts.2.2, h p]

theorem SameSessions.setBay (h : SameSessions s0 s) {b y} : SameSessions s0 (s.setBay b y) := h.update

theorem SameSessions.reportEvent (h : SameSessions s0 s) {b kind e stop down aborted} :
    SameSessions s0 (s.reportEvent b kind e stop down aborted).1 := by
  unfold State.reportEvent
  extract_lets _ _ _ _ _ _ _ _ _ t
  have ht : SameSessions s0 t := .setBay (.count (.wr (.wr (.wr (.wrB (.wrB (.wr h)))))))
  split <;> exact ht

theorem SameSessions.endEvents (h : SameSessions s0 s) {b down} : SameSessions s0 (s.endEvents b down).1 := by
  unfold State.endEvents
  extract_lets _ _ t d w
  have ht : SameSessions s0 t := h.update
  have hd : SameSessions s0 d.1 := by
    unfold d
    split
    · exact .reportEvent ht
    · exact ht
  have hw : SameSessions s0 w.1 := by
    unfold w
    split
    · exact .reportEvent hd
    · exact hd
  exact .wrB (.wrB (.wrB hw))

theorem SameSessions.closeAllEvents (h : SameSessions s0 s) : SameSessions s0 s.closeAllEvents := by
  unfold State.closeAllEvents
  extract_lets x
  have hx : SameSessions s0 x.1 := by
    refine .foldlFst h fun _ _ hu => ?_
    exact .endEvents hu
  exact .raiseTogether hx

theorem SameSessions.setUpdate (h : SameSessions s0 s) {x} : SameSessions s0 (s.setUpdate x) := by
  unfold State.setUpdate
  extract_lets t _ u
  have ht : SameSessions s0 t := by
    unfold t
    split
    · exact .wrB h
    · exact h
  have hu : SameSessions s0 u := ht.update
  split
  · exact .wr (.wrB (.wrB hu))
  · exact .wrB hu

theorem SameSessions.dropRequest (h : SameSessions s0 s) {w} : SameSessions s0 (s.dropRequest w) := by
  unfold State.dropRequest
  exact .wr h.update

theorem SameSessions.panelWarned (h : SameSessions s0 s) : SameSessions s0 s.panelWarned := by
  unfold State.panelWarned State.dropRequests
  exact .ite h (.wr (.foldl (.setUpdate h) fun _ _ hu => .dropRequest hu))

theorem SameSessions.loadRefuse (h : SameSessions s0 s) {slot live result addr tested} :
    SameSessions s0 (s.loadRefuse slot live result addr tested) := by
  unfold State.loadRefuse State.loadReport
  exact .raise (.irq (.ite (.count (.wr (.wrB (.wr (.wr h))))) (.wr (.wrB (.wr (.wr h))))))

theorem SameSessions.liveEnd (h : SameSessions s0 s) {l result addr tested} :
    SameSessions s0 (s.liveEnd l result addr tested) := by
  unfold State.liveEnd
  exact .loadRefuse (.wr h.update)

theorem SameSessions.loadAbandon (h : SameSessions s0 s) : SameSessions s0 s.loadAbandon := by
  unfold State.loadAbandon
  split
  · exact h
  · exact .ite (.liveEnd h) (.loadRefuse h.update)

theorem SameSessions.domainsWarned (h : SameSessions s0 s) : SameSessions s0 s.domainsWarned := by
  unfold State.domainsWarned State.domainDown State.domainBit
  extract_lets _ t
  have ht : SameSessions s0 t := h.update
  exact .ite (.wr ht.update) ht

/-! ### The engagement of the lock -/

theorem SameSessions.setFlint (h : SameSessions s0 s) {v} : SameSessions s0 (s.setFlint v) := by
  unfold State.setFlint
  exact .ite (.wrB (.wrB (.wr h))) (.irq (.wrB (.wrB (.wr h))))

theorem SameSessions.queueLock (h : SameSessions s0 s) : SameSessions s0 s.queueLock := by
  unfold State.queueLock
  exact .ite h.update h

theorem SameSessions.loadLocked (h : SameSessions s0 s) : SameSessions s0 s.loadLocked := by
  unfold State.loadLocked
  split
  · exact h
  · exact .ite (.liveEnd h) h

/-- The lock discards armed commands as it engages, and no session. -/
theorem SameSessions.engage (h : SameSessions s0 s) {src} : SameSessions s0 (s.engage src) := by
  have hdrop {u : State} (hu : SameSessions s0 u) : SameSessions s0 u.staleNonces.dropAuthorisations := hu.update
  unfold State.engage
  exact .ite h (.loadLocked (.queueLock (.raise (hdrop (.setFlint h.update)))))

end Sys2Proof.Machine
end

section
/-!
The life of a session (R274): its 300 s, its ends at a CLOSE, at a core reset and at a power-fail warning, and what an engaged
lock refuses in it.
-/

namespace Sys2Proof.Machine
variable {s t : State} {p q : Path} {x : Session}

/-- A session is open until 300 s after it opened. -/
theorem State.session_iff (h : (s.path p).session = some x) : s.session p = some x ↔ s.now < x.opened + 300000 := by
  rw [State.session, h]
  simp [Option.filter_eq_some_iff]

theorem State.sessionDue_ends (h : (s.path p).session = some x) :
    ((s.sessionDue p).path p).session = none ∧ (s.sessionDue p).now = max s.now (x.opened + 300000) := by
  have he := (s.until (x.opened + 300000)).sessionEnd_ended p
  rw [State.sessionDue_open h]
  exact ⟨by rw [he.here], he.now⟩

/-! ### Core resets -/

/-- A core reset leaves no session. -/
theorem State.coreLost.session {l : List Nat} (h : s.coreLost t l) (p : Path) : (t.path p).session = none := by
  obtain ⟨-, -, -, hspi, hdrega, -⟩ := h
  cases p
  · exact congrArg (·.session) hspi
  · exact congrArg (·.session) hdrega

/-! RST_N and the resets of the device's own, in the states that make them (R43, R382, R385, R402). -/

theorem exec_rstNAssert (hr : s.core.running = true) : exec .rstNAssert s = .next (s.coreReset 3) := by
  change execRstNAssert s = _
  simp [execRstNAssert, State.rstN, hr]

theorem exec_autoRestart (hr : s.core.running = true) (hc : s.chip = chipFrozen)
    (ha : s.rd Fld.SYS_ESC_CTRL_AUTO_RESTART_S ≠ 0) : ∃ n, exec .autoRestart s = .next ((s.until n).ownReset 4) := by
  refine ⟨s.esc.frozenAt.elim 0 (· + 1000 * s.rd Fld.SYS_ESC_CTRL_AUTO_RESTART_S), ?_⟩
  change execAutoRestart s = _
  simp [execAutoRestart, State.autoRestart, hr, hc, ha]

theorem exec_warnReset (hw : s.core.warned = true) : exec .warnReset s = .next (s.ownReset 5) := by
  change execWarnReset s = _
  simp [execWarnReset, hw]

theorem exec_configReset (hd : s.ldr.resetDue = true) : exec .configReset s = .next (s.ownReset 6) := by
  change execConfigReset s = _
  simp [execConfigReset, hd]

theorem State.ownReset_session (s : State) {cause : Nat} (h1 : cause ≠ 1) (h16 : cause < 16) (p : Path) :
    ((s.ownReset cause).path p).session = none := by
  obtain ⟨-, -, -, -, hlost⟩ := s.ownReset_spec h1 h16
  exact hlost.session p

/-! ### A power-fail warning -/

theorem State.pathWarned_session (s : State) (p : Path) : ((s.pathWarned p).path p).session = none := by
  unfold State.pathWarned
  dsimp only
  rw [State.path_setPath, (s.sessionEnd_ended p).here]

theorem State.pathWarned_elsewhere (s : State) (h : q ≠ p) : (s.pathWarned p).path q = s.path q := by
  unfold State.pathWarned
  dsimp only
  rw [State.path_setPath_other _ _ h, (s.sessionEnd_ended p).elsewhere q h]

theorem State.pathsWarned_session (s : State) (p : Path) :
    (((s.pathWarned .spi).pathWarned .drega).path p).session = none := by
  cases p
  · rw [State.pathWarned_elsewhere _ (by decide), State.pathWarned_session]
  · exact State.pathWarned_session ..

/-- What a power-fail warning does once the paths have lost their sessions. -/
def State.warnedRest (s : State) : State :=
  ({ s with sec := { s.sec with dual := none, unlockDeferred := none } } :
    State).psvEnd.garnetWarned.rtcAbandon.closeAllEvents.panelWarned.loadAbandon.domainsWarned

theorem SameSessions.warnedRest (s : State) : SameSessions s s.warnedRest := by
  unfold State.warnedRest
  exact .domainsWarned (.loadAbandon (.panelWarned (.closeAllEvents (.rtcAbandon (.garnetWarned
    (.update (.refl s)))))))

theorem State.powerFail_paths (hr : s.core.running = true) (hw : s.core.warned = false) :
    ∃ u : State, s.powerFail = ((u.pathWarned .spi).pathWarned .drega).warnedRest := by
  have h : ¬(!s.core.running || s.core.warned) = true := by simp [hr, hw]
  exact ⟨_, if_neg h⟩

theorem State.powerFail_session (hr : s.core.running = true) (hw : s.core.warned = false) (p : Path) :
    (s.powerFail.path p).session = none := by
  obtain ⟨u, hu⟩ := State.powerFail_paths hr hw
  rw [hu, SameSessions.warnedRest _ p, State.pathsWarned_session]

/-! ### An engaged lock -/

theorem State.gate_locked {roles : Nat} (hx : s.session p = some x) (hl : s.locked = true) : s.gate p roles true = .locked := by
  simp [State.gate, hx, hl]

theorem State.gate_unlisted {roles : Nat} (hx : s.session p = some x) (hr : x.role.toNat &&& roles ≠ 0) :
    s.gate p roles false = .pass x := by
  simp [State.gate, hx, hr]

/-- Settles O31: the opening by `State.tokenDone_session`, then one lemma above for each end and for the lock. -/
theorem sessionLife : Obligations.SessionLife := by
  unfold Obligations.SessionLife
  refine ⟨fun s p k hk ht hs hc _ => ?opened, fun s p => ⟨fun x hx => ⟨State.session_iff hx,
    ⟨s.sessionDue p, rfl, State.sessionDue_ends hx⟩, fun hr => ⟨_, exec_close hr, ?closed⟩⟩,
    ⟨s.coreReset 1, rfl, (s.coreReset_lost 1).session p⟩,
    fun hr => ⟨_, exec_rstNAssert hr, (s.coreReset_lost 3).session p⟩, fun hr hc ha => ?autoRestart,
    fun hw => ⟨_, exec_warnReset hw, s.ownReset_session (by decide) (by decide) p⟩,
    fun hd => ⟨_, exec_configReset hd, s.ownReset_session (by decide) (by decide) p⟩,
    fun hr hw => ⟨s.powerFail, rfl, State.powerFail_session hr hw p⟩, fun src => (SameSessions.refl s).engage p,
    fun x roles hx hl => ⟨State.gate_locked hx hl, State.gate_unlisted hx⟩⟩⟩
  case opened =>
    obtain ⟨t, hdone, htaken⟩ := State.tokenDone_session hk ht hs hc
    have hsame : SameSessions t (t.tokenResult p 1) := .tokenResult (.refl t)
    refine ⟨_, s.sessionOf k, congrArg Host.Outcome.next hdone, ?_, rfl, rfl, rfl, fun q hq => ?_⟩
    · rw [hsame p, htaken.here]
      rfl
    · rw [hsame q, htaken.elsewhere q hq]
      exact congrArg (·.session) (State.path_congr rfl rfl q)
  case closed =>
    exact ⟨by rw [s.closed_path p], fun q hq => congrArg (·.session) (s.closed_elsewhere hq)⟩
  case autoRestart =>
    obtain ⟨n, hn⟩ := exec_autoRestart hr hc ha
    exact ⟨_, hn, State.ownReset_session _ (by decide) (by decide) p⟩

end Sys2Proof.Machine
end

section
/-!
A host's readings (R279 to R284): a request that passes its tests, one that is refused, the signature, and the read of the
frame.
-/

namespace Sys2Proof.Machine
variable {s t : State} {p q : Path}

theorem exec_formEcdsa (hr : s.core.running = true) : exec (.formEcdsa p) s = .next (s.wRdgCmd p 0x10000000).2 :=
  congrArg Host.Outcome.next (State.host_of_running hr)

theorem exec_formHmac (hr : s.core.running = true) : exec (.formHmac p) s = .next (s.wRdgCmd p 0x20000000).2 :=
  congrArg Host.Outcome.next (State.host_of_running hr)

/-! ### A request -/

/-- The state in which a host's request is tested: its path's buffer is read from the start, and STATUS reads FORMING. -/
def State.rdgAsked (s : State) (p : Path) : State :=
  (s.setPath p { s.path p with rdgIdx := 0 }).wrP p Fld.SEC_RDG_CMD_STATUS rdForming

@[simp] theorem State.rdgAsked_rd (s : State) (p : Path) (f : Field) : (s.rdgAsked p).rd f = s.rd f := by
  simp [State.rdgAsked]

@[simp] theorem State.rdgAsked_gar (s : State) (p : Path) : (s.rdgAsked p).gar = s.gar := by simp [State.rdgAsked]

@[simp] theorem State.rdgAsked_led (s : State) (p : Path) : (s.rdgAsked p).led = s.led := by simp [State.rdgAsked]

/-- The tests of a request are those of the state before. -/
theorem State.rdgAsked_test (s : State) (p : Path) (hmac : Bool) (vs : List (Nat × Nat)) :
    (s.rdgAsked p).rdgTest hmac vs = s.rdgTest hmac vs := by
  cases p <;> rfl

theorem State.rdgAsked_items (s : State) (p : Path) : (s.rdgAsked p).hostItems = s.hostItems := by
  simp [State.hostItems]

/-- A FORM is a request of the state it is asked in. -/
theorem State.wRdgCmd_form {v : Word} {hmac : Bool} (hv : bitsOf v.toNat 28 4 = if hmac then 2 else 1) :
    (s.wRdgCmd p v).2 = (s.rdgAsked p).rdgRequest (.host p) hmac (s.rd Fld.SEC_RDG_NONCE_NONCE) s.hostItems := by
  have hn := s.rdgAsked_rd p Fld.SEC_RDG_NONCE_NONCE
  have hi := s.rdgAsked_items p
  unfold State.rdgAsked at hn hi
  cases hmac <;> simp [State.wRdgCmd, hv, State.rdgAsked, hi]

/-- The state in which a frame is formed: RSEQ is that of the reading (R281). -/
def State.rdgNumbered (s : State) (p : Path) : State := (s.rdgAsked p).wrap Fld.SEC_RDG_SEQ_RSEQ

/-- The frame of a host's reading, without its signature. -/
def State.hostFrame (s : State) (p : Path) (hmac : Bool) (items : List (Nat × Nat)) : List Byte :=
  (s.rdgNumbered p).rdgFrame hmac items ((s.rdgNumbered p).rd Fld.SEC_RDG_SEQ_RSEQ) (s.rd Fld.SEC_RDG_NONCE_NONCE)

/-- A FORM whose request passes takes the next RSEQ, and an idle Garnet signs its frame. -/
theorem State.wRdgCmd_passed {v : Word} {hmac : Bool} {items : List (Nat × Nat)}
    (hf : bitsOf v.toNat 28 4 = if hmac then 2 else 1) (ht : s.rdgTest hmac s.hostItems = .inr items)
    (h : s.gar.serving = none) (hv : s.gar.verify = []) (hs : s.gar.sign = []) :
    (s.wRdgCmd p v).2 = (s.rdgNumbered p).serve (.sign (.host p) (s.hostFrame p hmac items)) := by
  have hgar : (s.rdgNumbered p).gar = s.gar := s.rdgAsked_gar p
  have hqueue := State.garnetQueue_idle (s := s.rdgNumbered p) (by rw [hgar, h]) (by rw [hgar, hv]) (by rw [hgar, hs])
  rw [State.wRdgCmd_form hf, State.rdgRequest, State.rdgAsked_test, ht]
  exact hqueue _

/-- A FORM whose request is refused shows its code; BUSY alone counts. -/
theorem State.wRdgCmd_refused {v : Word} {hmac : Bool} {code : Nat} (hf : bitsOf v.toNat 28 4 = if hmac then 2 else 1)
    (ht : s.rdgTest hmac s.hostItems = .inl code) (hb : code ≠ rdBusy) :
    (s.wRdgCmd p v).2 = (s.rdgAsked p).rdgResult p code := by
  rw [State.wRdgCmd_form hf, State.rdgRequest, State.rdgAsked_test, ht]
  dsimp only
  rw [if_neg hb]
  rfl

/-! ### The frame and STATUS -/

/-- A frame begins with FORMAT and SIGTYPE (R280). -/
theorem State.rdgFrame_head (s : State) (hmac : Bool) (items : List (Nat × Nat)) (rseq n : Nat) :
    (s.rdgFrame hmac items rseq n).take 2 = [1, if hmac then 2 else 1] := by
  cases hmac <;> rfl

theorem State.rdgNumbered_rseq (s : State) (p : Path) :
    (s.rdgNumbered p).rd Fld.SEC_RDG_SEQ_RSEQ = (s.rd Fld.SEC_RDG_SEQ_RSEQ + 1) % 2 ^ 32 := by
  rw [State.rdgNumbered, State.rd_wrap_same, State.rdgAsked_rd]
  rfl

theorem State.rdgNumbered_status (s : State) (p : Path) :
    (s.rdgNumbered p).rdP p Fld.SEC_RDG_CMD_STATUS = rdForming :=
  (State.rdP_congr (congrArg (·.regs) (State.path_congr rfl rfl p))).trans (State.rdP_wrP_same ..)

theorem State.rdgResult_path (s : State) (p : Path) (code : Nat) :
    (s.rdgResult p code).path p = (s.wrP p Fld.SEC_RDG_CMD_STATUS code).path p := by
  unfold State.rdgResult
  dsimp only
  split
  · exact State.irq_path ..
  · rfl

theorem State.rdgResult_status (s : State) (p : Path) (code : Nat) :
    (s.rdgResult p code).rdP p Fld.SEC_RDG_CMD_STATUS = code % 16 :=
  (State.rdP_congr (congrArg (·.regs) (s.rdgResult_path p code))).trans (State.rdP_wrP_same ..)

theorem State.rdgResult_parts (s : State) (p : Path) (code : Nat) : (s.rdgResult p code).gar = s.gar ∧
    (s.rdgResult p code).led = s.led ∧ (s.rdgResult p code).str = s.str := by
  unfold State.rdgResult
  dsimp only
  split <;> simp

theorem State.rdgResult_rseq (s : State) (p : Path) (code : Nat) :
    (s.rdgResult p code).rd Fld.SEC_RDG_SEQ_RSEQ = s.rd Fld.SEC_RDG_SEQ_RSEQ := by
  unfold State.rdgResult
  dsimp only
  split
  · rw [State.rd_irq_apart _ (by decide), State.wrP_rd]
  · rw [State.wrP_rd]

/-! ### The signature and the read -/

/-- A host's signed frame is in its path's buffer, read from the start, and STATUS reads OK. -/
theorem State.rdgDeliver_host (s : State) (p : Path) (f : List Byte) :
    ((s.rdgDeliver (.host p) f).path p).rdgBuf = f ∧ ((s.rdgDeliver (.host p) f).path p).rdgIdx = 0 ∧
    (s.rdgDeliver (.host p) f).rdP p Fld.SEC_RDG_CMD_STATUS = rdOk ∧ (s.rdgDeliver (.host p) f).led = s.led ∧
    (s.rdgDeliver (.host p) f).str = s.str := by
  unfold State.rdgDeliver
  dsimp only
  obtain ⟨-, hled, hstr⟩ := State.rdgResult_parts
    ((s.setPath p { s.path p with rdgBuf := f, rdgIdx := 0 }).wrP p Fld.SEC_RDG_CMD_LENGTH f.length) p rdOk
  refine ⟨?_, ?_, State.rdgResult_status .., ?_, ?_⟩
  · rw [State.rdgResult_path, State.wrP_path, State.wrP_path, State.path_setPath]
  · rw [State.rdgResult_path, State.wrP_path, State.wrP_path, State.path_setPath]
  · rw [hled, State.wrP_led, State.setPath_led]
  · rw [hstr, State.wrP_str, State.setPath_str]

theorem State.signed_host {f : List Byte} (h : s.gar.serving = some (.sign (.host p) f)) :
    s.signed = (s.wrap Fld.SEC_GARNET_SIGNED).garnetDone.rdgDeliver (.host p) (s.rdgSign f) := by
  unfold State.signed
  rw [h]

/-- Settles O32: a request by `State.wRdgCmd_passed` or `State.wRdgCmd_refused`, the delivery by
`State.rdgDeliver_host`. -/
theorem readingFormed : Obligations.ReadingFormed := by
  unfold Obligations.ReadingFormed
  intro s p hr
  refine ⟨fun items ht h hv hs => ⟨_, s.hostFrame p false items, exec_formEcdsa hr, ?ecdsa⟩,
    fun items ht h hv hs => ⟨_, s.hostFrame p true items, exec_formHmac hr, ?hmac⟩,
    fun code ht hb => ⟨_, exec_formEcdsa hr, ?refused⟩, fun f h => ⟨s.signed, rfl, ?signed⟩,
    congrArg Host.Outcome.next (State.hostRead_of_running hr)⟩
  case ecdsa =>
    rw [State.wRdgCmd_passed (hmac := false) (by decide) ht h hv hs]
    exact ⟨rfl, s.rdgNumbered_rseq p, (State.serve_rdP ..).trans (s.rdgNumbered_status p), State.rdgFrame_head ..,
      s.rdgAsked_led p⟩
  case hmac =>
    rw [State.wRdgCmd_passed (hmac := true) (by decide) ht h hv hs]
    exact ⟨rfl, State.rdgFrame_head .., s.rdgNumbered_rseq p, s.rdgAsked_led p⟩
  case refused =>
    have hgar := ((s.rdgAsked p).rdgResult_parts p code).1
    rw [State.wRdgCmd_refused (hmac := false) (by decide) ht hb]
    exact ⟨State.rdgResult_status .., hgar.trans (s.rdgAsked_gar p), (State.rdgResult_rseq ..).trans (s.rdgAsked_rd p _)⟩
  case signed =>
    rw [State.signed_host h]
    exact State.rdgDeliver_host ..

end Sys2Proof.Machine
end

section
/-!
The part's fuses (R302): no command changes them but to blow those of a light group.
-/

namespace Sys2Proof.Machine

/-- Settles O60: every command keeps the frame, whose fuses only grow. -/
theorem fusesKept : Obligations.FusesKept := by
  unfold Obligations.FusesKept
  intro c s t h
  exact (exec_framed c s t h).fuses

end Sys2Proof.Machine
end

section
/-!
What a tamper detection and its responses keep (R289, R291, R295): the core, the fuses, Strata, the flash and the test run; a
lock bit that is set and authorisations that are discarded stay so. With them goes a list of fields: what follows the
engagement of the lock leaves `lockFields`, a response `detectFields`, a detection `testFields`.
-/

namespace Sys2Proof.Machine
set_option Elab.async false
variable {s0 s t : State} {gs : List Field}

/-! ### The fields -/

/-- The fields of a test run. -/
def testFields : List Field := [Fld.TMP_TEST_FAIL, Fld.TMP_TEST_RUNS, Fld.TMP_STATUS_TEST_RUN]

/-- With the sticky flags and the count of detections. -/
def detectFields : List Field := Fld.TMP_STICKY_ALL :: Fld.TMP_STATUS_DETECT :: testFields

/-- The lock and the responses of sources. -/
def responseFields : List Field :=
  Fld.SYS_STATUS_LOCKED :: ((List.range 6).map Fld.TMP_RESP_A_LSG ++ (List.range 9).map Fld.TMP_RESP_B_SRC)

/-- All of these, with the crack-detect loop's enable. -/
def lockFields : List Field := Fld.PNL_CRACK_CFG_ENABLE :: (detectFields ++ responseFields)

/-! ### What is kept -/

/-- No authorisation is armed on the host port whose action LOCK refuses. -/
def State.lockedOut (s : State) : Bool := s.spi.armed.all fun a => !lockRefuses a.cmd

/-- What a detection and what follows it keep, with the fields of a list. -/
structure DetectKept (gs : List Field) (s t : State) : Prop where
  core : t.core = s.core
  fuses : t.fuses = s.fuses
  str : t.str = s.str
  flash : t.flash = s.flash
  testRun : t.tmp.testRun = s.tmp.testRun
  responsesOn : t.tmp.responsesOn = s.tmp.responsesOn
  lock : s.bk.lock = true → t.bk.lock = true
  lockedOut : s.lockedOut = true → t.lockedOut = true
  rd : ∀ g ∈ gs, t.rd g = s.rd g

theorem DetectKept.refl (s : State) : DetectKept gs s s := ⟨rfl, rfl, rfl, rfl, rfl, rfl, id, id, fun _ _ => rfl⟩

theorem DetectKept.trans {u : State} (h : DetectKept gs s t) (k : DetectKept gs t u) : DetectKept gs s u where
  core := k.core.trans h.core
  fuses := k.fuses.trans h.fuses
  str := k.str.trans h.str
  flash := k.flash.trans h.flash
  testRun := k.testRun.trans h.testRun
  responsesOn := k.responsesOn.trans h.responsesOn
  lock := fun w => k.lock (h.lock w)
  lockedOut := fun w => k.lockedOut (h.lockedOut w)
  rd := fun g hg => (k.rd g hg).trans (h.rd g hg)

/-- Fewer fields. -/
theorem DetectKept.mono {fs : List Field} (h : DetectKept gs s t) (hsub : fs ⊆ gs) : DetectKept fs s t :=
  { h with rd := fun g hg => h.rd g (hsub hg) }

theorem testFields_subset : testFields ⊆ detectFields := by decide

theorem detectFields_subset : detectFields ⊆ lockFields := by decide

theorem responseFields_subset : responseFields ⊆ lockFields := by decide

theorem DetectKept.flag {g : Field} (h : DetectKept gs s t) (hg : g ∈ gs := by decide) : t.flag g = s.flag g := by
  rw [State.flag, h.rd g hg, State.flag]

/-- A state that differs in other parts. -/
theorem DetectKept.update (h : DetectKept gs s0 s) (hr : t.regs = s.regs := by rfl) (hc : t.core = s.core := by rfl)
    (hu : t.fuses = s.fuses := by rfl) (hs : t.str = s.str := by rfl) (hf : t.flash = s.flash := by rfl)
    (ht : t.tmp.testRun = s.tmp.testRun := by rfl) (ho : t.tmp.responsesOn = s.tmp.responsesOn := by rfl)
    (hl : s.bk.lock = true → t.bk.lock = true := by exact id)
    (ha : s.lockedOut = true → t.lockedOut = true := by exact id) : DetectKept gs s0 t :=
  h.trans ⟨hc, hu, hs, hf, ht, ho, hl, ha, fun g _ => State.rd_of_regs hr g⟩

theorem DetectKept.ite {c : Prop} [Decidable c] (hs : DetectKept gs s0 s) (ht : DetectKept gs s0 t) :
    DetectKept gs s0 (if c then s else t) := by
  split <;> assumption

theorem DetectKept.foldl {α : Type} {f : State → α → State} {l : List α} (h : DetectKept gs s0 s)
    (hf : ∀ u x, DetectKept gs s0 u → DetectKept gs s0 (f u x)) : DetectKept gs s0 (l.foldl f s) := by
  induction l generalizing s with
  | nil => exact h
  | cons x l ih => exact ih (hf _ _ h)

/-! ### Registers and events -/

theorem DetectKept.wr (h : DetectKept gs s0 s) {f : Field} {v} (hf : gs.all f.apart = true := by decide) :
    DetectKept gs s0 (s.wr f v) :=
  h.trans ⟨rfl, rfl, rfl, rfl, rfl, rfl, id, id, fun g hg => s.rd_wr_apart v (List.all_eq_true.1 hf g hg)⟩

theorem DetectKept.wrB (h : DetectKept gs s0 s) {f : Field} {b} (hf : gs.all f.apart = true := by decide) :
    DetectKept gs s0 (s.wrB f b) := h.wr hf

theorem DetectKept.irq (h : DetectKept gs s0 s) {f : Field} (hf : gs.all f.apart = true := by decide) :
    DetectKept gs s0 (s.irq f) := h.wr hf

theorem DetectKept.count (h : DetectKept gs s0 s) {f : Field} {n} (hf : gs.all f.apart = true := by decide) :
    DetectKept gs s0 (s.count f n) := h.wr hf

theorem State.raise_lockedOut (s : State) (code source : Nat) (payload : List Byte) :
    (s.raise code source payload).lockedOut = s.lockedOut := by
  rw [State.lockedOut, State.raise_spi, State.lockedOut]

theorem DetectKept.raise (h : DetectKept gs s0 s) {code source payload}
    (hg : gs.all Field.intakeFree = true := by decide) : DetectKept gs s0 (s.raise code source payload) :=
  h.trans {
    core := s.raise_core ..
    fuses := s.raise_fuses ..
    str := s.raise_str ..
    flash := s.raise_flash ..
    testRun := congrArg Tamper.testRun (s.raise_tmp ..)
    responsesOn := congrArg Tamper.responsesOn (s.raise_tmp ..)
    lock := (congrArg Bedrock.lock (s.raise_bk ..)).trans
    lockedOut := (s.raise_lockedOut ..).trans
    rd := fun g hm => s.rd_raise (List.all_eq_true.1 hg g hm) _ _ _ }

/-! ### Responses (R291, R295) -/

theorem DetectKept.refreshTamperAlert (h : DetectKept lockFields s0 s) : DetectKept lockFields s0 s.refreshTamperAlert := by
  unfold State.refreshTamperAlert State.alert
  extract_lets _ _ t u
  have ht : DetectKept lockFields s0 t := .wrB h
  have hu : DetectKept lockFields s0 u := .ite (.irq ht) ht
  exact .wrB (.wrB hu)

theorem DetectKept.queueLock (h : DetectKept gs s0 s) : DetectKept gs s0 s.queueLock := by
  unfold State.queueLock
  exact .ite (.update h) h

theorem DetectKept.loadRefuse (h : DetectKept lockFields s0 s) {slot live result addr tested} :
    DetectKept lockFields s0 (s.loadRefuse slot live result addr tested) := by
  unfold State.loadRefuse State.loadReport
  extract_lets _ t
  have ht : DetectKept lockFields s0 t := .wr (.wrB (.wr (.wr h)))
  exact .raise (.irq (.ite (.count ht) ht))

theorem DetectKept.liveEnd (h : DetectKept lockFields s0 s) {l result addr tested} :
    DetectKept lockFields s0 (s.liveEnd l result addr tested) := by
  unfold State.liveEnd
  exact .loadRefuse (.wr (.update h))

theorem DetectKept.loadLocked (h : DetectKept lockFields s0 s) : DetectKept lockFields s0 s.loadLocked := by
  unfold State.loadLocked
  split
  · exact h
  · exact .ite (.liveEnd h) h

theorem DetectKept.acknowledge (h : DetectKept lockFields s0 s) {mask lock} :
    DetectKept lockFields s0 (s.acknowledge mask lock) := by
  unfold State.acknowledge
  exact .ite (.update h) (.wr h)

theorem DetectKept.setFlint (h : DetectKept detectFields s0 s) {v} : DetectKept detectFields s0 (s.setFlint v) := by
  unfold State.setFlint
  extract_lets _ _ t
  have ht : DetectKept detectFields s0 t := .wrB (.wrB (.wr h))
  exact .ite ht (.irq ht)

/-! ### The lock engages (R291 step 5, R295) -/

/-- Flint is ENGAGING with the Bedrock lock bit set, and what LOCK refuses is discarded. -/
def State.engaged (s : State) (src : Nat) : State :=
  ((({ s with bk := { s.bk with lock := true }, tmp := { s.tmp with engageSrc := src } } : State).setFlint
    flEngaging).staleNonces).dropAuthorisations

theorem State.dropAuthorisations_lockedOut (s : State) : s.dropAuthorisations.lockedOut = true := by
  simp [State.dropAuthorisations, State.lockedOut]

theorem State.engaged_locked (s : State) (src : Nat) : (s.engaged src).locked = true :=
  State.setFlint_locked _ _

theorem State.setFlint_bk (s : State) (v : Nat) : (s.setFlint v).bk = s.bk := by
  have h : s.setFlint v = { s with regs := (s.setFlint v).regs } := State.regsOnly.setFlint (.refl s)
  rw [h]

theorem State.engaged_lock (s : State) (src : Nat) : (s.engaged src).bk.lock = true :=
  congrArg Bedrock.lock (State.setFlint_bk _ _)

theorem DetectKept.engaged (h : DetectKept detectFields s0 s) {src} : DetectKept detectFields s0 (s.engaged src) := by
  have hd {u : State} (hu : DetectKept detectFields s0 u) : DetectKept detectFields s0 u.staleNonces.dropAuthorisations :=
    hu.update (ha := fun _ => State.dropAuthorisations_lockedOut _)
  unfold State.engaged
  exact hd (.setFlint (.update h (hl := by exact fun _ => rfl)))

/-- What follows keeps the lock. -/
theorem State.engage_kept (h : s.locked = false) (src : Nat) : DetectKept lockFields (s.engaged src) (s.engage src) := by
  have he : s.engage src = (((s.engaged src).raise 0x82 0xFF
      (beBytes 4 ((s.engaged src).rd Fld.TMP_STICKY_ALL))).queueLock).loadLocked := if_neg (by simp [h])
  rw [he]
  exact .loadLocked (.queueLock (.raise (.refl _)))

theorem DetectKept.engage (h : DetectKept detectFields s0 s) {src} : DetectKept detectFields s0 (s.engage src) := by
  cases hl : s.locked with
  | true => rwa [State.engage, if_pos hl]
  | false => exact h.engaged.trans ((State.engage_kept hl src).mono detectFields_subset)

/-! ### The responses of detections -/

/-- The union of the responses of sources. -/
def State.responses (s : State) (srcs : List Nat) : Nat := (srcs.map s.response).foldl (· ||| ·) 0

/-- Detections are recorded and the alert follows; then the lock engages where a response has LOCK, and the flags are
acknowledged (R291). -/
theorem State.respond_shape (s : State) (srcs : List Nat) (i : DetectInfo) : ∃ u, DetectKept lockFields s u ∧ ∃ src mask,
    s.respond srcs i = (if s.responses srcs / 4 % 2 = 1 then u.engage src else u).acknowledge mask
      (s.responses srcs / 4 % 2 = 1) := by
  unfold State.respond
  extract_lets _ _ t u
  have ht : DetectKept lockFields s t := .ite (.foldl (.refl s) fun _ _ hu => .raise hu) (.refl s)
  exact ⟨u, .refreshTamperAlert ht, _, _, rfl⟩

theorem State.respond_kept (s : State) (srcs : List Nat) (i : DetectInfo) :
    DetectKept detectFields s (s.respond srcs i) := by
  obtain ⟨u, hu, src, mask, e⟩ := s.respond_shape srcs i
  have hu' : DetectKept detectFields s u := hu.mono detectFields_subset
  have hv : DetectKept detectFields s (if s.responses srcs / 4 % 2 = 1 then u.engage src else u) := .ite (.engage hu') hu'
  rw [e]
  exact hv.trans ((DetectKept.refl _).acknowledge.mono detectFields_subset)

/-- With LOCK in a response, the lock engages; Bedrock keeps it, and what LOCK refuses is discarded. -/
theorem State.respond_locks {srcs : List Nat} (hl : s.locked = false) (hu : s.responses srcs / 4 % 2 = 1)
    (i : DetectInfo) : (s.respond srcs i).locked = true ∧ (s.respond srcs i).bk.lock = true ∧
      (s.respond srcs i).lockedOut = true := by
  obtain ⟨u, hk, src, mask, e⟩ := s.respond_shape srcs i
  have hlu : u.locked = false := hk.flag.trans hl
  have hv : DetectKept lockFields (u.engaged src) (s.respond srcs i) := by
    rw [e, if_pos hu]
    exact .acknowledge (State.engage_kept hlu src)
  exact ⟨hv.flag.trans (u.engaged_locked src), hv.lock (u.engaged_lock src),
    hv.lockedOut (State.dropAuthorisations_lockedOut _)⟩

/-! ### Detections (R289) -/

/-- The flags of detections are set and they are counted. -/
def State.flagged (s : State) (srcs : List Nat) : State := (s.setFlags srcs).count Fld.TMP_STATUS_DETECT srcs.length

theorem DetectKept.setFlags (h : DetectKept testFields s0 s) {srcs} : DetectKept testFields s0 (s.setFlags srcs) := by
  unfold State.setFlags
  exact .wr (.wr (.wr h))

theorem DetectKept.detect (h : DetectKept testFields s0 s) {srcs i} : DetectKept testFields s0 (s.detect srcs i) := by
  unfold State.detect
  extract_lets srcs t u
  have ht : DetectKept testFields s0 t := .setFlags h
  have hu : DetectKept testFields s0 u := .count ht
  have hv : DetectKept testFields s0 (u.respond srcs i) := hu.trans ((u.respond_kept srcs i).mono testFields_subset)
  exact .ite h (.ite (.ite hv hu) (.ite (.wrB ht) ht))

/-! ### Conditions that begin (R288, R289, R466) -/

theorem DetectKept.condBegin (h : DetectKept lockFields s0 s) {srcs} : DetectKept lockFields s0 (s.condBegin srcs) := by
  unfold State.condBegin
  exact .wr (.update h)

/-- The levels of the enclosure pins are taken, and what they end has ended. -/
def State.pinsTaken (s : State) (enc : BitVec 4) : State :=
  ({ s with tmp := { s.tmp with enc } } : State).encSettle

theorem DetectKept.pinsTaken (h : DetectKept lockFields s0 s) {enc} : DetectKept lockFields s0 (s.pinsTaken enc) := by
  unfold State.pinsTaken State.encSettle
  exact .wr (.update h)

/-- Whether a source's condition begins: it is monitored, a pin is at its alarm level, its group is in use, and the condition
does not hold already. -/
def State.begins (s : State) (machine c : Nat) : Bool :=
  s.monitored c machine && s.encAlarm c && !s.fused c && s.tmp.cond.all fun x => x.val ≠ c

theorem mem_sourcesOf {srcs : List (Fin 33)} {c : Fin 33} : c.val ∈ sourcesOf srcs ↔ c ∈ srcs := by
  simp [sourcesOf, Fin.val_inj]

/-- Without FSM_ALARM the sources whose conditions begin are detected. -/
theorem State.tamperDetection_eq {srcs : List (Fin 33)} (h : 32 ∉ srcs) (enc : BitVec 4) (machine code : Nat) :
    s.tamperDetection srcs enc machine code =
      ((s.pinsTaken enc).condBegin ((sourcesOf srcs).filter ((s.pinsTaken enc).begins machine))).detect
        ((sourcesOf srcs).filter ((s.pinsTaken enc).begins machine)) { machine, code } := by
  have hn : ((sourcesOf srcs).filter ((s.pinsTaken enc).begins machine)).contains 32 = false := by
    simp [show 32 ∉ sourcesOf srcs from fun hm => h (mem_sourcesOf (c := 32).1 hm)]
  unfold State.tamperDetection
  extract_lets _ t new u v
  have hv : v = u := if_neg (ne_true_of_eq_false hn)
  rw [hv]
  rfl

theorem DetectKept.tamperDetection (h : DetectKept testFields s0 s) {srcs : List (Fin 33)} (hs : 32 ∉ srcs)
    {enc machine code} : DetectKept testFields s0 (s.tamperDetection srcs enc machine code) := by
  have hb {new : List Nat} : DetectKept lockFields s ((s.pinsTaken enc).condBegin new) :=
    .condBegin (.pinsTaken (.refl s))
  rw [State.tamperDetection_eq hs]
  exact .detect (h.trans (hb.mono (List.Subset.trans testFields_subset detectFields_subset)))

end Sys2Proof.Machine
end

section
/-!
Tamper test runs (R300, R301): a monitor's window, the end of a run with what follows on the ready device, and a periodic run.
-/

namespace Sys2Proof.Machine
set_option Elab.async false
variable {s0 s t : State} {m : Nat} {periodic : Bool}

/-- A bit that is set in a field reads 1. -/
theorem setBit_reads (x : Nat) {n w : Nat} (hn : n < w) : (x ||| 2 ^ n) % 2 ^ w / 2 ^ n % 2 = 1 := by
  have h : ((x ||| 2 ^ n) % 2 ^ w).testBit n = true := by simp [Nat.testBit_mod_two_pow, hn]
  simpa [Nat.testBit_eq_decide_div_mod_eq] using h

/-! ### Windows -/

theorem State.testWindow_tmp (s : State) (m : Nat) (periodic : Bool) :
    (s.testWindow m periodic).tmp = { s.tmp with testRun := some (m, periodic) } := by
  unfold State.testWindow
  dsimp only
  split <;> rfl

theorem State.testWindow_flash (s : State) (m : Nat) (periodic : Bool) : (s.testWindow m periodic).flash = s.flash := by
  unfold State.testWindow
  dsimp only
  split <;> rfl

theorem State.rd_testWindow (s : State) (m : Nat) (periodic : Bool) {g : Field}
    (hg : Fld.TMP_STATUS_TEST_SRC.apart g = true := by decide) : (s.testWindow m periodic).rd g = s.rd g := by
  unfold State.testWindow
  dsimp only
  split
  · exact State.rd_wr_apart _ _ hg
  · rfl

/-- A monitor has failed its test. -/
def State.monitorFailed (s : State) (m : Nat) : State := s.wr Fld.TMP_TEST_FAIL (s.rd Fld.TMP_TEST_FAIL ||| 2 ^ m)

theorem DetectKept.flagGroup (h : DetectKept testFields s0 s) : DetectKept testFields s0 (s.flagGroup m) := by
  unfold State.flagGroup
  exact .ite (.wr h) h

/-- As a window ends the next begins; a monitor that responded is left with detections at most. -/
theorem State.testWindowEnd_responded (h : s.tmp.testRun = some (m, periodic)) (hm : m < 15) :
    DetectKept testFields (s.testWindow (s.nextMonitor (m + 1)) periodic) (s.testWindowEnd true) := by
  simp only [State.testWindowEnd, h, if_neg (Nat.not_le.2 hm)]
  exact .detect (.refl _)

/-- One that did not is marked first. -/
theorem State.testWindowEnd_silent (h : s.tmp.testRun = some (m, periodic)) (hm : m < 15) :
    DetectKept testFields ((s.testWindow (s.nextMonitor (m + 1)) periodic).monitorFailed m) (s.testWindowEnd false) := by
  simp only [State.testWindowEnd, h, if_neg (Nat.not_le.2 hm)]
  exact .detect (.flagGroup (.ite (.count (.raise (.refl _))) (.raise (.refl _))))

/-! ### The end of a run -/

/-- The registers of a test run show its end. -/
def State.testEnded (s : State) : State :=
  ((({ s with tmp := { s.tmp with testRun := none } } : State).wrB Fld.TMP_STATUS_TEST_RUN false).wr
    Fld.TMP_STATUS_TEST_SRC 0).count Fld.TMP_TEST_RUNS

theorem State.testEnded_flag (s : State) : s.testEnded.flag Fld.TMP_STATUS_TEST_RUN = false := by
  rw [State.testEnded, State.flag, State.rd_count_apart _ _ (by decide), State.rd_wr_apart _ _ (by decide)]
  exact State.flag_wrB_same _ _ _ rfl

theorem State.testEnded_runs (s : State) :
    s.testEnded.rd Fld.TMP_TEST_RUNS = min (s.rd Fld.TMP_TEST_RUNS + 1) 0xFFFF := by
  rw [State.testEnded, State.rd_count_same, State.rd_wr_apart _ _ (by decide), State.rd_wrB_apart _ _ (by decide)]
  rfl

/-- The device is ready. -/
def State.madeReady (s : State) : State := { s with core := { s.core with ready := true } }

theorem DetectKept.madeReady {gs : List Field} (h : DetectKept gs s t) : DetectKept gs s.madeReady t.madeReady :=
  { h with core := by rw [State.madeReady, h.core, State.madeReady] }

theorem DetectKept.applyPending (h : DetectKept testFields s0 s) : DetectKept testFields s0 s.applyPending := by
  have hr {srcs i} : DetectKept testFields s0 (s.respond srcs i) :=
    h.trans ((s.respond_kept srcs i).mono testFields_subset)
  unfold State.applyPending
  extract_lets
  exact (DetectKept.ite h hr).trans
    ((DetectKept.refl _).acknowledge.mono (List.Subset.trans testFields_subset detectFields_subset))

theorem DetectKept.condEnd (h : DetectKept testFields s0 s) {c} : DetectKept testFields s0 (s.condEnd c) := by
  unfold State.condEnd
  exact .wr (.update h)

theorem DetectKept.crackSettle (h : DetectKept testFields s0 s) : DetectKept testFields s0 s.crackSettle := by
  unfold State.crackSettle
  exact .ite (.condEnd (.wr (.update h))) (.ite (.tamperDetection h (by decide)) h)

theorem DetectKept.discoverTo (h : DetectKept testFields s0 s) {mask} : DetectKept testFields s0 (s.discoverTo mask) := by
  unfold State.discoverTo
  exact .foldl h fun _ _ hu => .update hu

theorem DetectKept.ringSearch (h : DetectKept testFields s0 s) : DetectKept testFields s0 s.ringSearch := by
  unfold State.ringSearch
  extract_lets _ t
  have ht : DetectKept testFields s0 t := .wr (.update h)
  exact .ite (.discoverTo ht) ht

theorem DetectKept.ringReady (h : DetectKept testFields s0 s) : DetectKept testFields s0 s.ringReady := by
  unfold State.ringReady
  exact .ite (.ringSearch (.wr h)) h

theorem DetectKept.setTwin (h : DetectKept testFields s0 s) {v} : DetectKept testFields s0 (s.setTwin v) := by
  unfold State.setTwin
  exact .ite (.wr h) (.irq (.wr h))

theorem DetectKept.twinReady (h : DetectKept testFields s0 s) : DetectKept testFields s0 s.twinReady := by
  have hw : DetectKept testFields s0 ((s.setTwin twWait).wrB Fld.SYS_STATUS_SINGLE true) := .wrB (.setTwin h)
  unfold State.twinReady State.helloSend
  exact .ite (.ite hw (.update hw)) h

theorem State.testComplete_periodic (h : s.tmp.testRun = some (15, true)) : s.testComplete = s.testEnded := by
  simp only [State.testComplete, h]
  rfl

/-- The run of a start makes the device ready (R301). -/
theorem State.testComplete_start (h : s.tmp.testRun = some (15, false)) :
    DetectKept testFields s.testEnded.madeReady s.testComplete := by
  simp only [State.testComplete, h]
  exact .twinReady (.ringReady (.crackSettle (DetectKept.applyPending (.refl s.testEnded)).madeReady))

/-! ### A periodic run (R301) -/

theorem State.testPeriodic_due (hr : s.core.running = true) (hd : s.core.ready = true) (hn : s.tmp.testRun = none)
    (hp : s.testDue = true) : s.testPeriodic = s.testStart true :=
  if_pos (by simp [hr, hd, hn, hp])

/-- Settles O9: a window by `State.testWindowEnd_responded` or `State.testWindowEnd_silent`, the end of a run by
`State.testComplete_start`, a periodic run by the start it is. -/
theorem tamperTestRun : Obligations.TamperTestRun := by
  unfold Obligations.TamperTestRun
  refine ⟨fun s m periodic ok h hm => ⟨s.testWindowEnd ok, rfl, ?window⟩,
    fun s periodic h => ⟨s.testComplete, rfl, ?complete⟩,
    fun s hr hd hn hp => ⟨s.testStart true, congrArg Host.Outcome.next (State.testPeriodic_due hr hd hn hp), ?periodic⟩⟩
  case window =>
    cases ok with
    | true =>
      have k := State.testWindowEnd_responded h hm
      exact ⟨k.testRun.trans (by rw [State.testWindow_tmp]), nofun, k.flash.trans (s.testWindow_flash _ _)⟩
    | false =>
      have k := State.testWindowEnd_silent h hm
      refine ⟨k.testRun.trans (congrArg Tamper.testRun (s.testWindow_tmp _ _)), fun _ => ?_,
        k.flash.trans (s.testWindow_flash _ _)⟩
      rw [k.rd _ (by decide), State.monitorFailed, State.rd_wr_same]
      exact setBit_reads _ hm
  case complete =>
    cases periodic with
    | true =>
      rw [State.testComplete_periodic h]
      exact ⟨rfl, s.testEnded_flag, s.testEnded_runs, rfl⟩
    | false =>
      have k := State.testComplete_start h
      exact ⟨k.testRun, k.flag.trans s.testEnded_flag, (k.rd _ (by decide)).trans s.testEnded_runs,
        congrArg Core.ready k.core⟩
  case periodic =>
    unfold State.testStart
    extract_lets _ t u
    refine ⟨State.testWindow_tmp .., ?_, ?_, ?_⟩
    · rw [State.flag, State.rd_testWindow]
      exact State.flag_wrB_same _ _ _ rfl
    · rw [State.rd_testWindow, State.rd_wrB_apart _ _ (by decide), State.rd_wr_same]
      rfl
    · have hu : s.keepsWords u [Adr.TMP_TEST, Adr.TMP_STATUS] := .wrB (.wr (.of_regs rfl))
      unfold State.testWindow
      dsimp only
      split
      · exact .wr hu
      · exact hu

end Sys2Proof.Machine
end

section
/-!
A tamper source whose condition begins or ends (R288, R289, R291, R295).
-/

namespace Sys2Proof.Machine
variable {s t : State} {c : Fin 33}

/-! ### What the start of a condition leaves of the test for it -/

theorem DetectKept.response (h : DetectKept responseFields s t) (c : Fin 33) : t.response c.val = s.response c.val := by
  have hl : ∀ c : Fin 33, c.val < 24 → Fld.TMP_RESP_A_LSG (c.val / 4) ∈ responseFields := by decide
  have hb : ∀ c : Fin 33, ¬ c.val < 24 → Fld.TMP_RESP_B_SRC (c.val - 24) ∈ responseFields := by decide
  unfold State.response
  split
  next hc => exact h.rd _ (hl c hc)
  next hc => exact h.rd _ (hb c hc)

theorem DetectKept.monitored (h : DetectKept lockFields s t) (hr : s.core.running = true) (c machine : Nat) :
    t.monitored c machine = s.monitored c machine := by
  have hf : t.flag Fld.PNL_CRACK_CFG_ENABLE = s.flag Fld.PNL_CRACK_CFG_ENABLE := h.flag
  simp only [State.monitored, h.core, hf, hr, if_true]

theorem DetectKept.fused (h : DetectKept lockFields s t) (c : Nat) : t.fused c = s.fused c := by
  rw [State.fused, h.fuses, State.fused]

theorem DetectKept.underTest (h : DetectKept lockFields s t) (c : Nat) : t.underTest c = s.underTest c := by
  rw [State.underTest, h.testRun, State.underTest]

theorem sourcesOf_singleton : ∀ c : Fin 33, sourcesOf [c] = [c.val] := by decide

/-! ### A detection -/

/-- A source in use that is not under test is flagged and counted, and its response follows. -/
theorem State.detect_one (hr : s.core.running = true) {n : Nat} (hf : s.fused n = false) (hu : s.underTest n = false)
    (i : DetectInfo) : s.detect [n] i =
      if s.tmp.responsesOn then (s.flagged [n]).respond [n] i else s.flagged [n] := by
  have h : [n].filter (fun c => !s.fused c && !s.underTest c) = [n] := by simp [hf, hu]
  unfold State.detect
  rw [h]
  exact (if_neg (List.cons_ne_nil _ _)).trans (if_pos hr)

theorem stickyBit_lt (n : Nat) : stickyBit n < 15 := by
  unfold stickyBit
  split_ifs <;> omega

theorem State.flagged_sticky (s : State) (n : Nat) :
    (s.flagged [n]).rd Fld.TMP_STICKY_ALL / 2 ^ stickyBit n % 2 = 1 := by
  have h : stickyBit n < Fld.TMP_STICKY_ALL.width := lt_trans (stickyBit_lt n) (by decide)
  rw [State.flagged, State.rd_count_apart _ _ (by decide), State.setFlags, State.rd_wr_apart _ _ (by decide),
    State.rd_wr_apart _ _ (by decide), State.rd_wr_same]
  simpa using setBit_reads (s.rd Fld.TMP_STICKY_ALL) h

theorem State.flagged_count (s : State) (n : Nat) :
    (s.flagged [n]).rd Fld.TMP_STATUS_DETECT = min (s.rd Fld.TMP_STATUS_DETECT + 1) 0xFFFF := by
  rw [State.flagged, State.rd_count_same, State.setFlags, State.rd_wr_apart _ _ (by decide),
    State.rd_wr_apart _ _ (by decide), State.rd_wr_apart _ _ (by decide)]
  rfl

/-- The flags and the count leave the lock and the responses. -/
theorem State.flagged_kept (s : State) (srcs : List Nat) : DetectKept responseFields s (s.flagged srcs) := by
  unfold State.flagged State.setFlags
  exact .count (.wr (.wr (.wr (.refl s))))

/-- The flag, the count and with LOCK the lock of one detection. -/
theorem State.detect_one_spec {c : Fin 33} (hr : s.core.running = true) (hf : s.fused c.val = false)
    (hu : s.underTest c.val = false) (i : DetectInfo) :
    (s.detect [c.val] i).rd Fld.TMP_STICKY_ALL / 2 ^ stickyBit c.val % 2 = 1 ∧
    (s.detect [c.val] i).rd Fld.TMP_STATUS_DETECT = min (s.rd Fld.TMP_STATUS_DETECT + 1) 0xFFFF ∧
    (s.tmp.responsesOn = true → s.response c.val / 4 % 2 = 1 → s.locked = false →
      (s.detect [c.val] i).locked = true ∧ (s.detect [c.val] i).bk.lock = true ∧ (s.detect [c.val] i).lockedOut = true) ∧
    (s.detect [c.val] i).str = s.str ∧ (s.detect [c.val] i).flash = s.flash := by
  have hk : DetectKept responseFields s (s.flagged [c.val]) := s.flagged_kept _
  have hd : DetectKept detectFields (s.flagged [c.val]) (s.detect [c.val] i) := by
    rw [State.detect_one hr hf hu]
    exact .ite (State.respond_kept _ _ _) (.refl _)
  refine ⟨?_, (hd.rd _ (by decide)).trans (s.flagged_count _), fun hon hresp hl => ?_, hd.str.trans hk.str,
    hd.flash.trans hk.flash⟩
  · rw [hd.rd _ (by decide)]
    exact s.flagged_sticky _
  · have hlock : (s.flagged [c.val]).responses [c.val] / 4 % 2 = 1 := by
      simpa [State.responses, hk.response] using hresp
    rw [State.detect_one hr hf hu, if_pos hon]
    exact State.respond_locks (hk.flag.trans hl) hlock i

/-- The one source given begins. -/
theorem State.begins_of (hr : s.core.running = true) {enc : BitVec 4} (hm : s.monitored c.val 0 = true)
    (he : ({ s with tmp := { s.tmp with enc } } : State).encAlarm c.val = true) (hf : s.fused c.val = false)
    (hc : s.tmp.cond.all (fun x => x.val ≠ c.val) = true) : (s.pinsTaken enc).begins 0 c.val = true := by
  have hk : DetectKept lockFields s (s.pinsTaken enc) := .pinsTaken (.refl s)
  have he' : (s.pinsTaken enc).encAlarm c.val = true := he
  have hc' : (s.pinsTaken enc).tmp.cond.all (fun x => x.val ≠ c.val) = true :=
    List.all_eq_true.2 fun x hx => List.all_eq_true.1 hc x (List.mem_of_mem_filter hx)
  rw [State.begins, hk.monitored hr, hm, he', hk.fused, hf, hc']
  rfl

/-- Settles O23: the source given is the one that begins, which `State.detect_one_spec` detects; an end is a write of
TMP_ACTIVE. -/
theorem tamperSources : Obligations.TamperSources := by
  unfold Obligations.TamperSources
  refine ⟨fun s c enc hc hr hm he hf hn hu => ⟨s.tamperDetection [c] enc 0 0, rfl, ?detected⟩,
    fun s c => ⟨s.condEnd c.val, rfl, rfl, State.keepsWords.wr (.of_regs rfl)⟩⟩
  case detected =>
    have hk : DetectKept lockFields s ((s.pinsTaken enc).condBegin [c.val]) := .condBegin (.pinsTaken (.refl s))
    have hx : s.tamperDetection [c] enc 0 0 = ((s.pinsTaken enc).condBegin [c.val]).detect [c.val] {} := by
      have h32 : (32 : Fin 33) ∉ [c] := fun h => by simp [← List.mem_singleton.1 h] at hc
      rw [State.tamperDetection_eq h32, sourcesOf_singleton,
        List.filter_cons_of_pos (State.begins_of hr hm he hf hn), List.filter_nil]
    obtain ⟨hsticky, hcount, hlocks, hstr, hflash⟩ := State.detect_one_spec (by rw [hk.core, hr])
      ((hk.fused _).trans hf) ((hk.underTest _).trans hu) {}
    rw [hx]
    refine ⟨hsticky, hcount.trans (by rw [hk.rd _ (by decide)]), fun hon hresp hl => ?_, hstr.trans hk.str,
      hflash.trans hk.flash⟩
    have hs : DetectKept responseFields s ((s.pinsTaken enc).condBegin [c.val]) := hk.mono responseFields_subset
    exact hlocks (hk.responsesOn.trans hon) ((congrArg (· / 4 % 2) (hs.response c)).trans hresp) (hk.flag.trans hl)

end Sys2Proof.Machine
end

section
/-!
What holds of every command (the queue, the flash, the outcome), and CRC-8 as a remainder of polynomials over two elements (R431).

Here and below a theorem under `Elab.async false` is done before the next is begun: only the proofs between two of them are open
at once, which bounds the memory that a compile takes.
-/

namespace Sys2Proof.Machine

/-! ### The whole machine -/

/-- Settles O58: the queue is part of the frame that every command keeps. -/
theorem queueUntouched : Obligations.QueueUntouched := fun c s t h => (exec_framed c s t h).pending

/-- Settles O59: the frame that every command keeps holds the flash while no flash command is in progress. -/
theorem flashKept : Obligations.FlashKept := fun c s t hf h => (exec_framed c s t h).flash hf

/-- Conversions of 76 lanes of 32 each are taken. -/
theorem exec_laneOutputSample_next {conv : List (List LaneConv)} (h : (Instr.laneOutputSample conv).wellFormed = true)
    (s : State) : ∃ t, exec (.laneOutputSample conv) s = .next t := by
  refine ⟨_, if_pos ?_⟩
  simpa [Instr.wellFormed] using h

/-- Outside a scan the conversions have no effect; within one they are those of the channels it takes. -/
theorem exec_scanComplete_next {conv : List AuxConv} {s : State}
    (h : s.axState = axScan → (s.scanRuns s.aux.plan s.aux.lastGain (s.scanCodes conv)).isSome = true) :
    ∃ t, exec (.scanComplete conv) s = .next t := by
  by_cases hx : s.axState = axScan
  · obtain ⟨runs, hr⟩ := Option.isSome_iff_exists.1 (h hx)
    exact ⟨_, exec_scanComplete_runs hx hr⟩
  · exact ⟨s, if_pos hx⟩

/-- Every command but the two that take conversions completes on any operands. -/
theorem exec_next (c : Instr) (s : State) (hw : c.wellFormed = true)
    (hs : ∀ conv, c = .scanComplete conv → s.axState = axScan →
      (s.scanRuns s.aux.plan s.aux.lastGain (s.scanCodes conv)).isSome = true) : ∃ t, exec c s = .next t := by
  cases c
  case laneOutputSample conv => exact exec_laneOutputSample_next hw s
  case scanComplete conv => exact exec_scanComplete_next (hs conv rfl)
  all_goals exact Exists.intro _ rfl

/-- Settles O1: a step is its queue's first command, and `exec_next` answers for each. -/
theorem stepRunsFront : Obligations.StepRunsFront := by
  unfold Obligations.StepRunsFront
  refine ⟨fun c rest s h => ?_, fun s h => ?_, exec_next⟩
  · simp [step, h]
  · simp [step, h]

end Sys2Proof.Machine
end

section
/-!
CRC-8 (R431): bytes as polynomials over two elements, and the bitwise division that `crc8` makes.
-/

namespace Sys2Proof.Machine
open Polynomial

/-- The bits of a byte, its first of highest degree. -/
def crcBits (b : Byte) : List (ZMod 2) := (List.range 8).map fun i => if b.getLsbD (7 - i) then 1 else 0

/-- The polynomial of a list of coefficients, its first of highest degree. -/
noncomputable def crcPoly (l : List (ZMod 2)) : (ZMod 2)[X] := l.foldl (fun f c => f * X + C c) 0

/-- The divisor of R431. -/
noncomputable def crcDivisor : (ZMod 2)[X] := X ^ 8 + X ^ 2 + X + 1

/-- A byte's polynomial behind another. -/
theorem crcPoly_append_byte (l : List (ZMod 2)) (b : Byte) :
    crcPoly (l ++ crcBits b) = crcPoly l * X ^ 8 + crcPoly (crcBits b) := by
  simp only [crcPoly, List.foldl_append, crcBits, List.range, List.range.loop, List.map_cons, List.map_nil, List.foldl_cons,
    List.foldl_nil]
  ring

theorem ite_xor_bit (a b : Bool) :
    (if (a ^^ b) = true then (1 : ZMod 2) else 0) = (if a = true then 1 else 0) + if b = true then 1 else 0 := by
  revert a b
  decide

/-- Exclusive or adds the polynomials. -/
theorem crcPoly_xor (a b : Byte) : crcPoly (crcBits (a ^^^ b)) = crcPoly (crcBits a) + crcPoly (crcBits b) := by
  simp only [crcPoly, crcBits, List.range, List.range.loop, List.map_cons, List.map_nil, List.foldl_cons, List.foldl_nil,
    BitVec.getLsbD_xor, ite_xor_bit, C_add]
  ring

/-- A shift multiplies by X, but for the first bit, which leaves the byte. -/
theorem crcPoly_shift (c : Byte) :
    crcPoly (crcBits c) * X = C (if c.msb then (1 : ZMod 2) else 0) * X ^ 8 + crcPoly (crcBits (c <<< 1)) := by
  have hm : c.msb = c.getLsbD 7 := BitVec.msb_eq_getLsbD_last c
  simp only [crcPoly, crcBits, List.range, List.range.loop, List.map_cons, List.map_nil, List.foldl_cons, List.foldl_nil,
    BitVec.getLsbD_shiftLeft, hm, Nat.reduceSub, Nat.reduceLT, decide_true, decide_false, Bool.not_true, Bool.not_false,
    Bool.true_and, Bool.false_and, Bool.false_eq_true, if_false, C_0]
  ring

theorem crcPoly_seven : crcPoly (crcBits 7) = X ^ 2 + X + 1 := by
  simp [crcPoly, crcBits, List.range, List.range.loop]
  ring

/-- The byte 7 stands for X ^ 8 up to the divisor, as coefficients are those of two elements. -/
theorem X_pow_eight : (X ^ 8 : (ZMod 2)[X]) = crcDivisor + crcPoly (crcBits 7) := by
  have h2 (f : (ZMod 2)[X]) : f + f = 0 := CharTwo.add_self_eq_zero f
  rw [crcPoly_seven]
  unfold crcDivisor
  linear_combination -h2 (X ^ 2 + X + 1)

/-- One bit of the division. -/
theorem crc8Bit_divides (c : Byte) :
    ∃ q, crcPoly (crcBits c) * X = q * crcDivisor + crcPoly (crcBits (crc8Bit c)) := by
  rw [crcPoly_shift]
  unfold crc8Bit
  by_cases hm : c.msb = true
  · refine ⟨1, ?_⟩
    rw [if_pos hm, if_pos hm, show (0x07 : Byte) = 7 from rfl, crcPoly_xor, X_pow_eight, C_1]
    ring
  · exact ⟨0, by simp [hm]⟩

/-- Several bits of the division. -/
theorem crc8Bit_iterate_divides (n : Nat) (c : Byte) :
    ∃ q, crcPoly (crcBits c) * X ^ n = q * crcDivisor + crcPoly (crcBits (Nat.iterate crc8Bit n c)) := by
  induction n generalizing c with
  | zero => exact ⟨0, by simp⟩
  | succ n ih =>
    obtain ⟨q, hq⟩ := crc8Bit_divides c
    obtain ⟨r, hr⟩ := ih (crc8Bit c)
    refine ⟨q * X ^ n + r, ?_⟩
    calc crcPoly (crcBits c) * X ^ (n + 1) = crcPoly (crcBits c) * X * X ^ n := by ring
      _ = q * X ^ n * crcDivisor + crcPoly (crcBits (crc8Bit c)) * X ^ n := by rw [hq]; ring
      _ = _ := by rw [hr, Function.iterate_succ_apply]; ring

/-- The remainder of a message, by its last byte. -/
theorem crc8_divides (bs : List Byte) :
    ∃ q, crcPoly (bs.flatMap crcBits) * X ^ 8 = q * crcDivisor + crcPoly (crcBits (crc8 bs)) := by
  induction bs using List.reverseRecOn with
  | nil => exact ⟨0, by simp [crcPoly, crc8, crcBits, List.range, List.range.loop]⟩
  | append_singleton bs b ih =>
    obtain ⟨q, hq⟩ := ih
    obtain ⟨r, hr⟩ := crc8Bit_iterate_divides 8 (crc8 bs ^^^ b)
    have hc : crc8 (bs ++ [b]) = Nat.iterate crc8Bit 8 (crc8 bs ^^^ b) := by simp [crc8]
    refine ⟨q * X ^ 8 + r, ?_⟩
    calc crcPoly ((bs ++ [b]).flatMap crcBits) * X ^ 8
        = (crcPoly (bs.flatMap crcBits) * X ^ 8 + crcPoly (crcBits b)) * X ^ 8 := by
          rw [List.flatMap_append, List.flatMap_singleton, crcPoly_append_byte]
      _ = q * X ^ 8 * crcDivisor + crcPoly (crcBits (crc8 bs ^^^ b)) * X ^ 8 := by rw [hq, crcPoly_xor]; ring
      _ = _ := by rw [hr, hc]; ring

set_option Elab.async false in
/-- Settles O56: `crc8_divides`; the check value computes. -/
theorem crc8IsRemainder : Obligations.Crc8IsRemainder := ⟨crc8_divides, by decide +kernel⟩

end Sys2Proof.Machine
end

section
/-!
A part of the state and a list of fields that an operation leaves: `Keeps part gs s t`. The operations below write registers,
offer events and replace other parts; each lemma says that one of them leaves a part and fields apart from its own.
-/

namespace Sys2Proof.Machine
variable {α : Type} {part : State → α} {gs : List Field} {s0 s t u : State}

/-- A part of the state beside its registers, and the fields of a list, are as before. -/
structure Keeps {α : Type} (part : State → α) (gs : List Field) (s t : State) : Prop where
  part : part t = part s
  rd : ∀ g ∈ gs, t.rd g = s.rd g

theorem Keeps.refl (s : State) : Keeps part gs s s := ⟨rfl, fun _ _ => rfl⟩

theorem Keeps.trans (h : Keeps part gs s t) (k : Keeps part gs t u) : Keeps part gs s u :=
  ⟨k.part.trans h.part, fun g hg => (k.rd g hg).trans (h.rd g hg)⟩

theorem Keeps.flag (h : Keeps part gs s t) {g : Field} (hg : g ∈ gs := by decide +kernel) : t.flag g = s.flag g :=
  State.flag_congr (h.rd g hg)

/-- A state with the same registers. -/
theorem Keeps.update (h : Keeps part gs s0 s) (hp : part t = part s := by rfl) (hr : t.regs = s.regs := by rfl) :
    Keeps part gs s0 t :=
  h.trans ⟨hp, fun g _ => State.rd_of_regs hr g⟩

theorem Keeps.ite {c : Prop} [Decidable c] (hs : Keeps part gs s0 s) (ht : Keeps part gs s0 t) :
    Keeps part gs s0 (if c then s else t) := by
  split <;> assumption

theorem Keeps.foldl {β : Type} {f : State → β → State} {l : List β} (h : Keeps part gs s0 s)
    (hf : ∀ u, ∀ x ∈ l, Keeps part gs s0 u → Keeps part gs s0 (f u x)) : Keeps part gs s0 (l.foldl f s) := by
  induction l generalizing s with
  | nil => exact h
  | cons x l ih => exact ih (hf _ x (by simp) h) fun u y hy => hf u y (by simp [hy])

theorem Keeps.wr (h : Keeps part gs s0 s) {f : Field} {v : Nat} (hf : gs.all f.apart = true := by decide +kernel)
    (hp : ∀ u r, part { u with regs := r } = part u := by intros; rfl) : Keeps part gs s0 (s.wr f v) :=
  h.trans ⟨hp .., fun g hg => s.rd_wr_apart v (List.all_eq_true.1 hf g hg)⟩

theorem Keeps.wrB (h : Keeps part gs s0 s) {f : Field} {b : Bool} (hf : gs.all f.apart = true := by decide +kernel)
    (hp : ∀ u r, part { u with regs := r } = part u := by intros; rfl) : Keeps part gs s0 (s.wrB f b) := h.wr hf hp

theorem Keeps.wrS (h : Keeps part gs s0 s) {f : Field} {v : Int} (hf : gs.all f.apart = true := by decide +kernel)
    (hp : ∀ u r, part { u with regs := r } = part u := by intros; rfl) : Keeps part gs s0 (s.wrS f v) := h.wr hf hp

theorem Keeps.irq (h : Keeps part gs s0 s) {f : Field} (hf : gs.all f.apart = true := by decide +kernel)
    (hp : ∀ u r, part { u with regs := r } = part u := by intros; rfl) : Keeps part gs s0 (s.irq f) := h.wr hf hp

theorem Keeps.count (h : Keeps part gs s0 s) {f : Field} {n : Nat} (hf : gs.all f.apart = true := by decide +kernel)
    (hp : ∀ u r, part { u with regs := r } = part u := by intros; rfl) : Keeps part gs s0 (s.count f n) := h.wr hf hp

set_option Elab.async false in
theorem Keeps.wrap (h : Keeps part gs s0 s) {f : Field} (hf : gs.all f.apart = true := by decide +kernel)
    (hp : ∀ u r, part { u with regs := r } = part u := by intros; rfl) : Keeps part gs s0 (s.wrap f) := h.wr hf hp

theorem Keeps.drawn (h : Keeps part gs s0 s) (hp : ∀ u n, part { u with free := n } = part u := by intros; rfl) :
    Keeps part gs s0 s.drawn := h.update (hp ..)

/-! ### Events that take no last-resort slot -/

/-- A field outside the words of the recorder. -/
def Field.offRecorderWords (g : Field) : Bool := decide (g.addr + 4 * g.words ≤ 0x500000) || decide (0x600000 ≤ g.addr)

/-- A write of the recorder's words leaves every other field. -/
theorem State.rd_wr_recorderWord (s : State) {f g : Field} (hg : g.offRecorderWords = true) (v : Nat)
    (hf : 0x500000 ≤ f.addr := by decide +kernel) (hf' : f.addr + 4 * f.words ≤ 0x600000 := by decide +kernel) :
    (s.wr f v).rd g = s.rd g := by
  simp only [Field.offRecorderWords, Bool.or_eq_true, decide_eq_true_eq] at hg
  obtain h | h := hg
  · exact s.rd_wr_apart v (Field.apart_of_above (by omega))
  · exact s.rd_wr_apart v (Field.apart_of_below (by omega))

theorem State.rd_setRcd_recorderWord (s : State) {g : Field} (hg : g.offRecorderWords = true) (r : Recorder) :
    (s.setRcd r).rd g = s.rd g := State.rd_wr_recorderWord _ hg _

/-- An event other than the death of an area stays in the recorder's words (R241, R257). -/
theorem State.rd_raise_living (s : State) {g : Field} (hg : g.offRecorderWords = true) {code : Nat}
    (hc : code ≠ evStrataAreaDead) (source : Nat) (payload : List Byte) :
    (s.raise code source payload).rd g = s.rd g := by
  have hsupp (f : Field) (hf : 0x500000 ≤ f.addr) (hf' : f.addr + 4 * f.words ≤ 0x600000) :
      ((s.suppress code).count f).rd g = s.rd g :=
    (State.rd_wr_recorderWord _ hg _ hf hf').trans (s.rd_setRcd_recorderWord hg _)
  unfold State.raise
  split; · rfl
  split; · rfl
  split; · exact s.rd_wr_recorderWord hg _
  split; · exact hsupp _ (by decide) (by decide)
  split
  · exact s.rd_setRcd_recorderWord hg _
  · exact hsupp _ (by decide) (by decide)

/-- With room in the queue and a token, an event waits (R241). -/
theorem State.raise_room {code : Nat} (hc : s.rcd.closed = false) (hr : s.core.running = true) (hd : s.recDead = false)
    (hq : s.rcd.queue.length < 64) (ht : s.hasToken code = true) (hg : s.rcd.gather = none) (source : Nat)
    (payload : List Byte) : (s.raise code source payload).rcd.queue = s.rcd.queue ++ [s.stamp code source payload] := by
  have hroom : ¬64 ≤ s.rcd.queue.length := by omega
  simp [State.raise, hc, hr, hd, ht, hg, hroom]

theorem State.onlyWords.wr {l : List Nat} (h : s.onlyWords t l) {f : Field} {v : Nat} (hf : f.words = 1 := by decide +kernel)
    (hl : f.addr ∈ l := by decide +kernel) : s.onlyWords (t.wr f v) l := ⟨State.regsOnly.wr h.1, h.2.wr hf hl⟩

theorem State.onlyWords.ite {l : List Nat} {c : Prop} [Decidable c] (ht : s.onlyWords t l) (hu : s.onlyWords u l) :
    s.onlyWords (if c then t else u) l := by
  split <;> assumption

theorem State.onlyWords.refl (s : State) (l : List Nat) : s.onlyWords s l := ⟨rfl, fun _ _ => rfl⟩

end Sys2Proof.Machine
end

section
/-!
Bedrock's supply: the switch, the measurement of VBAT, and the power-on reset (R333, R334, R337, R346).
-/

namespace Sys2Proof.Machine
variable {s t : State}

/-! ### The supply switch (R333, R346) -/

theorem State.toBat_main (h : s.onBat = false) :
    s.toBat = (s.wr Fld.BK_STATUS_SUPPLY 0x96).count Fld.BK_STATUS_SWITCHES := if_neg (by simp [h])

/-- The supply shows VMAIN again. -/
def State.mainShown (s : State) : State := s.wr Fld.BK_STATUS_SUPPLY 0xC3

theorem State.mainShown_rd (s : State) {g : Field} (hg : Fld.BK_STATUS_SUPPLY.apart g = true := by decide +kernel) :
    s.mainShown.rd g = s.rd g := s.rd_wr_apart _ hg

/-- In LEVEL mode the return of VMAIN ends PWRON. -/
theorem State.toMain_bat (h : s.onBat = true) : s.toMain =
    if s.rd Fld.BK_PWRON_CFG_MODE = 0 then s.mainShown.wrB Fld.BK_STATUS_PWRON false else s.mainShown := by
  rw [State.toMain, if_neg (by simp [h]), ← s.mainShown_rd]
  rfl

theorem State.toMain_supply (h : s.onBat = true) : s.toMain.rd Fld.BK_STATUS_SUPPLY = 0xC3 := by
  have hm : s.mainShown.rd Fld.BK_STATUS_SUPPLY = 0xC3 := State.rd_wr_same ..
  rw [State.toMain_bat h]
  split
  · rw [State.rd_wrB_apart _ _ (by decide), hm]
  · exact hm

theorem State.toMain_pwron (h : s.onBat = true) : s.toMain.flag Fld.BK_STATUS_PWRON =
    (s.flag Fld.BK_STATUS_PWRON && s.rd Fld.BK_PWRON_CFG_MODE != 0) := by
  rw [State.toMain_bat h]
  split
  next hm => rw [State.flag_wrB_same _ _ _ rfl, hm]; simp
  next hm => rw [State.flag_congr s.mainShown_rd]; simp [hm]

set_option Elab.async false in
theorem State.toMain_only (h : s.onBat = true) : s.onlyWords s.toMain [Adr.BK_STATUS] := by
  rw [State.toMain_bat h]
  exact .ite (.wr (.wr (.refl s _))) (.wr (.refl s _))

/-! ### The measurement of VBAT (R337) -/

/-- A measurement is taken: 60 s after the one before, its value shown. -/
def State.vbatTaken (s : State) (mv : Nat) : State :=
  let t := s.until (s.bk.vbatAt.elim 0 (· + 60000))
  ({ t with bk := { t.bk with vbatAt := some t.now } } : State).wr Fld.BK_VBAT_MV mv

/-- VBAT_LOW is set, with its event. -/
def State.vbatFell (s : State) (mv : Nat) : State :=
  ((s.vbatTaken mv).wrB Fld.BK_STATUS_VBAT_LOW true).raise evVbatLow 0xFF (beBytes 2 mv)

theorem State.vbatTaken_rd (s : State) (mv : Nat) {g : Field} (hg : Fld.BK_VBAT_MV.apart g = true := by decide +kernel) :
    (s.vbatTaken mv).rd g = s.rd g := State.rd_wr_apart _ _ hg

/-- The three outcomes of a measurement on the main supply. -/
theorem State.vbat_main (h : s.onBat = false) (mv : Nat) : s.vbat mv =
    if mv < 2200 then if s.flag Fld.BK_STATUS_VBAT_LOW then s.vbatTaken mv else s.vbatFell mv
    else if 2300 < mv then (s.vbatTaken mv).wrB Fld.BK_STATUS_VBAT_LOW false else s.vbatTaken mv := by
  rw [State.vbat, if_neg (by simp [h]), ← State.flag_congr (s.vbatTaken_rd mv (g := Fld.BK_STATUS_VBAT_LOW))]
  rfl

/-- A property of each of the three outcomes. -/
theorem State.vbat_cases (h : s.onBat = false) (mv : Nat) {P : State → Prop} (h0 : P (s.vbatTaken mv))
    (h1 : s.flag Fld.BK_STATUS_VBAT_LOW = false → mv < 2200 → P (s.vbatFell mv))
    (h2 : P ((s.vbatTaken mv).wrB Fld.BK_STATUS_VBAT_LOW false)) : P (s.vbat mv) := by
  rw [State.vbat_main h]
  by_cases hlow : mv < 2200
  · rw [if_pos hlow]
    by_cases hf : s.flag Fld.BK_STATUS_VBAT_LOW = true
    · rwa [if_pos hf]
    · rw [if_neg hf]
      exact h1 (by simpa using hf) hlow
  · rw [if_neg hlow]
    split <;> assumption

/-- What a measurement leaves beside the recorder. -/
theorem State.vbat_keeps (h : s.onBat = false) (mv : Nat) :
    (s.vbat mv).now = max s.now (s.bk.vbatAt.elim 0 (· + 60000)) ∧
      (s.vbat mv).bk = { s.bk with vbatAt := some (s.vbat mv).now } ∧ (s.vbat mv).str = s.str ∧ (s.vbat mv).led = s.led ∧
      (s.vbat mv).flash = s.flash := by
  refine State.vbat_cases h mv (P := fun t => t.now = max s.now (s.bk.vbatAt.elim 0 (· + 60000)) ∧
    t.bk = { s.bk with vbatAt := some t.now } ∧ t.str = s.str ∧ t.led = s.led ∧ t.flash = s.flash) ?_ (fun _ _ => ?_) ?_ <;>
    simp [State.vbatFell, State.vbatTaken, State.until]

theorem State.rd_vbatFell (s : State) (mv : Nat) {g : Field} (hg : g.offRecorderWords = true := by decide +kernel) :
    (s.vbatFell mv).rd g = ((s.vbatTaken mv).wrB Fld.BK_STATUS_VBAT_LOW true).rd g :=
  State.rd_raise_living _ hg (by decide) _ _

theorem State.vbat_shows (h : s.onBat = false) {mv : Nat} (hmv : mv < 2 ^ 16) : (s.vbat mv).rd Fld.BK_VBAT_MV = mv := by
  have htaken : (s.vbatTaken mv).rd Fld.BK_VBAT_MV = mv := (State.rd_wr_same ..).trans (Nat.mod_eq_of_lt hmv)
  refine State.vbat_cases h mv (P := fun t => t.rd Fld.BK_VBAT_MV = mv) htaken (fun _ _ => ?_) ?_
  · rw [State.rd_vbatFell, State.rd_wrB_apart _ _ (by decide), htaken]
  · rw [State.rd_wrB_apart _ _ (by decide), htaken]

theorem State.vbat_low (h : s.onBat = false) (mv : Nat) : (s.vbat mv).flag Fld.BK_STATUS_VBAT_LOW =
    (decide (mv < 2200) || (s.flag Fld.BK_STATUS_VBAT_LOW && decide (mv ≤ 2300))) := by
  have htaken : (s.vbatTaken mv).flag Fld.BK_STATUS_VBAT_LOW = s.flag Fld.BK_STATUS_VBAT_LOW :=
    State.flag_congr (s.vbatTaken_rd mv)
  have hfell : (s.vbatFell mv).flag Fld.BK_STATUS_VBAT_LOW = true := by
    rw [State.flag_congr (s.rd_vbatFell mv), State.flag_wrB_same _ _ _ rfl]
  rw [State.vbat_main h]
  split
  next hlow =>
    split
    next hf => simp [htaken, hf, hlow]
    next => simp [hfell, hlow]
  next hlow =>
    split
    next hhigh => simp [State.flag_wrB_same, hlow, hhigh, show Fld.BK_STATUS_VBAT_LOW.width = 1 from rfl]
    next hhigh => simp [htaken, hlow, Nat.le_of_not_lt hhigh]

/-- Without a new VBAT_LOW no event is offered. -/
theorem State.vbat_quiet (h : s.onBat = false) {mv : Nat} (hq : s.flag Fld.BK_STATUS_VBAT_LOW = true ∨ 2200 ≤ mv) :
    (s.vbat mv).rcd = s.rcd := by
  refine State.vbat_cases h mv (P := fun t => t.rcd = s.rcd) rfl (fun hf hlow => ?_) rfl
  exact absurd hq (by simp [hf, hlow])

/-- A new VBAT_LOW waits in the intake, where it has room. -/
theorem State.vbat_raises (h : s.onBat = false) {mv : Nat} (hf : s.flag Fld.BK_STATUS_VBAT_LOW = false) (hlow : mv < 2200)
    (hr : s.core.running = true) (hc : s.rcd.closed = false) (hd : s.recDead = false) (hq : s.rcd.queue.length < 64)
    (ht : s.hasToken evVbatLow = true) (hg : s.rcd.gather = none) :
    ∃ e, (s.vbat mv).rcd.queue = s.rcd.queue ++ [e] ∧ e.code = evVbatLow ∧ e.payload = beBytes 2 mv := by
  have hrd (g : Field) (hv : Fld.BK_VBAT_MV.apart g = true) (hs : Fld.BK_STATUS_VBAT_LOW.apart g = true) :
      ((s.vbatTaken mv).wrB Fld.BK_STATUS_VBAT_LOW true).rd g = s.rd g := by
    rw [State.rd_wrB_apart _ _ hs, s.vbatTaken_rd mv hv]
  have hd' : ((s.vbatTaken mv).wrB Fld.BK_STATUS_VBAT_LOW true).recDead = false := by
    rw [State.recDead, hrd _ (by decide) (by decide)]
    exact hd
  have ht' : ((s.vbatTaken mv).wrB Fld.BK_STATUS_VBAT_LOW true).hasToken evVbatLow = true := by
    rw [State.hasToken, hrd _ (by decide) (by decide)]
    exact ht
  rw [State.vbat_main h, if_pos hlow, if_neg (by simp [hf])]
  have hroom := State.raise_room (s := (s.vbatTaken mv).wrB Fld.BK_STATUS_VBAT_LOW true) hc hr hd' hq ht' hg 0xFF
    (beBytes 2 mv)
  exact ⟨_, hroom, rfl, rfl⟩

/-! ### The power-on reset (R334) -/

/-- The BK area and Bedrock's own state are at their reset values. -/
def State.bkCleared (s : State) : State := { s with regs := s.regs.filter fun x => !inBk x.1, bk := {} }

theorem State.bkCleared_word (s : State) {a : Nat} (h : 0xA00000 ≤ a) (h' : a < 0xB00000) :
    s.bkCleared.word a = resetWord a := by
  have hin : inBk a = true := by simp [inBk, h, h']
  exact (storeGet_filter (p := fun a => !inBk a)).trans (by simp [hin])

/-- The tamper flags are clear too. -/
def State.flagsCleared (s : State) : State :=
  ((s.bkCleared.wr Fld.TMP_STICKY_ALL 0).wr Fld.TMP_LIGHT_SENSOR 0).wr Fld.TMP_PENDING_PEND 0

theorem State.bedrockReset_eq (s : State) :
    s.bedrockReset = s.flagsCleared.refreshRtcValid.encSettle.refreshTamperAlert := rfl

theorem Keeps.alert {α : Type} {part : State → α} {gs : List Field} {s0 : State} (h : Keeps part gs s0 s) {f : Field} {b : Bool}
    (hf : gs.all f.apart = true := by decide +kernel) (hi : gs.all Fld.SYS_IRQ_STAT_ALERT.apart = true := by decide +kernel)
    (hs : gs.all Fld.SYS_STATUS_ALERT.apart = true := by decide +kernel)
    (hp : ∀ u r, part { u with regs := r } = part u := by intros; rfl) : Keeps part gs s0 (s.alert f b) := by
  unfold State.alert
  extract_lets t u
  have ht : Keeps part gs s0 t := .wrB h hf hp
  have hu : Keeps part gs s0 u := .ite (.irq ht hi hp) ht
  exact .wrB hu hs hp

theorem State.flagsCleared_parts (s : State) : (s.flagsCleared.refreshRtcValid.bk, s.flagsCleared.refreshRtcValid.str,
    s.flagsCleared.refreshRtcValid.flash, s.flagsCleared.refreshRtcValid.led, s.flagsCleared.refreshRtcValid.core,
    s.flagsCleared.refreshRtcValid.spi) = ({}, s.str, s.flash, s.led, s.core, s.spi) := by
  simp only [State.refreshRtcValid, State.flagsCleared, State.wrB, State.wr_bk, State.wr_str, State.wr_flash, State.wr_led,
    State.wr_core, State.wr_spi]
  rfl

/-- What is left of a Bedrock power-on reset once its flags are clear. -/
abbrev porFields : List Field :=
  [Fld.BK_STATUS_BKP_LOST, Fld.TMP_STICKY_ALL, Fld.TMP_LIGHT_SENSOR, Fld.TMP_PENDING_PEND, Fld.SYS_TIME_RTC_VALID]

set_option Elab.async false in
theorem State.porSettled_keeps (s : State) :
    Keeps (fun s => (s.bk, s.str, s.flash, s.led, s.core, s.spi)) porFields s s.encSettle.refreshTamperAlert := by
  unfold State.refreshTamperAlert State.encSettle State.refreshActive
  exact .wrB (.alert (.wr (.update (.refl s))))

theorem State.bkCleared_bkpLost (s : State) : s.bkCleared.flag Fld.BK_STATUS_BKP_LOST = true := by
  have hw : s.bkCleared.word 0xA00000 = resetWord 0xA00000 := s.bkCleared_word (by decide) (by decide)
  have hrd : s.bkCleared.rd Fld.BK_STATUS_BKP_LOST = State.reset.rd Fld.BK_STATUS_BKP_LOST := by
    simp [State.rd, Fld.BK_STATUS_BKP_LOST, Field.words, wordsAt, hw]
    rfl
  rw [State.flag_congr hrd]
  decide

theorem State.flagsCleared_bkpLost (s : State) : s.flagsCleared.flag Fld.BK_STATUS_BKP_LOST = true := by
  unfold State.flagsCleared
  rw [State.flag_wr_apart (by decide), State.flag_wr_apart (by decide), State.flag_wr_apart (by decide),
    State.bkCleared_bkpLost]

theorem State.keepsWords.alert {s0 : State} {l : List Nat} (h : s0.keepsWords s l) {f : Field} {b : Bool}
    (hf : f.words = 1 := by decide +kernel) (hl : f.addr ∈ l := by decide +kernel) (hi : Adr.SYS_IRQ_STAT ∈ l := by decide +kernel)
    (hs : Adr.SYS_STATUS ∈ l := by decide +kernel) : s0.keepsWords (s.alert f b) l := by
  unfold State.alert
  exact .wrB (.ite (.wrB (.wrB h hf hl) rfl hi) (.wrB h hf hl)) rfl hs

/-- The words of the reset outside the BK area. -/
def porWords : List Nat :=
  [Adr.TMP_STICKY, Adr.TMP_LIGHT, Adr.TMP_PENDING, Adr.SYS_TIME, Adr.TMP_ACTIVE, Adr.SYS_ALERT, Adr.SYS_IRQ_STAT,
    Adr.SYS_STATUS, Adr.TMP_STATUS]

theorem porWords_below : ∀ a ∈ porWords, a < 0xA00000 := by decide +kernel

theorem State.flagsCleared_words (s : State) : s.bkCleared.keepsWords s.flagsCleared.refreshRtcValid porWords := by
  unfold State.refreshRtcValid State.flagsCleared
  exact .wrB (.wr (.wr (.wr (.of_regs rfl))))

theorem State.porSettled_words (s : State) : s.keepsWords s.encSettle.refreshTamperAlert porWords := by
  unfold State.refreshTamperAlert State.encSettle State.refreshActive
  exact .wrB (.alert (.wr (.of_regs rfl)))

theorem State.bedrockReset_words (s : State) : s.bkCleared.keepsWords s.bedrockReset porWords := fun a ha =>
  (s.flagsCleared.refreshRtcValid.porSettled_words a ha).trans (s.flagsCleared_words a ha)

/-- Settles O19: the switch and the measurement as the updates they are, the reset by `State.bedrockReset_eq`. The first
measurement of a power-up is made at once (notes/assumptions/109.md). -/
theorem bedrockSupply : Obligations.BedrockSupply := by
  unfold Obligations.BedrockSupply
  refine ⟨⟨fun s h => ⟨s.toBat, rfl, ?bat⟩, fun s h => ⟨s.toMain, rfl, ?main⟩⟩, fun s mv => ⟨fun h => ⟨s.vbat mv.toNat, rfl, ?vbat⟩,
    fun h => congrArg Host.Outcome.next (if_pos h)⟩, fun s => ⟨s.bedrockReset, rfl, ?por⟩⟩
  case bat =>
    rw [State.toBat_main h]
    refine ⟨?_, ?_, .wr (.wr (.refl s _))⟩
    · rw [State.rd_count_apart _ _ (by decide), State.rd_wr_same]
      rfl
    · rw [State.rd_count_same, State.rd_wr_apart _ _ (by decide)]
      rfl
  case main => exact ⟨State.toMain_supply h, State.toMain_pwron h, State.toMain_only h⟩
  case vbat =>
    obtain ⟨hnow, hbk, hstr, hled, hflash⟩ := State.vbat_keeps h mv.toNat
    exact ⟨State.vbat_shows h mv.isLt, State.vbat_low h _, State.vbat_quiet h,
      fun hf hlow hr hc hd hq ht hg => State.vbat_raises h hf hlow hr hc hd hq ht hg, hnow, hbk, hstr, hled, hflash⟩
  case por =>
    rw [State.bedrockReset_eq]
    have hk := s.flagsCleared.refreshRtcValid.porSettled_keeps
    have hvalid : s.flagsCleared.refreshRtcValid.flag Fld.SYS_TIME_RTC_VALID = false := by
      rw [State.refreshRtcValid, State.flag_wrB_same _ _ _ rfl, State.flagsCleared_bkpLost]
      simp
    have hrd {g : Field} (hg : Fld.SYS_TIME_RTC_VALID.apart g = true) :
        s.flagsCleared.refreshRtcValid.rd g = s.flagsCleared.rd g := State.rd_wrB_apart _ _ hg
    obtain ⟨hbk, hstr, hflash, hled, hcore, hspi⟩ : _ ∧ _ ∧ _ ∧ _ ∧ _ ∧ _ := by
      simpa only [Prod.mk.injEq] using hk.part.trans s.flagsCleared_parts
    refine ⟨hbk, ?_, fun a ha ha' => ?_, ?_, ?_, ?_, hk.flag.trans hvalid, hstr, hflash, hled, hcore, hspi⟩
    · rw [hk.flag, State.flag_congr (hrd (by decide)), State.flagsCleared_bkpLost]
    · have hout : a ∉ porWords := fun hm => by
        have := porWords_below a hm
        omega
      rw [← State.bedrockReset_eq, s.bedrockReset_words a hout, s.bkCleared_word ha ha']
    · rw [hk.rd _ (by decide), hrd (by decide), State.flagsCleared, State.rd_wr_apart _ _ (by decide),
        State.rd_wr_apart _ _ (by decide), State.rd_wr_same]
      rfl
    · rw [hk.rd _ (by decide), hrd (by decide), State.flagsCleared, State.rd_wr_apart _ _ (by decide), State.rd_wr_same]
      rfl
    · rw [hk.rd _ (by decide), hrd (by decide), State.flagsCleared, State.rd_wr_same]
      rfl

end Sys2Proof.Machine
end

section
/-!
The RTC: the calendar's second, halt and load, the shadows of a path, the automatic set and the trim window (R338 to R344), and
what a command's transaction leaves of Bedrock.
-/

namespace Sys2Proof.Machine
variable {α : Type} {part : State → α} {gs : List Field} {s0 s t u : State}

theorem Keeps.raiseLiving (h : Keeps part gs s0 s) {code source : Nat} {payload : List Byte}
    (hc : code ≠ evStrataAreaDead := by decide +kernel) (hg : gs.all Field.offRecorderWords = true := by decide +kernel)
    (hp : part (s.raise code source payload) = part s := by simp) : Keeps part gs s0 (s.raise code source payload) :=
  h.trans ⟨hp, fun g hm => s.rd_raise_living (List.all_eq_true.1 hg g hm) hc _ _⟩

/-- Where the whole of a register reads 0, each of its fields does. -/
theorem State.rd_of_all_zero {f g : Field} (h : s.rd f = 0) (hlo : f.lo = 0 := by rfl)
    (hw : f.width = 32 * f.words := by rfl) (ha : g.addr = f.addr := by rfl) (hg : g.words = f.words := by rfl) :
    s.rd g = 0 := by
  have hall : wordsAt s.word f.addr f.words = 0 := by
    rw [State.rd, bitsOf, hlo, pow_zero, Nat.div_one, hw, Nat.mod_eq_of_lt (wordsAt_lt _ _ _)] at h
    exact h
  rw [State.rd, ha, hg, hall]
  simp [bitsOf]

/-! ### The calendar (R338) -/

/-- The calendar's fields. -/
abbrev calendarFields : List Field :=
  [Fld.RTC_YEAR_VALUE, Fld.RTC_MONTH_VALUE, Fld.RTC_DAY_VALUE, Fld.RTC_HOUR_VALUE, Fld.RTC_MIN_VALUE, Fld.RTC_SEC_VALUE]

theorem State.rtcFields_congr (h : ∀ g ∈ calendarFields, t.rd g = s.rd g) : t.rtcFields = s.rtcFields := by
  unfold State.rtcFields
  rw [h _ (by decide), h _ (by decide), h _ (by decide), h _ (by decide), h _ (by decide), h _ (by decide)]

/-- The time of day of a loaded calendar. -/
theorem State.setRtc_time (s : State) {n : Nat} (h : n < rtcEnd) : (s.setRtc n).rd Fld.RTC_SEC_VALUE = n % 60 ∧
    (s.setRtc n).rd Fld.RTC_MIN_VALUE = n / 60 % 60 ∧ (s.setRtc n).rd Fld.RTC_HOUR_VALUE = n / 3600 % 24 := by
  have hsec : 2 ^ Fld.RTC_SEC_VALUE.width = 65536 := rfl
  have hmin : 2 ^ Fld.RTC_MIN_VALUE.width = 65536 := rfl
  have hhour : 2 ^ Fld.RTC_HOUR_VALUE.width = 65536 := rfl
  have hminutes : n % 86400 / 60 = n / 60 % 1440 := Nat.mod_mul_right_div_self n 60 1440
  have hhours : n % 86400 / 3600 = n / 3600 % 24 := Nat.mod_mul_right_div_self n 3600 24
  have hfits (m : Nat) {k : Nat} (hk : 0 < k) (hk' : k ≤ 65536) : m % k % 65536 = m % k :=
    Nat.mod_eq_of_lt ((Nat.mod_lt m hk).trans_le hk')
  simp only [State.setRtc, if_pos h]
  refine ⟨?_, ?_, ?_⟩
  · rw [State.rd_wr_apart _ _ (by decide), State.rd_wr_same, hsec, hfits _ (by decide) (by decide)]
    exact Nat.mod_mod_of_dvd n (by decide)
  · rw [State.rd_wr_apart _ _ (by decide), State.rd_wr_apart _ _ (by decide), State.rd_wr_same, hmin,
      hfits _ (by decide) (by decide), hminutes]
    exact Nat.mod_mod_of_dvd _ (by decide)
  · rw [State.rd_wr_apart _ _ (by decide), State.rd_wr_apart _ _ (by decide), State.rd_wr_apart _ _ (by decide),
      State.rd_wr_same, hhour, hhours]
    exact hfits _ (by decide) (by decide)

/-- A load of the calendar leaves the parts beside the registers, and the fields of control. -/
theorem Keeps.setRtc (h : Keeps part gs s0 s) {n : Nat}
    (hg : ∀ f ∈ Fld.RTC_WDAY_WDAY :: calendarFields, gs.all f.apart = true := by decide +kernel)
    (hp : ∀ u r, part { u with regs := r } = part u := by intros; rfl) : Keeps part gs s0 (s.setRtc n) := by
  have hw {u : State} (hu : Keeps part gs s0 u) {f : Field} (hf : f ∈ Fld.RTC_WDAY_WDAY :: calendarFields) {v : Nat} :
      Keeps part gs s0 (u.wr f v) := hu.wr (hg f hf) hp
  unfold State.setRtc
  exact hw (hw (hw (hw (hw (hw (hw h (by decide)) (by decide)) (by decide)) (by decide)) (by decide)) (by decide)) (by decide)

/-! ### A roll-over of the prescaler (R338, R340) -/

/-- The prescaler has rolled over. -/
def State.rolled (s : State) : State := { s with bk := s.bk.rollOver s.now }

/-- The fields of the time of day. -/
abbrev timeOfDay : List Field := [Fld.RTC_SEC_VALUE, Fld.RTC_MIN_VALUE, Fld.RTC_HOUR_VALUE]

/-- What the alarms of a new second leave: the time of day, and what is beside Bedrock. -/
theorem Keeps.alarm (h : Keeps (fun s => (s.bk.secAt, s.str, s.led)) timeOfDay s0 s) {n : Nat} :
    Keeps (fun s => (s.bk.secAt, s.str, s.led)) timeOfDay s0 (s.alarm n) := by
  unfold State.alarm
  extract_lets t u x
  have ht : Keeps (fun s => (s.bk.secAt, s.str, s.led)) timeOfDay s0 t := .wr h
  have hu : Keeps (fun s => (s.bk.secAt, s.str, s.led)) timeOfDay s0 u := .wr ht
  have hv : Keeps (fun s => (s.bk.secAt, s.str, s.led)) timeOfDay s0 { u with bk := { x with pwronAt := u.now } } :=
    .update hu
  exact .ite (.ite (.wrB hv) hu) (.raiseLiving ht)

theorem Keeps.alarms (h : Keeps (fun s => (s.bk.secAt, s.str, s.led)) timeOfDay s0 s) :
    Keeps (fun s => (s.bk.secAt, s.str, s.led)) timeOfDay s0 s.alarms := by
  unfold State.alarms
  extract_lets v
  have hv : Keeps (fun s => (s.bk.secAt, s.str, s.led)) timeOfDay s0 v := .ite (.alarm h) h
  exact .ite (.alarm hv) hv

theorem State.rtcTick_running (h : s.halted = false) : s.rtcTick = (s.rolled.setRtc (s.rtcFields + 1)).alarms := by
  have hn : ¬s.rolled.halted = true := by
    change ¬s.halted = true
    simp [h]
  exact if_neg hn

/-- A second passes during a halt. -/
def State.haltSecond (s : State) : State :=
  (if s.bk.held = [] then s.rolled else s.rolled.wr Fld.RTC_HALT_PEND (min (s.rd Fld.RTC_HALT_PEND + 1) 255)).wr
    Fld.RTC_HALT_HALT_S (s.rd Fld.RTC_HALT_HALT_S + 1)

set_option Elab.async false in
theorem State.rtcTick_halted (h : s.halted = true) (hs : s.rd Fld.RTC_HALT_HALT_S < 255) : s.rtcTick = s.haltSecond :=
  (if_pos h).trans (if_neg (by change ¬255 < s.rd Fld.RTC_HALT_HALT_S + 1; omega))

theorem Keeps.ptpSeed (h : Keeps part gs s0 s) (hp : ∀ u p, part { u with ptp := p } = part u := by intros; rfl) :
    Keeps part gs s0 s.ptpSeed := by
  unfold State.ptpSeed
  exact .ite h (.update h (hp ..))

theorem State.ptpSeed_regs (s : State) : s.ptpSeed.regs = s.regs := by
  unfold State.ptpSeed
  split <;> rfl

theorem State.haltSecond_words (s : State) : s.keepsWords s.haltSecond [Adr.RTC_HALT] := by
  unfold State.haltSecond
  exact .wr (.ite (.of_regs rfl) (.wr (.of_regs rfl)))

theorem State.haltSecond_bk (s : State) : s.haltSecond.bk = s.bk.rollOver s.now := by
  unfold State.haltSecond
  split <;> rfl

/-- A second of the running calendar that is loaded, its alarms done. -/
def State.runSecond (s : State) : State := (s.rolled.setRtc (s.rtcFields + 1)).alarms.ptpSeed

theorem State.runSecond_keeps (s : State) :
    Keeps (fun s => (s.bk.secAt, s.str, s.led)) timeOfDay (s.rolled.setRtc (s.rtcFields + 1)) s.runSecond :=
  .ptpSeed (.alarms (.refl _))

theorem State.rolled_parts (s : State) (n : Nat) : (s.rolled.setRtc n).bk.secAt = s.now ∧
    (s.rolled.setRtc n).str = s.str ∧ (s.rolled.setRtc n).led = s.led := by
  have hk : Keeps (fun s => (s.bk.secAt, s.str, s.led)) [] s.rolled (s.rolled.setRtc n) := .setRtc (.refl _)
  obtain ⟨hat, hstr, hled⟩ : _ ∧ _ ∧ _ := by simpa only [Prod.mk.injEq] using hk.part
  exact ⟨hat, hstr, hled⟩

theorem State.ptpSeed_bk (s : State) : s.ptpSeed.bk = s.bk := by
  unfold State.ptpSeed
  split <;> rfl

/-- A second of a halt leaves every field outside RTC_HALT. -/
theorem State.haltSecond_rd (s : State) {g : Field}
    (h : ∀ a ∈ [Adr.RTC_HALT], a < g.addr ∨ g.addr + 4 * g.words ≤ a) : s.haltSecond.ptpSeed.rd g = s.rd g :=
  (s.haltSecond_words.sameRegs s.haltSecond.ptpSeed_regs).rd h

theorem State.haltSecond_counts (s : State) (h : s.rd Fld.RTC_HALT_HALT_S < 255) :
    s.haltSecond.ptpSeed.rd Fld.RTC_HALT_HALT_S = s.rd Fld.RTC_HALT_HALT_S + 1 := by
  rw [State.rd_of_regs s.haltSecond.ptpSeed_regs, State.haltSecond, State.rd_wr_same]
  exact Nat.mod_eq_of_lt (show _ < 256 by omega)

/-- Settles O20: a running second loads the next calendar value, whose alarms leave the time of day; a halted one counts. -/
theorem rtcSecond : Obligations.RtcSecond := by
  unfold Obligations.RtcSecond
  refine fun s => ⟨fun hh hend => ⟨s.runSecond, ?_, ?running⟩, fun hh hs => ⟨s.haltSecond.ptpSeed, ?_, ?halted⟩⟩
  · exact congrArg (fun t : State => Host.Outcome.next t.ptpSeed) (State.rtcTick_running hh)
  case running =>
    obtain ⟨hsec, hmin, hhour⟩ := s.rolled.setRtc_time hend
    obtain ⟨hat, hstr, hled⟩ := s.rolled_parts (s.rtcFields + 1)
    obtain ⟨hat', hstr', hled'⟩ : _ ∧ _ ∧ _ := by simpa only [Prod.mk.injEq] using s.runSecond_keeps.part
    have hrd := s.runSecond_keeps.rd
    exact ⟨(hrd _ (by decide)).trans hsec, (hrd _ (by decide)).trans hmin, (hrd _ (by decide)).trans hhour, hat'.trans hat,
      hstr'.trans hstr, hled'.trans hled⟩
  · exact congrArg (fun t : State => Host.Outcome.next t.ptpSeed) (State.rtcTick_halted hh hs)
  case halted =>
    have hcal : ∀ g ∈ Fld.RTC_CTRL_HALTACK :: calendarFields, ∀ a ∈ [Adr.RTC_HALT], a < g.addr ∨ g.addr + 4 * g.words ≤ a := by
      decide
    have hrd : ∀ g ∈ Fld.RTC_CTRL_HALTACK :: calendarFields, s.haltSecond.ptpSeed.rd g = s.rd g :=
      fun g hg => s.haltSecond_rd (hcal g hg)
    exact ⟨s.haltSecond_counts hs, State.rtcFields_congr fun g hg => hrd g (List.mem_cons_of_mem _ hg),
      (State.flag_congr (hrd _ (by decide))).trans hh, s.haltSecond.ptpSeed_bk.trans s.haltSecond_bk,
      s.haltSecond_words.sameRegs s.haltSecond.ptpSeed_regs⟩

/-! ### The shadows of a path (R339) -/

theorem State.rtcRead_copies {p : Path} {i : Nat} (h : s.rtcHeld p = none) (hi : i ≠ 7) : (s.rtcRead p i).2 =
    s.setPath p { s.path p with rtcShadow := some (s.now, (List.range 8).map s.rtcLive) } := by
  simp [State.rtcRead, h, hi]

theorem State.rtcRead_year (s : State) (p : Path) : (s.rtcRead p 7).2 = s.rtcRelease p := by
  unfold State.rtcRead
  cases hh : s.rtcHeld p with
  | some ws => rfl
  | none => cases p <;> rfl

set_option Elab.async false in
theorem exec_rtcShadowRead (hr : s.core.running = true) (p : Path) (r : Fin 8) :
    exec (.rtcShadowRead p r) s = .next (s.rtcRead p r.val).2 := congrArg Host.Outcome.next (if_pos hr)

theorem State.rtcExpire_some {p : Path} {x : Nat × List Word} (h : (s.path p).rtcShadow = some x) :
    s.rtcExpire p = (s.until (x.1 + 2)).setPath p { s.path p with rtcShadow := none } := by
  simp [State.rtcExpire, h, State.rtcRelease]

theorem State.rtcExpire_none {p : Path} (h : (s.path p).rtcShadow = none) : s.rtcExpire p = s := by
  simp [State.rtcExpire, h]

/-! ### The automatic set (R343) -/

/-- The RTC set by itself to ledger time. -/
def State.autoSet (s : State) : State :=
  (((s.wrS Fld.RTC_DRIFT_DRIFT (((s.rtcMs : Int) - s.ledNowMs) * 32768 / 1000)).setRtc (s.ledNowMs / 1000)).wrB Fld.RTC_CTRL_SET
    true).refreshRtcValid

theorem State.rtcAuto_sets (h : s.rd Fld.SYS_TIME_TIME_SRC = 2) (hh : s.halted = false)
    (hd : 1000 ≤ ((s.rtcMs : Int) - s.ledNowMs).natAbs) : s.rtcAuto = s.autoSet := by
  have hnot : ¬((s.rtcMs : Int) - s.ledNowMs).natAbs < 1000 := by omega
  simp [State.rtcAuto, h, hh, hnot, State.autoSet]

theorem State.autoSet_regsOnly (s : State) : s.regsOnly s.autoSet := by
  unfold State.autoSet State.refreshRtcValid
  exact .wrB (.wrB (.setRtc (.wrS (.refl s))))

/-! ### The trim window (R344) -/

/-- Before the first cycle of a window no correction has been made. -/
theorem trimDone_nonpos (w : Word) {c : Int} (h : c ≤ 0) : trimDone w c = 0 := by
  simp [trimDone, Int.toNat_of_nonpos h]

/-- A window's begin leaves the prescaler's count. -/
theorem State.trimWindow_phase (s : State) : s.trimWindow.bk.phase s.sinceRoll = s.bk.phase s.sinceRoll := by
  simp only [State.trimWindow, Bedrock.phase]
  rw [trimDone_nonpos (s.word Adr.RTC_TRIM) (by omega), trimDone_nonpos (s.word Adr.RTC_TRIM) (by omega)]
  omega

/-- Settles O22: the shadows by what is held, the others as the updates they are. -/
theorem rtcReadAndTimers : Obligations.RtcReadAndTimers := by
  unfold Obligations.RtcReadAndTimers
  refine ⟨fun s p => ⟨fun r hr hh h7 => ?copy, fun hr => ⟨_, exec_rtcShadowRead hr p 7, s.rtcRead_year p⟩,
    fun x hx => congrArg Host.Outcome.next (State.rtcExpire_some hx),
    fun hx => congrArg Host.Outcome.next (State.rtcExpire_none hx)⟩,
    fun s hsrc hh hend hd => ⟨s.rtcAuto, rfl, ?auto⟩, fun s hp => ⟨s.pwronEnd, rfl, ?pwron⟩,
    fun s => ⟨s.trimWindow, rfl, rfl, rfl, s.trimWindow_phase, rfl⟩⟩
  case copy => rw [exec_rtcShadowRead hr, State.rtcRead_copies hh h7]
  case auto =>
    rw [State.rtcAuto_sets hsrc hh hd]
    obtain ⟨hsec, hmin, -⟩ :=
      (s.wrS Fld.RTC_DRIFT_DRIFT (((s.rtcMs : Int) - s.ledNowMs) * 32768 / 1000)).setRtc_time hend
    refine ⟨?_, ?_, ?_, s.autoSet_regsOnly⟩
    · rw [State.autoSet, State.refreshRtcValid, State.flag_wrB_apart (by decide), State.flag_wrB_same _ _ _ rfl]
    · rw [State.autoSet, State.refreshRtcValid, State.rd_wrB_apart _ _ (by decide), State.rd_wrB_apart _ _ (by decide), hsec]
    · rw [State.autoSet, State.refreshRtcValid, State.rd_wrB_apart _ _ (by decide), State.rd_wrB_apart _ _ (by decide), hmin]
  case pwron =>
    rw [State.pwronEnd, if_neg (by simp [hp])]
    exact ⟨State.flag_wrB_same _ _ _ rfl, .wr (.refl _ _)⟩

end Sys2Proof.Machine
end

section
/-!
What a command's transaction leaves beside the ledger, Strata and the recorder: `commitSpared` lists the fields the statements below
read across it. Then the RTC's halt and load, and CLR_BKP_LOST (R335, R340, R341).
-/

namespace Sys2Proof.Machine
variable {s0 s t u : State} {p : Path}

/-! ### What a command's transaction leaves -/

/-- The fields read across a transaction. -/
abbrev commitSpared : List Field :=
  [Fld.RTC_CTRL_SET, Fld.PWR_BUSY_DOMAINS, Fld.PWR_ON_ON, Fld.SYS_STATUS_STATE, Fld.SYS_STATUS_LOCKED, Fld.CFG_STATUS_LOADER,
    Fld.CFG_LOAD_STAT_RESULT]

/-- The parts beside the ledger, Strata and the recorder. -/
abbrev State.besideLedger (s : State) :=
  (s.core, s.bk, s.pwr, s.ldr, s.flash, s.tmp, s.fuses, s.now, s.sec)

/-- A transaction leaves the other parts and the fields of `commitSpared`. -/
abbrev CommitLeaves (s t : State) : Prop := Keeps State.besideLedger commitSpared s t

theorem CommitLeaves.refreshTariff (h : CommitLeaves s0 s) : CommitLeaves s0 s.refreshTariff := by
  unfold State.refreshTariff
  extract_lets _ _ _ _ t
  have ht : CommitLeaves s0 t := .wrB (.wrB (.wr (.wr h)))
  split
  · exact ht
  · exact .wrS (.wr (.wr (.wr (.wrB (.wrB ht)))))

theorem CommitLeaves.setTimeSrc (h : CommitLeaves s0 s) {v} : CommitLeaves s0 (s.setTimeSrc v) := by
  unfold State.setTimeSrc
  exact .ite (.wr h) (.irq (.wr h))

/-- The fields of a channel's totals. -/
theorem commitSpared_apart {F : Nat → Field} {n k : Nat} (hk : k < n)
    (hF : ∀ i < n, commitSpared.all (F i).apart = true := by decide +kernel) : commitSpared.all (F k).apart = true := hF k hk

theorem CommitLeaves.refresh (h : CommitLeaves s0 s) : CommitLeaves s0 s.refresh := by
  unfold State.refresh
  exact .refreshTariff (.setTimeSrc (.foldl (.wr (.wr (.wr (.wr (.wr (.wr (.wr (.wr (.wr (.wr (.wr (.wr (.wr (.wr (.wrS
    (.wrB (.wr (.wr h)))))))))))))))))) fun _ _ hk hu => .wr hu (commitSpared_apart (List.mem_range.1 hk))))

theorem CommitLeaves.showLive (h : CommitLeaves s0 s) : CommitLeaves s0 s.showLive := by
  have hl : CommitLeaves s0 { s with led := { s.led with live := s.led.com } }.refresh := CommitLeaves.refresh (.update h)
  unfold State.showLive
  generalize { s with led := { s.led with live := s.led.com } }.refresh = u at hl ⊢
  exact hl.update

set_option Elab.async false in
theorem CommitLeaves.maybeCompact (h : CommitLeaves s0 s) : CommitLeaves s0 s.maybeCompact := by
  unfold State.maybeCompact
  exact .ite (.wrB (.update h)) h

theorem CommitLeaves.commitTxn (h : CommitLeaves s0 s) {us x} : CommitLeaves s0 (s.commitTxn us x) := by
  unfold State.commitTxn State.refreshJournal
  exact .maybeCompact (.wr (.wr (.wrB (.wr (.wr (.wr (.update h)))))))

theorem CommitLeaves.copyDone (h : CommitLeaves s0 s) : CommitLeaves s0 s.copyDone := by
  unfold State.copyDone
  split
  · exact h
  next c cs _ =>
    have hu : CommitLeaves s0 { s with str := copyHome s.fuses.uid s.str c.entry, led := { s.led with copies := cs } } :=
      h.update
    exact .maybeCompact (.wr (.wr (.wrB (.ite (.count hu) hu))))

theorem CommitLeaves.snapDone (h : CommitLeaves s0 s) : CommitLeaves s0 s.snapDone := by
  unfold State.snapDone
  generalize s.led.copies.length = n
  induction n generalizing s with
  | zero => exact h
  | succ n ih => exact ih (.ite (CommitLeaves.copyDone h) h)

theorem CommitLeaves.markBank (h : CommitLeaves s0 s) {f : BankFail} : CommitLeaves s0 (s.markBank f) := by
  unfold State.markBank
  extract_lets _ _ _ t2 _ t3 _ _ t6
  have h3 : CommitLeaves s0 t3 := .wr (.wr (.wr (.update h)))
  have h6 : CommitLeaves s0 t6 := .wr (.wr (.ite (.count h3) h3))
  exact .ite (.wr h6) (.ite (.wr h6) h6)

/-- A failure of one bank of the ledger's area while both work is marked and raised (R237). -/
theorem CommitLeaves.bankFail (h : s.twoCopies) (i : Fin 2) (c : BitVec 4) :
    CommitLeaves s (s.bankFail { bank := Fin.ofNat 16 i.val, cause := c }) := by
  have ha : (areaOf (Fin.ofNat 16 i.val).val).1 = 0 := by revert i; decide
  by_cases hf : Fin.ofNat 16 i.val ∈ s.str.failed
  · rw [State.bankFail, if_pos hf]
    exact .refl s
  by_cases hc : c = 0
  · rw [State.bankFail, if_neg hf, if_pos hc]
    exact .count (.count (.refl s))
  · rw [State.bankFail_of_alive ha hf hc (s.markBank_alive h i c)]
    exact .raiseLiving (CommitLeaves.markBank (.refl s))

theorem CommitLeaves.meetFault (h : CommitLeaves s0 s) (h2 : s.twoCopies) : CommitLeaves s0 s.meetFault := by
  unfold State.meetFault
  split
  · exact h
  · exact h.trans (CommitLeaves.bankFail h2 _ _)

theorem CommitLeaves.command (h : s.canCommit) (kind : Nat) (f : Build → Build) :
    CommitLeaves s (s.command kind f).2 := by
  obtain ⟨-, ⟨h0, h1⟩, -, hq⟩ := h
  obtain ⟨-, hf⟩ := s.snapDone_kept
  have h2 : s.snapDone.twoCopies := ⟨(copyFailed_congr hf 0 0).trans h0, (copyFailed_congr hf 0 1).trans h1⟩
  have hdrain : s.drain = s := by simp [State.drain, hq]
  have hu : CommitLeaves s s.snapDone.meetFault := .meetFault (.snapDone (.refl s)) h2
  unfold State.command
  rw [hdrain]
  split
  · exact .refl s
  extract_lets w _
  split
  · exact .drawn hu
  · exact .drawn (CommitLeaves.showLive (CommitLeaves.commitTxn hu))

/-! ### The halt (R340) -/

theorem exec_halt (hr : s.core.running = true) {x : Session} (hx : s.session p = some x) :
    exec (.halt p) s = .next (s.rtcHalt p) := by
  refine congrArg Host.Outcome.next ((State.host_of_running hr).trans ?_)
  simp only [State.wRtcCtrl, hx]
  exact if_pos rfl

/-- The halt as it begins. -/
def State.haltBegun (s : State) (p : Path) : State :=
  (((({ s with bk := { s.bk with haltBy := some p, held := [] } } : State).wrB Fld.RTC_CTRL_HALT true).wrB Fld.RTC_CTRL_HALTACK
    true).wrB Fld.RTC_CTRL_HALT_OVF false).wr Fld.RTC_HALT_ALL 0

theorem State.rtcHalt_running (h : s.halted = false) : s.rtcHalt p = s.haltBegun p := if_neg (by simp [h])

theorem State.haltBegun_halted (s : State) (p : Path) : (s.haltBegun p).halted = true := by
  rw [State.halted, State.haltBegun, State.flag_wr_apart (by decide), State.flag_wrB_apart (by decide),
    State.flag_wrB_same _ _ _ rfl]

theorem State.haltBegun_counters (s : State) (p : Path) :
    (s.haltBegun p).rd Fld.RTC_HALT_HALT_S = 0 ∧ (s.haltBegun p).rd Fld.RTC_HALT_PEND = 0 := by
  have hall : (s.haltBegun p).rd Fld.RTC_HALT_ALL = 0 := State.rd_wr_same ..
  exact ⟨State.rd_of_all_zero hall, State.rd_of_all_zero hall⟩

/-! ### A field of the set (R340) -/

theorem exec_rtcFieldWrite (hr : s.core.running = true) {x : Session} (hx : s.session p = some x) (hh : s.halted = true)
    {r : Fin 8} {v : Word} (h0 : r.val ≠ 0) (h4 : r.val ≠ 4) : exec (.rtcFieldWrite p r v) s =
      .next { (if s.bk.held = [] then s.wr Fld.RTC_HALT_PEND 0 else s) with
        bk := { s.bk with held := (r.val, v.toNat % 2 ^ 16) :: s.bk.held.filter fun x => x.1 ≠ r.val } } := by
  refine congrArg Host.Outcome.next ((State.host_of_running hr).trans ?_)
  simp only [State.wRtcField, hx]
  rw [if_neg (by simp [hh, h0]), if_neg h4]
  split <;> rfl

/-! ### The load (R341) -/

set_option Elab.async false in
theorem exec_rtcLoad (hr : s.core.running = true) {x : Session} (hx : s.session p = some x) :
    exec (.rtcLoad p) s = .next (s.rtcLoadBy p x) := by
  refine congrArg Host.Outcome.next ((State.host_of_running hr).trans ?_)
  simp [State.wRtcCtrl, hx]

theorem State.endHalt_halted (s : State) (n : Nat) : (s.endHalt n).halted = false := State.flag_wrB_same _ _ _ rfl

theorem Keeps.endHalt {α : Type} {part : State → α} {gs : List Field} (h : Keeps part gs s0 s) {n : Nat}
    (hg : ∀ f ∈ Fld.RTC_WDAY_WDAY :: calendarFields, gs.all f.apart = true := by decide +kernel)
    (hh : gs.all Fld.RTC_CTRL_HALT.apart = true := by decide +kernel) (ha : gs.all Fld.RTC_CTRL_HALTACK.apart = true := by decide +kernel)
    (hb : ∀ u b, part { u with bk := b } = part u := by intros; rfl)
    (hp : ∀ u r, part { u with regs := r } = part u := by intros; rfl) : Keeps part gs s0 (s.endHalt n) := by
  unfold State.endHalt
  exact .wrB (.wrB (.setRtc (.update h (hb ..)) hg hp) hh hp) ha hp

/-- A set that is refused ends the halt with its code. -/
theorem State.rtcLoadBy_refused {x : Session} {code : Nat} (hh : s.halted = true) (ht : s.setTest p x = .inl code) :
    s.rtcLoadBy p x = ((s.disarm p 0x0020).endHalt s.rtcSeconds).rtcRefused (pathNo p) code := by
  simp [State.rtcLoadBy, hh, ht]

theorem State.rtcRefused_shows (s : State) (n : Nat) {code : Nat} (hc : code < 16) :
    (s.rtcRefused n code).rd Fld.RTC_CTRL_RESULT = code ∧ (s.rtcRefused n code).halted = s.halted ∧
      (s.rtcRefused n code).str = s.str ∧ (s.rtcRefused n code).led = s.led := by
  have hk : Keeps (fun s => (s.str, s.led)) [Fld.RTC_CTRL_RESULT, Fld.RTC_CTRL_HALTACK] (s.wr Fld.RTC_CTRL_RESULT code)
    (s.rtcRefused n code) := .raiseLiving (.refl _)
  obtain ⟨hstr, hled⟩ : _ ∧ _ := by simpa only [Prod.mk.injEq] using hk.part
  refine ⟨?_, hk.flag.trans (State.flag_wr_apart (by decide)), hstr, hled⟩
  rw [hk.rd _ (by decide), State.rd_wr_same]
  exact Nat.mod_eq_of_lt hc

/-- What a set shows before its event: the time loaded, SET and RESULT. -/
def State.rtcShown (s : State) (n : Nat) : State :=
  ((s.endHalt n).wrB Fld.RTC_CTRL_SET true).wr Fld.RTC_CTRL_RESULT 1

theorem State.rtcShown_spec (s : State) {n : Nat} (h : n < rtcEnd) : (s.rtcShown n).halted = false ∧
    (s.rtcShown n).flag Fld.RTC_CTRL_SET = true ∧ (s.rtcShown n).rd Fld.RTC_CTRL_RESULT = 1 ∧
    (s.rtcShown n).rd Fld.RTC_SEC_VALUE = n % 60 ∧ (s.rtcShown n).led = s.led := by
  have hled : Keeps State.led [] s (s.rtcShown n) := .wr (.wrB (.endHalt (.refl s)))
  refine ⟨?_, ?_, State.rd_wr_same .., ?_, hled.part⟩ <;> unfold State.rtcShown
  · rw [State.halted, State.flag_wr_apart (by decide), State.flag_wrB_apart (by decide)]
    exact s.endHalt_halted n
  · rw [State.flag_wr_apart (by decide), State.flag_wrB_same _ _ _ rfl]
  · unfold State.endHalt
    rw [State.rd_wr_apart _ _ (by decide), State.rd_wrB_apart _ _ (by decide), State.rd_wrB_apart _ _ (by decide),
      State.rd_wrB_apart _ _ (by decide), (State.setRtc_time _ h).1]

/-- The entry RTC_SET of a set that passed its tests. -/
def State.setEntry (s : State) (x : Session) (a : Option Armed) (b : Build) : Build :=
  b.audit 0x20 (a.elim x.role (·.roles)) (a.elim (keysOne x.key) (·.keys))
    (beBytes 8 s.rtcSeconds ++ beBytes 8 (s.setSeconds + s.rd Fld.RTC_HALT_PEND) ++ beBytes 1 (if a.isSome then 1 else 0))

/-- The fields a set shows. -/
abbrev setFields : List Field := [Fld.RTC_CTRL_HALTACK, Fld.RTC_CTRL_SET, Fld.RTC_CTRL_RESULT, Fld.RTC_SEC_VALUE]

/-- A set that passes its tests and commits stands as it is shown. -/
theorem State.rtcLoadBy_committed {x : Session} {a : Option Armed} (hh : s.halted = true) (ht : s.setTest p x = .inr a)
    (hc : (s.disarm p 0x0020).command 0x06 (s.setEntry x a) = (true, t)) :
    Keeps (fun s => s.led.com) setFields (t.rtcShown (s.setSeconds + s.rd Fld.RTC_HALT_PEND)) (s.rtcLoadBy p x) := by
  unfold State.setEntry at hc
  simp only [State.rtcLoadBy, hh, ht, hc, Bool.not_true, Bool.false_eq_true, if_false]
  generalize hu : t.rtcShown (s.setSeconds + s.rd Fld.RTC_HALT_PEND) = u
  unfold State.rtcShown at hu
  rw [hu]
  have hled : Keeps (fun s => s.led.com) setFields u { u with led := { u.led with rtcStepOk := a.isSome } } := .update (.refl u)
  unfold State.refreshRtcValid
  exact .ite (.raiseLiving (.wrB hled)) (.drawn (.raiseLiving (.wrB hled)))

/-- The transaction of a set, where the ledger can commit. -/
theorem State.setEntry_commits (hc : s.canCommit) (x : Session) (a : Option Armed) : ∃ t,
    (s.disarm p 0x0020).command 0x06 (s.setEntry x a) = (true, t) ∧ t.led.com.st.aseq = s.led.com.st.aseq + 1 := by
  obtain ⟨h1, h2⟩ := State.command_aseq (hc.disarm 0x0020 (p := p)) 0x06 (f := s.setEntry x a) (k := 1) fun _ => rfl
  exact ⟨_, Prod.ext h1 rfl, h2.trans (by simp [State.disarm])⟩

/-! ### CLR_BKP_LOST (R335) -/

theorem exec_clrBkpLost (hr : s.core.running = true) {x : Session} (hg : s.gate p roleService true = .pass x)
    {t : State} (hc : s.command 0x06 (fun b => b.audit 0x21 x.role (keysOne x.key) []) = (true, t)) : exec (.clrBkpLost p) s =
      .next ((t.wrB Fld.BK_STATUS_BKP_LOST false).wr Fld.BK_CMD_RESULT 1).refreshRtcValid := by
  refine congrArg Host.Outcome.next ((State.host_of_running hr).trans ?_)
  have hmsb : (0x80000000#32).msb = true := rfl
  simp [State.wBkCmd, hmsb, hg, hc]

/-- Settles O21: the halt and a field as the updates they are, the load by `State.rtcLoadBy_committed` and
`State.rtcLoadBy_refused`, CLR_BKP_LOST by its command's transaction. -/
theorem bedrockCommands : Obligations.BedrockCommands := by
  unfold Obligations.BedrockCommands
  refine ⟨fun s p x hr hx => ⟨fun hh => ⟨_, exec_halt hr hx, ?halt⟩, fun r v hh h0 h4 => ⟨_, exec_rtcFieldWrite hr hx hh h0 h4, ?field⟩,
    fun a hh ht hc hend => ⟨_, exec_rtcLoad hr hx, ?set⟩, fun code hh ht hcode => ⟨_, exec_rtcLoad hr hx, ?refused⟩⟩,
    fun s p x hr hg hc => ?clear⟩
  case halt =>
    rw [State.rtcHalt_running hh]
    exact ⟨s.haltBegun_halted p, (s.haltBegun_counters p).1, (s.haltBegun_counters p).2, rfl, .wr (.wr (.wr (.wr (.of_regs rfl)))),
      rfl⟩
  case field =>
    refine ⟨by simp [List.lookup], fun i hi => ?_, ?_⟩
    · have hne : (i == r.val) = false := by simpa using hi
      simp only [List.lookup, hne]
      exact lookup_filter_other hi
    · refine .sameRegs (s := if s.bk.held = [] then s.wr Fld.RTC_HALT_PEND 0 else s) ?_ rfl
      exact .ite (.wr (.of_regs rfl)) (.of_regs rfl)
  case set =>
    obtain ⟨u, hu, haseq⟩ := State.setEntry_commits (p := p) hc x a
    have hk := State.rtcLoadBy_committed hh ht hu
    obtain ⟨hhalt, hset, hres, hsec, hled⟩ := u.rtcShown_spec hend
    refine ⟨hk.flag.trans hhalt, hk.flag.trans hset, (hk.rd _ (by decide)).trans hres, (hk.rd _ (by decide)).trans hsec, ?_⟩
    rw [hk.part, hled, haseq]
  case refused =>
    rw [State.rtcLoadBy_refused hh ht]
    obtain ⟨hres, hhalt, hstr, hled⟩ :=
      State.rtcRefused_shows ((s.disarm p 0x0020).endHalt s.rtcSeconds) (pathNo p) hcode
    have hk : Keeps (fun s => (s.str, s.led)) [] (s.disarm p 0x0020) ((s.disarm p 0x0020).endHalt s.rtcSeconds) :=
      .endHalt (.refl _)
    obtain ⟨hstr', hled'⟩ : _ ∧ _ := by simpa only [Prod.mk.injEq] using hk.part
    refine ⟨hhalt.trans (State.endHalt_halted ..), hres, ?_, ?_⟩
    · rw [hstr, hstr', State.disarm_str]
    · rw [hled, hled']
      simp [State.disarm]
  case clear =>
    obtain ⟨st, t, ht, hcom, haseq, htseq⟩ := s.command_audit_state hc 0x06 0x21 x.role (keysOne x.key) (fun _ => []) id
    refine ⟨_, exec_clrBkpLost hr hg ht, ?_⟩
    have hk : CommitLeaves s t := by
      have h := CommitLeaves.command hc 0x06 fun b => (b.audit 0x21 x.role (keysOne x.key) []).st id
      rwa [ht] at h
    unfold State.refreshRtcValid
    refine ⟨?_, ?_, ?_, ?_, htseq, ?_⟩
    · rw [State.flag_wrB_apart (by decide), State.flag_wr_apart (by decide), State.flag_wrB_same _ _ _ rfl]
    · rw [State.rd_wrB_apart _ _ (by decide), State.rd_wr_same]
      rfl
    · rw [State.flag_wrB_same _ _ _ rfl, State.flag_wr_apart (f := Fld.BK_CMD_RESULT) (by decide),
        State.flag_wrB_apart (by decide), hk.flag, State.flag_wr_apart (by decide), State.flag_wrB_same _ _ _ rfl]
      simp
    · simp [hcom, haseq]
    · simp [hcom]

end Sys2Proof.Machine
end

section
/-!
The Ethernet ports: what a port's queues and PTP's own work leave, then the PHY poll, management frames and ARP (R305, R306, R314).
-/

namespace Sys2Proof.Machine
variable {α : Type} {part : State → α} {gs : List Field} {s0 s t u : State} {n : Fin 2}

/-! ### A port's queues -/

theorem State.rd_setPort (s : State) {n : Fin 2} (x : Port) {g : Field}
    (hg : ∀ q < 8, (Fld.NET_TXQ_STAT_IN_FLIGHT n q).apart g = true := by decide +revert +kernel) : (s.setPort n x).rd g = s.rd g := by
  unfold State.setPort
  extract_lets t
  have hfold (l : List Nat) (hl : ∀ q ∈ l, q < 8) (u : State) :
      (l.foldl (fun s q => s.wr (Fld.NET_TXQ_STAT_IN_FLIGHT n q) (x.held q)) u).rd g = u.rd g := by
    induction l generalizing u with
    | nil => rfl
    | cons q l ih =>
      rw [List.foldl_cons, ih fun k hk => hl k (by simp [hk]), State.rd_wr_apart _ _ (hg q (hl q (by simp)))]
  rw [hfold _ fun q => List.mem_range.1]
  unfold t
  split <;> rfl

/-- A change of a port leaves what is beside the ports and their IN_FLIGHT. -/
theorem Keeps.setPort (h : Keeps part gs s0 s) {x : Port}
    (hg : ∀ g ∈ gs, ∀ q < 8, (Fld.NET_TXQ_STAT_IN_FLIGHT n q).apart g = true := by decide +revert +kernel)
    (ha : ∀ u y, part { u with portA := y } = part u := by intros; rfl)
    (hb : ∀ u y, part { u with portB := y } = part u := by intros; rfl)
    (hr : ∀ u r, part { u with regs := r } = part u := by intros; rfl) : Keeps part gs s0 (s.setPort n x) := by
  refine h.trans ⟨?_, fun g hm => s.rd_setPort x (hg g hm)⟩
  unfold State.setPort
  extract_lets t
  have ht : part t = part s := by
    unfold t
    split
    · exact ha ..
    · exact hb ..
  have hfold (l : List Nat) (u : State) :
      part (l.foldl (fun s q => s.wr (Fld.NET_TXQ_STAT_IN_FLIGHT n q) (x.held q)) u) = part u := by
    induction l generalizing u with
    | nil => rfl
    | cons q l ih => exact (ih _).trans (hr ..)
  exact (hfold _ t).trans ht

set_option Elab.async false in
/-- What a port's engine needs to run. -/
theorem State.portRuns_congr (hc : t.core = s.core) (hp : t.pwr = s.pwr)
    (hf : ∀ g ∈ [Fld.NET_PORT_CFG_ENABLE n, Fld.PWR_ON_ON, stoppedFld n], t.rd g = s.rd g) : t.portRuns n = s.portRuns n := by
  unfold State.portRuns State.domOn
  rw [hc, hp, State.flag_congr (hf _ (by simp)), hf Fld.PWR_ON_ON (by simp), State.flag_congr (hf (stoppedFld n) (by simp))]

/-- A queue's room hangs on the frames of both ports. -/
theorem State.setPort_txRoom (s : State) {x : Port} (hx : x.tx = (s.port n).tx) (hs : x.sending = (s.port n).sending) (q : Nat)
    (hq : q < 8) : (s.setPort n x).txRoom n q = s.txRoom n q := by
  have hd : ∀ n : Fin 2, ∀ q < 8, ∀ k < 8, (Fld.NET_TXQ_STAT_IN_FLIGHT n k).apart (Fld.NET_TXQ_CFG_DEPTH n q) = true := by decide +kernel
  have hreg : (if n = 0 then { s with portA := x } else { s with portB := x }).regsOnly (s.setPort n x) :=
    State.regsOnly.foldl (.refl _) fun _ _ h => .wr h
  have hbuf : (s.setPort n x).freeBuffer = s.freeBuffer := by
    have hb : (s.setPort n x).portA.buffers = s.portA.buffers ∧ (s.setPort n x).portB.buffers = s.portB.buffers := by
      rw [hreg]
      unfold State.port at hx hs
      split
      next h => simp only [h, if_true] at hx hs; simp [Port.buffers, hx, hs]
      next h => simp only [h, if_false] at hx hs; simp [Port.buffers, hx, hs]
    unfold State.freeBuffer
    rw [hb.1, hb.2]
  have hheld : x.held q = (s.port n).held q := by simp [Port.held, hx, hs]
  simp only [State.txRoom, State.port_setPort, hbuf, State.rd_setPort s x (hd n q hq), hheld]

theorem State.setPort_portRuns (s : State) (x : Port) : (s.setPort n x).portRuns n = s.portRuns n := by
  have h : Keeps (fun s => (s.core, s.pwr)) [Fld.NET_PORT_CFG_ENABLE n, Fld.PWR_ON_ON, stoppedFld n] s (s.setPort n x) :=
    .setPort (.refl s)
  obtain ⟨hc, hp⟩ : _ ∧ _ := by simpa only [Prod.mk.injEq] using h.part
  exact State.portRuns_congr hc hp h.rd

/-- A frame that is offered to a running port with room joins its queue (R308). -/
theorem State.netSend_queues {f : TxFrame} (hr : s.portRuns n = true) (hq : s.txRoom n f.queue = true) :
    s.netSend n f = s.setPort n { s.port n with tx := (s.port n).tx ++ [{ f with buffer := s.freeBuffer.getD 0 }] } := by
  simp [State.netSend, hr, hq]

/-- A frame offered leaves what is beside the ports. -/
theorem Keeps.netSend (h : Keeps part gs s0 s) {f : TxFrame}
    (hd : gs.all (Fld.NET_TXQ_STAT_DROP n f.queue).apart = true := by decide +revert +kernel)
    (hg : ∀ g ∈ gs, ∀ q < 8, (Fld.NET_TXQ_STAT_IN_FLIGHT n q).apart g = true := by decide +revert +kernel)
    (ha : ∀ u y, part { u with portA := y } = part u := by intros; rfl)
    (hb : ∀ u y, part { u with portB := y } = part u := by intros; rfl)
    (hr : ∀ u r, part { u with regs := r } = part u := by intros; rfl) : Keeps part gs s0 (s.netSend n f) := by
  unfold State.netSend
  exact .ite h (.ite (.count h hd hr) (.setPort h hg ha hb hr))

/-- Beside the frames that wait, a frame offered leaves its port. -/
theorem State.netSend_port (s : State) (f : TxFrame) :
    (s.netSend n f).port n = { s.port n with tx := ((s.netSend n f).port n).tx } := by
  unfold State.netSend
  split
  · rfl
  split
  · rfl
  · rw [State.port_setPort]

/-! ### PTP leaves its parent (R322, R324) -/

/-- The fields PTP writes as it unlocks and leaves its parent. -/
abbrev ptpFields : List Field :=
  [Fld.PTP_STATUS_LOCKED, Fld.SYS_TIME_PTP_LOCKED, Fld.SYS_IRQ_STAT_TIME, Fld.MT_XREF_RATE, Fld.MT_XREF_SRC,
    Fld.NET_STATUS_TIME_VALID, Fld.PTP_UTC_FROM_ANN, Fld.PTP_UTC_OFFSET, Fld.PTP_UTC_LEAP61, Fld.PTP_UTC_LEAP59,
    Fld.PTP_PARENT_IDENTITY]

/-- A field apart from those. -/
def Field.ptpFree (g : Field) : Bool := g.offRecorderWords && ptpFields.all fun f => f.apart g

/-- The parts beside PTP, the recorder and the corrected timescale. -/
abbrev State.besidePtp (s : State) :=
  (s.led, s.str, s.now, s.core, s.pwr, s.esc, s.gar, s.kept, s.portA, s.portB, s.spi, s.drega)

/-- PTP's own work leaves the other parts and the fields of a list. -/
abbrev PtpLeaves (gs : List Field) (s t : State) : Prop := Keeps State.besidePtp gs s t

theorem ptpFree_apart (hg : gs.all Field.ptpFree = true) {f : Field} (hf : f ∈ ptpFields) : gs.all f.apart = true := by
  simp only [List.all_eq_true, Field.ptpFree, Bool.and_eq_true] at hg ⊢
  exact fun g hm => (hg g hm).2 f hf

theorem ptpFree_off (hg : gs.all Field.ptpFree = true) : gs.all Field.offRecorderWords = true := by
  simp only [List.all_eq_true, Field.ptpFree, Bool.and_eq_true] at hg ⊢
  exact fun g hm => (hg g hm).1

theorem PtpLeaves.ptpUnlock (hg : gs.all Field.ptpFree = true) (h : PtpLeaves gs s0 s) {cause : Nat} :
    PtpLeaves gs s0 (s.ptpUnlock cause) := by
  have hf {f : Field} (hm : f ∈ ptpFields) : gs.all f.apart = true := ptpFree_apart hg hm
  unfold State.ptpUnlock State.rateTrim State.rateFrom State.refreshTimebase
  extract_lets x t w
  have ht : PtpLeaves gs s0 t := .update h
  have hw : PtpLeaves gs s0 w := .irq (.wrB (.wrB ht (hf (by decide))) (hf (by decide))) (hf (by decide))
  exact .ite ht (.raiseLiving (.wrB (.wrB (.wrS (.update hw) (hf (by decide))) (hf (by decide))) (hf (by decide)))
    (hg := ptpFree_off hg))

theorem PtpLeaves.setParent (hg : gs.all Field.ptpFree = true) (h : PtpLeaves gs s0 s) {i : Option (BitVec 80)} {cause : Nat} :
    PtpLeaves gs s0 (s.setParent i cause) := by
  have hf {f : Field} (hm : f ∈ ptpFields) : gs.all f.apart = true := ptpFree_apart hg hm
  unfold State.setParent
  extract_lets u x t
  have ht : PtpLeaves gs s0 t := .update (PtpLeaves.ptpUnlock hg h)
  have hw : PtpLeaves gs s0 (t.wr Fld.PTP_PARENT_IDENTITY (i.elim 0 fun b => b.toNat / 65536)) := .wr ht (hf (by decide))
  refine .ite h ?_
  have hu : PtpLeaves gs s0 (t.wr Fld.PTP_PARENT_IDENTITY (i.elim 0 fun b => b.toNat / 65536)).refreshUtc := by
    unfold State.refreshUtc
    exact .wrB (.wrB (.wrS (.wrB hw (hf (by decide))) (hf (by decide))) (hf (by decide))) (hf (by decide))
  generalize (t.wr Fld.PTP_PARENT_IDENTITY (i.elim 0 fun b => b.toNat / 65536)).refreshUtc = v at hu ⊢
  unfold State.setLeap
  refine .ite ?_ (.update hu)
  split
  · exact hu
  · exact .update hu

theorem PtpLeaves.ptpAlone (hg : gs.all Field.ptpFree = true) (hs : gs.all Fld.PTP_STATUS_STATE.apart = true := by decide +kernel)
    (h : PtpLeaves gs s0 s) {cause : Nat} : PtpLeaves gs s0 (s.ptpAlone cause) := by
  unfold State.ptpAlone State.setPtp
  exact .wr (.update (PtpLeaves.setParent hg (PtpLeaves.ptpUnlock hg h))) hs

theorem PtpLeaves.ptpLeave (hg : gs.all Field.ptpFree = true) (h : PtpLeaves gs s0 s) : PtpLeaves gs s0 s.ptpLeave := by
  unfold State.ptpLeave
  exact .update (PtpLeaves.setParent hg (PtpLeaves.ptpUnlock hg h))

theorem PtpLeaves.ptpMove (hg : gs.all Field.ptpFree = true) (hs : gs.all Fld.PTP_STATUS_STATE.apart = true := by decide +kernel)
    (hb : gs.all Fld.PTP_STATUS_ON_B.apart = true := by decide +kernel) (h : PtpLeaves gs s0 s) {b : Bool} :
    PtpLeaves gs s0 (s.ptpMove b) := by
  unfold State.ptpMove State.setPtp
  exact .wr (.wrB (PtpLeaves.ptpLeave hg h) hb) hs

theorem PtpLeaves.ptpLinkLost (hg : gs.all Field.ptpFree = true) (hs : gs.all Fld.PTP_STATUS_STATE.apart = true)
    (hb : gs.all Fld.PTP_STATUS_ON_B.apart = true) (h : PtpLeaves gs s0 s) {p : Fin 2} : PtpLeaves gs s0 (s.ptpLinkLost p) := by
  unfold State.ptpLinkLost
  extract_lets t
  have ht : PtpLeaves gs s0 t := PtpLeaves.ptpAlone hg hs h
  exact .ite h (.ite (PtpLeaves.ptpMove hg hs hb ht) ht)

/-! ### The poll of the PHY (R306) -/

/-- The fields of a port that the poll shows. -/
abbrev linkFields (n : Fin 2) : List Field := [linkFld n, speedFld n, Fld.NET_PORT_STAT_FLAPS n]

set_option Elab.async false in
theorem linkFields_ptpFree (n : Fin 2) : (linkFields n).all Field.ptpFree = true ∧
    (linkFields n).all Fld.PTP_STATUS_STATE.apart = true ∧ (linkFields n).all Fld.PTP_STATUS_ON_B.apart = true := by
  decide +revert +kernel

theorem PtpLeaves.linkLost (h : PtpLeaves (linkFields n) s0 s) : PtpLeaves (linkFields n) s0 (s.ptpLinkLost n) :=
  .ptpLinkLost (linkFields_ptpFree n).1 (linkFields_ptpFree n).2.1 (linkFields_ptpFree n).2.2 h

theorem PtpLeaves.linkRaise (h : PtpLeaves (linkFields n) s0 s) {code source : Nat} {payload : List Byte}
    (hc : code ≠ evStrataAreaDead := by decide +kernel) : PtpLeaves (linkFields n) s0 (s.raise code source payload) :=
  .raiseLiving h hc (ptpFree_off (linkFields_ptpFree n).1)

/-- What a link shows once it is up or down at a speed. -/
def State.linkShown (s : State) (n : Fin 2) (up : Bool) (speed : Nat) : State :=
  if up then (s.wrB (linkFld n) up).wr (speedFld n) speed else s.wrB (linkFld n) up

theorem State.linkShown_spec (s : State) (n : Fin 2) (up : Bool) {speed : Nat} (hs : speed < 4) :
    (s.linkShown n up speed).flag (linkFld n) = up ∧ (up = true → (s.linkShown n up speed).rd (speedFld n) = speed) ∧
      (s.linkShown n up speed).rd (Fld.NET_PORT_STAT_FLAPS n) = s.rd (Fld.NET_PORT_STAT_FLAPS n) := by
  have hw : (linkFld n).width = 1 ∧ (speedFld n).width = 2 ∧ (speedFld n).apart (linkFld n) = true ∧
      (linkFld n).apart (Fld.NET_PORT_STAT_FLAPS n) = true ∧ (speedFld n).apart (Fld.NET_PORT_STAT_FLAPS n) = true := by
    decide +revert +kernel
  obtain ⟨hl, hsp, hls, hlf, hsf⟩ := hw
  have hlink : (s.wrB (linkFld n) up).flag (linkFld n) = up := State.flag_wrB_same _ _ _ hl
  have hflaps : (s.wrB (linkFld n) up).rd (Fld.NET_PORT_STAT_FLAPS n) = s.rd (Fld.NET_PORT_STAT_FLAPS n) :=
    State.rd_wrB_apart _ _ hlf
  unfold State.linkShown
  split
  next h =>
    refine ⟨(State.flag_wr_apart hls).trans hlink, fun _ => ?_, (State.rd_wr_apart _ _ hsf).trans hflaps⟩
    rw [State.rd_wr_same, hsp]
    exact Nat.mod_eq_of_lt hs
  next h => exact ⟨hlink, fun hu => absurd hu h, hflaps⟩

/-- The port's FLAPS counts a loss. -/
theorem State.flapped_spec (s : State) (n : Fin 2) :
    (s.count (Fld.NET_PORT_STAT_FLAPS n)).rd (Fld.NET_PORT_STAT_FLAPS n) = min (s.rd (Fld.NET_PORT_STAT_FLAPS n) + 1) 0xFFFF ∧
      (s.count (Fld.NET_PORT_STAT_FLAPS n)).flag (linkFld n) = s.flag (linkFld n) := by
  have hw : (Fld.NET_PORT_STAT_FLAPS n).width = 16 ∧ (Fld.NET_PORT_STAT_FLAPS n).apart (linkFld n) = true := by
    decide +revert +kernel
  exact ⟨(State.rd_count_same ..).trans (by simp [hw.1]), State.flag_wr_apart hw.2⟩

/-- A link that goes up or down, or stays: what it shows, and FLAPS counts a loss. -/
theorem State.setLink_spec (s : State) (n : Fin 2) (up : Bool) {speed : Nat} (hs : speed < 4) :
    (s.setLink n up speed).flag (linkFld n) = up ∧ (up = true → (s.setLink n up speed).rd (speedFld n) = speed) ∧
      (s.setLink n up speed).rd (Fld.NET_PORT_STAT_FLAPS n) = (if s.flag (linkFld n) && !up then
        min (s.rd (Fld.NET_PORT_STAT_FLAPS n) + 1) 0xFFFF else s.rd (Fld.NET_PORT_STAT_FLAPS n)) ∧
      (s.setLink n up speed).led = s.led := by
  obtain ⟨hlink, hspeed, hflaps⟩ := s.linkShown_spec n up hs
  have hled : (s.linkShown n up speed).led = s.led := by
    unfold State.linkShown
    split <;> rfl
  unfold State.setLink
  extract_lets was t v x w
  have hv : v = s.linkShown n up speed := rfl
  have hw : PtpLeaves (linkFields n) (s.linkShown n up speed) w := by
    rw [← hv]
    exact .ite (.update (.refl v)) (.refl v)
  have hwled : w.led = s.led := (congrArg (·.1) hw.part).trans hled
  have hwlink : w.flag (linkFld n) = up := (State.flag_congr (hw.rd _ (by simp))).trans hlink
  have hwflaps : w.rd (Fld.NET_PORT_STAT_FLAPS n) = s.rd (Fld.NET_PORT_STAT_FLAPS n) := (hw.rd _ (by simp)).trans hflaps
  have hkept {u : State} (hu : PtpLeaves (linkFields n) w u) (hdown : ¬(s.flag (linkFld n) && !up) = true) :
      u.flag (linkFld n) = up ∧ (up = true → u.rd (speedFld n) = speed) ∧ u.rd (Fld.NET_PORT_STAT_FLAPS n) =
        (if s.flag (linkFld n) && !up then min (s.rd (Fld.NET_PORT_STAT_FLAPS n) + 1) 0xFFFF
          else s.rd (Fld.NET_PORT_STAT_FLAPS n)) ∧ u.led = s.led := by
    rw [if_neg hdown]
    exact ⟨(State.flag_congr (hu.rd _ (by simp))).trans hwlink,
      fun h => (hu.rd _ (by simp)).trans ((hw.rd _ (by simp)).trans (hspeed h)), (hu.rd _ (by simp)).trans hwflaps,
      (congrArg (·.1) hu.part).trans hwled⟩
  by_cases hup : (up && !was) = true
  · rw [if_pos hup]
    refine hkept (.linkRaise (.refl w)) ?_
    simp only [Bool.and_eq_true, Bool.not_eq_true'] at hup
    simp [hup.1]
  rw [if_neg hup]
  by_cases hdown : (was && !up) = true
  · rw [if_pos hdown, if_pos hdown]
    obtain ⟨hcount, hcountlink⟩ := w.flapped_spec n
    have hu : PtpLeaves (linkFields n) (w.count (Fld.NET_PORT_STAT_FLAPS n))
        (((w.count (Fld.NET_PORT_STAT_FLAPS n)).raise evLinkDown n.val []).ptpLinkLost n) := .linkLost (.linkRaise (.refl _))
    refine ⟨(State.flag_congr (hu.rd _ (by simp))).trans (hcountlink.trans hwlink), fun h => absurd hdown (by simp [h]), ?_,
      (congrArg (·.1) hu.part).trans hwled⟩
    rw [hu.rd _ (by simp), hcount, hwflaps]
  · rw [if_neg hdown]
    exact hkept (.refl w) hdown

theorem phyMode_speed (reg5 reg10 : Nat) : (phyMode reg5 reg10).1 < 4 := by
  simp only [phyMode]
  repeat' split
  all_goals simp

theorem linkFields_apart (n : Fin 2) : (linkFields n).all (Fld.NET_PORT_STAT_HALF n).apart = true ∧
    ∀ g ∈ linkFields n, ∀ q < 8, (Fld.NET_TXQ_STAT_IN_FLIGHT n q).apart g = true := by decide +revert +kernel

/-- The poll of a running port while no management frame is in progress. -/
theorem State.phyPoll_spec {reg1 reg5 reg10 : Nat} (hr : s.portRuns n = true) (hb : s.flag (Fld.NET_MDIO_BUSY n) = false) :
    ∃ u : State, s.phyPoll n reg1 reg5 reg10 =
        u.setLink n (decide (reg1 / 4 % 2 = 1) && (phyMode reg5 reg10).2) (phyMode reg5 reg10).1 ∧
      Keeps State.led (linkFields n) s u := by
  unfold State.phyPoll
  rw [if_neg (by simp [hr, hb])]
  exact ⟨_, rfl, .setPort (.ite (.count (.refl s) (linkFields_apart n).1) (.refl s)) (linkFields_apart n).2⟩

/-! ### Management frames (R305) -/

/-- Bits that stand between those above and those below. -/
theorem bitsOf_between {v a x b lo w : Nat} (hv : v = (a * 2 ^ w + x) * 2 ^ lo + b) (hx : x < 2 ^ w) (hb : b < 2 ^ lo) :
    bitsOf v lo w = x := by
  rw [bitsOf, hv, Nat.add_div_of_dvd_right (Nat.dvd_mul_left ..), Nat.div_eq_of_lt hb, Nat.add_zero,
    Nat.mul_div_cancel _ (Nat.two_pow_pos lo)]
  exact Nat.mul_add_mod_of_lt hx

/-- A word that starts a management frame reads its fields. -/
theorem mdioWord_fields (write : Bool) (reg : BitVec 5) (data : BitVec 16) : (mdioWord write reg data).getLsbD 30 = write ∧
    (mdioWord write reg data).msb = true ∧ bitsOf (mdioWord write reg data).toNat 30 1 = write.toNat ∧
    bitsOf (mdioWord write reg data).toNat 16 5 = reg.toNat ∧ bitsOf (mdioWord write reg data).toNat 0 16 = data.toNat := by
  have hr := reg.isLt
  have hd := data.isLt
  have hw := write.toNat_lt
  have hv : (mdioWord write reg data).toNat = 2147483648 + write.toNat * 1073741824 + reg.toNat * 65536 + data.toNat := by
    have hbit : (if write then 2 ^ 30 else 0) = write.toNat * 1073741824 := by cases write <;> rfl
    rw [mdioWord, BitVec.toNat_ofNat, hbit]
    exact Nat.mod_eq_of_lt (by omega)
  have hbit : bitsOf (mdioWord write reg data).toNat 30 1 = write.toNat :=
    bitsOf_between (a := 1) (b := reg.toNat * 65536 + data.toNat) (by rw [hv]; omega) hw (by omega)
  refine ⟨?_, ?_, hbit, ?_, ?_⟩
  · rw [BitVec.getLsbD, Nat.testBit_eq_decide_div_mod_eq]
    exact (congrArg (decide <| · = 1) hbit).trans (by cases write <;> rfl)
  · rw [BitVec.msb_eq_decide, hv]
    exact decide_eq_true (by omega)
  · exact bitsOf_between (a := 1024 + write.toNat * 512) (by rw [hv]; omega) hr hd
  · exact bitsOf_between (a := 32768 + write.toNat * 16384 + reg.toNat) (b := 0) (by rw [hv]; omega) hd (by decide)

/-- The fields of a management frame, in the order a write of NET_MDIO shows them. -/
abbrev mdioFields (n : Fin 2) : List Field :=
  [Fld.NET_MDIO_WRITE n, Fld.NET_MDIO_REG n, Fld.NET_MDIO_DATA n, Fld.NET_MDIO_BUSY n]

theorem mdioFields_apart (n : Fin 2) : (mdioFields n).Pairwise (fun f g => g.apart f = true) ∧
    ∀ g ∈ mdioFields n, ∀ q < 8, (Fld.NET_TXQ_STAT_IN_FLIGHT n q).apart g = true := by
  decide +revert +kernel

set_option Elab.async false in
theorem mdioFields_width (n : Fin 2) : (mdioFields n).map (·.width) = [1, 5, 16, 1] := by decide +revert +kernel

/-- The state in which a management frame has started. -/
def State.mdioStarted (s : State) (n : Fin 2) (write : Bool) (reg : BitVec 5) (data : BitVec 16) : State :=
  ((((s.wr (Fld.NET_MDIO_WRITE n) write.toNat).wr (Fld.NET_MDIO_REG n) reg.toNat).wr (Fld.NET_MDIO_DATA n) data.toNat).wrB
    (Fld.NET_MDIO_BUSY n) true).setPort n { s.port n with mdioRead := !write }

theorem State.mdioStarted_spec (s : State) (n : Fin 2) (write : Bool) (reg : BitVec 5) (data : BitVec 16) :
    (s.mdioStarted n write reg data).flag (Fld.NET_MDIO_BUSY n) = true ∧
      (s.mdioStarted n write reg data).flag (Fld.NET_MDIO_WRITE n) = write ∧
      (s.mdioStarted n write reg data).rd (Fld.NET_MDIO_REG n) = reg.toNat ∧
      (s.mdioStarted n write reg data).rd (Fld.NET_MDIO_DATA n) = data.toNat ∧
      ((s.mdioStarted n write reg data).port n).mdioRead = !write ∧ (s.mdioStarted n write reg data).led = s.led := by
  obtain ⟨hpair, hport⟩ := mdioFields_apart n
  have hwidth := mdioFields_width n
  simp only [mdioFields, List.pairwise_cons, List.mem_cons, List.not_mem_nil, or_false, forall_eq_or_imp, forall_eq] at hpair
  simp only [mdioFields, List.map_cons, List.map_nil, List.cons.injEq, and_true] at hwidth
  obtain ⟨⟨hrw, hdw, hbw⟩, ⟨hdr, hbr⟩, hbd, -⟩ := hpair
  obtain ⟨hw1, hw5, hw16, hwb⟩ := hwidth
  unfold State.mdioStarted
  refine ⟨?_, ?_, ?_, ?_, by rw [State.port_setPort], ?_⟩
  · rw [State.flag_congr (State.rd_setPort _ _ (hport _ (by simp))), State.flag_wrB_same _ _ _ hwb]
  · rw [State.flag_congr (State.rd_setPort _ _ (hport _ (by simp))), State.flag_wrB_apart hbw, State.flag_wr_apart hdw,
      State.flag_wr_apart hrw, State.flag, State.rd_wr_same, hw1]
    cases write <;> rfl
  · rw [State.rd_setPort _ _ (hport _ (by simp)), State.rd_wrB_apart _ _ hbr, State.rd_wr_apart _ _ hdr, State.rd_wr_same, hw5]
    exact Nat.mod_eq_of_lt reg.isLt
  · rw [State.rd_setPort _ _ (hport _ (by simp)), State.rd_wrB_apart _ _ hbd, State.rd_wr_same, hw16]
    exact Nat.mod_eq_of_lt data.isLt
  · have hk : Keeps State.led [] s (s.mdioStarted n write reg data) :=
      .setPort (.wrB (.wr (.wr (.wr (.refl s) rfl) rfl) rfl) rfl)
    exact hk.part

/-- A management frame starts inside a SERVICE session (R305). -/
theorem State.wMdio_starts {p : Path} {x : Session} (write : Bool) (reg : BitVec 5) (data : BitVec 16)
    (hg : s.gate p roleService write = .pass x) (hb : s.flag (Fld.NET_MDIO_BUSY n) = false) :
    (s.wMdio p n (mdioWord write reg data)).2 = s.mdioStarted n write reg data := by
  obtain ⟨h30, h31, hw, hreg, hdata⟩ := mdioWord_fields write reg data
  have hport (u : State) (hu : s.regsOnly u) : u.port n = s.port n := hu.port n
  unfold State.wMdio
  rw [h30, hg, h31]
  simp only [hb, if_true, hw, hreg, hdata, Bool.false_eq_true, if_false]
  rw [hport _ (.wr (.wr (.wr (.refl s))))]
  rfl

/-- The fields that a completion changes. -/
theorem mdioDone_fields (n : Fin 2) :
    (Fld.NET_MDIO_DATA n).apart (Fld.NET_MDIO_BUSY n) = true ∧ (Fld.NET_MDIO_BUSY n).apart (Fld.NET_MDIO_DATA n) = true ∧
      (Fld.NET_MDIO_BUSY n).width = 1 ∧ (Fld.NET_MDIO_DATA n).width = 16 ∧ (Fld.NET_MDIO_BUSY n).words = 1 ∧
      (Fld.NET_MDIO_DATA n).words = 1 ∧ (Fld.NET_MDIO_BUSY n).addr = Adr.NET_MDIO n.val ∧
      (Fld.NET_MDIO_DATA n).addr = Adr.NET_MDIO n.val := by
  decide +revert +kernel

/-- A management frame completes (R305). -/
theorem State.mdioDone_spec {data : BitVec 16} (hb : s.flag (Fld.NET_MDIO_BUSY n) = true) :
    (s.mdioDone n data.toNat).flag (Fld.NET_MDIO_BUSY n) = false ∧
      (s.mdioDone n data.toNat).rd (Fld.NET_MDIO_DATA n) =
        (if (s.port n).mdioRead then data.toNat else s.rd (Fld.NET_MDIO_DATA n)) ∧
      s.onlyWords (s.mdioDone n data.toNat) [Adr.NET_MDIO n.val] := by
  obtain ⟨hdb, hbd, hw1, hw16, hwb, hwd, hab, had⟩ := mdioDone_fields n
  have hbusy : (s.wrB (Fld.NET_MDIO_BUSY n) false).flag (Fld.NET_MDIO_BUSY n) = false := State.flag_wrB_same _ _ _ hw1
  have honly : s.onlyWords (s.wrB (Fld.NET_MDIO_BUSY n) false) [Adr.NET_MDIO n.val] := .wr (.refl s _) hwb (by simp [hab])
  unfold State.mdioDone
  rw [if_neg (by simp [hb])]
  extract_lets t
  by_cases hm : (s.port n).mdioRead = true
  · rw [if_pos hm, if_pos hm]
    refine ⟨(State.flag_wr_apart hdb).trans hbusy, ?_, .wr honly hwd (by simp [had])⟩
    rw [State.rd_wr_same, hw16]
    exact Nat.mod_eq_of_lt data.isLt
  · rw [if_neg hm, if_neg hm]
    exact ⟨hbusy, State.rd_wrB_apart _ _ hbd, honly⟩

/-! ### ARP (R314) -/

theorem Port.setArp_entry {x : Port} {ip : Nat} {e : ArpEntry} (h : x.arpEntry ip = some e) {f : ArpEntry → ArpEntry}
    (hf : ∀ e, (f e).ip = e.ip) : (x.setArp ip fun e => some (f e)).arpEntry ip = some (f e) := by
  unfold Port.arpEntry Port.setArp at *
  dsimp only
  generalize x.arp = l at h
  induction l with
  | nil => simp at h
  | cons a l ih =>
    by_cases ha : a.ip.toNat = ip
    · obtain rfl : a = e := by simpa [List.find?_cons, ha] using h
      simp [ha, hf]
    · have h' : l.find? (fun e => decide (e.ip.toNat = ip)) = some e := by simpa [List.find?_cons, ha] using h
      simpa [List.filterMap_cons, List.find?_cons, ha] using ih h'

/-- An entry that is dropped is gone. -/
theorem Port.setArp_none (x : Port) (ip : Nat) : (x.setArp ip fun _ => none).arpEntry ip = none := by
  unfold Port.arpEntry Port.setArp
  rw [List.find?_eq_none]
  intro e he
  obtain ⟨a, -, ha⟩ := List.mem_filterMap.1 he
  by_cases hip : a.ip.toNat = ip
  · simp [hip] at ha
  · obtain rfl : a = e := by simpa [hip] using ha
    simpa using hip

theorem State.setPort_now (s : State) (n : Fin 2) (x : Port) : (s.setPort n x).now = s.now := by
  have h : Keeps State.now [] s (s.setPort n x) := .setPort (.refl s)
  exact h.part

theorem State.arpAskAgain_now (s : State) (n : Fin 2) (ip tries : Nat) : (s.arpAskAgain n ip tries).now = s.now := by
  have h : Keeps State.now [] s (s.arpAskAgain n ip tries) := .netSend (.setPort (.refl s)) rfl
  exact h.part

/-- An address that is asked for again: its entry, and the request joins the queue of a running port with room. -/
theorem State.arpAskAgain_spec {ip tries : Nat} {e : ArpEntry} (he : (s.port n).arpEntry ip = some e) :
    ((s.arpAskAgain n ip tries).port n).arpEntry ip = some { e with tries, at_ := s.now } ∧
      (s.portRuns n = true → s.txRoom n 2 = true →
        ((s.arpAskAgain n ip tries).port n).tx.length = (s.port n).tx.length + 1) := by
  unfold State.arpAskAgain State.arpAsk
  refine ⟨?_, fun hr hroom => ?_⟩
  · rw [State.netSend_port, State.port_setPort]
    exact Port.setArp_entry he fun _ => rfl
  · have hroom' := (State.setPort_txRoom s (x := (s.port n).setArp ip fun e => some { e with tries, at_ := s.now })
      rfl rfl 2 (by decide)).trans hroom
    rw [State.netSend_queues ((State.setPort_portRuns ..).trans hr) hroom', State.port_setPort, State.port_setPort]
    simp [Port.setArp]

/-- Settles O43: the link by `State.setLink_spec`, a management frame as the updates it is, ARP by `State.arpAskAgain_spec`. The
bits of PHY registers 1, 5 and 10 are PRESUMED (notes/assumptions/8.md). -/
theorem portManagement : Obligations.PortManagement := by
  unfold Obligations.PortManagement
  refine fun s n => ⟨fun reg1 reg5 reg10 hr hb => ?poll, fun p x reg hr hg hb => ?read, fun p x reg data hr hg hb => ?write,
    fun data hb => ⟨_, rfl, State.mdioDone_spec hb⟩, fun ip e he => ⟨fun ht hr hroom => ?refresh, fun ht => ?fresh⟩,
    fun ip e he => ⟨fun h0 h3 => ?retry, fun h3 => ?gone⟩⟩
  case poll =>
    obtain ⟨u, hu, hk⟩ := State.phyPoll_spec (reg1 := reg1.toNat) (reg5 := reg5.toNat) (reg10 := reg10.toNat) hr hb
    obtain ⟨hlink, hspeed, hflaps, hled⟩ := u.setLink_spec n
      (decide (reg1.toNat / 4 % 2 = 1) && (phyMode reg5.toNat reg10.toNat).2) (phyMode_speed reg5.toNat reg10.toNat)
    refine ⟨_, congrArg Host.Outcome.next hu, hlink, hspeed, ?_, hled.trans hk.part⟩
    rw [hflaps, hk.rd _ (by simp), State.flag_congr (hk.rd (linkFld n) (by simp))]
  case read =>
    obtain ⟨hbusy, hw, hreg, -, hread, hled⟩ := s.mdioStarted_spec n false reg 0
    exact ⟨_, congrArg Host.Outcome.next ((State.host_of_running hr).trans (State.wMdio_starts false reg 0 hg hb)), hbusy, hw, hreg,
      hread, hled⟩
  case write =>
    exact ⟨_, congrArg Host.Outcome.next ((State.host_of_running hr).trans (State.wMdio_starts true reg data hg hb)),
      s.mdioStarted_spec n true reg data⟩
  case refresh =>
    have hex : s.arpRefresh n ip.toNat = (s.until (e.at_ + 300000)).arpAskAgain n ip.toNat 1 := by
      simp [State.arpRefresh, he, ht]
    obtain ⟨hentry, hlen⟩ := State.arpAskAgain_spec (s := s.until (e.at_ + 300000)) (tries := 1) he
    refine ⟨_, congrArg Host.Outcome.next hex, State.arpAskAgain_now .., ?_, hlen hr hroom⟩
    rw [hentry, State.arpAskAgain_now]
  case fresh => exact congrArg Host.Outcome.next (by simp [State.arpRefresh, he, ht])
  case retry =>
    have hex : s.arpRetry n ip.toNat = (s.until (e.at_ + 1000)).arpAskAgain n ip.toNat (e.tries + 1) := by
      simp [State.arpRetry, he, h0, h3]
    refine ⟨_, congrArg Host.Outcome.next hex, State.arpAskAgain_now .., ?_⟩
    rw [(State.arpAskAgain_spec (s := s.until (e.at_ + 1000)) he).1, State.arpAskAgain_now]
  case gone =>
    have hex : s.arpRetry n ip.toNat = (s.until (e.at_ + 1000)).setPort n ((s.port n).setArp ip.toNat fun _ => none) := by
      have h0 : e.tries ≠ 0 := by omega
      have h3' : ¬e.tries < 3 := by omega
      simp only [State.arpRetry, he, h0, h3', if_false]
      rfl
    refine ⟨_, congrArg Host.Outcome.next hex, State.setPort_now .., ?_, ?_⟩
    · rw [State.port_setPort]
      exact Port.setArp_none ..
    · rw [State.port_setPort]
      rfl

end Sys2Proof.Machine
end

section
/-!
The PTP port: an announce timeout, fallback and return, a Sync that is sent (R322, R324).
-/

namespace Sys2Proof.Machine
variable {α : Type} {part : State → α} {gs : List Field} {s0 s t u : State} {n : Fin 2}

/-! ### PTP_LOCKED clears (R324) -/

theorem State.ptpUnlock_unlocks (s : State) (cause : Nat) : (s.ptpUnlock cause).flag Fld.SYS_TIME_PTP_LOCKED = false := by
  unfold State.ptpUnlock
  extract_lets x t w
  by_cases hl : t.flag Fld.SYS_TIME_PTP_LOCKED = true
  · rw [if_neg (by simp [hl])]
    have hw : w.flag Fld.SYS_TIME_PTP_LOCKED = false := by
      unfold w
      rw [State.irq, State.flag_wrB_apart (by decide), State.flag_wrB_same _ _ _ rfl]
    refine (Keeps.flag (part := State.led) (gs := [Fld.SYS_TIME_PTP_LOCKED]) (s := w) ?_).trans hw
    unfold State.rateTrim State.rateFrom State.refreshTimebase
    exact .raiseLiving (.wrB (.wrB (.wrS (.update (.refl w)))))
  · rw [if_pos (by simp [hl])]
    simpa using hl

theorem State.setParent_unlocked (h : s.flag Fld.SYS_TIME_PTP_LOCKED = false) (i : Option (BitVec 80)) (cause : Nat) :
    (s.setParent i cause).flag Fld.SYS_TIME_PTP_LOCKED = false := by
  unfold State.setParent
  extract_lets u x t
  split
  · exact h
  have ht : t.flag Fld.SYS_TIME_PTP_LOCKED = false := s.ptpUnlock_unlocks cause
  have hu : Keeps State.led [Fld.SYS_TIME_PTP_LOCKED] t (t.wr Fld.PTP_PARENT_IDENTITY (i.elim 0 fun b => b.toNat / 65536)).refreshUtc := by
    unfold State.refreshUtc
    exact .wrB (.wrB (.wrS (.wrB (.wr (.refl t)))))
  have hleap (v : State) : v.setLeap.flag Fld.SYS_TIME_PTP_LOCKED = v.flag Fld.SYS_TIME_PTP_LOCKED := by
    unfold State.setLeap
    split
    · split <;> rfl
    · rfl
  rw [hleap, hu.flag, ht]

/-- The parent taken is the one given. -/
theorem State.setParent_parent (s : State) (i : Option (BitVec 80)) (cause : Nat) : (s.setParent i cause).ptp.parent = i := by
  unfold State.setParent
  extract_lets u x t
  split
  next h => exact h
  have hu : Keeps (fun s => s.ptp.parent) [] t (t.wr Fld.PTP_PARENT_IDENTITY (i.elim 0 fun b => b.toNat / 65536)).refreshUtc := by
    unfold State.refreshUtc
    exact .wrB (.wrB (.wrS (.wrB (.wr (.refl t)))))
  have hleap (v : State) : v.setLeap.ptp.parent = v.ptp.parent := by
    unfold State.setLeap
    split
    · split <;> rfl
    · rfl
  rw [hleap]
  exact hu.part

/-- PTP is alone: it listens, unlocked, with no parent. -/
theorem State.ptpAlone_spec (s : State) (cause : Nat) : (s.ptpAlone cause).ptpState = ptpListening ∧
    (s.ptpAlone cause).flag Fld.SYS_TIME_PTP_LOCKED = false ∧ (s.ptpAlone cause).ptp.parent = none := by
  unfold State.ptpAlone State.setPtp State.ptpState
  refine ⟨State.rd_wr_same .., ?_, State.setParent_parent ..⟩
  rw [State.flag_wr_apart (by decide)]
  exact State.setParent_unlocked (s.ptpUnlock_unlocks cause) none cause

/-- PTP has moved: it listens on the other port, unlocked, with nothing heard. -/
theorem State.ptpMove_spec (s : State) (b : Bool) : (s.ptpMove b).flag Fld.PTP_STATUS_ON_B = b ∧
    (s.ptpMove b).ptpState = ptpListening ∧ (s.ptpMove b).flag Fld.SYS_TIME_PTP_LOCKED = false ∧
    (s.ptpMove b).ptp.foreign = [] := by
  unfold State.ptpMove State.setPtp State.ptpState
  refine ⟨?_, State.rd_wr_same .., ?_, rfl⟩
  · rw [State.flag_wr_apart (by decide), State.flag_wrB_same _ _ _ rfl]
  · rw [State.flag_wr_apart (by decide), State.flag_wrB_apart (by decide)]
    exact State.setParent_unlocked (s.ptpUnlock_unlocks 4) none 4

/-! ### A message is sent -/

/-- A UDP datagram leaves what is beside the ports. -/
theorem Keeps.udpSend (h : Keeps part gs s0 s) {f : TxFrame} {mac dst sport dport : Nat} {sum : Bool} {payload : List Byte}
    (hd : gs.all (Fld.NET_TXQ_STAT_DROP n f.queue).apart = true)
    (hg : ∀ g ∈ gs, ∀ q < 8, (Fld.NET_TXQ_STAT_IN_FLIGHT n q).apart g = true)
    (ha : ∀ u y, part { u with portA := y } = part u := by intros; rfl)
    (hb : ∀ u y, part { u with portB := y } = part u := by intros; rfl)
    (hn : ∀ u k, part { u with free := k } = part u := by intros; rfl)
    (hr : ∀ u r, part { u with regs := r } = part u := by intros; rfl) :
    Keeps part gs s0 (s.udpSend n f mac dst sport dport sum payload) := by
  unfold State.udpSend
  exact .drawn (.netSend h hd hg ha hb hr) hn

set_option Elab.async false in
/-- A frame that is offered to a running port with room makes its queues longer by one. -/
theorem State.netSend_length {f : TxFrame} (hr : s.portRuns n = true) (hq : s.txRoom n f.queue = true) :
    ((s.netSend n f).port n).tx.length = (s.port n).tx.length + 1 := by
  rw [State.netSend_queues hr hq, State.port_setPort]
  simp

theorem State.port_drawn (s : State) (n : Fin 2) : s.drawn.port n = s.port n := rfl

theorem State.ptpSend_length {type : Nat} {onestep : Option (Nat × Nat)} {follow : Option (Nat × Nat × List Byte)}
    {msg : List Byte} (hr : s.portRuns s.ptpPort = true) (hq : s.txRoom s.ptpPort (if mtEvent type then 0 else 1) = true) :
    ((s.ptpSend type onestep follow msg).port s.ptpPort).tx.length = (s.port s.ptpPort).tx.length + 1 := by
  unfold State.ptpSend State.udpSend
  extract_lets p q f
  by_cases hu : s.flag Fld.PTP_CFG_UDP = true
  · rw [if_pos hu, State.port_drawn]
    exact State.netSend_length hr hq
  · rw [if_neg hu]
    exact State.netSend_length hr hq

/-- What a message sent leaves. -/
theorem Keeps.ptpSend (h : Keeps part gs s0 s) {type : Nat} {onestep : Option (Nat × Nat)}
    {follow : Option (Nat × Nat × List Byte)} {msg : List Byte}
    (hd : ∀ n : Fin 2, ∀ q < 8, gs.all (Fld.NET_TXQ_STAT_DROP n q).apart = true := by decide +kernel)
    (hg : ∀ n : Fin 2, ∀ g ∈ gs, ∀ q < 8, (Fld.NET_TXQ_STAT_IN_FLIGHT n q).apart g = true := by decide +kernel)
    (ha : ∀ u y, part { u with portA := y } = part u := by intros; rfl)
    (hb : ∀ u y, part { u with portB := y } = part u := by intros; rfl)
    (hn : ∀ u k, part { u with free := k } = part u := by intros; rfl)
    (hr : ∀ u r, part { u with regs := r } = part u := by intros; rfl) :
    Keeps part gs s0 (s.ptpSend type onestep follow msg) := by
  unfold State.ptpSend
  extract_lets p q f
  have hq : q < 8 := by
    unfold q
    split <;> decide
  exact .ite (.udpSend h (hd _ _ hq) (hg _) ha hb hn hr) (.netSend h (hd _ _ hq) (hg _) ha hb hr)

/-- The fields an announce timeout reads again. -/
abbrev ptpCfgFields : List Field := [Fld.PTP_CFG_PORT, Fld.PTP_CFG_SLAVE_ONLY]

/-- A Sync leaves its number taken. -/
def State.syncTaken (s : State) : State := { s with ptp := { s.ptp with seqSync := (s.ptp.seqSync + 1) % 65536 } }

/-- A master's Sync is sent. -/
theorem State.ptpEmit_sync (h : s.ptpState = ptpMaster) : ∃ onestep follow msg,
    s.ptpEmit .sync = s.syncTaken.ptpSend mtSync onestep follow msg := by
  unfold State.ptpEmit
  extract_lets one two sync k u
  exact ⟨_, _, _, if_neg (by simp [h])⟩

/-- Settles O46: the timeout by `State.ptpAlone_spec`, a move by `State.ptpMove_spec`, the Sync as the frame it queues. -/
theorem ptpPort : Obligations.PtpPort := by
  unfold Obligations.PtpPort
  refine fun s => ⟨fun hd hp hs => ⟨s.announceTimeout, rfl, ?slave⟩, fun hd hp hb => ⟨s.announceTimeout, rfl, ?fallback⟩,
    fun ha => ?idle, fun a ha hp hb hl hlast => ?back, fun hm => ⟨s.ptpEmit .sync, rfl, ?sync⟩⟩
  case slave =>
    obtain ⟨hstate, hlock, hparent⟩ := s.ptpAlone_spec 2
    have hk : PtpLeaves ptpCfgFields s (s.ptpAlone 2) := .ptpAlone (by decide) (by decide) (.refl s)
    have hport : (s.ptpAlone 2).rd Fld.PTP_CFG_PORT ≠ 2 := by rwa [hk.rd _ (by decide)]
    have hex : s.announceTimeout = s.ptpAlone 2 := by
      simp [State.announceTimeout, hd, hport, hk.flag (g := Fld.PTP_CFG_SLAVE_ONLY), hs]
    rw [hex]
    exact ⟨hstate, hlock, hparent, congrArg (·.1) hk.part⟩
  case fallback =>
    have hk : PtpLeaves [Fld.PTP_CFG_PORT, Fld.PTP_STATUS_ON_B] s (s.ptpAlone 2) := .ptpAlone (by decide) (by decide) (.refl s)
    have hex : s.announceTimeout = (s.ptpAlone 2).ptpMove true := by
      simp [State.announceTimeout, hd, hk.rd Fld.PTP_CFG_PORT (by decide), hp, hk.flag (g := Fld.PTP_STATUS_ON_B), hb]
    obtain ⟨hon, hstate, hlock, -⟩ := (s.ptpAlone 2).ptpMove_spec true
    rw [hex]
    exact ⟨hon, hstate, hlock⟩
  case idle => exact congrArg Host.Outcome.next (by simp [State.ptpReturn, ha])
  case back =>
    have hnow : (s.until (a + 10000)).now ≤ s.ptp.aLast + s.announceMs := hlast
    have hex : s.ptpReturn = (s.until (a + 10000)).ptpMove false := by
      simp only [State.ptpReturn, ha]
      exact if_pos (by simp [State.ptpFallback, hp, hb, hl, hnow])
    obtain ⟨hon, hstate, hlock, hforeign⟩ := (s.until (a + 10000)).ptpMove_spec false
    have hk : PtpLeaves [] (s.until (a + 10000)) ((s.until (a + 10000)).ptpMove false) :=
      .ptpMove (by decide) (by decide) (by decide) (.refl _)
    exact ⟨_, congrArg Host.Outcome.next hex, hon, hstate, hlock, hforeign, congrArg (·.2.2.1) hk.part, congrArg (·.1) hk.part⟩
  case sync =>
    obtain ⟨onestep, follow, msg, hex⟩ := State.ptpEmit_sync hm
    have hk : Keeps (fun s => (s.ptp, s.led)) [Fld.PTP_STATUS_STATE] s.syncTaken
        (s.syncTaken.ptpSend mtSync onestep follow msg) := .ptpSend (.refl _)
    rw [hex]
    exact ⟨congrArg (·.1.seqSync) hk.part, (hk.rd _ (by decide)).trans hm,
      fun hr hq => State.ptpSend_length (s := s.syncTaken) hr hq, congrArg (·.2) hk.part⟩

end Sys2Proof.Machine
end

section
/-!
Transmission and the host's frames (R308 to R311, R325, R328 to R330): a frame goes on the wire and completes, launch times, wraps,
and the transmit buffer of a path.
-/

namespace Sys2Proof.Machine
variable {α : Type} {part : State → α} {gs : List Field} {s0 s t u : State} {n : Fin 2} {p : Path}

/-! ### Paths -/

theorem State.regsOnly.path (h : s.regsOnly t) (p : Path) : t.path p = s.path p :=
  State.path_congr (by rw [h]) (by rw [h]) p

/-- A path's registers as a state's. -/
def State.onPath (s : State) (p : Path) : State := { s with regs := (s.path p).regs }

theorem State.rdP_eq (s : State) (p : Path) (g : Field) : s.rdP p g = (s.onPath p).rd g := rfl

theorem State.onPath_wrP (s : State) (p : Path) (f : Field) (v : Nat) : ((s.wrP p f v).onPath p).regs = ((s.onPath p).wr f v).regs := by
  cases p <;> rfl

/-- A write of a path-local field leaves every path-local field apart from it. -/
theorem State.rdP_wrP_apart (s : State) (p : Path) {f g : Field} (v : Nat) (h : f.apart g = true) :
    (s.wrP p f v).rdP p g = s.rdP p g := by
  rw [State.rdP_eq, State.rdP_eq, State.rd_of_regs (s.onPath_wrP p f v), State.rd_wr_apart _ _ h]

/-! ### A frame goes on the wire (R310, R329) -/

/-- The frame chosen leaves its queue for the wire. -/
def State.onWire (s : State) (n : Fin 2) (f : TxFrame) : State :=
  let t := s.setPort n { s.port n with tx := takeFirst f.queue (s.port n).tx }
  t.setPort n { t.port n with sending := some { f with late := s.txLate f } }

theorem State.txStep_sends {f : TxFrame} (hl : s.linkUp n = true) (hc : s.txChoice n = some f)
    (hlate : (s.txLate f && s.timebase && s.flag (Fld.NET_TXQ_CFG_LATE_POLICY n f.queue)) = false) (k : Nat) :
    s.txStep n (k + 1) = s.onWire n f := by
  simp only [State.txStep, hc, hl, hlate, Bool.not_true, Bool.false_eq_true, if_false]
  rfl

/-- A choice needs a frame that waits. -/
theorem State.txChoice_waits {f : TxFrame} (hc : s.txChoice n = some f) : (s.port n).tx ≠ [] := by
  rintro h
  have hnone : s.txChoice n = none := List.findSome?_eq_none_iff.2 (by simp [h])
  rw [hnone] at hc
  cases hc

theorem State.txStart_sends {f : TxFrame} (hs : (s.port n).sending = none) (hl : s.linkUp n = true)
    (hr : s.esc.restarting.contains (.netEngine n) = false) (hc : s.txChoice n = some f)
    (hlate : (s.txLate f && s.timebase && s.flag (Fld.NET_TXQ_CFG_LATE_POLICY n f.queue)) = false) :
    s.txStart n = s.onWire n f := by
  obtain ⟨k, hk⟩ : ∃ k, (s.port n).tx.length = k + 1 :=
    Nat.exists_eq_add_one_of_ne_zero fun h => State.txChoice_waits hc (List.length_eq_zero_iff.1 h)
  have hruns : s.portRuns n = true := by
    simp only [State.linkUp, Bool.and_eq_true] at hl
    exact hl.1
  unfold State.txStart
  rw [if_neg (by rw [hs, hruns, hr]; decide), hk]
  exact State.txStep_sends hl hc hlate k

set_option Elab.async false in
theorem State.setPort_led (s : State) (n : Fin 2) (x : Port) : (s.setPort n x).led = s.led := by
  have h : Keeps State.led [] s (s.setPort n x) := .setPort (.refl s)
  exact h.part

theorem State.setPort_ptp (s : State) (n : Fin 2) (x : Port) : (s.setPort n x).ptp = s.ptp := by
  have h : Keeps State.ptp [] s (s.setPort n x) := .setPort (.refl s)
  exact h.part

theorem State.setPort_path (s : State) (n : Fin 2) (x : Port) (p : Path) : (s.setPort n x).path p = s.path p := by
  have h : Keeps (fun s => (s.spi, s.drega)) [] s (s.setPort n x) := .setPort (.refl s)
  exact State.path_congr (congrArg (·.1) h.part) (congrArg (·.2) h.part) p

theorem State.onWire_spec (s : State) (n : Fin 2) (f : TxFrame) :
    ((s.onWire n f).port n).sending = some { f with late := s.txLate f } ∧
      ((s.onWire n f).port n).tx = takeFirst f.queue (s.port n).tx ∧ (s.onWire n f).led = s.led := by
  simp only [State.onWire, State.port_setPort, State.setPort_led, and_self]

/-! ### A frame completes (R309) -/

/-- The counters of a completion. -/
def State.txCounted (s : State) (n : Fin 2) (f : TxFrame) (status : Nat) : State :=
  let s := if status = txSentLate || status = txDroppedLate then s.count (Fld.NET_TXQ_STAT_LATE n f.queue) else s
  if status = txDroppedLate then s.count (Fld.NET_TXQ_STAT_DROP n f.queue) else s

theorem State.txCounted_regsOnly (s : State) (n : Fin 2) (f : TxFrame) (status : Nat) : s.regsOnly (s.txCounted n f status) := by
  unfold State.txCounted
  extract_lets u
  have hu : s.regsOnly u := .ite (.wr (.refl s)) (.refl s)
  exact .ite hu.wr hu

theorem State.txDone_eq (s : State) (n : Fin 2) (f : TxFrame) (status : Nat) (ts : PtpTime) : s.txDone n f status ts =
    match f.host with
    | none => s.txCounted n f status
    | some h => (s.txCounted n f status).hostDone h
        (doneWords f.tag.toNat status (if f.tsreq && (status = txSent || status = txSentLate) then some ts else none)) := rfl

theorem State.txDone_port (s : State) (q : Fin 2) (f : TxFrame) (status : Nat) (ts : PtpTime) (n : Fin 2) :
    (s.txDone q f status ts).port n = s.port n := by
  have hc := (s.txCounted_regsOnly q f status).port n
  rw [State.txDone_eq]
  cases f.host with
  | none => exact hc
  | some h => exact (State.port_hostDone ..).trans hc

/-- A completion in a ring with room is its last. -/
theorem State.hostDone_joins {ws : List Word} (h : (s.path p).htxDone.length < 16) :
    ((s.hostDone p ws).path p).htxDone = (s.path p).htxDone ++ [ws] := by
  have hfull : ¬16 ≤ (s.path p).htxDone.length := by omega
  unfold State.hostDone
  simp only [hfull, if_false]
  split
  · rw [State.irq_path, State.path_setPath]
  · rw [State.path_setPath]

theorem State.hostDone_ptp (s : State) (p : Path) (ws : List Word) : (s.hostDone p ws).ptp = s.ptp := by
  unfold State.hostDone
  extract_lets x full t u
  have ht : t.ptp = s.ptp := State.setPath_ptp ..
  have hu : Keeps State.ptp [] t u := .ite (.count (.refl t)) (.refl t)
  have hk : Keeps State.ptp [] t (if p = .spi then u.irq Fld.SYS_IRQ_STAT_HTX else u) := .ite (.irq hu) hu
  exact hk.part.trans ht

theorem State.txDone_ptp (s : State) (n : Fin 2) (f : TxFrame) (status : Nat) (ts : PtpTime) :
    (s.txDone n f status ts).ptp = s.ptp := by
  have hc : (s.txCounted n f status).ptp = s.ptp := by rw [s.txCounted_regsOnly n f status]
  rw [State.txDone_eq]
  cases f.host with
  | none => exact hc
  | some h => exact (State.hostDone_ptp ..).trans hc

/-- A frame that is offered leaves every port but for its queues. -/
theorem State.netSend_wire (s : State) (q : Fin 2) (f : TxFrame) (n : Fin 2) :
    ((s.netSend q f).port n).sending = (s.port n).sending ∧ ((s.netSend q f).port n).sent = (s.port n).sent := by
  by_cases h : q = n
  · subst h
    rw [State.netSend_port]
    exact ⟨rfl, rfl⟩
  · have hport (x : Port) : (s.setPort q x).port n = s.port n := by
      have hreg : (if q = 0 then { s with portA := x } else { s with portB := x }).regsOnly (s.setPort q x) :=
        State.regsOnly.foldl (.refl _) fun _ _ h => .wr h
      rw [hreg.port]
      unfold State.port
      have hq : q = 0 ↔ n ≠ 0 := by omega
      by_cases hn : n = 0 <;> simp [hq, hn]
    have hcount (g : Field) : (s.count g).port n = s.port n := rfl
    unfold State.netSend
    split
    · exact ⟨rfl, rfl⟩
    split
    · rw [hcount]
      exact ⟨rfl, rfl⟩
    · rw [hport]
      exact ⟨rfl, rfl⟩

theorem State.netSend_ptp (s : State) (q : Fin 2) (f : TxFrame) : (s.netSend q f).ptp = s.ptp := by
  have h : Keeps State.ptp [] s (s.netSend q f) := .netSend (.refl s) rfl
  exact h.part

theorem State.ptpSend_wire (s : State) (type : Nat) (onestep : Option (Nat × Nat)) (follow : Option (Nat × Nat × List Byte))
    (msg : List Byte) (n : Fin 2) : ((s.ptpSend type onestep follow msg).port n).sending = (s.port n).sending ∧
      ((s.ptpSend type onestep follow msg).port n).sent = (s.port n).sent ∧
      (s.ptpSend type onestep follow msg).ptp = s.ptp := by
  unfold State.ptpSend State.udpSend
  extract_lets q k f
  split
  · rw [State.port_drawn]
    exact ⟨(State.netSend_wire ..).1, (State.netSend_wire ..).2, State.netSend_ptp ..⟩
  · exact ⟨(State.netSend_wire ..).1, (State.netSend_wire ..).2, State.netSend_ptp ..⟩

/-- What follows an event message leaves the wire and the clock. -/
theorem State.ptpSent_wire (s : State) (f : Nat × Nat × List Byte) (ts : PtpTime) (n : Fin 2) :
    ((s.ptpSent f ts).port n).sending = (s.port n).sending ∧ ((s.ptpSent f ts).port n).sent = (s.port n).sent ∧
      (s.ptpSent f ts).ptp.ns = s.ptp.ns := by
  have hsend {type onestep follow msg} : ((s.ptpSend type onestep follow msg).port n).sending = (s.port n).sending ∧
      ((s.ptpSend type onestep follow msg).port n).sent = (s.port n).sent ∧
      (s.ptpSend type onestep follow msg).ptp.ns = s.ptp.ns := by
    obtain ⟨h1, h2, h3⟩ := s.ptpSend_wire type onestep follow msg n
    exact ⟨h1, h2, congrArg Ptp.ns h3⟩
  unfold State.ptpSent
  extract_lets t
  split
  · exact hsend
  split
  · split
    · split <;> exact ⟨rfl, rfl, rfl⟩
    · exact ⟨rfl, rfl, rfl⟩
  split
  · exact hsend
  · exact ⟨rfl, rfl, rfl⟩

/-- A frame that is sent, before its completion: the clock is set and the wire is free. -/
def State.sentOut (s : State) (n : Fin 2) (f : TxFrame) (ts : PtpTime) : State :=
  let t := (s.setPort n { s.port n with sending := none }).setClock (ptpNs ts)
  t.setPort n { t.port n with sent := f.wire (s.txStamp n ts) }

theorem State.sentOut_spec (s : State) (n : Fin 2) (f : TxFrame) (ts : PtpTime) :
    ((s.sentOut n f ts).port n).sending = none ∧ ((s.sentOut n f ts).port n).sent = f.wire (s.txStamp n ts) ∧
      (s.sentOut n f ts).ptp.ns = ptpNs ts := by
  have hclock (u : State) (k : Nat) : (u.setClock k).port n = u.port n := rfl
  simp only [State.sentOut, State.port_setPort, hclock, State.setPort_ptp, true_and]
  rfl

set_option Elab.async false in
theorem State.sentOut_path (s : State) (n : Fin 2) (f : TxFrame) (ts : PtpTime) (p : Path) :
    (s.sentOut n f ts).path p = s.path p := by
  have hclock (u : State) (k : Nat) : (u.setClock k).path p = u.path p := State.path_congr rfl rfl p
  simp only [State.sentOut, State.setPort_path, hclock]

/-- The status of a frame that was sent. -/
def State.sentStatus (s : State) (n : Fin 2) (f : TxFrame) (ts : PtpTime) : Nat :=
  if f.late || (f.launch && 1000 < -launchDiff f.lt (s.txStamp n ts)) then txSentLate else txSent

theorem State.txComplete_sent {f : TxFrame} (hs : (s.port n).sending = some f) (ts : PtpTime) :
    s.txComplete n .sent ts = match f.follow with
      | some g => ((s.sentOut n f ts).txDone n f (s.sentStatus n f ts) (ptpTime (s.txStamp n ts))).ptpSent g
          (ptpTime (s.txStamp n ts))
      | none => (s.sentOut n f ts).txDone n f (s.sentStatus n f ts) (ptpTime (s.txStamp n ts)) := by
  simp only [State.txComplete, hs]
  rfl

theorem State.txComplete_wire {f : TxFrame} (hs : (s.port n).sending = some f) (ts : PtpTime) :
    ((s.txComplete n .sent ts).port n).sending = none ∧ (s.txComplete n .sent ts).ptp.ns = ptpNs ts ∧
      ((s.txComplete n .sent ts).port n).sent = f.wire (s.txStamp n ts) := by
  obtain ⟨hfree, hwire, hns⟩ := s.sentOut_spec n f ts
  rw [State.txComplete_sent hs]
  cases f.follow with
  | none =>
    dsimp only
    rw [State.txDone_port, State.txDone_ptp]
    exact ⟨hfree, hns, hwire⟩
  | some g =>
    obtain ⟨h1, h2, h3⟩ := State.ptpSent_wire
      ((s.sentOut n f ts).txDone n f (s.sentStatus n f ts) (ptpTime (s.txStamp n ts))) g (ptpTime (s.txStamp n ts)) n
    dsimp only
    rw [h1, h2, h3, State.txDone_port, State.txDone_ptp]
    exact ⟨hfree, hns, hwire⟩

/-- A host's frame sent in time joins the path's ring. -/
theorem State.txComplete_host {f : TxFrame} (hs : (s.port n).sending = some f) (hfollow : f.follow = none)
    (hlate : f.late = false) (hlaunch : f.launch = false) (hp : f.host = some p) (hring : (s.path p).htxDone.length < 16)
    (ts : PtpTime) : ((s.txComplete n .sent ts).path p).htxDone =
      (s.path p).htxDone ++ [doneWords f.tag.toNat txSent (if f.tsreq then some (ptpTime (s.txStamp n ts)) else none)] := by
  have hst : s.sentStatus n f ts = txSent := by simp [State.sentStatus, hlate, hlaunch]
  have hpath : ((s.sentOut n f ts).txCounted n f txSent).path p = s.path p :=
    ((State.txCounted_regsOnly _ n f txSent).path p).trans (s.sentOut_path n f ts p)
  rw [State.txComplete_sent hs, hfollow, hst]
  dsimp only
  rw [State.txDone_eq, hp]
  dsimp only
  rw [State.hostDone_joins (by rwa [hpath]), hpath]
  simp [txSent]

/-! ### Launch times and wraps (R328, R329) -/

theorem markDue_length (l : Nat) (seen : List Nat) (fs : List TxFrame) : (markDue l seen fs).length = fs.length := by
  induction fs generalizing seen with
  | nil => rfl
  | cons f fs ih => simp [markDue, ih]

/-- The clock has come to the next wrap. -/
def State.wrapReached (s : State) : State :=
  let next := (s.ptp.wraps + 1) * 2 ^ 32
  if next ≤ s.ptpNow then s else s.until (s.now + (next - s.ptpNow) / 999500 + 1)

theorem State.wrapReached_spec (s : State) : s.wrapReached.regs = s.regs ∧ s.wrapReached.ptp = s.ptp ∧
    s.wrapReached.led = s.led ∧ s.now ≤ s.wrapReached.now := by
  unfold State.wrapReached
  extract_lets next
  split
  · exact ⟨rfl, rfl, rfl, le_rfl⟩
  · exact ⟨rfl, rfl, rfl, le_max_left ..⟩

/-- The launch timebase wraps now. -/
def State.wrapped (s : State) : State :=
  ({ s with ptp := { s.ptp with wraps := s.ptp.wraps + 1 } } : State).wrap Fld.NET_NS_WRAP_WRAPS

theorem State.nsWrap_eq (s : State) : s.nsWrap = s.wrapReached.wrapped := rfl

theorem State.wrapped_rd (s : State) : s.wrapped.rd Fld.NET_NS_WRAP_WRAPS = (s.rd Fld.NET_NS_WRAP_WRAPS + 1) % 2 ^ 32 :=
  (State.rd_wrap_same ..).trans rfl

theorem State.wrapped_words (s : State) : s.keepsWords s.wrapped [Adr.NET_NS_WRAP] := .wr (.of_regs rfl)

theorem State.wrapped_beside (s : State) : s.wrapped.ptp = { s.ptp with wraps := s.ptp.wraps + 1 } ∧ s.wrapped.now = s.now ∧
    s.wrapped.led = s.led := ⟨rfl, rfl, rfl⟩

theorem State.nsWrap_spec (s : State) : s.nsWrap.rd Fld.NET_NS_WRAP_WRAPS = (s.rd Fld.NET_NS_WRAP_WRAPS + 1) % 2 ^ 32 ∧
    s.nsWrap.ptp = { s.ptp with wraps := s.ptp.wraps + 1 } ∧ s.now ≤ s.nsWrap.now ∧
    s.keepsWords s.nsWrap [Adr.NET_NS_WRAP] ∧ s.nsWrap.led = s.led := by
  obtain ⟨hregs, hptp, hled, hnow⟩ := s.wrapReached_spec
  obtain ⟨hptp', hnow', hled'⟩ := s.wrapReached.wrapped_beside
  have hwords : s.keepsWords s.wrapReached [Adr.NET_NS_WRAP] := .of_regs hregs
  rw [State.nsWrap_eq, State.wrapped_rd, State.rd_of_regs hregs, hptp', hptp, hnow', hled']
  exact ⟨rfl, rfl, hnow, fun a ha => (s.wrapReached.wrapped_words a ha).trans (hwords a ha), hled⟩

/-! ### Host frames (R311, R330) -/

/-- A bit that is set leaves the bits below it. -/
theorem bitsOf_or_two_pow (v : Nat) {lo w k : Nat} (h : lo + w ≤ k) : bitsOf (v ||| 2 ^ k) lo w = bitsOf v lo w := by
  apply Nat.eq_of_testBit_eq
  intro i
  simp only [bitsOf, Nat.testBit_mod_two_pow, Nat.testBit_div_two_pow, Nat.testBit_or, Nat.testBit_two_pow]
  by_cases hi : i < w
  · have hne : ¬k = i + lo := by omega
    simp [hne]
  · simp [hi]

set_option Elab.async false in
/-- GO is set in a command. -/
theorem goBit_msb (v : Word) : (v ||| 0x80000000).msb = true := by
  rw [BitVec.msb_or, show (0x80000000 : Word).msb = true by decide, Bool.or_true]

theorem goBit_port (v : Word) : (v ||| 0x80000000).getLsbD 30 = v.getLsbD 30 := by
  rw [BitVec.getLsbD_or, show (0x80000000 : Word).getLsbD 30 = false by decide, Bool.or_false]

/-- The bits of a command below GO. -/
theorem goBit_bits (v : Word) {lo w : Nat} (h : lo + w ≤ 31) : bitsOf (v ||| 0x80000000).toNat lo w = bitsOf v.toNat lo w := by
  have hto : (v ||| 0x80000000).toNat = v.toNat ||| 2 ^ 31 := by simp [BitVec.toNat_or]
  rw [hto, bitsOf_or_two_pow _ h]

theorem State.htxResult_accepts {q len : Nat} (h : s.htxResult p n q len = 1) :
    s.portRuns n = true ∧ s.txRoom n q = true := by
  unfold State.htxResult at h
  by_cases hbad : (q = 4 || len < 14 || 1514 < len) = true
  · simp [hbad] at h
  rw [if_neg hbad] at h
  by_cases hl : s.linkUp n = true
  · refine ⟨by simp only [State.linkUp, Bool.and_eq_true] at hl; exact hl.1, ?_⟩
    rw [if_neg (by simp [hl])] at h
    by_contra hr
    split at h
    · cases h
    split at h
    · cases h
    rw [if_pos (by simp [hr])] at h
    cases h
  · simp [hl] at h

/-! ### What a write of a path's register leaves of a port -/

theorem State.wrP_portRuns (s : State) (p : Path) (f : Field) (v : Nat) (n : Fin 2) : (s.wrP p f v).portRuns n = s.portRuns n := by
  cases p <;> rfl

theorem State.wrP_txRoom (s : State) (p : Path) (f : Field) (v : Nat) (n : Fin 2) (q : Nat) :
    (s.wrP p f v).txRoom n q = s.txRoom n q := by
  cases p <;> rfl

theorem State.wrP_port (s : State) (p : Path) (f : Field) (v : Nat) (n : Fin 2) : (s.wrP p f v).port n = s.port n := by
  cases p <;> rfl

theorem State.setPath_portRuns (s : State) (p : Path) (x : PathSt) (n : Fin 2) : (s.setPath p x).portRuns n = s.portRuns n := by
  cases p <;> rfl

theorem State.setPath_txRoom (s : State) (p : Path) (x : PathSt) (n : Fin 2) (q : Nat) :
    (s.setPath p x).txRoom n q = s.txRoom n q := by
  cases p <;> rfl

theorem State.setPath_port (s : State) (p : Path) (x : PathSt) (n : Fin 2) : (s.setPath p x).port n = s.port n := by
  cases p <;> rfl

/-! ### A host's frame accepted (R311) -/

/-- What the tests of a host's frame read. -/
theorem State.htxResult_wrP (s : State) (p : Path) {f : Field} (v : Nat) (n : Fin 2) (q len : Nat)
    (hs : f.apart Fld.NET_HTX_LT_SEC_LO = true := by decide +kernel) (hn : f.apart Fld.NET_HTX_LT_NS = true := by decide +kernel) :
    (s.wrP p f v).htxResult p n q len = s.htxResult p n q len := by
  have hlink : (s.wrP p f v).linkUp n = s.linkUp n := by cases p <;> rfl
  have hbase : (s.wrP p f v).timebase = s.timebase := by cases p <;> rfl
  have hnow : (s.wrP p f v).ptpNow = s.ptpNow := by cases p <;> rfl
  have htarget : (s.wrP p f v).htxTarget p = s.htxTarget p := by
    unfold State.htxTarget
    rw [hnow, State.rdP_wrP_apart _ _ _ hs, State.rdP_wrP_apart _ _ _ hn]
  unfold State.htxResult
  rw [hlink, hbase, State.wrP_txRoom, htarget]

/-- The fields of a command of the host's frame are shown. -/
def State.htxShown (s : State) (p : Path) (v : Word) : State :=
  (((s.wrP p Fld.NET_HTX_CMD_PORT (if v.getLsbD 30 then (1 : Fin 2) else 0).val).wrP p Fld.NET_HTX_CMD_QUEUE
    (4 + bitsOf v.toNat 28 2 - 4)).wrP p Fld.NET_HTX_CMD_TSREQ (bitsOf v.toNat 27 1)).wrP p Fld.NET_HTX_CMD_LENGTH
    (bitsOf v.toNat 0 11)

theorem State.htxShown_result (s : State) (p : Path) (v : Word) (n : Fin 2) (q len : Nat) :
    (s.htxShown p v).htxResult p n q len = s.htxResult p n q len := by
  unfold State.htxShown
  rw [State.htxResult_wrP, State.htxResult_wrP, State.htxResult_wrP, State.htxResult_wrP]

theorem State.htxShown_spec (s : State) (p : Path) (v : Word) (n : Fin 2) :
    (s.htxShown p v).portRuns n = s.portRuns n ∧ (∀ q, (s.htxShown p v).txRoom n q = s.txRoom n q) ∧
      (s.htxShown p v).port n = s.port n ∧ (s.htxShown p v).led = s.led :=
  ⟨by simp only [State.htxShown, State.wrP_portRuns], fun q => by simp only [State.htxShown, State.wrP_txRoom],
    by simp only [State.htxShown, State.wrP_port], by simp only [State.htxShown, State.wrP_led]⟩

/-- A host's frame that is accepted, before it is offered: the buffer is empty, RESULT and the tag are shown. -/
def State.htxAccepted (s : State) (p : Path) (tag : Nat) : State :=
  ((s.setPath p { s.path p with htx := [] }).wrP p Fld.NET_HTX_CMD_RESULT 1).wrP p Fld.NET_HTX_CMD_TAG tag

theorem State.htxAccepted_spec (s : State) (p : Path) (tag : Nat) (n : Fin 2) :
    (s.htxAccepted p tag).portRuns n = s.portRuns n ∧ (∀ q, (s.htxAccepted p tag).txRoom n q = s.txRoom n q) ∧
      (s.htxAccepted p tag).port n = s.port n ∧ (s.htxAccepted p tag).led = s.led ∧
      (s.htxAccepted p tag).rdP p Fld.NET_HTX_CMD_RESULT = 1 ∧ ((s.htxAccepted p tag).path p).htx = [] := by
  refine ⟨by simp only [State.htxAccepted, State.wrP_portRuns, State.setPath_portRuns],
    fun q => by simp only [State.htxAccepted, State.wrP_txRoom, State.setPath_txRoom],
    by simp only [State.htxAccepted, State.wrP_port, State.setPath_port],
    by simp only [State.htxAccepted, State.wrP_led, State.setPath_led], ?_, ?_⟩
  · unfold State.htxAccepted
    rw [State.rdP_wrP_apart _ _ _ (by decide), State.rdP_wrP_same]
    rfl
  · unfold State.htxAccepted
    rw [State.wrP_path, State.wrP_path, State.path_setPath]

theorem State.wHtxCmd_accepted {v : Word} (hv : v.msb = true) (hn : (if v.getLsbD 30 then (1 : Fin 2) else 0) = n)
    (h : s.htxResult p n (4 + bitsOf v.toNat 28 2) (bitsOf v.toNat 0 11) = 1) :
    ∃ tag f, (s.wHtxCmd p v).2 = (((s.htxShown p v).htxAccepted p tag).netSend n f).drawn ∧
      f.queue = 4 + bitsOf v.toNat 28 2 ∧ f.bytes.length = bitsOf v.toNat 0 11 ∧ f.host = some p := by
  have hres := (s.htxShown_result p v n (4 + bitsOf v.toNat 28 2) (bitsOf v.toNat 0 11)).trans h
  unfold State.wHtxCmd
  subst hn
  extract_lets n' q len s1 s2 x r s3 tag have_ bytes f
  have hr : r = 1 := hres
  have hs3 : s3.wrP p Fld.NET_HTX_CMD_TAG tag = (s.htxShown p v).htxAccepted p tag := by
    unfold s3
    rw [hr]
    rfl
  rw [if_neg (by simp [hv]), if_neg (by simp [hr])]
  refine ⟨tag, f, ?_, rfl, ?_, rfl⟩
  · rw [hs3]
  · simp only [f, bytes, List.length_take, List.length_append, List.length_replicate]
    omega

/-- A command of a host's frame that is accepted (R311). -/
theorem State.htxGo_accepted {v : Word} (hn : v.getLsbD 30 = decide (n.val = 1))
    (h : s.htxResult p n (4 + bitsOf v.toNat 28 2) (bitsOf v.toNat 0 11) = 1) :
    ∃ t f, (s.wHtxCmd p (v ||| 0x80000000)).2 = t ∧ (t.port n).tx = (s.port n).tx ++ [f] ∧
      f.queue = 4 + bitsOf v.toNat 28 2 ∧ f.bytes.length = bitsOf v.toNat 0 11 ∧ f.host = some p ∧
      t.rdP p Fld.NET_HTX_CMD_RESULT = 1 ∧ (t.path p).htx = [] ∧ t.led = s.led := by
  have hport : (if (v ||| 0x80000000).getLsbD 30 then (1 : Fin 2) else 0) = n := by
    rw [goBit_port, hn]
    fin_cases n <;> rfl
  have hq : bitsOf (v ||| 0x80000000).toNat 28 2 = bitsOf v.toNat 28 2 := goBit_bits v (by decide)
  have hlen : bitsOf (v ||| 0x80000000).toNat 0 11 = bitsOf v.toNat 0 11 := goBit_bits v (by decide)
  obtain ⟨tag, f, hex, hfq, hfl, hfh⟩ := State.wHtxCmd_accepted (goBit_msb v) hport (by rwa [hq, hlen])
  obtain ⟨hruns, hroom⟩ := State.htxResult_accepts h
  obtain ⟨hruns', hroom', hport', hled'⟩ := s.htxShown_spec p (v ||| 0x80000000) n
  generalize s.htxShown p (v ||| 0x80000000) = u at *
  obtain ⟨har, haq, hap, hal, hares, habuf⟩ := u.htxAccepted_spec p tag n
  have hsend := State.netSend_queues (s := u.htxAccepted p tag) (n := n) (f := f) (by rw [har, hruns', hruns])
    (by rw [haq, hroom', hfq, hq, hroom])
  have hpath : ((u.htxAccepted p tag).netSend n f).drawn.path p = (u.htxAccepted p tag).path p := by
    rw [State.drawn_path, hsend, State.setPort_path]
  refine ⟨_, { f with buffer := (u.htxAccepted p tag).freeBuffer.getD 0 }, hex, ?_, hfq.trans (by rw [hq]), hfl.trans hlen, hfh,
    (State.rdP_congr (congrArg PathSt.regs hpath)).trans hares, (congrArg PathSt.htx hpath).trans habuf, ?_⟩
  · rw [State.port_drawn, hsend, State.port_setPort, hap, hport']
  · rw [State.drawn_led, hsend, State.setPort_led, hal, hled']

/-- Settles O44: the frame on the wire by `State.txStart_sends`, its end by `State.txComplete_wire` and
`State.txComplete_host`, the host's command by `State.htxGo_accepted`. -/
theorem transmission : Obligations.Transmission := by
  unfold Obligations.Transmission
  refine fun s n p => ⟨fun f hs hl hr hc hlate => ?start, fun f ts hs => ⟨?cut, ⟨_, rfl, State.txComplete_wire hs ts⟩, fun hfo hla hlau hh hring =>
    ⟨_, rfl, State.txComplete_host hs hfo hla hlau hh hring ts⟩⟩, fun x f fs hf hlaunch hdue => ⟨s.launchDue n x, rfl, ?launch⟩,
    ⟨_, rfl, s.nsWrap_spec⟩, fun d hr hroom => ?data, fun v hr hn h => ?go, fun hr => ?done⟩
  case start => exact ⟨_, congrArg Host.Outcome.next (State.txStart_sends hs hl hr hc hlate), s.onWire_spec n f⟩
  case cut =>
    have hex : s.txComplete n .linkDown ts = (s.setPort n { s.port n with sending := none }).txDone n f txAborted noTime := by
      simp only [State.txComplete, hs]
    refine ⟨_, congrArg Host.Outcome.next hex, ?_, ?_⟩ <;> rw [State.txDone_port, State.port_setPort]
  case launch =>
    have hclock : (s.setClock (ptpNs x)).port n = s.port n := rfl
    unfold State.launchDue
    simp only [State.port_setPort, State.setPort_led, State.setPort_ptp, hclock, hf, markDue_length, true_and]
    exact ⟨by simp [markDue, hlaunch, hdue], rfl, rfl⟩
  case data =>
    refine congrArg Host.Outcome.next ((State.host_of_running hr).trans ?_)
    simp [State.wHtxData, hroom]
  case go =>
    obtain ⟨t, f, hex, h⟩ := State.htxGo_accepted hn h
    exact ⟨t, f, congrArg Host.Outcome.next ((State.host_of_running hr).trans hex), h⟩
  case done =>
    refine ⟨_, congrArg Host.Outcome.next (if_pos hr), ?_, ?_, ?_⟩ <;>
      simp [State.effectRead, State.htxDoneRead, State.setCap]

end Sys2Proof.Machine
end

section
/-!
Reception (R312, R325): frames dropped, frames a host filter takes, and the receive buffer of a path.
-/

namespace Sys2Proof.Machine
variable {α : Type} {part : State → α} {gs : List Field} {s0 s t u : State} {n : Fin 2} {p : Path}

set_option Elab.async false in
theorem State.setClock_rd (s : State) (k : Nat) (g : Field) : (s.setClock k).rd g = s.rd g := rfl

/-- A frame with an FCS error is counted. -/
theorem State.rxFrame_bad (hl : s.linkUp n = true) (bytes : List Byte) (ts : PtpTime) :
    s.rxFrame n bytes false ts = (s.setClock (ptpNs ts)).count (Fld.NET_RX_CNT_ERROR n) := by
  simp [State.rxFrame, hl]

/-- A frame of the host's queues waits, where its queue has room. -/
theorem State.rxPut_waits {i : Nat} (h : ((s.port n).rx.filter fun y => y.1 = 5 + i).length < 8) (f : RxFrame) :
    s.rxPut n (5 + i) f = ((s.setPort n { s.port n with rx := (s.port n).rx ++ [(5 + i, f)] }).wrap
      (Fld.NET_RXQ_STAT_COUNT n (5 + i))).irq Fld.SYS_IRQ_STAT_HRX := by
  have hdepth : ¬rxDepth (5 + i) ≤ ((s.port n).rx.filter fun y => y.1 = 5 + i).length := by
    unfold rxDepth
    rw [if_neg (by omega)]
    omega
  unfold State.rxPut
  rw [if_neg hdepth, if_pos (by omega)]

/-- A whole frame that is neither of a protocol nor tagged goes to the host's filters. -/
theorem State.rxFrame_filters {bytes : List Byte} (hl : s.linkUp n = true) (h60 : 60 ≤ bytes.length) (hmost : bytes.length ≤ 1518)
    (hv : (ethParse bytes).vids = []) (ht : (ethParse bytes).type ∉ [0x0800, 0x0806, 0x88F7]) (ts : PtpTime) :
    s.rxFrame n bytes true ts =
      (s.setClock (ptpNs ts)).rxFilters n (ethParse bytes) { bytes, ts := (s.setClock (ptpNs ts)).rxStamp n ts } := by
  simp only [List.mem_cons, List.not_mem_nil, or_false, not_or] at ht
  obtain ⟨hip, harp, hptp⟩ := ht
  have hsize : ¬(bytes.length < 60) ∧ ¬(1518 < bytes.length) := by omega
  unfold State.rxFrame
  rw [if_neg (by simp [hl])]
  extract_lets u e tagOk
  have htag : tagOk = true := by simp [tagOk, e, hv]
  rw [if_neg (by simp [htag, hsize])]
  simp only [State.rxClassify, e, hip, harp, hptp, decide_false, Bool.false_and, Bool.false_eq_true, if_false]
  rfl

theorem State.flag_irq_same (s : State) {f : Field} (h : f.width = 1) : (s.irq f).flag f = true := State.flag_wrB_same _ _ _ h

/-! ### The receive buffer of a path -/

theorem State.setHrx_path (s : State) (p : Path) (n : Fin 2) (h : List Word × Nat) : ((s.setHrx p n h).path p).hrx n = h := by
  unfold State.setHrx
  rw [State.path_setPath]
  unfold PathSt.hrx
  split <;> simp_all

theorem State.wrP_hrx (s : State) (p : Path) (f : Field) (v : Nat) (n : Fin 2) :
    ((s.wrP p f v).path p).hrx n = (s.path p).hrx n := by
  rw [State.wrP_path]
  rfl

/-- The fields of the frame loaded. -/
theorem hrxFields_apart (n : Fin 2) : (Fld.NET_HRX_TS_NS n).apart (Fld.NET_HRX_CMD_LOADED n) = true ∧
    (Fld.NET_HRX_TS_SEC_LO n).apart (Fld.NET_HRX_CMD_LOADED n) = true ∧
    (Fld.NET_HRX_CMD_LENGTH n).apart (Fld.NET_HRX_CMD_LOADED n) = true ∧
    (Fld.NET_HRX_TS_NS n).apart (Fld.NET_HRX_CMD_LENGTH n) = true ∧
    (Fld.NET_HRX_TS_SEC_LO n).apart (Fld.NET_HRX_CMD_LENGTH n) = true ∧ (Fld.NET_HRX_CMD_LOADED n).width = 1 ∧
    (Fld.NET_HRX_CMD_LENGTH n).width = 11 := by
  decide +revert +kernel

/-- A frame that POP loads. -/
def State.hrxLoaded (s : State) (p : Path) (n : Fin 2) (q : Nat) (f : RxFrame) : State :=
  let s := s.setPort n { s.port n with rx := (s.port n).rx.erase (q, f) }
  let s := s.setHrx p n (bytesWords f.bytes, 0)
  let s := (s.wrP p (Fld.NET_HRX_CMD_LOADED n) 1).wrP p (Fld.NET_HRX_CMD_LENGTH n) f.bytes.length
  (s.wrP p (Fld.NET_HRX_TS_SEC_LO n) f.ts.sec.toNat).wrP p (Fld.NET_HRX_TS_NS n) f.ts.ns.toNat

theorem State.hrxLoaded_spec (s : State) (p : Path) (n : Fin 2) (q : Nat) (f : RxFrame) :
    ((s.hrxLoaded p n q f).path p).hrx n = (bytesWords f.bytes, 0) ∧
      ((s.hrxLoaded p n q f).port n).rx = (s.port n).rx.erase (q, f) ∧
      (s.hrxLoaded p n q f).rdP p (Fld.NET_HRX_CMD_LOADED n) = 1 ∧
      (s.hrxLoaded p n q f).rdP p (Fld.NET_HRX_CMD_LENGTH n) = f.bytes.length % 2 ^ 11 ∧ (s.hrxLoaded p n q f).led = s.led := by
  obtain ⟨hnl, hsl, hll, hnlen, hslen, hw1, hw11⟩ := hrxFields_apart n
  have hpathport (u : State) (x : PathSt) : (u.setPath p x).port n = u.port n := by cases p <;> rfl
  have hwrport (u : State) (g : Field) (k : Nat) : (u.wrP p g k).port n = u.port n := by cases p <;> rfl
  unfold State.hrxLoaded
  refine ⟨?_, ?_, ?_, ?_, ?_⟩
  · rw [State.wrP_hrx, State.wrP_hrx, State.wrP_hrx, State.wrP_hrx, State.setHrx_path]
  · rw [hwrport, hwrport, hwrport, hwrport, State.setHrx, hpathport, State.port_setPort]
  · rw [State.rdP_wrP_apart _ _ _ hnl, State.rdP_wrP_apart _ _ _ hsl, State.rdP_wrP_apart _ _ _ hll, State.rdP_wrP_same, hw1]
    rfl
  · rw [State.rdP_wrP_apart _ _ _ hnlen, State.rdP_wrP_apart _ _ _ hslen, State.rdP_wrP_same, hw11]
  · simp only [State.wrP_led, State.setHrx, State.setPath_led, State.setPort_led]

theorem State.wHrxCmd_pops {v : Word} {f : RxFrame}
    (hf : (s.port n).rx.find? (fun y => y.1 = 4 + bitsOf v.toNat 29 2) = some (4 + bitsOf v.toNat 29 2, f)) :
    (s.wHrxCmd p n (v ||| 0x80000000)).2 = (s.wrP p (Fld.NET_HRX_CMD_QUEUE n) (4 + bitsOf v.toNat 29 2 - 4)).hrxLoaded p n
      (4 + bitsOf v.toNat 29 2) f := by
  have hport (u : State) (g : Field) (k : Nat) : (u.wrP p g k).port n = u.port n := by cases p <;> rfl
  unfold State.wHrxCmd
  rw [goBit_msb, goBit_bits v (by decide)]
  simp only [Bool.not_true, Bool.false_eq_true, if_false, hport, hf]
  simp only [State.hrxLoaded, hport]

/-- Settles O45: the classification by `State.rxFrame_filters`, the frame taken by `State.rxPut_waits`, POP as the updates it
is. -/
theorem reception : Obligations.Reception := by
  unfold Obligations.Reception
  refine fun s n p => ⟨fun bytes ts hl => ⟨_, congrArg Host.Outcome.next (State.rxFrame_bad hl bytes ts), rfl, ?_⟩,
    fun bytes ts i hl h60 hmost hv ht hi hroom => ?taken, fun v f hr hf => ?pop, fun hr => congrArg Host.Outcome.next (if_pos hr)⟩
  · rw [State.rd_count_same, State.setClock_rd]
  case taken =>
    have hfind : (List.range 3).find? (fun i => (s.setClock (ptpNs ts)).filterHit n i (ethParse bytes)) = some i := hi
    have hex : s.rxFrame n bytes true ts = (s.setClock (ptpNs ts)).rxPut n (5 + i) { bytes, ts := s.rxStamp n ts } := by
      rw [State.rxFrame_filters hl h60 hmost hv ht]
      simp only [State.rxFilters, hfind]
      rfl
    rw [State.rxPut_waits (s := s.setClock (ptpNs ts)) hroom] at hex
    have hbeside (u : State) (f g : Field) : ((u.wrap f).irq g).port n = u.port n ∧ ((u.wrap f).irq g).led = u.led := ⟨rfl, rfl⟩
    refine ⟨_, congrArg Host.Outcome.next hex, ?_, State.flag_irq_same _ rfl, ?_⟩
    · rw [(hbeside ..).1, State.port_setPort]
      rfl
    · rw [(hbeside ..).2, State.setPort_led]
      rfl
  case pop =>
    have hport (g : Field) (k : Nat) : (s.wrP p g k).port n = s.port n := by cases p <;> rfl
    obtain ⟨hbuf, hrx, hload, hlen, hled⟩ := (s.wrP p (Fld.NET_HRX_CMD_QUEUE n) (4 + bitsOf v.toNat 29 2 - 4)).hrxLoaded_spec p n
      (4 + bitsOf v.toNat 29 2) f
    exact ⟨_, congrArg Host.Outcome.next ((State.host_of_running hr).trans (State.wHrxCmd_pops hf)), hbuf,
      hrx.trans (by rw [hport]), hload, hlen, hled.trans (State.wrP_led ..)⟩

end Sys2Proof.Machine
end

section
/-!
Numbers coded by bytes (R18), as messages and frames carry them.
-/

namespace Sys2Proof.Machine

theorem beNat_append (a b : List Byte) : beNat (a ++ b) = beNat a * 256 ^ b.length + beNat b := by
  have hfold (l : List Byte) (x : Nat) : l.foldl (fun a b => a * 256 + b.toNat) x = x * 256 ^ l.length + beNat l := by
    induction l generalizing x with
    | nil => simp [beNat]
    | cons c l ih =>
      have h0 := ih c.toNat
      rw [beNat, List.foldl_cons, List.foldl_cons, ih, Nat.zero_mul, Nat.zero_add, h0, List.length_cons, pow_succ]
      ring
  rw [beNat, List.foldl_append, hfold]
  rfl

theorem beNat_lt (bs : List Byte) : beNat bs < 256 ^ bs.length := by
  induction bs with
  | nil => simp [beNat]
  | cons b bs ih =>
    have hb : beNat [b] < 256 := by simpa [beNat] using b.isLt
    have h : beNat (b :: bs) = beNat [b] * 256 ^ bs.length + beNat bs := beNat_append [b] bs
    rw [h, List.length_cons, pow_succ]
    nlinarith

set_option Elab.async false in
theorem num_lt (bs : List Byte) (off n : Nat) : num bs off n < 256 ^ n := by
  refine (beNat_lt _).trans_le (Nat.pow_le_pow_right (by decide) ?_)
  simp [sub]

theorem length_beBytes (n v : Nat) : (beBytes n v).length = n := by
  induction n generalizing v with
  | zero => rfl
  | succ n ih => rw [beBytes, List.length_append, ih, List.length_singleton]

theorem beNat_beBytes (n v : Nat) : beNat (beBytes n v) = v % 256 ^ n := by
  induction n generalizing v with
  | zero => simp [beBytes, beNat, Nat.mod_one]
  | succ n ih =>
    have hone : beNat [BitVec.ofNat 8 v] = v % 256 := by simp [beNat]
    rw [beBytes, beNat_append, ih, hone, List.length_singleton, pow_one, pow_succ, mul_comm (256 ^ n), Nat.mod_mul]
    ring

/-- The first bytes read as the number they code. -/
theorem num_beBytes (n v : Nat) (r : List Byte) : num (beBytes n v ++ r) 0 n = v % 256 ^ n := by
  rw [num, sub, List.drop_zero, List.take_left' (length_beBytes n v), beNat_beBytes]

/-- Bytes in front are passed over. -/
theorem num_append_right {a : List Byte} {off : Nat} (h : a.length ≤ off) (b : List Byte) (n : Nat) :
    num (a ++ b) off n = num b (off - a.length) n := by
  rw [num, num, sub, sub, List.drop_append, List.drop_eq_nil_of_le h, List.nil_append]

/-- The fields of a Drega message (R317). -/
theorem dregaBytes_fields (type tag status flags : Nat) (body : List Byte) :
    num (dregaBytes type tag status flags body) 1 1 = type % 256 ∧ num (dregaBytes type tag status flags body) 4 1 = status % 256 ∧
      ∀ off n, num (dregaBytes type tag status flags body) (8 + off) n = num body off n := by
  have hskip (k v : Nat) (r : List Byte) {off : Nat} (h : k ≤ off) (n : Nat) : num (beBytes k v ++ r) off n = num r (off - k) n := by
    rw [num_append_right (by rwa [length_beBytes]), length_beBytes]
  have hhead (n v : Nat) (r : List Byte) : num (beBytes n v ++ r) 0 n = v % 256 ^ n := num_beBytes n v r
  simp only [dregaBytes, List.append_assoc]
  refine ⟨?_, ?_, fun off n => ?_⟩
  · rw [hskip _ _ _ (by decide)]
    exact hhead 1 type _
  · rw [hskip _ _ _ (by decide), hskip _ _ _ (by decide), hskip _ _ _ (by decide)]
    exact hhead 1 status _
  · rw [hskip _ _ _ (by omega), hskip _ _ _ (by omega), hskip _ _ _ (by omega), hskip _ _ _ (by omega), hskip _ _ _ (by omega),
      hskip _ _ _ (by omega)]
    congr 1
    omega

/-- The WORDS of a response's head. -/
theorem num_dregaHead (addr words : Nat) (r : List Byte) : num (dregaHead addr words ++ r) 4 2 = words % 256 ^ 2 := by
  rw [dregaHead, List.append_assoc, List.append_assoc, num_append_right (by rw [length_beBytes]), length_beBytes]
  exact num_beBytes 2 words _

theorem length_bytesWords (bs : List Byte) : ∀ k, bs.length = 4 * k → (bytesWords bs).length = k := by
  intro k
  induction k generalizing bs with
  | zero =>
    intro h
    rw [List.length_eq_zero_iff.1 (h.trans (Nat.mul_zero 4))]
    rfl
  | succ k ih =>
    intro h
    match bs, h with
    | a :: b :: c :: d :: bs, h =>
      rw [bytesWords, List.length_cons, ih bs (by simp only [List.length_cons] at h; omega)]

end Sys2Proof.Machine
end

section
/-!
Drega (R317 to R320): the request that has waited longest is served and answered, readings and publications wait for Garnet, and a
kept response expires.
-/

namespace Sys2Proof.Machine
variable {s t u : State} {n : Fin 2} {r : DregaSrc} {tag : BitVec 16}

/-! ### The head of the requests -/

theorem State.dregaFlush_none (h : s.dregaNext = none) (k : Nat) : s.dregaFlush k = s := by
  cases k with
  | zero => rfl
  | succ k => simp [State.dregaFlush, h]

/-- A new request with a good header waits for its command. -/
theorem State.dregaFlush_good {p : Fin 2} {x : RxFrame} (h : s.dregaNext = some (p, x))
    (hk : s.keptFor (x.source p) (BitVec.ofNat 16 (num x.drega 2 2)) = none) (hm : dregaHeadOk x.drega = true) (k : Nat) :
    s.dregaFlush k = s := by
  cases k with
  | zero => rfl
  | succ k => simp [State.dregaFlush, h, hk, hm]

theorem State.dregaServe_none (h : s.dregaNext = none) (type : Nat) (named : DregaSrc → List Byte → Bool)
    (f : DregaSrc → BitVec 16 → List Byte → State → State) : s.dregaServe type named f = s := by
  simp [State.dregaServe, State.dregaFlush_none h, h]

section
variable {p : Fin 2} {x : RxFrame} (h : s.dregaNext = some (p, x))
  (hk : s.keptFor (x.source p) (BitVec.ofNat 16 (num x.drega 2 2)) = none) (hm : dregaHeadOk x.drega = true)
include h hk hm

/-- A command for another request, or of another type, has no effect. -/
theorem State.dregaServe_other {type : Nat} {named : DregaSrc → List Byte → Bool}
    {f : DregaSrc → BitVec 16 → List Byte → State → State}
    (hn : num x.drega 1 1 ≠ type ∨ named (x.source p) x.drega = false) : s.dregaServe type named f = s := by
  unfold State.dregaServe
  rw [State.dregaFlush_good h hk hm]
  simp only [h]
  exact if_pos (by simpa using hn)

/-- The command for the request serves it. -/
theorem State.dregaServe_named {type : Nat} {named : DregaSrc → List Byte → Bool}
    {f : DregaSrc → BitVec 16 → List Byte → State → State} (ht : num x.drega 1 1 = type)
    (hn : named (x.source p) x.drega = true) : s.dregaServe type named f =
      (f (x.source p) (BitVec.ofNat 16 (num x.drega 2 2)) x.drega (s.dregaTake p x)).dregaFlush dregaMost := by
  unfold State.dregaServe
  rw [State.dregaFlush_good h hk hm]
  simp only [h]
  exact if_neg (by simp [ht, hn])

end

/-- A command names the request whose fields it carries. -/
theorem dregaNamed_own (m : List Byte) (r : DregaSrc) :
    dregaNamed r (BitVec.ofNat 16 (num m 2 2)) (BitVec.ofNat 8 (num m 5 1)) r m = true := by
  have h2 := num_lt m 2 2
  have h1 := num_lt m 5 1
  simp only [dregaNamed, BitVec.toNat_ofNat, decide_true, Bool.true_and, Bool.and_eq_true, decide_eq_true_eq]
  omega

theorem dregaNamed_other {m : List Byte} {r r' : DregaSrc} {tag : BitVec 16}
    (h : (r', tag) ≠ (r, BitVec.ofNat 16 (num m 2 2))) (flags : Byte) : dregaNamed r' tag flags r m = false := by
  by_contra hn
  simp only [dregaNamed, Bool.not_eq_false, Bool.and_eq_true, decide_eq_true_eq] at hn
  obtain ⟨⟨hr, ht⟩, -⟩ := hn
  refine h (Prod.ext hr.symm ?_)
  simp [ht]

/-! ### An answer -/

set_option Elab.async false in
/-- What decides which request is next. -/
theorem State.dregaNext_congr (hg : t.gar = s.gar) (he : t.esc = s.esc) (ha : t.portA.rx = s.portA.rx)
    (hb : t.portB.rx = s.portB.rx) : t.dregaNext = s.dregaNext := by
  unfold State.dregaNext State.dregaBusy State.dregaFirst Port.dregaHead
  rw [hg, he, ha, hb]

/-- The parts that an answer leaves. -/
abbrev State.besideAnswer (s : State) := (s.gar, s.esc, s.led, s.str, s.met)

/-- A frame that is offered leaves what waits to be read. -/
theorem State.netSend_rx (s : State) (q : Fin 2) (f : TxFrame) :
    (s.netSend q f).portA.rx = s.portA.rx ∧ (s.netSend q f).portB.rx = s.portB.rx := by
  have hset (x : Port) (hx : x.rx = (s.port q).rx) : (s.setPort q x).portA.rx = s.portA.rx ∧
      (s.setPort q x).portB.rx = s.portB.rx := by
    have hreg : (if q = 0 then { s with portA := x } else { s with portB := x }).regsOnly (s.setPort q x) :=
      State.regsOnly.foldl (.refl _) fun _ _ h => .wr h
    rw [hreg]
    unfold State.port at hx
    by_cases hq : q = 0
    · simp only [hq, if_true] at hx ⊢
      exact ⟨hx, trivial⟩
    · simp only [hq, if_false] at hx ⊢
      exact ⟨trivial, hx⟩
  unfold State.netSend
  split
  · exact ⟨rfl, rfl⟩
  split
  · exact ⟨rfl, rfl⟩
  · exact hset _ rfl

/-- The response kept for a request. -/
def State.answerKept (s : State) (r : DregaSrc) (type : Nat) (tag : BitVec 16) (status : Nat) (body : List Byte) : Kept :=
  { src := r, tag, payload := dregaBytes (type + 0x80) tag.toNat status (s.openWord % 4) body, sent := s.now }

theorem State.dregaAnswer_kept (s : State) (r : DregaSrc) (type : Nat) (tag : BitVec 16) (status : Nat) (body : List Byte) :
    (s.dregaAnswer r type tag status body).kept.head? = some (s.answerKept r type tag status body) := by
  unfold State.dregaAnswer State.dregaSend State.udpSend
  extract_lets b k rest v ip
  have hk : Keeps State.kept [] v (v.netSend r.port { bytes := v.ethHead r.port r.mac.toNat 0x0800 ++ ip, queue := 3 }).drawn :=
    .drawn (.netSend (.refl v) rfl (by simp))
  rw [hk.part]
  rfl

theorem State.dregaAnswer_keeps (s : State) (r : DregaSrc) (type : Nat) (tag : BitVec 16) (status : Nat) (body : List Byte) :
    Keeps State.besideAnswer [] s (s.dregaAnswer r type tag status body) := by
  unfold State.dregaAnswer State.dregaSend State.udpSend
  extract_lets b k rest v ip
  have hv : Keeps State.besideAnswer [] s v := .wrap (.drawn (.update (.refl s)))
  exact .drawn (.netSend hv rfl (by simp))

/-- An answer leaves which request is next. -/
theorem State.dregaAnswer_next (s : State) (r : DregaSrc) (type : Nat) (tag : BitVec 16) (status : Nat) (body : List Byte) :
    (s.dregaAnswer r type tag status body).dregaNext = s.dregaNext := by
  have hk := (s.dregaAnswer_keeps r type tag status body).part
  refine State.dregaNext_congr (congrArg (·.1) hk) (congrArg (·.2.1) hk) ?_ ?_
  · unfold State.dregaAnswer State.dregaSend State.udpSend
    exact (State.netSend_rx ..).1
  · unfold State.dregaAnswer State.dregaSend State.udpSend
    exact (State.netSend_rx ..).2

/-- A request answered with nothing else to serve: what is kept for it. -/
theorem State.answered (h : s.dregaNext = none) (type status : Nat) (body : List Byte) (ht : type < 4) (hs : status < 256) :
    ∃ k, ((s.dregaAnswer r type tag status body).dregaFlush dregaMost).kept.head? = some k ∧ k.src = r ∧ k.tag = tag ∧
      num k.payload 1 1 = type + 0x80 ∧ num k.payload 4 1 = status ∧ ∀ off n, num k.payload (8 + off) n = num body off n := by
  rw [State.dregaFlush_none ((State.dregaAnswer_next ..).trans h)]
  obtain ⟨htype, hstatus, hbody⟩ := dregaBytes_fields (type + 0x80) tag.toNat status (s.openWord % 4) body
  exact ⟨_, State.dregaAnswer_kept .., rfl, rfl, htype.trans (Nat.mod_eq_of_lt (by omega)),
    hstatus.trans (Nat.mod_eq_of_lt hs), hbody⟩

/-- A command's fields are those of the request. -/
theorem ofNat_num (m : List Byte) {off n w : Nat} (h : 256 ^ n = 2 ^ w) : (BitVec.ofNat w (num m off n)).toNat = num m off n := by
  rw [BitVec.toNat_ofNat, Nat.mod_eq_of_lt (h ▸ num_lt m off n)]

/-! ### Register requests (R317, R318) -/

theorem dregaOk_words {m : List Byte} {most data : Nat} (h : dregaOk m most data = true) :
    1 ≤ num m 12 2 ∧ num m 12 2 ≤ most ∧ num m 6 2 = 8 + 4 * data := by
  simp only [dregaOk, Bool.and_eq_true, decide_eq_true_eq] at h
  obtain ⟨⟨⟨⟨-, h1⟩, h2⟩, h3⟩, -⟩ := h
  exact ⟨h1, h2, h3⟩

/-- The data of a good REG_WRITE are as many words as it says. -/
theorem dregaData_length {m : List Byte} (hm : dregaHeadOk m = true) (h : dregaOk m 64 (num m 12 2) = true) :
    (dregaData m).length = num m 12 2 := by
  simp only [dregaHeadOk, Bool.and_eq_true, decide_eq_true_eq] at hm
  obtain ⟨-, hlen⟩ := hm
  obtain ⟨-, -, h6⟩ := dregaOk_words h
  refine length_bytesWords _ _ ?_
  rw [List.length_drop]
  omega

/-- Words that are all written are all counted. -/
theorem State.writeWords_ok {p : Path} {fixed : Bool} {a k : Nat} {vs : List Word}
    (h : s.writeWords p fixed a vs = (.ok, k, u)) : k = vs.length := by
  induction vs generalizing s a k with
  | nil =>
    simp only [State.writeWords, Prod.mk.injEq] at h
    exact h.2.1.symm
  | cons v vs ih =>
    rw [State.writeWords] at h
    split at h
    next t' ht =>
      rcases hr : t'.writeWords p fixed (if fixed then a else a + 4) vs with ⟨st, j, w⟩
      rw [hr] at h
      obtain ⟨rfl, rfl, rfl⟩ : st = .ok ∧ j + 1 = k ∧ w = u := by simpa using h
      rw [List.length_cons, ih hr]
    next st t' hne _ => exact absurd (congrArg Prod.fst h) hne

theorem State.regReadReq_ok {m : List Byte} (h : dregaOk m 256 0 = true) (ha : num m 8 4 + 4 * num m 12 2 ≤ 0x1000000) :
    s.regReadReq r tag m = (s.readWords .drega (num m 5 1 % 2 = 1) (num m 8 4) (num m 12 2)).2.dregaAnswer r 1 tag drOk
      (dregaHead (num m 8 4) (num m 12 2) ++
        (s.readWords .drega (num m 5 1 % 2 = 1) (num m 8 4) (num m 12 2)).1.flatMap wordBytes) := by
  obtain ⟨h1, -, -⟩ := dregaOk_words h
  have hlast : ¬0x1000000 < (if num m 5 1 % 2 = 1 then num m 8 4 + 4 else num m 8 4 + 4 * num m 12 2) := by
    split <;> omega
  simp only [State.regReadReq, h, Bool.not_true, Bool.false_eq_true, if_false]
  exact if_neg hlast

theorem State.regReadReq_bad {m : List Byte} (h : dregaOk m 256 0 = false) :
    s.regReadReq r tag m = s.dregaAnswer r 1 tag drBadMessage [] := by
  simp [State.regReadReq, h]

theorem State.regWriteReq_ok {m : List Byte} {k : Nat} (h : dregaOk m 64 (num m 12 2) = true)
    (hw : s.writeWords .drega (num m 5 1 % 2 = 1) (num m 8 4) (dregaData m) = (.ok, k, u)) :
    s.regWriteReq r tag m = u.dregaAnswer r 2 tag drOk (dregaHead (num m 8 4) k) := by
  simp only [State.regWriteReq, h, Bool.not_true, Bool.false_eq_true, if_false, hw]
  rfl

set_option Elab.async false in
theorem State.regWriteReq_bad {m : List Byte} (h : dregaOk m 64 (num m 12 2) = false) :
    s.regWriteReq r tag m = s.dregaAnswer r 2 tag drBadMessage [] := by
  simp [State.regWriteReq, h]

/-! ### Readings and publications (R279, R320) -/

/-- What the tests of a reading read. -/
abbrev rdgFields : List Field := [Fld.SEC_CFG_HMAC_ALLOWED, Fld.SYS_STATUS_STATE, Fld.LED_STATUS_STATE, Fld.SEC_RDG_SEQ_RSEQ]

theorem State.rdgTest_congr (hk : Keeps (fun s => (s.gar, s.esc, s.led, s.core)) rdgFields s t) (hmac : Bool)
    (vs : List (Nat × Nat)) : t.rdgTest hmac vs = s.rdgTest hmac vs := by
  obtain ⟨hgar, hesc, hled, hcore⟩ : _ ∧ _ ∧ _ ∧ _ := by simpa only [Prod.mk.injEq] using hk.part
  have hflag : t.flag Fld.SEC_CFG_HMAC_ALLOWED = s.flag Fld.SEC_CFG_HMAC_ALLOWED := hk.flag
  have hchip : t.chip = s.chip := hk.rd _ (by decide)
  have hstate : t.rd Fld.LED_STATUS_STATE = s.rd Fld.LED_STATUS_STATE := hk.rd _ (by decide)
  unfold State.rdgTest State.garnetShut State.garnetFull
  rw [hgar, hesc, hled, hcore, hflag, hchip, hstate]

/-- A reading that passes its tests takes the next RSEQ and is served by an idle Garnet. -/
theorem State.rdgRequest_serves {o : RdgOrigin} {hmac : Bool} {nonce : Nat} {vs items : List (Nat × Nat)}
    (ht : s.rdgTest hmac vs = .inr items) (hg : s.gar.serving = none) (hv : s.gar.verify = []) (hs : s.gar.sign = []) :
    ∃ f, s.rdgRequest o hmac nonce vs = (s.wrap Fld.SEC_RDG_SEQ_RSEQ).serve (.sign o f) := by
  simp only [State.rdgRequest, ht]
  exact ⟨_, State.garnetQueue_idle (s := s.wrap Fld.SEC_RDG_SEQ_RSEQ) hg hv hs _⟩

/-- A number taken for a reading, and Garnet serves it. -/
theorem State.serves_spec (s : State) (q : GarnetReq) : ((s.wrap Fld.SEC_RDG_SEQ_RSEQ).serve q).gar.serving = some q ∧
    ((s.wrap Fld.SEC_RDG_SEQ_RSEQ).serve q).rd Fld.SEC_RDG_SEQ_RSEQ = (s.rd Fld.SEC_RDG_SEQ_RSEQ + 1) % 2 ^ 32 ∧
    ((s.wrap Fld.SEC_RDG_SEQ_RSEQ).serve q).led = s.led := by
  have hrd (u : State) : (u.serve q).rd Fld.SEC_RDG_SEQ_RSEQ = u.rd Fld.SEC_RDG_SEQ_RSEQ := rfl
  have hw : Fld.SEC_RDG_SEQ_RSEQ.width = 32 := rfl
  refine ⟨rfl, ?_, rfl⟩
  rw [hrd, State.rd_wrap_same, hw]

theorem State.dregaTake_keeps (s : State) (p : Fin 2) (x : RxFrame) :
    Keeps (fun s => (s.gar, s.esc, s.led, s.core)) rdgFields s (s.dregaTake p x) := by
  unfold State.dregaTake
  exact .setPort (.refl s)

/-- A READING in service: no other request is served with it. -/
theorem State.dregaNext_serving {src : DregaSrc} {f : List Byte} (h : s.gar.serving = some (.sign (.drega src tag) f)) :
    s.dregaNext = none := by
  simp [State.dregaNext, State.dregaBusy, h, GarnetReq.fromDrega]

theorem State.dregaReading_bad {m : List Byte} (h : readingOk m = false) :
    s.dregaReading r tag m = s.dregaAnswer r 3 tag drBadMessage [] := by
  simp [State.dregaReading, h]

theorem State.dregaReading_ok {m : List Byte} (h : readingOk m = true) : s.dregaReading r tag m =
    s.rdgRequest (.drega r tag) (num m 5 1 / 2 % 2 = 1) (num m 8 8) (readingAsks m) := by
  simp [State.dregaReading, h]

/-- A READING that passes its tests is in service, an idle Garnet signing it. -/
theorem State.dregaReading_serves (p : Fin 2) (x : RxFrame) {m : List Byte} {its : List (Nat × Nat)} (hok : readingOk m = true)
    (htest : s.rdgTest (num m 5 1 / 2 % 2 = 1) (readingAsks m) = .inr its) (hg : s.gar.serving = none)
    (hv : s.gar.verify = []) (hs : s.gar.sign = []) : ∃ f,
      (((s.dregaTake p x).dregaReading r tag m).dregaFlush dregaMost).gar.serving = some (.sign (.drega r tag) f) ∧
      (((s.dregaTake p x).dregaReading r tag m).dregaFlush dregaMost).rd Fld.SEC_RDG_SEQ_RSEQ =
        (s.rd Fld.SEC_RDG_SEQ_RSEQ + 1) % 2 ^ 32 ∧
      (((s.dregaTake p x).dregaReading r tag m).dregaFlush dregaMost).led = s.led := by
  have hk := s.dregaTake_keeps p x
  generalize s.dregaTake p x = t at hk
  obtain ⟨hgar, -, hled', -⟩ : t.gar = s.gar ∧ _ ∧ t.led = s.led ∧ _ := by simpa only [Prod.mk.injEq] using hk.part
  have hr : t.rd Fld.SEC_RDG_SEQ_RSEQ = s.rd Fld.SEC_RDG_SEQ_RSEQ := hk.rd _ (by decide)
  obtain ⟨f, hf⟩ := State.rdgRequest_serves (o := .drega r tag) (nonce := num m 8 8) (s := t)
    ((State.rdgTest_congr hk ..).trans htest) (by rw [hgar, hg]) (by rw [hgar, hv]) (by rw [hgar, hs])
  obtain ⟨hserving, hrseq, hled⟩ := t.serves_spec (.sign (.drega r tag) f)
  rw [State.dregaReading_ok hok, hf, State.dregaFlush_none (State.dregaNext_serving hserving)]
  exact ⟨f, hserving, by rw [hrseq, hr], hled.trans hled'⟩

/-- A publication that is due, its destination known, is a reading. -/
theorem State.publish_due {k : Fin 4} (hl : s.core.loaded = true) (hd : s.pubDue k = true)
    (ha : ((s.port (if s.flag (Fld.NET_PUB_PORT k) then 1 else 0)).arpEntry
      (s.nextHop (if s.flag (Fld.NET_PUB_PORT k) then 1 else 0) (s.rd (Fld.NET_PUB_DST_ADDR k)))).isSome = true) :
    ∃ lt, s.publish k = ({ s with net := { s.net with pubAt := s.net.pubAt.set k.val (s.core.tickEpoch + 1) } } : State).rdgRequest
      (.publish k lt) (s.flag (Fld.NET_PUB_SIG k)) 0 (s.pubItems k) := by
  unfold State.publish
  rw [if_neg (by simp [hl, hd])]
  extract_lets port n u lt
  have hres : u.arpResolve port (u.nextHop port (u.rd (Fld.NET_PUB_DST_ADDR k))) = u := if_pos ha
  rw [hres]
  exact ⟨lt, rfl⟩

/-! ### The obligation -/

/-- Settles O47: a served request by `State.dregaServe_named` and `State.answered`, one that is not by
`State.dregaServe_other`, readings and publications by `State.rdgRequest_serves`. -/
theorem dregaService : Obligations.DregaService := by
  unfold Obligations.DregaService
  refine fun s => ⟨fun p x h => ?served, fun r tag fl a w d n is h => ?none, fun r k hk => ?expiry,
    fun k items hl hd ha ht hg hv hs => ?published⟩
  case served =>
    intro m r tag taken fixed answered fl read write reading hk hm
    have hnamed : dregaNamed r tag fl r m = true := dregaNamed_own m r
    have haddr : (BitVec.ofNat 32 (num m 8 4)).toNat = num m 8 4 := ofNat_num m (by decide)
    have hwords : (BitVec.ofNat 16 (num m 12 2)).toNat = num m 12 2 := ofNat_num m (by decide)
    have hnonce : (BitVec.ofNat 64 (num m 8 8)).toNat = num m 8 8 := ofNat_num m (by decide)
    have hread (ht : num m 1 1 = 1) : exec read s = .next ((taken.regReadReq r tag m).dregaFlush dregaMost) :=
      congrArg Host.Outcome.next (State.dregaServe_named h hk hm ht (by simp [hnamed, haddr, hwords, m, r]))
    have hwrite (ht : num m 1 1 = 2) : exec write s = .next ((taken.regWriteReq r tag m).dregaFlush dregaMost) :=
      congrArg Host.Outcome.next (State.dregaServe_named h hk hm ht (by simp [hnamed, haddr, hwords, m, r]))
    have hreading (ht : num m 1 1 = 3) : exec reading s = .next ((taken.dregaReading r tag m).dregaFlush dregaMost) :=
      congrArg Host.Outcome.next (State.dregaServe_named h hk hm ht (by simp [hnamed, hnonce, m, r]))
    have hw2 : num m 12 2 % 256 ^ 2 = num m 12 2 := Nat.mod_eq_of_lt (num_lt m 12 2)
    refine ⟨fun ht hok ha hn => ?readOk, fun ht hok hn => ?readBad, fun j u ht hok hw hn => ?writeOk, fun ht hok hn => ?writeBad,
      fun its ht hok hg hv hs htest => ?readingOk, fun ht hok hn => ?readingBad, fun ht => ?_, fun ht => ?_, fun ht => ?_,
      fun r' tag' fl' a w d n is hne => ?other⟩
    case readOk =>
      obtain ⟨k, hkept, hsrc, htag, htype, hst, hbody⟩ := State.answered (r := r) (tag := tag) hn 1 drOk
        (dregaHead (num m 8 4) (num m 12 2) ++ (taken.readWords .drega fixed (num m 8 4) (num m 12 2)).1.flatMap wordBytes)
        (by decide) (by decide)
      refine ⟨_, hread ht, k, (State.regReadReq_ok hok ha).symm ▸ hkept, hsrc, htag, htype, hst, fun j hj => ?_⟩
      rw [← Option.some.inj hj, hbody 4 2, num_dregaHead, hw2]
    case readBad =>
      obtain ⟨k, hkept, hsrc, htag, htype, hst, -⟩ := State.answered (r := r) (tag := tag) hn 1 drBadMessage [] (by decide) (by decide)
      exact ⟨_, hread ht, k, (State.regReadReq_bad hok).symm ▸ hkept, hsrc, htag, htype, hst, fun j hj => nomatch hj⟩
    case writeOk =>
      obtain rfl : j = num m 12 2 := (State.writeWords_ok hw).trans (dregaData_length hm hok)
      obtain ⟨k, hkept, hsrc, htag, htype, hst, hbody⟩ := State.answered (r := r) (tag := tag) hn 2 drOk
        (dregaHead (num m 8 4) (num m 12 2)) (by decide) (by decide)
      have hex := hwrite ht
      rw [State.regWriteReq_ok hok hw, State.dregaFlush_none ((State.dregaAnswer_next ..).trans hn)] at hex
      rw [State.dregaFlush_none ((State.dregaAnswer_next ..).trans hn)] at hkept
      have hkeeps := (u.dregaAnswer_keeps r 2 tag drOk (dregaHead (num m 8 4) (num m 12 2))).part
      refine ⟨_, hex, ⟨k, hkept, hsrc, htag, htype, hst, fun j hj => ?_⟩, congrArg (·.2.2.1) hkeeps, congrArg (·.2.2.2.1) hkeeps,
        congrArg (·.2.2.2.2) hkeeps⟩
      have hhead := num_dregaHead (num m 8 4) (num m 12 2) []
      rw [List.append_nil] at hhead
      rw [← Option.some.inj hj, hbody 4 2, hhead, hw2]
    case writeBad =>
      obtain ⟨k, hkept, hsrc, htag, htype, hst, -⟩ := State.answered (r := r) (tag := tag) hn 2 drBadMessage [] (by decide) (by decide)
      exact ⟨_, hwrite ht, k, (State.regWriteReq_bad hok).symm ▸ hkept, hsrc, htag, htype, hst, fun j hj => nomatch hj⟩
    case readingOk =>
      obtain ⟨f, hserve, hrseq, hled⟩ := State.dregaReading_serves (r := r) (tag := tag) p x hok htest hg hv hs
      have hex : exec reading s = .next (((s.dregaTake p x).dregaReading r tag m).dregaFlush dregaMost) := hreading ht
      exact ⟨_, f, hex, hserve, hrseq, hled⟩
    case readingBad =>
      obtain ⟨k, hkept, hsrc, htag, htype, hst, -⟩ := State.answered (r := r) (tag := tag) hn 3 drBadMessage [] (by decide) (by decide)
      exact ⟨_, hreading ht, k, (State.dregaReading_bad hok).symm ▸ hkept, hsrc, htag, htype, hst, fun j hj => nomatch hj⟩
    · exact congrArg Host.Outcome.next (State.dregaServe_other h hk hm (.inl ht))
    · exact congrArg Host.Outcome.next (State.dregaServe_other h hk hm (.inl ht))
    · exact congrArg Host.Outcome.next (State.dregaServe_other h hk hm (.inl ht))
    case other =>
      have hnot : dregaNamed r' tag' fl' r m = false := dregaNamed_other hne fl'
      refine ⟨congrArg Host.Outcome.next (State.dregaServe_other h hk hm (.inr ?_)),
        congrArg Host.Outcome.next (State.dregaServe_other h hk hm (.inr ?_)),
        congrArg Host.Outcome.next (State.dregaServe_other h hk hm (.inr ?_))⟩ <;>
        simp only [show dregaNamed r' tag' fl' (x.source p) x.drega = false from hnot, Bool.false_and]
  case none =>
    exact ⟨congrArg Host.Outcome.next (State.dregaServe_none h ..), congrArg Host.Outcome.next (State.dregaServe_none h ..),
      congrArg Host.Outcome.next (State.dregaServe_none h ..)⟩
  case expiry =>
    have hex : s.keptExpiry r = { s.until (k.sent + 5000) with
        kept := s.kept.filter fun (x : Kept) => !(x.src.ip = r.ip && x.src.udp = r.udp) } := by
      simp only [State.keptExpiry, hk]
    refine ⟨_, congrArg Host.Outcome.next hex, rfl, fun y hy => ?_, rfl, rfl⟩
    obtain ⟨hmem, hne⟩ := List.mem_filter.1 hy
    exact ⟨hmem, by simpa [Classical.or_iff_not_imp_left] using hne⟩
  case published =>
    obtain ⟨lt, hex⟩ := State.publish_due hl hd ha
    obtain ⟨f, hf⟩ := State.rdgRequest_serves (o := .publish k lt) (nonce := 0)
      (s := { s with net := { s.net with pubAt := s.net.pubAt.set k.val (s.core.tickEpoch + 1) } }) ht hg hv hs
    obtain ⟨hserving, hrseq, hled⟩ := State.serves_spec
      { s with net := { s.net with pubAt := s.net.pubAt.set k.val (s.core.tickEpoch + 1) } } (.sign (.publish k lt) f)
    exact ⟨_, lt, f, congrArg Host.Outcome.next (hex.trans hf), hserving, hrseq, hled⟩

end Sys2Proof.Machine
end

section
/-!
The ring (R351 to R358): frames received and sent, the members a master marks, and enumeration.
-/

namespace Sys2Proof.Machine
variable {α : Type} {part : State → α} {gs : List Field} {s0 s t u : State} {port : RingPort} {bs : List Byte} {f : LinkFrame}

/-! ### A frame received (R354, R355) -/

theorem linkRead_type {most : Nat} (h : linkRead most bs = some f) : num bs 2 1 = f.type := by
  unfold linkRead at h
  extract_lets n at h
  split at h
  · rw [← Option.some.inj h]
  · cases h

/-- A frame that passes its checks. -/
structure State.FrameValid (s : State) (port : RingPort) (bs : List Byte) (f : LinkFrame) : Prop where
  on : s.ringOn = true
  up : port ∉ s.ring.portDown
  read : linkRead ringMost bs = some f
  hops : f.hops ≠ 8
  site : f.site = s.rd Fld.CSC_CFG_SITE_ID
  ring : f.ring = s.ringNo

/-- A frame that passes its checks and comes for the first time. -/
structure State.FrameFirst (s : State) (port : RingPort) (bs : List Byte) (f : LinkFrame) : Prop extends s.FrameValid port bs f where
  seq : f.seq ∉ s.seenOf f.src

/-- What the reception of a frame leaves: it forwards, remembers and counts what was lost. -/
structure State.Heard (s u : State) : Prop where
  eq : u = { s with regs := u.regs, ring := { s.ring with out := u.ring.out, seen := u.ring.seen } }
  words : s.keepsWords u [Adr.CSC_ERR]

set_option Elab.async false in
theorem State.Heard.rd (h : s.Heard u) {g : Field}
    (hg : ∀ a ∈ [Adr.CSC_ERR], a < g.addr ∨ g.addr + 4 * g.words ≤ a := by decide +kernel) : u.rd g = s.rd g := h.words.rd hg

theorem State.Heard.flag (h : s.Heard u) {g : Field}
    (hg : ∀ a ∈ [Adr.CSC_ERR], a < g.addr ∨ g.addr + 4 * g.words ≤ a := by decide +kernel) : u.flag g = s.flag g :=
  State.flag_congr (h.rd hg)

theorem State.Heard.refl (s : State) : s.Heard s := ⟨rfl, fun _ _ => rfl⟩

theorem State.Heard.forward (h : s.Heard u) {f : LinkFrame} : s.Heard (u.ringForward port f) :=
  ⟨by rw [h.eq]; rfl, h.words⟩

theorem State.Heard.lost (h : s.Heard u) : s.Heard (u.count Fld.CSC_ERR_LOST) := ⟨by rw [h.eq]; rfl, h.words.wr⟩

theorem State.Heard.remember (h : s.Heard u) {src : Nat} {q : BitVec 16} : s.Heard (u.remember src q) :=
  ⟨by rw [h.eq]; rfl, h.words⟩

theorem State.Heard.ite {c : Prop} [Decidable c] (ht : s.Heard t) (hu : s.Heard u) : s.Heard (if c then t else u) := by
  split <;> assumption

theorem State.seenOf_remember (s : State) (src : Nat) (q : BitVec 16) : q ∈ (s.remember src q).seenOf src := by
  simp [State.seenOf, State.remember]

theorem State.ringCheck_passes (h : s.FrameValid port bs f) : s.ringCheck port bs = (some f, s) := by
  simp [State.ringCheck, h.on, h.up, h.read, h.hops, h.site, h.ring]

/-- The first copy of a frame is taken; one for another position goes on. -/
theorem State.ringRx_first (h : s.FrameFirst port bs f) (fwd : List Byte → List Byte) :
    ∃ u, s.ringRx port bs fwd = (some (f, true), u) ∧ s.Heard u ∧ f.seq ∈ u.seenOf f.src ∧
      (f.dest ≠ s.position →
        (some (otherPort port), { f with hops := f.hops + 1, payload := fwd f.payload }.bytes) ∈ u.ring.out) := by
  have hown (b : Bool) : (b && decide (f.seq ∈ s.seenOf f.src)) = false := by simp [h.seq]
  unfold State.ringRx
  rw [State.ringCheck_passes h.toFrameValid]
  dsimp only
  rw [if_neg h.seq, hown]
  refine ⟨_, rfl, ?_, State.seenOf_remember .., fun hd => ?_⟩
  · exact .remember (.ite (.lost (.ite (.forward (.refl s)) (.refl s))) (.ite (.forward (.refl s)) (.refl s)))
  · have hlost {c : Prop} [Decidable c] {t : State} {y : Option RingPort × List Byte} (hy : y ∈ t.ring.out) :
        y ∈ ((if c then t.count Fld.CSC_ERR_LOST else t).remember f.src f.seq).ring.out := by
      split <;> exact hy
    refine hlost ?_
    rw [if_pos (by simp [hd])]
    simp [State.ringForward]

/-- A frame of a type and payload length that comes for the first time is acted on. -/
theorem State.ringTake_first (h : s.FrameFirst port bs f) {type len : Nat} (ht : f.type = type) (hl : f.payload.length = len)
    (g : LinkFrame → State → State) : ∃ u, s.ringTake port type len bs g = g f u ∧ s.Heard u ∧ f.seq ∈ u.seenOf f.src := by
  obtain ⟨u, hu, hheard, hseen, -⟩ := State.ringRx_first h id
  have his : frameIs type bs = true := by simp [frameIs, linkRead_type h.read, ht]
  refine ⟨u, ?_, hheard, hseen⟩
  unfold State.ringTake
  rw [if_neg (by simp [his]), hu]
  exact if_pos hl

/-- A frame whose CRC fails is counted. -/
theorem State.ringTake_bad (hon : s.ringOn = true) (hp : port ∉ s.ring.portDown) (hr : linkRead ringMost bs = none)
    {type : Nat} (ht : frameIs type bs = true) (len : Nat) (g : LinkFrame → State → State) :
    s.ringTake port type len bs g = s.count Fld.CSC_ERR_CRC := by
  simp [State.ringTake, State.ringRx, State.ringCheck, hon, hp, hr, ht]

/-! ### A frame sent -/

/-- What a frame of this device shows of it. -/
abbrev frameFields : List Field := [Fld.CSC_STATUS_POSITION, Fld.CSC_CFG_SITE_ID, Fld.TWN_CFG_ENABLE, Fld.TWN_STATUS_ROLE]

set_option Elab.async false in
theorem State.ringNo_congr (h : ∀ g ∈ frameFields, t.rd g = s.rd g) : t.ringNo = s.ringNo := by
  unfold State.ringNo
  rw [State.flag_congr (h Fld.TWN_CFG_ENABLE (by decide)), State.flag_congr (h Fld.TWN_STATUS_ROLE (by decide))]

theorem State.ringFrame_congr (hs : t.ring.seq = s.ring.seq) (h : ∀ g ∈ frameFields, t.rd g = s.rd g) (dest type : Nat)
    (payload : List Byte) : t.ringFrame dest type payload = s.ringFrame dest type payload := by
  unfold State.ringFrame
  rw [hs, State.ringNo_congr h, h Fld.CSC_STATUS_POSITION (by decide), h Fld.CSC_CFG_SITE_ID (by decide)]

theorem State.Heard.frame (h : s.Heard u) (dest type : Nat) (payload : List Byte) :
    u.ringFrame dest type payload = s.ringFrame dest type payload := by
  have hoff : ∀ g ∈ frameFields, ∀ a ∈ [Adr.CSC_ERR], a < g.addr ∨ g.addr + 4 * g.words ≤ a := by decide
  exact State.ringFrame_congr (by rw [h.eq]) (fun g hg => h.rd (hoff g hg)) ..

theorem State.ringOut_out (s : State) (dest type : Nat) (payload : List Byte) :
    (s.ringOut dest type payload).ring.out = s.ring.out ++ [(none, (s.ringFrame dest type payload).bytes)] := rfl

theorem State.ringOut_last (s : State) (dest type : Nat) (payload : List Byte) :
    (s.ringOut dest type payload).ring.out.getLast? = some (none, (s.ringFrame dest type payload).bytes) := by
  rw [State.ringOut_out, List.getLast?_concat]

/-! ### Members (R357) -/

/-- A bit that is masked out of eight reads 0. -/
theorem clearBit_reads (x : Nat) {p : Nat} (hp : p < 8) : (x &&& (0xFF ^^^ 2 ^ p)) % 2 ^ 8 / 2 ^ p % 2 = 0 := by
  have hmask : (0xFF ^^^ 2 ^ p).testBit p = false := by
    revert p
    decide
  have h : ((x &&& (0xFF ^^^ 2 ^ p)) % 2 ^ 8).testBit p = false := by
    rw [Nat.testBit_mod_two_pow, Nat.testBit_and, hmask, Bool.and_false, Bool.and_false]
  simpa [Nat.testBit_eq_decide_div_mod_eq] using h

/-- A bit that is set stays set while another is set. -/
theorem setBit_stays {x p : Nat} (q : Nat) (hp : p < 8) (h : x / 2 ^ p % 2 = 1) : (x ||| 2 ^ q) % 2 ^ 8 / 2 ^ p % 2 = 1 := by
  have hx : x.testBit p = true := by simpa [Nat.testBit_eq_decide_div_mod_eq] using h
  have h' : ((x ||| 2 ^ q) % 2 ^ 8).testBit p = true := by
    rw [Nat.testBit_mod_two_pow, Nat.testBit_or, hx]
    simp [hp]
  simpa [Nat.testBit_eq_decide_div_mod_eq] using h'

/-- What the marking of a member leaves beside the members. -/
abbrev State.besideMembers (s : State) := (s.led, s.now, s.core, s.fuses, s.ring.portDown, s.ring.out, s.ring.seq)

/-- The fields read across the marking of a member. -/
abbrev memberFields : List Field :=
  [Fld.CSC_STATUS_POSITION, Fld.CSC_CFG_SITE_ID, Fld.TWN_CFG_ENABLE, Fld.TWN_STATUS_ROLE, Fld.TWN_STATUS_PRESENT, Fld.CSC_STATUS_ENUM,
    Fld.CSC_STATUS_ALIGN, Fld.CSC_CFG_EXPECT]

/-- A member that is marked PRESENT, before its event. -/
def State.presentShown (s : State) (p : Nat) (uid : BitVec 64) : State :=
  let t := (s.wr Fld.CSC_STATUS_PRESENT (s.rd Fld.CSC_STATUS_PRESENT ||| 2 ^ p))
  let t := t.wr Fld.CSC_STATUS_ABSENT (t.rd Fld.CSC_STATUS_ABSENT &&& (0xFF ^^^ 2 ^ p))
  { t with ring := { t.ring with members := (p, uid) :: t.ring.members.filter fun x => x.1 ≠ p } }

/-- What a marked member reads. -/
def State.Marked (s : State) (p : Nat) (uid : BitVec 64) : Prop := s.rd Fld.CSC_STATUS_PRESENT / 2 ^ p % 2 = 1 ∧
  s.rd Fld.CSC_STATUS_ABSENT / 2 ^ p % 2 = 0 ∧ s.ring.members.lookup p = some uid

theorem State.presentShown_marked (s : State) {p : Nat} (hp : p < 8) (uid : BitVec 64) : (s.presentShown p uid).Marked p uid := by
  have hw : Fld.CSC_STATUS_PRESENT.width = 8 ∧ Fld.CSC_STATUS_ABSENT.width = 8 := ⟨rfl, rfl⟩
  unfold State.presentShown
  extract_lets t u
  have hrd (g : Field) (m : List (Nat × BitVec 64)) : ({ u with ring := { u.ring with members := m } } : State).rd g = u.rd g := rfl
  refine ⟨?_, ?_, by simp⟩
  · rw [hrd, State.rd_wr_apart _ _ (by decide), State.rd_wr_same, hw.1]
    exact setBit_reads _ hp
  · rw [hrd, State.rd_wr_same, hw.2]
    exact clearBit_reads _ hp

theorem State.presentShown_keeps (s : State) (p : Nat) (uid : BitVec 64) :
    Keeps State.besideMembers memberFields s (s.presentShown p uid) := by
  unfold State.presentShown
  extract_lets t u
  have hu : Keeps State.besideMembers memberFields s u := .wr (.wr (.refl s))
  exact .update hu

/-- An event of the ring leaves a marked member. -/
theorem State.Marked.raise {p : Nat} {uid : BitVec 64} (h : s.Marked p uid) (code source : Nat) (payload : List Byte)
    (hc : code ≠ evStrataAreaDead := by decide +kernel) : (s.raise code source payload).Marked p uid := by
  have hk : Keeps State.ring [Fld.CSC_STATUS_PRESENT, Fld.CSC_STATUS_ABSENT] s (s.raise code source payload) :=
    .raiseLiving (.refl s) hc
  obtain ⟨hp, ha, hm⟩ := h
  exact ⟨by rwa [hk.rd _ (by decide)], by rwa [hk.rd _ (by decide)], by rwa [hk.part]⟩

theorem State.setPresent_eq (s : State) (p : Nat) (uid : BitVec 64) : s.setPresent p uid =
    if s.rd Fld.CSC_STATUS_PRESENT / 2 ^ p % 2 = 1 then s.presentShown p uid
    else (s.presentShown p uid).raise evMemberPresent p (beBytes 8 uid.toNat) := rfl

theorem State.setPresent_marked (s : State) {p : Nat} (hp : p < 8) (uid : BitVec 64) : (s.setPresent p uid).Marked p uid := by
  rw [State.setPresent_eq]
  split
  · exact s.presentShown_marked hp uid
  · exact (s.presentShown_marked hp uid).raise _ _ _

set_option Elab.async false in
theorem State.setPresent_keeps (s : State) (p : Nat) (uid : BitVec 64) :
    Keeps State.besideMembers memberFields s (s.setPresent p uid) := by
  rw [State.setPresent_eq]
  exact .ite (s.presentShown_keeps p uid) (.raiseLiving (s.presentShown_keeps p uid))

/-- A position reads ABSENT. -/
def State.absentAt (s : State) (p : Nat) : Prop := s.rd Fld.CSC_STATUS_ABSENT / 2 ^ p % 2 = 1

/-- A position that is marked ABSENT, before its event. -/
def State.absentShown (s : State) (p : Nat) : State :=
  let t := s.wr Fld.CSC_STATUS_ABSENT (s.rd Fld.CSC_STATUS_ABSENT ||| 2 ^ p)
  let t := t.wr Fld.CSC_STATUS_PRESENT (t.rd Fld.CSC_STATUS_PRESENT &&& (0xFF ^^^ 2 ^ p))
  { t with ring := { t.ring with members := t.ring.members.filter fun x => x.1 ≠ p } }

theorem State.setAbsent_eq (s : State) (p : Nat) : s.setAbsent p =
    if s.rd Fld.CSC_STATUS_ABSENT / 2 ^ p % 2 = 1 then s else (s.absentShown p).raise evMemberAbsent p [] := rfl

theorem State.setAbsent_keeps (h : Keeps State.besideMembers memberFields s0 s) (p : Nat) :
    Keeps State.besideMembers memberFields s0 (s.setAbsent p) := by
  have hshown : Keeps State.besideMembers memberFields s (s.absentShown p) := by
    unfold State.absentShown
    extract_lets t u
    have hu : Keeps State.besideMembers memberFields s u := .wr (.wr (.refl s))
    exact .update hu
  rw [State.setAbsent_eq]
  exact .ite h (.raiseLiving (h.trans hshown))

theorem State.setAbsent_reads (s : State) {p q : Nat} (hp : p < 8) (h : p = q ∨ s.absentAt p) : (s.setAbsent q).absentAt p := by
  have hw : Fld.CSC_STATUS_ABSENT.width = 8 := rfl
  rw [State.setAbsent_eq]
  split
  next hq =>
    obtain rfl | hs := h
    · exact hq
    · exact hs
  next hq =>
    have hrd : (s.absentShown q).rd Fld.CSC_STATUS_ABSENT = (s.rd Fld.CSC_STATUS_ABSENT ||| 2 ^ q) % 2 ^ 8 := by
      have hrd (t : State) (m : List (Nat × BitVec 64)) :
          ({ t with ring := { t.ring with members := m } } : State).rd Fld.CSC_STATUS_ABSENT = t.rd Fld.CSC_STATUS_ABSENT := rfl
      unfold State.absentShown
      rw [hrd, State.rd_wr_apart _ _ (by decide), State.rd_wr_same, hw]
    rw [State.absentAt, State.rd_raise_living _ (by decide) (by decide), hrd]
    obtain rfl | hs := h
    · exact setBit_reads _ hp
    · exact setBit_stays q hp hs

/-- Each of a list of positions is marked ABSENT. -/
theorem State.foldl_setAbsent (l : List Nat) (s : State) : (∀ p < 8, p ∈ l ∨ s.absentAt p → (l.foldl State.setAbsent s).absentAt p) ∧
    Keeps State.besideMembers memberFields s (l.foldl State.setAbsent s) := by
  refine ⟨?_, .foldl (.refl s) fun u p _ hu => State.setAbsent_keeps hu p⟩
  induction l generalizing s with
  | nil => exact fun p _ h => by simpa using h
  | cons q l ih =>
    intro p hp h
    refine ih (s.setAbsent q) p hp ?_
    rw [List.mem_cons, or_assoc] at h
    obtain rfl | h | h := h
    · exact .inr (s.setAbsent_reads hp (.inl rfl))
    · exact .inl h
    · exact .inr (s.setAbsent_reads hp (.inr h))

/-! ### What each frame does (R357, R358) -/

theorem State.Heard.isMaster (h : s.Heard u) : u.isMaster = s.isMaster := by
  unfold State.isMaster
  rw [h.flag, h.flag]

theorem State.Heard.isMember (h : s.Heard u) : u.isMember = s.isMember := by
  unfold State.isMember
  rw [h.flag, h.flag]

theorem State.Heard.enum (h : s.Heard u) : u.enum = s.enum := h.rd

theorem State.Heard.mine (h : s.Heard u) : u.ringMine f = s.ringMine f := by
  unfold State.ringMine State.position
  rw [h.rd]

theorem State.Heard.led (h : s.Heard u) : u.led = s.led := by rw [h.eq]

theorem State.Heard.now (h : s.Heard u) : u.now = s.now := by rw [h.eq]

theorem State.Heard.joinPayload (h : s.Heard u) : u.joinPayload = s.joinPayload := by
  have hf : u.fuses = s.fuses := by rw [h.eq]
  unfold State.joinPayload
  rw [hf, h.rd, h.rd]

set_option Elab.async false in
theorem State.onDiscover_member (hm : s.isMaster = false) (hf : s.ringMine f = true) (he : s.enum ≠ enOff) :
    s.onDiscover f = s.ringOut 0 ftJoin s.joinPayload := by
  simp [State.onDiscover, hm, hf, he]

/-- A master that hears another is in FAULT. -/
theorem State.onDiscover_master (hm : s.isMaster = true) (he : s.enum ≠ enOff) (hf : s.enum ≠ enFault) :
    (s.onDiscover f).enum = enFault ∧ (s.onDiscover f).ring.foreignAt = some s.now ∧ (s.onDiscover f).led = s.led := by
  have hex : s.onDiscover f =
      (({ s with ring := { s.ring with foreignAt := some s.now } } : State).wr Fld.CSC_STATUS_ENUM enFault).ringFault 0 := by
    have hf' : ({ s with ring := { s.ring with foreignAt := some s.now } } : State).enum ≠ enFault := hf
    unfold State.onDiscover
    rw [if_pos hm, if_neg he]
    exact if_neg hf'
  have hk : Keeps (fun s => (s.ring.foreignAt, s.led)) [Fld.CSC_STATUS_ENUM]
      (({ s with ring := { s.ring with foreignAt := some s.now } } : State).wr Fld.CSC_STATUS_ENUM enFault) (s.onDiscover f) := by
    rw [hex]
    exact .raiseLiving (.refl _)
  exact ⟨(hk.rd _ (by decide)).trans (State.rd_wr_same ..), congrArg (·.1) hk.part, congrArg (·.2) hk.part⟩

/-- An ADMIT is sent to a position the master has heard of. -/
def State.admitSent (s : State) (p : Nat) : State := (s.memberHeard p).ringOut p ftAdmit []

theorem State.admitSent_leaves (s : State) (p : Nat) : (s.admitSent p).regs = s.regs ∧
    (s.admitSent p).ring.members = s.ring.members ∧ (s.admitSent p).led = s.led ∧
    (s.admitSent p).ring.out.getLast? = some (none, (s.ringFrame p ftAdmit []).bytes) :=
  ⟨rfl, rfl, rfl, State.ringOut_last ..⟩

theorem State.Marked.congr {p : Nat} {uid : BitVec 64} (h : s.Marked p uid) (hr : t.regs = s.regs)
    (hm : t.ring.members = s.ring.members) : t.Marked p uid := by
  unfold State.Marked
  rw [State.rd_of_regs hr, State.rd_of_regs hr, hm]
  exact h

/-- A master admits an expected position that no other member holds. -/
theorem State.onJoin_admits {pos : Nat} (hpos : pos = num f.payload 8 1) (hm : s.isMaster = true) (hf : s.ringMine f = true)
    (he : s.enum = enSearch) (h8 : pos < 8) (hx : s.rd Fld.CSC_CFG_EXPECT / 2 ^ pos % 2 = 1)
    (hl : s.ring.members.lookup pos = none) : (s.onJoin f).Marked pos (BitVec.ofNat 64 (num f.payload 0 8)) ∧
      (s.onJoin f).ring.out.getLast? = some (none, (s.ringFrame pos ftAdmit []).bytes) ∧ (s.onJoin f).led = s.led := by
  subst hpos
  generalize hp : num f.payload 8 1 = pos at *
  generalize huid : BitVec.ofNat 64 (num f.payload 0 8) = uid
  have hmarked := s.setPresent_marked h8 uid
  have hk := s.setPresent_keeps pos uid
  have hoff : ∀ g ∈ frameFields, g ∈ memberFields := by decide
  have hseq : (s.setPresent pos uid).ring.seq = s.ring.seq := congrArg (·.2.2.2.2.2.2) hk.part
  have hframe : (s.setPresent pos uid).ringFrame pos ftAdmit [] = s.ringFrame pos ftAdmit [] :=
    State.ringFrame_congr hseq (fun g hg => hk.rd g (hoff g hg)) ..
  have hled : (s.setPresent pos uid).led = s.led := congrArg (·.1) hk.part
  generalize hv : s.setPresent pos uid = v at *
  obtain ⟨hregs, hmembers, hled', hlast⟩ := v.admitSent_leaves pos
  generalize ht : v.admitSent pos = t at *
  have hsent : t.Marked pos uid ∧ t.ring.out.getLast? = some (none, (s.ringFrame pos ftAdmit []).bytes) ∧ t.led = s.led :=
    ⟨hmarked.congr hregs hmembers, by rw [hlast, hframe], hled'.trans hled⟩
  have hraise (c n : Nat) (l : List Byte) (hc : c ≠ evStrataAreaDead) : (t.raise c n l).Marked pos uid ∧
      (t.raise c n l).ring.out.getLast? = some (none, (s.ringFrame pos ftAdmit []).bytes) ∧ (t.raise c n l).led = s.led :=
    ⟨hsent.1.raise _ _ _ hc, by simpa using hsent.2.1, by simpa using hsent.2.2⟩
  have hex : s.onJoin f = match s.ledNow.siteUid.lookup pos with
      | some o => if o = uid then t else t.raise evUidChange pos (beBytes 8 o.toNat ++ beBytes 8 uid.toNat)
      | none => t := by
    unfold State.onJoin
    rw [hp, huid, if_neg (by simp [hm, hf, he]), if_neg (by simp [hx]), hl]
    dsimp only
    rw [hv, ← ht]
    rfl
  rw [hex]
  split
  · split
    · exact hsent
    · exact hraise _ _ _ (by decide)
  · exact hsent

theorem State.onAdmit_runs (hm : s.isMember = true) (hf : s.ringMine f = true) (he : s.enum = enSearch) :
    s.onAdmit f = s.wr Fld.CSC_STATUS_ENUM enRun := by
  simp [State.onAdmit, hm, hf, he]

/-- DISCOVER to a list of positions: the frames in turn. -/
theorem State.foldl_discover (l : List Nat) (s : State) (k : Nat) :
    (l.foldl (fun s p => s.ringOut p ftDiscover []) s).regs = s.regs ∧
      (l.foldl (fun s p => s.ringOut p ftDiscover []) s).now = s.now ∧
      ∀ q : BitVec 16, s.ring.seq = q + BitVec.ofNat 16 k →
        (l.foldl (fun s p => s.ringOut p ftDiscover []) s).ring.out = s.ring.out ++
          ((l.zipIdx k).map fun (x : Nat × Nat) =>
            (none, { s.ringFrame x.1 ftDiscover [] with seq := q + BitVec.ofNat 16 x.2 }.bytes)) := by
  induction l generalizing s k with
  | nil => simp
  | cons p l ih =>
    obtain ⟨hregs, hnow, hout⟩ := ih (s.ringOut p ftDiscover []) (k + 1)
    refine ⟨hregs, hnow, fun q hq => ?_⟩
    have hq' : (s.ringOut p ftDiscover []).ring.seq = q + BitVec.ofNat 16 (k + 1) := by
      have hseq : (s.ringOut p ftDiscover []).ring.seq = s.ring.seq + 1 := rfl
      rw [hseq, hq, BitVec.ofNat_add, ← BitVec.add_assoc]
      rfl
    have hframe (d : Nat) (v : BitVec 16) : { (s.ringOut p ftDiscover []).ringFrame d ftDiscover [] with seq := v } =
        { s.ringFrame d ftDiscover [] with seq := v } := rfl
    have hown : s.ringFrame p ftDiscover [] = { s.ringFrame p ftDiscover [] with seq := q + BitVec.ofNat 16 k } := by
      rw [← hq]
      rfl
    rw [List.foldl_cons, hout q hq', State.ringOut_out, List.zipIdx_cons, List.map_cons, List.append_assoc,
      List.singleton_append, hown]
    rfl

/-- DISCOVER leaves the registers and the time. -/
theorem State.discoverTo_leaves (s : State) (mask : Nat) : (s.discoverTo mask).regs = s.regs ∧ (s.discoverTo mask).now = s.now := by
  obtain ⟨hregs, hnow, -⟩ := State.foldl_discover ((List.range 8).filter fun p => mask / 2 ^ p % 2 = 1) s 0
  exact ⟨hregs, hnow⟩

theorem State.discoverTo_out (s : State) (mask : Nat) : (s.discoverTo mask).ring.out = s.ring.out ++
    (((List.range 8).filter fun p => mask / 2 ^ p % 2 = 1).zipIdx.map fun (x : Nat × Nat) =>
      (none, { s.ringFrame x.1 ftDiscover [] with seq := s.ring.seq + BitVec.ofNat 16 x.2 }.bytes)) :=
  (State.foldl_discover _ s 0).2.2 s.ring.seq (by simp)

/-! ### The end of the search, and ports (R353, R357, R358) -/

theorem Keeps.followsTwin (h : Keeps part gs s t) (he : Fld.TWN_CFG_ENABLE ∈ gs := by decide +kernel)
    (hr : Fld.TWN_STATUS_ROLE ∈ gs := by decide +kernel) (hp : Fld.TWN_STATUS_PRESENT ∈ gs := by decide +kernel) :
    t.followsTwin = s.followsTwin := by
  unfold State.followsTwin
  rw [h.flag he, h.flag hr, h.flag hp]

/-- The search is over, before the members missing are marked. -/
def State.searchOver (s : State) : State := (s.until (s.ring.searchAt + 150)).wr Fld.CSC_STATUS_ENUM enRun

theorem State.searchOver_rd (s : State) {g : Field} (hg : Fld.CSC_STATUS_ENUM.apart g = true) : s.searchOver.rd g = s.rd g :=
  State.rd_wr_apart _ _ hg

/-- The positions that have not joined. -/
def State.missing (s : State) : List Nat :=
  (List.range 8).filter fun p => s.rd Fld.CSC_CFG_EXPECT / 2 ^ p % 2 = 1 && s.rd Fld.CSC_STATUS_PRESENT / 2 ^ p % 2 = 0

theorem State.searchEnd_eq (hon : s.ringOn = true) (hm : s.isMaster = true) (he : s.enum = enSearch) : s.searchEnd =
    if (s.searchOver.missing.foldl State.setAbsent s.searchOver).followsTwin then s.searchOver.missing.foldl State.setAbsent s.searchOver
    else (s.searchOver.missing.foldl State.setAbsent s.searchOver).wr Fld.CSC_STATUS_ALIGN alAligned := by
  unfold State.searchEnd
  rw [if_neg (by simp [hon, hm, he])]
  rfl

theorem State.searchEnd_spec (hon : s.ringOn = true) (hm : s.isMaster = true) (he : s.enum = enSearch) :
    s.searchEnd.enum = enRun ∧ s.searchEnd.now = max s.now (s.ring.searchAt + 150) ∧
      (∀ p, p < 8 → s.rd Fld.CSC_CFG_EXPECT / 2 ^ p % 2 = 1 → s.rd Fld.CSC_STATUS_PRESENT / 2 ^ p % 2 = 0 →
        s.searchEnd.rd Fld.CSC_STATUS_ABSENT / 2 ^ p % 2 = 1) ∧
      (s.followsTwin = false → s.searchEnd.rd Fld.CSC_STATUS_ALIGN = alAligned) ∧ s.searchEnd.led = s.led := by
  obtain ⟨habsent, hk⟩ := State.foldl_setAbsent s.searchOver.missing s.searchOver
  have hover : s.searchOver.enum = enRun := State.rd_wr_same ..
  have hparts : s.searchOver.led = s.led ∧ s.searchOver.now = max s.now (s.ring.searchAt + 150) := ⟨rfl, rfl⟩
  have hfollow : s.searchOver.followsTwin = s.followsTwin := by
    unfold State.followsTwin
    rw [State.flag_congr (s.searchOver_rd (g := Fld.TWN_CFG_ENABLE) (by decide)),
      State.flag_congr (s.searchOver_rd (g := Fld.TWN_STATUS_ROLE) (by decide)),
      State.flag_congr (s.searchOver_rd (g := Fld.TWN_STATUS_PRESENT) (by decide))]
  have hmissing {p : Nat} (h8 : p < 8) (hx : s.rd Fld.CSC_CFG_EXPECT / 2 ^ p % 2 = 1)
      (hp : s.rd Fld.CSC_STATUS_PRESENT / 2 ^ p % 2 = 0) : p ∈ s.searchOver.missing := by
    simp [State.missing, s.searchOver_rd (g := Fld.CSC_CFG_EXPECT) (by decide),
      s.searchOver_rd (g := Fld.CSC_STATUS_PRESENT) (by decide), h8, hx, hp]
  rw [State.searchEnd_eq hon hm he]
  generalize s.searchOver.missing = l at *
  generalize hv : l.foldl State.setAbsent s.searchOver = v at *
  have henum : v.enum = enRun := (hk.rd _ (by decide)).trans hover
  have hnow : v.now = max s.now (s.ring.searchAt + 150) := (congrArg (·.2.1) hk.part).trans hparts.2
  have hled : v.led = s.led := (congrArg (·.1) hk.part).trans hparts.1
  have hft : v.followsTwin = s.followsTwin := hk.followsTwin.trans hfollow
  by_cases hf : s.followsTwin = true
  · rw [if_pos (hft.trans hf)]
    exact ⟨henum, hnow, fun p h8 hx hp => habsent p h8 (.inl (hmissing h8 hx hp)), fun h => absurd hf (by simp [h]), hled⟩
  · rw [if_neg (by rwa [hft])]
    refine ⟨(State.rd_wr_apart _ _ (by decide)).trans henum, hnow, fun p h8 hx hp => ?_, fun _ => State.rd_wr_same .., hled⟩
    rw [State.rd_wr_apart _ _ (by decide)]
    exact habsent p h8 (.inl (hmissing h8 hx hp))

/-- A search leaves a device in SEARCH. -/
theorem State.ringSearch_spec (s : State) : s.ringSearch.enum = enSearch ∧ s.ringSearch.now = s.now := by
  have hbegun : (({ s with ring := { s.ring with searchAt := s.now } } : State).wr Fld.CSC_STATUS_ENUM enSearch).enum = enSearch :=
    State.rd_wr_same ..
  unfold State.ringSearch
  extract_lets r u
  split
  · obtain ⟨hregs, hnow⟩ := u.discoverTo_leaves (u.rd Fld.CSC_CFG_EXPECT)
    exact ⟨(State.rd_of_regs hregs _).trans hbegun, hnow⟩
  · exact ⟨hbegun, rfl⟩

/-- The positions that are PRESENT. -/
def State.presentOnes (s : State) : List Nat := (List.range 8).filter fun i => s.rd Fld.CSC_STATUS_PRESENT / 2 ^ i % 2 = 1

/-- A port is down. -/
def State.portLost (s : State) (p : RingPort) : State :=
  { s with ring := { s.ring with portDown := p :: s.ring.portDown.filter fun x => x ≠ p } }

set_option Elab.async false in
theorem State.ringPortDown_eq (s : State) (p : RingPort) : s.ringPortDown p =
    if s.isMaster && 2 ≤ (s.portLost p).ring.portDown.length then s.presentOnes.foldl State.setAbsent (s.portLost p)
    else s.portLost p := rfl

theorem State.ringPortDown_spec (s : State) (p : RingPort) : p ∈ (s.ringPortDown p).ring.portDown ∧
    (s.isMaster = true → otherPort p ∈ s.ring.portDown → ∀ i, i < 8 → s.rd Fld.CSC_STATUS_PRESENT / 2 ^ i % 2 = 1 →
      (s.ringPortDown p).rd Fld.CSC_STATUS_ABSENT / 2 ^ i % 2 = 1) := by
  obtain ⟨habsent, hk⟩ := State.foldl_setAbsent s.presentOnes (s.portLost p)
  have hlost : p ∈ (s.portLost p).ring.portDown := by simp [State.portLost]
  have hdown : (s.presentOnes.foldl State.setAbsent (s.portLost p)).ring.portDown = (s.portLost p).ring.portDown :=
    congrArg (·.2.2.2.2.1) hk.part
  rw [State.ringPortDown_eq]
  refine ⟨?_, fun hm ho i h8 hi => ?_⟩
  · split
    · rwa [hdown]
    · exact hlost
  · have hne : otherPort p ≠ p := by cases p <;> decide
    have hmem : otherPort p ∈ s.ring.portDown.filter fun x => x ≠ p := by simp [ho, hne]
    have htwo : 2 ≤ (s.portLost p).ring.portDown.length := Nat.succ_le_succ (List.length_pos_of_mem hmem)
    rw [if_pos (by simp [hm, htwo])]
    exact habsent i h8 (.inl (by simp [State.presentOnes, h8, hi]))

/-- Settles O48: frames by `State.ringTake_first` and the lemma of what each does, the search's end by
`State.searchEnd_spec`, ports by `State.ringPortDown_spec`. -/
theorem ringEnumeration : Obligations.RingEnumeration := by
  unfold Obligations.RingEnumeration
  intro s port bs sent
  refine ⟨fun hon hp ht hr => ⟨_, congrArg Host.Outcome.next (State.ringTake_bad hon hp hr ht 0 _), State.rd_count_same ..,
    .wr (.refl s _)⟩, fun f hon hp hr hh hsite hring hseq => ?frames, fun hon hm he => ⟨⟨s.discoverDue, rfl, ?discover⟩,
    ⟨s.searchEnd, rfl, State.searchEnd_spec hon hm he⟩⟩, fun hon hm he => ⟨s.joinAgain, rfl, ?retry⟩, fun p hm hpres => ?silent,
    fun a hm he ha => ⟨s.faultEnd, rfl, ?fault⟩, fun p => ⟨⟨_, rfl, s.ringPortDown_spec p⟩, ⟨_, rfl, ?_, rfl, fun q hq => ?_⟩⟩⟩
  case frames =>
    have hfirst : s.FrameFirst port bs f := ⟨⟨hon, hp, hr, hh, hsite, hring⟩, hseq⟩
    refine ⟨fun ht hl => ⟨fun hm hf he => ?member, fun hm he hfa => ?master⟩, fun pos h b c hbs ht hl hpos hm hf he h8 hx hnone => ?join,
      fun ht hl hm hf he => ?admitted⟩
    case member =>
      obtain ⟨u, hu, hheard, -⟩ := State.ringTake_first hfirst ht hl fun f s => s.onDiscover f
      rw [State.onDiscover_member (by rw [hheard.isMaster, hm]) (by rw [hheard.mine, hf]) (by rwa [hheard.enum])] at hu
      refine ⟨_, congrArg Host.Outcome.next hu, (State.ringOut_last ..).trans ?_, hheard.led⟩
      rw [hheard.frame, hheard.joinPayload]
    case master =>
      obtain ⟨u, hu, hheard, -⟩ := State.ringTake_first hfirst ht hl fun f s => s.onDiscover f
      obtain ⟨henum, hforeign, hled⟩ := State.onDiscover_master (s := u) (f := f) (by rw [hheard.isMaster, hm])
        (by rwa [hheard.enum]) (by rwa [hheard.enum])
      exact ⟨_, congrArg Host.Outcome.next hu, henum, hforeign.trans (congrArg some hheard.now),
        hled.trans (hheard.led)⟩
    case join =>
      subst hbs
      obtain ⟨u, hu, hheard, -⟩ := State.ringTake_first hfirst ht hl fun f s => s.onJoin f
      have hmembers : u.ring.members = s.ring.members := by rw [hheard.eq]
      obtain ⟨⟨hpres, habs, hmem⟩, hlast, hled⟩ := State.onJoin_admits (s := u) hpos (by rw [hheard.isMaster, hm])
        (by rw [hheard.mine, hf]) (by rw [hheard.enum, he]) h8 (by rw [hheard.rd, hx]) (by rw [hmembers, hnone])
      exact ⟨_, congrArg Host.Outcome.next hu, hpres, habs, hmem, hlast.trans (by rw [hheard.frame]),
        hled.trans (hheard.led)⟩
    case admitted =>
      obtain ⟨u, hu, hheard, -⟩ := State.ringTake_first hfirst ht hl fun f s => s.onAdmit f
      rw [State.onAdmit_runs (by rw [hheard.isMember, hm]) (by rw [hheard.mine, hf]) (by rw [hheard.enum, he])] at hu
      exact ⟨_, congrArg Host.Outcome.next hu, State.rd_wr_same .., hheard.led⟩
  case discover =>
    have hex : s.discoverDue = s.discoverTo (s.rd Fld.CSC_CFG_EXPECT) := by simp [State.discoverDue, hon, hm, he]
    rw [hex]
    exact ⟨(s.discoverTo_leaves _).1, s.discoverTo_out _⟩
  case retry =>
    have hex : s.joinAgain = s.ringOut 0 ftJoin s.joinPayload := by simp [State.joinAgain, hon, hm, he]
    rw [hex]
    exact ⟨State.ringOut_last .., rfl⟩
  case silent =>
    refine ⟨fun hsil => ⟨s.memberTimeout p.val, rfl, ?_⟩, fun k hk hlt => congrArg Host.Outcome.next (if_neg ?_)⟩
    · have hex : s.memberTimeout p.val = s.setAbsent p.val := by
        have hs : s.memberSilent p.val = true := by
          unfold State.memberSilent
          rw [Option.all_eq_true]
          exact fun k hk => by simpa using hsil k hk
        simp [State.memberTimeout, hm, hpres, hs]
      have hk := State.setAbsent_keeps (.refl s) p.val
      rw [hex]
      exact ⟨s.setAbsent_reads p.isLt (.inl rfl), congrArg (·.1) hk.part⟩
    · have hs : s.memberSilent p.val = false := by simp [State.memberSilent, hk, hlt]
      simp [hs]
  case fault =>
    have hex : s.faultEnd = (s.until (a + 10000)).ringSearch := by simp [State.faultEnd, hm, he, ha]
    rw [hex]
    exact (s.until (a + 10000)).ringSearch_spec
  · simp
  · simp [hq]

end Sys2Proof.Machine
end

section
/-!
Time on the ring (R356, R361 to R363, R366): markers sent, forwarded and followed, and the delays of the hops; contributions of
the members (R217, R367).
-/

namespace Sys2Proof.Machine
variable {α : Type} {part : State → α} {gs : List Field} {s0 s t u : State} {port : RingPort} {bs : List Byte} {f : LinkFrame}

/-! ### The copies of a marker (R355, R361) -/

/-- The ring once a marker has come on a port. -/
def markerCame (r : Ring) (port : RingPort) (f : LinkFrame) : Ring :=
  let r := if r.marker = some f.seq then r else { r with prevMarker := r.marker, marker := some f.seq }
  match port with
  | .u => { r with markerU := some (f.seq, f.hops) }
  | .d => { r with markerD := some (f.seq, f.hops) }

/-- The ring once a marker is noted: those on one port only are counted. -/
def markerNoted (r : Ring) (port : RingPort) (f : LinkFrame) : Ring :=
  let r := markerCame r port f
  if r.markerU.map (·.1) = r.markerD.map (·.1) then { r with oneSided := 0 } else { r with oneSided := r.oneSided + 1 }

/-- A noted marker shows the ring whole, broken, or as before. -/
theorem State.noteMarker_cases (s : State) (port : RingPort) (f : LinkFrame) {P : State → Prop}
    (hwhole : P (({ s with ring := markerNoted s.ring port f } : State).wrB Fld.CSC_STATUS_BROKEN false))
    (hbroken : P ((({ s with ring := markerNoted s.ring port f } : State).wrB Fld.CSC_STATUS_BROKEN true).raise evRingBroken 0xFF []))
    (hsame : P { s with ring := markerNoted s.ring port f }) : P (s.noteMarker port f) := by
  have hex : s.noteMarker port f =
      if (markerCame s.ring port f).markerU.map (·.1) = (markerCame s.ring port f).markerD.map (·.1) then
        ({ s with ring := { markerCame s.ring port f with oneSided := 0 } } : State).wrB Fld.CSC_STATUS_BROKEN false
      else
        let n := (markerCame s.ring port f).oneSided + 1
        let s : State := { s with ring := { markerCame s.ring port f with oneSided := n } }
        if 16 < n && !s.flag Fld.CSC_STATUS_BROKEN then (s.wrB Fld.CSC_STATUS_BROKEN true).raise evRingBroken 0xFF [] else s := rfl
  unfold markerNoted at hwhole hbroken hsame
  rw [hex]
  dsimp only at hwhole hbroken hsame ⊢
  split
  next h => rwa [if_pos h] at hwhole
  next h =>
    rw [if_neg h] at hbroken hsame
    split
    · exact hbroken
    · exact hsame

/-- The fields that decide what a marker does. -/
abbrev markerFields : List Field :=
  [Fld.CSC_STATUS_ALIGN, Fld.CSC_STATUS_ENUM, Fld.CSC_CFG_ENABLE, Fld.CSC_STATUS_ROLE, Fld.TWN_CFG_ENABLE, Fld.TWN_STATUS_ROLE,
    Fld.TWN_STATUS_PRESENT]

theorem State.noteMarker_keeps (s : State) (port : RingPort) (f : LinkFrame) :
    Keeps State.led markerFields s (s.noteMarker port f) := by
  have hnoted : Keeps State.led markerFields s { s with ring := markerNoted s.ring port f } := .update (.refl s)
  refine s.noteMarker_cases port f ?_ ?_ hnoted
  · exact .wrB hnoted
  · exact .raiseLiving (.wrB hnoted)

theorem State.noteMarker_ring (s : State) (port : RingPort) (f : LinkFrame) :
    (s.noteMarker port f).ring = markerNoted s.ring port f := by
  refine s.noteMarker_cases (P := fun t => t.ring = markerNoted s.ring port f) port f rfl ?_ rfl
  simp

/-- The ring's frames, sent and seen, are nothing to the copies of a marker. -/
theorem markerNoted_frames (r : Ring) (out : List (Option RingPort × List Byte)) (seen : List (Nat × List (BitVec 16)))
    (port : RingPort) (f : LinkFrame) : markerNoted { r with out, seen } port f = { markerNoted r port f with out, seen } := by
  have hcame : markerCame { r with out, seen } port f = { markerCame r port f with out, seen } := by
    unfold markerCame
    cases port <;> dsimp only <;> split <;> rfl
  unfold markerNoted
  rw [hcame]
  dsimp only
  split <;> rfl

/-- What of a ring a noted marker leaves. -/
theorem markerNoted_leaves (r : Ring) (port : RingPort) (f : LinkFrame) : (markerNoted r port f).out = r.out ∧
    (markerNoted r port f).bad = r.bad ∧ (markerNoted r port f).usedMarker = r.usedMarker := by
  have hcame : (markerCame r port f).out = r.out ∧ (markerCame r port f).bad = r.bad ∧
      (markerCame r port f).usedMarker = r.usedMarker := by
    unfold markerCame
    cases port <;> dsimp only <;> split <;> exact ⟨rfl, rfl, rfl⟩
  unfold markerNoted
  dsimp only
  split <;> exact hcame

theorem State.betterCopy_congr (h : ∃ out seen, t.ring = { s.ring with out, seen }) : t.betterCopy port f = s.betterCopy port f := by
  obtain ⟨out, seen, h⟩ := h
  unfold State.betterCopy
  rw [h]

/-! ### A marker followed (R361 to R363) -/

/-- A marker the device follows, before it acts on the phase error. -/
def State.markerMet (s : State) (hops : Nat) (e : Int) : State :=
  let sat : Int := if e < -32768 then -32768 else if 32767 < e then 32767 else e
  let s := (s.wrS Fld.CSC_ALIGN_PHASE sat).wr Fld.CSC_ALIGN_HOPS hops
  let s := { s with ring := { s.ring with markerAt := s.now } }
  if s.flag Fld.CSC_CFG_CLOCK then ({ s with ring := { s.ring with vctl := s.openWord } }).drawn else s

/-- What a marker that is met leaves of the ring and the ledger. -/
abbrev State.markerBeside (s : State) := (s.led, s.ring.master, s.ring.out, s.ring.bad)

theorem State.markerMet_keeps (s : State) (hops : Nat) (e : Int) :
    Keeps State.markerBeside [Fld.CSC_STATUS_ALIGN, Fld.CSC_MTICK_MTICK] s (s.markerMet hops e) := by
  unfold State.markerMet
  extract_lets sat u r v
  have hu : Keeps State.markerBeside [Fld.CSC_STATUS_ALIGN, Fld.CSC_MTICK_MTICK] s u := .wr (.wrS (.refl s))
  have hv : Keeps State.markerBeside [Fld.CSC_STATUS_ALIGN, Fld.CSC_MTICK_MTICK] s v := .update hu
  exact .ite (.drawn (.update hv)) hv

/-- The alignment begins at a SECOND marker: its epoch is the base. -/
def State.alignBegun (s : State) (epoch : Nat) : State :=
  ({ s.setBase epoch with ring := { s.ring with good := 0, bad := 0, corrections := [] } }).wr Fld.CSC_STATUS_ALIGN alAligning

theorem State.alignBegun_keeps (s : State) (epoch : Nat) :
    Keeps (fun s => (s.led, s.ring.master, s.ring.out)) [Fld.CSC_MTICK_MTICK] s (s.alignBegun epoch) := by
  have hbase : Keeps (fun s => (s.led, s.ring.master, s.ring.out)) [Fld.CSC_MTICK_MTICK] s (s.setBase epoch) := by
    unfold State.setBase
    exact .wr (.refl s)
  exact .wr (.update hbase)

theorem State.alignBegun_shows (s : State) {epoch : Nat} (h : epoch < 2 ^ 64) : (s.alignBegun epoch).base = epoch ∧
    (s.alignBegun epoch).rd Fld.CSC_STATUS_ALIGN = alAligning := by
  have hw : Fld.SYS_EPOCH_SEC_BASE.width = 64 := rfl
  refine ⟨(State.rd_wr_apart _ _ (by decide)).trans ?_, State.rd_wr_same ..⟩
  have hbase : (s.setBase epoch).rd Fld.SYS_EPOCH_SEC_BASE = epoch := by
    unfold State.setBase
    rw [State.rd_wr_same, hw, Nat.mod_eq_of_lt h]
  exact (State.rd_of_regs rfl _).trans hbase

/-- The phase steered while the alignment is under way, and the markers in turn with a small phase error. -/
def State.alignSteered (s : State) (e : Int) : State :=
  let t := s.steerPhase e
  { t with ring := { t.ring with good := if e.natAbs ≤ 80 then t.ring.good + 1 else 0 } }

/-- The alignment is complete. -/
def State.alignDone (s : State) : State :=
  ({ s with ring := { s.ring with bad := 0, corrections := [] } }.wr Fld.CSC_STATUS_ALIGN alAligned).wrB
    Fld.SYS_TIME_EPOCH_ALIGNED true

/-- The steps of an aligned follower, before a loss. -/
def State.alignHeld (s : State) (e : Int) : State :=
  let s := s.wr Fld.CSC_STATUS_ALIGN alAligned
  let bad := if 800 < e.natAbs then s.ring.bad + 1 else 0
  let t := s.steerTrim e
  { t with ring := { t.ring with bad := bad } }

/-- An aligned follower loses its alignment to the fourth large phase error, or to its corrections, or holds it. -/
def State.alignFollowed (s : State) (e : Int) : State :=
  if 4 ≤ (s.alignHeld e).ring.bad then (s.alignHeld e).alignLost 0 e
  else if 4 < ((s.alignHeld e).ring.corrections.filter fun x => (s.alignHeld e).now < x + 1000).length then (s.alignHeld e).alignLost 1 e
  else s.alignHeld e

/-- What a marker that is met does to the alignment. -/
def State.alignTaken (s : State) (second : Bool) (epoch : Nat) (e : Int) : State :=
  if s.rd Fld.CSC_STATUS_ALIGN = alNone then if second then s.alignBegun epoch else s
  else if s.rd Fld.CSC_STATUS_ALIGN = alAligning then
    if (s.alignSteered e).ring.good < 64 then s.alignSteered e else (s.alignSteered e).alignDone
  else if second && epoch % secondEpochs ≠ s.base % secondEpochs then s.alignLost 2 e
  else s.alignFollowed e

set_option Elab.async false in
theorem State.alignStep_eq (s : State) (second : Bool) (hops epoch : Nat) (e : Int) :
    s.alignStep second hops epoch e = (s.markerMet hops e).alignTaken second epoch e := rfl

theorem State.alignStep_begins (h : s.rd Fld.CSC_STATUS_ALIGN = alNone) (hops epoch : Nat) (e : Int) :
    s.alignStep true hops epoch e = (s.markerMet hops e).alignBegun epoch :=
  if_pos (((s.markerMet_keeps hops e).rd _ (by simp)).trans h)

theorem State.steerTrim_keeps (h : Keeps part gs s0 s) {e : Int} (hf : gs.all (Field.apart Fld.CSC_ALIGN_TRIM) = true := by decide +kernel)
    (hp : ∀ u r, part { u with regs := r } = part u := by intros; rfl)
    (hc : ∀ u l n, part { u with ring := { u.ring with corrections := l, epochShift := n } } = part u := by intros; rfl) :
    Keeps part gs s0 (s.steerTrim e) := by
  unfold State.steerTrim
  extract_lets ns t r v
  have hv : Keeps part gs s0 v := h.update (hc s _ s.ring.epochShift)
  have hshift (u : State) (n : Int) (hu : Keeps part gs s0 u) : Keeps part gs s0 (u.shiftEpoch n) :=
    hu.update (hc u u.ring.corrections _)
  exact .ite (.wr h hf hp) (.ite (hshift _ _ (.wr hv hf hp)) (hshift _ _ (.wr hv hf hp)))

theorem State.alignTaken_fourth (h : s.rd Fld.CSC_STATUS_ALIGN = alAligned) (hb : s.ring.bad = 3) {e : Int} (he : 800 < e.natAbs)
    (epoch : Nat) : s.alignTaken false epoch e = (s.alignHeld e).alignLost 0 e := by
  have hbad : (s.alignHeld e).ring.bad = s.ring.bad + 1 := if_pos he
  rw [State.alignTaken, if_neg (by rw [h]; decide), if_neg (by rw [h]; decide), if_neg (by simp)]
  exact if_pos (by omega)

theorem State.alignStep_fourth (h : s.rd Fld.CSC_STATUS_ALIGN = alAligned) (hb : s.ring.bad = 3) {e : Int} (he : 800 < e.natAbs)
    (hops epoch : Nat) : s.alignStep false hops epoch e = ((s.markerMet hops e).alignHeld e).alignLost 0 e := by
  have hk := s.markerMet_keeps hops e
  exact State.alignTaken_fourth ((hk.rd _ (by simp)).trans h) ((congrArg (·.2.2.2) hk.part).trans hb) he epoch

theorem State.alignLost_shows (s : State) (cause : Nat) (e : Int) : (s.alignLost cause e).rd Fld.CSC_STATUS_ALIGN = alNone ∧
    (s.alignLost cause e).flag Fld.SYS_TIME_EPOCH_ALIGNED = false ∧ (s.alignLost cause e).led = s.led ∧
    (s.alignLost cause e).ring.out = s.ring.out := by
  unfold State.alignLost
  extract_lets u r v
  have hu : u.rd Fld.CSC_STATUS_ALIGN = alNone ∧ u.flag Fld.SYS_TIME_EPOCH_ALIGNED = false :=
    ⟨(State.rd_wrB_apart _ _ (by decide)).trans (State.rd_wr_same ..), State.flag_wrB_same _ _ _ rfl⟩
  have hk : Keeps (fun s => (s.led, s.ring.out)) [Fld.CSC_STATUS_ALIGN, Fld.SYS_TIME_EPOCH_ALIGNED] u
      ((v.count Fld.CSC_ERR_ALIGN_LOSS).raise evAlignLost 0xFF (beBytes 1 cause ++ beBytes 2 (ofSigned 16 e))) :=
    .raiseLiving (.count (.update (.refl u)))
  exact ⟨(hk.rd _ (by simp)).trans hu.1, hk.flag.trans hu.2, congrArg (·.1) hk.part, congrArg (·.2) hk.part⟩

theorem State.alignHeld_out (s : State) (e : Int) : (s.alignHeld e).ring.out = s.ring.out :=
  (State.steerTrim_keeps (part := fun s => s.ring.out) (gs := []) (.wr (.refl s))).part

theorem State.alignSteered_out (s : State) (e : Int) : (s.alignSteered e).ring.out = s.ring.out := by
  have hk : Keeps (fun s => s.ring.out) [] s (s.steerPhase e) := by
    unfold State.steerPhase
    exact .ite (.update (.refl s)) (State.steerTrim_keeps (.refl s))
  exact hk.part

theorem State.alignTaken_out (s : State) (second : Bool) (epoch : Nat) (e : Int) :
    (s.alignTaken second epoch e).ring.out = s.ring.out := by
  have hlost (u : State) (c : Nat) : (u.alignLost c e).ring.out = u.ring.out := (u.alignLost_shows c e).2.2.2
  unfold State.alignTaken State.alignFollowed
  split
  · split
    · exact congrArg (·.2.2) (s.alignBegun_keeps epoch).part
    · rfl
  · split
    · split
      · exact s.alignSteered_out e
      · exact s.alignSteered_out e
    · split
      · exact hlost ..
      · split
        · exact (hlost ..).trans (s.alignHeld_out e)
        · split
          · exact (hlost ..).trans (s.alignHeld_out e)
          · exact s.alignHeld_out e

/-- Whatever a marker does to the alignment, no frame is sent. -/
theorem State.alignStep_out (s : State) (second : Bool) (hops epoch : Nat) (e : Int) :
    (s.alignStep second hops epoch e).ring.out = s.ring.out :=
  (State.alignTaken_out ..).trans (congrArg (·.2.2.1) (s.markerMet_keeps hops e).part)

/-! ### A marker received (R361, R366) -/

/-- A SECOND marker brings the master's time and tick (R366). -/
def State.masterTold (s : State) (m : MarkerPayload) : State :=
  ({ s with ring := { s.ring with master := some (m.time, m.tsrc, 0), secondAt := s.now } }).wr Fld.CSC_MTICK_MTICK m.mtick

/-- A marker is the one used for the alignment. -/
def State.markerUsed (s : State) (epoch : Nat) (f : LinkFrame) : State :=
  { s.untilEpoch epoch with ring := { s.ring with usedMarker := some f.seq } }

/-- What a marker that came for the first time does, beside its way on the ring. -/
def State.markerHeard (s : State) (port : RingPort) (f : LinkFrame) (hop epoch : Nat) (lag : Int) : State :=
  let s := s.drawn.noteMarker port f
  if !s.isMember || s.enum ≠ enRun || f.src ≠ 0 || f.payload.length ≠ 20 then s
  else
    let m := markerRead f.payload
    let s := if m.second then s.masterTold m else s
    if s.followsTwin || s.ring.usedMarker = some f.seq || s.betterCopy port f then s
    else (s.markerUsed epoch f).alignStep m.second f.hops epoch (markerPhase lag m.acc hop)

theorem State.onMarker_first (h : s.FrameFirst port bs f) (ht : f.type = ftMarker) (epoch : Nat) (lag : Int) :
    ∃ u, s.onMarker port bs epoch lag = u.markerHeard port f (s.hopDelay port) epoch lag ∧ s.Heard u ∧
      (f.dest ≠ s.position → (some (otherPort port),
        { f with hops := f.hops + 1, payload := addAcc (s.hopDelay port + (1920 + s.openWord % 961)) f.payload }.bytes) ∈ u.ring.out) := by
  obtain ⟨u, hu, hheard, -, hfwd⟩ := State.ringRx_first h (addAcc (s.hopDelay port + (1920 + s.openWord % 961)))
  have his : frameIs ftMarker bs = true := by simp [frameIs, linkRead_type h.read, ht]
  refine ⟨u, ?_, hheard, hfwd⟩
  unfold State.onMarker
  rw [if_neg (by simp [his])]
  dsimp only
  rw [hu]
  dsimp only
  simp only [Bool.and_true]
  rfl

theorem State.masterTold_keeps (s : State) (m : MarkerPayload) :
    Keeps (fun s => (s.led, s.ring.out, s.ring.bad, s.ring.usedMarker)) markerFields s (s.masterTold m) := .wr (.update (.refl s))

/-- A marker heard sends no frame of its own. -/
theorem State.markerHeard_out (s : State) (port : RingPort) (f : LinkFrame) (hop epoch : Nat) (lag : Int) :
    (s.markerHeard port f hop epoch lag).ring.out = s.ring.out := by
  have hnoted : (s.drawn.noteMarker port f).ring.out = s.ring.out := by
    rw [State.noteMarker_ring]
    exact (markerNoted_leaves ..).1
  unfold State.markerHeard
  extract_lets u m v
  have hv : v.ring.out = s.ring.out := by
    unfold v
    split
    · exact (congrArg (·.2.1) (u.masterTold_keeps m).part).trans hnoted
    · exact hnoted
  have hu : u.ring.out = s.ring.out := hnoted
  clear_value u v
  split
  · exact hu
  split
  · exact hv
  · exact (State.alignStep_out ..).trans hv

/-- A marker the device follows: it is noted, told and used. -/
structure State.MarkerFollowed (s : State) (port : RingPort) (f : LinkFrame) : Prop where
  length : f.payload.length = 20
  member : s.isMember = true
  run : s.enum = enRun
  src : f.src = 0
  alone : s.followsTwin = false
  fresh : s.ring.usedMarker ≠ some f.seq
  best : (s.noteMarker port f).betterCopy port f = false

set_option Elab.async false in
theorem Keeps.isMember (h : Keeps part markerFields s t) : t.isMember = s.isMember := by
  unfold State.isMember
  rw [h.flag (g := Fld.CSC_CFG_ENABLE), h.flag (g := Fld.CSC_STATUS_ROLE)]

theorem State.Heard.marks (h : s.Heard u) : Keeps State.led markerFields s u := by
  have hoff : ∀ g ∈ markerFields, ∀ a ∈ [Adr.CSC_ERR], a < g.addr ∨ g.addr + 4 * g.words ≤ a := by decide
  exact ⟨h.led, fun g hg => h.rd (hoff g hg)⟩

/-- A marker that is noted, after what its reception leaves. -/
theorem State.Heard.noted (h : s.Heard u) (port : RingPort) (f : LinkFrame) :
    Keeps State.led markerFields s (u.drawn.noteMarker port f) ∧
      ∃ out seen, (u.drawn.noteMarker port f).ring = { (s.noteMarker port f).ring with out, seen } := by
  refine ⟨h.marks.drawn.trans (State.noteMarker_keeps ..), u.ring.out, u.ring.seen, ?_⟩
  have hring : u.drawn.ring = { s.ring with out := u.ring.out, seen := u.ring.seen } := by
    have hu : u.drawn.ring = u.ring := rfl
    rw [hu, h.eq]
  rw [State.noteMarker_ring, State.noteMarker_ring, hring, markerNoted_frames]

/-- A marker the device follows acts on the alignment, of a state where it is noted. -/
theorem State.MarkerFollowed.heard (hf : s.MarkerFollowed port f) (h : s.Heard u) (hop epoch : Nat) (lag : Int) :
    ∃ v, Keeps State.led markerFields s v ∧ v.ring.bad = s.ring.bad ∧
      u.markerHeard port f hop epoch lag =
        ((if (markerRead f.payload).second then v.masterTold (markerRead f.payload) else v).markerUsed epoch f).alignStep
          (markerRead f.payload).second f.hops epoch (markerPhase lag (markerRead f.payload).acc hop) := by
  obtain ⟨hk, hring⟩ := h.noted port f
  have hbetter := (State.betterCopy_congr (port := port) (f := f) hring).trans hf.best
  obtain ⟨out, seen, hring⟩ := hring
  obtain ⟨-, hbad, hused⟩ := markerNoted_leaves s.ring port f
  rw [← State.noteMarker_ring] at hbad hused
  generalize hv : u.drawn.noteMarker port f = v at *
  have hbad' : v.ring.bad = s.ring.bad := by rw [hring]; exact hbad
  have hused' : v.ring.usedMarker ≠ some f.seq := by rw [hring]; exact hused ▸ hf.fresh
  have henum : v.enum = enRun := (hk.rd _ (by simp)).trans hf.run
  refine ⟨v, hk, hbad', ?_⟩
  unfold State.markerHeard
  rw [hv]
  dsimp only
  rw [if_neg (by simp [hk.isMember, hf.member, henum, hf.src, hf.length])]
  generalize markerRead f.payload = m
  have hk' : Keeps (fun s => (s.led, s.ring.out, s.ring.bad, s.ring.usedMarker)) markerFields v (if m.second then v.masterTold m else v) :=
    .ite (v.masterTold_keeps m) (.refl v)
  have hb' : (if m.second then v.masterTold m else v).betterCopy port f = false := by
    split
    · exact hbetter
    · exact hbetter
  have hu' : (if m.second then v.masterTold m else v).ring.usedMarker ≠ some f.seq := by
    have hsame : (if m.second then v.masterTold m else v).ring.usedMarker = v.ring.usedMarker := congrArg (·.2.2.2) hk'.part
    rw [hsame]
    exact hused'
  rw [if_neg (by simp [hk'.followsTwin.trans (hk.followsTwin.trans hf.alone), hb', hu'])]

/-- The first SECOND marker of a member that is not aligned: its epoch is the base. -/
theorem State.MarkerFollowed.begins (hf : s.MarkerFollowed port f) (h : s.Heard u) {hop epoch : Nat} {lag : Int}
    (hs : (markerRead f.payload).second = true) (ha : s.rd Fld.CSC_STATUS_ALIGN = alNone) (he : epoch < 2 ^ 64) :
    (u.markerHeard port f hop epoch lag).ring.master = some ((markerRead f.payload).time, (markerRead f.payload).tsrc, 0) ∧
      (u.markerHeard port f hop epoch lag).rd Fld.CSC_MTICK_MTICK = (markerRead f.payload).mtick ∧
      (u.markerHeard port f hop epoch lag).base = epoch ∧
      (u.markerHeard port f hop epoch lag).rd Fld.CSC_STATUS_ALIGN = alAligning ∧
      (u.markerHeard port f hop epoch lag).led = s.led := by
  obtain ⟨v, hk, -, hex⟩ := hf.heard h hop epoch lag
  have hm : (markerRead f.payload).mtick < 2 ^ 32 := num_lt f.payload 8 4
  generalize markerRead f.payload = m at *
  rw [hs, if_pos rfl] at hex
  have hfields := (v.masterTold_keeps m).rd Fld.CSC_STATUS_ALIGN (by simp)
  have hled : (v.masterTold m).led = s.led := hk.part
  have htold : (v.masterTold m).rd Fld.CSC_MTICK_MTICK = m.mtick := by
    have hw : Fld.CSC_MTICK_MTICK.width = 32 := rfl
    unfold State.masterTold
    rw [State.rd_wr_same, hw, Nat.mod_eq_of_lt hm]
  have hmaster : (v.masterTold m).ring.master = some (m.time, m.tsrc, 0) := rfl
  generalize v.masterTold m = w at *
  have hused : Keeps (fun s => (s.led, s.ring.master)) [Fld.CSC_STATUS_ALIGN, Fld.CSC_MTICK_MTICK] w (w.markerUsed epoch f) :=
    .update (.refl w)
  generalize w.markerUsed epoch f = x at *
  have halign := (hused.rd Fld.CSC_STATUS_ALIGN (by simp)).trans (hfields.trans ((hk.rd _ (by simp)).trans ha))
  rw [hex, State.alignStep_begins halign]
  have hmet := x.markerMet_keeps f.hops (markerPhase lag m.acc hop)
  generalize x.markerMet f.hops (markerPhase lag m.acc hop) = y at *
  obtain ⟨hbase, hshown⟩ := y.alignBegun_shows he
  have hbegun := y.alignBegun_keeps epoch
  exact ⟨(congrArg (·.2.1) hbegun.part).trans ((congrArg (·.2.1) hmet.part).trans ((congrArg (·.2) hused.part).trans hmaster)),
    (hbegun.rd _ (by simp)).trans ((hmet.rd _ (by simp)).trans ((hused.rd _ (by simp)).trans htold)), hbase, hshown,
    (congrArg (·.1) hbegun.part).trans ((congrArg (·.1) hmet.part).trans ((congrArg (·.1) hused.part).trans hled))⟩

/-- The fourth marker in turn with a large phase error loses the alignment. -/
theorem State.MarkerFollowed.loses (hf : s.MarkerFollowed port f) (h : s.Heard u) {hop epoch : Nat} {lag : Int}
    (hs : (markerRead f.payload).second = false) (ha : s.rd Fld.CSC_STATUS_ALIGN = alAligned) (hb : s.ring.bad = 3)
    (he : 800 < (markerPhase lag (markerRead f.payload).acc hop).natAbs) :
    (u.markerHeard port f hop epoch lag).rd Fld.CSC_STATUS_ALIGN = alNone ∧
      (u.markerHeard port f hop epoch lag).flag Fld.SYS_TIME_EPOCH_ALIGNED = false ∧
      (u.markerHeard port f hop epoch lag).led = s.led := by
  obtain ⟨v, hk, hbad, hex⟩ := hf.heard h hop epoch lag
  generalize markerPhase lag (markerRead f.payload).acc hop = e at *
  rw [hs, if_neg (by simp)] at hex
  have hused : Keeps (fun s => (s.led, s.ring.bad)) [Fld.CSC_STATUS_ALIGN] v (v.markerUsed epoch f) := .update (.refl v)
  generalize v.markerUsed epoch f = x at *
  have halign := (hused.rd Fld.CSC_STATUS_ALIGN (by simp)).trans ((hk.rd _ (by simp)).trans ha)
  have hxbad : x.ring.bad = 3 := (congrArg (·.2) hused.part).trans (hbad.trans hb)
  rw [hex, State.alignStep_fourth halign hxbad he]
  have hmet := x.markerMet_keeps f.hops e
  generalize x.markerMet f.hops e = y at *
  have hheld : Keeps State.led [Fld.CSC_MTICK_MTICK] y (y.alignHeld e) := by
    have htrim : Keeps State.led [Fld.CSC_MTICK_MTICK] y ((y.wr Fld.CSC_STATUS_ALIGN alAligned).steerTrim e) :=
      State.steerTrim_keeps (.wr (.refl y))
    exact .update htrim
  obtain ⟨hnone, hlost, hled, -⟩ := (y.alignHeld e).alignLost_shows 0 e
  exact ⟨hnone, hlost, hled.trans (hheld.part.trans ((congrArg (·.1) hmet.part).trans ((congrArg (·.1) hused.part).trans hk.part)))⟩

/-! ### Markers sent (R361) -/

/-- The fields a marker of this device shows, and those that decide whether it is sent. -/
abbrev sendFields : List Field := [Fld.CSC_STATUS_POSITION, Fld.CSC_CFG_SITE_ID, Fld.TWN_CFG_ENABLE, Fld.TWN_STATUS_ROLE,
  Fld.CSC_CFG_ENABLE, Fld.CSC_STATUS_ROLE, Fld.CSC_STATUS_ENUM, Fld.SYS_TIME_PTP_LOCKED, Fld.SYS_TIME_TIME_SRC]

/-- What of the state a marker of this device shows. -/
abbrev State.markerShows (s : State) := (s.free, s.core, s.led, s.now, s.ring.seq)

theorem State.ownMarker_congr (h : Keeps State.markerShows sendFields s t) (e : Nat) : t.ownMarker e = s.ownMarker e := by
  obtain ⟨hfree, hcore, hled, hnow, -⟩ : t.free = s.free ∧ t.core = s.core ∧ t.led = s.led ∧ t.now = s.now ∧ t.ring.seq = s.ring.seq := by
    simpa only [Prod.mk.injEq] using h.part
  unfold State.ownMarker State.openWord State.ledNowMs State.ledNow State.nextImage
  rw [h.flag (g := Fld.SYS_TIME_PTP_LOCKED), h.rd Fld.SYS_TIME_TIME_SRC (by simp), hfree, hcore, hled, hnow]

/-- The time has come to the marker's epoch. -/
def State.markerReached (s : State) (e : Nat) : State :=
  let s := if s.epoch < e then s.setEpoch e else s
  { s with ring := { s.ring with sentAt := some e } }

theorem State.markerReached_keeps (s : State) (e : Nat) : Keeps State.markerShows sendFields s (s.markerReached e) := by
  have hset : Keeps State.markerShows sendFields s (s.setEpoch e) := .wr (.wr (.wr (.refl s)))
  unfold State.markerReached
  extract_lets u
  have hu : Keeps State.markerShows sendFields s u := .ite hset (.refl s)
  exact .update hu

theorem State.ringOn_congr (hc : t.core = s.core) (he : t.rd Fld.CSC_CFG_ENABLE = s.rd Fld.CSC_CFG_ENABLE) : t.ringOn = s.ringOn := by
  unfold State.ringOn
  rw [hc, State.flag_congr he]

/-- A marker leaves the twin link as it leaves the ring. -/
def State.markerToTwin (t : State) (m : MarkerPayload) : State :=
  (if t.core.running && t.flag Fld.TWN_CFG_ENABLE && t.flag Fld.TWN_STATUS_ROLE && t.flag Fld.TWN_STATUS_PRESENT then
    t.twinSend ftTwinMarker (markerBytes m) else t).drawn

theorem State.markerToTwin_keeps (t : State) (m : MarkerPayload) :
    Keeps (fun s => (s.led, s.ring)) [] t (t.markerToTwin m) := .drawn (.ite (.update (.refl t)) (.refl t))

theorem State.markerSend_sends (hrun : s.flag Fld.AQ_STATUS_RUN = true) (hlt : s.nextMarker < s.nextBoundary)
    (hon : s.ringOn = true) (hm : s.isMaster = true) (he : s.enum = enRun) : s.markerSend.ring.sentAt = some s.nextMarker ∧
      s.markerSend.ring.out.getLast? = some (none, (s.ringFrame 0xFF ftMarker (markerBytes (s.ownMarker s.nextMarker))).bytes) ∧
      s.markerSend.led = s.led := by
  have hk := s.markerReached_keeps s.nextMarker
  have hsent : (s.markerReached s.nextMarker).ring.sentAt = some s.nextMarker := rfl
  have hex : s.markerSend =
      (let u := s.markerReached s.nextMarker
       let m := u.ownMarker s.nextMarker
       let t := if u.ringOn && u.isMaster && u.enum = enRun then
           let t := u.ringOut 0xFF ftMarker (markerBytes m)
           if m.second then t.wr Fld.CSC_MTICK_MTICK m.mtick else t
         else u
       t.markerToTwin m) := if_neg (by simp [hrun, hlt])
  have hmark := State.ownMarker_congr hk s.nextMarker
  generalize s.nextMarker = e at *
  generalize s.markerReached e = u at *
  obtain ⟨-, hcore, hled, -, hseq⟩ : u.free = s.free ∧ u.core = s.core ∧ u.led = s.led ∧ u.now = s.now ∧ u.ring.seq = s.ring.seq := by
    simpa only [Prod.mk.injEq] using hk.part
  have hon' : u.ringOn = true := (State.ringOn_congr hcore (hk.rd _ (by simp))).trans hon
  have hm' : u.isMaster = true := by
    unfold State.isMaster at hm ⊢
    rwa [hk.flag (g := Fld.CSC_CFG_ENABLE), hk.flag (g := Fld.CSC_STATUS_ROLE)]
  have he' : u.enum = enRun := (hk.rd _ (by simp)).trans he
  have hoff : ∀ g ∈ frameFields, g ∈ sendFields := by decide
  have hframe := State.ringFrame_congr hseq (fun g hg => hk.rd g (hoff g hg)) 0xFF ftMarker (markerBytes (s.ownMarker e))
  rw [hex]
  dsimp only
  rw [if_pos (by simp [hon', hm', he']), hmark]
  generalize s.ownMarker e = m at *
  have hout : Keeps (fun s => (s.led, s.ring)) [] (u.ringOut 0xFF ftMarker (markerBytes m))
      (if m.second then (u.ringOut 0xFF ftMarker (markerBytes m)).wr Fld.CSC_MTICK_MTICK m.mtick else u.ringOut 0xFF ftMarker (markerBytes m)) :=
    .ite (.wr (.refl _) (by simp)) (.refl _)
  have hlast := u.ringOut_last 0xFF ftMarker (markerBytes m)
  have hsent' : (u.ringOut 0xFF ftMarker (markerBytes m)).ring.sentAt = some e := hsent
  have hled' : (u.ringOut 0xFF ftMarker (markerBytes m)).led = s.led := hled
  have hall := hout.trans (State.markerToTwin_keeps _ m)
  have hring : State.ring _ = (u.ringOut 0xFF ftMarker (markerBytes m)).ring := congrArg (·.2) hall.part
  exact ⟨by rw [hring, hsent'], by rw [hring, hlast, hframe], (congrArg (·.1) hall.part).trans hled'⟩

/-! ### The delays of the hops (R356) -/

theorem State.hopAsk_sends (hon : s.ringOn = true) : s.hopAsk.ring.out.length = s.ring.out.length + 2 ∧ s.hopAsk.regs = s.regs ∧
    s.hopAsk.led = s.led := by
  have hout (u : State) (a b : Option RingPort) (n m k l : Nat) (p q : List Byte) :
      ((u.ringSend a n m p).ringSend b k l q).ring.out.length = u.ring.out.length + 2 := by simp [State.ringSend]
  unfold State.hopAsk
  rw [if_pos hon]
  extract_lets u
  have hu : u.ring.out.length = s.ring.out.length + 2 ∧ u.regs = s.regs ∧ u.led = s.led := ⟨hout .., rfl, rfl⟩
  split
  · exact hu
  · exact hu

/-- A frame of a ring port's own type that passes its checks. -/
theorem State.hopTake_ring (h : s.FrameValid port bs f) {type : Nat} (ht : f.type = type) (other : Nat)
    (g : LinkFrame → State → State) : s.hopTake (if port = .u then .u else .d) type other bs g = g f s := by
  have his : frameIs type bs = true := by simp [frameIs, linkRead_type h.read, ht]
  have hcheck := State.ringCheck_passes h
  have hup := h.up
  cases port with
  | u => simp [State.hopTake, State.linkOn, h.on, hup, his, hcheck]
  | d => simp [State.hopTake, State.linkOn, h.on, hup, his, hcheck]

set_option Elab.async false in
/-- A frame of the twin link's own type that passes its checks. -/
theorem State.hopTake_twin (hon : s.linkOn .twin = true) (hr : linkRead twinMost bs = some f) {type : Nat} (ht : f.type = type)
    (other : Nat) (g : LinkFrame → State → State) : s.hopTake .twin other type bs g = g f s := by
  have his : frameIs type bs = true := by simp [frameIs, linkRead_type hr, ht]
  simp [State.hopTake, hon, his, hr]

theorem State.onDelayReq_ring (s : State) (port : RingPort) : ∃ p, p.length = 4 ∧
    (s.onDelayReq (if port = .u then .u else .d)).ring.out.getLast? = some (some port, (s.ringFrame 0xFF ftDelayResp p).bytes) ∧
      (s.onDelayReq (if port = .u then .u else .d)).regs = s.regs := by
  refine ⟨beBytes 4 s.openWord, length_beBytes .., ?_⟩
  cases port with
  | u => exact ⟨List.getLast?_concat .., rfl⟩
  | d => exact ⟨List.getLast?_concat .., rfl⟩

theorem State.onDelayReq_twin (s : State) : ∃ p, p.length = 4 ∧
    (s.onDelayReq .twin).twin.out.getLast? = some (s.twinFrame ftTwinDelayResp p).bytes ∧ (s.onDelayReq .twin).regs = s.regs :=
  ⟨beBytes 4 s.openWord, length_beBytes .., List.getLast?_concat .., rfl⟩

/-- A hop that shows a measurement. -/
theorem State.hopShown (s : State) {g : Field} (hg : g ∈ [Fld.CSC_HOP_HOP_U, Fld.CSC_HOP_HOP_D]) (n : Nat) :
    (s.wr g (min n 0xFFFF)).rd g = min n 0xFFFF ∧ s.keepsWords (s.wr g (min n 0xFFFF)) [Adr.CSC_HOP] := by
  have hw : g.width = 16 ∧ g.words = 1 ∧ g.addr ∈ [Adr.CSC_HOP] := by
    revert hg g
    decide
  refine ⟨?_, .wr (fun _ _ => rfl) hw.2.1 hw.2.2⟩
  rw [State.rd_wr_same, hw.1, Nat.mod_eq_of_lt (by omega)]

/-! ### Contributions (R217, R367) -/

/-- The contribution of a tick that follows, under the member's own UID: its DELTA is taken for the fold. -/
theorem State.takeContrib_follows {p : Nat} {c : ContribPayload}
    (hnext : (s.ring.lastContrib.lookup p).map (· + 1) = some c.mtick) (hfold : s.ring.foldedTick < c.mtick)
    (huid : s.lastUid p = s.ring.members.lookup p) : ∃ d, (s.takeContrib p c).led = { s.led with site := s.led.site ++ [d] } ∧
      d.pos = p ∧ d.delta = c.delta ∧ d.total = some c.total ∧ d.flags = c.flags ∧
      Keeps (fun s => (s.ring.out, s.ring.seq)) [] s (s.takeContrib p c) ∧ (s.takeContrib p c).regs = s.regs := by
  obtain ⟨n, hn, hk⟩ : ∃ n, s.ring.lastContrib.lookup p = some n ∧ n + 1 = c.mtick := by simpa [Option.map_eq_some_iff] using hnext
  unfold State.takeContrib
  extract_lets k uid prev gap late changed delta d r v
  have hgap : gap = false := by simp [gap, prev, hn, k, hk]
  have hlate : late = false := by simp [late, hgap, k, hfold]
  have hchanged : changed = false := by
    unfold changed uid
    rw [← huid]
    cases s.lastUid p <;> simp
  have hdelta : d.delta = c.delta := by
    unfold d delta
    simp [hchanged, hgap]
  have hif : ¬(late && !changed) = true := by simp [hlate]
  rw [if_neg hif]
  exact ⟨d, rfl, rfl, hdelta, rfl, rfl, ⟨rfl, by simp⟩, rfl⟩

/-- A contribution in RUN of a PRESENT member of a ledger that is not frozen. -/
theorem State.onContrib_eq (hm : s.isMaster = true) (hf : s.ringMine f = true) (he : s.enum = enRun)
    (hp : s.rd Fld.CSC_STATUS_PRESENT / 2 ^ f.src % 2 = 1) (hz : s.led.frozen = false) :
    s.onContrib f = ((s.memberHeard f.src).takeContrib f.src (contribRead f.payload)).ringOut f.src ftContribAck [] := by
  have hz' : ¬(s.memberHeard f.src).led.frozen = true := by
    have hsame : (s.memberHeard f.src).led = s.led := rfl
    simp [hsame, hz]
  unfold State.onContrib
  dsimp only
  rw [if_neg (by simp [hm, hf, he, hp]), if_neg hz']

/-- Settles O49: markers by `State.onMarker_first` and `State.MarkerFollowed.heard`, hops by `State.hopTake_ring` and
`State.hopTake_twin`, contributions by `State.takeContrib_follows`. -/
theorem ringTimeAndSites : Obligations.RingTimeAndSites := by
  unfold Obligations.RingTimeAndSites
  refine ⟨fun s bs => ?_, fun s port bs f hon hp hr hh hsite hring hseq => ?_⟩
  · intro valid
    have hvalid {port : RingPort} {f : LinkFrame} (h : valid port f) : s.FrameValid port bs f := by
      obtain ⟨hon, hp, hr, hh, hsite, hring⟩ := h
      exact ⟨hon, hp, hr, hh, hsite, hring⟩
    refine ⟨fun port f epoch lag h hseq ht => ?_, fun hrun hlt hon hm he => ⟨s.markerSend, rfl, State.markerSend_sends hrun hlt hon hm he⟩,
      fun hle => congrArg Host.Outcome.next (if_pos (by simp [hle])), fun hfoll ha => ⟨s.holdover, rfl, ?hold⟩,
      ⟨s.masterLost, rfl, ?_⟩, fun hon => ⟨s.hopAsk, rfl, State.hopAsk_sends hon⟩, fun port f sent arrived h => ?hops,
      fun f sent arrived hon hr => ?twin⟩
    · have hfirst : s.FrameFirst port bs f := ⟨hvalid h, hseq⟩
      obtain ⟨u, hex, hheard, hfwd⟩ := State.onMarker_first hfirst ht epoch.toNat lag
      have hexec : exec (.marker ⟨port, bs⟩ epoch lag) s = .next (u.markerHeard port f (s.hopDelay port) epoch.toNat lag) :=
        congrArg Host.Outcome.next hex
      intro m e
      refine ⟨fun hd => ⟨_, 1920 + s.openWord % 961, hexec, by omega, by omega, ?_⟩, fun hlen hm he hsrc hfol hused hbest => ?_⟩
      · rw [State.markerHeard_out]
        exact hfwd hd
      · have hfollowed : s.MarkerFollowed port f := ⟨hlen, hm, he, hsrc, hfol, hused, hbest⟩
        exact ⟨fun hs ha => ⟨_, hexec, hfollowed.begins hheard hs ha epoch.isLt⟩,
          fun hs ha hb hlarge => ⟨_, hexec, hfollowed.loses hheard hs ha hb hlarge⟩⟩
    case hold =>
      have hex : s.holdover = (s.until (s.ring.markerAt + 16)).wr Fld.CSC_STATUS_ALIGN alHoldover := if_pos (by rw [hfoll, ha]; rfl)
      rw [hex]
      exact ⟨State.rd_wr_same .., .wr (.refl _ _)⟩
    · unfold State.masterLost
      split
      next h =>
        have hnone : s.ring.master = none := by simpa using h
        exact ⟨by simp [State.masterTime, hnone], rfl, rfl⟩
      next => exact ⟨rfl, rfl, rfl⟩
    case hops =>
      refine ⟨fun ht => ?_, fun ht hport => ?_, fun ht hport => ?_⟩
      · obtain ⟨p, hlen, hout, hregs⟩ := s.onDelayReq_ring port
        exact ⟨_, p, congrArg Host.Outcome.next (State.hopTake_ring (hvalid h) ht ..), hlen, hout, hregs⟩
      · subst hport
        exact ⟨_, congrArg Host.Outcome.next (State.hopTake_ring (hvalid h) ht ..), State.hopShown _ (by decide) _⟩
      · subst hport
        exact ⟨_, congrArg Host.Outcome.next (State.hopTake_ring (hvalid h) ht ..), State.hopShown _ (by decide) _⟩
    case twin =>
      refine ⟨fun ht => ?_, fun ht => ?_⟩
      · obtain ⟨p, hlen, hout, hregs⟩ := s.onDelayReq_twin
        exact ⟨_, p, congrArg Host.Outcome.next (State.hopTake_twin hon hr ht ..), hlen, hout, hregs⟩
      · exact ⟨_, congrArg Host.Outcome.next (State.hopTake_twin hon hr ht ..), rfl, rfl⟩
  · have hfirst : s.FrameFirst port bs f := ⟨⟨hon, hp, hr, hh, hsite, hring⟩, hseq⟩
    refine ⟨fun c ht hl hc hm hf he hpres hz hnext hfold huid => ?_, fun ht => ?_⟩
    · subst hc
      obtain ⟨u, hu, hheard, -⟩ := State.ringTake_first hfirst ht hl fun f s => s.onContrib f
      have huid' : (u.memberHeard f.src).lastUid f.src = s.lastUid f.src := by
        rw [hheard.eq]
        rfl
      have hringEq : u.ring.lastContrib = s.ring.lastContrib ∧ u.ring.foldedTick = s.ring.foldedTick ∧ u.ring.members = s.ring.members := by
        rw [hheard.eq]
        exact ⟨rfl, rfl, rfl⟩
      obtain ⟨hlast, hfolded, hmembers⟩ := hringEq
      obtain ⟨d, hled, hpos, hdelta, htotal, hflags, hk, hregs⟩ := State.takeContrib_follows (s := u.memberHeard f.src) (p := f.src)
        (c := contribRead f.payload) (by rw [← hnext, ← hlast]; rfl) (by rw [← hfolded] at hfold; exact hfold)
        (by rw [huid', huid, ← hmembers]; rfl)
      rw [State.onContrib_eq (by rw [hheard.isMaster, hm]) (by rw [hheard.mine, hf]) (by rw [hheard.enum, he])
        (by rw [hheard.rd, hpres]) (by rw [hheard.led, hz])] at hu
      have hsame : (u.memberHeard f.src).led = u.led ∧ (u.memberHeard f.src).regs = u.regs ∧
        (u.memberHeard f.src).ring.seq = u.ring.seq := ⟨rfl, rfl, rfl⟩
      obtain ⟨hsled, hsregs, hsseq⟩ := hsame
      generalize (u.memberHeard f.src).takeContrib f.src (contribRead f.payload) = v at *
      have hframe : v.ringFrame f.src ftContribAck [] = s.ringFrame f.src ftContribAck [] :=
        (State.ringFrame_congr ((congrArg (·.2) hk.part).trans hsseq) (fun g _ => State.rd_of_regs (hregs.trans hsregs) g) ..).trans
          (hheard.frame ..)
      rw [hsled, hheard.led] at hled
      refine ⟨_, d, congrArg Host.Outcome.next hu, ?_, hpos, hdelta, htotal, hflags, ?_, ?_⟩
      · exact (congrArg LedWork.site hled :)
      · exact (congrArg LedWork.com hled :)
      · rw [State.ringOut_last, hframe]
    · obtain ⟨u, hu, hheard, hseen, -⟩ := State.ringRx_first hfirst id
      have his : frameIs ftContribAck bs = true := by simp [frameIs, linkRead_type hr, ht]
      have hex : s.ringTake port ftContribAck 0 bs (fun _ s => s) = u := by
        unfold State.ringTake
        rw [if_neg (by simp [his]), hu]
        exact ite_self u
      have hstr : u.str = s.str := by rw [hheard.eq]
      exact ⟨u, congrArg Host.Outcome.next hex, hseen, hheard.led, hstr⟩

end Sys2Proof.Machine
end

section
/-!
The twin (R369 to R377): frames, pairing and its tests, the comparison of ticks, and the loss of presence.
-/

namespace Sys2Proof.Machine
variable {α : Type} {part : State → α} {gs : List Field} {s0 s t u : State} {bs : List Byte} {f : LinkFrame}

/-- A frame of a type and payload length on the twin link is acted on. -/
theorem State.twinTake_takes (hon : s.twinOn = true) (hr : linkRead twinMost bs = some f) {type len : Nat} (ht : f.type = type)
    (hl : f.payload.length = len) (g : List Byte → State → State) : s.twinTake type len bs g = g f.payload s := by
  have his : frameIs type bs = true := by simp [frameIs, linkRead_type hr, ht]
  simp [State.twinTake, hon, his, hr, hl]

theorem State.twinTake_bad (hon : s.twinOn = true) (hr : linkRead twinMost bs = none) {type : Nat} (his : frameIs type bs = true)
    (len : Nat) (g : List Byte → State → State) : s.twinTake type len bs g = s.count Fld.CSC_ERR_CRC := by
  simp [State.twinTake, hon, his, hr]

/-! ### The pairing state (R371, R375) -/

theorem Keeps.setTwin (h : Keeps part gs s0 s) {v : Nat} (hf : gs.all (Field.apart Fld.TWN_STATUS_STATE) = true := by decide +kernel)
    (hi : gs.all (Field.apart Fld.SYS_IRQ_STAT_TWIN) = true := by decide +kernel)
    (hp : ∀ u r, part { u with regs := r } = part u := by intros; rfl) : Keeps part gs s0 (s.setTwin v) :=
  .ite (.wr h hf hp) (.irq (.wr h hf hp) hi hp)

theorem State.setTwin_twState (s : State) {v : Nat} (hv : v < 8 := by decide +kernel) : (s.setTwin v).twState = v := by
  have hwrite : (s.wr Fld.TWN_STATUS_STATE v).rd Fld.TWN_STATUS_STATE = v := (State.rd_wr_same ..).trans (Nat.mod_eq_of_lt hv)
  unfold State.setTwin State.twState
  dsimp only
  split
  · exact hwrite
  · exact (State.rd_wrB_apart _ _ (by decide)).trans hwrite

/-- A twin that is paired, before its event. -/
def State.pairShown (s : State) : State :=
  let s := (s.setTwin twPaired).count Fld.TWN_STATUS_PAIRINGS
  let s := (s.wrB Fld.TWN_STATUS_SOLE false).wrB Fld.SYS_STATUS_SINGLE false
  { s with twin := { s.twin.clear with pairedAt := s.core.ticks } }

theorem State.twinPair_eq (s : State) : s.twinPair = s.pairShown.raise evTwinPaired 0xFF
    (beBytes 8 ((((s.setTwin twPaired).count Fld.TWN_STATUS_PAIRINGS).wrB Fld.TWN_STATUS_SOLE false).wrB
      Fld.SYS_STATUS_SINGLE false |>.rd Fld.TWN_SEEN_UID_UID)) := rfl

/-- The fields that pairing leaves. -/
abbrev pairSpared : List Field := [Fld.TWN_STATUS_PRESENT, Fld.TWN_SEEN_UID_UID, Fld.CSC_STATUS_ALIGN, Fld.SYS_TIME_EPOCH_ALIGNED]

theorem State.pairShown_keeps (s : State) : Keeps (fun s => (s.led, s.twin.helloAt)) pairSpared s s.pairShown := by
  unfold State.pairShown
  extract_lets t u x
  have hu : Keeps (fun s => (s.led, s.twin.helloAt)) pairSpared s u := .wrB (.wrB (.count (.setTwin (.refl s))))
  exact .update hu

set_option Elab.async false in
theorem State.twinPair_keeps (s : State) : Keeps (fun s => (s.led, s.twin.helloAt)) pairSpared s s.twinPair := by
  rw [State.twinPair_eq]
  exact .raiseLiving s.pairShown_keeps

/-- Pairing is complete: PAIRED, SINGLE clear, and the comparison starts anew. -/
theorem State.twinPair_shows (s : State) : s.twinPair.twState = twPaired ∧ s.twinPair.flag Fld.SYS_STATUS_SINGLE = false ∧
    s.twinPair.twin.pairedAt = s.core.ticks ∧ s.twinPair.twin.own = [] ∧ s.twinPair.twin.peer = [] := by
  have hshown : s.pairShown.twState = twPaired ∧ s.pairShown.flag Fld.SYS_STATUS_SINGLE = false := by
    unfold State.pairShown
    extract_lets t u x
    have hstate : u.twState = twPaired := by
      have hk : Keeps State.led [Fld.TWN_STATUS_STATE] (s.setTwin twPaired) u := .wrB (.wrB (.count (.refl _)))
      exact (hk.rd _ (by simp)).trans s.setTwin_twState
    have hsingle : u.flag Fld.SYS_STATUS_SINGLE = false := State.flag_wrB_same _ _ _ rfl
    exact ⟨(State.rd_of_regs rfl _).trans hstate, (State.flag_congr (State.rd_of_regs rfl _)).trans hsingle⟩
  have hcore : s.pairShown.twin.pairedAt = s.core.ticks ∧ s.pairShown.twin.own = [] ∧ s.pairShown.twin.peer = [] := by
    have hc : ((((s.setTwin twPaired).count Fld.TWN_STATUS_PAIRINGS).wrB Fld.TWN_STATUS_SOLE false).wrB
        Fld.SYS_STATUS_SINGLE false).core = s.core := by
      have hk : Keeps State.core [] s (s.setTwin twPaired) := .setTwin (.refl s) rfl rfl
      exact hk.part
    exact ⟨congrArg Core.ticks hc, rfl, rfl⟩
  have hk : Keeps State.twin [Fld.TWN_STATUS_STATE, Fld.SYS_STATUS_SINGLE] s.pairShown s.twinPair := by
    rw [State.twinPair_eq]
    exact .raiseLiving (.refl _)
  rw [hk.part]
  exact ⟨(hk.rd _ (by simp)).trans hshown.1, hk.flag.trans hshown.2, hcore⟩

/-! ### HELLO (R370, R371) -/

/-- A twin that was absent may be refused anew. -/
def State.helloFresh (s : State) : State :=
  if s.flag Fld.TWN_STATUS_PRESENT then s else { s with twin := { s.twin with refused := false } }

/-- A twin that is heard. -/
def State.helloHeard (s : State) (uid : Nat) : State :=
  (({ s.helloFresh with twin := { s.helloFresh.twin with helloAt := some s.helloFresh.now } } : State).wrB
    Fld.TWN_STATUS_PRESENT true).wr Fld.TWN_SEEN_UID_UID uid

/-- The fields of the pairing tests. -/
abbrev pairFields : List Field :=
  [Fld.TWN_STATUS_STATE, Fld.TWN_STATUS_ROLE, Fld.CSC_CFG_POSITION, Fld.CSC_CFG_SITE_ID, Fld.TWN_PEER_UID_UID]

theorem State.helloHeard_keeps (s : State) (uid : Nat) : Keeps State.led pairFields s (s.helloHeard uid) := by
  have hfresh : Keeps State.led pairFields s s.helloFresh := .ite (.refl s) (.update (.refl s))
  unfold State.helloHeard
  exact .wr (.wrB (.update hfresh))

theorem State.helloHeard_shows (s : State) {uid : Nat} (h : uid < 2 ^ 64) : (s.helloHeard uid).flag Fld.TWN_STATUS_PRESENT = true ∧
    (s.helloHeard uid).rd Fld.TWN_SEEN_UID_UID = uid ∧ (s.helloHeard uid).twin.helloAt = some s.now := by
  have hw : Fld.TWN_SEEN_UID_UID.width = 64 := rfl
  have hnow : s.helloFresh.now = s.now := by
    unfold State.helloFresh
    split <;> rfl
  refine ⟨(State.flag_wr_apart (by decide)).trans (State.flag_wrB_same _ _ _ rfl), ?_, congrArg some hnow⟩
  exact (State.rd_wr_same ..).trans (by rw [hw, Nat.mod_eq_of_lt h])

theorem State.onHello_tests (hs : s.twState ≠ twOff) {b : List Byte} (hb : num b 12 1 ≠ 0) : s.onHello b =
    (s.helloHeard (num b 0 8)).pairTests (BitVec.ofNat 64 (num b 0 8)) (num b 8 1 = 1) (num b 9 1) (num b 10 2) := by
  have hstate : (s.helloHeard (num b 0 8)).twState ≠ twOff := ((s.helloHeard_keeps _).rd _ (by simp)).trans_ne hs
  have hb' : num b 12 1 ≠ twOff := hb
  have hex : s.onHello b = (let u := s.helloHeard (num b 0 8)
      if u.twState = twOff || num b 12 1 = twOff then u
      else u.pairTests (BitVec.ofNat 64 (num b 0 8)) (num b 8 1 = 1) (num b 9 1) (num b 10 2)) := rfl
  rw [hex]
  exact if_neg (by simp [hstate, hb'])

/-- The secondary begins to align to its primary. -/
def State.pairAligning (s : State) : State :=
  ((s.setTwin twPairing).wr Fld.CSC_STATUS_ALIGN alNone).wrB Fld.SYS_TIME_EPOCH_ALIGNED false

/-- The tests that a twin passes. -/
theorem State.pairTests_passes (hst : s.twState = twWait) {uid : BitVec 64} {role : Bool} {pos site : Nat}
    (hrole : role ≠ s.flag Fld.TWN_STATUS_ROLE) (hpos : pos = s.rd Fld.CSC_CFG_POSITION) (hsite : site = s.rd Fld.CSC_CFG_SITE_ID)
    (huid : uid.toNat = s.rd Fld.TWN_PEER_UID_UID) (h0 : uid ≠ 0) : s.pairTests uid role pos site =
      if s.flag Fld.TWN_STATUS_ROLE then (s.setTwin twPairing).twinPair else s.pairAligning := by
  unfold State.pairTests
  dsimp only
  rw [if_neg hrole, if_neg (by simp [hpos, hsite]), if_neg (by simpa [huid] using h0), if_neg (by rw [hst]; decide)]
  rfl

/-- A twin of the same role is a conflict. -/
theorem State.pairTests_role (hst : s.twState = twWait) {uid : BitVec 64} {role : Bool} (hrole : role = s.flag Fld.TWN_STATUS_ROLE)
    (pos site : Nat) : s.pairTests uid role pos site = (s.twinUnpair twConflict).raise evTwinConflict 0xFF (beBytes 1 0) := by
  unfold State.pairTests
  dsimp only
  rw [if_pos hrole, if_neg (by rw [hst]; decide)]

theorem State.twinUnpair_shows (s : State) {v : Nat} (hv : v < 8) : (s.twinUnpair v).twState = v ∧
    (s.twinUnpair v).flag Fld.SYS_STATUS_SINGLE = true := by
  have hstate : ({ s.setTwin v with twin := s.twin.clear } : State).twState = v := s.setTwin_twState hv
  exact ⟨(State.rd_wrB_apart _ _ (by decide)).trans hstate, State.flag_wrB_same _ _ _ rfl⟩

/-- A HELLO that passes the tests pairs a primary and begins the alignment of a secondary. -/
theorem State.onHello_pairs (hst : s.twState = twWait) {b : List Byte} (hb : num b 12 1 ≠ 0) (h0 : num b 0 8 ≠ 0)
    (huid : num b 0 8 = s.rd Fld.TWN_PEER_UID_UID) (hpos : num b 9 1 = s.rd Fld.CSC_CFG_POSITION)
    (hsite : num b 10 2 = s.rd Fld.CSC_CFG_SITE_ID) (hrole : decide (num b 8 1 = 1) ≠ s.flag Fld.TWN_STATUS_ROLE) :
    (s.onHello b).flag Fld.TWN_STATUS_PRESENT = true ∧ (s.onHello b).rd Fld.TWN_SEEN_UID_UID = num b 0 8 ∧
      (s.onHello b).twin.helloAt = some s.now ∧
      (s.onHello b).twState = (if s.flag Fld.TWN_STATUS_ROLE then twPaired else twPairing) ∧
      (s.flag Fld.TWN_STATUS_ROLE = true → (s.onHello b).flag Fld.SYS_STATUS_SINGLE = false) ∧ (s.onHello b).led = s.led := by
  rw [State.onHello_tests (by rw [hst]; decide) hb]
  have hlt : num b 0 8 < 2 ^ 64 := num_lt b 0 8
  generalize num b 0 8 = uid at *
  have hk := s.helloHeard_keeps uid
  obtain ⟨hpresent, hseen, hhello⟩ := s.helloHeard_shows hlt
  generalize s.helloHeard uid = u at *
  have hnat : (BitVec.ofNat 64 uid).toNat = uid := by rw [BitVec.toNat_ofNat, Nat.mod_eq_of_lt hlt]
  have hne : BitVec.ofNat 64 uid ≠ 0 := fun h => h0 (by rw [← hnat, h]; rfl)
  have hurole := hk.flag (g := Fld.TWN_STATUS_ROLE)
  rw [State.pairTests_passes ((hk.rd _ (by simp)).trans hst) (by rwa [hurole]) (by rw [hpos, hk.rd _ (by simp)])
    (by rw [hsite, hk.rd _ (by simp)]) (by rw [hnat, huid, hk.rd _ (by simp)]) hne, hurole]
  cases hr : s.flag Fld.TWN_STATUS_ROLE with
  | true =>
    have hset : Keeps (fun s => (s.led, s.twin.helloAt)) pairSpared u (u.setTwin twPairing) := .setTwin (.refl u)
    have hpair := hset.trans (u.setTwin twPairing).twinPair_keeps
    obtain ⟨hstate, hsingle, -⟩ := (u.setTwin twPairing).twinPair_shows
    exact ⟨hpair.flag.trans hpresent, (hpair.rd _ (by simp)).trans hseen, (congrArg (·.2) hpair.part).trans hhello, hstate,
      fun _ => hsingle, (congrArg (·.1) hpair.part).trans hk.part⟩
  | false =>
    have hal : Keeps (fun s => (s.led, s.twin.helloAt)) [Fld.TWN_STATUS_PRESENT, Fld.TWN_SEEN_UID_UID] u u.pairAligning :=
      .wrB (.wr (.setTwin (.refl u)))
    have hstate : u.pairAligning.twState = twPairing := by
      have hw : Keeps State.led [Fld.TWN_STATUS_STATE] (u.setTwin twPairing) u.pairAligning := .wrB (.wr (.refl _))
      exact (hw.rd _ (by simp)).trans u.setTwin_twState
    exact ⟨hal.flag.trans hpresent, (hal.rd _ (by simp)).trans hseen, (congrArg (·.2) hal.part).trans hhello, hstate,
      fun h => absurd h (by simp), (congrArg (·.1) hal.part).trans hk.part⟩

/-- A HELLO of the same role is a conflict. -/
theorem State.onHello_role (hst : s.twState = twWait) {b : List Byte} (hb : num b 12 1 ≠ 0)
    (hrole : decide (num b 8 1 = 1) = s.flag Fld.TWN_STATUS_ROLE) : (s.onHello b).twState = twConflict ∧
      (s.onHello b).flag Fld.SYS_STATUS_SINGLE = true := by
  rw [State.onHello_tests (by rw [hst]; decide) hb]
  have hk := s.helloHeard_keeps (num b 0 8)
  generalize s.helloHeard (num b 0 8) = u at *
  rw [State.pairTests_role ((hk.rd _ (by simp)).trans hst) (by rw [hk.flag, hrole])]
  obtain ⟨hstate, hsingle⟩ := u.twinUnpair_shows (v := twConflict) (by decide)
  have hraise : Keeps State.led [Fld.TWN_STATUS_STATE, Fld.SYS_STATUS_SINGLE] (u.twinUnpair twConflict)
      ((u.twinUnpair twConflict).raise evTwinConflict 0xFF (beBytes 1 0)) := .raiseLiving (.refl _)
  exact ⟨(hraise.rd _ (by simp)).trans hstate, hraise.flag.trans hsingle⟩

/-! ### The primary's markers (R371) -/

/-- The fields that the alignment leaves to the pairing. -/
theorem State.markerMet_twin (s : State) (hops : Nat) (e : Int) :
    Keeps (fun s => (s.core, s.ring.good)) [Fld.TWN_STATUS_STATE, Fld.CSC_STATUS_ALIGN] s (s.markerMet hops e) := by
  unfold State.markerMet
  extract_lets sat u r v
  have hu : Keeps (fun s => (s.core, s.ring.good)) [Fld.TWN_STATUS_STATE, Fld.CSC_STATUS_ALIGN] s u := .wr (.wrS (.refl s))
  have hv : Keeps (fun s => (s.core, s.ring.good)) [Fld.TWN_STATUS_STATE, Fld.CSC_STATUS_ALIGN] s v := .update hu
  exact .ite (.drawn (.update hv)) hv

theorem State.alignBegun_twState (s : State) (epoch : Nat) : (s.alignBegun epoch).twState = s.twState := by
  have hbase : Keeps State.core [Fld.TWN_STATUS_STATE] s (s.setBase epoch) := by
    unfold State.setBase
    exact .wr (.refl s)
  have hk : Keeps State.core [Fld.TWN_STATUS_STATE] s (s.alignBegun epoch) := .wr (.update hbase)
  exact hk.rd _ (by simp)

theorem State.alignSteered_keeps (s : State) (e : Int) : Keeps (fun s => s.core) [Fld.TWN_STATUS_STATE] s (s.alignSteered e) := by
  have hk : Keeps (fun s => s.core) [Fld.TWN_STATUS_STATE] s (s.steerPhase e) := by
    unfold State.steerPhase
    exact .ite (.update (.refl _)) (State.steerTrim_keeps (.refl _))
  exact hk.update

theorem State.alignSteered_good (s : State) {e : Int} (he : e.natAbs ≤ 80) : (s.alignSteered e).ring.good = s.ring.good + 1 := by
  have hk : Keeps (fun s => s.ring.good) [] s (s.steerPhase e) := by
    unfold State.steerPhase
    exact .ite (.update (.refl _)) (State.steerTrim_keeps (.refl _))
  exact (if_pos he).trans (congrArg (· + 1) hk.part)

set_option Elab.async false in
theorem State.alignDone_shows (s : State) : s.alignDone.rd Fld.CSC_STATUS_ALIGN = alAligned ∧
    s.alignDone.flag Fld.SYS_TIME_EPOCH_ALIGNED = true ∧ s.alignDone.twState = s.twState ∧ s.alignDone.core = s.core :=
  ⟨(State.rd_wrB_apart _ _ (by decide)).trans (State.rd_wr_same ..), State.flag_wrB_same _ _ _ rfl,
    (State.rd_wrB_apart _ _ (by decide)).trans (State.rd_wr_apart _ _ (by decide)), rfl⟩

/-- The sixty-fourth marker in turn with a small phase error completes the alignment. -/
theorem State.alignTaken_completes (ha : s.rd Fld.CSC_STATUS_ALIGN = alAligning) (hg : s.ring.good = 63) {e : Int}
    (he : e.natAbs ≤ 80) (second : Bool) (epoch : Nat) : s.alignTaken second epoch e = (s.alignSteered e).alignDone := by
  have hgood := s.alignSteered_good he
  rw [State.alignTaken, if_neg (by rw [ha]; decide), if_pos ha]
  exact if_neg (by omega)

theorem State.alignStep_completes (ha : s.rd Fld.CSC_STATUS_ALIGN = alAligning) (hg : s.ring.good = 63) {e : Int} (he : e.natAbs ≤ 80)
    (second : Bool) (hops epoch : Nat) : (s.alignStep second hops epoch e).rd Fld.CSC_STATUS_ALIGN = alAligned ∧
      (s.alignStep second hops epoch e).flag Fld.SYS_TIME_EPOCH_ALIGNED = true ∧
      (s.alignStep second hops epoch e).twState = s.twState ∧ (s.alignStep second hops epoch e).core = s.core := by
  have hmet := s.markerMet_twin hops e
  rw [State.alignStep_eq, State.alignTaken_completes ((hmet.rd _ (by simp)).trans ha) ((congrArg (·.2) hmet.part).trans hg) he]
  have hsteer := (s.markerMet hops e).alignSteered_keeps e
  obtain ⟨halign, hflag, hstate, hcore⟩ := ((s.markerMet hops e).alignSteered e).alignDone_shows
  exact ⟨halign, hflag, hstate.trans ((hsteer.rd _ (by simp)).trans (hmet.rd _ (by simp))),
    hcore.trans (hsteer.part.trans (congrArg (·.1) hmet.part))⟩

/-- A marker of the primary reaches the alignment of a secondary that is pairing. -/
theorem State.onTwinMarker_aligns (hf : s.followsTwin = true) (hst : s.twState = twPairing) (b : List Byte) (epoch : Nat) (lag : Int) :
    ∃ u, Keeps (fun s => (s.core, s.ring)) [Fld.TWN_STATUS_STATE, Fld.CSC_STATUS_ALIGN] s u ∧ s.onTwinMarker b epoch lag =
      (let v := u.alignStep (markerRead b).second 1 epoch (markerPhase lag (markerRead b).acc s.twinHop)
       if v.twState = twPairing && v.rd Fld.CSC_STATUS_ALIGN = alAligned then v.twinPair else v) := by
  unfold State.onTwinMarker
  rw [if_neg (by simp [hf, hst])]
  generalize markerRead b = m
  have hk : Keeps (fun s => (s.core, s.ring, s.twin)) [Fld.TWN_STATUS_STATE, Fld.CSC_STATUS_ALIGN] s
      (if m.second && !s.flag Fld.CSC_CFG_ENABLE then s.wr Fld.CSC_MTICK_MTICK m.mtick else s) := .ite (.wr (.refl s)) (.refl s)
  have hhop : State.twinHop (if m.second && !s.flag Fld.CSC_CFG_ENABLE then s.wr Fld.CSC_MTICK_MTICK m.mtick else s) = s.twinHop := by
    split <;> rfl
  dsimp only
  rw [hhop]
  generalize (if m.second && !s.flag Fld.CSC_CFG_ENABLE then s.wr Fld.CSC_MTICK_MTICK m.mtick else s) = w at *
  refine ⟨w.untilEpoch epoch, ⟨?_, fun g hg => hk.rd g hg⟩, rfl⟩
  obtain ⟨hc, hr, -⟩ : w.core = s.core ∧ w.ring = s.ring ∧ w.twin = s.twin := by simpa only [Prod.mk.injEq] using hk.part
  exact Prod.ext hc hr

theorem State.onTwinMarker_begins (hf : s.followsTwin = true) (hst : s.twState = twPairing) {b : List Byte} {epoch : Nat} {lag : Int}
    (hs : (markerRead b).second = true) (ha : s.rd Fld.CSC_STATUS_ALIGN = alNone) (he : epoch < 2 ^ 64) :
    (s.onTwinMarker b epoch lag).rd Fld.CSC_STATUS_ALIGN = alAligning ∧ (s.onTwinMarker b epoch lag).base = epoch ∧
      (s.onTwinMarker b epoch lag).twState = twPairing := by
  obtain ⟨u, hk, hex⟩ := s.onTwinMarker_aligns hf hst b epoch lag
  rw [hex, hs, State.alignStep_begins ((hk.rd _ (by simp)).trans ha)]
  generalize markerPhase lag (markerRead b).acc s.twinHop = e
  have hmet := u.markerMet_twin 1 e
  obtain ⟨hbase, hal⟩ := (u.markerMet 1 e).alignBegun_shows he
  have hstate := ((u.markerMet 1 e).alignBegun_twState epoch).trans ((hmet.rd _ (by simp)).trans ((hk.rd _ (by simp)).trans hst))
  generalize (u.markerMet 1 e).alignBegun epoch = v at *
  dsimp only
  rw [if_neg (by rw [hal]; simp [alAligning, alAligned])]
  exact ⟨hal, hbase, hstate⟩

theorem State.onTwinMarker_pairs (hf : s.followsTwin = true) (hst : s.twState = twPairing) {b : List Byte} {epoch : Nat} {lag : Int}
    (ha : s.rd Fld.CSC_STATUS_ALIGN = alAligning) (hg : s.ring.good = 63)
    (he : (markerPhase lag (markerRead b).acc s.twinHop).natAbs ≤ 80) :
    (s.onTwinMarker b epoch lag).rd Fld.CSC_STATUS_ALIGN = alAligned ∧ (s.onTwinMarker b epoch lag).twState = twPaired ∧
      (s.onTwinMarker b epoch lag).flag Fld.SYS_STATUS_SINGLE = false ∧
      (s.onTwinMarker b epoch lag).flag Fld.SYS_TIME_EPOCH_ALIGNED = true ∧
      (s.onTwinMarker b epoch lag).twin.pairedAt = s.core.ticks ∧ (s.onTwinMarker b epoch lag).twin.own = [] ∧
      (s.onTwinMarker b epoch lag).twin.peer = [] := by
  obtain ⟨u, hk, hex⟩ := s.onTwinMarker_aligns hf hst b epoch lag
  obtain ⟨hcore, hring⟩ : u.core = s.core ∧ u.ring = s.ring := by simpa only [Prod.mk.injEq] using hk.part
  rw [hex]
  obtain ⟨hal, haligned, hstate, hcore'⟩ := State.alignStep_completes ((hk.rd _ (by simp)).trans ha) (by rw [hring, hg]) he
    (markerRead b).second 1 epoch
  generalize u.alignStep (markerRead b).second 1 epoch (markerPhase lag (markerRead b).acc s.twinHop) = v at *
  have hvstate : v.twState = twPairing := hstate.trans ((hk.rd _ (by simp)).trans hst)
  dsimp only
  rw [if_pos (by simp [hvstate, hal])]
  have hpair := v.twinPair_keeps
  obtain ⟨hpaired, hsingle, hat, hown, hpeer⟩ := v.twinPair_shows
  exact ⟨(hpair.rd _ (by simp)).trans hal, hpaired, hsingle, hpair.flag.trans haligned, by rw [hat, hcore', hcore], hown, hpeer⟩

/-! ### The comparison of ticks (R373) -/

/-- What the comparison of a tick leaves: everything but the sums, the deltas that wait and TWN_CMP.MISSED. -/
abbrev State.besideSums (s : State) := (s.led, s.str, s.core, s.twin.start)

theorem State.pairTick_keeps (s : State) (own peer : List TwinBay) (hf : gs.all (Field.apart Fld.TWN_CMP_MISSED) = true) :
    Keeps (fun s => (s.besideSums, s.twin.own, s.twin.peer, s.twin.matched)) gs s (s.pairTick own peer) := by
  refine .foldl (.refl s) fun u x _ hu => ?_
  dsimp only
  split
  · exact .count hu hf
  · exact .update hu

/-- A matched tick, before the two deltas are dropped. -/
def State.tickDropped (t : State) (k : Nat) : State := { t with twin := { t.twin with
  matched := t.twin.matched + 1
  own := t.twin.own.filter fun x => x.1 ≠ k
  peer := t.twin.peer.filter fun x => x.1 ≠ k } }

theorem State.matchTick_keeps (h : Keeps State.besideSums gs s0 s) (k : Nat) (hf : gs.all (Field.apart Fld.TWN_CMP_MISSED) = true) :
    Keeps State.besideSums gs s0 (s.matchTick k) := by
  unfold State.matchTick
  split
  next o p _ _ =>
    obtain ⟨hpart, hrd⟩ := s.pairTick_keeps o p hf
    have hpair : Keeps State.besideSums gs s (s.pairTick o p) := ⟨congrArg (·.1) hpart, hrd⟩
    exact .ite h (h.trans (.update hpair))
  next => exact h

theorem State.matchTick_none {k : Nat} (h : s.twin.own.lookup k = none) : s.matchTick k = s := by
  unfold State.matchTick
  rw [h]

theorem State.matchTick_some {k : Nat} {o p : List TwinBay} (ho : s.twin.own.lookup k = some o) (hp : s.twin.peer.lookup k = some p)
    (hk : k ≤ s.windowLast) : s.matchTick k = (s.pairTick o p).tickDropped k := by
  unfold State.matchTick
  rw [ho, hp]
  exact if_neg (by omega)

theorem lookup_dropped {β : Type} (l : List (Nat × β)) (k : Nat) : (l.filter fun x => x.1 ≠ k).lookup k = none := by
  rw [List.lookup_eq_none_iff]
  intro x hx
  have hne : x.1 ≠ k := by simpa using (List.mem_filter.1 hx).2
  simpa using Ne.symm hne

/-- A delta of the peer waits, or meets its own. -/
theorem State.onDelta_shows {b : List Byte} {k : Nat} (hb : k = num b 0 4) (hst : s.twState = twPaired)
    (hsole : s.flag Fld.TWN_STATUS_SOLE = false) (hk : s.twin.start < k) : (s.onDelta b).led = s.led ∧ (s.onDelta b).str = s.str ∧
      (s.twin.own.lookup k = none → (s.onDelta b).twin.peer = s.twin.peer ++ [(k, deltaRead b)]) ∧
      ((s.twin.own.lookup k).isSome = true → k ≤ s.windowLast → (s.onDelta b).twin.own.lookup k = none ∧
        (s.onDelta b).twin.peer.lookup k = none ∧ (s.onDelta b).twin.matched = s.twin.matched + 1) := by
  have hex : s.onDelta b = ({ s with twin := { s.twin with peer := s.twin.peer ++ [(k, deltaRead b)] } } : State).matchTick k := by
    subst hb
    exact if_neg (by simp [hst, hsole]; omega)
  have hlast : ({ s with twin := { s.twin with peer := s.twin.peer ++ [(k, deltaRead b)] } } : State).windowLast = s.windowLast := rfl
  have hadd : Keeps State.besideSums [] s { s with twin := { s.twin with peer := s.twin.peer ++ [(k, deltaRead b)] } } := .update (.refl s)
  have hown : ({ s with twin := { s.twin with peer := s.twin.peer ++ [(k, deltaRead b)] } } : State).twin.own = s.twin.own := rfl
  have hpeer : ({ s with twin := { s.twin with peer := s.twin.peer ++ [(k, deltaRead b)] } } : State).twin.peer =
    s.twin.peer ++ [(k, deltaRead b)] := rfl
  have hmatched : ({ s with twin := { s.twin with peer := s.twin.peer ++ [(k, deltaRead b)] } } : State).twin.matched = s.twin.matched := rfl
  rw [hex]
  generalize ({ s with twin := { s.twin with peer := s.twin.peer ++ [(k, deltaRead b)] } } : State) = u at *
  obtain ⟨hled, hstr, -⟩ : (u.matchTick k).led = s.led ∧ (u.matchTick k).str = s.str ∧ _ ∧ _ := by
    simpa only [Prod.mk.injEq] using (hadd.trans (State.matchTick_keeps (.refl u) k rfl)).part
  refine ⟨hled, hstr, fun hnone => ?_, fun hsome hle => ?_⟩
  · rw [State.matchTick_none (by rw [hown, hnone]), hpeer]
  · obtain ⟨o, ho⟩ := Option.isSome_iff_exists.1 hsome
    obtain ⟨p, hp⟩ : ∃ p, u.twin.peer.lookup k = some p := by
      rw [hpeer, List.lookup_append]
      cases s.twin.peer.lookup k <;> simp
    have hpair := (u.pairTick_keeps o p (gs := []) rfl).part
    have hpmatched : (u.pairTick o p).twin.matched = u.twin.matched := congrArg (·.2.2.2) hpair
    rw [State.matchTick_some (hown ▸ ho) hp (hlast ▸ hle)]
    refine ⟨lookup_dropped .., lookup_dropped .., ?_⟩
    rw [← hmatched, ← hpmatched]
    rfl

/-! ### Windows (R374) -/

/-- A bay's deviations are shown. -/
def State.bayShown (s : State) (b : Nat) (di de : Option Int) : State :=
  (s.wr (Fld.TWN_DEV_IMPORT b) (devCode di)).wr (Fld.TWN_DEV_EXPORT b) (devCode de)

/-- The fields of a window beside the bays' deviations. -/
abbrev windowFields : List Field := [Fld.TWN_CMP_WINDOWS, Fld.TWN_CMP_MISSED, Fld.TWN_CFG_WIN]

/-- What a bay's test writes beside its deviations. -/
theorem State.windowBay_shown (s : State) (b : Nat) (hd : gs.all (Field.apart Fld.TWN_DIS_NOW) = true)
    (hs : gs.all (Field.apart Fld.TWN_DIS_SEEN) = true) (ho : gs.all Field.offRecorderWords = true) :
    ∃ di de, Keeps (fun s => (s.led, s.twin, s.core)) gs (s.bayShown b di de) (s.windowBay b) ∧
      ((storeGet (fun _ => ({} : TwinSums)) s.twin.sums b).iOwn = 0 → di = none) := by
  unfold State.windowBay
  extract_lets x win tol mn di de badI badE u v w
  have hu : u = s.bayShown b di de := rfl
  refine ⟨di, de, ?_, fun h => if_pos (by simp [x, h])⟩
  rw [← hu]
  have hw : Keeps (fun s => (s.led, s.twin, s.core)) gs u w := .wr (.wr (.refl u) hd) hs
  have hraise : Keeps (fun s => (s.led, s.twin, s.core)) gs u (w.raise evTwinDisagree b
      (beBytes 1 ((if badI then 1 else 0) + (if badE then 2 else 0)) ++ beBytes 2 (devCode di) ++ beBytes 2 (devCode de))) :=
    hw.trans ⟨by simp, fun g hg => State.rd_raise_living _ (List.all_eq_true.1 ho g hg) (by decide) ..⟩
  exact .ite hraise (.ite (.wr (.refl u) hd) (.refl u))

set_option Elab.async false in
theorem windowFields_dev (b : Nat) (hb : b < 16) : windowFields.all (Field.apart (Fld.TWN_DEV_IMPORT b)) = true ∧
    windowFields.all (Field.apart (Fld.TWN_DEV_EXPORT b)) = true := by
  decide +revert +kernel

theorem State.windowBay_keeps (s : State) {b : Nat} (hb : b < 16) :
    Keeps (fun s => (s.led, s.twin, s.core)) windowFields s (s.windowBay b) := by
  obtain ⟨hi, he⟩ := windowFields_dev b hb
  obtain ⟨di, de, hk, -⟩ := s.windowBay_shown (gs := windowFields) b (by decide) (by decide) (by decide)
  have hshown : Keeps (fun s => (s.led, s.twin, s.core)) windowFields s (s.bayShown b di de) := .wr (.wr (.refl s) hi) he
  exact hshown.trans hk

/-- A bay without energy of its own shows that it is not tested. -/
def State.untested (s : State) (b : Nat) : Prop :=
  (storeGet (fun _ => ({} : TwinSums)) s.twin.sums b).iOwn = 0 → s.rd (Fld.TWN_DEV_IMPORT b) = 0x8000

theorem dev_apart (b : Nat) (hb : b < 16) (c : Nat) (hc : c < 16) (h : b ≠ c) : (Fld.TWN_DEV_IMPORT c).apart (Fld.TWN_DEV_IMPORT b) = true := by
  decide +revert +kernel

theorem dev_apart_export (b : Nat) (hb : b < 16) (c : Nat) (hc : c < 16) : (Fld.TWN_DEV_EXPORT c).apart (Fld.TWN_DEV_IMPORT b) = true := by
  decide +revert +kernel

theorem dev_apart_disagree (b : Nat) (hb : b < 16) : Fld.TWN_DIS_NOW.apart (Fld.TWN_DEV_IMPORT b) = true ∧
    Fld.TWN_DIS_SEEN.apart (Fld.TWN_DEV_IMPORT b) = true ∧ (Fld.TWN_DEV_IMPORT b).offRecorderWords = true ∧
    Fld.TWN_CMP_WINDOWS.apart (Fld.TWN_DEV_IMPORT b) = true ∧ Fld.TWN_STATUS_DISAGREE.apart (Fld.TWN_DEV_IMPORT b) = true ∧
    Fld.TWN_CMP_MISSED.apart (Fld.TWN_DEV_IMPORT b) = true := by
  decide +revert +kernel

theorem State.windowBay_untested (s : State) {b c : Nat} (hb : b < 16) (hc : c < 16) (h : b = c ∨ s.untested b) :
    (s.windowBay c).untested b := by
  obtain ⟨hnow, hseen, hoff, -⟩ := dev_apart_disagree b hb
  obtain ⟨di, de, hk, hdi⟩ := s.windowBay_shown (gs := [Fld.TWN_DEV_IMPORT b]) c (by simp [hnow]) (by simp [hseen]) (by simp [hoff])
  have htwin : (s.windowBay c).twin = s.twin := congrArg (·.2.1) hk.part
  intro h0
  rw [htwin] at h0
  rw [hk.rd _ (by simp)]
  unfold State.bayShown
  rw [State.rd_wr_apart _ _ (dev_apart_export b hb c hc)]
  by_cases hbc : b = c
  · subst hbc
    have hw : (Fld.TWN_DEV_IMPORT b).width = 16 := rfl
    rw [hdi h0, State.rd_wr_same, hw]
    decide
  · rw [State.rd_wr_apart _ _ (dev_apart b hb c hc hbc)]
    exact (h.resolve_left hbc) h0

theorem State.foldl_windowBay (l : List Nat) (hl : ∀ c ∈ l, c < 16) (s : State) : (∀ b < 16, b ∈ l ∨ s.untested b →
    (l.foldl State.windowBay s).untested b) ∧
    Keeps (fun s => (s.led, s.twin, s.core)) windowFields s (l.foldl State.windowBay s) := by
  refine ⟨?_, .foldl (.refl s) fun u c hc hu => hu.trans (u.windowBay_keeps (hl c hc))⟩
  induction l generalizing s with
  | nil => exact fun b _ h => by simpa using h
  | cons c l ih =>
    intro b hb h
    have hc : c < 16 := hl c (by simp)
    refine ih (fun d hd => hl d (by simp [hd])) (s.windowBay c) b hb ?_
    rw [List.mem_cons, or_assoc] at h
    obtain rfl | h | h := h
    · exact .inr (s.windowBay_untested hb hc (.inl rfl))
    · exact .inl h
    · exact .inr (s.windowBay_untested hb hc (.inr h))

/-- The bays of a window are tested, the ticks missed counted. -/
def State.windowTested (s : State) : State := (List.range 16).foldl State.windowBay
  (s.count Fld.TWN_CMP_MISSED (16 * (s.windowLast - s.twin.start - s.twin.matched)))

/-- A window is counted and its outcome shown. -/
def State.windowShown (s : State) : State :=
  let s := s.wrap Fld.TWN_CMP_WINDOWS
  s.wrB Fld.TWN_STATUS_DISAGREE (s.rd Fld.TWN_DIS_NOW ≠ 0)

/-- A new window begins after a pair tick. -/
def State.windowBegun (s : State) (last : Nat) : State :=
  { s with twin := { s.twin with
      own := s.twin.own.filter fun (x : Nat × List TwinBay) => decide (last < x.1)
      peer := s.twin.peer.filter fun (x : Nat × List TwinBay) => decide (last < x.1)
      sums := []
      start := last
      matched := 0 } }

theorem State.windowEnd_eq (hst : s.twState = twPaired) (hlast : s.windowLast ≤ s.committedTick - s.twin.pairedAt) :
    s.windowEnd = (s.windowTested.windowShown.windowBegun s.windowLast).matchWaiting := by
  have hgo : ¬(s.twState ≠ twPaired || decide (s.committedTick - s.twin.pairedAt < s.windowLast)) = true := by simp [hst, hlast]
  unfold State.windowEnd State.windowBegun State.windowShown State.windowTested
  rw [if_neg hgo]

/-- Each pair tick that waits is matched in turn. -/
theorem State.matchWaiting_keeps (s : State) (hf : gs.all (Field.apart Fld.TWN_CMP_MISSED) = true) :
    Keeps State.besideSums gs s s.matchWaiting :=
  .foldl (.refl s) fun _ k _ hu => State.matchTick_keeps hu k hf

theorem State.matchWaiting_nil (h : s.twin.own = []) : s.matchWaiting = s := by
  unfold State.matchWaiting
  rw [h]
  rfl

theorem State.windowTested_keeps (s : State) : Keeps (fun s => (s.led, s.twin, s.core)) [Fld.TWN_CMP_WINDOWS] s s.windowTested := by
  have hcount : Keeps (fun s => (s.led, s.twin, s.core)) [Fld.TWN_CMP_WINDOWS] s
      (s.count Fld.TWN_CMP_MISSED (16 * (s.windowLast - s.twin.start - s.twin.matched))) := .count (.refl s)
  obtain ⟨-, hk⟩ := State.foldl_windowBay (List.range 16) (fun c hc => List.mem_range.1 hc)
    (s.count Fld.TWN_CMP_MISSED (16 * (s.windowLast - s.twin.start - s.twin.matched)))
  exact hcount.trans ⟨hk.part, fun g hg => hk.rd g (by simp only [List.mem_singleton] at hg; subst hg; simp)⟩

/-- The ticks of a window that no pair was matched for are MISSED, of every bay. -/
theorem State.windowTested_missed (s : State) : s.windowTested.rd Fld.TWN_CMP_MISSED = min (s.rd Fld.TWN_CMP_MISSED +
    16 * (s.rd Fld.TWN_CFG_WIN - s.twin.matched)) (2 ^ Fld.TWN_CMP_MISSED.width - 1) := by
  obtain ⟨-, hk⟩ := State.foldl_windowBay (List.range 16) (fun c hc => List.mem_range.1 hc)
    (s.count Fld.TWN_CMP_MISSED (16 * (s.windowLast - s.twin.start - s.twin.matched)))
  have hn : s.windowLast - s.twin.start - s.twin.matched = s.rd Fld.TWN_CFG_WIN - s.twin.matched := by
    unfold State.windowLast
    omega
  exact (hk.rd _ (by simp)).trans ((State.rd_count_same ..).trans (by rw [hn]))

set_option Elab.async false in
theorem State.windowTested_untested (s : State) {b : Nat} (hb : b < 16) : s.windowTested.untested b :=
  (State.foldl_windowBay (List.range 16) (fun _ hc => List.mem_range.1 hc) _).1 b hb (.inl (List.mem_range.2 hb))

theorem State.windowShown_shows (s : State) : s.windowShown.rd Fld.TWN_CMP_WINDOWS = (s.rd Fld.TWN_CMP_WINDOWS + 1) % 2 ^ 16 ∧
    s.windowShown.flag Fld.TWN_STATUS_DISAGREE = decide (s.windowShown.rd Fld.TWN_DIS_NOW ≠ 0) ∧
    s.windowShown.led = s.led ∧ s.windowShown.twin = s.twin := by
  have hw : Fld.TWN_CMP_WINDOWS.width = 16 := rfl
  unfold State.windowShown
  extract_lets u
  refine ⟨?_, ?_, rfl, rfl⟩
  · rw [State.rd_wrB_apart _ _ (by decide), State.rd_wrap_same, hw]
  · rw [State.rd_wrB_apart _ _ (by decide)]
    exact State.flag_wrB_same _ _ _ rfl

/-- The end of a window (R374). -/
theorem State.windowEnd_shows (hst : s.twState = twPaired) (hlast : s.windowLast ≤ s.committedTick - s.twin.pairedAt) :
    s.windowEnd.rd Fld.TWN_CMP_WINDOWS = (s.rd Fld.TWN_CMP_WINDOWS + 1) % 2 ^ 16 ∧
      s.windowEnd.flag Fld.TWN_STATUS_DISAGREE = decide (s.windowEnd.rd Fld.TWN_DIS_NOW ≠ 0) ∧
      s.windowEnd.twin.start = s.windowLast ∧
      ((∀ x ∈ s.twin.own, x.1 ≤ s.windowLast) → s.windowEnd.twin.own = [] ∧ s.windowEnd.twin.sums = [] ∧
        s.windowEnd.twin.matched = 0 ∧ s.windowEnd.rd Fld.TWN_CMP_MISSED = min (s.rd Fld.TWN_CMP_MISSED +
          16 * (s.rd Fld.TWN_CFG_WIN - s.twin.matched)) (2 ^ Fld.TWN_CMP_MISSED.width - 1)) ∧
      (∀ b, b < 16 → (storeGet (fun _ => ({} : TwinSums)) s.twin.sums b).iOwn = 0 →
        s.windowEnd.rd (Fld.TWN_DEV_IMPORT b) = 0x8000) ∧ s.windowEnd.led = s.led := by
  have htested := s.windowTested_keeps
  have hmissed := s.windowTested_missed
  have hdev (b : Nat) (hb : b < 16) := s.windowTested_untested hb
  rw [State.windowEnd_eq hst hlast]
  generalize s.windowTested = t at *
  obtain ⟨hled, htwin, -⟩ : t.led = s.led ∧ t.twin = s.twin ∧ t.core = s.core := by simpa only [Prod.mk.injEq] using htested.part
  obtain ⟨hwin, hdis, hled', htwin'⟩ := t.windowShown_shows
  have hshownMissed : t.windowShown.rd Fld.TWN_CMP_MISSED = t.rd Fld.TWN_CMP_MISSED := by
    have hk : Keeps State.led [Fld.TWN_CMP_MISSED] t t.windowShown := .wrB (.wrap (.refl t))
    exact hk.rd _ (by simp)
  have hshownDev (b : Nat) (hb : b < 16) : t.windowShown.rd (Fld.TWN_DEV_IMPORT b) = t.rd (Fld.TWN_DEV_IMPORT b) := by
    obtain ⟨-, -, -, hwindows, hdisagree, -⟩ := dev_apart_disagree b hb
    have hk : Keeps State.led [Fld.TWN_DEV_IMPORT b] t t.windowShown := .wrB (.wrap (.refl t) (by simp [hwindows])) (by simp [hdisagree])
    exact hk.rd _ (by simp)
  generalize t.windowShown = v at *
  have hbegun : (v.windowBegun s.windowLast).regs = v.regs ∧ (v.windowBegun s.windowLast).led = v.led ∧
      (v.windowBegun s.windowLast).twin.start = s.windowLast ∧ (v.windowBegun s.windowLast).twin.sums = [] ∧
      (v.windowBegun s.windowLast).twin.matched = 0 ∧
      (v.windowBegun s.windowLast).twin.own = v.twin.own.filter fun x => decide (s.windowLast < x.1) := ⟨rfl, rfl, rfl, rfl, rfl, rfl⟩
  obtain ⟨hregs, hbled, hstart, hsums, hmatched, hown⟩ := hbegun
  generalize v.windowBegun s.windowLast = x at *
  have hk := x.matchWaiting_keeps (gs := [Fld.TWN_CMP_WINDOWS, Fld.TWN_STATUS_DISAGREE, Fld.TWN_DIS_NOW]) (by decide)
  have hrd (g : Field) : x.rd g = v.rd g := State.rd_of_regs hregs g
  refine ⟨?_, ?_, (congrArg (·.2.2.2) hk.part).trans hstart, fun hall => ?_, fun b hb h0 => ?_, ?_⟩
  · rw [hk.rd _ (by simp), hrd, hwin, htested.rd _ (by simp)]
  · rw [hk.flag, hk.rd Fld.TWN_DIS_NOW (by simp), State.flag_congr (hrd _), hrd, hdis]
  · have hnil : x.twin.own = [] := by
      rw [hown, htwin', htwin]
      refine List.filter_eq_nil_iff.2 fun y hy => ?_
      have hle := hall y hy
      simpa using hle
    rw [State.matchWaiting_nil hnil]
    exact ⟨hnil, hsums, hmatched, by rw [hrd, hshownMissed, hmissed]⟩
  · obtain ⟨-, -, -, -, -, hoff⟩ := dev_apart_disagree b hb
    have hkb := x.matchWaiting_keeps (gs := [Fld.TWN_DEV_IMPORT b]) (by simp [hoff])
    rw [hkb.rd _ (by simp), hrd, hshownDev b hb]
    exact hdev b hb (by rwa [htwin])
  · exact (congrArg (·.1) hk.part).trans (hbled.trans (hled'.trans hled))

/-! ### SOLE and the loss of presence (R370, R375, R376) -/

theorem State.onSole_shows (hc : s.chip ≠ chipFrozen) : s.onSole.flag Fld.TWN_STATUS_SOLE = true ∧
    s.onSole.flag Fld.SYS_STATUS_SINGLE = true ∧ s.onSole.led = s.led := by
  have hex : s.onSole = ((s.wrB Fld.TWN_STATUS_SOLE true).wrB Fld.SYS_STATUS_SINGLE true).raise evTwinSole 0xFF [] := if_neg hc
  have hk : Keeps State.led [Fld.TWN_STATUS_SOLE, Fld.SYS_STATUS_SINGLE]
      ((s.wrB Fld.TWN_STATUS_SOLE true).wrB Fld.SYS_STATUS_SINGLE true) s.onSole := by
    rw [hex]
    exact .raiseLiving (.refl _)
  exact ⟨hk.flag.trans ((State.flag_wrB_apart (by decide)).trans (State.flag_wrB_same _ _ _ rfl)),
    hk.flag.trans (State.flag_wrB_same _ _ _ rfl), hk.part⟩

/-- A twin that is absent. -/
def State.twinGone (s : State) : State :=
  let s := (s.wrB Fld.TWN_STATUS_PRESENT false).wr Fld.TWN_SEEN_UID_UID 0
  { s with twin := { s.twin with helloAt := none, refused := false } }

theorem State.twinGone_shows (s : State) : s.twinGone.flag Fld.TWN_STATUS_PRESENT = false ∧ s.twinGone.rd Fld.TWN_SEEN_UID_UID = 0 ∧
    s.twinGone.twin.helloAt = none ∧ s.twinGone.led = s.led ∧ s.twinGone.twState = s.twState := by
  have hrd (g : Field) : s.twinGone.rd g = ((s.wrB Fld.TWN_STATUS_PRESENT false).wr Fld.TWN_SEEN_UID_UID 0).rd g :=
    State.rd_of_regs rfl g
  exact ⟨(State.flag_congr (hrd _)).trans ((State.flag_wr_apart (by decide)).trans (State.flag_wrB_same _ _ _ rfl)),
    (hrd _).trans (State.rd_wr_same ..), rfl, rfl,
    (hrd _).trans ((State.rd_wr_apart _ _ (by decide)).trans (State.rd_wrB_apart _ _ (by decide)))⟩

theorem State.presenceLost_shows (hp : s.flag Fld.TWN_STATUS_PRESENT = true) (hst : s.twState ≠ twOff) :
    s.presenceLost.flag Fld.TWN_STATUS_PRESENT = false ∧ s.presenceLost.rd Fld.TWN_SEEN_UID_UID = 0 ∧
      s.presenceLost.twState = twWait ∧ s.presenceLost.flag Fld.SYS_STATUS_SINGLE = true ∧ s.presenceLost.twin.helloAt = none ∧
      s.presenceLost.led = s.led := by
  obtain ⟨hpresent, hseen, hhello, hled, hstate⟩ := s.twinGone_shows
  have hex : s.presenceLost =
      (let u := s.twinGone
       let u := u.twinUnpair (if u.twState = twOff then twOff else twWait)
       let u := if u.isMaster && !u.flag Fld.TWN_STATUS_ROLE && u.enum = enRun then u.wr Fld.CSC_STATUS_ALIGN alAligned else u
       u.raise evTwinDetached 0xFF []) := if_neg (by simp [hp])
  generalize s.twinGone = u at *
  rw [hex]
  have hwaits : (if u.twState = twOff then twOff else twWait) = twWait := if_neg (by rwa [hstate])
  dsimp only
  rw [hwaits]
  have hset : Keeps (fun s => (s.led, s.twin)) [Fld.TWN_STATUS_PRESENT, Fld.TWN_SEEN_UID_UID] u (u.setTwin twWait) := .setTwin (.refl u)
  have hunpair : Keeps (fun s => (s.led, s.twin.helloAt)) [Fld.TWN_STATUS_PRESENT, Fld.TWN_SEEN_UID_UID] u (u.twinUnpair twWait) := by
    have hled' : (u.setTwin twWait).led = u.led := congrArg (·.1) hset.part
    have hcleared : Keeps (fun s => (s.led, s.twin.helloAt)) [Fld.TWN_STATUS_PRESENT, Fld.TWN_SEEN_UID_UID] u
        { u.setTwin twWait with twin := u.twin.clear } := ⟨congrArg (fun l => (l, u.twin.helloAt)) hled', hset.rd⟩
    exact .wrB hcleared
  obtain ⟨hwait, hsingle⟩ := u.twinUnpair_shows (v := twWait) (by decide)
  generalize u.twinUnpair twWait = v at *
  have hk : Keeps (fun s => (s.led, s.twin.helloAt))
      [Fld.TWN_STATUS_PRESENT, Fld.TWN_SEEN_UID_UID, Fld.TWN_STATUS_STATE, Fld.SYS_STATUS_SINGLE] v
      ((if v.isMaster && !v.flag Fld.TWN_STATUS_ROLE && v.enum = enRun then v.wr Fld.CSC_STATUS_ALIGN alAligned else v).raise
        evTwinDetached 0xFF []) := .raiseLiving (.ite (.wr (.refl v)) (.refl v))
  exact ⟨hk.flag.trans (hunpair.flag.trans hpresent), (hk.rd _ (by simp)).trans ((hunpair.rd _ (by simp)).trans hseen),
    (hk.rd _ (by simp)).trans hwait, hk.flag.trans hsingle, (congrArg (·.2) hk.part).trans ((congrArg (·.2) hunpair.part).trans hhello),
    (congrArg (·.1) hk.part).trans ((congrArg (·.1) hunpair.part).trans hled)⟩

/-- Settles O50: frames by `State.twinTake_takes`; HELLO, the primary's markers, deltas, windows and the loss of presence by the
lemma of each. That a primary is PAIRED as soon as its tests pass is the deduction of log 153. -/
theorem twinPairing : Obligations.TwinPairing := by
  unfold Obligations.TwinPairing
  intro s hon
  refine ⟨fun h u p g v c bs hbs his hr => ?_, fun h u p g v c f hr ht hl hst hstatus => ?_,
    fun bs f epoch lag hr ht hl hfol hst => ?_, fun h b c f k hr ht hl hk hst hsole => ?_, fun bs f hr ht hl hc => ?_,
    fun hp hst => ⟨s.presenceLost, rfl, State.presenceLost_shows hp hst⟩,
    fun hst hlast => ⟨s.windowEnd, rfl, State.windowEnd_shows hst hlast⟩⟩
  · subst hbs
    exact ⟨_, congrArg Host.Outcome.next (State.twinTake_bad hon hr his ..), State.rd_count_same .., .wr (.refl s _)⟩
  · have hexec : exec (.hello h u p g v c) s = .next (s.onHello f.payload) :=
      congrArg Host.Outcome.next (State.twinTake_takes hon hr ht hl fun b s => s.onHello b)
    exact ⟨fun h0 huid hpos hsite hrole => ⟨_, hexec, State.onHello_pairs hst hstatus h0 huid hpos hsite hrole⟩,
      fun hrole => ⟨_, hexec, State.onHello_role hst hstatus hrole⟩⟩
  · have hexec : exec (.twinMarker bs epoch lag) s = .next (s.onTwinMarker f.payload epoch.toNat lag) :=
      congrArg Host.Outcome.next (State.twinTake_takes hon hr ht hl fun b s => s.onTwinMarker b epoch.toNat lag)
    exact ⟨fun hs ha => ⟨_, hexec, State.onTwinMarker_begins hfol hst hs ha epoch.isLt⟩,
      fun ha hg he => ⟨_, hexec, State.onTwinMarker_pairs hfol hst ha hg he⟩⟩
  · have hexec : exec (.twinDelta h b c) s = .next (s.onDelta f.payload) :=
      congrArg Host.Outcome.next (State.twinTake_takes hon hr ht hl fun b s => s.onDelta b)
    refine ⟨fun hlt => ⟨_, hexec, State.onDelta_shows hk hst hsole hlt⟩, fun hle => hexec.trans (congrArg Host.Outcome.next ?_)⟩
    exact if_pos (by subst hk; simp [hle])
  · have hexec : exec (.sole bs) s = .next s.onSole :=
      congrArg Host.Outcome.next (State.twinTake_takes hon hr ht hl fun _ s => s.onSole)
    exact ⟨_, hexec, State.onSole_shows hc⟩

end Sys2Proof.Machine
end

section
/-!
The configuration loader and its flash (R389 to R391, R399): the candidates of a start, and flash commands.
-/

namespace Sys2Proof.Machine
variable {α : Type} {part : State → α} {gs : List Field} {s0 s t u : State}

/-! ### Candidates reported and refused (R398, R409) -/

/-- The fields in which the loader reports a candidate. -/
abbrev loadFields : List Field := [Fld.CFG_LOAD_STAT_RESULT, Fld.CFG_LOAD_STAT_SLOT, Fld.CFG_LOAD_STAT_LIVE, Fld.CFG_FAIL_ADDR_ADDR,
  Fld.CFG_LOAD_STAT_LOADS, Fld.SYS_IRQ_STAT_LOAD]

theorem Keeps.loadReport (h : Keeps part gs s0 s) {slot : Nat} {live : Bool} {result addr : Nat} {tested : Bool}
    (hf : gs.all (fun g => loadFields.all fun f => f.apart g) = true := by decide +kernel)
    (hp : ∀ u r, part { u with regs := r } = part u := by intros; rfl) :
    Keeps part gs s0 (s.loadReport slot live result addr tested) := by
  have hall (f : Field) (hm : f ∈ loadFields) : gs.all f.apart = true :=
    List.all_eq_true.2 fun g hg => List.all_eq_true.1 (List.all_eq_true.1 hf g hg) f hm
  have hshown {u : State} (hu : Keeps part gs s0 u) : Keeps part gs s0
      ((((u.wr Fld.CFG_LOAD_STAT_RESULT result).wr Fld.CFG_LOAD_STAT_SLOT slot).wrB Fld.CFG_LOAD_STAT_LIVE live).wr
        Fld.CFG_FAIL_ADDR_ADDR addr) :=
    .wr (.wrB (.wr (.wr hu (hall _ (by simp)) hp) (hall _ (by simp)) hp) (hall _ (by simp)) hp) (hall _ (by simp)) hp
  exact .irq (.ite (.count (hshown h) (hall _ (by simp)) hp) (hshown h)) (hall _ (by simp)) hp

theorem Keeps.loadRefuse (h : Keeps part gs s0 s) {slot : Nat} {live : Bool} {result addr : Nat} {tested : Bool}
    (hf : gs.all (fun g => loadFields.all fun f => f.apart g) = true := by decide +kernel)
    (ho : gs.all Field.offRecorderWords = true := by decide +kernel)
    (hp : ∀ u r, part { u with regs := r } = part u := by intros; rfl)
    (hr : ∀ u c n p, part (State.raise u c n p) = part u := by intros; simp) :
    Keeps part gs s0 (s.loadRefuse slot live result addr tested) :=
  (Keeps.loadReport h hf hp).trans
    ⟨hr .., fun g hg => State.rd_raise_living _ (List.all_eq_true.1 ho g hg) (by decide) ..⟩

theorem Keeps.setChip (h : Keeps part gs s0 s) {v : Nat} (hf : gs.all (Field.apart Fld.SYS_STATUS_STATE) = true := by decide +kernel)
    (hi : gs.all (Field.apart Fld.SYS_IRQ_STAT_STATE) = true := by decide +kernel)
    (hp : ∀ u r, part { u with regs := r } = part u := by intros; rfl) : Keeps part gs s0 (s.setChip v) :=
  .ite (.wr h hf hp) (.irq (.wr h hf hp) hi hp)

/-- A start that ends in LOAD_FAILED. -/
theorem State.loadFailed_shows (s : State) : s.loadFailed.chip = chipLoadFailed ∧ s.loadFailed.ldr.cur = none ∧
    s.loadFailed.core = s.core := by
  unfold State.loadFailed
  refine ⟨State.setChip_chip .., ?_, ?_⟩
  · rw [State.setChip_ldr]
    rfl
  · rw [State.setChip_core]
    rfl

/-! ### The candidates of a start (R389, R390, R399) -/

/-- The flash's parameters and the slots' headers are shown. -/
def State.slotsRead (s : State) (size mode : Nat) : State :=
  let s : State := { s with core := { s.core with pll := true } }
  (((s.wr Fld.CFG_FLASH_JEDEC_ID s.flash.jedec.toNat).wr Fld.CFG_FLASH_SIZE size).wr Fld.CFG_FLASH_MODE mode).refreshSlots

theorem State.slotsRead_spec (s : State) (size mode : Nat) : (s.slotsRead size mode).core = { s.core with pll := true } ∧
    (s.slotsRead size mode).ldr = s.ldr ∧ (s.slotsRead size mode).slotOrder = s.slotOrder ∧
    (s.slotsRead size mode).rd Fld.CFG_FLASH_SIZE = size % 16 ∧
    s.keepsWords (s.slotsRead size mode) [Adr.CFG_FLASH, Adr.CFG_SLOT0, Adr.CFG_SLOT1, Adr.CFG_STATUS] := by
  have horder (u : State) (hf : u.flash = s.flash) (hc : u.fuses = s.fuses) : u.slotOrder = s.slotOrder := by
    unfold State.slotOrder State.slotGen State.partCode State.flashRead State.flashByte
    rw [hf, hc]
  have hw : Fld.CFG_FLASH_SIZE.width = 4 := rfl
  have hflash : (s.slotsRead size mode).flash = s.flash := by simp only [State.slotsRead, State.refreshSlots, State.wr_flash]
  have hfuses : (s.slotsRead size mode).fuses = s.fuses := by simp only [State.slotsRead, State.refreshSlots, State.wr_fuses]
  refine ⟨by simp only [State.slotsRead, State.refreshSlots, State.wr_core],
    by simp only [State.slotsRead, State.refreshSlots, State.wr_ldr], horder _ hflash hfuses, ?_, ?_⟩
  · unfold State.slotsRead State.refreshSlots
    rw [State.rd_wr_apart _ _ (by decide), State.rd_wr_apart _ _ (by decide), State.rd_wr_apart _ _ (by decide),
      State.rd_wr_same, hw]
    rfl
  · exact .wr (.wr (.wr (.wr (.wr (.of_regs rfl)))))

theorem State.pllLock_slots (hr : s.core.running = true) (hp : s.core.pll = false) {size mode : Nat}
    (hf : s.flash.sfdp = some (size, mode)) (hsize : 4 ≤ size) : s.pllLock =
      ({ s.slotsRead size mode with ldr := { (s.slotsRead size mode).ldr with rest := (s.slotsRead size mode).slotOrder } }).loadNext := by
  have hgo : ¬(!s.core.running || s.core.pll) = true := by simp [hr, hp]
  have hfit : s.flash.sfdp.filter (fun x => decide (4 ≤ x.1)) = some (size, mode) := by simp [hf, hsize]
  unfold State.pllLock
  rw [if_neg hgo]
  dsimp only
  rw [hfit]
  rfl

theorem State.pllLock_none (hr : s.core.running = true) (hp : s.core.pll = false)
    (hf : s.flash.sfdp.all (fun x => decide (x.1 < 4)) = true) : s.pllLock =
      ((({ s with core := { s.core with pll := true } } : State).loadRefuse 0 false lrNoFlash 0 true).loadRefuse 1 false
        lrNoFlash 0 true).loadFailed := by
  have hgo : ¬(!s.core.running || s.core.pll) = true := by simp [hr, hp]
  have hfit : s.flash.sfdp.filter (fun x => decide (4 ≤ x.1)) = none := by
    cases hs : s.flash.sfdp with
    | none => rfl
    | some x =>
      have hlt : x.1 < 4 := by simpa [hs] using hf
      simp only [Option.filter_some, decide_eq_true_eq, ite_eq_right_iff, reduceCtorEq, imp_false]
      omega
  unfold State.pllLock
  rw [if_neg hgo]
  dsimp only
  rw [hfit]

set_option Elab.async false in
/-- The first of the candidates of a start is read. -/
theorem State.loadNext_cons {n : Nat} {ns : List Nat} (h : s.ldr.rest = n :: ns) : s.loadNext =
    ({ s with ldr := { s.ldr with cur := some { slot := n }, rest := ns } } : State).wr Fld.CFG_STATUS_LOADER ldRead := by
  unfold State.loadNext
  rw [h]

theorem State.loadNext_nil (h : s.ldr.rest = []) : s.loadNext = s.loadFailed := by
  unfold State.loadNext
  rw [h]

/-- Settles O7: the start without a flash by `State.pllLock_none`, the choice of a slot by `State.pllLock_slots`. -/
theorem pllLockChoosesSlot : Obligations.PllLockChoosesSlot := by
  unfold Obligations.PllLockChoosesSlot
  intro s hr hp
  refine ⟨fun hf => ?_, fun size mode n ns hf hsize ho => ?_⟩
  · refine ⟨s.pllLock, rfl, ?_⟩
    rw [State.pllLock_none hr hp hf]
    have hk : Keeps State.core [] { s with core := { s.core with pll := true } }
        ((({ s with core := { s.core with pll := true } } : State).loadRefuse 0 false lrNoFlash 0 true).loadRefuse 1 false
          lrNoFlash 0 true) := .loadRefuse (.loadRefuse (.refl _) rfl rfl) rfl rfl
    obtain ⟨hchip, hcur, hcore⟩ := State.loadFailed_shows _
    refine ⟨?_, hchip, hcur⟩
    rw [hcore, hk.part]
  · obtain ⟨hcore, hldr, horder, hshown, hwords⟩ := s.slotsRead_spec size mode
    refine ⟨s.pllLock, rfl, ?_⟩
    rw [State.pllLock_slots hr hp hf hsize, horder, ho]
    generalize s.slotsRead size mode = u at *
    rw [State.loadNext_cons (s := { u with ldr := { u.ldr with rest := n :: ns } }) rfl]
    refine ⟨hcore, ?_, State.rd_wr_same .., (State.rd_wr_apart _ _ (by decide)).trans hshown, .wr (hwords.sameRegs rfl)⟩
    rw [← hldr]
    rfl

/-! ### Flash commands (R391) -/

theorem beBytes_beNat (bs : List Byte) : beBytes bs.length (beNat bs) = bs := by
  induction bs using List.reverseRecOn with
  | nil => rfl
  | append_singleton bs b ih =>
    have hb : beNat [b] = b.toNat := by simp [beNat]
    rw [List.length_append, List.length_singleton, beNat_append, hb, beBytes, List.length_singleton, pow_one]
    have hlt := b.isLt
    have hdiv : (beNat bs * 256 + b.toNat) / 256 = beNat bs := by omega
    have hmod : BitVec.ofNat 8 (beNat bs * 256 + b.toNat) = b := by
      apply BitVec.eq_of_toNat_eq
      rw [BitVec.toNat_ofNat]
      omega
    rw [hdiv, hmod, ih]

/-- Bytes are those of their words. -/
theorem bytesWords_bytes (bs : List Byte) : ∀ k, bs.length = 4 * k → (bytesWords bs).flatMap wordBytes = bs := by
  induction bs using bytesWords.induct with
  | case1 a b c d bs ih =>
    intro k hk
    have hlt := beNat_lt [a, b, c, d]
    have hword : wordBytes (BitVec.ofNat 32 (beNat [a, b, c, d])) = [a, b, c, d] := by
      rw [wordBytes, BitVec.toNat_ofNat, Nat.mod_eq_of_lt (by simpa using hlt)]
      exact beBytes_beNat [a, b, c, d]
    rw [bytesWords, List.flatMap_cons, hword, ih (k - 1) (by simp at hk; omega)]
    rfl
  | case2 => exact fun _ _ => rfl
  | case3 a => exact fun k hk => by simp at hk; omega
  | case4 a b => exact fun k hk => by simp at hk; omega
  | case5 a b c => exact fun k hk => by simp at hk; omega

/-- Words put from an address on are read there, and nothing but registers differs. -/
theorem State.setWords_words (s : State) (a : Nat) (ws : List Word) :
    (∀ i w, ws[i]? = some w → (s.setWords a ws).word (a + 4 * i) = w) ∧ s.regsOnly (s.setWords a ws) := by
  have hfold (l : List Word) : ∀ (k : Nat) (u : State),
      (∀ b, b < a + 4 * k → ((l.zipIdx k).foldl (fun s (x : Word × Nat) => s.setWord (a + 4 * x.2) x.1) u).word b = u.word b) ∧
      (∀ i w, l[i]? = some w →
        ((l.zipIdx k).foldl (fun s (x : Word × Nat) => s.setWord (a + 4 * x.2) x.1) u).word (a + 4 * (k + i)) = w) := by
    induction l with
    | nil => exact fun k u => ⟨fun _ _ => rfl, fun i w h => by simp at h⟩
    | cons x l ih =>
      intro k u
      obtain ⟨hbelow, hat⟩ := ih (k + 1) (u.setWord (a + 4 * k) x)
      rw [List.zipIdx_cons, List.foldl_cons]
      refine ⟨fun b hb => (hbelow b (by omega)).trans (State.word_setWord_other _ _ (by omega)), fun i w h => ?_⟩
      cases i with
      | zero =>
        obtain rfl : x = w := by simpa using h
        exact (hbelow (a + 4 * (k + 0)) (by omega)).trans (State.word_setWord_same ..)
      | succ i =>
        have hi := hat i w (by simpa using h)
        rwa [show k + 1 + i = k + (i + 1) by omega] at hi
  obtain ⟨-, hat⟩ := hfold ws 0 s
  refine ⟨fun i w h => ?_, .foldl (.refl s) fun u x hu => .setWord hu⟩
  have hi := hat i w h
  rw [Nat.zero_add] at hi
  exact hi

/-- Bytes put into the flash are read there, and every other byte is as before. -/
theorem flashPut_reads (m : List Host.Cell) (a : Nat) (bs : List Byte) :
    (∀ b, b < a ∨ a + bs.length ≤ b → storeGet erasedAt (flashPut m a bs) b = storeGet erasedAt m b) ∧
      (∀ i b, bs[i]? = some b → storeGet erasedAt (flashPut m a bs) (a + i) = b) := by
  have hfold (l : List Byte) : ∀ (k : Nat) (m : List Host.Cell),
      (∀ b, b < a + k ∨ a + k + l.length ≤ b →
        storeGet erasedAt ((l.zipIdx k).foldl (fun m (x : Byte × Nat) => storeSet erasedAt m (a + x.2) x.1) m) b = storeGet erasedAt m b) ∧
      (∀ i b, l[i]? = some b →
        storeGet erasedAt ((l.zipIdx k).foldl (fun m (x : Byte × Nat) => storeSet erasedAt m (a + x.2) x.1) m) (a + (k + i)) = b) := by
    induction l with
    | nil => exact fun k m => ⟨fun _ _ => rfl, fun i w h => by simp at h⟩
    | cons x l ih =>
      intro k m
      obtain ⟨hother, hat⟩ := ih (k + 1) (storeSet erasedAt m (a + k) x)
      rw [List.zipIdx_cons, List.foldl_cons]
      refine ⟨fun b hb => ?_, fun i w h => ?_⟩
      · rw [List.length_cons] at hb
        exact (hother b (by omega)).trans (storeGet_storeSet_other (by omega))
      · cases i with
        | zero =>
          obtain rfl : x = w := by simpa using h
          exact (hother (a + (k + 0)) (by omega)).trans storeGet_storeSet_same
        | succ i =>
          have hi := hat i w (by simpa using h)
          rwa [show k + 1 + i = k + (i + 1) by omega] at hi
  obtain ⟨hother, hat⟩ := hfold bs 0 m
  refine ⟨fun b hb => hother b (by omega), fun i b h => ?_⟩
  have hi := hat i b h
  rw [Nat.zero_add] at hi
  exact hi

/-- A flash command that starts. -/
def State.flashBegun (s : State) (j : FlashJob) : State :=
  let s := { s with ldr := { s.ldr with flash := some j } }
  ((s.wr Fld.CFG_FL_CMD_RESULT 0).wrB Fld.CFG_FL_CMD_BUSY true).wrB Fld.CFG_STATUS_FL_BUSY true

theorem State.flashBegun_spec (s : State) (j : FlashJob) : (s.flashBegun j).ldr.flash = some j ∧
    (s.flashBegun j).flag Fld.CFG_FL_CMD_BUSY = true ∧ (s.flashBegun j).flash = s.flash ∧
    s.keepsWords (s.flashBegun j) [Adr.CFG_FL_CMD, Adr.CFG_STATUS] := by
  refine ⟨rfl, ?_, rfl, .wrB (.wrB (.wr (.of_regs rfl)))⟩
  exact (State.flag_wrB_apart (by decide)).trans (State.flag_wrB_same _ _ _ rfl)

theorem State.flashStart_starts {cmd : Nat} (hb : s.cfgBusy = false)
    (hslot : cmd ≠ 1 → s.rd Fld.CFG_FL_ADDR_ADDR / cfgSlotBytes ≠ s.rd Fld.CFG_STATUS_ACTIVE_SLOT)
    (h2 : cmd = 2 → s.rd Fld.CFG_FL_ADDR_ADDR % 256 = 0) (h3 : cmd = 3 → s.rd Fld.CFG_FL_ADDR_ADDR % 4096 = 0) :
    (s.flashStart cmd).2 = s.flashBegun { cmd, addr := s.rd Fld.CFG_FL_ADDR_ADDR, data := if cmd = 2 then s.pageBuffer else [] } := by
  have hbusy : ¬s.cfgBusy = true := by simp [hb]
  have hs : ¬(decide (cmd ≠ 1) && decide (s.rd Fld.CFG_FL_ADDR_ADDR / cfgSlotBytes = s.rd Fld.CFG_STATUS_ACTIVE_SLOT)) = true := by
    simpa using hslot
  have hal : ¬((decide (cmd = 2) && decide (s.rd Fld.CFG_FL_ADDR_ADDR % 256 ≠ 0)) ||
      (decide (cmd = 3) && decide (s.rd Fld.CFG_FL_ADDR_ADDR % 4096 ≠ 0))) = true := by
    simpa using ⟨h2, h3⟩
  unfold State.flashStart
  dsimp only
  rw [if_neg hbusy, if_neg hs, if_neg hal]
  rfl

/-- A write of CFG_FL_CMD with a command inside a SERVICE session. -/
theorem State.wFlCmd_pass {p : Path} {x : Session} {v : Word} {cmd : Nat} (hc : bitsOf v.toNat 28 4 = cmd) (h1 : 1 ≤ cmd) (h3 : cmd ≤ 3)
    (hg : s.gate p roleService (decide (cmd = 2) || decide (cmd = 3)) = .pass x) : s.wFlCmd p v = s.flashStart cmd := by
  unfold State.wFlCmd
  rw [hc]
  dsimp only
  rw [hg]
  exact if_pos (by simp [h1, h3])

/-- A flash command ends: the result is shown and the slots are read again. -/
def State.flashEnded (s : State) (failed : Bool) : State :=
  let s := if failed then s.drawn else s
  let s := { s with ldr := { s.ldr with flash := none } }
  let s := (s.wr Fld.CFG_FL_CMD_RESULT (if failed then 5 else 1)).wrB Fld.CFG_FL_CMD_BUSY false
  ((s.wrB Fld.CFG_STATUS_FL_BUSY false).refreshSlots).irq Fld.SYS_IRQ_STAT_FLASH

theorem State.flashDone_eq {j : FlashJob} (h : s.ldr.flash = some j) (failed : Bool) :
    s.flashDone failed = (s.flashEffect j failed).flashEnded failed := by
  unfold State.flashDone
  rw [h]
  rfl

theorem State.flashEnded_keeps (s : State) (failed : Bool) (hp : ∀ u r n l, part { u with regs := r, free := n, ldr := l } = part u) :
    Keeps part [] s (s.flashEnded failed) := by
  have hdrawn : Keeps part [] s (if failed then s.drawn else s) :=
    .ite (.update (.refl s) (hp s s.regs _ s.ldr)) (.refl s)
  have hregs (u : State) (r : List (Nat × Word)) : part { u with regs := r } = part u := hp u r u.free u.ldr
  unfold State.flashEnded
  extract_lets u l v w
  have hv : Keeps part [] s v := .update hdrawn (hp u u.regs u.free _)
  exact .irq (.wr (.wr (.wrB (.wrB (.wr hv rfl hregs) rfl hregs) rfl hregs) rfl hregs) rfl hregs) rfl hregs

theorem State.flashEnded_shows (s : State) (failed : Bool) : (s.flashEnded failed).ldr.flash = none ∧
    (s.flashEnded failed).flag Fld.CFG_FL_CMD_BUSY = false ∧
    (s.flashEnded failed).rd Fld.CFG_FL_CMD_RESULT = (if failed then 5 else 1) ∧
    (s.flashEnded failed).flag Fld.SYS_IRQ_STAT_FLASH = true := by
  have hw : Fld.CFG_FL_CMD_RESULT.width = 4 := rfl
  unfold State.flashEnded
  extract_lets u l v w
  have hbusy : w.flag Fld.CFG_FL_CMD_BUSY = false := State.flag_wrB_same _ _ _ rfl
  have hresult : w.rd Fld.CFG_FL_CMD_RESULT = if failed then 5 else 1 := by
    unfold w
    rw [State.rd_wrB_apart _ _ (by decide), State.rd_wr_same, hw]
    cases failed <;> rfl
  have hk : Keeps (fun s => s.ldr.flash) [Fld.CFG_FL_CMD_BUSY, Fld.CFG_FL_CMD_RESULT] w
      (((w.wrB Fld.CFG_STATUS_FL_BUSY false).refreshSlots).irq Fld.SYS_IRQ_STAT_FLASH) := .irq (.wr (.wr (.wrB (.refl w))))
  exact ⟨hk.part, hk.flag.trans hbusy, (hk.rd _ (by simp)).trans hresult, State.flag_wrB_same _ _ _ rfl⟩

/-- The end of a flash command leaves the page buffer. -/
theorem State.flashEnded_pageBuffer (s : State) (failed : Bool) : (s.flashEnded failed).pageBuffer = s.pageBuffer := by
  have hwords : s.keepsWords (s.flashEnded failed) [Adr.CFG_FL_CMD, Adr.CFG_STATUS, Adr.CFG_SLOT0, Adr.CFG_SLOT1, Adr.SYS_IRQ_STAT] := by
    have hdrawn : s.keepsWords (if failed then s.drawn else s) [Adr.CFG_FL_CMD, Adr.CFG_STATUS, Adr.CFG_SLOT0, Adr.CFG_SLOT1, Adr.SYS_IRQ_STAT] := by
      split <;> exact .of_regs rfl
    exact .wrB (.wr (.wr (.wrB (.wrB (.wr (hdrawn.sameRegs rfl))))))
  have hoff : ∀ w < 64, Adr.CFG_FL_DATA w ∉ [Adr.CFG_FL_CMD, Adr.CFG_STATUS, Adr.CFG_SLOT0, Adr.CFG_SLOT1, Adr.SYS_IRQ_STAT] := by decide +kernel
  unfold State.pageBuffer
  refine List.flatMap_congr fun w hw => ?_
  rw [hwords _ (hoff w (List.mem_range.1 hw))]

/-- READ fills the page buffer. -/
theorem State.setWords_pageBuffer (s : State) {bs : List Byte} (h : bs.length = 256) :
    (s.setWords (Adr.CFG_FL_DATA 0) (bytesWords bs)).pageBuffer = bs := by
  have hlen := length_bytesWords bs 64 h
  have hat := (s.setWords_words (Adr.CFG_FL_DATA 0) (bytesWords bs)).1
  have hmap : (List.range 64).map (fun w => (s.setWords (Adr.CFG_FL_DATA 0) (bytesWords bs)).word (Adr.CFG_FL_DATA w)) = bytesWords bs := by
    refine List.ext_getElem (by simp [hlen]) fun i h1 h2 => ?_
    rw [List.getElem_map, List.getElem_range]
    exact hat i _ (List.getElem?_eq_getElem h2)
  rw [State.pageBuffer, ← List.flatMap_map (f := fun w => (s.setWords (Adr.CFG_FL_DATA 0) (bytesWords bs)).word (Adr.CFG_FL_DATA w)), hmap]
  exact bytesWords_bytes bs 64 h

theorem State.flashEffect_leaves (s : State) (j : FlashJob) (failed : Bool) :
    (s.flashEffect j failed).led = s.led ∧ (s.flashEffect j failed).str = s.str := by
  unfold State.flashEffect
  dsimp only
  split
  · obtain ⟨-, honly⟩ := s.setWords_words (Adr.CFG_FL_DATA 0)
      (bytesWords (if failed then s.openBytes (j.addr / 256 * 256) 256 else s.flashRead (j.addr / 256 * 256) 256))
    exact ⟨honly.led, honly.str⟩
  · exact ⟨rfl, rfl⟩
  · exact ⟨rfl, rfl⟩

/-- Settles O52: the starts by `State.flashStart_starts`, the ends by `State.flashEnded_shows` and what each command leaves in the
page buffer and the flash. -/
theorem flashCommands : Obligations.FlashCommands := by
  unfold Obligations.FlashCommands
  intro s p
  refine ⟨fun hr hb => ⟨fun x hx => ?read, fun x hx hslot => ⟨fun ha => ?program, fun ha => ?erase⟩⟩, fun j failed hj => ?done⟩
  case read =>
    have hex : exec (.flashRead p) s = .next (s.flashBegun { cmd := 1, addr := s.rd Fld.CFG_FL_ADDR_ADDR }) :=
      congrArg Host.Outcome.next ((State.host_of_running hr).trans
        ((congrArg Prod.snd (State.wFlCmd_pass (cmd := 1) (by decide) (by decide) (by decide) hx)).trans
          (State.flashStart_starts hb (by simp) (by simp) (by simp))))
    exact ⟨_, hex, s.flashBegun_spec _⟩
  case program =>
    have hex : exec (.flashProgram p) s = .next (s.flashBegun { cmd := 2, addr := s.rd Fld.CFG_FL_ADDR_ADDR, data := s.pageBuffer }) :=
      congrArg Host.Outcome.next ((State.host_of_running hr).trans
        ((congrArg Prod.snd (State.wFlCmd_pass (cmd := 2) (by decide) (by decide) (by decide) hx)).trans
          (State.flashStart_starts hb (fun _ => hslot) (fun _ => ha) (by simp))))
    exact ⟨_, hex, s.flashBegun_spec _⟩
  case erase =>
    have hex : exec (.flashErase p) s = .next (s.flashBegun { cmd := 3, addr := s.rd Fld.CFG_FL_ADDR_ADDR }) :=
      congrArg Host.Outcome.next ((State.host_of_running hr).trans
        ((congrArg Prod.snd (State.wFlCmd_pass (cmd := 3) (by decide) (by decide) (by decide) hx)).trans
          (State.flashStart_starts hb (fun _ => hslot) (by simp) (fun _ => ha))))
    exact ⟨_, hex, s.flashBegun_spec _⟩
  case done =>
    obtain ⟨hnone, hbusy, hresult, hirq⟩ := (s.flashEffect j failed).flashEnded_shows failed
    obtain ⟨hled, hstr⟩ := s.flashEffect_leaves j failed
    have hk := (s.flashEffect j failed).flashEnded_keeps (part := fun s => (s.led, s.str, s.flash)) failed (by intros; rfl)
    obtain ⟨hled', hstr', hflash⟩ : ((s.flashEffect j failed).flashEnded failed).led = (s.flashEffect j failed).led ∧
        ((s.flashEffect j failed).flashEnded failed).str = (s.flashEffect j failed).str ∧
        ((s.flashEffect j failed).flashEnded failed).flash = (s.flashEffect j failed).flash := by
      simpa only [Prod.mk.injEq] using hk.part
    refine ⟨s.flashDone failed, rfl, ?_⟩
    rw [State.flashDone_eq hj]
    refine ⟨hnone, hbusy, hresult, hirq, fun h1 => ⟨?_, fun hf => ?_⟩, fun h2 => ⟨fun a ha => ?_, fun hf i b hi => ?_⟩,
      fun h3 => ⟨fun a ha => ?_, fun hf i hi => ?_⟩, hled'.trans hled, hstr'.trans hstr⟩
    · rw [hflash, State.flashEffect, h1]
      exact (s.setWords_words _ _).2.flash
    · rw [State.flashEnded_pageBuffer, State.flashEffect, h1, hf]
      exact s.setWords_pageBuffer (by simp [State.flashRead])
    · rw [State.flashByte, hflash, State.flashEffect, h2]
      refine (flashPut_reads ..).1 a ?_
      split
      · simp only [State.openBytes, List.length_map, List.length_range]
        omega
      · omega
    · rw [State.flashByte, hflash, State.flashEffect, h2, hf]
      exact (flashPut_reads ..).2 i b hi
    · rw [State.flashByte, hflash, State.flashEffect, h3]
      refine (flashPut_reads ..).1 a ?_
      split
      · simp only [State.openBytes, List.length_map, List.length_range]
        omega
      · rw [List.length_replicate]
        omega
    · have herased : (List.replicate 4096 (0xFF : Byte))[i]? = some 0xFF := by rw [List.getElem?_replicate, if_pos hi]
      have hread := (flashPut_reads s.flash.cells j.addr (List.replicate 4096 0xFF)).2 i 0xFF herased
      rw [State.flashByte, hflash, State.flashEffect, h3, hf]
      generalize List.replicate 4096 (0xFF : Byte) = bs at *
      exact hread

end Sys2Proof.Machine
end

section
/-!
Images at a start (R386, R398 to R401, R409): a candidate tested, refused or accepted, and applied.
-/

namespace Sys2Proof.Machine
variable {α : Type} {part : State → α} {gs : List Field} {s0 s t u : State} {l : Load} {im : Image}

/-! ### A candidate refused at a start (R398, R401) -/

theorem State.loadReport_result (s : State) (slot : Nat) (live : Bool) (result addr : Nat) (tested : Bool) :
    (s.loadReport slot live result addr tested).rd Fld.CFG_LOAD_STAT_RESULT = result % 16 := by
  have hw : Fld.CFG_LOAD_STAT_RESULT.width = 4 := rfl
  have hshown : (s.wr Fld.CFG_LOAD_STAT_RESULT result).rd Fld.CFG_LOAD_STAT_RESULT = result % 16 := by
    rw [State.rd_wr_same, hw]
    rfl
  have hk (u : State) : Keeps State.core [Fld.CFG_LOAD_STAT_RESULT] u
      (((u.wr Fld.CFG_LOAD_STAT_SLOT slot).wrB Fld.CFG_LOAD_STAT_LIVE live).wr Fld.CFG_FAIL_ADDR_ADDR addr) := .wr (.wrB (.wr (.refl u)))
  have hall : Keeps State.core [Fld.CFG_LOAD_STAT_RESULT] (s.wr Fld.CFG_LOAD_STAT_RESULT result)
      (s.loadReport slot live result addr tested) := .irq (.ite (.count (hk _)) (hk _))
  exact (hall.rd _ (by simp)).trans hshown

set_option Elab.async false in
theorem State.loadRefuse_result (s : State) (slot : Nat) (live : Bool) (result addr : Nat) (tested : Bool) :
    (s.loadRefuse slot live result addr tested).rd Fld.CFG_LOAD_STAT_RESULT = result % 16 :=
  (State.rd_raise_living _ (by decide) (by decide) ..).trans (State.loadReport_result ..)

/-- What the refusal of a candidate leaves. -/
abbrev State.besideLoad (s : State) := (s.ldr, s.str, s.flash, s.led)

theorem State.loadRefuse_leaves (s : State) (slot : Nat) (live : Bool) (result addr : Nat) (tested : Bool) :
    Keeps State.besideLoad [Fld.SYS_STATUS_STATE] s (s.loadRefuse slot live result addr tested) := .loadRefuse (.refl s)

/-- A refused candidate of a start gives way to the next. -/
theorem State.startRefuse_next {n : Nat} {ns : List Nat} (h : s.ldr.rest = n :: ns) (slot result addr : Nat) :
    (s.startRefuse slot result addr).ldr = { s.ldr with cur := some { slot := n }, rest := ns } ∧
      (s.startRefuse slot result addr).loader = ldRead ∧ (s.startRefuse slot result addr).chip = s.chip ∧
      (s.startRefuse slot result addr).rd Fld.CFG_LOAD_STAT_RESULT = result % 16 ∧
      (s.startRefuse slot result addr).str = s.str ∧ (s.startRefuse slot result addr).flash = s.flash := by
  have hk := s.loadRefuse_leaves slot false result addr true
  have hresult := s.loadRefuse_result slot false result addr true
  obtain ⟨hldr, hstr, hflash, -⟩ : (s.loadRefuse slot false result addr true).ldr = s.ldr ∧ (s.loadRefuse slot false result addr true).str = s.str ∧
      (s.loadRefuse slot false result addr true).flash = s.flash ∧ (s.loadRefuse slot false result addr true).led = s.led := by
    simpa only [Prod.mk.injEq] using hk.part
  unfold State.startRefuse
  rw [State.loadNext_cons (by rw [hldr, h])]
  generalize s.loadRefuse slot false result addr true = u at *
  refine ⟨?_, State.rd_wr_same .., (State.rd_wr_apart _ _ (by decide)).trans (hk.rd _ (by simp)),
    (State.rd_wr_apart _ _ (by decide)).trans hresult, hstr, hflash⟩
  rw [← hldr]
  rfl

/-- With no candidate left the start ends in LOAD_FAILED. -/
theorem State.startRefuse_last (h : s.ldr.rest = []) (slot result addr : Nat) : (s.startRefuse slot result addr).ldr.cur = none ∧
    (s.startRefuse slot result addr).flash = s.flash ∧ (s.startRefuse slot result addr).chip = chipLoadFailed ∧
    (s.startRefuse slot result addr).rd Fld.CFG_LOAD_STAT_RESULT = result % 16 ∧ (s.startRefuse slot result addr).str = s.str := by
  have hk := s.loadRefuse_leaves slot false result addr true
  have hresult := s.loadRefuse_result slot false result addr true
  obtain ⟨hldr, hstr, hflash, -⟩ : (s.loadRefuse slot false result addr true).ldr = s.ldr ∧ (s.loadRefuse slot false result addr true).str = s.str ∧
      (s.loadRefuse slot false result addr true).flash = s.flash ∧ (s.loadRefuse slot false result addr true).led = s.led := by
    simpa only [Prod.mk.injEq] using hk.part
  unfold State.startRefuse
  rw [State.loadNext_nil (by rw [hldr, h])]
  generalize s.loadRefuse slot false result addr true = u at *
  have hfail : Keeps (fun s => (s.str, s.flash)) [Fld.CFG_LOAD_STAT_RESULT] u u.loadFailed := .setChip (.wr (.update (.refl u)))
  obtain ⟨hchip, hcur, -⟩ := u.loadFailed_shows
  exact ⟨hcur, (congrArg (·.2) hfail.part).trans hflash, hchip, (hfail.rd _ (by simp)).trans hresult,
    (congrArg (·.1) hfail.part).trans hstr⟩

/-! ### A candidate accepted (R399, R400) -/

/-- The loader records the accepted candidate. -/
def State.acceptedLdr (s : State) (l : Load) (im : Image) : State := { s with ldr := { s.ldr with
  cur := none, rest := [], accepted := if l.reset then none else some im, resetDue := l.reset, atTick := s.core.ticks } }

/-- Its acceptance is reported. -/
def State.acceptedReport (s : State) (l : Load) (im : Image) : State :=
  ((s.acceptedLdr l im).wr Fld.CFG_STATUS_LOADER ldApply).loadReport l.slot l.live lrAccepted 0 true

/-- The status of the running image, and CONFIG_LOADED. -/
def State.acceptedShown (s : State) (l : Load) (im : Image) (kind : Nat) : State :=
  let s := s.wr Fld.CFG_LOAD_STAT_SKIPPED (im.patches.filter fun p => !s.patchFits p).length
  let s := ((s.wrB Fld.CFG_STATUS_FIRST (kind = 3)).wrB Fld.CFG_STATUS_FALLBACK (kind = 2)).wr Fld.CFG_STATUS_ACTIVE_SLOT l.slot
  s.raise evConfigLoaded l.slot (beBytes 4 im.gen ++ beBytes 1 kind ++ beBytes 1 (if l.live then 1 else 0))

theorem State.accepted_eq (s : State) (l : Load) (im : Image) (kind : Nat) :
    s.accepted l im kind = (s.acceptedReport l im).acceptedShown l im kind := rfl

theorem State.acceptedShown_keeps (s : State) (l : Load) (im : Image) (kind : Nat) :
    Keeps State.besideLoad [Fld.SYS_STATUS_STATE, Fld.CFG_STATUS_LOADER, Fld.CFG_LOAD_STAT_RESULT] s (s.acceptedShown l im kind) := by
  unfold State.acceptedShown
  exact .raiseLiving (.wr (.wrB (.wrB (.wr (.refl s)))))

theorem State.acceptedReport_keeps (s : State) (l : Load) (im : Image) :
    Keeps State.besideLoad [Fld.SYS_STATUS_STATE] (s.acceptedLdr l im) (s.acceptedReport l im) := .loadReport (.wr (.refl _))

theorem State.acceptedReport_shows (s : State) (l : Load) (im : Image) : (s.acceptedReport l im).loader = ldApply ∧
    (s.acceptedReport l im).rd Fld.CFG_LOAD_STAT_RESULT = lrAccepted := by
  have hk : Keeps State.besideLoad [Fld.CFG_STATUS_LOADER] ((s.acceptedLdr l im).wr Fld.CFG_STATUS_LOADER ldApply)
      (s.acceptedReport l im) := .loadReport (.refl _)
  exact ⟨(hk.rd _ (by simp)).trans (State.rd_wr_same ..), State.loadReport_result ..⟩

theorem State.accepted_spec (s : State) (hr : l.reset = false) (im : Image) (kind : Nat) : (s.accepted l im kind).ldr.cur = none ∧
    (s.accepted l im kind).ldr.accepted = some im ∧ (s.accepted l im kind).loader = ldApply ∧
    (s.accepted l im kind).rd Fld.CFG_LOAD_STAT_RESULT = lrAccepted ∧ (s.accepted l im kind).chip = s.chip ∧
    (s.accepted l im kind).str = s.str ∧ (s.accepted l im kind).flash = s.flash ∧ (s.accepted l im kind).led = s.led := by
  have hreport := s.acceptedReport_keeps l im
  have hshown := (s.acceptedReport l im).acceptedShown_keeps l im kind
  obtain ⟨hloader, hresult⟩ := s.acceptedReport_shows l im
  have hacc : (s.acceptedLdr l im).ldr.accepted = some im := by
    have h : (s.acceptedLdr l im).ldr.accepted = if l.reset then none else some im := rfl
    rw [h, hr]
    rfl
  have hbeside : (s.accepted l im kind).besideLoad = (s.acceptedLdr l im).besideLoad := hshown.part.trans hreport.part
  obtain ⟨hldr, hstr, hflash, hled⟩ : (s.accepted l im kind).ldr = (s.acceptedLdr l im).ldr ∧
      (s.accepted l im kind).str = (s.acceptedLdr l im).str ∧ (s.accepted l im kind).flash = (s.acceptedLdr l im).flash ∧
      (s.accepted l im kind).led = (s.acceptedLdr l im).led := by
    simpa only [Prod.mk.injEq] using hbeside
  rw [hldr, hstr, hflash, hled, State.accepted_eq]
  exact ⟨rfl, hacc, (hshown.rd _ (by simp)).trans hloader, (hshown.rd _ (by simp)).trans hresult,
    (hshown.rd _ (by simp)).trans (hreport.rd Fld.SYS_STATUS_STATE (by simp)), rfl, rfl, rfl⟩

/-- The loader transaction sets the image's GEN. -/
theorem loadBuild_gen (l : Load) (im : Image) (kind : Nat) (b : Build) : (loadBuild l im kind b).img.st.imageGen = im.gen := by
  have hst (c : Build) : (c.st (loadState im kind)).img.st.imageGen = im.gen := rfl
  have hcal (c : Build) (n : Nat) (v : Option Calendar) : (c.add (.calendar n v)).img.st = c.img.st := by
    cases n <;> rfl
  unfold loadBuild
  extract_lets old bit bits c d
  have hd : d.img.st.imageGen = im.gen := hst c
  split
  · split
    · rw [hcal, hcal, hd]
    · rw [hcal, hd]
  · exact hd

/-- The loader transaction of a ledger that can commit. -/
theorem State.loadCommand (hc : s.canCommit) (l : Load) (im : Image) (kind : Nat) : ∃ t,
    s.command 0x06 (loadBuild l im kind) = (true, t) ∧ CommitLeaves s t ∧ t.str.tseq = s.str.tseq + 1 ∧
      t.led.com.st.imageGen = im.gen := by
  obtain ⟨u, hu, hcmd⟩ := s.command_of_canCommit hc 0x06 (loadBuild l im kind)
  have hleaves := CommitLeaves.command hc 0x06 (loadBuild l im kind)
  refine ⟨_, hcmd, by rwa [hcmd] at hleaves, ?_, ?_⟩
  · change (State.showLive _).str.tseq = _
    rw [State.showLive_str, State.commitTxn_tseq, hu.tseq]
  · change (State.showLive _).led.com.st.imageGen = _
    rw [State.showLive_com, State.commitTxn_com, applyTxn_txn_st, loadBuild_gen]

/-- A candidate that has been read is tested. -/
theorem State.imageVerify_tests (hl : s.ldr.cur = some l) (hv : s.loader = ldVerify) (hrec : s.led.recovered = true) :
    s.imageVerify = match s.verify l with
      | .inl (result, addr) => s.candidateRefuse l result addr
      | .inr im =>
        let kind := loadKind s.led.com.st im
        if kind = 0 then s.accepted l im kind
        else match s.command 0x06 (loadBuild l im kind) with
          | (true, s) => s.accepted l im kind
          | (false, s) => s.candidateRefuse l lrStrata 0 := by
  have hgo : ¬(decide (s.loader ≠ ldVerify) || !s.led.recovered) = true := by simp [hv, hrec]
  unfold State.imageVerify
  rw [hl]
  exact if_neg hgo

set_option Elab.async false in
theorem State.candidateRefuse_start (hlive : l.live = false) (result addr : Nat) :
    s.candidateRefuse l result addr = s.startRefuse l.slot result addr := if_neg (by simp [hlive])

/-- A candidate that passes is accepted, with a loader transaction of its kind. -/
theorem State.verify_accepts (hc : s.canCommit) (hr : l.reset = false) (im : Image) (kind : Nat) : ∃ t,
    (if kind = 0 then s.accepted l im kind
      else match s.command 0x06 (loadBuild l im kind) with
        | (true, s) => s.accepted l im kind
        | (false, s) => s.candidateRefuse l lrStrata 0) = t ∧ t.ldr.cur = none ∧ t.flash = s.flash ∧
      t.ldr.accepted = some im ∧ t.loader = ldApply ∧ t.rd Fld.CFG_LOAD_STAT_RESULT = lrAccepted ∧ t.chip = s.chip ∧
      (kind = 0 → t.str = s.str) ∧ (kind ≠ 0 → t.str.tseq = s.str.tseq + 1 ∧ t.led.com.st.imageGen = im.gen) := by
  by_cases hk : kind = 0
  · obtain ⟨hcur, hacc, hloader, hresult, hchip, hstr, hflash, -⟩ := s.accepted_spec hr im kind
    rw [if_pos hk]
    exact ⟨_, rfl, hcur, hflash, hacc, hloader, hresult, hchip, fun _ => hstr, fun h => absurd hk h⟩
  · obtain ⟨u, hcmd, hleaves, htseq, hgen⟩ := State.loadCommand hc l im kind
    obtain ⟨hcur, hacc, hloader, hresult, hchip, hstr, hflash, hled⟩ := u.accepted_spec hr im kind
    rw [if_neg hk, hcmd]
    refine ⟨_, rfl, hcur, hflash.trans (congrArg (·.2.2.2.2.1) hleaves.part), hacc, hloader, hresult,
      hchip.trans (hleaves.rd _ (by simp)), fun h => absurd h hk, fun _ => ⟨?_, ?_⟩⟩
    · rw [hstr, htseq]
    · rw [hled, hgen]

/-! ### An image applied at a start (R302, R386) -/

/-- What the application of an image reads across its registers. -/
theorem State.applyRegs_keeps (s : State) (im : Image) :
    Keeps (fun s => (s.core, s.led, s.str, s.flash, s.ldr)) [] s (s.applyRegs im) := by
  have himage : Keeps (fun s => (s.core, s.led, s.str, s.flash, s.ldr)) [] s (s.withImage im.regs) := ⟨rfl, by simp⟩
  unfold State.applyRegs State.encSettle State.refreshActive
  extract_lets u v
  have hv : Keeps (fun s => (s.core, s.led, s.str, s.flash, s.ldr)) [] s v :=
    .foldl himage fun w k _ hw => .wr (.wr hw rfl) rfl
  clear_value v
  exact .wr (.update (.update hv)) rfl

/-- The parts and fields that the rest of IMAGE_APPLY leaves. -/
abbrev AppliedKeeps (s t : State) : Prop :=
  Keeps (fun s => (s.core, s.ldr, s.tmp.responsesOn, s.flash)) [Fld.SYS_STATUS_STATE, Fld.CFG_STATUS_LOADER] s t

theorem AppliedKeeps.lsgFuse (hc : s.canCommit) : AppliedKeeps s s.lsgFuse := by
  unfold State.lsgFuse
  extract_lets new
  split
  · exact .refl s
  · have hleaves := CommitLeaves.command hc 0x06 fun b => b.audit 0x19 0 keysNone (beBytes 1 new.toNat)
    obtain ⟨u, -, hcmd⟩ := s.command_of_canCommit hc 0x06 fun b => b.audit 0x19 0 keysNone (beBytes 1 new.toNat)
    rw [hcmd] at hleaves ⊢
    generalize (((u.commitTxn u.freeUs (((u.newBuild u.led.com).audit 0x19 0 keysNone (beBytes 1 new.toNat)).txn 0x06 .command)).showLive).drawn) = v at *
    obtain ⟨hcore, -, -, hldr, hflash, htmp, -⟩ : v.core = s.core ∧ v.bk = s.bk ∧ v.pwr = s.pwr ∧ v.ldr = s.ldr ∧ v.flash = s.flash ∧
        v.tmp = s.tmp ∧ v.fuses = s.fuses ∧ v.now = s.now ∧ v.sec = s.sec := by
      simpa only [Prod.mk.injEq] using hleaves.part
    have hv : AppliedKeeps s v := ⟨by rw [hcore, hldr, htmp, hflash], fun g hg => hleaves.rd g (by
      simp only [List.mem_cons, List.not_mem_nil, or_false] at hg
      obtain rfl | rfl := hg <;> simp)⟩
    exact .wr (.update hv)

theorem AppliedKeeps.refreshTamperAlert (h : AppliedKeeps s0 s) : AppliedKeeps s0 s.refreshTamperAlert :=
  .wrB (.alert h)

theorem AppliedKeeps.lockFirst (h : AppliedKeeps s0 s) : AppliedKeeps s0 s.lockFirst := by
  unfold State.lockFirst State.queueLock
  exact .ite h (.ite (.update h) (.update h))

theorem AppliedKeeps.ptpStart (h : AppliedKeeps s0 s) : AppliedKeeps s0 s.ptpStart := by
  unfold State.ptpStart State.refreshUtc State.setPtp
  exact .wrB (.wrB (.wrS (.wrB (.wr (.wrB h)))))

theorem AppliedKeeps.testStart (h : AppliedKeeps s0 s) : AppliedKeeps s0 (s.testStart false) := by
  unfold State.testStart State.testWindow
  extract_lets r v w r'
  have hv : AppliedKeeps s0 v := .update h
  have hw : AppliedKeeps s0 w := .wrB (.wr hv)
  exact .ite (.wr (.update hw)) (.update hw)

theorem State.testStart_run (s : State) (periodic : Bool) : (s.testStart periodic).tmp.testRun.isSome = true := by
  unfold State.testStart State.testWindow
  dsimp only
  split <;> rfl

/-- The image has loaded and no image waits. -/
def State.imageTaken (s : State) (im : Image) : State := { s with
  core := { s.core with loaded := true }
  tmp := { s.tmp with responsesOn := true }
  ldr := { s.ldr with accepted := none, patches := im.patches } }

/-- The image is in force and STATE has left START. -/
def State.imageInForce (s : State) (im : Image) : State :=
  (((s.applyRegs im).imageTaken im).wr Fld.CFG_STATUS_LOADER ldIdle).setChip chipProvisional

theorem State.imageInForce_spec (s : State) (im : Image) : (s.imageInForce im).core = { s.core with loaded := true } ∧
    (s.imageInForce im).chip = chipProvisional ∧ (s.imageInForce im).loader = ldIdle ∧
    (s.imageInForce im).ldr = { s.ldr with accepted := none, patches := im.patches } ∧
    (s.imageInForce im).tmp.responsesOn = true ∧ (s.imageInForce im).flash = s.flash ∧ (s.imageInForce im).led = s.led ∧
    (s.imageInForce im).str = s.str := by
  obtain ⟨hcore, hled, hstr, hflash, hldr⟩ : (s.applyRegs im).core = s.core ∧ (s.applyRegs im).led = s.led ∧ (s.applyRegs im).str = s.str ∧
      (s.applyRegs im).flash = s.flash ∧ (s.applyRegs im).ldr = s.ldr := by
    simpa only [Prod.mk.injEq] using (s.applyRegs_keeps im).part
  unfold State.imageInForce
  generalize s.applyRegs im = u at *
  have hv : (u.imageTaken im).core = { u.core with loaded := true } ∧
    (u.imageTaken im).ldr = { u.ldr with accepted := none, patches := im.patches } ∧ (u.imageTaken im).tmp.responsesOn = true ∧
    (u.imageTaken im).flash = u.flash ∧ (u.imageTaken im).led = u.led ∧ (u.imageTaken im).str = u.str := ⟨rfl, rfl, rfl, rfl, rfl, rfl⟩
  generalize u.imageTaken im = v at *
  have hchip : ((v.wr Fld.CFG_STATUS_LOADER ldIdle).setChip chipProvisional).chip = chipProvisional := State.setChip_chip ..
  have hk : Keeps (fun s => (s.core, s.ldr, s.tmp, s.flash, s.led, s.str)) [Fld.CFG_STATUS_LOADER] (v.wr Fld.CFG_STATUS_LOADER ldIdle)
      ((v.wr Fld.CFG_STATUS_LOADER ldIdle).setChip chipProvisional) := .setChip (.refl _)
  obtain ⟨hkcore, hkldr, hktmp, hkflash, hkled, hkstr⟩ := by simpa only [Prod.mk.injEq] using hk.part
  obtain ⟨hvcore, hvldr, hvtmp, hvflash, hvled, hvstr⟩ := hv
  exact ⟨hkcore.trans (by rw [← hcore]; exact hvcore), hchip, (hk.rd _ (by simp)).trans (State.rd_wr_same ..), hkldr.trans (by rw [← hldr]; exact hvldr),
    (congrArg Tamper.responsesOn hktmp).trans hvtmp, hkflash.trans (hvflash.trans hflash), hkled.trans (hvled.trans hled),
    hkstr.trans (hvstr.trans hstr)⟩

theorem State.imageApply_eq (ha : s.ldr.accepted = some im) (hl : s.core.loaded = false) (hc : s.chip = chipStart) :
    s.imageApply = (((s.imageInForce im).ledgerCfg.lsgFuse.refreshTamperAlert.lockFirst).ptpStart).testStart false := by
  have hgo : ¬(s.core.loaded || decide (s.chip ≠ chipStart)) = true := by simp [hl, hc]
  unfold State.imageApply
  rw [ha]
  exact if_neg hgo

/-- The interval settings of the ledger leave what can commit. -/
theorem State.canCommit.ledgerCfg (h : s.canCommit) : s.ledgerCfg.canCommit ∧ AppliedKeeps s s.ledgerCfg := by
  unfold State.ledgerCfg
  split
  · exact ⟨h, .refl s⟩
  · exact ⟨h, .update (.refl s)⟩

theorem State.canCommit.inForce (h : s.canCommit) (im : Image) : (s.imageInForce im).canCommit := by
  obtain ⟨hok, htwo, hwarned, hqueue⟩ := h
  obtain ⟨hcore, hchip, -, -, -, -, hled, hstr⟩ := s.imageInForce_spec im
  refine ⟨?_, ?_, ?_, ?_⟩
  · simp only [State.ledgerOk, Bool.and_eq_true, decide_eq_true_eq] at hok ⊢
    rw [hled, hstr, hchip]
    exact ⟨hok.1, by decide⟩
  · unfold State.twoCopies
    rw [hstr]
    exact htwo
  · rw [hcore]
    exact hwarned
  · rw [hled, hqueue]

/-- Settles O8: candidates by `State.imageVerify_tests`, their refusal and acceptance by `State.startRefuse_next`,
`State.startRefuse_last` and `State.verify_accepts`, and IMAGE_APPLY by `State.imageApply_eq`. -/
theorem imageTestedAndApplied : Obligations.ImageTestedAndApplied := by
  unfold Obligations.ImageTestedAndApplied
  refine ⟨⟨fun s hcur hl => ?read, fun s l n ns x hcur hv hrec hlive hrest hx => ?refused,
    fun s l hcur hv hlive hreset hrest hc => ?tested⟩, fun s im ha hl hchip hc => ?applied⟩
  case read =>
    have hex : s.readComplete = s.wr Fld.CFG_STATUS_LOADER ldVerify := if_pos (by simp [hcur, hl])
    refine ⟨s.readComplete, rfl, ?_⟩
    rw [hex]
    exact ⟨State.rd_wr_same .., .wr (.refl s _)⟩
  case refused =>
    refine ⟨s.imageVerify, rfl, ?_⟩
    rw [State.imageVerify_tests hcur hv hrec, hx]
    dsimp only
    rw [State.candidateRefuse_start hlive]
    exact State.startRefuse_next hrest ..
  case tested =>
    have hrec : s.led.recovered = true := by
      have hok := hc.1
      simp only [State.ledgerOk, Bool.and_eq_true] at hok
      exact hok.1.1.1
    refine ⟨s.imageVerify, rfl, ?_⟩
    rw [State.imageVerify_tests hcur hv hrec]
    cases s.verify l with
    | inl x =>
      dsimp only
      rw [State.candidateRefuse_start hlive]
      obtain ⟨hnone, hflash, hfailed, hresult, hstr⟩ := State.startRefuse_last hrest l.slot x.1 x.2
      exact ⟨hnone, hflash, hfailed, hresult, hstr⟩
    | inr im =>
      obtain ⟨t, ht, hnone, hflash, hacc, hloader, hresult, hsame, h0, h1⟩ := State.verify_accepts hc hreset im (loadKind s.led.com.st im)
      dsimp only
      rw [ht]
      exact ⟨hnone, hflash, hacc, hloader, hresult, hsame, h0, h1⟩
  case applied =>
    refine ⟨s.imageApply, rfl, ?_⟩
    obtain ⟨hcore, hstate, hloader, hldr, hresp, hflash, -⟩ := s.imageInForce_spec im
    obtain ⟨hcfg, hkcfg⟩ := (hc.inForce im).ledgerCfg
    have hk : AppliedKeeps (s.imageInForce im) s.imageApply := by
      rw [State.imageApply_eq ha hl hchip]
      exact AppliedKeeps.testStart (AppliedKeeps.ptpStart (AppliedKeeps.lockFirst (AppliedKeeps.refreshTamperAlert
        (hkcfg.trans (AppliedKeeps.lsgFuse hcfg)))))
    have hrun : s.imageApply.tmp.testRun.isSome = true := by
      rw [State.imageApply_eq ha hl hchip]
      exact State.testStart_run ..
    obtain ⟨hkcore, hkldr, hkresp, hkflash⟩ : s.imageApply.core = (s.imageInForce im).core ∧ s.imageApply.ldr = (s.imageInForce im).ldr ∧
        s.imageApply.tmp.responsesOn = (s.imageInForce im).tmp.responsesOn ∧ s.imageApply.flash = (s.imageInForce im).flash := by
      simpa only [Prod.mk.injEq] using hk.part
    refine ⟨?_, (hk.rd _ (by simp)).trans hstate, (hk.rd _ (by simp)).trans hloader, ?_, ?_, hkresp.trans hresp, hrun, hkflash.trans hflash⟩
    · rw [hkcore, hcore]
    · rw [hkldr, hldr]
    · rw [hkldr, hldr]

end Sys2Proof.Machine
end

section
/-!
The panel (R415, R420 to R423): requests and updates of windows, frames, and VPNL.
-/

namespace Sys2Proof.Machine
variable {α : Type} {part : State → α} {gs : List Field} {s0 s t u : State} {w v : Nat}

/-! ### Requests (R420, R421) -/

/-- The fields of a window that a request of any window leaves, and PNL_STATUS.STATE. -/
abbrev windowSettings (w : Nat) : List Field :=
  [Fld.PNL_WIN_CFG_ENABLE w, Fld.PNL_WIN_STAT_ERR w, Fld.PNL_WIN_CFG_DEC w, Fld.PNL_WIN_CFG_WIDTH w, Fld.PNL_WIN_CFG_KIND w,
    Fld.PNL_WIN_CFG_ROW w, Fld.PNL_WIN_CFG_COL w, Fld.PNL_WIN_CFG_SHIFT w, Fld.PWR_ON_ON, Fld.PNL_STATUS_STATE,
    Fld.PNL_WIN_STAT_UPDATES w, Fld.PNL_WIN_STAT_UPDATING w]

set_option Elab.async false in
theorem windowSettings_request (w : Nat) (hw : w < 8) (v : Nat) (hv : v < 8) :
    (windowSettings w).all (Fld.PNL_WIN_STAT_REPLACED v).apart = true ∧
      (windowSettings w).all (Fld.PNL_WIN_STAT_PENDING v).apart = true ∧ (windowSettings w).all Fld.PNL_STATUS_PENDING.apart = true := by
  decide +revert +kernel

/-- A request of a window, before PNL_STATUS shows it. -/
def State.requestHeld (s : State) (v : Nat) : State :=
  (if s.flag (Fld.PNL_WIN_STAT_PENDING v) then s.count (Fld.PNL_WIN_STAT_REPLACED v) else s).wrB (Fld.PNL_WIN_STAT_PENDING v) true

/-- Whether a request of a window is taken. -/
def State.requestTaken (s : State) (v : Nat) : Bool :=
  s.panelOn && !s.core.warned && s.flag (Fld.PNL_WIN_CFG_ENABLE v) && !(s.rd (Fld.PNL_WIN_STAT_ERR v) = 1 && s.badGeom v)

theorem State.panelRequest_eq (s : State) (v : Nat) : s.panelRequest v = if s.requestTaken v then
    (s.requestHeld v).wr Fld.PNL_STATUS_PENDING
      ((if s.flag (Fld.PNL_WIN_STAT_PENDING v) then s.count (Fld.PNL_WIN_STAT_REPLACED v) else s).rd Fld.PNL_STATUS_PENDING ||| 2 ^ v)
    else s := by
  have hnot : (!s.panelOn || s.core.warned || !s.flag (Fld.PNL_WIN_CFG_ENABLE v) ||
      (s.rd (Fld.PNL_WIN_STAT_ERR v) = 1 && s.badGeom v)) = !s.requestTaken v := by
    simp [State.requestTaken, Bool.not_and]
  unfold State.panelRequest
  rw [hnot]
  cases s.requestTaken v <;> rfl

theorem State.panelRequest_keeps (s : State) (hw : w < 8) (hv : v < 8) (hp : ∀ u r, part { u with regs := r } = part u) :
    Keeps part (windowSettings w) s (s.panelRequest v) := by
  obtain ⟨hreplaced, hpending, hshown⟩ := windowSettings_request w hw v hv
  rw [State.panelRequest_eq]
  exact .ite (.wr (.wrB (.ite (.count (.refl s) hreplaced hp) (.refl s)) hpending hp) hshown hp) (.refl s)

theorem State.badGeom_congr (h : ∀ g ∈ windowSettings w, t.rd g = s.rd g) : t.badGeom w = s.badGeom w := by
  unfold State.badGeom
  rw [h (Fld.PNL_WIN_CFG_DEC w) (by simp), h (Fld.PNL_WIN_CFG_WIDTH w) (by simp), h (Fld.PNL_WIN_CFG_KIND w) (by simp),
    h (Fld.PNL_WIN_CFG_ROW w) (by simp), h (Fld.PNL_WIN_CFG_COL w) (by simp), h (Fld.PNL_WIN_CFG_SHIFT w) (by simp)]

theorem State.requestTaken_congr (h : Keeps (fun s => (s.core, s.pwr)) (windowSettings w) s t) :
    t.requestTaken w = s.requestTaken w := by
  obtain ⟨hcore, hpwr⟩ : t.core = s.core ∧ t.pwr = s.pwr := by simpa only [Prod.mk.injEq] using h.part
  unfold State.requestTaken State.panelOn
  rw [hcore, hpwr, h.rd Fld.PWR_ON_ON (by simp), h.flag (g := Fld.PNL_WIN_CFG_ENABLE w) (by simp),
    h.rd (Fld.PNL_WIN_STAT_ERR w) (by simp), State.badGeom_congr h.rd]

/-- A window's request shows. -/
def State.requestShown (s : State) (w : Nat) : Prop :=
  s.flag (Fld.PNL_WIN_STAT_PENDING w) = true ∧ s.rd Fld.PNL_STATUS_PENDING / 2 ^ w % 2 = 1

theorem pendingFields (w : Nat) (hw : w < 8) (v : Nat) (hv : v < 8) : (Fld.PNL_WIN_STAT_PENDING w).width = 1 ∧
    Fld.PNL_STATUS_PENDING.apart (Fld.PNL_WIN_STAT_PENDING w) = true ∧
    (Fld.PNL_WIN_STAT_PENDING v).apart Fld.PNL_STATUS_PENDING = true ∧
    (Fld.PNL_WIN_STAT_REPLACED v).apart Fld.PNL_STATUS_PENDING = true ∧
    (Fld.PNL_WIN_STAT_REPLACED v).apart (Fld.PNL_WIN_STAT_PENDING w) = true ∧
    (v ≠ w → (Fld.PNL_WIN_STAT_PENDING v).apart (Fld.PNL_WIN_STAT_PENDING w) = true) := by
  decide +revert +kernel

/-- A request that is taken shows, and one of another window leaves those that show. -/
theorem State.panelRequest_shows (s : State) (hw : w < 8) (hv : v < 8) (h : (v = w ∧ s.requestTaken w = true) ∨ s.requestShown w) :
    (s.panelRequest v).requestShown w := by
  obtain ⟨hwidth, hstatus, hpend, hrepl, hrepl', hother⟩ := pendingFields w hw v hv
  have hsw : Fld.PNL_STATUS_PENDING.width = 8 := rfl
  have hcount : (if s.flag (Fld.PNL_WIN_STAT_PENDING v) then s.count (Fld.PNL_WIN_STAT_REPLACED v) else s).rd Fld.PNL_STATUS_PENDING =
      s.rd Fld.PNL_STATUS_PENDING := by
    split
    · exact State.rd_wr_apart _ _ hrepl
    · rfl
  have hheld : (if s.flag (Fld.PNL_WIN_STAT_PENDING v) then s.count (Fld.PNL_WIN_STAT_REPLACED v) else s).flag (Fld.PNL_WIN_STAT_PENDING w) =
      s.flag (Fld.PNL_WIN_STAT_PENDING w) := by
    split
    · exact State.flag_wr_apart hrepl'
    · rfl
  rw [State.panelRequest_eq, hcount]
  split
  next ht =>
    refine ⟨(State.flag_wr_apart hstatus).trans ?_, ?_⟩
    · unfold State.requestHeld
      by_cases hvw : v = w
      · subst hvw
        exact State.flag_wrB_same _ _ _ hwidth
      · exact (State.flag_wrB_apart (hother hvw)).trans (hheld.trans (h.resolve_left fun h => hvw h.1).1)
    · rw [State.rd_wr_same, hsw]
      obtain ⟨rfl, -⟩ | hs := h
      · exact setBit_reads _ hv
      · exact setBit_stays v hw hs.2
  next ht =>
    obtain ⟨rfl, hs⟩ | hs := h
    · exact absurd hs ht
    · exact hs

/-- A write of PNL_REQ requests each of its windows in turn. -/
theorem State.requests_show (l : List Nat) (hl : ∀ x ∈ l, x < 8) (p : Nat → Bool) (s : State) :
    Keeps (fun s => (s.core, s.pwr, s.led, s.panel)) [] s (l.foldl (fun s w => if p w then s.panelRequest w else s) s) ∧
    ∀ w < 8, ((w ∈ l ∧ p w = true ∧ s.requestTaken w = true) ∨ s.requestShown w) →
      (l.foldl (fun s w => if p w then s.panelRequest w else s) s).requestShown w := by
  induction l generalizing s with
  | nil => exact ⟨.refl s, fun w _ h => by simpa using h⟩
  | cons v l ih =>
    have hv : v < 8 := hl v (by simp)
    obtain ⟨hk, hshow⟩ := ih (fun x hx => hl x (by simp [hx])) (if p v then s.panelRequest v else s)
    have hstep : Keeps (fun s => (s.core, s.pwr, s.led, s.panel)) [] s (if p v then s.panelRequest v else s) :=
      .ite ⟨(State.panelRequest_keeps (part := fun s => (s.core, s.pwr, s.led, s.panel)) s hv hv (by intros; rfl)).part, by simp⟩ (.refl s)
    refine ⟨hstep.trans hk, fun w hw h => hshow w hw ?_⟩
    have hkept : (if p v then s.panelRequest v else s).requestTaken w = s.requestTaken w :=
      State.requestTaken_congr (.ite (State.panelRequest_keeps s hw hv (by intros; rfl)) (.refl s))
    rw [hkept]
    obtain ⟨hm, hp, ht⟩ | hs := h
    · obtain rfl | hm := List.mem_cons.1 hm
      · rw [if_pos hp]
        exact .inr (s.panelRequest_shows hw hw (.inl ⟨rfl, ht⟩))
      · exact .inl ⟨hm, hp, ht⟩
    · refine .inr ?_
      split
      · exact s.panelRequest_shows hw hv (.inr hs)
      · exact hs

/-! ### Updates (R422) -/

/-- The update in progress begins. -/
def State.updateBegun (s : State) (v src : Nat) : State :=
  ((({ s with panel := { s.panel with cur := some (v, src) } } : State).wrB (Fld.PNL_WIN_STAT_UPDATING v) true).wrB
    Fld.PNL_STATUS_UPDATING true).wr Fld.PNL_STATUS_CUR_WIN v

theorem State.setUpdate_idle (h : s.panel.cur = none) (v src : Nat) : s.setUpdate (some (v, src)) = s.updateBegun v src := by
  unfold State.setUpdate
  rw [h]
  rfl

/-- An update that starts takes the place of its request. -/
def State.updateTaken (s : State) (v : Nat) : State :=
  (({ s with panelCaps := (s.winRead v).2 }).dropRequest v).updateBegun v (s.winSource v)

theorem State.updateStart_starts (hr : s.core.running = true) (hon : s.panelOn = true) (hc : s.panel.cur = none)
    (hst : s.rd Fld.PNL_STATUS_STATE ≠ pnPf) (hf : (List.range 8).find? (fun w => s.flag (Fld.PNL_WIN_STAT_PENDING w)) = some v) :
    s.updateStart = s.updateTaken v := by
  have hgo : ¬(!s.core.running || !s.panelOn || s.panel.cur.isSome || decide (s.rd Fld.PNL_STATUS_STATE = pnPf)) = true := by
    simp [hr, hon, hc, hst]
  unfold State.updateStart
  rw [if_neg hgo, hf]
  exact State.setUpdate_idle (s := ({ s with panelCaps := (s.winRead v).2 }).dropRequest v) hc ..

theorem State.updateStart_none (hf : (List.range 8).find? (fun w => s.flag (Fld.PNL_WIN_STAT_PENDING w)) = none) :
    s.updateStart = s := by
  unfold State.updateStart
  rw [hf]
  exact ite_self s

theorem updateFields_own (v : Nat) (hv : v < 8) : (Fld.PNL_WIN_STAT_PENDING v).width = 1 ∧ (Fld.PNL_WIN_STAT_UPDATING v).width = 1 ∧
    (Fld.PNL_WIN_STAT_PENDING v).words = 1 ∧ (Fld.PNL_WIN_STAT_UPDATING v).words = 1 ∧
    Fld.PNL_STATUS_PENDING.apart (Fld.PNL_WIN_STAT_PENDING v) = true ∧
    [Fld.PNL_WIN_STAT_PENDING v].all (Fld.PNL_WIN_STAT_UPDATING v).apart = true ∧
    [Fld.PNL_WIN_STAT_PENDING v].all Fld.PNL_STATUS_UPDATING.apart = true ∧
    [Fld.PNL_WIN_STAT_PENDING v].all Fld.PNL_STATUS_CUR_WIN.apart = true ∧
    Fld.PNL_STATUS_UPDATING.apart (Fld.PNL_WIN_STAT_UPDATING v) = true ∧
    Fld.PNL_STATUS_CUR_WIN.apart (Fld.PNL_WIN_STAT_UPDATING v) = true := by
  decide +revert +kernel

theorem Keeps.updateBegun (h : Keeps part gs s0 s) {src : Nat} (hf : gs.all (Fld.PNL_WIN_STAT_UPDATING v).apart = true)
    (hu : gs.all Fld.PNL_STATUS_UPDATING.apart = true) (hw : gs.all Fld.PNL_STATUS_CUR_WIN.apart = true)
    (hp : ∀ u r, part { u with regs := r } = part u := by intros; rfl)
    (hc : ∀ u c, part { u with panel := { u.panel with cur := c } } = part u := by intros; rfl) :
    Keeps part gs s0 (s.updateBegun v src) :=
  .wr (.wrB (.wrB (.update h (hc ..)) hf hp) hu hp) hw hp

theorem State.updateTaken_shows (s : State) (hv : v < 8) : (s.updateTaken v).panel = { s.panel with cur := some (v, s.winSource v) } ∧
    (s.updateTaken v).flag (Fld.PNL_WIN_STAT_PENDING v) = false ∧ (s.updateTaken v).flag (Fld.PNL_WIN_STAT_UPDATING v) = true ∧
    (s.updateTaken v).rd Fld.PNL_STATUS_CUR_WIN = v ∧ s.keepsWords (s.updateTaken v) [Adr.PNL_STATUS, Adr.PNL_WIN_STAT v] := by
  obtain ⟨hpw, huw, hpone, huone, hstatus, hupd, hsupd, hscur, hu, hcur⟩ := updateFields_own v hv
  have hcw : Fld.PNL_STATUS_CUR_WIN.width = 3 := rfl
  have hstatusAdr : Adr.PNL_STATUS ∈ [Adr.PNL_STATUS, Adr.PNL_WIN_STAT v] := .head _
  have hstatAdr : Adr.PNL_WIN_STAT v ∈ [Adr.PNL_STATUS, Adr.PNL_WIN_STAT v] := .tail _ (.head _)
  have hdrop (x : State) : (x.dropRequest v).flag (Fld.PNL_WIN_STAT_PENDING v) = false ∧
      x.keepsWords (x.dropRequest v) [Adr.PNL_STATUS, Adr.PNL_WIN_STAT v] :=
    ⟨(State.flag_wr_apart hstatus).trans (State.flag_wrB_same _ _ _ hpw), .wr (.wrB (fun _ _ => rfl) hpone hstatAdr) rfl hstatusAdr⟩
  have hbegun (x : State) (src : Nat) : (x.updateBegun v src).flag (Fld.PNL_WIN_STAT_UPDATING v) = true ∧
      (x.updateBegun v src).rd Fld.PNL_STATUS_CUR_WIN = v ∧ x.keepsWords (x.updateBegun v src) [Adr.PNL_STATUS, Adr.PNL_WIN_STAT v] := by
    refine ⟨(State.flag_wr_apart hcur).trans ((State.flag_wrB_apart hu).trans (State.flag_wrB_same _ _ _ huw)), ?_,
      .wr (.wrB (.wrB (.of_regs rfl) huone hstatAdr) rfl hstatusAdr) rfl hstatusAdr⟩
    exact (State.rd_wr_same ..).trans (by rw [hcw]; omega)
  obtain ⟨hgone, hdwords⟩ := hdrop { s with panelCaps := (s.winRead v).2 }
  have hpanel : (({ s with panelCaps := (s.winRead v).2 } : State).dropRequest v).panel = s.panel := rfl
  have hwords : s.keepsWords (({ s with panelCaps := (s.winRead v).2 } : State).dropRequest v) [Adr.PNL_STATUS, Adr.PNL_WIN_STAT v] := hdwords
  unfold State.updateTaken
  generalize ({ s with panelCaps := (s.winRead v).2 } : State).dropRequest v = x at *
  obtain ⟨hupdating, hshown, hbwords⟩ := hbegun x (s.winSource v)
  have hk : Keeps State.core [Fld.PNL_WIN_STAT_PENDING v] x (x.updateBegun v (s.winSource v)) := .updateBegun (.refl x) hupd hsupd hscur
  refine ⟨?_, (hk.flag (by simp)).trans hgone, hupdating, hshown, fun a ha => (hbwords a ha).trans (hwords a ha)⟩
  rw [← hpanel]
  rfl

/-- The fields that the start of an update leaves. -/
abbrev updateSpared (w : Nat) : List Field := [Fld.PNL_WIN_STAT_UPDATES w, Fld.PNL_WIN_STAT_ERR w]

theorem updateSpared_apart (w : Nat) (hw : w < 8) (v : Nat) (hv : v < 8) :
    (updateSpared w).all (Fld.PNL_WIN_STAT_PENDING v).apart = true ∧ (updateSpared w).all Fld.PNL_STATUS_PENDING.apart = true ∧
    (updateSpared w).all (Fld.PNL_WIN_STAT_UPDATING v).apart = true ∧ (updateSpared w).all Fld.PNL_STATUS_UPDATING.apart = true ∧
    (updateSpared w).all Fld.PNL_STATUS_CUR_WIN.apart = true := by
  decide +revert +kernel

theorem State.updateTaken_keeps (s : State) (hw : w < 8) (hv : v < 8) :
    Keeps (fun s => (s.led, s.panel.hidden, s.panel.shown, s.panel.rendered)) (updateSpared w) s (s.updateTaken v) := by
  obtain ⟨hpend, hstatus, hupd, hsupd, hcur⟩ := updateSpared_apart w hw v hv
  have hstart : Keeps (fun s => (s.led, s.panel.hidden, s.panel.shown, s.panel.rendered)) (updateSpared w) s
      { s with panelCaps := (s.winRead v).2 } := .update (.refl s)
  exact .updateBegun (.wr (.wrB hstart hpend) hstatus) hupd hsupd hcur

/-- With no update in progress the next begins, or nothing happens. -/
theorem State.updateStart_keeps (hc : s.panel.cur = none) (hw : w < 8) :
    Keeps (fun s => (s.led, s.panel.hidden, s.panel.shown, s.panel.rendered)) (updateSpared w) s s.updateStart := by
  unfold State.updateStart
  split
  · exact .refl s
  split
  · exact .refl s
  next v hf =>
    have hv : v < 8 := List.mem_range.1 (List.mem_of_find?_eq_some hf)
    have hidle := State.setUpdate_idle (s := ({ s with panelCaps := (s.winRead v).2 }).dropRequest v) hc v (s.winSource v)
    rw [hidle]
    exact s.updateTaken_keeps hw hv

/-- The update in progress has ended. -/
def State.updateIdle (s : State) (w : Nat) : State :=
  ({ s.wrB (Fld.PNL_WIN_STAT_UPDATING w) false with panel := { s.panel with cur := none } } : State).wrB Fld.PNL_STATUS_UPDATING false

/-- A window's text is in the hidden buffer. -/
def State.windowDrawn (s : State) (buf : List Byte) : State := { s with panel := { s.panel with hidden := buf, rendered := true } }

/-- The registers of a completed update. -/
def State.updateShown (s : State) (w old err : Nat) : State :=
  let t := (s.wrap (Fld.PNL_WIN_STAT_UPDATES w)).wr (Fld.PNL_WIN_STAT_ERR w) err
  if old = 0 && err ≠ 0 then t.raise evWinErr w (beBytes 1 err) else t

theorem State.updateDone_eq {src : Nat} (h : s.panel.cur = some (w, src)) : s.updateDone =
    ((s.updateIdle w).windowDrawn (s.rendered w (s.winText w src).1 s.panel.hidden)).updateShown w
      (s.rd (Fld.PNL_WIN_STAT_ERR w)) (s.winText w src).2 := by
  have hidle : s.setUpdate none = s.updateIdle w := by
    unfold State.setUpdate
    rw [h]
    rfl
  unfold State.updateDone
  rw [h]
  dsimp only
  rw [hidle]
  rfl

/-- The fields by which the next update is chosen. -/
abbrev chosenFields (v : Nat) : List Field := [Fld.PNL_WIN_STAT_PENDING v, Fld.PWR_ON_ON, Fld.PNL_STATUS_STATE]

theorem chosenFields_apart (w : Nat) (hw : w < 8) (v : Nat) (hv : v < 8) :
    (chosenFields v).all (Fld.PNL_WIN_STAT_UPDATING w).apart = true ∧ (chosenFields v).all Fld.PNL_STATUS_UPDATING.apart = true ∧
    (chosenFields v).all (Fld.PNL_WIN_STAT_UPDATES w).apart = true ∧ (chosenFields v).all (Fld.PNL_WIN_STAT_ERR w).apart = true ∧
    (chosenFields v).all Field.offRecorderWords = true ∧ [Fld.PNL_WIN_STAT_UPDATES w].all (Fld.PNL_WIN_STAT_UPDATING w).apart = true ∧
    [Fld.PNL_WIN_STAT_UPDATES w].all Fld.PNL_STATUS_UPDATING.apart = true := by
  decide +revert +kernel

set_option Elab.async false in
theorem errFields (w : Nat) (hw : w < 8) : (Fld.PNL_WIN_STAT_ERR w).apart (Fld.PNL_WIN_STAT_UPDATES w) = true ∧
    (Fld.PNL_WIN_STAT_UPDATES w).width = 16 ∧ (Fld.PNL_WIN_STAT_ERR w).width = 2 ∧
    [Fld.PNL_WIN_STAT_UPDATES w, Fld.PNL_WIN_STAT_ERR w].all Field.offRecorderWords = true := by
  decide +revert +kernel

theorem State.winText_err (s : State) (w src : Nat) : (s.winText w src).2 < 4 := by
  unfold State.winText
  dsimp only
  split
  · exact Nat.one_lt_ofNat
  · split
    · exact Nat.zero_lt_succ _
    · exact Nat.zero_lt_succ _
    · split
      · exact Nat.zero_lt_succ _
      · exact (by decide : 2 < 4)

theorem State.updateShown_shows (s : State) (hw : w < 8) (old : Nat) {err : Nat} (he : err < 4) :
    (s.updateShown w old err).rd (Fld.PNL_WIN_STAT_UPDATES w) = (s.rd (Fld.PNL_WIN_STAT_UPDATES w) + 1) % 2 ^ 16 ∧
      (s.updateShown w old err).rd (Fld.PNL_WIN_STAT_ERR w) = err := by
  obtain ⟨hue, huw, hew, hoff⟩ := errFields w hw
  unfold State.updateShown
  extract_lets t
  have ht : t.rd (Fld.PNL_WIN_STAT_UPDATES w) = (s.rd (Fld.PNL_WIN_STAT_UPDATES w) + 1) % 2 ^ 16 ∧ t.rd (Fld.PNL_WIN_STAT_ERR w) = err := by
    refine ⟨(State.rd_wr_apart _ _ hue).trans ((State.rd_wrap_same ..).trans (by rw [huw])), ?_⟩
    exact (State.rd_wr_same ..).trans (by rw [hew]; omega)
  have hk : Keeps State.core [Fld.PNL_WIN_STAT_UPDATES w, Fld.PNL_WIN_STAT_ERR w] t
      (if old = 0 && err ≠ 0 then t.raise evWinErr w (beBytes 1 err) else t) :=
    .ite (.raiseLiving (.refl t) (by decide) hoff) (.refl t)
  exact ⟨(hk.rd _ (by simp)).trans ht.1, (hk.rd _ (by simp)).trans ht.2⟩

/-- What a completed update leaves. -/
theorem State.updateDone_spec {src : Nat} (hw : w < 8) (h : s.panel.cur = some (w, src)) :
    s.updateDone.panel = { s.panel with cur := none, hidden := s.rendered w (s.winText w src).1 s.panel.hidden, rendered := true } ∧
      s.updateDone.rd (Fld.PNL_WIN_STAT_UPDATES w) = (s.rd (Fld.PNL_WIN_STAT_UPDATES w) + 1) % 2 ^ 16 ∧
      s.updateDone.rd (Fld.PNL_WIN_STAT_ERR w) = (s.winText w src).2 ∧
      ∀ v < 8, Keeps (fun s => (s.led, s.core, s.pwr)) (chosenFields v) s s.updateDone := by
  obtain ⟨-, -, -, -, -, huu, hus⟩ := chosenFields_apart w hw w hw
  have herr := s.winText_err w src
  have hdrawn : ((s.updateIdle w).windowDrawn (s.rendered w (s.winText w src).1 s.panel.hidden)).panel =
    { s.panel with cur := none, hidden := s.rendered w (s.winText w src).1 s.panel.hidden, rendered := true } := rfl
  have hidle (gs : List Field) (hu : gs.all (Fld.PNL_WIN_STAT_UPDATING w).apart = true) (hs : gs.all Fld.PNL_STATUS_UPDATING.apart = true)
      (buf : List Byte) : Keeps (fun s => (s.led, s.core, s.pwr)) gs s ((s.updateIdle w).windowDrawn buf) := by
    have hcleared : Keeps (fun s => (s.led, s.core, s.pwr)) gs s (s.wrB (Fld.PNL_WIN_STAT_UPDATING w) false) := .wrB (.refl s) hu
    have hcur : Keeps (fun s => (s.led, s.core, s.pwr)) gs s
        { s.wrB (Fld.PNL_WIN_STAT_UPDATING w) false with panel := { s.panel with cur := none } } := .update hcleared
    have hshown : Keeps (fun s => (s.led, s.core, s.pwr)) gs s (s.updateIdle w) := .wrB hcur hs
    exact .update hshown
  have hcount := (hidle [Fld.PNL_WIN_STAT_UPDATES w] huu hus (s.rendered w (s.winText w src).1 s.panel.hidden)).rd (Fld.PNL_WIN_STAT_UPDATES w) (by simp)
  have hkeep (v : Nat) (hv : v < 8) : Keeps (fun s => (s.led, s.core, s.pwr)) (chosenFields v) s
      ((s.updateIdle w).windowDrawn (s.rendered w (s.winText w src).1 s.panel.hidden)) := by
    obtain ⟨hupd, hsupd, -⟩ := chosenFields_apart w hw v hv
    exact hidle _ hupd hsupd _
  rw [State.updateDone_eq h]
  generalize (s.updateIdle w).windowDrawn (s.rendered w (s.winText w src).1 s.panel.hidden) = x at *
  obtain ⟨hupdates, hshown⟩ := x.updateShown_shows hw (s.rd (Fld.PNL_WIN_STAT_ERR w)) herr
  refine ⟨?_, hupdates.trans (by rw [hcount]), hshown, fun v hv => (hkeep v hv).trans ?_⟩
  · have hpanel : (x.updateShown w (s.rd (Fld.PNL_WIN_STAT_ERR w)) (s.winText w src).2).panel = x.panel := by
      unfold State.updateShown
      dsimp only
      split
      · rw [State.raise_panel]
        rfl
      · rfl
    rw [hpanel, hdrawn]
  · obtain ⟨-, -, hup, her, hoff, -⟩ := chosenFields_apart w hw v hv
    have hwritten : Keeps (fun s => (s.led, s.core, s.pwr)) (chosenFields v) x
        ((x.wrap (Fld.PNL_WIN_STAT_UPDATES w)).wr (Fld.PNL_WIN_STAT_ERR w) (s.winText w src).2) := .wr (.wrap (.refl x) hup) her
    exact .ite (.raiseLiving hwritten (by decide) hoff) hwritten

/-- The choice of the next update depends on the requests that show. -/
theorem find_pending_congr (h : ∀ v < 8, t.flag (Fld.PNL_WIN_STAT_PENDING v) = s.flag (Fld.PNL_WIN_STAT_PENDING v)) :
    (List.range 8).find? (fun v => t.flag (Fld.PNL_WIN_STAT_PENDING v)) =
      (List.range 8).find? (fun v => s.flag (Fld.PNL_WIN_STAT_PENDING v)) := by
  rw [← List.head?_filter, ← List.head?_filter, List.filter_congr fun v hv => h v (List.mem_range.1 hv)]

/-! ### Frames and VPNL (R415, R423) -/

theorem State.frameStart_scans (hr : s.core.running = true) (hst : s.rd Fld.PNL_STATUS_STATE = pnScan)
    (hv : s.flag Fld.PNL_STATUS_VPNL_LOW = false) (ht : timingOk (s.word Adr.PNL_TIMING) = true) :
    s.frameStart.rd Fld.PNL_STATUS_STATE = pnScan ∧ s.frameStart.panel.rendered = false ∧
      s.frameStart.panel.shown = (if s.panel.rendered then s.panel.hidden else s.panel.shown) ∧
      s.frameStart.panel.timing = s.word Adr.PNL_TIMING ∧ s.keepsWords s.frameStart [Adr.PNL_STATUS] := by
  have hgo : ¬(!s.core.running || decide (s.rd Fld.PNL_STATUS_STATE = pnPf) || decide (s.rd Fld.PNL_STATUS_STATE = pnOff) ||
      s.flag Fld.PNL_STATUS_VPNL_LOW) = true := by simp [hr, hst, hv, pnScan, pnPf, pnOff]
  have htaken : s.takeTiming = ({ s with panel := { s.panel with drive := s.word Adr.PNL_DRIVE, timing := s.word Adr.PNL_TIMING } } :
      State).wr Fld.PNL_STATUS_STATE pnScan := by
    unfold State.takeTiming
    rw [if_pos ht]
  have hscan : s.takeTiming.rd Fld.PNL_STATUS_STATE = pnScan := by
    rw [htaken]
    exact State.rd_wr_same ..
  have hwords : s.keepsWords s.takeTiming [Adr.PNL_STATUS] := by
    rw [htaken]
    exact .wr (.of_regs rfl)
  have hpanel : s.takeTiming.panel = { s.panel with drive := s.word Adr.PNL_DRIVE, timing := s.word Adr.PNL_TIMING } := by
    rw [htaken]
    rfl
  have hex : s.frameStart = if s.takeTiming.rd Fld.PNL_STATUS_STATE = pnScan && s.takeTiming.panel.rendered then
      { s.takeTiming with panel := { s.takeTiming.panel with shown := s.takeTiming.panel.hidden, rendered := false } }
      else s.takeTiming := if_neg hgo
  rw [hex]
  generalize s.takeTiming = x at *
  have hrendered : x.panel.rendered = s.panel.rendered := by rw [hpanel]
  have hrest : x.panel.hidden = s.panel.hidden ∧ x.panel.shown = s.panel.shown ∧ x.panel.timing = s.word Adr.PNL_TIMING := by
    rw [hpanel]
    exact ⟨rfl, rfl, rfl⟩
  obtain ⟨hhidden, hshown, htiming⟩ := hrest
  cases hd : s.panel.rendered with
  | true =>
    rw [if_pos (by simp [hscan, hrendered, hd])]
    exact ⟨hscan, rfl, hhidden, htiming, hwords.sameRegs rfl⟩
  | false =>
    rw [if_neg (by simp [hrendered, hd])]
    exact ⟨hscan, hrendered.trans hd, hshown, htiming, hwords⟩

theorem State.vpnlLow_blanks (hr : s.core.running = true) (hd : s.domOn 16 = true) (hv : s.flag Fld.PNL_STATUS_VPNL_LOW = false) :
    s.vpnlLow.flag Fld.PNL_STATUS_VPNL_LOW = true ∧
      s.vpnlLow.rd Fld.PNL_STATUS_STATE = (if s.rd Fld.PNL_STATUS_STATE = pnPf then pnPf else pnVpnl) ∧
      s.vpnlLow.panel = s.panel ∧ s.vpnlLow.led = s.led := by
  have hex : s.vpnlLow = (if s.rd Fld.PNL_STATUS_STATE = pnPf then s.wrB Fld.PNL_STATUS_VPNL_LOW true
      else (s.wrB Fld.PNL_STATUS_VPNL_LOW true).wr Fld.PNL_STATUS_STATE pnVpnl).raise evVpnlLow 0xFF [] := if_neg (by simp [hr, hd, hv])
  have hlow : (s.wrB Fld.PNL_STATUS_VPNL_LOW true).flag Fld.PNL_STATUS_VPNL_LOW = true := State.flag_wrB_same _ _ _ rfl
  have hshown : (if s.rd Fld.PNL_STATUS_STATE = pnPf then s.wrB Fld.PNL_STATUS_VPNL_LOW true
      else (s.wrB Fld.PNL_STATUS_VPNL_LOW true).wr Fld.PNL_STATUS_STATE pnVpnl).flag Fld.PNL_STATUS_VPNL_LOW = true ∧
      (if s.rd Fld.PNL_STATUS_STATE = pnPf then s.wrB Fld.PNL_STATUS_VPNL_LOW true
      else (s.wrB Fld.PNL_STATUS_VPNL_LOW true).wr Fld.PNL_STATUS_STATE pnVpnl).rd Fld.PNL_STATUS_STATE =
        (if s.rd Fld.PNL_STATUS_STATE = pnPf then pnPf else pnVpnl) := by
    split
    next h => exact ⟨hlow, (State.rd_wrB_apart _ _ (by decide)).trans h⟩
    next => exact ⟨(State.flag_wr_apart (by decide)).trans hlow, State.rd_wr_same ..⟩
  have hbeside : Keeps (fun s => (s.panel, s.led)) [] s (if s.rd Fld.PNL_STATUS_STATE = pnPf then s.wrB Fld.PNL_STATUS_VPNL_LOW true
      else (s.wrB Fld.PNL_STATUS_VPNL_LOW true).wr Fld.PNL_STATUS_STATE pnVpnl) :=
    .ite (.wrB (.refl s) rfl) (.wr (.wrB (.refl s) rfl) rfl)
  rw [hex]
  generalize (if s.rd Fld.PNL_STATUS_STATE = pnPf then s.wrB Fld.PNL_STATUS_VPNL_LOW true
      else (s.wrB Fld.PNL_STATUS_VPNL_LOW true).wr Fld.PNL_STATUS_STATE pnVpnl) = x at *
  have hraise : Keeps (fun s => (s.panel, s.led)) [Fld.PNL_STATUS_VPNL_LOW, Fld.PNL_STATUS_STATE] x (x.raise evVpnlLow 0xFF []) :=
    .raiseLiving (.refl x)
  exact ⟨hraise.flag.trans hshown.1, (hraise.rd _ (by simp)).trans hshown.2,
    (congrArg (·.1) hraise.part).trans (congrArg (·.1) hbeside.part), (congrArg (·.2) hraise.part).trans (congrArg (·.2) hbeside.part)⟩

theorem State.vpnlOk_resumes (hr : s.core.running = true) (hv : s.flag Fld.PNL_STATUS_VPNL_LOW = true) :
    s.vpnlOk.flag Fld.PNL_STATUS_VPNL_LOW = false ∧ s.vpnlOk.rd Fld.PNL_STATUS_STATE = s.rd Fld.PNL_STATUS_STATE ∧
      s.vpnlOk.panel = s.panel ∧ s.vpnlOk.led = s.led := by
  have hex : s.vpnlOk = (s.wrB Fld.PNL_STATUS_VPNL_LOW false).raise evVpnlOk 0xFF [] := if_neg (by simp [hr, hv])
  have hraise : Keeps (fun s => (s.panel, s.led)) [Fld.PNL_STATUS_VPNL_LOW, Fld.PNL_STATUS_STATE] (s.wrB Fld.PNL_STATUS_VPNL_LOW false)
      ((s.wrB Fld.PNL_STATUS_VPNL_LOW false).raise evVpnlOk 0xFF []) := .raiseLiving (.refl _)
  rw [hex]
  exact ⟨hraise.flag.trans (State.flag_wrB_same _ _ _ rfl), (hraise.rd _ (by simp)).trans (State.rd_wrB_apart _ _ (by decide)),
    congrArg (·.1) hraise.part, congrArg (·.2) hraise.part⟩
end Sys2Proof.Machine
end

section
/-!
The crack-detect loop (R425): what a detection leaves of the conditions and of the panel. Then the panel as a whole.
-/

namespace Sys2Proof.Machine
variable {s0 s t u : State} {w : Nat}

/-! ### What a detection leaves (R289, R291) -/

/-- The fields that show the last measurement. -/
abbrev crackFields : List Field := [Fld.PNL_CRACK_STAT_LAST, Fld.PNL_CRACK_STAT_OHMS]

/-- The conditions, the panel, and the last measurement's fields are as before. -/
abbrev CrackKeeps (s t : State) : Prop := Keeps (fun s => (s.tmp.cond, s.panel)) crackFields s t

theorem CrackKeeps.liveEnd (h : CrackKeeps s0 s) {l result addr tested} : CrackKeeps s0 (s.liveEnd l result addr tested) := by
  have hended : CrackKeeps s0 { s with ldr := { s.ldr with cur := none } } := h.update
  unfold State.liveEnd
  exact .loadRefuse (.wr hended)

theorem CrackKeeps.loadLocked (h : CrackKeeps s0 s) : CrackKeeps s0 s.loadLocked := by
  unfold State.loadLocked
  split
  · exact h
  · exact .ite (CrackKeeps.liveEnd h) h

theorem CrackKeeps.queueLock (h : CrackKeeps s0 s) : CrackKeeps s0 s.queueLock := by
  unfold State.queueLock
  exact .ite (.update h) h

theorem CrackKeeps.setFlint (h : CrackKeeps s0 s) {v} : CrackKeeps s0 (s.setFlint v) := by
  unfold State.setFlint
  extract_lets _ _ shown
  have hs : CrackKeeps s0 shown := .wrB (.wrB (.wr h))
  exact .ite hs (.irq hs)

set_option Elab.async false in
theorem CrackKeeps.engaged (h : CrackKeeps s0 s) {src} : CrackKeeps s0 (s.engaged src) := by
  have hlocked : CrackKeeps s0 { s with bk := { s.bk with lock := true }, tmp := { s.tmp with engageSrc := src } } := h.update
  unfold State.engaged
  exact .update (CrackKeeps.setFlint hlocked)

theorem CrackKeeps.engage (h : CrackKeeps s0 s) {src} : CrackKeeps s0 (s.engage src) := by
  cases hl : s.locked with
  | true => rwa [State.engage, if_pos hl]
  | false =>
    have he : s.engage src = (((s.engaged src).raise 0x82 0xFF
        (beBytes 4 ((s.engaged src).rd Fld.TMP_STICKY_ALL))).queueLock).loadLocked := if_neg (by simp [hl])
    rw [he]
    exact CrackKeeps.loadLocked (CrackKeeps.queueLock (.raiseLiving (CrackKeeps.engaged h)))

theorem CrackKeeps.refreshTamperAlert (h : CrackKeeps s0 s) : CrackKeeps s0 s.refreshTamperAlert := by
  unfold State.refreshTamperAlert
  exact .wrB (.alert h)

theorem CrackKeeps.acknowledge (h : CrackKeeps s0 s) {mask lock} : CrackKeeps s0 (s.acknowledge mask lock) := by
  unfold State.acknowledge
  exact .ite (.update h) (.wr h)

theorem CrackKeeps.respond (h : CrackKeeps s0 s) {srcs i} : CrackKeeps s0 (s.respond srcs i) := by
  unfold State.respond
  extract_lets _ _ recorded alerted _ locked
  have hr : CrackKeeps s0 recorded := .ite (.foldl h fun _ _ _ hu => .raiseLiving hu) h
  have ha : CrackKeeps s0 alerted := CrackKeeps.refreshTamperAlert hr
  have hl : CrackKeeps s0 locked := .ite (CrackKeeps.engage ha) ha
  exact CrackKeeps.acknowledge hl

theorem CrackKeeps.detect (h : CrackKeeps s0 s) {srcs i} : CrackKeeps s0 (s.detect srcs i) := by
  unfold State.detect
  extract_lets _ flagged counted
  have hf : CrackKeeps s0 flagged := by
    unfold flagged State.setFlags
    exact .wr (.wr (.wr h))
  have hc : CrackKeeps s0 counted := .count hf
  exact .ite h (.ite (.ite (CrackKeeps.respond hc) hc) (.ite (.wrB hf) hf))

theorem CrackKeeps.cond (h : CrackKeeps s t) : t.tmp.cond = s.tmp.cond := congrArg (·.1) h.part

/-! ### The condition of the loop (R425) -/

/-- The panel and the last measurement's fields are as before. -/
abbrev LoopKeeps (s t : State) : Prop := Keeps State.panel crackFields s t

theorem CrackKeeps.loop (h : CrackKeeps s t) : LoopKeeps s t := ⟨congrArg (·.2) h.part, h.rd⟩

theorem LoopKeeps.condEnd (s : State) (c : Nat) : LoopKeeps s (s.condEnd c) := by
  unfold State.condEnd State.refreshActive
  extract_lets _ _ pins
  have hp : LoopKeeps s pins := (Keeps.refl s).update
  have hc : LoopKeeps s { pins with tmp := { pins.tmp with cond := pins.tmp.cond.filter fun x => x.val ≠ c } } := hp.update
  exact .wr hc

theorem State.condEnd_cond (s : State) (c : Nat) : ∀ x ∈ (s.condEnd c).tmp.cond, x.val ≠ c := by
  intro x hx
  have hm : x ∈ s.tmp.cond.filter fun x => x.val ≠ c := hx
  simpa using (List.mem_filter.1 hm).2

theorem LoopKeeps.pinsTaken (s : State) (enc : BitVec 4) : LoopKeeps s (s.pinsTaken enc) := by
  have henc : LoopKeeps s { s with tmp := { s.tmp with enc } } := (Keeps.refl s).update
  unfold State.pinsTaken State.encSettle State.refreshActive
  exact .wr (.update henc)

theorem LoopKeeps.condBegin (s : State) (srcs : List Nat) : LoopKeeps s (s.condBegin srcs) := by
  unfold State.condBegin State.refreshActive
  exact .wr (.update (.refl s))

set_option Elab.async false in
theorem LoopKeeps.tamperDetection {srcs : List (Fin 33)} (hs : 32 ∉ srcs) {enc machine code} :
    LoopKeeps s (s.tamperDetection srcs enc machine code) := by
  rw [State.tamperDetection_eq hs]
  exact ((LoopKeeps.pinsTaken s enc).trans (LoopKeeps.condBegin _ _)).trans (CrackKeeps.loop (CrackKeeps.detect (.refl _)))

/-- On the running, ready device with the loop measured, a detection of PANEL_CRACK leaves its condition in force. -/
theorem State.tamperDetection_crack {enc} (hr : s.core.running = true) (hd : s.core.ready = true)
    (he : s.flag Fld.PNL_CRACK_CFG_ENABLE = true) : ∃ x ∈ (s.tamperDetection [31] enc 0 0).tmp.cond, x.val = 31 := by
  have hsettled : Keeps State.core [Fld.PNL_CRACK_CFG_ENABLE] s (s.pinsTaken enc) := by
    have henc : Keeps State.core [Fld.PNL_CRACK_CFG_ENABLE] s { s with tmp := { s.tmp with enc } } := (Keeps.refl s).update
    unfold State.pinsTaken State.encSettle State.refreshActive
    exact .wr (.update henc)
  have hmonitored : (s.pinsTaken enc).monitored 31 0 = true := by
    unfold State.monitored
    rw [hsettled.part, hsettled.flag]
    simp [hr, hd, he]
  have hbegins : (s.pinsTaken enc).begins 0 31 = (s.pinsTaken enc).tmp.cond.all fun x => x.val ≠ 31 := by
    simp [State.begins, hmonitored, State.encAlarm, State.fused]
  have hsource : sourcesOf [31] = [31] := by decide
  rw [State.tamperDetection_eq (by decide)]
  have hk : CrackKeeps ((s.pinsTaken enc).condBegin ((sourcesOf [31]).filter ((s.pinsTaken enc).begins 0))) _ :=
    CrackKeeps.detect (srcs := (sourcesOf [31]).filter ((s.pinsTaken enc).begins 0)) (i := { machine := 0, code := 0 }) (.refl _)
  have hcond : ((s.pinsTaken enc).condBegin ((sourcesOf [31]).filter ((s.pinsTaken enc).begins 0))).tmp.cond =
      (s.pinsTaken enc).tmp.cond ++ ((((sourcesOf [31]).filter ((s.pinsTaken enc).begins 0)).filter fun c => c < 32).map
        fun c => Fin.ofNat 33 c) := rfl
  rw [CrackKeeps.cond hk, hcond, hsource]
  cases hb : (s.pinsTaken enc).begins 0 31 with
  | true => exact ⟨31, by simp [hb], rfl⟩
  | false =>
    obtain ⟨x, hx, hv⟩ : ∃ x ∈ (s.pinsTaken enc).tmp.cond, x.val = 31 := by simpa using hbegins.symm.trans hb
    exact ⟨x, List.mem_append_left _ hx, hv⟩

/-! ### A measurement (R425) -/

/-- When a measurement is made. -/
def State.crackTime (s : State) : Nat := max s.now (s.panel.crackAt.elim 0 (· + 10))

/-- What a measurement shows. -/
def State.crackShown (s : State) (ohms : Nat) : State :=
  (({ s with now := s.crackTime, panel := { s.panel with crack := s.crackReading ohms, crackAt := some s.crackTime } } :
    State).wr Fld.PNL_CRACK_STAT_LAST (s.crackReading ohms).val).wr Fld.PNL_CRACK_STAT_OHMS (min ohms 0xFFFF)

/-- Whether the condition holds after a measurement. -/
def State.crackHolds (s : State) (ohms : Nat) : Bool :=
  s.crackWrong || (s.crackReading ohms ≠ 0 && s.crackReading ohms = s.panel.crack)

theorem State.crackMeasure_eq (hr : s.core.running = true) (hd : s.core.ready = true)
    (he : s.flag Fld.PNL_CRACK_CFG_ENABLE = true) (ht : s.underTest 31 = false) (ohms : Nat) : s.crackMeasure ohms =
      if s.crackHolds ohms then (s.crackShown ohms).tamperDetection [31] s.tmp.enc 0 0 else (s.crackShown ohms).condEnd 31 := by
  have hgo : ¬(!s.core.running || !s.core.ready || !s.flag Fld.PNL_CRACK_CFG_ENABLE || s.underTest 31) = true := by
    simp [hr, hd, he, ht]
  exact if_neg hgo

theorem State.crackShown_spec (s : State) (ohms : Nat) :
    (s.crackShown ohms).rd Fld.PNL_CRACK_STAT_LAST = (s.crackReading ohms).val ∧
      (s.crackShown ohms).rd Fld.PNL_CRACK_STAT_OHMS = min ohms 0xFFFF ∧
      (s.crackShown ohms).panel = { s.panel with crack := s.crackReading ohms, crackAt := some s.crackTime } ∧
      Keeps State.core [Fld.PNL_CRACK_CFG_ENABLE] s (s.crackShown ohms) := by
  have hlast : Fld.PNL_CRACK_STAT_LAST.width = 2 := rfl
  have hohms : Fld.PNL_CRACK_STAT_OHMS.width = 16 := rfl
  have hreading : (s.crackReading ohms).val < 3 := (s.crackReading ohms).isLt
  refine ⟨(State.rd_wr_apart _ _ (by decide)).trans ((State.rd_wr_same ..).trans ?_), (State.rd_wr_same ..).trans ?_, rfl, ?_⟩
  · rw [hlast]
    omega
  · rw [hohms]
    omega
  · unfold State.crackShown
    exact .wr (.wr (.update (.refl s)))

/-- A measurement leaves the flash. -/
theorem State.crackMeasure_flash (s : State) (ohms : Nat) : (s.crackMeasure ohms).flash = s.flash := by
  have hbase : Frame { s with ldr := { s.ldr with flash := none } } s := (Frame.refl _).update
  exact (Frame.crackMeasure hbase).flash rfl

/-- An update completes, and the next that waits begins (R422). -/
theorem State.updateDone_next {src : Nat} (hr : s.core.running = true) (hw : w < 8) (hc : s.panel.cur = some (w, src)) :
    s.updateDone.updateStart.panel.rendered = true ∧
      s.updateDone.updateStart.panel.hidden = s.rendered w (s.winText w src).1 s.panel.hidden ∧
      s.updateDone.updateStart.panel.shown = s.panel.shown ∧
      s.updateDone.updateStart.rd (Fld.PNL_WIN_STAT_UPDATES w) = (s.rd (Fld.PNL_WIN_STAT_UPDATES w) + 1) % 2 ^ 16 ∧
      s.updateDone.updateStart.rd (Fld.PNL_WIN_STAT_ERR w) = (s.winText w src).2 ∧ s.updateDone.updateStart.led = s.led ∧
      ((∀ v, v < 8 → s.flag (Fld.PNL_WIN_STAT_PENDING v) = false) → s.updateDone.updateStart.panel.cur = none) ∧
      (∀ v, s.panelOn = true → s.rd Fld.PNL_STATUS_STATE ≠ pnPf →
        (List.range 8).find? (fun v => s.flag (Fld.PNL_WIN_STAT_PENDING v)) = some v →
          ∃ x, s.updateDone.updateStart.panel.cur = some (v, x)) := by
  obtain ⟨hpanel, hupdates, herr, hkept⟩ := State.updateDone_spec hw hc
  obtain ⟨hled, hcore, hpwr⟩ : _ ∧ _ ∧ _ := by simpa only [Prod.mk.injEq] using (hkept 0 (by decide)).part
  have hpending (v : Nat) (hv : v < 8) : s.updateDone.flag (Fld.PNL_WIN_STAT_PENDING v) = s.flag (Fld.PNL_WIN_STAT_PENDING v) :=
    (hkept v hv).flag (by simp)
  have hon : s.updateDone.rd Fld.PWR_ON_ON = s.rd Fld.PWR_ON_ON := (hkept 0 (by decide)).rd _ (by simp)
  have hstate : s.updateDone.rd Fld.PNL_STATUS_STATE = s.rd Fld.PNL_STATUS_STATE := (hkept 0 (by decide)).rd _ (by simp)
  have hfind := find_pending_congr hpending
  generalize s.updateDone = x at *
  have hidle : x.panel.cur = none := by rw [hpanel]
  have hnext := State.updateStart_keeps hidle hw
  obtain ⟨hled', hhidden, hshown, hrendered⟩ : _ ∧ _ ∧ _ ∧ _ := by simpa only [Prod.mk.injEq] using hnext.part
  refine ⟨by rw [hrendered, hpanel], by rw [hhidden, hpanel], by rw [hshown, hpanel], (hnext.rd _ (by simp)).trans hupdates,
    (hnext.rd _ (by simp)).trans herr, hled'.trans hled, fun hnone => ?_, fun v hpower hst hf => ?_⟩
  · have hf : (List.range 8).find? (fun v => s.flag (Fld.PNL_WIN_STAT_PENDING v)) = none :=
      List.find?_eq_none.2 fun v hv => by simp [hnone v (List.mem_range.1 hv)]
    rw [State.updateStart_none (hfind.trans hf), hidle]
  · have hv : v < 8 := List.mem_range.1 (List.mem_of_find?_eq_some hf)
    have hpanelOn : x.panelOn = true := by rwa [State.panelOn, hon, hpwr]
    rw [State.updateStart_starts (hcore ▸ hr) hpanelOn hidle (hstate ▸ hst) (hfind.trans hf), (x.updateTaken_shows hv).1]
    exact ⟨_, rfl⟩

/-- Settles O54: requests by `State.requests_show`, updates by `State.updateTaken_shows` and `State.updateDone_spec`, frames and VPNL
by `State.frameStart_scans`, `State.vpnlLow_blanks` and `State.vpnlOk_resumes`, the loop by `State.tamperDetection_crack`. That a
window whose ERR reads BAD_GEOM takes requests once its geometry has been mended is the choice of log 108. -/
theorem panelShows : Obligations.PanelShows := by
  unfold Obligations.PanelShows
  intro s hr
  refine ⟨fun p win hon hwarn => ?request, fun w hon hc hst hf => ?start, fun w src hw hc => ?done, fun hst hv ht => ?frame,
    fun hd hv => ?low, fun hv => ?ok, fun ohms hd he ht => ?crack⟩
  case request =>
    obtain ⟨hk, hshow⟩ := State.requests_show (List.range 8) (by simp) (fun w => (win.setWidth 32).getLsbD w) s
    obtain ⟨-, -, hled, hpanel⟩ : _ ∧ _ ∧ _ ∧ _ := by simpa only [Prod.mk.injEq] using hk.part
    refine ⟨_, congrArg Host.Outcome.next (State.host_of_running hr), hled, hpanel, fun w hw hb he hgeom => ?_⟩
    have htaken : s.requestTaken w = true := by
      obtain h | h := hgeom <;> simp [State.requestTaken, hon, hwarn, he, h]
    exact hshow w hw (.inl ⟨List.mem_range.2 hw, by simpa using ⟨by omega, hb⟩, htaken⟩)
  case start =>
    have hw : w < 8 := List.mem_range.1 (List.mem_of_find?_eq_some hf)
    obtain ⟨hpanel, hpend, hupd, hcur, hwords⟩ := s.updateTaken_shows hw
    exact ⟨s.updateTaken w, congrArg Host.Outcome.next (State.updateStart_starts hr hon hc hst hf), hpanel, hpend, hupd, hcur, hwords⟩
  case done => exact ⟨s.updateDone.updateStart, congrArg Host.Outcome.next (if_pos (by simp [hc])), State.updateDone_next hr hw hc⟩
  case frame => exact ⟨s.frameStart, rfl, State.frameStart_scans hr hst hv ht⟩
  case low => exact ⟨s.vpnlLow, rfl, State.vpnlLow_blanks hr hd hv⟩
  case ok => exact ⟨s.vpnlOk, rfl, State.vpnlOk_resumes hr hv⟩
  case crack =>
    obtain ⟨hlast, hohms, hpanel, hkept⟩ := s.crackShown_spec ohms
    have hloop : LoopKeeps (s.crackShown ohms) (s.crackMeasure ohms) := by
      rw [State.crackMeasure_eq hr hd he ht]
      exact .ite (LoopKeeps.tamperDetection (by decide)) (LoopKeeps.condEnd _ _)
    refine ⟨s.crackMeasure ohms, rfl, (hloop.rd _ (by simp)).trans hlast, (hloop.rd _ (by simp)).trans hohms, ?_, ?_,
      s.crackMeasure_flash ohms, fun hright hok => ?_, fun hholds => ?_⟩
    · rw [hloop.part, hpanel]
    · rw [hloop.part, hpanel]
      rfl
    · rw [State.crackMeasure_eq hr hd he ht, if_neg (by simp [State.crackHolds, hright, hok])]
      exact State.condEnd_cond _ _
    · rw [State.crackMeasure_eq hr hd he ht, if_pos (by simpa [State.crackHolds] using hholds)]
      exact State.tamperDetection_crack ((congrArg Core.running hkept.part).trans hr) ((congrArg Core.ready hkept.part).trans hd)
        (hkept.flag.trans he)
end Sys2Proof.Machine
end

section
/-!
The device's work beside its configuration: what lanes, bays, streams, ports and PTP do leaves the fields of `sideFields`, and a part
of the state that none of that work writes (`Lateral`).
-/

namespace Sys2Proof.Machine
variable {α : Type} {part : State → α} {gs : List Field} {s0 s t u : State}

/-! ### Fields (R5, R439) -/

/-- The fields beside the bays. -/
abbrev fixedSide : List Field := [Fld.AQ_STATUS_RUN, Fld.SYS_EPOCH_EPOCH, Fld.CAL_STATUS_PIPE, Fld.PWR_ON_ON, Fld.PWR_BUSY_DOMAINS,
  Fld.MT_XREF_RATE, Fld.CFG_STATUS_LOADER]

/-- Fields that the work of the device leaves: the run, the powered domains, the loader, and a setting of each bay. -/
def sideFields : List Field := fixedSide ++ (List.range 16).map Fld.BAY_UDIN_VALUE

/-- A field that is apart from those: outside the bays, or in a bay before or behind its BAY_UDIN. -/
def Field.offSide (f : Field) : Bool :=
  fixedSide.all f.apart && (decide (f.addr + 4 * f.words ≤ 0x300000) || decide (0x310000 ≤ f.addr) ||
    decide (f.addr % 0x1000 + 4 * f.words ≤ 0x414) || (decide (0x418 ≤ f.addr % 0x1000) &&
      decide (f.addr % 0x1000 + 4 * f.words ≤ 0x1000)))

theorem Field.offSide_apart {f : Field} (h : f.offSide = true) {g : Field} (hg : g ∈ sideFields) : f.apart g = true := by
  simp only [Field.offSide, Bool.and_eq_true, Bool.or_eq_true, decide_eq_true_eq] at h
  obtain ⟨hfixed, hplace⟩ := h
  obtain hg | hg := List.mem_append.1 hg
  · exact List.all_eq_true.1 hfixed g hg
  obtain ⟨b, hb, rfl⟩ := List.mem_map.1 hg
  have hb : b < 16 := List.mem_range.1 hb
  have haddr : (Fld.BAY_UDIN_VALUE b).addr = 0x300414 + 0x1000 * b := rfl
  have hwords : (Fld.BAY_UDIN_VALUE b).words = 1 := by simp [Field.words, Fld.BAY_UDIN_VALUE]
  obtain hbelow | habove : f.addr + 4 * f.words ≤ 0x300414 + 0x1000 * b ∨ 0x300418 + 0x1000 * b ≤ f.addr := by omega
  · exact Field.apart_of_below (by omega)
  · exact Field.apart_of_above (by omega)

/-- An indexed field is off them where that of each index is. -/
theorem offSide_of_lt {F : Nat → Field} {n k : Nat} (hk : k < n) (hF : ∀ i < n, (F i).offSide = true := by decide +kernel) :
    (F k).offSide = true := hF k hk

theorem offSide_of_lt2 {F : Nat → Nat → Field} {n m k l : Nat} (hk : k < n) (hl : l < m)
    (hF : ∀ i < n, ∀ j < m, (F i j).offSide = true := by decide +kernel) : (F k l).offSide = true := hF k hk l hl

/-! ### Parts of the state -/

theorem Keeps.mono {hs : List Field} (h : Keeps part gs s t) (hg : hs ⊆ gs := by decide +kernel) : Keeps part hs s t :=
  ⟨h.part, fun g hm => h.rd g (hg hm)⟩

/-- A part of the state that the device's work does not write, and some of the fields. -/
structure Lateral {α : Type} (part : State → α) (gs : List Field) : Prop where
  fields : gs ⊆ sideFields
  regs : ∀ (s : State) x, part { s with regs := x } = part s
  acq : ∀ (s : State) x, part { s with acq := x } = part s
  met : ∀ (s : State) x, part { s with met := x } = part s
  aux : ∀ (s : State) x, part { s with aux := x } = part s
  strm : ∀ (s : State) x, part { s with strm := x } = part s
  rcd : ∀ (s : State) x, part { s with rcd := x } = part s
  panel : ∀ (s : State) x, part { s with panel := x } = part s
  ptp : ∀ (s : State) x, part { s with ptp := x } = part s
  portA : ∀ (s : State) x, part { s with portA := x } = part s
  portB : ∀ (s : State) x, part { s with portB := x } = part s
  spi : ∀ (s : State) x, part { s with spi := x } = part s
  drega : ∀ (s : State) x, part { s with drega := x } = part s
  free : ∀ (s : State) x, part { s with free := x } = part s

/-- A part that the posting of a quantum leaves too. -/
def PostFree {α : Type} (part : State → α) : Prop := ∀ (s : State) x, part { s with led := { s.led with posted := x } } = part s

section
variable (L : Lateral part gs)
include L

theorem Lateral.wr (h : Keeps part gs s0 s) {f : Field} {v : Nat} (hf : f.offSide = true := by decide +kernel) :
    Keeps part gs s0 (s.wr f v) :=
  .wr h (List.all_eq_true.2 fun _ hg => Field.offSide_apart hf (L.fields hg)) L.regs

set_option Elab.async false in
theorem Lateral.wrB (h : Keeps part gs s0 s) {f : Field} {b : Bool} (hf : f.offSide = true := by decide +kernel) :
    Keeps part gs s0 (s.wrB f b) := L.wr h hf

theorem Lateral.wrS (h : Keeps part gs s0 s) {f : Field} {v : Int} (hf : f.offSide = true := by decide +kernel) :
    Keeps part gs s0 (s.wrS f v) := L.wr h hf

theorem Lateral.count (h : Keeps part gs s0 s) {f : Field} {n : Nat} (hf : f.offSide = true := by decide +kernel) :
    Keeps part gs s0 (s.count f n) := L.wr h hf

theorem Lateral.wrap (h : Keeps part gs s0 s) {f : Field} (hf : f.offSide = true := by decide +kernel) :
    Keeps part gs s0 (s.wrap f) := L.wr h hf

theorem Lateral.irq (h : Keeps part gs s0 s) {f : Field} (hf : f.offSide = true := by decide +kernel) :
    Keeps part gs s0 (s.irq f) := L.wrB h hf

theorem Lateral.setWord (h : Keeps part gs s0 s) {a : Nat} {w : Word}
    (ha : ∀ g ∈ sideFields, a < g.addr ∨ g.addr + 4 * g.words ≤ a) : Keeps part gs s0 (s.setWord a w) :=
  h.trans ⟨L.regs .., fun g hg => by
    have hword : wordsAt (s.setWord a w).word g.addr g.words = wordsAt s.word g.addr g.words :=
      wordsAt_congr fun b hb hb' => State.word_setWord_other _ _ (by have := ha g (L.fields hg); omega)
    rw [State.rd, hword, State.rd]⟩

theorem Lateral.drawn (h : Keeps part gs s0 s) : Keeps part gs s0 s.drawn := h.update (L.free ..)

end

/-! ### Events (R241, R257) -/

theorem beBytes_length (n v : Nat) : (beBytes n v).length = n := by
  induction n generalizing v with
  | zero => rfl
  | succ n ih => simp [beBytes, ih]

theorem padTo_length (n : Nat) (l : List Byte) : (padTo n l).length = n := by simp [padTo]

theorem bytesWords_length (l : List Byte) : (bytesWords l).length ≤ l.length := by
  induction l using bytesWords.induct with
  | case1 a b c d bs ih => simp only [bytesWords, List.length_cons]; omega
  | case2 => exact Nat.le_refl _
  | case3 | case4 | case5 => simp [bytesWords]

/-- The words of Bedrock's last-resort slots lie outside the fields. -/
theorem lastResort_offSide {n i : Nat} (hn : n < 4) (hi : i < 32) :
    ∀ g ∈ sideFields, Adr.BK_LR n i < g.addr ∨ g.addr + 4 * g.words ≤ Adr.BK_LR n i := by
  have hlow : ∀ g ∈ sideFields, g.addr + 4 * g.words ≤ 0xA00000 ∨ 0xF00000 ≤ g.addr := by decide +kernel
  intro g hg
  have := hlow g hg
  unfold Adr.BK_LR
  omega

section
variable (L : Lateral part gs)
include L

theorem Lateral.lastResort (h : Keeps part gs s0 s) {e : Event} : Keeps part gs s0 (s.lastResort e) := by
  unfold State.lastResort
  extract_lets occ body ws
  split
  · exact L.count h
  next n hfind =>
    have hn : n < 4 := List.mem_range.1 (List.mem_of_find?_eq_some hfind)
    extract_lets slot
    have hlen : ws.length ≤ 32 := by
      refine (bytesWords_length _).trans ?_
      simp only [body, wordBytes, List.length_append, beBytes_length, padTo_length]
      omega
    have hslot : Keeps part gs s0 slot := .foldl h fun u x hx hu => by
      obtain ⟨w, i⟩ := x
      have hi : i < ws.length := List.snd_lt_of_mem_zipIdx hx
      have hoff := lastResort_offSide hn (i := i) (hi.trans_le hlen)
      exact L.setWord hu hoff
    exact L.wr (L.wr hslot)

set_option Elab.async false in
theorem Lateral.setRcd (h : Keeps part gs s0 s) {r : Recorder} : Keeps part gs s0 (s.setRcd r) := by
  unfold State.setRcd
  exact L.wr (h.update (L.rcd ..))

theorem Lateral.suppress (h : Keeps part gs s0 s) {code : Nat} : Keeps part gs s0 (s.suppress code) := by
  unfold State.suppress
  exact L.setRcd h

theorem Lateral.raise (h : Keeps part gs s0 s) {code source : Nat} {payload : List Byte} :
    Keeps part gs s0 (s.raise code source payload) := by
  unfold State.raise
  exact .ite h (.ite (h.update (L.rcd ..)) (.ite (.ite (L.lastResort h) (L.count h)) (.ite (L.count (L.suppress h))
    (.ite (L.setRcd h) (L.count (L.suppress h))))))

theorem Lateral.raiseTogether (h : Keeps part gs s0 s) {es : List Offer} : Keeps part gs s0 (s.raiseTogether es) := by
  unfold State.raiseTogether
  exact .foldl h fun _ _ _ hu => L.raise hu

end
end Sys2Proof.Machine
end

section
/-!
Lanes, bays, streams and the auxiliary block beside the device's configuration: each operation is `Lateral`.
-/

namespace Sys2Proof.Machine
variable {α : Type} {part : State → α} {gs : List Field} {s0 s t u : State} {b n v : Nat}

/-! ### The fields of a bay -/

theorem directions_offSide (hb : b < 16) (p : Nat) :
    (([Fld.BAY_STATUS_DIR_A, Fld.BAY_STATUS_DIR_B, Fld.BAY_STATUS_DIR_C].getD p Fld.BAY_STATUS_DIR_A) b).offSide = true := by
  match p with
  | 0 => exact offSide_of_lt (F := Fld.BAY_STATUS_DIR_A) hb
  | 1 => exact offSide_of_lt (F := Fld.BAY_STATUS_DIR_B) hb
  | 2 => exact offSide_of_lt (F := Fld.BAY_STATUS_DIR_C) hb
  | _ + 3 => exact offSide_of_lt (F := Fld.BAY_STATUS_DIR_A) hb

/-- A field in the bays' pages, before or behind the BAY_UDIN of its page. -/
def Field.inBay (f : Field) : Bool :=
  decide (0x300000 ≤ f.addr) && decide (f.addr + 4 * f.words ≤ 0x310000) &&
    (decide (f.addr % 0x1000 + 4 * f.words ≤ 0x414) || (decide (0x418 ≤ f.addr % 0x1000) &&
      decide (f.addr % 0x1000 + 4 * f.words ≤ 0x1000)))

theorem Field.offSide_of_inBay {f : Field} (h : f.inBay = true) : f.offSide = true := by
  simp only [Field.inBay, Bool.and_eq_true, decide_eq_true_eq] at h
  obtain ⟨⟨hlow, hhigh⟩, hplace⟩ := h
  have hfixed : ∀ g ∈ fixedSide, g.addr + 4 * g.words ≤ 0x300000 ∨ 0x310000 ≤ g.addr := by decide
  have hapart : fixedSide.all f.apart = true := List.all_eq_true.2 fun g hg => by
    obtain hbelow | habove := hfixed g hg
    · exact Field.apart_of_above (hbelow.trans hlow)
    · exact Field.apart_of_below (hhigh.trans habove)
  simp only [Field.offSide, hapart, Bool.true_and, Bool.or_assoc, hplace, Bool.or_true]

theorem tickFields_offSide (hb : b < 16) : ∀ fs ∈ tickFields, ∀ f ∈ fs, (f b).offSide = true :=
  fun fs hfs f hf => Field.offSide_of_inBay
    ((by decide +kernel : ∀ fs ∈ tickFields, ∀ f ∈ fs, ∀ i < 16, (f i).inBay = true) fs hfs f hf b hb)

theorem powerFactors_offSide (hb : b < 16) :
    ∀ f ∈ [Fld.BAY_PF_A_PF, Fld.BAY_PF_B_PF, Fld.BAY_PF_C_PF, Fld.BAY_PF_T_PF], (f b).offSide = true :=
  fun f hf => (by decide +kernel : ∀ f ∈ [Fld.BAY_PF_A_PF, Fld.BAY_PF_B_PF, Fld.BAY_PF_C_PF, Fld.BAY_PF_T_PF], ∀ i < 16,
    (f i).offSide = true) f hf b hb

section
variable (L : Lateral part gs)
include L

/-! ### Lanes (R64 to R66) -/

theorem Lateral.setLane (h : Keeps part gs s0 s) {l : Lane} : Keeps part gs s0 (s.setLane n l) := h.update (L.acq ..)

theorem Lateral.breakWindow (h : Keeps part gs s0 s) : Keeps part gs s0 (s.breakWindow n) := h.update (L.acq ..)

theorem Lateral.refreshDegraded (h : Keeps part gs s0 s) : Keeps part gs s0 s.refreshDegraded := L.wrB h

theorem Lateral.refreshAcq (h : Keeps part gs s0 s) : Keeps part gs s0 s.refreshAcq := by
  unfold State.refreshAcq
  exact L.refreshDegraded (L.wr (L.wr (L.wr h)))

set_option Elab.async false in
theorem Lateral.refreshLane (h : Keeps part gs s0 s) (hn : n < 76) : Keeps part gs s0 (s.refreshLane n) :=
  L.wrB h (offSide_of_lt hn)

theorem Lateral.setLaneState (h : Keeps part gs s0 s) (hn : n < 76) : Keeps part gs s0 (s.setLaneState n v) :=
  L.refreshLane (L.wr h (offSide_of_lt hn)) hn

theorem Lateral.laneInvalid (h : Keeps part gs s0 s) (hn : n < 76) : Keeps part gs s0 (s.laneInvalid n) := by
  unfold State.laneInvalid
  exact L.setLaneState (L.setLane h) hn

theorem Lateral.laneBegin (h : Keeps part gs s0 s) (hn : n < 76) : Keeps part gs s0 (s.laneBegin n) := by
  unfold State.laneBegin
  exact L.laneInvalid (L.setLane (L.wrB (L.wrB h (offSide_of_lt hn)) (offSide_of_lt hn))) hn

theorem Lateral.laneStart (h : Keeps part gs s0 s) (hn : n < 76) : Keeps part gs s0 (s.laneStart n) :=
  L.breakWindow (L.laneBegin h hn)

theorem Lateral.laneStop (h : Keeps part gs s0 s) (hn : n < 76) : Keeps part gs s0 (s.laneStop n) :=
  L.setLaneState (L.setLane h) hn

/-! ### Bays and their cycles (R102, R104, R113, R117) -/

theorem Lateral.setBay (h : Keeps part gs s0 s) {y : Bay} : Keeps part gs s0 (s.setBay b y) := h.update (L.met ..)

theorem Lateral.dropWindow (h : Keeps part gs s0 s) (hb : b < 16) : Keeps part gs s0 (s.dropWindow b) := by
  unfold State.dropWindow
  extract_lets
  split
  · exact h
  · exact L.count (L.setBay h) (offSide_of_lt hb)

theorem Lateral.setTrack (h : Keeps part gs s0 s) (hb : b < 16) : Keeps part gs s0 (s.setTrack b v) := by
  unfold State.setTrack
  extract_lets _ shown unlocked free
  have hs : Keeps part gs s0 shown := L.wrB (L.wr h (offSide_of_lt hb)) (offSide_of_lt hb)
  have hu : Keeps part gs s0 unlocked := .ite (L.dropWindow (L.wrB hs (offSide_of_lt hb)) hb) hs
  have hf : Keeps part gs s0 free := .ite (L.wr hu (offSide_of_lt hb)) hu
  exact L.wr (L.wr (.ite (L.setBay hf) hf))

theorem Lateral.cutCycle (h : Keeps part gs s0 s) {epoch : Real} : Keeps part gs s0 (s.cutCycle b epoch v) := by
  unfold State.cutCycle
  exact .ite h (L.setBay h)

theorem Lateral.setPulse (h : Keeps part gs s0 s) {x : Pulse} : Keeps part gs s0 (s.setPulse n x) := h.update (L.met ..)

theorem Lateral.pulseAdd (h : Keeps part gs s0 s) {k : Nat} {prim sec : Powers} {T : Real} :
    Keeps part gs s0 (s.pulseAdd k b prim sec T) := by
  unfold State.pulseAdd
  exact .ite h (L.setPulse h)

theorem Lateral.direction (h : Keeps part gs s0 s) (hb : b < 16) {x : Powers} {T : Real} :
    Keeps part gs s0 (s.direction b x T) := by
  unfold State.direction
  extract_lets shown
  have hs : Keeps part gs s0 shown := .foldl h fun _ p _ hu => .ite hu (L.wrB hu (directions_offSide hb p))
  exact .ite hs (.ite (L.setBay hs) (.ite (L.setBay hs) (L.raise (L.wrB (L.setBay hs) (offSide_of_lt hb)))))

set_option Elab.async false in
theorem Lateral.putB32 (h : Keeps part gs s0 s) {fs : List (Nat → Field)} {vs : List Real}
    (hf : ∀ f ∈ fs, (f b).offSide = true) : Keeps part gs s0 (s.putB32 b fs vs) := by
  unfold State.putB32
  exact .foldl h fun _ x hx hu => L.wr hu (hf _ (List.of_mem_zip hx).1)

theorem Lateral.tickValues (h : Keeps part gs s0 s) (hb : b < 16) {cs : List CycleSum} : Keeps part gs s0 (s.tickValues b cs) := by
  unfold State.tickValues
  extract_lets _ _ _ _ _ _ vals _ factors
  have hv : Keeps part gs s0 vals :=
    .foldl h fun _ x hx hu => L.putB32 hu (tickFields_offSide hb _ (List.of_mem_zip hx).1)
  have hp : Keeps part gs s0 factors :=
    .foldl hv fun _ x hx hu => L.wr hu (powerFactors_offSide hb _ (List.fst_mem_of_mem_zipIdx hx))
  exact L.wr (.ite (L.wr hp (offSide_of_lt hb)) hp) (offSide_of_lt hb)

theorem Lateral.bayTickNow (h : Keeps part gs s0 s) (hb : b < 16) {epoch : Nat} : Keeps part gs s0 (s.bayTickNow b epoch) := by
  unfold State.bayTickNow
  extract_lets _ _ taken shown
  have hs : Keeps part gs s0 shown := L.wrB (L.setBay h) (offSide_of_lt hb)
  exact .ite (L.wr hs (offSide_of_lt hb)) (L.wrap (L.tickValues hs hb) (offSide_of_lt hb))

theorem Lateral.bayTickDue (h : Keeps part gs s0 s) (hb : b < 16) : Keeps part gs s0 (s.bayTickDue b) := by
  unfold State.bayTickDue
  extract_lets
  split
  · exact h
  · exact .ite h (L.bayTickNow h hb)

theorem Lateral.cycleStatus (h : Keeps part gs s0 s) (hb : b < 16) {x : Powers} {quad : Nat} :
    Keeps part gs s0 (s.cycleStatus b x quad) := by
  unfold State.cycleStatus
  exact L.wrB (L.wrB (L.wrB (L.wrB (.ite h (L.wr h (offSide_of_lt hb))) (offSide_of_lt hb)) (offSide_of_lt hb))
    (offSide_of_lt hb)) (offSide_of_lt hb)

theorem Lateral.finishCycle (hq : PostFree part) (h : Keeps part gs s0 s) (hb : b < 16) {y : Bay} {c : Cycle} :
    Keeps part gs s0 (s.finishCycle b y c) := by
  unfold State.finishCycle
  extract_lets _ _ _ _ posted pulses counted lost short
  have hd : Keeps part gs s0 posted := .ite h (h.update (hq ..))
  have hp : Keeps part gs s0 pulses := .foldl hd fun _ _ _ hu => L.pulseAdd hu
  have hc : Keeps part gs s0 counted := L.count (L.direction (L.cycleStatus hp hb) hb) (offSide_of_lt hb)
  have hl : Keeps part gs s0 lost := .ite (L.wrB hc (offSide_of_lt hb)) hc
  have hs : Keeps part gs s0 short := .ite (L.wrB hl (offSide_of_lt hb)) hl
  exact L.setBay hs

theorem Lateral.queueJob (h : Keeps part gs s0 s) {j : HarmJob} (hj : j.bay < 16) : Keeps part gs s0 (s.queueJob j) := by
  unfold State.queueJob
  exact .ite (L.count h (offSide_of_lt hj)) (.ite (h.update (L.met ..)) (.ite (h.update (L.met ..))
    (.ite (L.count h (offSide_of_lt hj)) (h.update (L.met ..)))))

theorem Lateral.windowCycle (h : Keeps part gs s0 s) (hb : b < 16) {y : Bay} {c : Cycle} {lost : Bool} {was : Nat} :
    Keeps part gs s0 (s.windowCycle b y c lost was) := by
  unfold State.windowCycle
  extract_lets _ _ taken
  have ht : Keeps part gs s0 taken := by
    unfold taken
    split
    · exact h
    · exact .ite (L.dropWindow h hb) (.ite (L.setBay h) (.ite (L.setBay h) (L.queueJob (L.setBay h) hb)))
  exact .ite (L.setBay ht) ht

theorem Lateral.zeroSumAdd (h : Keeps part gs s0 s) {c : Cycle} : Keeps part gs s0 (s.zeroSumAdd b c) := by
  unfold State.zeroSumAdd
  exact .ite h (h.update (L.acq ..))

theorem Lateral.cycleEnd (hq : PostFree part) (h : Keeps part gs s0 s) (hb : b < 16) : Keeps part gs s0 (s.cycleEnd b) := by
  unfold State.cycleEnd
  extract_lets _ _ _ _ _ fin
  have hfin {u x c out} (hu : Keeps part gs s0 u) : Keeps part gs s0 (fin u x c out) := by
    exact L.bayTickDue (L.windowCycle (.ite (L.finishCycle hq (L.setBay (.ite (L.drawn hu) hu)) hb)
      (L.setTrack (L.finishCycle hq (L.setBay (.ite (L.drawn hu) hu)) hb) hb)) hb) hb
  refine .ite h (.ite (hfin (L.wrB (L.count h (offSide_of_lt hb)) (offSide_of_lt hb))) ?_)
  split
  · exact h
  · exact hfin (L.zeroSumAdd h)

theorem Lateral.bayDrain (hq : PostFree part) (h : Keeps part gs s0 s) (hb : b < 16) : Keeps part gs s0 (s.bayDrain b) :=
  L.cycleEnd hq (L.cutCycle h) hb

end
end Sys2Proof.Machine
end

section
/-!
Events of bays, streams, the auxiliary block, ports and PTP beside the device's configuration, and the start of a domain (R405).
-/

namespace Sys2Proof.Machine
variable {α β : Type} {part : State → α} {gs : List Field} {s0 s t u : State} {b n m v : Nat}

theorem eventCounts_offSide (hb : b < 16) (kind : Nat) : (match kind with
    | 1 => Fld.BAY_EVT_CNT_SAG b
    | 2 => Fld.BAY_EVT_CNT_SWELL b
    | _ => Fld.BAY_EVT_CNT_INT b).offSide = true := by
  split
  · exact offSide_of_lt hb
  · exact offSide_of_lt hb
  · exact offSide_of_lt hb

section
variable (L : Lateral part gs)
include L

/-! ### Events of a bay (R121, R137) -/

theorem Lateral.reportEvent (h : Keeps part gs s0 s) (hb : b < 16) {kind : Nat} {e : QEvent} {stop : Real} {down aborted : Bool} :
    Keeps part gs s0 (s.reportEvent b kind e stop down aborted).1 := by
  unfold State.reportEvent
  extract_lets _ _ kindShown flags ext dur counted _ _ reported
  have hk : Keeps part gs s0 kindShown := L.wr h (offSide_of_lt hb)
  have hf : Keeps part gs s0 flags := L.wrB (L.wrB hk (offSide_of_lt hb)) (offSide_of_lt hb)
  have he : Keeps part gs s0 ext := L.wr (L.wr hf (offSide_of_lt hb)) (offSide_of_lt hb)
  have hd : Keeps part gs s0 dur := L.wr he (offSide_of_lt hb)
  have hc : Keeps part gs s0 counted := L.count hd (eventCounts_offSide hb kind)
  have hr : Keeps part gs s0 reported := L.setBay hc
  split
  · exact hr
  · exact hr

theorem Lateral.endEvents (h : Keeps part gs s0 s) (hb : b < 16) {down : Bool} : Keeps part gs s0 (s.endEvents b down).1 := by
  unfold State.endEvents
  extract_lets _ _ cleared dip swell
  have hc : Keeps part gs s0 cleared := L.setBay h
  have hd : Keeps part gs s0 dip.1 := by
    unfold dip
    split
    · exact L.reportEvent hc hb
    · exact hc
  have hs : Keeps part gs s0 swell.1 := by
    unfold swell
    split
    · exact L.reportEvent hd hb
    · exact hd
  exact L.wrB (L.wrB (L.wrB hs (offSide_of_lt hb)) (offSide_of_lt hb)) (offSide_of_lt hb)

set_option Elab.async false in
theorem Lateral.closeEvents (h : Keeps part gs s0 s) (hb : b < 16) {down : Bool} : Keeps part gs s0 (s.closeEvents b down) :=
  L.raiseTogether (L.endEvents h hb)

theorem Lateral.bayOff (h : Keeps part gs s0 s) (hb : b < 16) : Keeps part gs s0 (s.bayOff b) := by
  unfold State.bayOff
  exact .ite h (L.setTrack (L.dropWindow (L.closeEvents h hb) hb) hb)

/-! ### Standby engines (R104) -/

theorem Lateral.bindBay (h : Keeps part gs s0 s) (hb : b < 16) : Keeps part gs s0 (s.bindBay b m) := by
  unfold State.bindBay
  exact L.setBay (L.wrB (L.wr h (offSide_of_lt hb)) (offSide_of_lt hb))

theorem Lateral.unhostBay (h : Keeps part gs s0 s) (hb : b < 16) : Keeps part gs s0 (s.unhostBay b) := by
  unfold State.unhostBay
  exact L.setTrack (L.dropWindow (L.closeEvents (L.wrB (L.wr h (offSide_of_lt hb)) (offSide_of_lt hb)) hb) hb) hb

theorem Lateral.bindWaiting (h : Keeps part gs s0 s) : Keeps part gs s0 s.bindWaiting := by
  unfold State.bindWaiting
  refine .foldl h fun u b hm hu => ?_
  have hb : b < 16 := List.mem_range.1 hm
  split
  · split
    · exact L.setTrack (L.setBay (L.bindBay hu hb)) hb
    · exact hu
  · exact hu

/-! ### The auxiliary block (R151, R153, R159) -/

theorem Lateral.refreshExc (h : Keeps part gs s0 s) : Keeps part gs s0 s.refreshExc := L.wr (L.wr h)

theorem Lateral.setAx (h : Keeps part gs s0 s) : Keeps part gs s0 (s.setAx v) := L.refreshExc (L.wr h)

theorem Lateral.axCapture (h : Keeps part gs s0 s) : Keeps part gs s0 s.axCapture := by
  unfold State.axCapture
  extract_lets one captured
  have hone {u : State} {n : Nat} (hn : n < 34) (hu : Keeps part gs s0 u) : Keeps part gs s0 (one u n) :=
    L.wrS (L.wrS (L.wrB (L.wrB (L.wrB (L.wr (L.wrS hu (offSide_of_lt hn)) (offSide_of_lt hn)) (offSide_of_lt hn))
      (offSide_of_lt hn)) (offSide_of_lt hn)) (offSide_of_lt hn)) (offSide_of_lt hn)
  have hc : Keeps part gs s0 captured := .foldl h fun _ _ hm hu => hone (List.mem_range.1 hm) hu
  exact L.wrap (hc.update (L.aux ..))

theorem Lateral.axCaptureDue (h : Keeps part gs s0 s) : Keeps part gs s0 s.axCaptureDue := by
  unfold State.axCaptureDue
  exact .ite (L.axCapture h) h

theorem Lateral.axStop (h : Keeps part gs s0 s) : Keeps part gs s0 s.axStop := by
  unfold State.axStop
  exact L.setAx (L.wrB ((L.axCaptureDue h).update (L.aux ..)))

theorem Lateral.axStart (h : Keeps part gs s0 s) : Keeps part gs s0 s.axStart := by
  unfold State.axStart
  exact .ite (L.setAx (h.update (L.aux ..))) h

/-! ### Streams (R164, R169) -/

theorem Lateral.setStream (h : Keeps part gs s0 s) {x : Stream} : Keeps part gs s0 (s.setStream n x) := h.update (L.strm ..)

theorem Lateral.psInputDone (h : Keeps part gs s0 s) (hn : n < 4) (hm : m < 5) {g : State} {dt : Real} {r : PsIn} :
    Keeps part gs s0 (s.psInputDone g n m dt r) := by
  unfold State.psInputDone
  extract_lets _ _ _ _ value flags subst
  have hv : Keeps part gs s0 value := L.wr (L.setStream h) (offSide_of_lt2 hn hm)
  have hf : Keeps part gs s0 flags := L.wrB (L.wrB hv (offSide_of_lt2 hn hm)) (offSide_of_lt2 hn hm)
  have hs : Keeps part gs s0 subst := L.wrB hf (offSide_of_lt2 hn hm)
  exact .ite (L.count hs (offSide_of_lt2 hn hm)) hs

theorem Lateral.psResults (h : Keeps part gs s0 s) (hn : n < 4) {g : State} {sec : Real} {r : PsTick} :
    Keeps part gs s0 (s.psResults g n sec r) := by
  unfold State.psResults
  extract_lets _ _ _ put mass volume normal power density enthalpy used reynolds
  have hput {u f q} (hu : Keeps part gs s0 u) (hf : f.offSide = true) : Keeps part gs s0 (put u f q) := L.wr hu hf
  have hm : Keeps part gs s0 mass := hput h (offSide_of_lt hn)
  have hv : Keeps part gs s0 volume := hput hm (offSide_of_lt hn)
  have hl : Keeps part gs s0 normal := hput hv (offSide_of_lt hn)
  have hp : Keeps part gs s0 power := hput hl (offSide_of_lt hn)
  have hd : Keeps part gs s0 density := hput hp (offSide_of_lt hn)
  have he : Keeps part gs s0 enthalpy := .ite hd (hput hd (offSide_of_lt hn))
  have hu : Keeps part gs s0 used := .ite he (hput he (offSide_of_lt hn))
  have hr : Keeps part gs s0 reynolds := hput hu (offSide_of_lt hn)
  refine .ite (L.wr (L.wr (L.wr hu (offSide_of_lt hn)) (offSide_of_lt hn)) (offSide_of_lt hn)) ?_
  split
  · exact hput (hput hr (offSide_of_lt hn)) (offSide_of_lt hn)
  · exact L.drawn (L.wr (L.drawn (L.wr hr (offSide_of_lt hn))) (offSide_of_lt hn))

set_option Elab.async false in
theorem Lateral.psSettle (h : Keeps part gs s0 s) : Keeps part gs s0 (s.psSettle n) := L.setStream h

theorem Lateral.psCompute (hq : PostFree part) (h : Keeps part gs s0 s) (hn : n < 4) {dt : Real} {epoch : Nat} :
    Keeps part gs s0 (s.psCompute n dt epoch) := by
  unfold State.psCompute
  extract_lets _ _ _ _ _ _ _ _ _ _ _ _ computed inputs _ _ _ _ posted _ _ streams results substRange cutHeld solver sat degraded
    substSeen rangeSeen heldSeen
  have hi : Keeps part gs s0 inputs := .foldl (h.update (L.free ..)) fun _ _ hm hu =>
    .ite (L.psInputDone hu hn (List.mem_range.1 hm)) hu
  have hp : Keeps part gs s0 posted := hi.update (hq ..)
  have hr : Keeps part gs s0 results := L.psResults (L.setStream hp) hn
  have hsub : Keeps part gs s0 substRange := L.wrB (L.wrB hr (offSide_of_lt hn)) (offSide_of_lt hn)
  have hcut : Keeps part gs s0 cutHeld := L.wrB (L.wrB hsub (offSide_of_lt hn)) (offSide_of_lt hn)
  have hsol : Keeps part gs s0 solver := L.wr (L.wrB hcut (offSide_of_lt hn)) (offSide_of_lt hn)
  have hsat : Keeps part gs s0 sat := L.wrB hsol (offSide_of_lt hn)
  have hdeg : Keeps part gs s0 degraded := L.wrB hsat (offSide_of_lt hn)
  have hss : Keeps part gs s0 substSeen := .ite (L.wrB hdeg (offSide_of_lt hn)) hdeg
  have hrs : Keeps part gs s0 rangeSeen := .ite (L.wrB hss (offSide_of_lt hn)) hss
  have hhs : Keeps part gs s0 heldSeen := .ite (L.wrB hrs (offSide_of_lt hn)) hrs
  exact L.refreshDegraded (L.psSettle (L.wrap hhs (offSide_of_lt hn)))

theorem Lateral.psLose (h : Keeps part gs s0 s) : Keeps part gs s0 (s.psLose n) := by
  unfold State.psLose
  extract_lets
  split
  · exact h
  · exact L.psSettle (L.setStream h)

theorem Lateral.streamTick (hq : PostFree part) (h : Keeps part gs s0 s) {k : Fin 4} : Keeps part gs s0 (s.streamTick k) := by
  unfold State.streamTick
  extract_lets captured
  have hc : Keeps part gs s0 captured := L.axCaptureDue h
  split
  · exact hc
  · exact .ite (L.psLose hc) (.ite (L.psLose hc) (L.psCompute hq hc k.isLt))

theorem Lateral.streamStart (h : Keeps part gs s0 s) (hn : n < 4) : Keeps part gs s0 (s.streamStart n) := by
  unfold State.streamStart
  exact .ite (L.wr (L.setStream h) (offSide_of_lt hn)) h

theorem Lateral.streamStop (hq : PostFree part) (h : Keeps part gs s0 s) {k : Fin 4} : Keeps part gs s0 (s.streamStop k) := by
  unfold State.streamStop
  exact .ite h (L.wr (L.streamTick hq h) (offSide_of_lt k.isLt))

/-! ### The panel (R420, R424) -/

theorem Lateral.panelRequest (h : Keeps part gs s0 s) (hn : n < 8) : Keeps part gs s0 (s.panelRequest n) := by
  unfold State.panelRequest
  exact .ite h (L.wr (L.wrB (.ite (L.count h (offSide_of_lt hn)) h) (offSide_of_lt hn)))

theorem Lateral.takeTiming (h : Keeps part gs s0 s) : Keeps part gs s0 s.takeTiming := by
  unfold State.takeTiming
  exact L.wr (h.update (L.panel ..))

theorem Lateral.panelStart (h : Keeps part gs s0 s) : Keeps part gs s0 s.panelStart := by
  unfold State.panelStart
  exact .foldl (L.takeTiming (h.update (L.panel ..))) fun _ _ hm hu => L.panelRequest hu (List.mem_range.1 hm)

/-! ### What a domain starts (R405) -/

omit L in
theorem lanesOfDomain_lt (d : Nat) : ∀ l ∈ lanesOfDomain d, l < 76 := by
  intro l hl
  unfold lanesOfDomain at hl
  split at hl
  · obtain ⟨i, hi, rfl⟩ := List.mem_map.1 hl
    have := List.mem_range.1 hi
    omega
  · split at hl
    · obtain ⟨i, hi, rfl⟩ := List.mem_map.1 hl
      have := List.mem_range.1 hi
      omega
    · exact absurd hl (List.not_mem_nil)

theorem Lateral.domainStart (h : Keeps part gs s0 s) {d : Fin 17} : Keeps part gs s0 (s.domainStart d) := by
  unfold State.domainStart
  refine .ite (.ite (L.refreshAcq (.foldl h fun u l hl hu => ?lane)) h) (.ite (L.axStart h) (.ite (.ite (L.bindWaiting
    (.foldl h fun _ _ hm hu => L.streamStart hu (List.mem_range.1 hm))) h) (.ite (L.panelStart h) h)))
  have hl : l < 76 := lanesOfDomain_lt d l hl
  exact .ite (.ite (L.laneBegin hu hl) (L.laneStart hu hl)) hu

end
end Sys2Proof.Machine
end

section
/-!
Ports and PTP beside the device's configuration (R308, R322 to R324): a link that is lost, and frames that are flushed.
-/

namespace Sys2Proof.Machine
variable {α : Type} {part : State → α} {gs : List Field} {s0 s t u : State}

theorem inFlight_offSide : ∀ (p : Fin 2), ∀ q < 8, (Fld.NET_TXQ_STAT_IN_FLIGHT p q).offSide = true := by decide +kernel

set_option Elab.async false in
theorem linkFields_offSide : ∀ (p : Fin 2), (linkFld p).offSide = true ∧ (speedFld p).offSide = true ∧
    (Fld.NET_PORT_STAT_FLAPS p).offSide = true := by decide +kernel

/-- But for the rate itself, a rate leaves the fields. -/
theorem xrefRate_apart : ∀ g ∈ sideFields, g ≠ Fld.MT_XREF_RATE → Fld.MT_XREF_RATE.apart g = true := by decide +kernel

section
variable (L : Lateral part gs)
include L

/-! ### Ports (R308 to R311) -/

theorem Lateral.setPort (h : Keeps part gs s0 s) {p : Fin 2} {x : Port} : Keeps part gs s0 (s.setPort p x) := by
  unfold State.setPort
  exact .foldl (.ite (h.update (L.portA ..)) (h.update (L.portB ..))) fun _ q hq hu =>
    L.wr hu (inFlight_offSide p q (List.mem_range.1 hq))

theorem Lateral.setPath (h : Keeps part gs s0 s) {p : Path} {x : PathSt} : Keeps part gs s0 (s.setPath p x) := by
  cases p with
  | spi => exact h.update (L.spi ..)
  | drega => exact h.update (L.drega ..)

theorem Lateral.hostDone (h : Keeps part gs s0 s) {p : Path} {ws : List Word} : Keeps part gs s0 (s.hostDone p ws) := by
  unfold State.hostDone
  extract_lets _ _ joined lost
  have hj : Keeps part gs s0 joined := L.setPath h
  have hl : Keeps part gs s0 lost := .ite (L.count hj) hj
  exact .ite (L.irq hl) hl

/-- A frame that is aborted counts nowhere. -/
theorem Lateral.frameAborted (h : Keeps part gs s0 s) {p : Fin 2} {f : TxFrame} {ts : PtpTime} :
    Keeps part gs s0 (s.txDone p f txAborted ts) := by
  have hlate : ¬(decide (txAborted = txSentLate) || decide (txAborted = txDroppedLate)) = true := by decide
  have hdrop : ¬txAborted = txDroppedLate := by decide
  simp only [State.txDone, if_neg hlate, if_neg hdrop]
  split
  · exact h
  · exact L.hostDone h

theorem Lateral.portFlush (h : Keeps part gs s0 s) {p : Fin 2} : Keeps part gs s0 (s.portFlush p) := by
  unfold State.portFlush
  exact .foldl (L.setPort h) fun _ _ _ hu => L.frameAborted hu

/-! ### The rate and PTP (R101, R322 to R324) -/

theorem Lateral.refreshTimebase (h : Keeps part gs s0 s) : Keeps part gs s0 s.refreshTimebase := L.wrB h

theorem Lateral.refreshUtc (h : Keeps part gs s0 s) : Keeps part gs s0 s.refreshUtc := by
  unfold State.refreshUtc
  exact L.wrB (L.wrB (L.wrS (L.wrB h)))

theorem Lateral.setLeap (h : Keeps part gs s0 s) : Keeps part gs s0 s.setLeap := by
  unfold State.setLeap
  split
  · split
    · exact h
    · exact h.update (L.ptp ..)
  · exact h.update (L.ptp ..)

theorem Lateral.setPtp (h : Keeps part gs s0 s) {v : Nat} : Keeps part gs s0 (s.setPtp v) := L.wr h

end

section
variable (L : Lateral part gs) (hx : Fld.MT_XREF_RATE ∉ gs)
include L hx

theorem Lateral.rateFrom (h : Keeps part gs s0 s) {epoch : Nat} {rate : Int} : Keeps part gs s0 (s.rateFrom epoch rate) := by
  unfold State.rateFrom
  exact .wrS (h.update (L.met ..)) (List.all_eq_true.2 fun g hg => xrefRate_apart g (L.fields hg) fun e => hx (e ▸ hg)) L.regs

set_option Elab.async false in
theorem Lateral.rateTrim (h : Keeps part gs s0 s) {epoch : Nat} : Keeps part gs s0 (s.rateTrim epoch) :=
  L.wrB (L.rateFrom hx h)

theorem Lateral.ptpUnlock (h : Keeps part gs s0 s) {cause : Nat} : Keeps part gs s0 (s.ptpUnlock cause) := by
  unfold State.ptpUnlock
  extract_lets _ forgotten
  have hf : Keeps part gs s0 forgotten := h.update (L.ptp ..)
  exact .ite hf (L.raise (L.refreshTimebase (L.rateTrim hx (L.irq (L.wrB (L.wrB hf))))))

theorem Lateral.setParent (h : Keeps part gs s0 s) {i : Option (BitVec 80)} {cause : Nat} :
    Keeps part gs s0 (s.setParent i cause) := by
  unfold State.setParent
  exact .ite h (L.setLeap (L.refreshUtc (L.wr ((L.ptpUnlock hx h).update (L.ptp ..)))))

theorem Lateral.ptpAlone (h : Keeps part gs s0 s) {cause : Nat} : Keeps part gs s0 (s.ptpAlone cause) := by
  unfold State.ptpAlone
  exact L.setPtp ((L.setParent hx (L.ptpUnlock hx h)).update (L.ptp ..))

theorem Lateral.ptpLeave (h : Keeps part gs s0 s) : Keeps part gs s0 s.ptpLeave := by
  unfold State.ptpLeave
  exact (L.setParent hx (L.ptpUnlock hx h)).update (L.ptp ..)

theorem Lateral.ptpMove (h : Keeps part gs s0 s) {toB : Bool} : Keeps part gs s0 (s.ptpMove toB) :=
  L.setPtp (L.wrB (L.ptpLeave hx h))

theorem Lateral.ptpLinkLost (h : Keeps part gs s0 s) {p : Fin 2} : Keeps part gs s0 (s.ptpLinkLost p) := by
  unfold State.ptpLinkLost
  extract_lets alone
  have ha : Keeps part gs s0 alone := L.ptpAlone hx h
  exact .ite h (.ite (L.ptpMove hx ha) ha)

theorem Lateral.setLink (h : Keeps part gs s0 s) {p : Fin 2} {up : Bool} {speed : Nat} :
    Keeps part gs s0 (s.setLink p up speed) := by
  obtain ⟨hlink, hspeed, hflaps⟩ := linkFields_offSide p
  unfold State.setLink
  extract_lets _ linked shown _ since
  have hl : Keeps part gs s0 linked := L.wrB h hlink
  have hs : Keeps part gs s0 shown := .ite (L.wr hl hspeed) hl
  have hn : Keeps part gs s0 since := .ite (hs.update (L.ptp ..)) hs
  exact .ite (L.raise hn) (.ite (L.ptpLinkLost hx (L.raise (L.count hn hflaps))) hn)

end
end Sys2Proof.Machine
end

section
/-!
The start of acquisition (R101, R386, R405).
-/

namespace Sys2Proof.Machine
variable {s0 s t u : State} {b : Nat}

/-! ### What starts leaves -/

theorem startLateral : Lateral (fun s => (s.core, s.pwr, s.led, s.str)) sideFields where
  fields := List.Subset.refl _
  regs _ _ := rfl
  acq _ _ := rfl
  met _ _ := rfl
  aux _ _ := rfl
  strm _ _ := rfl
  rcd _ _ := rfl
  panel _ _ := rfl
  ptp _ _ := rfl
  portA _ _ := rfl
  portB _ _ := rfl
  spi _ _ := rfl
  drega _ _ := rfl
  free _ _ := rfl

/-- The fields that the calibrator's start leaves. -/
abbrev runFields : List Field := [Fld.AQ_STATUS_RUN, Fld.PWR_ON_ON, Fld.MT_XREF_RATE]

theorem provisional_offSide (hb : b < 16) : (Fld.BAY_STATUS_PROVISIONAL b).offSide = true := offSide_of_lt hb

theorem State.calStart_spec (s : State) : s.calStart.epoch = 0 ∧ s.calStart.pipe = pipeCollect ∧
    Keeps (fun s => (s.core, s.pwr, s.led, s.str)) runFields s s.calStart := by
  have hpipe : (s.wr Fld.CAL_STATUS_PIPE pipeCollect).rd Fld.CAL_STATUS_PIPE = pipeCollect := State.rd_wr_same ..
  have hstart : Keeps (fun s => (s.core, s.pwr, s.led, s.str)) runFields s (s.wr Fld.CAL_STATUS_PIPE pipeCollect) := .wr (.refl s)
  have hcalStart : s.calStart = (((((s.wr Fld.CAL_STATUS_PIPE pipeCollect).wr Fld.SYS_EPOCH_EPOCH 0).wr Fld.CAL_WINDOW_WINDOW
      s.acq.window).wr Fld.CAL_WINDOW_POS (min (0 - s.acq.window * 2 ^ 24) (2 ^ 24 - 1)))).refreshProvisional := rfl
  rw [hcalStart]
  generalize s.wr Fld.CAL_STATUS_PIPE pipeCollect = x at *
  have hepoch : (x.wr Fld.SYS_EPOCH_EPOCH 0).rd Fld.SYS_EPOCH_EPOCH = 0 := State.rd_wr_same ..
  have hzero : Keeps (fun s => (s.core, s.pwr, s.led, s.str)) (Fld.CAL_STATUS_PIPE :: runFields) x (x.wr Fld.SYS_EPOCH_EPOCH 0) :=
    .wr (.refl x)
  generalize x.wr Fld.SYS_EPOCH_EPOCH 0 = y at *
  have hrest : Keeps (fun s => (s.core, s.pwr, s.led, s.str)) sideFields y ((y.wr Fld.CAL_WINDOW_WINDOW s.acq.window).wr
      Fld.CAL_WINDOW_POS (min (0 - s.acq.window * 2 ^ 24) (2 ^ 24 - 1))).refreshProvisional := by
    unfold State.refreshProvisional
    exact .foldl (startLateral.wr (startLateral.wr (.refl y))) fun _ _ hm hu =>
      startLateral.wrB hu (provisional_offSide (List.mem_range.1 hm))
  refine ⟨(hrest.rd _ (by decide)).trans hepoch, (hrest.rd _ (by decide)).trans ((hzero.rd _ (by decide)).trans hpipe),
    (hstart.trans hzero.mono).trans hrest.mono⟩

/-- A rate set by a trim reads as the trim. -/
theorem ofSigned_toSigned {w v : Nat} (h : v < 2 ^ w) : ofSigned w (toSigned w v) = v := by
  have hcast : ((2 ^ w : Nat) : Int) = 2 ^ w := by push_cast; rfl
  unfold ofSigned toSigned
  split
  · rw [Int.emod_eq_of_lt (by omega) (by omega)]
    exact Int.toNat_natCast v
  · rw [Int.sub_emod_right, Int.emod_eq_of_lt (by omega) (by omega)]
    exact Int.toNat_natCast v

theorem State.rateTrim_spec (s : State) (epoch : Nat) : (s.rateTrim epoch).rd Fld.MT_XREF_RATE = s.rd Fld.MT_XREF_TRIM_TRIM ∧
    Keeps (fun s => (s.core, s.pwr, s.led, s.str)) [Fld.AQ_STATUS_RUN, Fld.PWR_ON_ON] s (s.rateTrim epoch) := by
  have hw : Fld.MT_XREF_RATE.width = Fld.MT_XREF_TRIM_TRIM.width := rfl
  have htrim : s.rd Fld.MT_XREF_TRIM_TRIM < 2 ^ Fld.MT_XREF_TRIM_TRIM.width := s.rd_lt _
  refine ⟨(State.rd_wrB_apart _ _ (by decide)).trans ((State.rd_wr_same ..).trans ?_), ?_⟩
  · rw [hw, State.rdS, ofSigned_toSigned htrim, Nat.mod_eq_of_lt htrim]
  · unfold State.rateTrim State.rateFrom
    exact .wrB (.wrS (.update (.refl s)))

/-! ### Acquisition starts (R386) -/

/-- The default domains are powered and the run begins. -/
def State.runBegun (s : State) : State :=
  { (s.wr Fld.PWR_ON_ON s.defaultDomains).wrB Fld.AQ_STATUS_RUN true with
    tickStart := s.now, core := { s.core with tickEpoch := 0, ticks := 0 }, met := { s.met with rates := [{}] } }

theorem State.acquire_eq (hr : s.core.ready = true) (hw : s.core.warned = false) (hc : s.chip = chipProvisional)
    (hrun : s.flag Fld.AQ_STATUS_RUN = false) : s.acquire = domainOrder.foldl
      (fun s (d : Fin 17) => if s.domOn d.val then s.domainStart d else s) (s.runBegun.rateTrim 0).calStart := by
  have hgo : ¬(!s.core.ready || s.core.warned || decide (s.chip ≠ chipProvisional) || s.flag Fld.AQ_STATUS_RUN) = true := by
    simp [hr, hw, hc, hrun]
  exact if_neg hgo

theorem State.runBegun_spec (s : State) : s.runBegun.flag Fld.AQ_STATUS_RUN = true ∧
    s.runBegun.rd Fld.PWR_ON_ON = s.defaultDomains % 2 ^ 17 ∧
    s.runBegun.rd Fld.MT_XREF_TRIM_TRIM = s.rd Fld.MT_XREF_TRIM_TRIM ∧ s.runBegun.core.tickEpoch = 0 ∧ s.runBegun.core.ticks = 0 ∧
    s.runBegun.str = s.str := by
  have hrun : ((s.wr Fld.PWR_ON_ON s.defaultDomains).wrB Fld.AQ_STATUS_RUN true).flag Fld.AQ_STATUS_RUN = true :=
    State.flag_wrB_same _ _ _ rfl
  have hon : ((s.wr Fld.PWR_ON_ON s.defaultDomains).wrB Fld.AQ_STATUS_RUN true).rd Fld.PWR_ON_ON = s.defaultDomains % 2 ^ 17 :=
    (State.rd_wrB_apart _ _ (by decide)).trans (State.rd_wr_same ..)
  have htrim : ((s.wr Fld.PWR_ON_ON s.defaultDomains).wrB Fld.AQ_STATUS_RUN true).rd Fld.MT_XREF_TRIM_TRIM =
      s.rd Fld.MT_XREF_TRIM_TRIM := (State.rd_wrB_apart _ _ (by decide)).trans (State.rd_wr_apart _ _ (by decide))
  exact ⟨hrun, hon, htrim, rfl, rfl, rfl⟩

set_option Elab.async false in
theorem State.acquire_flash (s : State) : s.acquire.flash = s.flash := by
  have hbase : Frame { s with ldr := { s.ldr with flash := none } } s := (Frame.refl _).update
  exact (Frame.acquire hbase).flash rfl

/-- Settles O10: the run begins, the rate is the trim by `State.rateTrim_spec`, the calibrator starts by `State.calStart_spec`, and what
the domains start leaves this, by `Lateral.domainStart`. -/
theorem acquisitionStarts : Obligations.AcquisitionStarts := by
  unfold Obligations.AcquisitionStarts
  intro s hr hw hc hrun
  obtain ⟨hbegun, hon, htrim, htick, hticks, hstr⟩ := s.runBegun_spec
  obtain ⟨hrate, hrated⟩ := s.runBegun.rateTrim_spec 0
  obtain ⟨hepoch, hpipe, hcal⟩ := (s.runBegun.rateTrim 0).calStart_spec
  have hdomains : Keeps (fun s => (s.core, s.pwr, s.led, s.str)) sideFields (s.runBegun.rateTrim 0).calStart s.acquire := by
    rw [State.acquire_eq hr hw hc hrun]
    exact .foldl (.refl _) fun _ _ _ hu => .ite (startLateral.domainStart hu) hu
  have hkept : Keeps (fun s => (s.core, s.pwr, s.led, s.str)) [Fld.AQ_STATUS_RUN, Fld.PWR_ON_ON] s.runBegun s.acquire :=
    (hrated.trans hcal.mono).trans hdomains.mono
  obtain ⟨hcore, -, -, hstrata⟩ : _ ∧ _ ∧ _ ∧ _ := by simpa only [Prod.mk.injEq] using hkept.part
  exact ⟨s.acquire, rfl, hkept.flag.trans hbegun, by rw [hcore, htick], by rw [hcore, hticks],
    (hdomains.rd _ (by decide)).trans hepoch, (hdomains.rd _ (by decide)).trans hpipe, (hkept.rd _ (by decide)).trans hon,
    (hdomains.rd _ (by decide)).trans ((hcal.rd _ (by decide)).trans (hrate.trans htrim)), hstrata.trans hstr, s.acquire_flash⟩
end Sys2Proof.Machine
end

section
/-!
What a domain drains (R405, R407): powers, the committed image and Strata stay.
-/

namespace Sys2Proof.Machine
variable {s0 s t u : State} {b n v : Nat} {f : Field}

/-- The domains' work, the committed image and Strata are as before. -/
abbrev DrainKeeps (s t : State) : Prop := Keeps (fun s => (s.pwr, s.led.com, s.str)) [] s t

theorem drainLateral : Lateral (fun s => (s.pwr, s.led.com, s.str)) [] where
  fields := List.nil_subset _
  regs _ _ := rfl
  acq _ _ := rfl
  met _ _ := rfl
  aux _ _ := rfl
  strm _ _ := rfl
  rcd _ _ := rfl
  panel _ _ := rfl
  ptp _ _ := rfl
  portA _ _ := rfl
  portB _ _ := rfl
  spi _ _ := rfl
  drega _ _ := rfl
  free _ _ := rfl

theorem drain_postFree : PostFree (fun s => (s.pwr, s.led.com, s.str)) := fun _ _ => rfl

theorem DrainKeeps.wr (h : DrainKeeps s0 s) : DrainKeeps s0 (s.wr f v) := Keeps.wr h rfl

theorem DrainKeeps.wrB (h : DrainKeeps s0 s) {x : Bool} : DrainKeeps s0 (s.wrB f x) := DrainKeeps.wr h

/-! ### Lanes and the calibrator -/

theorem DrainKeeps.calDiscard (h : DrainKeeps s0 s) : DrainKeeps s0 (s.calDiscard n) := by
  unfold State.calDiscard
  extract_lets _ unstaged
  have hu : DrainKeeps s0 unstaged := h.update
  exact .ite h (.ite hu (DrainKeeps.wr (DrainKeeps.wr (DrainKeeps.wr hu))))

/-! ### The accelerators (R129, R139, R141) -/

theorem DrainKeeps.putB32 (h : DrainKeeps s0 s) {fs : List (Nat → Field)} {vs : List Real} : DrainKeeps s0 (s.putB32 b fs vs) := by
  unfold State.putB32
  exact .foldl h fun _ _ _ hu => DrainKeeps.wr hu

theorem DrainKeeps.testLimit {x : State × List Offer} (h : DrainKeeps s0 x.1) {y : Nat × Real × Real} :
    DrainKeeps s0 (State.testLimit b x y).1 := by
  unfold State.testLimit
  extract_lets
  split
  · exact h
  · split
    · exact DrainKeeps.wr h
    · split
      · exact DrainKeeps.wr h
      · exact h

theorem DrainKeeps.testLimits (h : DrainKeeps s0 s) {vs : List Real} : DrainKeeps s0 (s.testLimits b vs) := by
  have hall (l : List (Nat × Real × Real)) (x : State × List Offer) (hx : DrainKeeps s0 x.1) :
      DrainKeeps s0 (l.foldl (State.testLimit b) x).1 := by
    induction l generalizing x with
    | nil => exact hx
    | cons y l ih => exact ih _ (DrainKeeps.testLimit hx)
  unfold State.testLimits
  exact drainLateral.raiseTogether (hall _ (s, []) h)

theorem DrainKeeps.setQual (h : DrainKeeps s0 s) {q : QualLive} : DrainKeeps s0 (s.setQual b q) := h.update

theorem DrainKeeps.closeInterval (h : DrainKeeps s0 s) {upto : Option Nat} {ten short step : Bool} :
    DrainKeeps s0 (s.closeInterval b upto ten short step) := by
  unfold State.closeInterval
  extract_lets _ _ _ _ _ taken _ _ shown _ tens _ threes
  have ht : DrainKeeps s0 taken := h.update
  have hs : DrainKeeps s0 shown := DrainKeeps.putB32 ht
  have h10 : DrainKeeps s0 tens := DrainKeeps.wr (DrainKeeps.wr (DrainKeeps.wrB (DrainKeeps.wrB (DrainKeeps.wrB hs))))
  have h3 : DrainKeeps s0 threes := DrainKeeps.wr (DrainKeeps.wr (DrainKeeps.wrB (DrainKeeps.wrB (DrainKeeps.wrB hs))))
  exact .ite ht (.ite (.ite h10 (DrainKeeps.setQual h10)) (.ite h3 (DrainKeeps.testLimits h3)))

theorem DrainKeeps.closeDue (h : DrainKeeps s0 s) : DrainKeeps s0 (s.closeDue b) := by
  unfold State.closeDue
  split
  · exact h
  next e step rest _ =>
    have ht : DrainKeeps s0 (s.setBay b { s.bay b with closing := rest }) := h.update
    exact .ite h (DrainKeeps.closeInterval (DrainKeeps.closeInterval ht))

set_option Elab.async false in
theorem DrainKeeps.tryTen (h : DrainKeeps s0 s) : DrainKeeps s0 (s.tryTen b) := by
  unfold State.tryTen
  exact .foldl h fun _ _ _ hu => DrainKeeps.closeDue hu

theorem DrainKeeps.writeWindow (h : DrainKeeps s0 s) {j : HarmJob} : DrainKeeps s0 (s.writeWindow j) := by
  unfold State.writeWindow
  extract_lets _ _ _ _ _ thd thdx tdd _ _ _ held flagged shown _ counted
  have ht : DrainKeeps s0 thd := DrainKeeps.putB32 h
  have hx : DrainKeeps s0 thdx := DrainKeeps.putB32 ht
  have hd : DrainKeeps s0 tdd := DrainKeeps.putB32 hx
  have hh : DrainKeeps s0 held := drainLateral.setBay hd
  have hf : DrainKeeps s0 flagged := DrainKeeps.wrB (DrainKeeps.wrB hh)
  have hw : DrainKeeps s0 shown := DrainKeeps.wr (DrainKeeps.wrB hf)
  have hc : DrainKeeps s0 counted := DrainKeeps.wr (.ite hw (DrainKeeps.setQual hw))
  exact DrainKeeps.tryTen (.ite (DrainKeeps.closeInterval hc) hc)

theorem DrainKeeps.accTake (h : DrainKeeps s0 s) {k : Fin 2} : DrainKeeps s0 (s.accTake k) := by
  unfold State.accTake
  refine .ite h ?_
  split
  · exact h
  · exact h.update

theorem DrainKeeps.accComplete (h : DrainKeeps s0 s) {k : Fin 2} : DrainKeeps s0 (s.accComplete k) := by
  unfold State.accComplete
  split
  · exact DrainKeeps.accTake h
  next j _ =>
    have ht : DrainKeeps s0 (s.setAcc k none) := h.update
    exact DrainKeeps.accTake (DrainKeeps.writeWindow ht)

theorem DrainKeeps.accIsolate (h : DrainKeeps s0 s) : DrainKeeps s0 s.accIsolate := by
  have ht : DrainKeeps s0 { s with met := { s.met with queue := [], sa0 := none, sa1 := none } } := h.update
  unfold State.accIsolate State.noService
  exact .foldl ht fun _ _ _ hu => DrainKeeps.tryTen (DrainKeeps.wrB hu)

/-! ### The panel (R422) -/

theorem DrainKeeps.updateShown (h : DrainKeeps s0 s) {w old err : Nat} : DrainKeeps s0 (s.updateShown w old err) := by
  unfold State.updateShown
  extract_lets shown
  have hs : DrainKeeps s0 shown := DrainKeeps.wr (DrainKeeps.wr h)
  exact .ite (drainLateral.raise hs) hs

theorem DrainKeeps.updateDone (h : DrainKeeps s0 s) : DrainKeeps s0 s.updateDone := by
  cases hc : s.panel.cur with
  | none =>
    have he : s.updateDone = s := by simp [State.updateDone, hc]
    rwa [he]
  | some x =>
    obtain ⟨w, src⟩ := x
    have hidle : DrainKeeps s0 (s.updateIdle w) := DrainKeeps.wrB (Keeps.update (DrainKeeps.wrB h))
    rw [State.updateDone_eq hc]
    exact DrainKeeps.updateShown hidle.update

theorem DrainKeeps.panelDrain (h : DrainKeeps s0 s) : DrainKeeps s0 s.panelDrain := by
  unfold State.panelDrain State.dropRequests
  exact .foldl (DrainKeeps.updateDone h) fun _ _ _ hu => DrainKeeps.wr (DrainKeeps.wrB hu)

theorem DrainKeeps.panelOff (h : DrainKeeps s0 s) : DrainKeeps s0 s.panelOff := by
  unfold State.panelOff
  exact .ite (DrainKeeps.wrB h) (DrainKeeps.wr (DrainKeeps.wrB h))

/-! ### A domain -/

theorem State.baysOfDomain_lt (s : State) (d : Nat) : ∀ b ∈ s.baysOfDomain d, b < 16 :=
  fun _ hb => List.mem_range.1 (List.mem_filter.1 hb).1

theorem DrainKeeps.baysDrained (h : DrainKeeps s0 s) {bs : List Nat} (hbs : ∀ b ∈ bs, b < 16) :
    DrainKeeps s0 (bs.foldl State.bayDrain s) :=
  .foldl h fun _ b hb hu => drainLateral.bayDrain drain_postFree hu (hbs b hb)

theorem DrainKeeps.domainDrain (h : DrainKeeps s0 s) {d : Fin 17} : DrainKeeps s0 (s.domainDrain d) := by
  have hbs := s.baysOfDomain_lt d.val
  have hstop {u : State} (hu : DrainKeeps s0 u) {k : Fin 4} : DrainKeeps s0 (u.streamStop k) :=
    drainLateral.streamStop drain_postFree hu
  unfold State.domainDrain
  refine .ite ?lanes (.ite (drainLateral.axStop h) (.ite ?bays (.ite ?standby (.ite ?accelerators (.ite ?portA (.ite ?portB
    (.ite (DrainKeeps.panelOff (DrainKeeps.panelDrain h)) h)))))))
  case lanes =>
    exact drainLateral.refreshAcq (.foldl h fun _ l hl hu =>
      DrainKeeps.calDiscard (drainLateral.laneStop hu (lanesOfDomain_lt _ l hl)))
  case bays => exact .foldl (DrainKeeps.baysDrained h hbs) fun _ b hb hu => drainLateral.bayOff hu (hbs b hb)
  case standby =>
    exact .foldl (DrainKeeps.baysDrained (.foldl h fun _ _ _ hu => hstop hu) hbs) fun _ b hb hu =>
      drainLateral.unhostBay hu (hbs b hb)
  case accelerators => exact DrainKeeps.accIsolate (DrainKeeps.accComplete (DrainKeeps.accComplete h))
  case portA | portB => exact drainLateral.setLink (by simp) (drainLateral.portFlush h)
end Sys2Proof.Machine
end

section
/-!
Switched domains (R406 to R408): commands, and the steps of their sequences.
-/

namespace Sys2Proof.Machine
variable {s t u : State} {d : Fin 17} {p : Path} {f : Field}

/-! ### A domain's bit -/

/-- A bit that is masked out of seventeen reads 0. -/
theorem clearDomain_reads (x : Nat) (d : Fin 17) : (x &&& (0x1FFFF ^^^ 2 ^ d.val)) % 2 ^ 17 / 2 ^ d.val % 2 = 0 := by
  have hmask : (0x1FFFF ^^^ 2 ^ d.val).testBit d.val = false := by
    revert d
    decide
  have h : ((x &&& (0x1FFFF ^^^ 2 ^ d.val)) % 2 ^ 17).testBit d.val = false := by
    rw [Nat.testBit_mod_two_pow, Nat.testBit_and, hmask, Bool.and_false, Bool.and_false]
  simpa [Nat.testBit_eq_decide_div_mod_eq] using h

set_option Elab.async false in
theorem State.domainBit_set (s : State) (hf : f.width = 17 := by rfl) : (s.domainBit f d true).rd f / 2 ^ d.val % 2 = 1 := by
  rw [State.domainBit, State.rd_wr_same, hf]
  exact setBit_reads _ d.isLt

theorem State.domainBit_clear (s : State) (hf : f.width = 17 := by rfl) : (s.domainBit f d false).rd f / 2 ^ d.val % 2 = 0 := by
  rw [State.domainBit, State.rd_wr_same, hf]
  exact clearDomain_reads _ d

theorem State.rd_domainBit_apart (s : State) {g : Field} {b : Bool} (h : f.apart g = true := by decide +kernel) :
    (s.domainBit f d b).rd g = s.rd g := State.rd_wr_apart _ _ h

/-! ### The steps of a sequence (R407) -/

theorem State.drainDone_spec (hd : d ∈ s.pwr.down) (hi : d ∉ s.pwr.isolated) :
    (s.drainDone d).pwr = { s.pwr with isolated := d :: s.pwr.isolated } ∧ (s.drainDone d).led.com = s.led.com ∧
      (s.drainDone d).str = s.str := by
  have hgo : ¬(!s.pwr.down.contains d || s.pwr.isolated.contains d) = true := by simp [hd, hi]
  have hex : s.drainDone d = { s.domainDrain d with
      pwr := { (s.domainDrain d).pwr with isolated := d :: (s.domainDrain d).pwr.isolated } } := if_neg hgo
  obtain ⟨hpwr, hcom, hstr⟩ : _ ∧ _ ∧ _ := by
    simpa only [Prod.mk.injEq] using (DrainKeeps.domainDrain (.refl s) (d := d)).part
  rw [hex]
  exact ⟨by rw [hpwr], hcom, hstr⟩

/-- The domain is off. -/
def State.switchedOff (s : State) (d : Fin 17) : State :=
  (({ s with pwr := { s.pwr with down := s.pwr.down.filter fun x => x ≠ d, isolated := s.pwr.isolated.filter fun x => x ≠ d } } :
    State).domainBit Fld.PWR_ON_ON d false).domainBit Fld.PWR_BUSY_DOMAINS d false

theorem State.offDone_spec (hi : d ∈ s.pwr.isolated) (hp : s.rd Fld.PWR_PEND_DOMAINS / 2 ^ d.val % 2 = 0) :
    (s.offDone d).rd Fld.PWR_ON_ON / 2 ^ d.val % 2 = 0 ∧ (s.offDone d).rd Fld.PWR_BUSY_DOMAINS / 2 ^ d.val % 2 = 0 ∧
      d ∉ (s.offDone d).pwr.down ∧ d ∉ (s.offDone d).pwr.isolated ∧ (s.offDone d).led = s.led := by
  have hex : s.offDone d = (s.switchedOff d).domainEvent d false := by
    have hgo : ¬(!s.pwr.isolated.contains d) = true := by simp [hi]
    have hheld : ¬(decide (s.rd Fld.PWR_PEND_DOMAINS / 2 ^ d.val % 2 = 1) && decide
        (((s.switchedOff d).domainEvent d false).chip ≠ chipFrozen)) = true := by simp [hp]
    unfold State.offDone
    rw [if_neg hgo]
    exact if_neg hheld
  have hk : Keeps (fun s => (s.core, s.pwr, s.led, s.str)) sideFields (s.switchedOff d) ((s.switchedOff d).domainEvent d false) :=
    startLateral.raise (.refl _)
  obtain ⟨-, hpwr, hled, -⟩ : _ ∧ _ ∧ _ ∧ _ := by simpa only [Prod.mk.injEq] using hk.part
  have hdown : (s.switchedOff d).pwr.down = s.pwr.down.filter fun x => x ≠ d := rfl
  have hisolated : (s.switchedOff d).pwr.isolated = s.pwr.isolated.filter fun x => x ≠ d := rfl
  rw [hex, hk.rd _ (by decide), hk.rd _ (by decide), hpwr, hled, hdown, hisolated]
  refine ⟨?_, State.domainBit_clear _, by simp, by simp, rfl⟩
  rw [State.switchedOff, State.rd_domainBit_apart]
  exact State.domainBit_clear _

/-- The domain is on. -/
def State.switchedOn (s : State) (d : Fin 17) : State :=
  (({ s with pwr := { s.pwr with up := s.pwr.up.filter fun x => x ≠ d } } : State).domainBit Fld.PWR_ON_ON d true).domainBit
    Fld.PWR_BUSY_DOMAINS d false

theorem State.onDone_spec (hu : d ∈ s.pwr.up) (ho : d ∉ s.pwr.offAfter) :
    (s.onDone d).rd Fld.PWR_ON_ON / 2 ^ d.val % 2 = 1 ∧ (s.onDone d).rd Fld.PWR_BUSY_DOMAINS / 2 ^ d.val % 2 = 0 ∧
      d ∉ (s.onDone d).pwr.up ∧ (s.onDone d).led = s.led := by
  have hex : s.onDone d = ((s.switchedOn d).domainStart d).domainEvent d true := by
    have hgo : ¬(!s.pwr.up.contains d) = true := by simp [hu]
    have hheld : ¬(s.pwr.offAfter.contains d && decide
        ((((s.switchedOn d).domainStart d).domainEvent d true).chip ≠ chipFrozen)) = true := by simp [ho]
    unfold State.onDone
    rw [if_neg hgo]
    exact if_neg hheld
  have hk : Keeps (fun s => (s.core, s.pwr, s.led, s.str)) sideFields (s.switchedOn d)
      (((s.switchedOn d).domainStart d).domainEvent d true) := startLateral.raise (startLateral.domainStart (.refl _))
  obtain ⟨-, hpwr, hled, -⟩ : _ ∧ _ ∧ _ ∧ _ := by simpa only [Prod.mk.injEq] using hk.part
  have hup : (s.switchedOn d).pwr.up = s.pwr.up.filter fun x => x ≠ d := rfl
  rw [hex, hk.rd _ (by decide), hk.rd _ (by decide), hpwr, hled, hup]
  refine ⟨?_, State.domainBit_clear _, by simp, rfl⟩
  rw [State.switchedOn, State.rd_domainBit_apart]
  exact State.domainBit_set _

/-! ### Commands (R406, R408) -/

/-- The sequence of a command has started, and its RESULT reads 1. -/
def State.sequenceStarted (s : State) (d : Fin 17) (on : Bool) : State :=
  (if on then s.domainUp d else s.domainDown d).wr Fld.PWR_CMD_RESULT 1

theorem State.sequenceStarted_up (s : State) (d : Fin 17) : d ∈ (s.sequenceStarted d true).pwr.up ∧
    (s.sequenceStarted d true).rd Fld.PWR_BUSY_DOMAINS / 2 ^ d.val % 2 = 1 ∧
    (s.sequenceStarted d true).rd Fld.PWR_CMD_RESULT = 1 ∧ (s.sequenceStarted d true).led = s.led := by
  have hup : (s.sequenceStarted d true).pwr.up = d :: s.pwr.up := rfl
  refine ⟨hup ▸ List.mem_cons_self, ?_, State.rd_wr_same .., rfl⟩
  rw [State.sequenceStarted, State.rd_wr_apart _ _ (by decide)]
  exact State.domainBit_set _

theorem State.sequenceStarted_down (s : State) (d : Fin 17) : d ∈ (s.sequenceStarted d false).pwr.down ∧
    (s.sequenceStarted d false).rd Fld.PWR_BUSY_DOMAINS / 2 ^ d.val % 2 = 1 ∧
    (s.sequenceStarted d false).rd Fld.PWR_CMD_RESULT = 1 ∧ (s.sequenceStarted d false).led = s.led := by
  have hdown : (s.sequenceStarted d false).pwr.down = d :: s.pwr.down := rfl
  refine ⟨hdown ▸ List.mem_cons_self, ?_, State.rd_wr_same .., rfl⟩
  rw [State.sequenceStarted, State.rd_wr_apart _ _ (by decide)]
  exact State.domainBit_set _

/-- For a domain it may name, a command whose sequence starts commits its entry first. -/
theorem State.domainCommand_starts {x : Session} {on : Bool} (hd : s.domainOk d.val = true) (hc : s.canCommit)
    (hp : s.domainPlan d on = .start) : ∃ t : State, s.domainCommand x d.val on = (.ok, t.sequenceStarted d on) ∧
      t.led.com.st.aseq = s.led.com.st.aseq + 1 := by
  obtain ⟨hok, haseq⟩ := State.command_aseq hc 0x06 (f := fun b => b.audit 0x31 x.role (keysOne x.key)
    (beBytes 1 d.val ++ beBytes 1 (if on then 1 else 0))) (k := 1) fun b => Build.audit_aseq ..
  obtain ⟨-, -, hwarned, -⟩ := hc
  have hname : Fin.ofNat 17 d.val = d := Fin.ext (Nat.mod_eq_of_lt d.isLt)
  unfold State.domainCommand
  rw [if_neg (by simp [hd]), if_neg (by simp [hwarned])]
  dsimp only
  rw [hname, hp]
  generalize s.command 0x06 _ = c at *
  obtain ⟨ok, u⟩ := c
  obtain rfl : ok = true := hok
  exact ⟨{ u with pwr := { u.pwr with byImage := u.pwr.byImage.filter fun y => y ≠ d } }, by cases on <;> rfl, haseq⟩

theorem pwrWord_fields (cmd : Nat) (hcmd : cmd < 3) (d : Fin 17) : bitsOf (pwrWord cmd (BitVec.ofNat 5 d.val)).toNat 28 4 = cmd ∧
    bitsOf (pwrWord cmd (BitVec.ofNat 5 d.val)).toNat 0 5 = d.val := by
  decide +revert +kernel

/-- The command is named before its tests. -/
def State.domainNamed (s : State) (d : Fin 17) : State := s.wr Fld.PWR_CMD_DOMAIN d.val

theorem State.domainNamed_plan (s : State) (d : Fin 17) (on : Bool) : (s.domainNamed d).domainPlan d on = s.domainPlan d on := by
  have hon : (s.domainNamed d).rd Fld.PWR_ON_ON = s.rd Fld.PWR_ON_ON := State.rd_wr_apart _ _ (by decide)
  have hpend : (s.domainNamed d).rd Fld.PWR_PEND_DOMAINS = s.rd Fld.PWR_PEND_DOMAINS := State.rd_wr_apart _ _ (by decide)
  have hpwr : (s.domainNamed d).pwr = s.pwr := rfl
  unfold State.domainPlan
  rw [hon, hpend, hpwr]

theorem State.wPwrCmd_on {x : Session} (hg : s.gate p roleService true = .pass x) (d : Fin 17) :
    s.wPwrCmd p (pwrWord 1 (BitVec.ofNat 5 d.val)) = (s.domainNamed d).domainCommand x d.val true := by
  obtain ⟨hcmd, hdom⟩ := pwrWord_fields 1 (by decide) d
  unfold State.wPwrCmd
  rw [hcmd, hdom]
  dsimp only
  rw [show (decide (1 = 1) || decide (1 = 2)) = true from rfl, hg]
  rfl

theorem State.wPwrCmd_off {x : Session} (hg : s.gate p roleService true = .pass x) (d : Fin 17) :
    s.wPwrCmd p (pwrWord 2 (BitVec.ofNat 5 d.val)) = (s.domainNamed d).domainCommand x d.val false := by
  obtain ⟨hcmd, hdom⟩ := pwrWord_fields 2 (by decide) d
  unfold State.wPwrCmd
  rw [hcmd, hdom]
  dsimp only
  rw [show (decide (2 = 1) || decide (2 = 2)) = true from rfl, hg]
  rfl

/-- Settles O53: a command by `State.domainCommand_starts`, the steps of a sequence by `State.drainDone_spec`, `State.offDone_spec` and
`State.onDone_spec`. -/
theorem powerDomains : Obligations.PowerDomains := by
  unfold Obligations.PowerDomains
  refine fun s d => ⟨fun p x hr hg hd hc => ⟨fun hp => ?on, fun hp => ?off⟩, fun hd hi => ?drain, fun hi hp => ?switchedOff,
    fun hu ho => ?switchedOn⟩
  case on =>
    obtain ⟨t, ht, haseq⟩ := State.domainCommand_starts (x := x) (s := s.domainNamed d) hd hc.wr ((s.domainNamed_plan d true).trans hp)
    obtain ⟨hup, hbusy, hresult, hled⟩ := t.sequenceStarted_up d
    refine ⟨t.sequenceStarted d true, congrArg Host.Outcome.next ((State.host_of_running hr).trans ?_), hup, hbusy, hresult, ?_⟩
    · rw [State.wPwrCmd_on hg, ht]
    · rw [hled, haseq]
      rfl
  case off =>
    obtain ⟨t, ht, haseq⟩ := State.domainCommand_starts (x := x) (s := s.domainNamed d) hd hc.wr ((s.domainNamed_plan d false).trans hp)
    obtain ⟨hdown, hbusy, hresult, hled⟩ := t.sequenceStarted_down d
    refine ⟨t.sequenceStarted d false, congrArg Host.Outcome.next ((State.host_of_running hr).trans ?_), hdown, hbusy, hresult, ?_⟩
    · rw [State.wPwrCmd_off hg, ht]
    · rw [hled, haseq]
      rfl
  case drain => exact ⟨s.drainDone d, rfl, State.drainDone_spec hd hi⟩
  case switchedOff => exact ⟨s.offDone d, rfl, State.offDone_spec hi hp⟩
  case switchedOn => exact ⟨s.onDone d, rfl, State.onDone_spec hu ho⟩
end Sys2Proof.Machine
end

section
/-!
An image of a live load in force (R402, R403): what the ledger, the recorder, the lock and detections leave of it. The state holds no
accepted image, the loader is idle, and BAY_UDIN of each bay reads what the image gave it.
-/

namespace Sys2Proof.Machine
variable {ud : Nat → Nat} {s t u : State} {n v : Nat} {f : Field}

/-! ### The image in force -/

/-- No image waits, the loader is idle, and BAY_UDIN of each bay reads as given. -/
structure InForce (ud : Nat → Nat) (s : State) : Prop where
  accepted : s.ldr.accepted = none
  loader : s.rd Fld.CFG_STATUS_LOADER = ldIdle
  udin : ∀ b < 16, s.rd (Fld.BAY_UDIN_VALUE b) = ud b

/-- The fields by which an image in force shows. -/
abbrev liveFields : List Field := Fld.CFG_STATUS_LOADER :: (List.range 16).map Fld.BAY_UDIN_VALUE

/-- An operation that leaves these fields and the accepted image. -/
abbrev LiveKeeps (s t : State) : Prop := Keeps (fun s => s.ldr.accepted) liveFields s t

theorem liveLateral : Lateral (fun s => s.ldr.accepted) liveFields where
  fields := by decide +kernel
  regs _ _ := rfl
  acq _ _ := rfl
  met _ _ := rfl
  aux _ _ := rfl
  strm _ _ := rfl
  rcd _ _ := rfl
  panel _ _ := rfl
  ptp _ _ := rfl
  portA _ _ := rfl
  portB _ _ := rfl
  spi _ _ := rfl
  drega _ _ := rfl
  free _ _ := rfl

set_option Elab.async false in
theorem live_postFree : PostFree (fun s => s.ldr.accepted) := fun _ _ => rfl

theorem live_xrefRate : Fld.MT_XREF_RATE ∉ liveFields := by decide +kernel

theorem InForce.keeps (h : InForce ud s) (k : LiveKeeps s t) : InForce ud t where
  accepted := k.part.trans h.accepted
  loader := (k.rd _ (List.mem_cons_self ..)).trans h.loader
  udin b hb := (k.rd _ (List.mem_cons_of_mem _ (List.mem_map.2 ⟨b, List.mem_range.2 hb, rfl⟩))).trans (h.udin b hb)

/-- A state with the same registers and the same accepted image. -/
theorem InForce.update (h : InForce ud s) (hl : t.ldr.accepted = s.ldr.accepted := by rfl) (hr : t.regs = s.regs := by rfl) :
    InForce ud t := h.keeps (.update (.refl s) hl hr)

theorem InForce.ite {c : Prop} [Decidable c] (hs : InForce ud s) (ht : InForce ud t) : InForce ud (if c then s else t) := by
  split <;> assumption

theorem InForce.foldl {β : Type} {g : State → β → State} {l : List β} (h : InForce ud s)
    (hg : ∀ u, ∀ x ∈ l, InForce ud u → InForce ud (g u x)) : InForce ud (l.foldl g s) := by
  induction l generalizing s with
  | nil => exact h
  | cons x l ih => exact ih (hg _ x (by simp) h) fun u y hy => hg u y (by simp [hy])

theorem InForce.iterate {g : State → State} (h : InForce ud s) (hg : ∀ u, InForce ud u → InForce ud (g u)) (n : Nat) :
    InForce ud (Nat.iterate g n s) := by
  induction n generalizing s with
  | zero => exact h
  | succ n ih => exact ih (hg s h)

theorem InForce.wr (h : InForce ud s) (hf : f.offSide = true := by decide +kernel) : InForce ud (s.wr f v) :=
  h.keeps (liveLateral.wr (.refl s) hf)

theorem InForce.wrB (h : InForce ud s) {b : Bool} (hf : f.offSide = true := by decide +kernel) : InForce ud (s.wrB f b) := h.wr hf

theorem InForce.wrS (h : InForce ud s) {x : Int} (hf : f.offSide = true := by decide +kernel) : InForce ud (s.wrS f x) := h.wr hf

theorem InForce.count (h : InForce ud s) (hf : f.offSide = true := by decide +kernel) : InForce ud (s.count f n) := h.wr hf

theorem InForce.wrap (h : InForce ud s) (hf : f.offSide = true := by decide +kernel) : InForce ud (s.wrap f) := h.wr hf

set_option Elab.async false in
theorem InForce.irq (h : InForce ud s) (hf : f.offSide = true := by decide +kernel) : InForce ud (s.irq f) := h.wr hf

theorem InForce.drawn (h : InForce ud s) : InForce ud s.drawn := h.update

theorem InForce.alert (h : InForce ud s) {b : Bool} (hf : f.offSide = true := by decide +kernel) : InForce ud (s.alert f b) := by
  unfold State.alert
  extract_lets shown
  have hs : InForce ud shown := h.wrB hf
  exact .wrB (.ite (.irq hs) hs)

/-! ### The recorder -/

theorem InForce.lastResort (h : InForce ud s) {e : Event} : InForce ud (s.lastResort e) :=
  h.keeps (liveLateral.lastResort (.refl s))

theorem InForce.setRcd (h : InForce ud s) {r : Recorder} : InForce ud (s.setRcd r) := h.keeps (liveLateral.setRcd (.refl s))

theorem InForce.suppress (h : InForce ud s) {code : Nat} : InForce ud (s.suppress code) := h.keeps (liveLateral.suppress (.refl s))

theorem InForce.raise (h : InForce ud s) {code source : Nat} {payload : List Byte} : InForce ud (s.raise code source payload) :=
  h.keeps (liveLateral.raise (.refl s))

theorem InForce.raiseFront (h : InForce ud s) {code source : Nat} {payload : List Byte} :
    InForce ud (s.raiseFront code source payload) := by
  unfold State.raiseFront
  extract_lets _ displaced
  have hd : InForce ud displaced := by
    unfold displaced
    split
    · exact .count (.suppress (.setRcd h))
    · exact h
  exact .ite h (.ite (.ite (.lastResort h) (.count h)) (.setRcd hd))

theorem InForce.endFreeze (h : InForce ud s) : InForce ud s.endFreeze := by
  unfold State.endFreeze
  extract_lets
  split
  · exact h
  · exact .wr (.wrB (.setRcd h))

theorem InForce.chipFreezeEvent (h : InForce ud s) : InForce ud s.chipFreezeEvent := by
  unfold State.chipFreezeEvent
  extract_lets _ ended
  have he : InForce ud ended := .endFreeze h
  exact .ite (.lastResort he) (.raiseFront he)

/-! ### Loads (R398, R403) -/

theorem InForce.loadRefuse (h : InForce ud s) {slot : Nat} {live : Bool} {result addr : Nat} {tested : Bool} :
    InForce ud (s.loadRefuse slot live result addr tested) := by
  unfold State.loadRefuse State.loadReport
  extract_lets _ shown
  have hs : InForce ud shown := .wr (.wrB (.wr (.wr h)))
  exact .raise (.irq (.ite (.count hs) hs))

/-- A live load that ends leaves the loader idle. -/
theorem InForce.liveEnd (h : InForce ud s) {l : Load} {result addr : Nat} {tested : Bool} :
    InForce ud (s.liveEnd l result addr tested) := by
  have hidle : InForce ud (({ s with ldr := { s.ldr with cur := none } } : State).wr Fld.CFG_STATUS_LOADER ldIdle) := by
    have hended : InForce ud { s with ldr := { s.ldr with cur := none } } := h.update
    have hkept : ∀ g ∈ (List.range 16).map Fld.BAY_UDIN_VALUE, Fld.CFG_STATUS_LOADER.apart g = true := by decide +kernel
    exact ⟨hended.accepted, State.rd_wr_same .., fun b hb => (State.rd_wr_apart _ _ (hkept _ (List.mem_map.2
      ⟨b, List.mem_range.2 hb, rfl⟩))).trans (hended.udin b hb)⟩
  unfold State.liveEnd
  exact .loadRefuse hidle

theorem InForce.loadAbandon (h : InForce ud s) : InForce ud s.loadAbandon := by
  unfold State.loadAbandon
  extract_lets
  split
  · exact h
  · exact .ite (.liveEnd h) (.loadRefuse (.update h))

theorem InForce.loadLocked (h : InForce ud s) : InForce ud s.loadLocked := by
  unfold State.loadLocked
  split
  · exact h
  · exact .ite (.liveEnd h) h

/-! ### The lock and detections (R289 to R298) -/

set_option Elab.async false in
theorem InForce.refreshActive (h : InForce ud s) : InForce ud s.refreshActive := .wr h

theorem InForce.refreshTamperAlert (h : InForce ud s) : InForce ud s.refreshTamperAlert := .wrB (.alert h)

theorem InForce.setFlint (h : InForce ud s) : InForce ud (s.setFlint v) := by
  unfold State.setFlint
  extract_lets _ _ shown
  have hs : InForce ud shown := .wrB (.wrB (.wr h))
  exact .ite hs (.irq hs)

theorem InForce.enqueue (h : InForce ud s) {ts : List Txn} : InForce ud (s.enqueue ts) := h.update

theorem InForce.queueLock (h : InForce ud s) : InForce ud s.queueLock := .ite (.enqueue h) h

theorem InForce.engaged (h : InForce ud s) : InForce ud (s.engaged n) := by
  have hlocked : InForce ud { s with bk := { s.bk with lock := true }, tmp := { s.tmp with engageSrc := n } } := h.update
  unfold State.engaged
  exact .update (.setFlint hlocked)

theorem InForce.engage (h : InForce ud s) : InForce ud (s.engage n) := by
  cases hl : s.locked with
  | true => rwa [State.engage, if_pos hl]
  | false =>
    have he : s.engage n = (((s.engaged n).raise 0x82 0xFF
        (beBytes 4 ((s.engaged n).rd Fld.TMP_STICKY_ALL))).queueLock).loadLocked := if_neg (by simp [hl])
    rw [he]
    exact .loadLocked (.queueLock (.raise (.engaged h)))

theorem InForce.acknowledge (h : InForce ud s) {mask : Nat} {lock : Bool} : InForce ud (s.acknowledge mask lock) :=
  .ite (.update h) (.wr h)

theorem InForce.respond (h : InForce ud s) {srcs : List Nat} {i : DetectInfo} : InForce ud (s.respond srcs i) := by
  unfold State.respond
  extract_lets _ _ recorded alerted
  have hr : InForce ud recorded := .ite (.foldl h fun _ _ _ hu => .raise hu) h
  have ha : InForce ud alerted := .refreshTamperAlert hr
  exact .acknowledge (.ite (.engage ha) ha)

theorem InForce.detect (h : InForce ud s) {srcs : List Nat} {i : DetectInfo} : InForce ud (s.detect srcs i) := by
  unfold State.detect State.setFlags
  extract_lets _ _ _ sticky light flagged counted
  have hf : InForce ud flagged := .wr (.wr (.wr h))
  have hc : InForce ud counted := .count hf
  exact .ite h (.ite (.ite (.respond hc) hc) (.ite (.wrB hf) hf))

theorem InForce.unlockEffect (h : InForce ud s) : InForce ud s.unlockEffect := by
  unfold State.unlockEffect
  extract_lets _ _ cleared unlocked
  have hc : InForce ud cleared := h.update
  have hu : InForce ud unlocked := .setFlint hc
  generalize unlocked.keptFlags = kept
  obtain ⟨m, l⟩ := kept
  dsimp only
  exact .detect (.refreshTamperAlert (.wr (.wr (.wr hu))))

/-! ### Containment and banks (R39, R43, R237) -/

theorem InForce.setChip (h : InForce ud s) : InForce ud (s.setChip v) := by
  unfold State.setChip
  extract_lets shown
  have hs : InForce ud shown := .wr h
  exact .ite hs (.irq hs)

set_option Elab.async false in
theorem InForce.escRecord (h : InForce ud s) {level region block cell cause error : Nat} :
    InForce ud (s.escRecord level region block cell cause error) := .raise (.wr (.wr h))

theorem InForce.escFail (h : InForce ud s) {region block cell error : Nat} : InForce ud (s.escFail region block cell error) :=
  .escRecord (.escRecord h)

theorem InForce.freezeLedger (h : InForce ud s) : InForce ud s.freezeLedger := by
  unfold State.freezeLedger
  exact .wr (.update h)

theorem InForce.twinSend (h : InForce ud s) {type : Nat} {payload : List Byte} : InForce ud (s.twinSend type payload) := h.update

theorem InForce.regionFail (h : InForce ud s) {region block cell error : Nat} :
    InForce ud (s.regionFail region block cell error) := by
  unfold State.regionFail
  extract_lets _ noted _ _ failed _ chip frozen sole counted recorded ended
  have hw : InForce ud noted := .wr h
  have hf : InForce ud failed := hw.update
  have hc : InForce ud chip := .setChip hf.update
  have hz : InForce ud frozen := .alert (.freezeLedger hc)
  have hs : InForce ud sole := .ite (.twinSend hz) hz
  have hn : InForce ud counted := .count hs
  have hr : InForce ud recorded := .escFail hn
  have he : InForce ud ended := .chipFreezeEvent (.loadAbandon hr)
  exact .ite (.ite (.escFail hf.update) hf) (.wrB he.update)

theorem InForce.escRegion (h : InForce ud s) {region : Nat} : InForce ud (s.escRegion region) := by
  unfold State.escRegion
  exact .count (.wr h)

theorem InForce.areaDies (h : InForce ud s) {area : Nat} : InForce ud (s.areaDies area) := by
  unfold State.areaDies
  split
  · exact .regionFail (.escRegion (.raise h))
  · exact .raise (.alert h)
  · exact .alert (.raise h)
  · exact .raise h

theorem InForce.audBankEntry (h : InForce ud s) : InForce ud s.audBankEntry := by
  unfold State.audBankEntry
  extract_lets
  split
  · exact h
  · exact .ite h (.enqueue h)

theorem InForce.markBank (h : InForce ud s) {x : BankFail} : InForce ud (s.markBank x) := by
  unfold State.markBank
  extract_lets _ _ _ held banks last cause single dead
  have hh : InForce ud held := h.update
  have hb : InForce ud banks := .wr hh
  have hl : InForce ud last := .wr (.wr hb)
  have hc : InForce ud cause := .ite (.count hl) hl
  have hs : InForce ud single := .wr hc
  have hd : InForce ud dead := .wr hs
  exact .ite (.wr hd) (.ite (.wr hd) hd)

theorem InForce.bankFail (h : InForce ud s) {x : BankFail} : InForce ud (s.bankFail x) := by
  unfold State.bankFail
  extract_lets _ _ marked ended _ raised _ entered
  have hm : InForce ud marked := .markBank h
  have he : InForce ud ended := .ite (.endFreeze hm) hm
  have hr : InForce ud raised := .raise he
  have hn : InForce ud entered := .ite (.audBankEntry hr.update) hr
  exact .ite h (.ite (.count (.count h)) (.ite (.areaDies hn) hn))

theorem InForce.meetFault (h : InForce ud s) : InForce ud s.meetFault := by
  unfold State.meetFault
  split
  · exact h
  · exact .bankFail h

/-! ### What a commit shows (R193, R226 to R228) -/

theorem InForce.refreshTariff (h : InForce ud s) : InForce ud s.refreshTariff := by
  unfold State.refreshTariff
  extract_lets _ _ _ _ shown
  have hs : InForce ud shown := .wrB (.wrB (.wr (.wr h)))
  split
  · exact hs
  · exact .wrS (.wr (.wr (.wr (.wrB (.wrB hs)))))

theorem InForce.setTimeSrc (h : InForce ud s) : InForce ud (s.setTimeSrc v) := by
  unfold State.setTimeSrc
  extract_lets shown
  have hs : InForce ud shown := .wr h
  exact .ite hs (.irq hs)

set_option Elab.async false in
theorem InForce.refresh (h : InForce ud s) : InForce ud s.refresh := by
  unfold State.refresh
  exact .refreshTariff (.setTimeSrc (.foldl (.wr (.wr (.wr (.wr (.wr (.wr (.wr (.wr (.wr (.wr (.wr (.wr (.wr (.wr (.wrS
    (.wrB (.wr (.wr h)))))))))))))))))) fun _ _ hk hu => .wr hu (offSide_of_lt (List.mem_range.1 hk))))

theorem InForce.lgKeep (h : InForce ud s) : InForce ud s.lgKeep := h.update

theorem InForce.showLive (h : InForce ud s) : InForce ud s.showLive := by
  have hl : InForce ud { s with led := { s.led with live := s.led.com } } := h.update
  exact .lgKeep hl.refresh

theorem InForce.maybeCompact (h : InForce ud s) : InForce ud s.maybeCompact := by
  unfold State.maybeCompact
  exact .ite (.wrB h.update) h

theorem InForce.commitTxn (h : InForce ud s) {us : Nat} {x : Txn} : InForce ud (s.commitTxn us x) := by
  unfold State.commitTxn State.refreshJournal
  exact .maybeCompact (.wr (.wr (.wrB (.wr (.wr (.wr h.update))))))

theorem InForce.copyDone (h : InForce ud s) : InForce ud s.copyDone := by
  unfold State.copyDone
  split
  · exact h
  next c cs _ =>
    have hu : InForce ud { s with str := copyHome s.fuses.uid s.str c.entry, led := { s.led with copies := cs } } := h.update
    exact .maybeCompact (.wr (.wr (.wrB (.ite (.count hu) hu))))

theorem InForce.snapDone (h : InForce ud s) : InForce ud s.snapDone :=
  .iterate h (fun _ hu => .ite (.copyDone hu) hu) _

/-! ### A tick that has committed (R217, R373, R420) -/

theorem InForce.contribSend (h : InForce ud s) {old : Ledger} : InForce ud (s.contribSend old) := by
  unfold State.contribSend
  exact .ite h (.ite (.ite h h.update) (.ite h.update h))

theorem InForce.pairTick (h : InForce ud s) {own peer : List TwinBay} : InForce ud (s.pairTick own peer) := by
  unfold State.pairTick
  refine .foldl h fun u x _ hu => ?_
  obtain ⟨⟨o, p⟩, n⟩ := x
  exact .ite (.count hu) hu.update

theorem InForce.matchTick (h : InForce ud s) {k : Nat} : InForce ud (s.matchTick k) := by
  unfold State.matchTick
  split
  · exact .ite h (.update (.pairTick h))
  · exact h

theorem InForce.deltaSend (h : InForce ud s) {old : Ledger} : InForce ud (s.deltaSend old) := by
  unfold State.deltaSend
  extract_lets _ _ sent
  have hs : InForce ud sent := .twinSend h
  exact .ite h (.matchTick hs.update)

theorem InForce.panelRequest (h : InForce ud s) (hn : n < 8) : InForce ud (s.panelRequest n) :=
  h.keeps (liveLateral.panelRequest (.refl s) hn)

theorem InForce.tickLive (h : InForce ud s) : InForce ud s.tickLive := by
  unfold State.tickLive State.panelTick
  extract_lets _ _ _ taken shown counted
  have ht : InForce ud taken := h.update
  have hs : InForce ud shown := .wrB (.refresh ht)
  have hc : InForce ud counted := .lgKeep (.irq (.wrap hs))
  exact .foldl (.deltaSend (.contribSend hc)) fun _ _ hm hu => .ite (.panelRequest hu (List.mem_range.1 hm)) hu

theorem InForce.deferredUnlock (h : InForce ud s) {us : Nat} {roles keys : BitVec 8} :
    InForce ud (s.deferredUnlock us roles keys) := by
  unfold State.deferredUnlock
  extract_lets _ committed
  have hc : InForce ud committed := .commitTxn (.setFlint h)
  exact .unlockEffect (.showLive hc.update)

theorem InForce.lockCommitted (h : InForce ud s) {us : Nat} : InForce ud (s.committed us .lockEngage) := by
  unfold State.committed
  extract_lets _ _ shown _ flint _ acked
  have hs : InForce ud shown := .showLive h
  have ha : InForce ud acked := .acknowledge (.update (.ite (.setFlint hs) hs))
  change InForce ud (match acked.sec.unlockDeferred with
    | some (r, k) => acked.deferredUnlock us r k
    | none => acked)
  split
  · exact .deferredUnlock ha
  · exact ha

theorem InForce.committed (h : InForce ud s) {us : Nat} {a : TxnAct} : InForce ud (s.committed us a) := by
  cases a with
  | tick last =>
    cases last with
    | true => exact .tickLive h
    | false => exact .wr (.wr h)
  | final =>
    have ht : InForce ud { s with led := { s.led with liveTseq := s.str.tseq } } := h.update
    exact .showLive ht
  | outage last =>
    have ht : InForce ud { s with led := { s.led with liveTseq := s.str.tseq, liveOutage := true, afterOutage := true } } := h.update
    exact .ite (.lgKeep (.wrB (.wrB (.showLive ht)))) (.wr (.wr h))
  | lockEngage => exact .lockCommitted h
  | audBankFail => exact .showLive h
  | command => exact .showLive h

theorem InForce.commitHead (h : InForce ud s) {us : Nat} : InForce ud (s.commitHead us) := by
  unfold State.commitHead
  split
  · exact h
  next x xs _ =>
    have ht : InForce ud { s with led := { s.led with queue := xs } } := h.update
    exact .ite h (.committed (.commitTxn ht))

set_option Elab.async false in
theorem InForce.drain (h : InForce ud s) : InForce ud s.drain :=
  .iterate h (fun _ hu => .drawn (.commitHead (.meetFault (.snapDone hu)))) _

theorem InForce.command (h : InForce ud s) {kind : Nat} {g : Build → Build} : InForce ud (s.command kind g).2 := by
  unfold State.command
  split
  · exact h
  extract_lets met
  have hm : InForce ud met := .meetFault (.snapDone (.drain h))
  split
  · exact .drawn hm
  · exact .drawn (.showLive (.commitTxn hm))

end Sys2Proof.Machine
end

section
/-!
Live loads (R402, R403): LOAD and LOAD_RESET, and an image of a live load that takes effect.
-/

namespace Sys2Proof.Machine
variable {ud : Nat → Nat} {s t u old : State} {b n v : Nat} {p : Path}

/-! ### Detections and the fuses (R302, R425) -/

theorem InForce.lsgFuse (h : InForce ud s) : InForce ud s.lsgFuse := by
  unfold State.lsgFuse
  extract_lets new
  have hc := InForce.command h (kind := 0x06) (g := fun b => b.audit 0x19 0 keysNone (beBytes 1 new.toNat))
  refine .ite h ?_
  generalize s.command 0x06 _ = c at *
  obtain ⟨ok, u⟩ := c
  cases ok with
  | false => exact hc
  | true => exact .refreshActive (.update hc)

theorem InForce.tamperDetection (h : InForce ud s) {srcs : List (Fin 33)} (hs : 32 ∉ srcs) {enc : BitVec 4} {machine code : Nat} :
    InForce ud (s.tamperDetection srcs enc machine code) := by
  have henc : InForce ud { s with tmp := { s.tmp with enc } } := h.update
  have hpins : InForce ud (s.pinsTaken enc) := by
    unfold State.pinsTaken State.encSettle
    exact .refreshActive henc.update
  have hbegun (new : List Nat) : InForce ud ((s.pinsTaken enc).condBegin new) := .refreshActive hpins.update
  rw [State.tamperDetection_eq hs]
  exact .detect (hbegun _)

theorem InForce.crackSettle (h : InForce ud s) : InForce ud s.crackSettle := by
  have hoff : InForce ud ({ s with panel := { s.panel with crack := 0, crackAt := none } } : State) := h.update
  have hend {u : State} (hu : InForce ud u) : InForce ud (u.condEnd 31) := by
    unfold State.condEnd
    extract_lets _ _ pins
    have hp : InForce ud pins := hu.update
    exact .refreshActive hp.update
  unfold State.crackSettle
  exact .ite (hend (.wr hoff)) (.ite (.tamperDetection h (by decide)) h)

/-! ### Acquisition and metering at the boundary (R331, R402) -/

theorem InForce.calFineGain (h : InForce ud s) (hn : n < 76) : InForce ud (s.calFineGain n) := by
  unfold State.calFineGain
  extract_lets
  exact .wrB h.update (offSide_of_lt hn)

theorem InForce.reloadLane (h : InForce ud s) (hn : n < 76) : InForce ud (s.reloadLane old n) := by
  unfold State.reloadLane
  extract_lets _ _ gained
  have hg : InForce ud gained := .ite (.calFineGain h hn) h
  have hstop := hg.keeps (liveLateral.laneStop (.refl _) hn)
  have hstart := hg.keeps (liveLateral.laneStart (.refl _) hn)
  have hcount : InForce ud (gained.laneCount n) := hg.keeps (liveLateral.breakWindow (liveLateral.laneInvalid (.refl _) hn))
  exact .ite hg (.ite hstop (.ite hg (.ite hstart (.ite hcount hg))))

theorem InForce.reloadBay (h : InForce ud s) (hb : b < 16) : InForce ud (s.reloadBay old b) := by
  have hoff := h.keeps (liveLateral.bayOff (liveLateral.bayDrain live_postFree (.refl s) hb) hb)
  have hcut {y : Bay} {epoch : Real} : InForce ud ((s.setBay b y).cutCycle b epoch trkFree) :=
    h.keeps (liveLateral.cutCycle (liveLateral.setBay (.refl s)))
  unfold State.reloadBay
  exact .ite hoff (.ite hcut h)

theorem InForce.reloadPulse (h : InForce ud s) (hn : n < 16) : InForce ud (s.reloadPulse old n) := by
  have hset {x : Pulse} : InForce ud (s.setPulse n x) := h.update
  unfold State.reloadPulse State.pulseClear
  exact .ite (.wr hset (offSide_of_lt hn)) h

theorem InForce.inputRestart (h : InForce ud s) (hn : n < 8) {mode : Bool} : InForce ud (s.inputRestart n mode) := by
  unfold State.inputRestart
  extract_lets counted
  have hc : InForce ud counted := .ite (.wr (.wr h (offSide_of_lt hn)) (offSide_of_lt hn)) h
  exact hc.update

theorem InForce.reloadAux (h : InForce ud s) : InForce ud (s.reloadAux old) := by
  unfold State.reloadAux
  extract_lets channels inputs
  have hc : InForce ud channels := .foldl h fun _ _ _ hu => .ite hu.update hu
  have hi : InForce ud inputs := .foldl hc fun _ _ hm hu => .ite (.inputRestart hu (List.mem_range.1 hm)) hu
  exact hi.keeps (liveLateral.refreshExc (.refl _))

theorem InForce.reloadStream (h : InForce ud s) {k : Fin 4} : InForce ud (s.reloadStream old k) := by
  unfold State.reloadStream State.streamReload
  extract_lets _ _ _ _ _ _ set reloaded
  have hs : InForce ud set := h.update
  have hr : InForce ud reloaded := .ite hs hs.update
  exact .ite (.ite (hr.keeps (liveLateral.streamStart (.refl _) k.isLt)) hr)
    (hr.keeps (liveLateral.streamStop live_postFree (.refl _)))

/-! ### Ports, PTP, the ring, the twin and the domains at the boundary (R331, R403) -/

theorem InForce.reloadPort (h : InForce ud s) {k : Fin 2} : InForce ud (s.reloadPort old k) := by
  have hflushed : InForce ud (s.portFlush k) := h.keeps (liveLateral.portFlush (.refl s))
  unfold State.reloadPort
  extract_lets
  exact .ite h (hflushed.keeps (liveLateral.setLink live_xrefRate (liveLateral.setPort (.refl _))))

theorem InForce.reloadPtp (h : InForce ud s) : InForce ud (s.reloadPtp old) := by
  unfold State.reloadPtp
  extract_lets unlocked _ _ started slave
  have hu : InForce ud unlocked := .ite (h.keeps (liveLateral.ptpUnlock live_xrefRate (.refl s))) h
  have hleft : InForce ud unlocked.ptpLeave := hu.keeps (liveLateral.ptpLeave live_xrefRate (.refl _))
  have hstart : InForce ud unlocked.ptpLeave.ptpStart := by
    unfold State.ptpStart State.refreshUtc
    exact .wrB (.wrB (.wrS (.wrB (.wr (.wrB hleft)))))
  have hs : InForce ud started := .ite hstart (hu.keeps (liveLateral.refreshUtc (.refl _)))
  have hv : InForce ud slave := .ite (.wr hs) hs
  exact .wrB hv

theorem InForce.ringReady (h : InForce ud s) : InForce ud s.ringReady := by
  have hsearch {u : State} (hu : InForce ud u) : InForce ud u.ringSearch := by
    unfold State.ringSearch State.discoverTo
    extract_lets _ searching
    have hs : InForce ud searching := .wr hu.update
    exact .ite (.foldl hs fun _ _ _ hx => hx.update) hs
  unfold State.ringReady
  exact .ite (hsearch (.wr h)) h

theorem InForce.setTwin (h : InForce ud s) : InForce ud (s.setTwin v) := by
  unfold State.setTwin
  extract_lets shown
  have hs : InForce ud shown := .wr h
  exact .ite hs (.irq hs)

set_option Elab.async false in
theorem InForce.twinReady (h : InForce ud s) : InForce ud s.twinReady := by
  have hwait : InForce ud ((s.setTwin twWait).wrB Fld.SYS_STATUS_SINGLE true) := .wrB (.setTwin h)
  unfold State.twinReady State.helloSend
  exact .ite (.ite hwait (.twinSend hwait)) h

theorem InForce.reloadLinks (h : InForce ud s) : InForce ud (s.reloadLinks old) := by
  unfold State.reloadLinks
  extract_lets ring site
  have hr : InForce ud ring := .ite h (.ite (.ite (.ringReady h) h) (.wr h))
  have hs : InForce ud site := .ite hr (hr.keeps (liveLateral.setWord (.refl _) (by decide)))
  exact .ite hs (.ite (.ite (.twinReady hs) hs) (.wrB (.setTwin hs)))

/-- A domain's sequence changes the bits of PWR alone. -/
theorem InForce.domainBit (h : InForce ud s) {f : Field} {d : Fin 17} {x : Bool} (hf : liveFields.all f.apart = true := by decide +kernel) :
    InForce ud (s.domainBit f d x) := h.keeps (.wr (.refl s) hf)

theorem InForce.domainImage (h : InForce ud s) {d : Fin 17} {on : Bool} : InForce ud (s.domainImage d on) := by
  unfold State.domainImage State.domainDo
  refine .ite h ?_
  extract_lets _ _ named held
  have hn : InForce ud named := .ite h h.update
  have hh : InForce ud held := .domainBit hn
  have hup : InForce ud (named.domainUp d) := .domainBit (hn.update)
  have hdown : InForce ud (named.domainDown d) := .domainBit (hn.update)
  split
  · exact hn
  · exact .ite hup hdown
  · exact .ite hh hh.update
  · exact .domainBit hn.update

theorem InForce.reloadPower (h : InForce ud s) : InForce ud (s.reloadPower old) := by
  unfold State.reloadPower
  exact .foldl h fun _ _ _ hu => .ite hu (.domainImage hu)

theorem InForce.panelReload (h : InForce ud s) {changed : List Nat} (hc : ∀ w ∈ changed, w < 8) :
    InForce ud (s.panelReload old changed) := by
  unfold State.panelReload
  extract_lets _ _ drawn
  have hd : InForce ud drawn := h.update
  exact .ite h (.foldl hd fun _ w hw hu => .panelRequest hu (hc w hw))

/-! ### The image takes effect (R402, R403) -/

/-- The registers of an image hold what it gives them, each the last word given. -/
theorem storeGet_foldl_storeSet {recs : List (Nat × Word)} {a : Nat} {w : Word} (hu : ∀ x, (a, x) ∈ recs → x = w)
    (m : List (Nat × Word)) (h : storeGet resetWord m a = w ∨ (a, w) ∈ recs) :
    storeGet resetWord (recs.foldl (fun m r => storeSet resetWord m r.1 r.2) m) a = w := by
  induction recs generalizing m with
  | nil => simpa using h
  | cons r recs ih =>
    refine ih (fun x hx => hu x (List.mem_cons_of_mem _ hx)) _ ?_
    by_cases hr : a = r.1
    · have hw : r.2 = w := hu r.2 (by simp [hr])
      rw [hr, storeGet_storeSet_same]
      exact .inl hw
    · rw [storeGet_storeSet_other hr]
      exact h.imp_right fun hm => (List.mem_cons.1 hm).resolve_left fun e => hr (congrArg (·.1) e)

/-- BAY_UDIN as a word and as a field. -/
theorem State.word_udin (s : State) (b : Nat) : (s.word (Adr.BAY_UDIN b)).toNat = s.rd (Fld.BAY_UDIN_VALUE b) := by
  have haddr : (Fld.BAY_UDIN_VALUE b).addr = Adr.BAY_UDIN b := rfl
  have hwords : (Fld.BAY_UDIN_VALUE b).words = 1 := by simp [Field.words, Fld.BAY_UDIN_VALUE]
  have hlo : (Fld.BAY_UDIN_VALUE b).lo = 0 := rfl
  have hwidth : (Fld.BAY_UDIN_VALUE b).width = 32 := rfl
  rw [State.rd, haddr, hwords, hlo, hwidth]
  simp [wordsAt, bitsOf, Nat.mod_eq_of_lt (s.word (Adr.BAY_UDIN b)).isLt]

/-- The registers of an image, before it is in force. -/
theorem State.applyRegs_udin (s : State) (im : Image) (hb : b < 16) :
    (s.applyRegs im).rd (Fld.BAY_UDIN_VALUE b) = (s.withImage im.regs).rd (Fld.BAY_UDIN_VALUE b) := by
  have hkept (x : State) : LiveKeeps x ((List.range 8).foldl (fun s k =>
      (s.wr (Fld.SEC_AUTH_ROLES k) (authRoles im.auth k)).wr (Fld.SEC_AUTH_FLAGS k) (authFlags im.auth k)) x) :=
    .foldl (.refl x) fun _ k hk hu => liveLateral.wr (liveLateral.wr hu (offSide_of_lt (List.mem_range.1 hk)))
      (offSide_of_lt (List.mem_range.1 hk))
  have hsettled (x : State) (sec : SecWork) (bk : Bedrock) : LiveKeeps x ({ x with sec, bk } : State).encSettle :=
    liveLateral.wr (.update (.refl x))
  have hmem : Fld.BAY_UDIN_VALUE b ∈ liveFields := List.mem_cons_of_mem _ (List.mem_map.2 ⟨b, List.mem_range.2 hb, rfl⟩)
  unfold State.applyRegs
  extract_lets written keys
  exact ((hsettled keys _ _).rd _ hmem).trans ((hkept written).rd _ hmem)

/-- The registers of an image come into force: no image waits, and the loader is idle. -/
def State.nowInForce (s : State) : State :=
  ({ s with ldr := { s.ldr with accepted := none } } : State).wr Fld.CFG_STATUS_LOADER ldIdle

theorem State.nowInForce_inForce (s : State) : InForce (fun b => s.rd (Fld.BAY_UDIN_VALUE b)) s.nowInForce := by
  have hkept : ∀ g ∈ (List.range 16).map Fld.BAY_UDIN_VALUE, Fld.CFG_STATUS_LOADER.apart g = true := by decide +kernel
  exact ⟨rfl, State.rd_wr_same .., fun b hb => State.rd_wr_apart _ _ (hkept _ (List.mem_map.2 ⟨b, List.mem_range.2 hb, rfl⟩))⟩

theorem InForce.liveApply {im : Image} (h : InForce ud (s.applyRegs im).nowInForce) : InForce ud (s.liveApply im) := by
  unfold State.liveApply
  extract_lets _ _ _ _ written rated lanes bays pulses aux streams fused panel ports
  have hw : InForce ud written := h
  have hr : InForce ud rated :=
    .ite hw (hw.keeps (liveLateral.rateTrim live_xrefRate (.refl _)))
  have hl : InForce ud lanes :=
    .foldl (InForce.keeps (.foldl hr fun _ _ hm hu => .reloadLane hu (List.mem_range.1 hm)) (liveLateral.refreshAcq (.refl _)))
      fun _ _ hm hu => .wrB hu (offSide_of_lt (List.mem_range.1 hm))
  have hb : InForce ud bays :=
    .foldl hl fun _ _ hm hu => .reloadBay hu (List.mem_range.1 hm)
  have hp : InForce ud pulses :=
    .foldl hb fun _ _ hm hu => .reloadPulse hu (List.mem_range.1 hm)
  have ha : InForce ud aux := .reloadAux hp
  have hs : InForce ud streams := .foldl ha fun _ _ _ hu => .reloadStream hu
  have hf : InForce ud fused :=
    .crackSettle (.refreshTamperAlert (.lsgFuse hs))
  have hn : InForce ud panel :=
    .panelReload hf fun _ hm => List.mem_range.1 (List.mem_filter.1 hm).1
  have ht : InForce ud ports := .foldl hn fun _ _ _ hu => .reloadPort hu
  exact .reloadPower (.reloadLinks (.reloadPtp ht))
theorem State.takesEffect_applies {im : Image} (ha : s.ldr.accepted = some im) (hl : s.core.loaded = true)
    (hw : s.core.warned = false) (ht : s.ldr.atTick < s.core.ticks) : s.takesEffect = s.liveApply im := by
  unfold State.takesEffect
  rw [ha]
  exact if_pos (by simp [hl, hw, ht])

set_option Elab.async false in
theorem State.takesEffect_flash (s : State) : s.takesEffect.flash = s.flash := by
  have hbase : Frame { s with ldr := { s.ldr with flash := none } } s := (Frame.refl _).update
  exact (Frame.takesEffect hbase).flash rfl

/-! ### LOAD and LOAD_RESET (R402) -/

/-- The load that a live load begins. -/
def State.liveCandidate (s : State) (x : Session) (reset : Bool) : Load :=
  { slot := 1 - s.rd Fld.CFG_STATUS_ACTIVE_SLOT, live := true, reset, roles := x.role, keys := keysOne x.key }

/-- The loader reads the candidate. -/
def State.liveReading (s : State) (x : Session) (reset : Bool) : State :=
  ({ s with ldr := { s.ldr with cur := some (s.liveCandidate x reset) } } : State).wr Fld.CFG_STATUS_LOADER ldRead

theorem State.liveLoad_idle (h : s.cfgBusy = false) (x : Session) (reset : Bool) : s.liveLoad x reset = s.liveReading x reset :=
  if_neg (by simp [h])

theorem State.liveReading_spec (s : State) (x : Session) (reset : Bool) :
    (s.liveReading x reset).ldr.cur = some (s.liveCandidate x reset) ∧ (s.liveReading x reset).loader = ldRead ∧
      s.keepsWords (s.liveReading x reset) [Adr.CFG_STATUS] ∧ (s.liveReading x reset).led = s.led ∧
      (s.liveReading x reset).str = s.str ∧ (s.liveReading x reset).flash = s.flash :=
  ⟨rfl, State.rd_wr_same .., .wr (.of_regs rfl), rfl, rfl, rfl⟩

theorem exec_load {x : Session} (hr : s.core.running = true) (hg : s.gate p roleService true = .pass x) (hb : s.cfgBusy = false) :
    exec (.load p) s = .next (s.liveReading x false) ∧ exec (.loadReset p) s = .next (s.liveReading x true) := by
  have hcmd (v : Word) (hv : v = 0x10000000 ∨ v = 0x20000000) :
      (s.wCfgCmd p v).2 = s.liveReading x (decide (bitsOf v.toNat 28 4 = 2)) := by
    have hlock : (decide (bitsOf v.toNat 28 4 = 1) || decide (bitsOf v.toNat 28 4 = 2)) = true := by
      obtain rfl | rfl := hv <;> decide
    unfold State.wCfgCmd
    dsimp only
    rw [hlock, hg]
    exact State.liveLoad_idle hb x _
  exact ⟨congrArg Host.Outcome.next ((State.host_of_running hr).trans (hcmd _ (.inl rfl))),
    congrArg Host.Outcome.next ((State.host_of_running hr).trans (hcmd _ (.inr rfl)))⟩

/-- Settles O51: a live load by `State.liveReading_spec`; the image that takes effect by `InForce.liveApply`. -/
theorem liveLoads : Obligations.LiveLoads := by
  unfold Obligations.LiveLoads
  refine fun s => ⟨fun p x hr hg hb => ?load, fun im ha hl hw ht => ?effect⟩
  case load =>
    obtain ⟨hload, hreset⟩ := exec_load hr hg hb
    obtain ⟨hcur, hread, hwords, hled, hstr, hflash⟩ := s.liveReading_spec x false
    obtain ⟨hcur', hread', hwords', hled', hstr', hflash'⟩ := s.liveReading_spec x true
    exact ⟨⟨_, _, hload, hcur, rfl, rfl, rfl, rfl, hread, hwords, hled, hstr, hflash⟩,
      ⟨_, _, hreset, hcur', rfl, rfl, rfl, hread', hwords', hled', hstr', hflash'⟩⟩
  case effect =>
    have hforce : InForce (fun b => (s.applyRegs im).rd (Fld.BAY_UDIN_VALUE b)) s.takesEffect := by
      rw [State.takesEffect_applies ha hl hw ht]
      exact .liveApply (State.nowInForce_inForce _)
    refine ⟨s.takesEffect, rfl, hforce.accepted, hforce.loader, s.takesEffect_flash, fun b v hb hm hu => ?_⟩
    have hgiven : (s.withImage im.regs).word (Adr.BAY_UDIN b) = v := storeGet_foldl_storeSet hu _ (.inr hm)
    exact BitVec.eq_of_toNat_eq (calc
      (s.takesEffect.word (Adr.BAY_UDIN b)).toNat = s.takesEffect.rd (Fld.BAY_UDIN_VALUE b) := State.word_udin ..
      _ = (s.applyRegs im).rd (Fld.BAY_UDIN_VALUE b) := hforce.udin b hb
      _ = (s.withImage im.regs).rd (Fld.BAY_UDIN_VALUE b) := s.applyRegs_udin im hb
      _ = v.toNat := by rw [← State.word_udin, hgiven])
end Sys2Proof.Machine
end
